-- ==== Sys2Proof/Word.lean ====
section
/-! DEFINITION. The word types of the Gliotte G9 (R3, R13, R29): bytes, the 32-bit words of the register
files, and the 64-bit values of register pairs, instruction words and registers of the MMIO range. -/

namespace Sys2Proof

/-- A byte of memory. -/
abbrev Byte := BitVec 8

/-- A 32-bit word: one scalar register, or one lane of a vector register (R13). -/
abbrev Word := BitVec 32

/-- A 64-bit value: a register pair, an instruction word (R194), an MMIO register (R29). -/
abbrev DWord := BitVec 64

end Sys2Proof
end

