-- ==== Sys2Proof/Config.lean ====
section
/-! DEFINITION. What is fixed for one package, and the free values: constants without a body, so that nothing
can be proved about their values. -/

namespace Sys2Proof.Config

/-- Free value (log 5): the f32 result of special function `f` (0 RCP, 1 RSQ, 2 EXP2, 3 LOG2, 4 SIN, 5 COS,
6 TANH) on the f32 operand, where R261 gives an error bound and no value. -/
opaque special (f : Nat) (x : Word) : Word

/-- Free value (log 5): whether a result that is the least normal number underflowed (R261: by the final rounding). -/
opaque specialUf (f : Nat) (x : Word) : Bool

/-- Free value (log 6): the 64 fresh bits that the `n`-th read of the entropy source returns (R442). -/
opaque entropy (n : Nat) : DWord

/-- Free value (log 6): the `n`-th world key drawn by the trust core (R405). -/
opaque worldKey (n : Nat) : BitVec 256

/-- Free value (log 7): AES-256-GCM encryption under a key, IV and associated data: the ciphertext (R411, R413). -/
opaque gcmSeal (key : BitVec 256) (iv : Nat) (ad msg : List Byte) : List Byte

/-- Free value (log 7): the 16-byte GCM or GMAC tag (R412, R413). -/
opaque gcmTag (key : BitVec 256) (iv : Nat) (ad msg : List Byte) : List Byte

/-- Free value (log 7): decryption of what `gcmSeal` gave. -/
opaque gcmOpen (key : BitVec 256) (iv : Nat) (ad ct : List Byte) : List Byte

/-- Free value (log 8): the 7,856-byte SLH-DSA-SHA2-128s signature of a message (R332), a function of key and message. -/
opaque slhSign (key : List Byte) (msg : List Byte) : List Byte

/-- Free value (log 8): the device identity key, which slot 0 of SIGNQ holds (R332). -/
opaque identityKey : List Byte

/-- Free value (log 8): whether a signature verifies under a public key (R400). -/
opaque slhVerify (key sig msg : List Byte) : Bool

/-- Free value (log 9): bytes of a response whose layout only an outside standard gives
(IDE_KM and TDISP messages, R404), from the request. -/
opaque vendorResponse (request : List Byte) : List Byte

/-- Free value (log 9): the IDE stream that an IDE_KM request names (R404). -/
opaque vendorStream (request : List Byte) : Nat

/-- Free value (log 9): the interface report of TDISP interface `i` (R404, R407). -/
opaque interfaceReport (i : Nat) : List Byte

/-- Free value (log 23): the stochastic-rounding word of a matrix command whose wave has ended, where the spec names the
generator of a lane that no longer exists (R187). -/
opaque freeWord (n : Nat) : Word

/-- Free value (log 80): which of the bytes that unfenced stores of its wave replaced at a scratch address an engine command reads, by
place in their order; a place past the last of them stands for the byte that is there (R144, R302). -/
opaque scratchSeen (cmd a : Nat) : Nat

/-- Free value (log 72): the byte that a read of an address that R45 leaves unbacked, or of a device register, returns to the fabric block, the
snapshot engine or the mailbox, by the number of the read. -/
opaque unbacked (n pa : Nat) : Byte

/-- Free value (log 35): the set of its slice that holds a line of the L2, of 6,144 (R73, R77). -/
opaque l2Set (line : Nat) : Nat

/-- Free value (log 61): whether a line of memory is present at its home slice when the `n`-th cohort is chosen (R347). -/
opaque present (n line : Nat) : Bool

/-- Free value (log 37): the bytes of the record of an ageing plan, from AGEPLAN and each core's number, guardband and bin (R423). -/
opaque ageRecord (plan : List Nat) : List Byte

end Sys2Proof.Config
end

