-- ==== Sys2Proof/Machine/Maps.lean ====
section
/-! DEFINITION. Sparse maps as plain data: lists of (key, value) with strictly rising keys. `mapGet`/`mapPut` work
over a default value that is never listed, so equal contents are equal lists; `mapFind`/`mapInsert`/`mapErase` work over
records that are present or absent. Bit fields and byte order of the spec (R3) stand here as well. -/

namespace Sys2Proof.Machine

/-- The value at a key; an unlisted key reads as `d`. -/
def mapGet {α : Type} (d : α) : List (Nat × α) → Nat → α
  | [], _ => d
  | (k, v) :: m, a => if a = k then v else if a < k then d else mapGet d m a

/-- The entries above a key: what follows an entry that is removed. -/
def mapAbove {α : Type} (a : Nat) : List (Nat × α) → List (Nat × α)
  | [] => []
  | (k, v) :: m => if k ≤ a then mapAbove a m else (k, v) :: m

/-- Sets the value at a key and keeps the form: writing `d` removes the entry. -/
def mapPut {α : Type} [DecidableEq α] (d : α) : List (Nat × α) → Nat → α → List (Nat × α)
  | [], a, x => if x = d then [] else [(a, x)]
  | (k, v) :: m, a, x =>
    if a = k then (if x = d then mapAbove a m else (a, x) :: m)
    else if a < k then (if x = d then (k, v) :: m else (a, x) :: (k, v) :: m)
    else (k, v) :: mapPut d m a x

/-- Every key is above `b`, keys rise strictly, and no value is the default. -/
def mapWfFrom {α : Type} [DecidableEq α] (d : α) : Nat → List (Nat × α) → Bool
  | _, [] => true
  | b, (k, v) :: m => decide (b ≤ k) && decide (v ≠ d) && mapWfFrom d (k + 1) m

/-- The canonical form. -/
def mapWf {α : Type} [DecidableEq α] (d : α) (m : List (Nat × α)) : Bool := mapWfFrom d 0 m

/-- The record at a key, if one is present. -/
def mapFind {α : Type} : List (Nat × α) → Nat → Option α
  | [], _ => none
  | (k, v) :: m, a => if a = k then some v else if a < k then none else mapFind m a

/-- Inserts or replaces the record at a key. -/
def mapInsert {α : Type} : List (Nat × α) → Nat → α → List (Nat × α)
  | [], a, x => [(a, x)]
  | (k, v) :: m, a, x =>
    if a = k then (a, x) :: m else if a < k then (a, x) :: (k, v) :: m else (k, v) :: mapInsert m a x

/-- Removes the record at a key. -/
def mapErase {α : Type} : List (Nat × α) → Nat → List (Nat × α)
  | [], _ => []
  | (k, v) :: m, a => if a = k then mapAbove a m else (k, v) :: mapErase m a

/-- Bits `hi` down to `lo` of a natural number (R3). -/
def fld (x hi lo : Nat) : Nat := x / 2 ^ lo % 2 ^ (hi + 1 - lo)

/-- Bit `n` of a natural number. -/
def bit (x n : Nat) : Bool := x / 2 ^ n % 2 == 1

/-- A truth value as a bit. -/
def b2n (b : Bool) : Nat := if b then 1 else 0

/-- Little-endian value of a list of bytes (R3). -/
def leNat : List Byte → Nat
  | [] => 0
  | b :: bs => b.toNat + 256 * leNat bs

/-- The low `n` bytes of a value, little-endian (R3). -/
def natLe : Nat → Nat → List Byte
  | 0, _ => []
  | n + 1, x => BitVec.ofNat 8 x :: natLe n (x / 256)

/-- The value of an n-bit field read as two's complement. -/
def signedOf (n x : Nat) : Int := if 2 * (x % 2 ^ n) < 2 ^ n then (x % 2 ^ n : Nat) else (x % 2 ^ n : Nat) - (2 ^ n : Nat)

/-- An integer stored modulo 2^n. -/
def wrapTo (n : Nat) (x : Int) : Nat := (x % (2 ^ n : Nat)).toNat

/-- The clamp of an integer to a range (R181). -/
def clampTo (lo hi x : Int) : Int := if x < lo then lo else if hi < x then hi else x

/-- The `i`-th element of a list, or `d`. -/
def nth {α : Type} (d : α) (l : List α) (i : Nat) : α := (l[i]?).getD d

/-- Replaces the first element that satisfies `p`. -/
def updFirst {α : Type} (p : α → Bool) (f : α → α) : List α → List α
  | [] => []
  | x :: xs => if p x then f x :: xs else x :: updFirst p f xs

/-- Removes the first element that satisfies `p`. -/
def dropFirst {α : Type} (p : α → Bool) : List α → List α
  | [] => []
  | x :: xs => if p x then xs else x :: dropFirst p xs

/-- Removes the element at a position. -/
def dropAt {α : Type} : List α → Nat → List α
  | [], _ => []
  | _ :: xs, 0 => xs
  | x :: xs, n + 1 => x :: dropAt xs n

/-- Sorted insertion of a number, without repeats. -/
def insNat (x : Nat) : List Nat → List Nat
  | [] => [x]
  | y :: ys => if x = y then y :: ys else if x < y then x :: y :: ys else y :: insNat x ys

/-- The least element of a list, or `d`. -/
def minNat (d : Nat) (l : List Nat) : Nat := l.foldl Nat.min d

end Sys2Proof.Machine
end

