-- ==== Sys2Proof/Machine/Flags.lean ====
section
/-! DEFINITION. Floating-point values, Round and the flags of FPSTAT (R178 to R186, R188, R189). An exact value is a sign, a
magnitude m × 2^e and a mark that something smaller than one unit of m follows; every operation rounds it once. -/

namespace Sys2Proof.Machine

/-! ### Formats (R178, R179) -/

/-- A floating-point format: exponent bits, fraction bits, bias, largest finite code, infinity (e4m3 has none), canonical
NaN, and whether a NaN with top fraction bit 0 is signalling. -/
structure FpFmt where
  eb : Nat
  fb : Nat
  bias : Nat
  maxCode : Nat
  inf : Option Nat
  nan : Nat
  sig : Bool
deriving DecidableEq, Repr

def fpF64 : FpFmt := ⟨11, 52, 1023, 0x7FEFFFFFFFFFFFFF, some 0x7FF0000000000000, 0x7FF8000000000000, true⟩
def fpF32 : FpFmt := ⟨8, 23, 127, 0x7F7FFFFF, some 0x7F800000, 0x7FC00000, true⟩
def fpF16 : FpFmt := ⟨5, 10, 15, 0x7BFF, some 0x7C00, 0x7E00, true⟩
def fpBf16 : FpFmt := ⟨8, 7, 127, 0x7F7F, some 0x7F80, 0x7FC0, true⟩
def fpE4m3 : FpFmt := ⟨4, 3, 7, 0x7E, none, 0x7F, false⟩
def fpE5m2 : FpFmt := ⟨5, 2, 15, 0x7B, some 0x7C, 0x7E, false⟩

/-- Bits of a value. -/
def FpFmt.width (f : FpFmt) : Nat := 1 + f.eb + f.fb

/-- Format by code (R178). -/
def fpFormat (code : Nat) : FpFmt :=
  match code with
  | 0 => fpF64
  | 1 => fpF32
  | 2 => fpF16
  | 3 => fpBf16
  | 4 => fpE4m3
  | _ => fpE5m2

/-- A value: NaN, infinity, or sign × (m + something in (0, 1) if `st`) × 2^e. -/
inductive FpVal where
  | nan (signalling : Bool)
  | inf (neg : Bool)
  | fin (neg : Bool) (m : Nat) (e : Int) (st : Bool)
deriving DecidableEq, Repr

/-- The value that a code of a format encodes. -/
def fpDecode (f : FpFmt) (x : Nat) : FpVal :=
  let neg := bit x (f.eb + f.fb)
  let ex := x / 2 ^ f.fb % 2 ^ f.eb
  let fr := x % 2 ^ f.fb
  if ex = 2 ^ f.eb - 1 ∧ f.inf.isSome then
    if fr = 0 then .inf neg else .nan (f.sig && !bit fr (f.fb - 1))
  else if f.inf.isNone ∧ ex * 2 ^ f.fb + fr = f.nan then .nan false
  else if ex = 0 then .fin neg fr (1 - f.bias - f.fb) false
  else .fin neg (2 ^ f.fb + fr) ((ex : Int) - f.bias - f.fb) false

def FpVal.isNan : FpVal → Bool
  | .nan _ => true
  | _ => false
def FpVal.isSig : FpVal → Bool
  | .nan s => s
  | _ => false
def FpVal.isZero : FpVal → Bool
  | .fin _ m _ st => m == 0 && !st
  | _ => false
def FpVal.isInf : FpVal → Bool
  | .inf _ => true
  | _ => false
def FpVal.neg : FpVal → Bool
  | .inf n => n
  | .fin n _ _ _ => n
  | .nan _ => false

/-! ### Flags (R184) -/

def flagNV : Nat := 1
def flagDZ : Nat := 2
def flagOF : Nat := 4
def flagUF : Nat := 8
def flagNX : Nat := 16

/-- A result: its code and the flags it raises. -/
abbrev FpRes := Nat × Nat

/-- The sign bit of a format. -/
def FpFmt.signed (f : FpFmt) (neg : Bool) (x : Nat) : Nat := if neg then x + 2 ^ (f.eb + f.fb) else x

/-! ### Round (R182, R186) -/

/-- Does a magnitude n + (rem + st) / 2^sh round up to n + 1 under a mode? `u` is the generator's word for SR. -/
def roundsUp (mode u : Nat) (neg : Bool) (n rem sh : Nat) (st : Bool) : Bool :=
  let inexact := rem != 0 || st
  match mode with
  | 0 => decide (2 * rem > 2 ^ sh) || (decide (2 * rem = 2 ^ sh) && (st || n % 2 == 1))
  | 1 => false
  | 2 => inexact && !neg
  | 3 => inexact && neg
  | 4 => decide (0 < sh) && decide (2 ^ sh ≤ 2 * rem)
  | _ => decide (2 ^ (sh + 32) ≤ rem * 2 ^ 32 + u * 2 ^ sh)

/-- m × 2^e measured in units of 2^q and rounded to an integer: the integer and whether it is inexact. -/
def roundAt (mode u : Nat) (neg : Bool) (m : Nat) (e : Int) (st : Bool) (q : Int) : Nat × Bool :=
  if q ≤ e then (m * 2 ^ (e - q).toNat + b2n (roundsUp mode u neg (m * 2 ^ (e - q).toNat) 0 0 st), st)
  else
    let sh := (q - e).toNat
    let n := m / 2 ^ sh
    let rem := m % 2 ^ sh
    (n + b2n (roundsUp mode u neg n rem sh st), rem != 0 || st)

/-- a × 2^i > b × 2^j. -/
def magGt (a : Nat) (i : Int) (b : Nat) (j : Int) : Bool :=
  if i ≤ j then decide (b * 2 ^ (j - i).toNat < a) else decide (b < a * 2 ^ (i - j).toNat)

/-- Does a mode carry an overflow to infinity (R182)? -/
def toInfinity (mode : Nat) (neg : Bool) : Bool :=
  mode == 0 || mode == 4 || mode == 5 || (mode == 2 && !neg) || (mode == 3 && neg)

/-- An overflowed result: infinity, the largest finite value, or e4m3's NaN (R182, R188); `sat` as in R188. -/
def overflowed (f : FpFmt) (mode : Nat) (sat neg : Bool) : FpRes :=
  let code := if sat || !toInfinity mode neg then f.signed neg f.maxCode
    else match f.inf with
      | some x => f.signed neg x
      | none => f.nan
  (code, flagOF + flagNX)

/-- Code of n × 2^q, where q is at least the exponent of the smallest subnormal and n at most 2^(fb + 1). -/
def fpEncode (f : FpFmt) (neg : Bool) (n : Nat) (q : Int) : Nat :=
  let (n, q) := if 2 ^ (f.fb + 1) ≤ n then (n / 2, q + 1) else (n, q)
  f.signed neg (if n < 2 ^ f.fb then n else (q + f.fb + f.bias).toNat * 2 ^ f.fb + (n - 2 ^ f.fb))

/-- Round of a finite nonzero exact value (R182), with OF, UF after rounding, and NX (R184). -/
def roundFin (f : FpFmt) (mode u : Nat) (sat neg : Bool) (m : Nat) (e : Int) (st : Bool) : FpRes :=
  let p := f.fb + 1
  let qu := (Nat.log2 m : Int) + 1 + e - p
  let qmin : Int := 1 - f.bias - f.fb
  let q := max qu qmin
  let (n, inexact) := roundAt mode u neg m e st q
  match fpDecode f f.maxCode with
  | .fin _ mm me _ =>
    if magGt n q mm me then overflowed f mode sat neg
    else
      let tiny := decide (qu < qmin) && magGt (2 ^ f.fb) qmin (roundAt mode u neg m e st qu).1 qu
      (fpEncode f neg n q, (if tiny && inexact then flagUF else 0) + (if inexact then flagNX else 0))
  | _ => (f.nan, 0)

/-- Round of any value. `zneg` is the sign of an exact zero. -/
def roundVal (f : FpFmt) (mode u : Nat) (sat : Bool) (v : FpVal) : FpRes :=
  match v with
  | .nan _ => (f.nan, 0)
  | .inf neg => match f.inf with
    | some x => (f.signed neg x, 0)
    | none => (f.nan, 0)
  | .fin neg m e st => if m = 0 ∧ st = false then (f.signed neg 0, 0) else roundFin f mode u sat neg m e st

/-- Round of an exact value to an integer in [lo, hi] (R189): a value outside gives the nearest end with NV, a NaN 0
with NV. -/
def roundInt (mode u : Nat) (lo hi : Int) (v : FpVal) : Int × Nat :=
  match v with
  | .nan _ => (0, flagNV)
  | .inf neg => (if neg then lo else hi, flagNV)
  | .fin neg m e st =>
    let (n, inexact) := roundAt mode u neg m e st 0
    let x : Int := if neg then -(n : Int) else n
    if x < lo then (lo, flagNV) else if hi < x then (hi, flagNV) else (x, if inexact then flagNX else 0)

end Sys2Proof.Machine
end

