-- ==== Sys2Proof/Machine/Float.lean ====
section
/-! DEFINITION. Floating-point operations on exact values (R180, R188, R189, R193, R231, R258 to R264): each gives the code of
the result and the flags it raises. -/

namespace Sys2Proof.Machine

/-- A finite value as a signed integer in units of 2^q, where q is at most its exponent. -/
def scaled (neg : Bool) (m : Nat) (e q : Int) : Int :=
  let x : Int := (m * 2 ^ (e - q).toNat : Nat)
  if neg then -x else x

/-- NV for signalling operands. -/
def sigFlag (vs : List FpVal) : Nat := if vs.any (·.isSig) then flagNV else 0

/-- The sign of an exact zero sum (R180): the common sign of zero addends, else + except under RDN. -/
def zeroSign (mode : Nat) (vs : List FpVal) : Bool :=
  if vs.all fun v => v.isZero && v.neg then true
  else if vs.all fun v => v.isZero && !v.neg then false
  else mode == 3

/-- An exact finite sum of a list of finite values, as sign and magnitude over a common exponent. -/
def sumFin (vs : List FpVal) : Int × Int :=
  let q := vs.foldl (fun q v => match v with
    | .fin _ m e _ => if m = 0 then q else min q e
    | _ => q) 2000
  (vs.foldl (fun acc v => match v with
    | .fin neg m e _ => if m = 0 then acc else acc + scaled neg m e q
    | _ => acc) 0, q)

/-- The value of a sum of terms: NaN, an infinity or a finite value, and the flags of the special cases. -/
def sumVal (zneg : Bool) (vs : List FpVal) : FpVal × Nat :=
  if vs.any (·.isNan) then (.nan false, 0)
  else if vs.any fun v => v.isInf && v.neg then
    if vs.any fun v => v.isInf && !v.neg then (.nan false, flagNV) else (.inf true, 0)
  else if vs.any (·.isInf) then (.inf false, 0)
  else
    let (x, q) := sumFin vs
    if x = 0 then (.fin zneg 0 0 false, 0) else (.fin (decide (x < 0)) x.natAbs q false, 0)

/-- The exact product of two values; 0 × ∞ is a NaN with NV. -/
def mulVal (a b : FpVal) : FpVal × Nat :=
  match a, b with
  | .nan _, _ => (.nan false, 0)
  | _, .nan _ => (.nan false, 0)
  | .inf x, b => if b.isZero then (.nan false, flagNV) else (.inf (x != b.neg), 0)
  | a, .inf y => if a.isZero then (.nan false, flagNV) else (.inf (a.neg != y), 0)
  | .fin x m e _, .fin y n d _ => (.fin (x != y) (m * n) (e + d) false, 0)

/-- The negative of a value. -/
def negVal : FpVal → FpVal
  | .inf n => .inf (!n)
  | .fin n m e st => .fin (!n) m e st
  | .nan s => .nan s

/-- Rounds a value computed with flags; the flags are collected. -/
def finishFp (f : FpFmt) (mode u : Nat) (flags : Nat) (v : FpVal) : FpRes :=
  let r := roundVal f mode u false v
  (r.1, r.2 ||| flags)

/-- a + b (R258). -/
def fpAdd (f : FpFmt) (mode u : Nat) (a b : Nat) : FpRes :=
  let vs := [fpDecode f a, fpDecode f b]
  let (v, fl) := sumVal (zeroSign mode vs) vs
  finishFp f mode u (fl ||| sigFlag vs) v

/-- a − b (R258). -/
def fpSub (f : FpFmt) (mode u : Nat) (a b : Nat) : FpRes :=
  let vs := [fpDecode f a, negVal (fpDecode f b)]
  let (v, fl) := sumVal (zeroSign mode vs) vs
  finishFp f mode u (fl ||| sigFlag vs) v

/-- a × b (R258). -/
def fpMul (f : FpFmt) (mode u : Nat) (a b : Nat) : FpRes :=
  let x := fpDecode f a
  let y := fpDecode f b
  let (v, fl) := mulVal x y
  finishFp f mode u (fl ||| sigFlag [x, y]) v

/-- a × b + c, rounded once (R180, R258). 0 × ∞ + NaN sets NV, as IEEE 754-2019 lets it (log 16). -/
def fpFma (f : FpFmt) (mode u : Nat) (a b c : Nat) : FpRes :=
  let x := fpDecode f a
  let y := fpDecode f b
  let z := fpDecode f c
  let (p, fl) := mulVal x y
  let (v, fl2) := sumVal (zeroSign mode [p, z]) [p, z]
  finishFp f mode u (fl ||| fl2 ||| sigFlag [x, y, z]) v

/-- a / b, correctly rounded (R258). The quotient carries over 100 bits and a mark of what is left. -/
def fpDiv (f : FpFmt) (mode u : Nat) (a b : Nat) : FpRes :=
  let x := fpDecode f a
  let y := fpDecode f b
  let fl := sigFlag [x, y]
  match x, y with
  | .nan _, _ => (f.nan, fl)
  | _, .nan _ => (f.nan, fl)
  | .inf n, y => if y.isInf then (f.nan, flagNV) else finishFp f mode u 0 (.inf (n != y.neg))
  | .fin n _ _ _, .inf k => finishFp f mode u 0 (.fin (n != k) 0 0 false)
  | .fin n m e _, .fin k m' e' _ =>
    if m' = 0 then if m = 0 then (f.nan, flagNV) else finishFp f mode u flagDZ (.inf (n != k))
    else if m = 0 then finishFp f mode u 0 (.fin (n != k) 0 0 false)
    else
      let sh : Nat := 200
      finishFp f mode u 0 (.fin (n != k) (m * 2 ^ sh / m') (e - e' - (sh : Int)) (m * 2 ^ sh % m' != 0))

/-- Integer square root by bits: `fuel` bits from the top. -/
def isqrt : Nat → Nat → Nat → Nat
  | 0, _, r => r
  | n + 1, x, r => if (r + 2 ^ n) * (r + 2 ^ n) ≤ x then isqrt n x (r + 2 ^ n) else isqrt n x r

/-- The root of m × 2^e with over 100 bits, and whether it is inexact. -/
def rootVal (m : Nat) (e : Int) : Nat × Int × Bool :=
  let sh : Nat := if e % 2 = 0 then 200 else 201
  let x := m * 2 ^ sh
  let r := isqrt 130 x 0
  (r, (e - sh) / 2, r * r != x)

/-- √a, correctly rounded (R258): −0 gives −0, a value below it the canonical NaN with NV. -/
def fpSqrt (f : FpFmt) (mode u : Nat) (a : Nat) : FpRes :=
  match fpDecode f a with
  | .nan s => (f.nan, if s then flagNV else 0)
  | .inf n => if n then (f.nan, flagNV) else finishFp f mode u 0 (.inf false)
  | .fin n m e _ =>
    if m = 0 then (f.signed n 0, 0) else if n then (f.nan, flagNV)
    else
      let (r, q, st) := rootVal m e
      finishFp f mode u 0 (.fin false r q st)

/-- The order of two values that are not NaN, zeros of either sign equal. -/
def valLt (a b : FpVal) : Bool :=
  match a, b with
  | .inf n, b => n && !(b.isInf && b.neg)
  | a, .inf n => !n && !(a.isInf && !a.neg)
  | .fin n m e _, .fin n' m' e' _ => let q := min e e'
    decide (scaled n m e q < scaled n' m' e' q)
  | _, _ => false

/-- Equality of two values that are not NaN. -/
def valEq (a b : FpVal) : Bool := !a.isNan && !b.isNan && !valLt a b && !valLt b a

/-- VFMIN and VFMAX (R259): −0 below +0, one NaN gives the other operand, two the canonical NaN; a signalling NaN sets NV. -/
def fpMinMax (f : FpFmt) (mx : Bool) (a b : Nat) : FpRes :=
  let x := fpDecode f a
  let y := fpDecode f b
  let fl := sigFlag [x, y]
  if x.isNan then if y.isNan then (f.nan, fl) else (b, fl)
  else if y.isNan then (a, fl)
  else
    let less := valLt x y || (valEq x y && x.neg && !y.neg)
    ((if less != mx then a else b), fl)

/-- The predicates of R231 with their NV rule: 0 EQ, 1 NE, 2 LT, 3 LE, 4 GT, 5 GE, 6 ORD, 7 UNO. -/
def fpCompare (f : FpFmt) (p : Nat) (a b : Nat) : Bool × Nat :=
  let x := fpDecode f a
  let y := fpDecode f b
  let nan := x.isNan || y.isNan
  let fl := if (x.isSig || y.isSig) || (nan && decide (2 ≤ p ∧ p ≤ 5)) then flagNV else 0
  let r := match p with
    | 0 => !nan && valEq x y
    | 1 => nan || !valEq x y
    | 2 => !nan && valLt x y
    | 3 => !nan && !valLt y x
    | 4 => !nan && valLt y x
    | 5 => !nan && !valLt x y
    | 6 => !nan
    | _ => nan
  (r, fl)

/-- The class mask of VFCLASS (R260). -/
def fpClass (f : FpFmt) (a : Nat) : Nat :=
  match fpDecode f a with
  | .nan s => if s then 2 ^ 8 else 2 ^ 9
  | .inf n => if n then 1 else 2 ^ 7
  | .fin n m _ _ =>
    if m = 0 then if n then 2 ^ 3 else 2 ^ 4
    else if m < 2 ^ f.fb then if n then 2 ^ 2 else 2 ^ 5
    else if n then 2 ^ 1 else 2 ^ 6

/-! ### Conversions (R188, R189, R229, R262) -/

/-- A numeric type as a conversion source or target: a floating-point format, or an integer of a width and sign. -/
inductive NumTy where
  | fp (f : FpFmt)
  | int (width : Nat) (signed : Bool)
deriving DecidableEq, Repr

/-- Range of an integer type (R181). -/
def intLo (w : Nat) (signed : Bool) : Int := if signed then -(2 ^ (w - 1) : Nat) else 0
def intHi (w : Nat) (signed : Bool) : Int := if signed then (2 ^ (w - 1) : Nat) - 1 else (2 ^ w : Nat) - 1

/-- The value of an integer field. -/
def intVal (w : Nat) (signed : Bool) (x : Nat) : Int := if signed then signedOf w x else (x % 2 ^ w : Nat)

/-- Conversion of a code from a type to a type under a mode and the sat bit. A conversion to the same floating-point format
copies, except that a signalling NaN becomes the canonical one. -/
def convert (src dst : NumTy) (mode u : Nat) (sat : Bool) (x : Nat) : FpRes :=
  match src, dst with
  | .int w sg, .int w' sg' => (wrapTo w' (clampTo (intLo w' sg') (intHi w' sg') (intVal w sg x)), 0)
  | .int w sg, .fp f =>
    let v := intVal w sg x
    roundVal f mode u sat (.fin (decide (v < 0)) v.natAbs 0 false)
  | .fp f, .int w sg =>
    let (v, fl) := roundInt mode u (intLo w sg) (intHi w sg) (fpDecode f x)
    (wrapTo w v, fl)
  | .fp f, .fp g =>
    let v := fpDecode f x
    if f = g then if v.isSig then (g.nan, flagNV) else (x % 2 ^ f.width, 0)
    else match v with
      | .nan s => (g.nan, if s then flagNV else 0)
      | .inf n =>
        if sat then (g.signed n g.maxCode, 0)
        else match g.inf with
          | some c => (g.signed n c, 0)
          | none => (g.nan, flagNV)
      | v => roundVal g mode u sat v

/-- The V2 type codes as SCVT reads them (R229): 6 and 7 are a single f16 and bf16. -/
def scvtType (ty : Nat) : NumTy :=
  match ty with
  | 0 => .int 32 true
  | 1 => .int 32 false
  | 2 => .int 64 true
  | 3 => .int 64 false
  | 4 => .fp fpF32
  | 5 => .fp fpF64
  | 6 => .fp fpF16
  | _ => .fp fpBf16

/-- The format codes of VCVT, MSHOUT and MSHIN (R178, R181): 7 is i8 and 8 is i32. -/
def cvtType (code : Nat) : NumTy :=
  if code = 7 then .int 8 true else if code = 8 then .int 32 true else .fp (fpFormat code)

/-- Bits of a type. -/
def NumTy.width : NumTy → Nat
  | .fp f => f.width
  | .int w _ => w

/-! ### Sums of products (R193, R258) -/

/-- The exact sum of R193: an accumulator, products, and further NaN inputs (a block whose scale is 0xFF). A zero is −0 only
when every term is −0. -/
def exactSum (f : FpFmt) (mode u : Nat) (acc : FpVal) (prods : List (FpVal × FpVal)) (nanBlock : Bool) : FpRes :=
  let ins := acc :: prods.flatMap fun p => [p.1, p.2]
  let sig := sigFlag ins
  let ps := prods.map fun p => mulVal p.1 p.2
  let terms := acc :: ps.map (·.1)
  if nanBlock || ins.any (·.isNan) then (f.nan, sig)
  else if ps.any fun p => p.2 != 0 then (f.nan, flagNV)
  else
    let (v, fl) := sumVal (terms.all fun t => t.isZero && t.neg) terms
    finishFp f mode u fl v

/-! ### Special functions (R261) -/

/-- Is a finite value 2^n, with its n? -/
def powerOfTwo (m : Nat) (e : Int) : Option Int := if m = 2 ^ Nat.log2 m then some (e + Nat.log2 m) else none

/-- 2^n as a code of a format, if representable. -/
def codeOfPower (f : FpFmt) (neg : Bool) (n : Int) : Option Nat :=
  let r := roundVal f 0 0 false (.fin neg 1 n false)
  if r.2 = 0 then some r.1 else none

/-- The f32 results that R261 gives exactly: those of the special-values column with their flags, and the exact cases of the
error-bound column. -/
def specialExact (fn : Nat) (v : FpVal) : Option FpRes :=
  let f := fpF32
  let inf := fun (n : Bool) => f.signed n 0x7F800000
  match v with
  | .nan s => some (f.nan, if s then flagNV else 0)
  | .inf n => match fn with
    | 0 => some (f.signed n 0, 0)
    | 1 => if n then some (f.nan, flagNV) else some (0, 0)
    | 2 => if n then some (0, 0) else some (inf false, 0)
    | 3 => if n then some (f.nan, flagNV) else some (inf false, 0)
    | 4 => some (f.nan, flagNV)
    | 5 => some (f.nan, flagNV)
    | _ => some (f.signed n 0x3F800000, 0)
  | .fin n m e _ =>
    if m = 0 then match fn with
      | 0 => some (inf n, flagDZ)
      | 1 => some (inf n, flagDZ)
      | 2 => some (0x3F800000, 0)
      | 3 => some (inf true, flagDZ)
      | 4 => some (f.signed n 0, 0)
      | 5 => some (0x3F800000, 0)
      | _ => some (f.signed n 0, 0)
    else match fn with
      | 0 => (powerOfTwo m e).bind fun k => (codeOfPower f n (-k)).map fun c => (c, 0)
      | 1 => if n then some (f.nan, flagNV) else none
      | 2 =>
        let k : Option Int := if 0 ≤ e then some (if n then -(m * 2 ^ e.toNat : Nat) else (m * 2 ^ e.toNat : Nat))
          else if m % 2 ^ (-e).toNat = 0 then some (if n then -(m / 2 ^ (-e).toNat : Nat) else (m / 2 ^ (-e).toNat : Nat)) else none
        k.bind fun k => if -200 ≤ k ∧ k ≤ 200 then (codeOfPower f false k).map fun c => (c, 0) else none
      | 3 => if n then some (f.nan, flagNV) else (powerOfTwo m e).map fun k =>
          (roundVal f 0 0 false (.fin (decide (k < 0)) k.natAbs 0 false))
      | _ => none

/-! The true values of R261's functions, in fixed point with 160 fraction bits, or as a fixed-point number times a power of two. Series
are cut off below 2^-140, so that a bound is held up to that much (log 5). -/

/-- ln 2 with 240 fraction bits, π with 400. -/
def fxLn2 : Nat := 1224685061431752149387114016819916847747660333428801675508466606222838698
def fxPi : Nat :=
  8112377246730971238862271351300894519161151600179265203591191037615230905373990498745523360926816815427566779727327576236

/-- The sum of y^k / k! from term `t` of number `k` on, over `n` terms. -/
def expSeries (y : Nat) : Nat → Nat → Nat → Nat
  | 0, _, _ => 0
  | n + 1, k, t => t + expSeries y n (k + 1) (t * y / 2 ^ 160 / (k + 1))

/-- The alternating sum of sine (from term y, number 1) or cosine (from term 1, number 0). -/
def waveSeries (y : Nat) : Nat → Nat → Nat → Int
  | 0, _, _ => 0
  | n + 1, k, t => (t : Int) - waveSeries y n (k + 2) (t * y / 2 ^ 160 * y / 2 ^ 160 / ((k + 1) * (k + 2)))

/-- The sum of z^k / k over odd k. -/
def oddSeries (z : Nat) : Nat → Nat → Nat → Nat
  | 0, _, _ => 0
  | n + 1, k, t => t / k + oddSeries z n (k + 2) (t * z / 2 ^ 160 * z / 2 ^ 160)

/-- 2^f of a fraction in fixed point. -/
def fxExp2 (f : Nat) : Nat := expSeries (f * fxLn2 / 2 ^ 240) 60 0 (2 ^ 160)

/-- A magnitude m × 2^e in fixed point; every finite f32 is exact. -/
def fxOf (m : Nat) (e : Int) : Nat := if 0 ≤ e + 160 then m * 2 ^ (e + 160).toNat else m / 2 ^ (-e - 160).toNat

/-- The true value of a function on ± m × 2^e as an integer times a power of two (of -160 but for VFEXP2, VFRCP and VFRSQ). -/
def specialTrue (fn : Nat) (neg : Bool) (m : Nat) (e : Int) : Int × Int :=
  let x := fxOf m e
  let sign := fun (v : Int) => if neg then -v else v
  match fn with
  | 0 => (sign (2 ^ 300 / m : Nat), -e - 300)
  | 1 =>
    let (r, q, _) := rootVal m e
    ((2 ^ 300 / r : Nat), -q - 300)
  | 2 =>
    let v : Int := sign x
    (fxExp2 (v % 2 ^ 160).toNat, max (-400) (min 400 (v / 2 ^ 160)) - 160)
  | 3 =>
    let k := Nat.log2 m
    let s := oddSeries ((m - 2 ^ k) * 2 ^ 160 / (m + 2 ^ k)) 52 1 ((m - 2 ^ k) * 2 ^ 160 / (m + 2 ^ k))
    ((e + k) * 2 ^ 160 + (2 * s * 2 ^ 240 / fxLn2 : Nat), -160)
  | 4 =>
    let r := x * 2 ^ 240 % (2 * fxPi) / 2 ^ 240
    (sign (waveSeries r 64 1 r), -160)
  | 5 =>
    let r := x * 2 ^ 240 % (2 * fxPi) / 2 ^ 240
    (waveSeries r 64 0 (2 ^ 160), -160)
  | _ =>
    if 32 * 2 ^ 160 ≤ x then (sign (2 ^ 160 - 1 : Nat), -160)
    else
      let q := 2 * x * 2 ^ 240 / fxLn2
      let ex := fxExp2 (q % 2 ^ 160) * 2 ^ (q / 2 ^ 160)
      (sign ((ex - 2 ^ 160) * 2 ^ 160 / (ex + 2 ^ 160) : Nat), -160)

/-- Ulps of R261's bound. -/
def specialUlps (fn : Nat) : Nat := if fn = 0 then 1 else 2

/-- The absolute bound of R261, as a number of fraction bits, where it gives one. -/
def specialBound (fn : Nat) (m : Nat) (e : Int) : Option Nat :=
  match fn with
  | 3 => if fxOf 1 (-1) ≤ fxOf m e ∧ fxOf m e ≤ fxOf 1 1 then some 22 else none
  | 4 | 5 => some 22
  | 6 => some 24
  | _ => none

/-- Does a code lie within an absolute bound of a fixed-point value? -/
def withinBound (t : Int) (bits cand : Nat) : Bool :=
  match fpDecode fpF32 cand with
  | .fin n m e _ =>
    let v : Int := if n then -(fxOf m e : Nat) else (fxOf m e : Nat)
    decide ((v - t).natAbs ≤ 2 ^ (160 - bits) + 2 ^ 20)
  | _ => false

/-- Does a code lie within a number of ulps of a value: from the value rounded toward zero, so many codes up and down, one less down if
the value is not exact? -/
def withinUlps (toward cand ulps : Nat) (exact : Bool) : Bool :=
  decide (cand / 2 ^ 31 = toward / 2 ^ 31 ∧ toward % 2 ^ 31 + b2n (!exact) ≤ cand % 2 ^ 31 + ulps ∧ cand % 2 ^ 31 ≤ toward % 2 ^ 31 + ulps) &&
    decide (cand % 2 ^ 31 ≤ 0x7F800000)

/-- A value t × 2^k more than 2 ulps above every f32: its result is infinite. -/
def farAbove (t : Int) (k : Int) : Bool := decide ((2 ^ 128 + 2 ^ 106) * 2 ^ (-k).toNat ≤ t.natAbs * 2 ^ k.toNat)

/-- Is a reciprocal root exact? -/
def rootExact (m : Nat) (e : Int) : Bool := (powerOfTwo m e).any fun k => k % 2 == 0

/-- A special function on f32 (R261): exact where the rule is, else a free value within the bound, with NX. A candidate outside it gives
the true value rounded to nearest. OF and UF are those of a result that is infinite, or tiny; at the least normal number UF is free. -/
def special32 (fn x : Nat) : FpRes :=
  match specialExact fn (fpDecode fpF32 x), fpDecode fpF32 x with
  | some r, _ => r
  | none, .fin n m e _ =>
    let cand := (Config.special fn (BitVec.ofNat 32 x)).toNat
    let (t, k) := specialTrue fn n m e
    let value : FpVal := .fin (decide (t < 0)) t.natAbs k true
    let toward := (roundVal fpF32 1 0 false value).1
    let ok := (withinUlps toward cand (specialUlps fn) (fn == 1 && rootExact m e) && (!farAbove t k || cand % 2 ^ 31 == 0x7F800000)) ||
      (specialBound fn m e).any fun b => withinBound t b cand
    let c := if ok then cand else (roundVal fpF32 0 0 false value).1
    let mag := c % 2 ^ 31
    let uf := decide (mag < 2 ^ 23) || (mag == 2 ^ 23 && Config.specialUf fn (BitVec.ofNat 32 x))
    (c, flagNX + (if mag = 0x7F800000 then flagOF else 0) + (if uf then flagUF else 0))
  | none, _ => (0, 0)

/-- A special function on an element (R261): a packed element is widened exactly, computed in f32, and rounded RNE, which sets OF and
UF. -/
def fpSpecial (f : FpFmt) (fn x : Nat) : FpRes :=
  if f = fpF32 then special32 fn x
  else
    let r := special32 fn (convert (.fp f) (.fp fpF32) 0 0 false x).1
    let nv := if (fpDecode f x).isSig then flagNV else 0
    let c := convert (.fp fpF32) (.fp f) 0 0 false r.1
    (c.1, (r.2 &&& (flagNV ||| flagDZ ||| flagNX)) ||| c.2 ||| nv)

end Sys2Proof.Machine
end

