-- ==== Sys2Proof/Syntax.lean ====
section
/-! DEFINITION. The syntax of the Gliotte G9: the seven instruction formats of R198 as records of their fields, the
operands of the events, and `Instr`, one constructor per row of the opcode table. Rows 0 to 172 are
instructions (a constructor carries its format's fields); the rest are the steps of engines, links, firmware
and the host, whose operands name the agent or the record they act on. -/

namespace Sys2Proof

/-- Format S (R198): scalar and mask instructions. -/
structure SF where
  d : BitVec 8
  a : BitVec 8
  b : BitVec 8
  fn : BitVec 4
  ty : BitVec 4
  imm : BitVec 24
deriving DecidableEq, Repr

/-- Format I (R198): SMOVI and VMOVI. -/
structure IF where
  d : BitVec 8
  fn : BitVec 8
  z : BitVec 8
  imm : BitVec 32
deriving DecidableEq, Repr

/-- Format C (R198): control. -/
structure CF where
  a : BitVec 8
  b : BitVec 8
  z : BitVec 8
  off : BitVec 32
deriving DecidableEq, Repr

/-- Format V2 (R198): vector instructions of up to two sources. -/
structure V2F where
  d : BitVec 8
  a : BitVec 8
  b : BitVec 8
  ra : BitVec 3
  rb : BitVec 3
  p : BitVec 10
  ty : BitVec 4
  rnd : BitVec 3
  sat : BitVec 1
  fn : BitVec 4
  la : BitVec 4
deriving DecidableEq, Repr

/-- Format V3 (R198): vector instructions of three sources. -/
structure V3F where
  d : BitVec 8
  a : BitVec 8
  b : BitVec 8
  c : BitVec 8
  ra : BitVec 3
  rb : BitVec 3
  rc : BitVec 3
  p : BitVec 10
  ty : BitVec 2
  rnd : BitVec 3
deriving DecidableEq, Repr

/-- Format M (R198): memory instructions. -/
structure MF where
  data : BitVec 8
  base : BitVec 8
  off : BitVec 8
  size : BitVec 4
  space : BitVec 3
  hasOff : BitVec 1
  la : BitVec 4
  fn : BitVec 4
  disp : BitVec 16
deriving DecidableEq, Repr

/-- Format E (R198): everything from 0x90 upwards, and SEGCFG, TCOPY and SPMARK. -/
structure EF where
  a : BitVec 8
  b : BitVec 8
  c : BitVec 8
  d : BitVec 8
  e : BitVec 4
  ctl : BitVec 20
deriving DecidableEq, Repr

/-- A clause header (R194) less its top byte. -/
structure HF where
  count : BitVec 4
  cls : BitVec 4
  rgn : BitVec 1
  z : BitVec 15
  k : BitVec 32
deriving DecidableEq, Repr

/-- Roles of a core SRAM segment (R46), in the order of their codes 0 to 3. -/
inductive Role where
  | off | cache | scratch | fifo
deriving DecidableEq, Repr

/-- A transaction of the fabric (R126): its header fields and its payload. `aop` and `asize` carry the operation and
element size of an RATOM and the element size of an RLOAD, for which the printed header has no field (log 21). -/
structure Tx where
  pattern : BitVec 128
  op : BitVec 6
  window : BitVec 8
  world : BitVec 8
  land : BitVec 2
  lbit : BitVec 6
  offset : BitVec 36
  loff : BitVec 33
  seq : BitVec 13
  lenm1 : BitVec 13
  toAnchor : Bool
  aop : BitVec 4
  asize : BitVec 3
  payload : List Byte
deriving DecidableEq, Repr

/-- An acknowledgement (R119, R126): count, error count, cause and node of one error, and data. -/
structure Ack where
  count : Nat
  errs : Nat
  cause : Nat
  node : Nat
  data : List Byte
deriving DecidableEq, Repr

/-- How a copy of a transaction reaches the router (R123): waiting here, or at a fabric port from a neighbour. -/
inductive Arrival where
  | here (i : Nat)
  | port (port : Nat) (tx : Tx)
deriving DecidableEq, Repr

/-- For what a foreign peer answers (R318, R418): an operation of the remote engine, or the bytes that a channel has sent for its host or
drain chain. -/
inductive RoceSource where
  | op (id : Nat)
  | channel (die ch : Nat) (drain : Bool)
deriving DecidableEq, Repr

/-- A firmware image as the ROM or Tirano reads it (R400). -/
structure BootImage where
  header : List Byte
  signature : List Byte
  publicKey : List Byte
  body : List Byte
deriving DecidableEq, Repr

/-- A sealed page as the host holds it (R413). -/
structure Blob where
  cipher : List Byte
  tag : List Byte
  version : Nat
deriving DecidableEq, Repr

/-- A host access to device memory, with the TDISP interface it is made with, if any (R409); or one to BAR0 of the physical function, which
maps the registers (R415). -/
inductive HostOp where
  | read (pa n : Nat) (iface : Option Nat)
  | write (pa : Nat) (bytes : List Byte) (iface : Option Nat)
  | readBar (offset n : Nat)
  | writeBar (offset : Nat) (bytes : List Byte)
deriving DecidableEq, Repr

/-- Who writes a register: the host, the trust core, or a wave of some world. -/
inductive RegAgent where
  | host
  | trust
  | wave (world : Nat)
deriving DecidableEq, Repr

/-- What an ageing plan gives one core: its voltage guardband in mV, and its frequency bin in MHz (R423). -/
structure CorePlan where
  core : Nat
  guard : Nat
  mhz : Nat
deriving DecidableEq, Repr

/-- The instructions and steps of the G9, one constructor per row of the opcode table. -/
inductive Instr where
  /-- NOP (R222). Does nothing for one issue. -/
  | nop (f : SF)
  /-- SADD (R224). Adds two 32-bit scalar sources modulo 2^32. -/
  | sadd (f : SF)
  /-- SSUB (R224). Subtracts two 32-bit scalar sources modulo 2^32. -/
  | ssub (f : SF)
  /-- SMUL (R224). Multiplies two 32-bit scalar sources modulo 2^32. -/
  | smul (f : SF)
  /-- SMULH (R224). Writes the high 32 bits of the exact 64-bit scalar product. -/
  | smulh (f : SF)
  /-- SDIV (R224). Writes the scalar quotient, truncated toward zero, with the defined division-by-zero result. -/
  | sdiv (f : SF)
  /-- SREM (R224). Writes the scalar remainder with the sign of the dividend. -/
  | srem (f : SF)
  /-- SAND (R224). Writes the bitwise AND of two scalar sources. -/
  | sand (f : SF)
  /-- SOR (R224). Writes the bitwise OR of two scalar sources. -/
  | sor (f : SF)
  /-- SXOR (R224). Writes the bitwise XOR of two scalar sources. -/
  | sxor (f : SF)
  /-- SANDN (R224). Writes x AND NOT y for two scalar sources. -/
  | sandn (f : SF)
  /-- SSHL (R224). Shifts a scalar left by y mod 32. -/
  | sshl (f : SF)
  /-- SSHR (R224). Shifts a scalar right logically by y mod 32. -/
  | sshr (f : SF)
  /-- SSHA (R224). Shifts a scalar right arithmetically by y mod 32. -/
  | ssha (f : SF)
  /-- SMIN (R224). Writes the lesser of two scalar sources under the type. -/
  | smin (f : SF)
  /-- SMAX (R224). Writes the greater of two scalar sources under the type. -/
  | smax (f : SF)
  /-- SCMP (R225). Writes 1 or 0 by an integer compare predicate on 32-bit or 64-bit sources. -/
  | scmp (f : SF)
  /-- SSEL (R226). Selects one of two scalar sources by a condition register. -/
  | ssel (f : SF)
  /-- SMOV (R226). Copies a scalar register or pair. -/
  | smov (f : SF)
  /-- SMOVI (R226). Writes a 32-bit immediate to a register, or sign- or zero-extended to a pair. -/
  | smovi (f : IF)
  /-- SBFE (R227). Extracts a scalar bit field, signed or unsigned. -/
  | sbfe (f : SF)
  /-- SBFI (R227). Inserts a bit field into the scalar destination. -/
  | sbfi (f : SF)
  /-- SLZC (R224). Counts the leading zero bits of a scalar. -/
  | slzc (f : SF)
  /-- SPOPC (R224). Counts the one bits of a scalar. -/
  | spopc (f : SF)
  /-- SFFS (R224). Finds the index of the lowest set bit of a scalar. -/
  | sffs (f : SF)
  /-- SADD64 (R228). Adds two 64-bit scalar values modulo 2^64. -/
  | sadd64 (f : SF)
  /-- SSUB64 (R228). Subtracts two 64-bit scalar values modulo 2^64. -/
  | ssub64 (f : SF)
  /-- SMAD64 (R228). Adds the extended product of two 32-bit sources to a 64-bit pair. -/
  | smad64 (f : SF)
  /-- SCVT (R229). Converts a scalar between numeric types with rounding and flags. -/
  | scvt (f : SF)
  /-- SFMA (R230). Performs a scalar f32 or f64 FMA, multiply, add or subtract, rounded once. -/
  | sfma (f : SF)
  /-- SFCMP (R231). Writes 1 or 0 by a floating-point compare predicate. -/
  | sfcmp (f : SF)
  /-- GETS (R232). Reads a special register into a scalar register or pair. -/
  | gets (f : SF)
  /-- MAND (R233). ANDs two mask groups word by word. -/
  | mand (f : SF)
  /-- MOR (R233). ORs two mask groups word by word. -/
  | mor (f : SF)
  /-- MXOR (R233). XORs two mask groups word by word. -/
  | mxor (f : SF)
  /-- MANDN (R233). Writes a AND NOT b over mask groups. -/
  | mandn (f : SF)
  /-- MNOT (R233). Inverts a mask group. -/
  | mnot (f : SF)
  /-- MMOV (R233). Copies a mask group. -/
  | mmov (f : SF)
  /-- MPOPC (R233). Counts the set bits over all words of a mask group. -/
  | mpopc (f : SF)
  /-- MFFS (R233). Finds the lowest lane set in a mask group, or W. -/
  | mffs (f : SF)
  /-- MSAVE (R235). Saves EXEC to a group and ANDs EXEC with a condition group. -/
  | msave (f : SF)
  /-- MELSE (R235). Sets EXEC to saved AND NOT EXEC AND LIVE. -/
  | melse (f : SF)
  /-- MJOIN (R236). Restores EXEC from the saved group and acts as a reconvergence point. -/
  | mjoin (f : SF)
  /-- MLIVE (R233). Copies the LIVE words into a mask group. -/
  | mlive (f : SF)
  /-- BRA (R237). Branches unconditionally to a clause header. -/
  | bra (f : CF)
  /-- BRZ (R237). Branches when a scalar source is zero. -/
  | brz (f : CF)
  /-- BRNZ (R237). Branches when a scalar source is nonzero. -/
  | brnz (f : CF)
  /-- BMZ (R237). Branches when every word of a mask group is zero. -/
  | bmz (f : CF)
  /-- BMNZ (R237). Branches when some word of a mask group is nonzero. -/
  | bmnz (f : CF)
  /-- BMALL (R237). Branches when a mask group equals LIVE. -/
  | bmall (f : CF)
  /-- CALL (R237). Writes the return link to a pair and branches. -/
  | call (f : CF)
  /-- RET (R238). Jumps to the address held in a 64-bit source. -/
  | ret (f : CF)
  /-- JMPI (R237). Jumps indirectly to a register plus offset, optionally writing a link. -/
  | jmpi (f : CF)
  /-- EXIT (R164). Removes the EXEC lanes from LIVE and ends the wave when LIVE empties. -/
  | exit (f : CF)
  /-- BAR (R173). Arrives at a cohort barrier and waits for the phase to complete. -/
  | bar (f : CF)
  /-- BARA (R173). Arrives at a cohort barrier and continues. -/
  | bara (f : CF)
  /-- BARW (R173). Waits for the phase in which the wave last arrived to complete. -/
  | barw (f : CF)
  /-- YIELD (R242). Stops at a yield point and becomes ready again at once. -/
  | yield (f : CF)
  /-- NAP (R242). Stops the wave for a count of clocks. -/
  | nap (f : CF)
  /-- TRAP (R243). Raises SOFTWARE_TRAP after completing. -/
  | trap (f : CF)
  /-- VADD (R249). Adds integer elements per active lane, optionally saturating. -/
  | vadd (f : V2F)
  /-- VSUB (R249). Subtracts integer elements per active lane, optionally saturating. -/
  | vsub (f : V2F)
  /-- VMUL (R249). Multiplies integer elements per active lane, optionally saturating. -/
  | vmul (f : V2F)
  /-- VMULH (R249). Writes the high half of the exact integer element product. -/
  | vmulh (f : V2F)
  /-- VMAD (R251). Computes a times b plus c per integer lane. -/
  | vmad (f : V3F)
  /-- VMIN (R249). Writes the lesser integer element. -/
  | vmin (f : V2F)
  /-- VMAX (R249). Writes the greater integer element. -/
  | vmax (f : V2F)
  /-- VABSD (R249). Writes the absolute difference of integer elements. -/
  | vabsd (f : V2F)
  /-- VAND (R249). Writes the bitwise AND per lane. -/
  | vand (f : V2F)
  /-- VOR (R249). Writes the bitwise OR per lane. -/
  | vor (f : V2F)
  /-- VXOR (R249). Writes the bitwise XOR per lane. -/
  | vxor (f : V2F)
  /-- VLOGIC (R251). Applies the three-input truth table in K[7:0] bitwise per lane. -/
  | vlogic (f : V3F)
  /-- VSHL (R249). Shifts integer elements left. -/
  | vshl (f : V2F)
  /-- VSHR (R249). Shifts integer elements right with zero fill. -/
  | vshr (f : V2F)
  /-- VSHA (R249). Shifts integer elements right with sign fill. -/
  | vsha (f : V2F)
  /-- VBFE (R251). Extracts a bit field per lane. -/
  | vbfe (f : V3F)
  /-- VBFI (R251). Inserts a bit field per lane. -/
  | vbfi (f : V3F)
  /-- VPOPC (R249). Counts one bits per element. -/
  | vpopc (f : V2F)
  /-- VLZC (R249). Counts leading zero bits per element. -/
  | vlzc (f : V2F)
  /-- VCMP (R252). Writes a mask group from an integer compare per active lane. -/
  | vcmp (f : V2F)
  /-- VSEL (R253). Selects between two routed sources by a mask group. -/
  | vsel (f : V3F)
  /-- VMOV (R253). Copies a routed source into the destination. -/
  | vmov (f : V2F)
  /-- VMOVI (R253). Writes an immediate to every active lane. -/
  | vmovi (f : IF)
  /-- VLANE (R254). Writes a lane index form to every active lane. -/
  | vlane (f : V2F)
  /-- VRED (R255). Reduces an integer source over active lanes into a scalar pair. -/
  | vred (f : V2F)
  /-- VSCAN (R256). Writes an inclusive or exclusive prefix over active lanes. -/
  | vscan (f : V2F)
  /-- VRAND (R254). Steps each active lane's generator and writes its state. -/
  | vrand (f : V2F)
  /-- VPLANE (R257). Converts 8-bit codes to the bit-plane layout per block. -/
  | vplane (f : V2F)
  /-- VUNPLANE (R257). Converts the bit-plane layout back to 8-bit codes. -/
  | vunplane (f : V2F)
  /-- VFADD (R258). Adds floating-point elements, rounded once. -/
  | vfadd (f : V2F)
  /-- VFSUB (R258). Subtracts floating-point elements, rounded once. -/
  | vfsub (f : V2F)
  /-- VFMUL (R258). Multiplies floating-point elements, rounded once. -/
  | vfmul (f : V2F)
  /-- VFMA (R258). Computes a fused multiply-add per element. -/
  | vfma (f : V3F)
  /-- VFMIN (R259). Writes the lesser floating-point element with NaN rules. -/
  | vfmin (f : V2F)
  /-- VFMAX (R259). Writes the greater floating-point element with NaN rules. -/
  | vfmax (f : V2F)
  /-- VFCMP (R260). Writes a mask group from a floating-point compare. -/
  | vfcmp (f : V2F)
  /-- VFCLASS (R260). Writes a class mask per floating-point element. -/
  | vfclass (f : V2F)
  /-- VFDIV (R258). Divides floating-point elements, correctly rounded, writing late. -/
  | vfdiv (f : V2F)
  /-- VFSQRT (R258). Takes the correctly rounded square root, writing late. -/
  | vfsqrt (f : V2F)
  /-- VFRCP (R261). Computes the reciprocal within its error bound, writing late. -/
  | vfrcp (f : V2F)
  /-- VFRSQ (R261). Computes the reciprocal square root, writing late. -/
  | vfrsq (f : V2F)
  /-- VFEXP2 (R261). Computes 2 to the power x, writing late. -/
  | vfexp2 (f : V2F)
  /-- VFLOG2 (R261). Computes the base-2 logarithm, writing late. -/
  | vflog2 (f : V2F)
  /-- VFSIN (R261). Computes the sine in radians, writing late. -/
  | vfsin (f : V2F)
  /-- VFCOS (R261). Computes the cosine in radians, writing late. -/
  | vfcos (f : V2F)
  /-- VFTANH (R261). Computes the hyperbolic tangent, writing late. -/
  | vftanh (f : V2F)
  /-- VCVT (R262). Converts each active lane between formats. -/
  | vcvt (f : V2F)
  /-- VPACK (R263). Packs halves or bytes of two sources into the destination. -/
  | vpack (f : V2F)
  /-- VUNPK (R263). Unpacks a half or byte, zero-extended. -/
  | vunpk (f : V2F)
  /-- VFRED (R264). Reduces floating-point lanes by a fixed tree into scalars. -/
  | vfred (f : V2F)
  /-- VFDOT2 (R258). Computes a two-term packed dot product plus f32 addend, rounded once. -/
  | vfdot2 (f : V3F)
  /-- VLD (R266). Loads global or scratch memory into active lanes, writing late. -/
  | vld (f : MF)
  /-- VST (R266). Stores active lanes to global or scratch memory. -/
  | vst (f : MF)
  /-- SLD (R266). Makes one scalar load for the wave, writing late. -/
  | sld (f : MF)
  /-- SST (R266). Makes one scalar store for the wave. -/
  | sst (f : MF)
  /-- VATOM (R269). Performs an atomic per active lane and returns old values. -/
  | vatom (f : MF)
  /-- SATOM (R269). Performs one scalar atomic and returns the old value. -/
  | satom (f : MF)
  /-- FQPUSH (R270). Appends one entry to a cohort FIFO, waiting while it is full. -/
  | fqpush (f : MF)
  /-- FQPOP (R270). Removes the oldest entry of a cohort FIFO, waiting while it is empty. -/
  | fqpop (f : MF)
  /-- CPREF (R271). Prefetches each active lane's line into the L2 and optionally the L1. -/
  | cpref (f : MF)
  /-- CFLUSH (R271). Writes back, and optionally invalidates, each active lane's line. -/
  | cflush (f : MF)
  /-- SEGCFG (R272). Issues a copy-timeline command that changes a segment between SCRATCH and FIFO. -/
  | segcfg (f : EF)
  /-- TCOPY (R273). Reads a copy record and issues a tile copy into the copy timeline. -/
  | tcopy (f : EF)
  /-- SPMARK (R275). Sets or clears the full/empty bits of a scratch range. -/
  | spmark (f : EF)
  /-- FLOAD (R276). Reads future words, deferred at the slice while EMPTY. -/
  | fload (f : MF)
  /-- FSTORE (R276). Fills EMPTY future words and answers their deferred FLOADs. -/
  | fstore (f : MF)
  /-- FRESET (R276). Sets future words EMPTY. -/
  | freset (f : MF)
  /-- FENCE (R139). Orders predecessor-class accesses before successor-class accesses at a scope. -/
  | fence (f : EF)
  /-- BATCH (R278). Closes the open batch of an engine timeline and writes its number. -/
  | batch (f : EF)
  /-- WAITT (R279). Waits until an engine timeline reaches a value, then orders. -/
  | waitt (f : EF)
  /-- WAITT_MEMORY (R147). Waits until a memory timeline word reaches a value at its home slice, then acquires at a scope. -/
  | waittMemory (f : EF)
  /-- TLREAD (R281). Writes an engine timeline's value, ordering nothing. -/
  | tlread (f : EF)
  /-- TLREAD_DEFERRED (R281). Issues a copy-timeline command that reads a memory word at its home slice. -/
  | tlreadDeferred (f : EF)
  /-- CGBEGIN (R282). Opens a commit group. -/
  | cgbegin (f : EF)
  /-- CGCOMMIT (R88). Locks, validates and performs a commit group, writing its status. -/
  | cgcommit (f : EF)
  /-- CGABORT (R282). Dooms the open commit group with status 5. -/
  | cgabort (f : EF)
  /-- SBSET (R284). ORs a mask into a scoreboard word atomically with release. -/
  | sbset (f : EF)
  /-- SBCLR (R284). Clears mask bits of a scoreboard word atomically with release. -/
  | sbclr (f : EF)
  /-- SBWAIT (R284). Waits until scoreboard bits satisfy the mask, then acquires. -/
  | sbwait (f : EF)
  /-- SBTAKE (R284). Waits for a masked bit, clears the lowest one atomically and returns it. -/
  | sbtake (f : EF)
  /-- OBRES (R294). Writes an operand-buffer reservation record in its issue clock. -/
  | obres (f : EF)
  /-- OBREL (R295). Issues the release of a reservation record to the matrix queue. -/
  | obrel (f : EF)
  /-- OBWR (R296). Reads vector registers at issue and queues their write into a record. -/
  | obwr (f : EF)
  /-- OBRD (R296). Queues a read of a record into engine-pending vector registers. -/
  | obrd (f : EF)
  /-- MPLANE (R297). Queues the write of a zero or identity pattern into a shadow plane. -/
  | mplane (f : EF)
  /-- MLDS (R297). Queues the load of a B block from a record into a shadow plane. -/
  | mlds (f : EF)
  /-- MSWAP (R297). Queues the exchange of a slot's shadow and active planes. -/
  | mswap (f : EF)
  /-- MMA (R298). Queues a stream of A rows through an active plane into accumulators. -/
  | mma (f : EF)
  /-- MACZ (R298). Queues the zeroing of accumulator rows. -/
  | macz (f : EF)
  /-- MSHOUT (R299). Queues the conversion of accumulators out to registers, a record or scratch. -/
  | mshout (f : EF)
  /-- MSHIN (R300). Queues the load of accumulators from registers, a record or scratch. -/
  | mshin (f : EF)
  /-- RSTORE (R308). Sends a packed block to every member of a node pattern. -/
  | rstore (f : EF)
  /-- RLOAD (R310). Reads a packed block from one member, writing late. -/
  | rload (f : EF)
  /-- RRED (R313). Sends one positional reduction contribution to the pattern's anchor. -/
  | rred (f : EF)
  /-- RATOM (R311). Applies an atomic at every member of a pattern. -/
  | ratom (f : EF)
  /-- RSIG (R312). Makes a landing action at every member with no data. -/
  | rsig (f : EF)
  /-- RXFER (R314). Issues a collective transfer from a 128-byte record. -/
  | rxfer (f : EF)
  /-- TRGARM (R320). Arms a trigger on the die's trigger engine and returns a handle. -/
  | trgarm (f : EF)
  /-- TRGCAN (R323). Cancels an armed trigger by handle. -/
  | trgcan (f : EF)
  /-- APXBEGIN (R355). Enters an approximable region, taking the surrogate or true path. -/
  | apxbegin (f : EF)
  /-- APXEND (R356). Completes the open region and sends its samples to the fitting engine. -/
  | apxend (f : EF)
  /-- APXINV (R369). Invalidates a region or all regions of the wave's world and ASID. -/
  | apxinv (f : EF)
  /-- APXQRY (R370). Reads a region's state on the wave's die. -/
  | apxqry (f : EF)
  /-- TASKQ (R324). Appends a task descriptor to a queue from the device. -/
  | taskq (f : EF)
  /-- TASKSIG (R325). Adds to a dependence timeline with release and notifies the front ends. -/
  | tasksig (f : EF)
  /-- SETS (R326). Writes a special register under its own rules. -/
  | sets (f : EF)
  /-- ERET (R327). Leaves handler level and resumes at TPC. -/
  | eret (f : EF)
  /-- SYSCALL (R328). Writes a service record and parks the wave until answered. -/
  | syscall (f : EF)
  /-- TLBINV (R330). Requests a translation invalidation and waits for completion. -/
  | tlbinv (f : EF)
  /-- HASHB (R331). Runs SHA-256 compression on the trust core. -/
  | hashb (f : EF)
  /-- SIGNQ (R332). Signs a message with SLH-DSA on the trust core. -/
  | signq (f : EF)
  /-- MEASX_EXTEND (R333). Extends a measurement slot with a 32-byte buffer. -/
  | measxExtend (f : EF)
  /-- MEASX_READ (R333). Copies a measurement slot to a buffer. -/
  | measxRead (f : EF)
  /-- CLAUSE_HEADER (R194). The wave reaches a clause header, checks it and may set its restart point. -/
  | clauseHeader (h : HF)
  /-- WAVE_READY (R167). A wave stopped at a yield point becomes ready when its condition clears. -/
  | waveReady (wave : Nat)
  /-- LATE_RESULT_LAND (R169). A long-latency result lands in its pending destination. -/
  | lateResultLand (wave seq : Nat) (lanes : List Nat)
  /-- NAP_EXPIRY (R242). The clocks of a NAP run out and the wave becomes ready. -/
  | napExpiry (wave : Nat)
  /-- STORE_BUFFER_DRAIN (R51). A store-buffer entry drains to its home slice within 2,000 clocks of its last merge. -/
  | storeBufferDrain (core entry : Nat)
  /-- L1_SECTOR_EXPIRY (R131). An L1 sector is invalidated 8,000 clocks after its fill. -/
  | l1SectorExpiry (core sector : Nat)
  /-- COW_PAGE_COPY (R97). The snapshot engine copies a marked page so a stalled write may proceed. -/
  | cowPageCopy (page : Nat)
  /-- FLOAD_RESEND (R84). After a refusal backoff the core re-sends an FLOAD's lanes. -/
  | floadResend (wave seq : Nat)
  /-- TRANSLATION_WALK_COMPLETE (R33). A page-table walk completes and answers its joined requests or faults. -/
  | translationWalkComplete (die walk : Nat)
  /-- TLB_REQUEST_REISSUE (R33). A request refused by a full miss queue is re-issued after 64 clocks. -/
  | tlbRequestReissue (die request : Nat)
  /-- FAULT_RECORD_DEFERRED (R39). A waiting fault record is written once queue space or a token frees. -/
  | faultRecordDeferred (die : Nat)
  /-- FAULT_RETRY (R40). TSFLTRESP action RETRY replays every agent parked on the token. -/
  | faultRetry (die token : Nat)
  /-- FAULT_TRAP (R40). TSFLTRESP action TRAP traps parked waves and fails parked commands. -/
  | faultTrap (die token : Nat)
  /-- FAULT_KILL (R40). TSFLTRESP action KILL terminates every dispatch parked on the token. -/
  | faultKill (die token : Nat)
  /-- INVALIDATE_ASID (R35). A TSINVCMD write invalidates the whole address space of one ASID. -/
  | invalidateAsid (die asid : Nat) (pkg : Bool)
  /-- INVALIDATE_RANGE (R35). A TSINVCMD write invalidates a range of pages of one ASID. -/
  | invalidateRange (die asid va count : Nat) (pkg : Bool)
  /-- INVALIDATE_ALL (R35). A TSINVCMD write invalidates all ASIDs and all pages. -/
  | invalidateAll (die : Nat) (pkg : Bool)
  /-- INVALIDATION_COMPLETE (R36). An invalidation completes and the next queued one begins. -/
  | invalidationComplete (die : Nat)
  /-- TILE_COPY_PERFORM (R274). A tile-copy engine moves a TCOPY's elements and completes the command. -/
  | tileCopyPerform (cmd : Nat) (elems : List Nat)
  /-- SEGCFG_COMPLETE (R272). The new segment role serves and the SEGCFG command completes. -/
  | segcfgComplete (cmd : Nat)
  /-- TLREAD_PERFORM (R281). The copy engine reads the deferred TLREAD word at its home slice. -/
  | tlreadPerform (cmd : Nat)
  /-- OBREL_RELEASE (R295). The engine performs a record release after earlier commands naming it. -/
  | obrelRelease (core cmd : Nat)
  /-- OBWR_WRITE (R296). The engine writes OBWR data into the operand buffer on port 1. -/
  | obwrWrite (core cmd : Nat)
  /-- OBRD_READ (R296). The engine reads a record into the wave's live lanes. -/
  | obrdRead (core cmd : Nat)
  /-- MPLANE_WRITE (R297). The engine writes a pattern plane and its tag. -/
  | mplaneWrite (core cmd : Nat)
  /-- MLDS_LOAD (R297). The engine reads a B block into a shadow plane over 16 clocks. -/
  | mldsLoad (core cmd : Nat)
  /-- MSWAP_EXCHANGE (R297). The engine renames a slot's shadow and active planes. -/
  | mswapExchange (core cmd : Nat)
  /-- MMA_ROW_STEP (R298). One A row step writes its exactly summed, rounded accumulators. -/
  | mmaRowStep (core cmd : Nat)
  /-- MACZ_CLEAR (R298). The engine writes +0 to accumulator rows. -/
  | maczClear (core cmd : Nat)
  /-- MSHOUT_ROW (R299). The engine reads, converts and lands one accumulator row. -/
  | mshoutRow (core cmd : Nat)
  /-- MSHIN_ROW (R300). The engine writes one accumulator row from its source. -/
  | mshinRow (core cmd : Nat)
  /-- ROUTER_EXPAND (R123). An arriving copy of a transaction is expanded by the router rules. -/
  | routerExpand (arrival : Arrival)
  /-- TARGET_PERFORM (R111). A target checks and performs a transaction, then acknowledges it. -/
  | targetPerform (delivery : Nat)
  /-- REDUCTION_CONTRIBUTION (R114). A reduction contribution or void arrives at its anchor slot. -/
  | reductionContribution (delivery : Nat)
  /-- REDUCTION_SLOT_TIMEOUT (R116). FBREDTO expires and the slot flushes SHORT. -/
  | reductionSlotTimeout (slot : Nat)
  /-- TOMBSTONE_EXPIRY (R118). A reduction tombstone is freed after twice FBREDTO. -/
  | tombstoneExpiry (tombstone : Nat)
  /-- REDUCTION_NACK_RESEND (R118). After backoff the remote engine re-sends a refused contribution. -/
  | reductionNackResend (refusal : Nat)
  /-- COMBINE_ACK (R124). A branch acknowledgement is combined and sent upstream when the last arrives. -/
  | combineAck (entry branch : Nat) (ack : Ack)
  /-- COMBINE_TIMEOUT (R124). An unanswered combine entry is freed after FBTXTO with TIMEOUT errors. -/
  | combineTimeout (entry : Nat)
  /-- COMBINE_NACK_RESEND (R124). A hop re-sends a refused copy after backoff. -/
  | combineNackResend (refusal : Nat)
  /-- REMOTE_ACK (R119). The issuing remote engine gathers an acknowledgement toward the expected count. -/
  | remoteAck (op : Nat) (ack : Ack)
  /-- REMOTE_TX_TIMEOUT (R119). FBTXTO expires and the missing count completes as TIMEOUT errors. -/
  | remoteTxTimeout (op : Nat)
  /-- RXFER_TRANSFER (R314). A tile-copy engine reads the RXFER source and hands transactions to the remote engine. -/
  | rxferTransfer (cmd : Nat)
  /-- ROCE_ACK (R318). RoCEv2 write acknowledgements complete a FOREIGN transfer and its fetch-and-add landing. -/
  | roceAck (source : RoceSource) (cause : Nat)
  /-- TRIGGER_FIRE (R321). An armed trigger's condition and time hold and it performs its command. -/
  | triggerFire (die entry uncertainty : Nat)
  /-- TRIGGER_COMPLETE (R322). The fired command completes and the engine writes status and CPL. -/
  | triggerComplete (die entry : Nat)
  /-- SNAPSHOT_ARM (R93). SNAPCTL.ARM checks the regions and pool and arms the snapshot. -/
  | snapshotArm
  /-- SNAPSHOT_CANCEL (R94). SNAPCTL.CANCEL clears remaining marks, frees the pool and returns to IDLE. -/
  | snapshotCancel
  /-- SNAPSHOT_FREEZE (R95). The timeline reaches n and the engines freeze writes and mark pages. -/
  | snapshotFreeze
  /-- SNAPSHOT_MARK_COMPLETE (R94). Marking completes and held writes are released. -/
  | snapshotMarkComplete
  /-- SNAPSHOT_DRAIN_RECORD (R98). A drain record's pages are sent and their marks cleared. -/
  | snapshotDrainRecord (die : Nat)
  /-- WINDOW_TABLE_LOAD (R102). FBCTL.WINLOAD reloads all 256 window entries. -/
  | windowTableLoad
  /-- RULE_TABLE_LOAD (R122). FBCTL.RULELOAD loads and checks the rule table. -/
  | ruleTableLoad
  /-- TASK_DOORBELL (R336). A TQBELL write makes the front end read the queue's TAIL. -/
  | taskDoorbell (queue : Nat)
  /-- TASK_READ (R336). A front end reads and checks a descriptor from its ring. -/
  | taskRead (queue : Nat)
  /-- DEPENDENCE_POLL (R341). The front end re-reads a dependence word at least every 2 µs. -/
  | dependencePoll (task : Nat)
  /-- ADMISSION_TEST (R343). A waiting task is tested for fit and reserve at retirements and every 10 µs. -/
  | admissionTest (task : Nat)
  /-- STAGING_LANDING (R346). A staging copy lands bytes under the FILL rule and clears pending bits. -/
  | stagingLanding (copy : Nat) (bytes : Nat)
  /-- STAGING_TIMEOUT (R340). STAGELIM elapses and the task moves to READY. -/
  | stagingTimeout (task : Nat)
  /-- COHORT_PLACE (R347). The scheduler allocates storage and places a cohort's waves. -/
  | cohortPlace (task index core : Nat)
  /-- COHORT_RETIRE (R340). A cohort retires; the last one ends its task. -/
  | cohortRetire (cohort : Nat)
  /-- STORAGE_CLEAR_COMPLETE (R71). Cleared storage becomes available to placement. -/
  | storageClearComplete (core item : Nat)
  /-- SEGMENT_CONVERT (R47). The scheduler changes a segment's role. -/
  | segmentConvert (core segment : Nat) (role : Role)
  /-- SEGMENT_CONVERSION_COMPLETE (R47). A segment conversion or clearing finishes and the new role serves. -/
  | segmentConversionComplete (core segment : Nat)
  /-- WAIT_TIMEOUT_100US (R176). A wave stopped over 100 µs on a listed wait becomes pre-emptible. -/
  | waitTimeout100us (wave : Nat)
  /-- PREEMPT_LIMIT_EXPIRY (R348). A higher-class task held PREEMPTLIM in WAITING may pre-empt. -/
  | preemptLimitExpiry (task victim : Nat)
  /-- COHORT_RESTORE (R394). A saved cohort image is written back and its waves resume. -/
  | cohortRestore (saved core : Nat)
  /-- TASK_QUEUE_CANCEL (R349). TQCANCEL.ALL cancels every task of the queue not DONE. -/
  | taskQueueCancel (queue : Nat)
  /-- FITTING_SAMPLE (R364). The fitting engine consumes a sample and updates error, counts and state. -/
  | fittingSample (die : Nat)
  /-- REPLAY_STEP (R366). A training slot with no new batch runs a replay step on the ring. -/
  | replayStep (die region : Nat)
  /-- SERVICE_RESPONSE (R329). An SVCRESP write answers a SYSCALL token with SVCRES. -/
  | serviceResponse (die token : Nat)
  /-- SERVICE_RECORD_DEFERRED (R329). A waiting SYSCALL writes its record once the service queue has room. -/
  | serviceRecordDeferred (die : Nat)
  /-- MC_RETRY (R389). MCRESP action RETRY restarts the parked wave with retry count 0. -/
  | mcRetry (die token : Nat)
  /-- MC_TRAP (R389). MCRESP action TRAP delivers PIPELINE_ERROR. -/
  | mcTrap (die token : Nat)
  /-- MC_KILL (R389). MCRESP action KILL terminates the dispatch with status 5. -/
  | mcKill (die token : Nat)
  /-- MC_RECORD_DEFERRED (R398). An escalating wave writes its record once the machine-check queue has room. -/
  | mcRecordDeferred (die : Nat)
  /-- DEBUG_STOP (R398). DBGSTOP pre-empts every cohort of a dispatch and holds it saved. -/
  | debugStop (dispatch : Nat)
  /-- DEBUG_GO (R398). DBGGO releases a held dispatch for placement. -/
  | debugGo (dispatch : Nat)
  /-- CHANNEL_HEAD_WRITE (R419). An SCCHEAD write starts a system copy channel on a chain. -/
  | channelHeadWrite (die channel : Nat) (value : DWord)
  /-- CHANNEL_RECORD (R418). A channel reads a linked transfer record, copies and writes STATUS. -/
  | channelRecord (die channel : Nat) (drain : Bool)
  /-- PACKAGE_RESET (R399). The trust core ROM verifies and measures the firmware images in order. -/
  | packageReset (images : List BootImage)
  /-- BOOT_RETRY (R401). TRCTL.RETRY restarts boot from the recovery image when halted. -/
  | bootRetry (images : List BootImage)
  /-- TRUST_QUEUE_DOORBELL (R402). A TRQBELL write from the trust core makes die 0 read the trust queue. -/
  | trustQueueDoorbell
  /-- TRUST_QUEUE_CANCEL (R402). TRQCFG.CANCEL cancels every trust-queue task not DONE. -/
  | trustQueueCancel
  /-- DOE_REQUEST (R442). The mailbox writes a request into RQ and sets VALID, or refuses an oversized object. -/
  | doeRequest (request : List Byte)
  /-- DOE_RESPONSE (R442). A DOERSP write hands RS to the host as the response. -/
  | doeResponse (len : Nat)
  /-- DOE_ABORT (R442). The host aborts DOE and the response is discarded. -/
  | doeAbort
  /-- SPDM_GET_VERSION (R403). Resets the connection and answers VERSION. -/
  | spdmGetVersion
  /-- SPDM_GET_CAPABILITIES (R403). Answers CAPABILITIES after VERSION. -/
  | spdmGetCapabilities
  /-- SPDM_NEGOTIATE_ALGORITHMS (R403). Answers ALGORITHMS, selecting SLH-DSA only for the exact ExtAsym entry. -/
  | spdmNegotiateAlgorithms
  /-- SPDM_GET_DIGESTS (R403). Answers the digest of the slot-0 certificate chain. -/
  | spdmGetDigests
  /-- SPDM_GET_CERTIFICATE (R403). Answers a portion of the slot-0 certificate chain. -/
  | spdmGetCertificate
  /-- SPDM_CHALLENGE (R403). Answers a signed CHALLENGE_AUTH. -/
  | spdmChallenge
  /-- SPDM_GET_MEASUREMENTS (R403). Answers signed measurements by index. -/
  | spdmGetMeasurements
  /-- SPDM_UNSUPPORTED_REQUEST (R403). Answers any other request code with ERROR UnsupportedRequest. -/
  | spdmUnsupportedRequest
  /-- IDE_KM_QUERY (R404). IDE_KM QUERY vendor-defined request. -/
  | ideKmQuery
  /-- IDE_KM_KEY_PROG (R404). IDE_KM KEY_PROG vendor-defined request. -/
  | ideKmKeyProg
  /-- IDE_KM_K_SET_GO (R404). IDE_KM K_SET_GO vendor-defined request. -/
  | ideKmKSetGo
  /-- IDE_KM_K_SET_STOP (R404). IDE_KM K_SET_STOP vendor-defined request. -/
  | ideKmKSetStop
  /-- TDISP_GET_VERSION (R404). TDISP GET_VERSION request. -/
  | tdispGetVersion
  /-- TDISP_GET_CAPABILITIES (R404). TDISP GET_CAPABILITIES request. -/
  | tdispGetCapabilities
  /-- LOCK_INTERFACE (R405). TDISP LOCK_INTERFACE creates a world with a fresh key and extends its record. -/
  | lockInterface (iface : Nat)
  /-- GET_DEVICE_INTERFACE_REPORT (R404). TDISP GET_DEVICE_INTERFACE_REPORT request. -/
  | getDeviceInterfaceReport (iface : Nat)
  /-- GET_DEVICE_INTERFACE_STATE (R404). TDISP GET_DEVICE_INTERFACE_STATE request. -/
  | getDeviceInterfaceState (iface : Nat)
  /-- START_INTERFACE (R404). TDISP START_INTERFACE request. -/
  | startInterface (iface : Nat)
  /-- STOP_INTERFACE (R405). TDISP STOP_INTERFACE moves the interface's worlds to CLEARING. -/
  | stopInterface (iface : Nat)
  /-- WORLD_REQUEST (R405). A world request from a bound interface in CONFIG_LOCKED creates a world. -/
  | worldRequest (iface : Nat)
  /-- FUNCTION_LEVEL_RESET (R414). Clears every world bound to the interface in six ordered steps. -/
  | functionLevelReset (iface : Nat)
  /-- EVICT_PAGE (R413). Tirano evicts an owned page of a confidential world to the host, sealed. -/
  | evictPage (page : Nat)
  /-- PAGE_RETURN (R413). Tirano checks and restores an evicted page, or raises INTEGRITY_FAULT. -/
  | pageReturn (page : Nat) (blob : Blob) (die token : Nat)
  /-- PAGE_SCRUB (R408). The background scrubber writes ZERO pages with zeros. -/
  | pageScrub (page : Nat)
  /-- HOST_ACCESS (R409). A host read or write of device memory is checked by the firewall. -/
  | hostAccess (access : HostOp)
  /-- CXL_SNOOP (R416). A host snoop is answered at the home slice after write-back and invalidation. -/
  | cxlSnoop (line : Nat)
  /-- PORT_TRAIN (R411). A fabric port trains and agrees keys with the peer's Tirano. -/
  | portTrain (port : Nat) (peerProved : Bool)
  /-- FLIT_TAG_FAIL (R411). A flit fails its tag, is dropped and retried; three in a row take the port down. -/
  | flitTagFail (port : Nat)
  /-- LANE_FAILURE (R420). A fabric port with a failed lane retrains on 2 lanes. -/
  | laneFailure (port : Nat)
  /-- POWER_THROTTLE (R422). Firmware lowers or restores the core clock to keep power at PWRLIM. -/
  | powerThrottle (mhz watts : Nat)
  /-- THERMAL_TRIP (R422). At 105 °C the package stops issue and halts. -/
  | thermalTrip
  /-- AGEING_REPLAN (R423). Every 24 operating hours firmware re-plans guardbands and bins. -/
  | ageingReplan (plan : List CorePlan) (record : Nat)
  /-- DOERQ_READ (R442). Reading DOERQ returns the request length and VALID and clears them. -/
  | doerqRead
  /-- TRRNG_READ (R442). Reading TRRNG returns 64 fresh entropy bits. -/
  | trrngRead
  /-- TSSTGDROP_READ (R44). Reading TSSTGDROP returns and clears the dropped staging count. -/
  | tsstgdropRead (die : Nat)
  /-- TSREMFLT_READ (R44). Reading TSREMFLT returns and clears the remote fault count. -/
  | tsremfltRead (die : Nat)
  /-- L2STGDROP_READ (R78). Reading L2STGDROP returns and clears the count. -/
  | l2stgdropRead (die : Nat)
  /-- L2NACK_READ (R78). Reading L2NACK returns and clears the count. -/
  | l2nackRead (die : Nat)
  /-- L2FUTDBL_READ (R78). Reading L2FUTDBL returns and clears the count. -/
  | l2futdblRead (die : Nat)
  /-- L2POISON_READ (R78). Reading L2POISON returns and clears the count. -/
  | l2poisonRead (die : Nat)
  /-- FBREDNACK_READ (R128). Reading FBREDNACK returns and clears the count. -/
  | fbrednackRead
  /-- FBDROPLATE_READ (R128). Reading FBDROPLATE returns and clears the count. -/
  | fbdroplateRead
  /-- FBTIMEOUT_READ (R128). Reading FBTIMEOUT returns and clears the count. -/
  | fbtimeoutRead
  /-- FBORPHAN_READ (R128). Reading FBORPHAN returns and clears the count. -/
  | fborphanRead
  /-- FBBADHDR_READ (R128). Reading FBBADHDR returns and clears the count. -/
  | fbbadhdrRead
  /-- SCHEDPRE_READ (R350). Reading SCHEDPRE returns and clears the count. -/
  | schedpreRead
  /-- SCHEDDEM_READ (R350). Reading SCHEDDEM returns and clears the count. -/
  | scheddemRead
  /-- FEDROP_READ (R372). Reading FEDROP returns and clears the count. -/
  | fedropRead (die : Nat)
  /-- FEINV_READ (R372). Reading FEINV returns and clears the count. -/
  | feinvRead (die : Nat)
  /-- MCCE_READ (R398). Reading MCCE returns and clears the count. -/
  | mcceRead (die : Nat)
  /-- TRDENY_READ (R401). Reading TRDENY returns and clears the count. -/
  | trdenyRead
  /-- TRTAGFAIL_READ (R401). Reading TRTAGFAIL returns and clears the count. -/
  | trtagfailRead
  /-- PWRTHROT_READ (R422). Reading PWRTHROT returns and clears the count. -/
  | pwrthrotRead
  /-- REGISTER_WRITE (R5). A write to any register with no row of its own, under its access type. -/
  | registerWrite (agent : RegAgent) (addr : Nat) (value : DWord)
  /-- L2_STAGING_FILL (R344). A staging copy of an L2 range fills and protects a line at its home slice, or drops it when the reserve ways of its set are all protected. -/
  | l2StagingFill (copy line : Nat)
  /-- TDISP_INTERFACE_ERROR (R405). A TDISP error of an interface moves every world bound to it from ACTIVE to CLEARING. -/
  | tdispInterfaceError (iface : Nat)
  /-- SUPPLY_LOSS (R423). The package loses its supplies and holds no state and keeps no time. -/
  | supplyLoss
deriving DecidableEq, Repr

/-- One entry of the agenda: which agent moves next. `core c` lets core `c` issue, `event` makes a step of another
agent, `advance` lets clocks and nanoseconds pass (R1, R422). The others are what the physical world does to the part: a
wrong arithmetic result found by the checkers of a wave (R388), of a matrix command's row step (R301) or of a training step
(R389); a corrected or an
uncorrectable word of a register (R390), of a memory sector (R80) or of a matrix store (R301: store 0 operand
buffer, 1 accumulators, 2 + 2 × slot + shadow planes; the word's number); the reading
of the power sensors, the straps (R416), and whether the ROM's self-test passes (R401). `owner` is Tirano's change of a page's owner
entry (R408, R410); `provision` gives a key to a slot of SIGNQ (R332); `responder` loads and places the SPDM responder (R444), with its USER
dwords, the physical addresses of D and TB, and the chain; `applyPlan` takes a core one step nearer to the ageing plan (R423). -/
inductive Turn where
  | core (c : Nat)
  | event (i : Instr)
  | advance (clocks ns : Nat)
  | upset (wave : Nat)
  | upsetMatrix (core cmd : Nat)
  | upsetTraining (die region : Nat)
  | corrected (die : Nat)
  | spoilRegister (wave : Nat) (vec : Bool) (key : Nat)
  | spoilMemory (sector : Nat)
  | spoilMatrix (cohort half store word : Nat)
  | sensors (watts temp : Nat)
  | owner (page world state : Nat) (shared : Bool)
  | straps (cxl : Bool)
  | selfTest (passes : Bool)
  | lpddr (code : Nat)
  | hostMemory (access : HostOp)
  | roce (peer : Nat) (tx : Tx)
  | sent (i : Nat)
  | ackSent (i : Nat)
  | provision (slot : Nat) (key : List Byte)
  | responder (user : List (BitVec 64)) (data tb : Nat) (chain : List Byte)
  | applyPlan (core : Nat)
deriving DecidableEq, Repr

end Sys2Proof
end

