-- ==== Sys2Proof/WellFormed.lean ====
section
/-! DEFINITION. The checks of step 4 of R197 that an instruction's fields alone decide: reserved bits are zero and every
code field holds a defined value. A check carries the lowest bit of its field in the word, which TINFO1 reports (R376).
Checks that need the wave (its width, its allocation) stand in Machine/Operands.lean. -/

namespace Sys2Proof

/-- A field check: the field's lowest bit in the word and whether the field is acceptable. -/
abbrev Check := Nat × Bool

/-- The field must be zero. -/
def mustZero {n : Nat} (lo : Nat) (x : BitVec n) : Check := (lo, x == 0)

/-- The field must be at most `m`. -/
def mustLe {n : Nat} (lo : Nat) (x : BitVec n) (m : Nat) : Check := (lo, decide (x.toNat ≤ m))

/-- The field must be one of the values listed. -/
def mustIn {n : Nat} (lo : Nat) (x : BitVec n) (l : List Nat) : Check := (lo, l.contains x.toNat)

/-- A scalar destination, or a scalar register in any place that admits no other code (R200). -/
def mustReg (lo : Nat) (x : BitVec 8) : Check := (lo, decide (x.toNat < 128))

/-- A scalar source: a register, K, ZERO, and IMM where the format allows it (R200). -/
def mustSrc (lo : Nat) (x : BitVec 8) (imm : Bool) : Check :=
  (lo, decide (x.toNat ≤ 128) || x == 130 || (imm && x == 129))

/-- A register or ZERO: a mask group (R233) or a base pair (R265). -/
def mustRegZero (lo : Nat) (x : BitVec 8) : Check := (lo, decide (x.toNat < 128) || x == 130)

/-- Format S, integer instructions with two sources (R222). -/
def mustS2 (f : SF) (tymax : Nat) : List Check :=
  [mustReg 48 f.d, mustSrc 40 f.a true, mustSrc 32 f.b true, mustZero 28 f.fn, mustLe 24 f.ty tymax,
   (0, f.imm == 0 || f.a == 129 || f.b == 129)]

/-- Format S, instructions with one source that may be IMM. -/
def mustS1 (f : SF) (tys : List Nat) : List Check :=
  [mustReg 48 f.d, mustSrc 40 f.a true, mustZero 32 f.b, mustZero 28 f.fn, mustIn 24 f.ty tys,
   (0, f.imm == 0 || f.a == 129)]

/-- Format S, mask instructions (R233): fn, type and imm24 are zero. -/
def mustMask (f : SF) (d a b : Check) : List Check := [d, a, b, mustZero 28 f.fn, mustZero 24 f.ty, mustZero 0 f.imm]

/-- Format C (R237): the checks on a, b and the offset; bits [39:32] are zero. -/
def mustC (f : CF) (a b off : Check) : List Check := [a, b, mustZero 32 f.z, off]

/-- A field without restriction. -/
def mustAny (lo : Nat) : Check := (lo, true)

/-- A source of format V2 or V3: under route SCL a scalar source code without IMM (R206, R245). -/
def mustRouted (lo : Nat) (x : BitVec 8) (r : BitVec 3) : Check := if r = 7 then mustSrc lo x false else mustAny lo

/-- The parts of P that no wave decides (R206): P is 0 when no source uses it; P[9:8] is 0 under IX; an SBC offset lies
inside its segment. -/
def mustP (lo : Nat) (p : BitVec 10) (routes : List (BitVec 3)) : Check :=
  let used := routes.any fun r => !(r == 0 || r == 7)
  (lo, (used || p == 0) && (!routes.contains 4 || decide (p.toNat < 256)) &&
    (!routes.contains 5 || decide (p.toNat % 64 < 2 ^ (p.toNat / 64))))

/-- Format V2 (R246): the checks shared by all, with what an entry accepts. `two` says that b is used. -/
def mustV2 (f : V2F) (two : Bool) (types rnds : List Nat) (sat : Bool) (fns : List Nat) (la : Bool) : List Check :=
  [mustRouted 40 f.a f.ra] ++
  (if two then [mustRouted 32 f.b f.rb] else [mustZero 32 f.b, mustZero 26 f.rb]) ++
  [mustP 16 f.p [f.ra, f.rb], mustIn 12 f.ty types, mustIn 9 f.rnd rnds, (8, sat || f.sat == 0), mustIn 4 f.fn fns,
   (0, la || f.la == 0)]

/-- Format V2 without vector sources (R254). -/
def mustV2none (f : V2F) (fnmax : Nat) : List Check :=
  [mustZero 40 f.a, mustZero 32 f.b, mustZero 29 f.ra, mustZero 26 f.rb, mustZero 16 f.p, mustZero 12 f.ty,
   mustZero 9 f.rnd, mustZero 8 f.sat, mustLe 4 f.fn fnmax, mustZero 0 f.la]

/-- The integer types (R202). -/
def intTypes : List Nat := [0, 1, 2, 3, 8, 9, 10, 11]
/-- The floating-point types (R202). -/
def fpTypes : List Nat := [4, 5, 6, 7]
/-- The rounding modes (R204). -/
def rndModes : List Nat := [0, 1, 2, 3, 4, 5, 6]
/-- The conversion codes of VCVT (R262). -/
def cvtCodes : List Nat := [0, 1, 2, 3, 4, 5, 7, 8]

/-- Format V3: the three sources, P, type2 and rounding. -/
def mustV3 (f : V3F) (types rnds : List Nat) : List Check :=
  [mustRouted 40 f.a f.ra, mustRouted 32 f.b f.rb, mustRouted 24 f.c f.rc, mustP 5 f.p [f.ra, f.rb, f.rc],
   mustIn 3 f.ty types, mustIn 0 f.rnd rnds]

/-- The offset field of format M: zero when absent; `may` says that it may be present (R265). -/
def mustOff (f : MF) (may : Bool) : List Check :=
  [(24, may || f.hasOff == 0), (32, f.hasOff == 1 || f.off == 0)]

/-- Format M (R265). -/
def mustM (f : MF) (data : Check) (off : Bool) (sizes : List Nat) (spaces : Nat) (la : Bool) (fns : List Nat) : List Check :=
  [data, mustRegZero 40 f.base, mustIn 28 f.size sizes, mustLe 25 f.space spaces, (20, la || f.la == 0),
   mustIn 16 f.fn fns] ++ mustOff f off

/-- FQPUSH and FQPOP (R265). -/
def mustFifo (f : MF) : List Check :=
  [(40, f.base == 130), mustIn 28 f.size [2], mustZero 25 f.space, mustZero 20 f.la, mustZero 16 f.fn,
   mustLe 4 (f.disp.extractLsb' 4 12) 0] ++ mustOff f false

/-- Format E: one check per field. -/
def mustE (a b c d e : Check) (ctl : List Check) : List Check := [a, b, c, d, e] ++ ctl

/-- Bits `h` down to `l` of the control field. -/
def ctlBits (f : EF) (h l : Nat) : Nat := f.ctl.toNat / 2 ^ l % 2 ^ (h + 1 - l)

/-- Control bits from `l` upwards are zero. -/
def ctlTop (f : EF) (l : Nat) : Check := (l, f.ctl.toNat / 2 ^ l == 0)

/-- The scope code in control[2:0] (R134) with the bits above it zero. -/
def ctlScope (f : EF) : List Check := [(0, decide (ctlBits f 2 0 ≤ 5)), ctlTop f 3]

/-- Operator and format pairs of RRED (R115, R303): operators 0 add, 1 min, 2 max, 3 and, 4 or, 5 xor; formats 0 f32,
1 bf16x2, 2 i32, 3 i64, 4 b32, 5 b64. -/
def redPair (op fmt : Nat) : Bool :=
  (op == 0 && decide (fmt ≤ 3)) || ((op == 1 || op == 2) && (fmt == 0 || fmt == 2)) ||
  ((op == 3 || op == 4 || op == 5) && (fmt == 4 || fmt == 5))

/-- The formats of MSHOUT and MSHIN (R299). -/
def shiftFmt (x : Nat) : Bool := [0, 1, 2, 3, 4, 5, 7, 8].contains x

/-- The fields of MSHOUT and MSHIN that depend on the destination or source kind (R292, R299). -/
def mustShift (f : EF) : List Check :=
  let dest := ctlBits f 9 8
  [mustSrc 48 f.a false,
   if dest = 0 then mustZero 40 f.b else mustSrc 40 f.b false,
   if dest = 2 then mustSrc 32 f.c false else mustZero 32 f.c,
   if dest = 1 then mustLe 24 f.d 15 else if dest = 2 then mustZero 24 f.d else mustAny 24,
   mustZero 20 f.e, (0, shiftFmt (ctlBits f 3 0)), (4, decide (ctlBits f 6 4 ≤ 6)), (8, decide (dest ≤ 2))]

/-- The field checks of each instruction (R222, R233, R237, R245 to R264, R265, R272 to R284, R292, R303, R320, R323 to
R333, R354). A step of another agent has no fields to check. -/
def Instr.must : Instr → List Check
  | .nop f => [mustZero 48 f.d, mustZero 40 f.a, mustZero 32 f.b, mustZero 28 f.fn, mustZero 24 f.ty, mustZero 0 f.imm]
  | .sadd f | .ssub f | .smul f | .smulh f | .sdiv f | .srem f | .sand f | .sor f | .sxor f | .sandn f
  | .sshl f | .sshr f | .ssha f | .smin f | .smax f => mustS2 f 1
  | .scmp f => [mustReg 48 f.d, mustSrc 40 f.a true, mustSrc 32 f.b true, mustLe 28 f.fn 5, mustLe 24 f.ty 3,
      (0, f.imm == 0 || f.a == 129 || f.b == 129)]
  | .ssel f => [mustReg 48 f.d, mustSrc 40 f.a false, mustSrc 32 f.b false, mustZero 28 f.fn, mustZero 24 f.ty,
      (7, f.imm.toNat < 128)]
  | .smov f => mustS1 f [0, 2]
  | .smovi f => [mustReg 48 f.d, mustLe 40 f.fn 2, mustZero 32 f.z]
  | .sbfe f => mustS2 f 1
  | .sbfi f => mustS2 f 0
  | .slzc f | .spopc f | .sffs f => mustS1 f [0]
  | .sadd64 f | .ssub64 f => mustS2 f 0
  | .smad64 f => mustS2 f 1
  | .scvt f => [mustReg 48 f.d, mustSrc 40 f.a false, mustZero 32 f.b, mustLe 28 f.fn 7, mustLe 24 f.ty 7,
      mustLe 0 (f.imm.extractLsb' 0 3) 6, mustZero 4 (f.imm.extractLsb' 4 20)]
  | .sfma f => [mustReg 48 f.d, mustSrc 40 f.a false, mustSrc 32 f.b false, mustLe 28 f.fn 3, mustIn 24 f.ty [4, 5],
      mustLe 0 (f.imm.extractLsb' 0 3) 6, mustZero 3 (f.imm.extractLsb' 3 21)]
  | .sfcmp f => [mustReg 48 f.d, mustSrc 40 f.a false, mustSrc 32 f.b false, mustLe 28 f.fn 7, mustIn 24 f.ty [4, 5],
      mustZero 0 f.imm]
  | .gets f => [mustReg 48 f.d, mustZero 40 f.a, mustZero 32 f.b,
      (28, f.fn == 0 || f.imm == 15 || f.imm == 16), mustZero 24 f.ty, mustLe 0 (f.imm.extractLsb' 0 8) 27,
      mustZero 8 (f.imm.extractLsb' 8 16)]
  | .mand f | .mor f | .mxor f | .mandn f => mustMask f (mustReg 48 f.d) (mustRegZero 40 f.a) (mustRegZero 32 f.b)
  | .mnot f | .mmov f | .mpopc f | .mffs f | .msave f =>
      mustMask f (mustReg 48 f.d) (mustRegZero 40 f.a) (mustZero 32 f.b)
  | .melse f | .mjoin f => mustMask f (mustZero 48 f.d) (mustRegZero 40 f.a) (mustZero 32 f.b)
  | .mlive f => mustMask f (mustReg 48 f.d) (mustZero 40 f.a) (mustZero 32 f.b)
  | .bra f => mustC f (mustZero 48 f.a) (mustZero 40 f.b) (mustAny 0)
  | .brz f | .brnz f => mustC f (mustSrc 48 f.a false) (mustZero 40 f.b) (mustAny 0)
  | .bmz f | .bmnz f | .bmall f => mustC f (mustRegZero 48 f.a) (mustZero 40 f.b) (mustAny 0)
  | .call f => mustC f (mustReg 48 f.a) (mustZero 40 f.b) (mustAny 0)
  | .ret f => mustC f (mustSrc 48 f.a false) (mustZero 40 f.b) (mustZero 0 f.off)
  | .jmpi f => mustC f (mustSrc 48 f.a false) (mustRegZero 40 f.b) (mustAny 0)
  | .exit f | .yield f => mustC f (mustZero 48 f.a) (mustZero 40 f.b) (mustZero 0 f.off)
  | .bar f | .bara f | .barw f => mustC f (mustZero 48 f.a) (mustZero 40 f.b) (mustZero 4 (f.off.extractLsb' 4 28))
  | .nap f => mustC f (mustSrc 48 f.a false) (mustZero 40 f.b) (mustZero 0 f.off)
  | .trap f => mustC f (mustSrc 48 f.a false) (mustZero 40 f.b) (mustAny 0)
  | .vadd f | .vsub f | .vmul f => mustV2 f true intTypes [0] true [0] false
  | .vmulh f | .vmin f | .vmax f | .vabsd f | .vshl f | .vshr f | .vsha f => mustV2 f true intTypes [0] false [0] false
  | .vand f | .vor f | .vxor f => mustV2 f true [0, 1, 2, 3] [0] false [0] false
  | .vpopc f | .vlzc f => mustV2 f false intTypes [0] false [0] false
  | .vmad f => mustV3 f [0, 1, 2] [0]
  | .vlogic f | .vbfi f => mustV3 f [0] [0]
  | .vbfe f => [mustZero 32 f.b, mustZero 18 f.rb] ++ mustV3 f [0] [0]
  | .vcmp f => mustReg 48 f.d :: mustV2 f true [0, 1, 2, 3] [0] false [0, 1, 2, 3, 4, 5] false
  | .vsel f => [mustRouted 40 f.a f.ra, mustRouted 32 f.b f.rb, mustRegZero 24 f.c, mustZero 15 f.rc,
      mustP 5 f.p [f.ra, f.rb], mustZero 3 f.ty, mustZero 0 f.rnd]
  | .vmov f => mustV2 f false [0, 2] [0] false [0] false
  | .vmovi f => [mustLe 40 f.fn 2, mustZero 32 f.z]
  | .vlane f => mustV2none f 3
  | .vrand f => mustV2none f 1
  | .vred f => mustReg 48 f.d :: mustV2 f false [0, 1] [0] false [0, 1, 2, 3, 4, 5] false
  | .vscan f => mustV2 f false [0, 1, 2, 3] [0] false [0, 1, 2, 3, 4, 5, 8, 9, 10, 11, 12, 13] false
  | .vplane f | .vunplane f => mustZero 29 f.ra :: mustV2 f false [10] [0] false [0, 1, 2, 3] false
  | .vfadd f | .vfsub f | .vfmul f => mustV2 f true fpTypes rndModes false [0] false
  | .vfma f => mustV3 f [0, 1, 2, 3] rndModes
  | .vfmin f | .vfmax f => mustV2 f true fpTypes [0] false [0] false
  | .vfcmp f => mustReg 48 f.d :: mustV2 f true [4, 5] [0] false [0, 1, 2, 3, 4, 5, 6, 7] false
  | .vfclass f => mustV2 f false fpTypes [0] false [0] false
  | .vfdiv f => mustV2 f true fpTypes rndModes false [0] true
  | .vfsqrt f => mustV2 f false fpTypes rndModes false [0] true
  | .vfrcp f | .vfrsq f | .vfexp2 f | .vflog2 f | .vfsin f | .vfcos f | .vftanh f =>
      mustV2 f false [4, 6, 7] [0] false [0] true
  | .vcvt f => mustV2 f false cvtCodes rndModes true cvtCodes false
  | .vpack f => mustV2 f true [0] [0] false [0, 1, 2] false
  | .vunpk f => mustV2 f false [0] [0] false [0, 1, 2, 3, 4, 5] false
  | .vfred f => mustReg 48 f.d ::
      mustV2 f false [4, 5] (if f.fn = 0 then [0, 1, 2, 3, 4, 6] else [0]) false [0, 1, 2] false
  | .vfdot2 f => mustV3 f [2, 3] rndModes
  | .vld f => mustM f (mustAny 48) true [0, 1, 2, 3, 4, 5, 6] 1 true [0]
  | .vst f => mustM f (mustAny 48) true [0, 1, 2, 3, 4, 5, 6] 1 false [0]
  | .sld f => mustM f (mustReg 48 f.data) false [0, 1, 2, 3, 4, 5, 6] 1 true [0]
  | .sst f => mustM f (mustSrc 48 f.data false) false [0, 1, 2, 3, 4, 5, 6] 1 false [0]
  | .vatom f => (16, !(f.fn == 10 && f.size == 3)) ::
      mustM f (mustAny 48) true [2, 3] 1 false [0, 1, 2, 3, 4, 5, 6, 7, 8, 9, 10]
  | .satom f => (16, !(f.fn == 10 && f.size == 3)) ::
      mustM f (mustReg 48 f.data) false [2, 3] 1 false [0, 1, 2, 3, 4, 5, 6, 7, 8, 9, 10]
  | .fqpush f | .fqpop f => mustFifo f
  | .cpref f | .cflush f => mustM f (mustZero 48 f.data) true [0] 0 false [0, 1]
  | .segcfg f => mustE (mustSrc 48 f.a false)
      (if ctlBits f 1 0 = 2 then (40, f.b == 130) else mustReg 40 f.b) (mustZero 32 f.c) (mustZero 24 f.d)
      (mustZero 20 f.e) [(0, decide (2 ≤ ctlBits f 1 0)), ctlTop f 2]
  | .tcopy f => mustE (mustZero 48 f.a) (mustRegZero 40 f.b) (mustZero 32 f.c) (mustZero 24 f.d) (mustZero 20 f.e)
      [ctlTop f 0]
  | .spmark f => mustE (mustSrc 48 f.a false) (mustSrc 40 f.b false) (mustZero 32 f.c) (mustZero 24 f.d)
      (mustZero 20 f.e) [ctlTop f 1]
  | .fload f => mustM f (mustAny 48) true [2, 3] 0 true [0]
  | .fstore f => mustM f (mustAny 48) true [2, 3] 0 false [0]
  | .freset f => mustM f (mustZero 48 f.data) true [2, 3] 0 false [0]
  | .fence f => mustE (mustZero 48 f.a) (mustZero 40 f.b) (mustZero 32 f.c) (mustZero 24 f.d) (mustZero 20 f.e)
      [(8, decide (ctlBits f 10 8 ≤ 5)), ctlTop f 11]
  | .batch f => mustE (mustZero 48 f.a) (mustZero 40 f.b) (mustZero 32 f.c) (mustReg 24 f.d) (mustLe 20 f.e 2)
      [ctlTop f 0]
  | .waitt f => mustE (mustSrc 48 f.a false) (mustZero 40 f.b) (mustZero 32 f.c) (mustZero 24 f.d) (mustLe 20 f.e 2)
      [ctlTop f 0]
  | .waittMemory f => mustE (mustSrc 48 f.a false) (mustRegZero 40 f.b) (mustZero 32 f.c) (mustZero 24 f.d)
      (mustIn 20 f.e [3]) (ctlScope f)
  | .tlread f => mustE (mustZero 48 f.a) (mustZero 40 f.b) (mustZero 32 f.c) (mustReg 24 f.d) (mustLe 20 f.e 2)
      [ctlTop f 0]
  | .tlreadDeferred f => mustE (mustZero 48 f.a) (mustRegZero 40 f.b) (mustZero 32 f.c) (mustReg 24 f.d)
      (mustIn 20 f.e [3]) [ctlTop f 0]
  | .cgbegin f | .cgabort f | .eret f | .apxend f => mustE (mustZero 48 f.a) (mustZero 40 f.b) (mustZero 32 f.c)
      (mustZero 24 f.d) (mustZero 20 f.e) [ctlTop f 0]
  | .cgcommit f => mustE (mustZero 48 f.a) (mustZero 40 f.b) (mustZero 32 f.c) (mustReg 24 f.d) (mustZero 20 f.e)
      [ctlTop f 0]
  | .sbset f | .sbclr f => mustE (mustSrc 48 f.a false) (mustRegZero 40 f.b) (mustZero 32 f.c) (mustZero 24 f.d)
      (mustZero 20 f.e) (ctlScope f)
  | .sbwait f => mustE (mustSrc 48 f.a false) (mustRegZero 40 f.b) (mustZero 32 f.c) (mustZero 24 f.d)
      (mustZero 20 f.e) [(0, decide (ctlBits f 2 0 ≤ 5)), ctlTop f 4]
  | .sbtake f => mustE (mustSrc 48 f.a false) (mustRegZero 40 f.b) (mustZero 32 f.c) (mustReg 24 f.d)
      (mustZero 20 f.e) (ctlScope f)
  | .obres f => mustE (mustReg 48 f.a) (mustZero 40 f.b) (mustZero 32 f.c) (mustZero 24 f.d) (mustZero 20 f.e)
      [ctlTop f 4]
  | .obrel f => mustE (mustZero 48 f.a) (mustZero 40 f.b) (mustZero 32 f.c) (mustZero 24 f.d) (mustZero 20 f.e)
      [ctlTop f 4]
  | .obwr f | .obrd f => mustE (mustSrc 48 f.a false) (mustZero 40 f.b) (mustZero 32 f.c) (mustAny 24)
      (mustZero 20 f.e) [ctlTop f 12]
  | .mplane f => mustE (mustZero 48 f.a) (mustZero 40 f.b) (mustZero 32 f.c) (mustZero 24 f.d) (mustZero 20 f.e)
      [(2, decide (ctlBits f 5 2 ≤ 5)), ctlTop f 7]
  | .mlds f => mustE (mustSrc 48 f.a false) (mustZero 40 f.b) (mustZero 32 f.c) (mustZero 24 f.d) (mustZero 20 f.e)
      [ctlTop f 6]
  | .mswap f => mustE (mustZero 48 f.a) (mustZero 40 f.b) (mustZero 32 f.c) (mustZero 24 f.d) (mustZero 20 f.e)
      [ctlTop f 2]
  | .mma f => mustE (mustSrc 48 f.a false) (mustSrc 40 f.b false) (mustZero 32 f.c) (mustZero 24 f.d)
      (mustZero 20 f.e) [ctlTop f 8]
  | .macz f => mustE (mustSrc 48 f.a false) (mustZero 40 f.b) (mustZero 32 f.c) (mustZero 24 f.d) (mustZero 20 f.e)
      [ctlTop f 0]
  | .mshout f => (11, ctlBits f 18 11 != 255) :: mustShift f
  | .mshin f => [(7, ctlBits f 7 7 == 0), ctlTop f 12] ++ mustShift f
  | .rstore f => mustE (mustReg 48 f.a) (mustReg 40 f.b) (mustAny 32) (mustZero 24 f.d) (mustZero 20 f.e)
      [(0, decide (2 ≤ ctlBits f 2 0) && decide (ctlBits f 2 0 ≤ 4)), ctlTop f 3]
  | .rload f => mustE (mustReg 48 f.a) (mustReg 40 f.b) (mustAny 32) (mustZero 24 f.d) (mustAny 20)
      [(0, decide (2 ≤ ctlBits f 2 0) && decide (ctlBits f 2 0 ≤ 4)), ctlTop f 3]
  | .rred f => mustE (mustReg 48 f.a) (mustReg 40 f.b) (mustAny 32) (mustZero 24 f.d) (mustZero 20 f.e)
      [(0, redPair (ctlBits f 3 0) (ctlBits f 7 4)), ctlTop f 8]
  | .ratom f => mustE (mustReg 48 f.a) (mustReg 40 f.b) (mustAny 32) (mustZero 24 f.d) (mustZero 20 f.e)
      [(0, ctlBits f 2 0 == 2 || ctlBits f 2 0 == 3), (3, ctlBits f 3 3 == 0),
       (4, decide (ctlBits f 7 4 ≤ 10) && !(ctlBits f 7 4 == 10 && ctlBits f 2 0 == 3)), ctlTop f 8]
  | .rsig f => mustE (mustReg 48 f.a) (mustReg 40 f.b) (mustZero 32 f.c) (mustZero 24 f.d) (mustZero 20 f.e)
      [ctlTop f 0]
  | .rxfer f => mustE (mustZero 48 f.a) (mustRegZero 40 f.b) (mustZero 32 f.c) (mustZero 24 f.d) (mustZero 20 f.e)
      [ctlTop f 0]
  | .trgarm f => mustE (mustSrc 48 f.a false) (mustRegZero 40 f.b) (mustZero 32 f.c) (mustReg 24 f.d)
      (mustZero 20 f.e) [ctlTop f 0]
  | .trgcan f => mustE (mustSrc 48 f.a false) (mustZero 40 f.b) (mustZero 32 f.c) (mustReg 24 f.d) (mustZero 20 f.e)
      [ctlTop f 0]
  | .apxbegin f => mustE (mustAny 48) (mustAny 40) (mustSrc 32 f.c false) (31, decide (f.d.toNat < 128))
      (mustZero 20 f.e) []
  | .apxinv f => mustE (mustZero 48 f.a) (mustZero 40 f.b)
      (if ctlBits f 0 0 = 1 then mustZero 32 f.c else mustSrc 32 f.c false) (mustZero 24 f.d) (mustZero 20 f.e)
      [ctlTop f 1]
  | .apxqry f => mustE (mustZero 48 f.a) (mustZero 40 f.b) (mustSrc 32 f.c false) (mustReg 24 f.d) (mustZero 20 f.e)
      [ctlTop f 0]
  | .taskq f => mustE (mustSrc 48 f.a false) (mustRegZero 40 f.b) (mustZero 32 f.c) (mustReg 24 f.d) (mustZero 20 f.e)
      (ctlScope f)
  | .tasksig f => mustE (mustSrc 48 f.a false) (mustRegZero 40 f.b) (mustZero 32 f.c) (mustZero 24 f.d)
      (mustZero 20 f.e) (ctlScope f)
  | .sets f => mustE (mustSrc 48 f.a false) (mustZero 40 f.b) (mustZero 32 f.c) (mustZero 24 f.d) (mustZero 20 f.e)
      [(0, decide (ctlBits f 7 0 ≤ 27)), ctlTop f 8]
  | .syscall f => mustE (mustSrc 48 f.a false) (mustSrc 40 f.b false) (mustZero 32 f.c) (mustReg 24 f.d)
      (mustZero 20 f.e) [ctlTop f 0]
  | .tlbinv f => mustE (mustSrc 48 f.a false) (mustSrc 40 f.b false) (mustZero 32 f.c) (mustZero 24 f.d)
      (mustZero 20 f.e) [ctlTop f 15]
  | .hashb f => mustE (mustRegZero 48 f.a) (mustSrc 40 f.b false) (mustRegZero 32 f.c) (mustReg 24 f.d)
      (mustZero 20 f.e) [ctlTop f 2]
  | .signq f => mustE (mustRegZero 48 f.a) (mustSrc 40 f.b false) (mustRegZero 32 f.c) (mustZero 24 f.d)
      (mustZero 20 f.e) [ctlTop f 2]
  | .measxExtend f => mustE (mustRegZero 48 f.a) (mustZero 40 f.b) (mustZero 32 f.c) (mustZero 24 f.d)
      (mustZero 20 f.e) [(4, ctlBits f 4 4 == 0), ctlTop f 5]
  | .measxRead f => mustE (mustRegZero 48 f.a) (mustZero 40 f.b) (mustZero 32 f.c) (mustZero 24 f.d)
      (mustZero 20 f.e) [(4, ctlBits f 4 4 == 1), ctlTop f 5]
  | .clauseHeader h => [mustZero 32 h.z]
  | .waveReady _ | .lateResultLand _ _ _ | .napExpiry _ | .storeBufferDrain _ _ | .l1SectorExpiry _ _
  | .cowPageCopy _ | .floadResend _ _ | .translationWalkComplete _ _ | .tlbRequestReissue _ _
  | .faultRecordDeferred _ | .faultRetry _ _ | .faultTrap _ _ | .faultKill _ _ | .invalidateAsid _ _ _
  | .invalidateRange _ _ _ _ _ | .invalidateAll _ _ | .invalidationComplete _ | .tileCopyPerform _ _
  | .segcfgComplete _ | .tlreadPerform _ | .obrelRelease _ _ | .obwrWrite _ _ | .obrdRead _ _ | .mplaneWrite _ _
  | .mldsLoad _ _ | .mswapExchange _ _ | .mmaRowStep _ _ | .maczClear _ _ | .mshoutRow _ _ | .mshinRow _ _
  | .routerExpand _ | .targetPerform _ | .reductionContribution _ | .reductionSlotTimeout _ | .tombstoneExpiry _
  | .reductionNackResend _ | .combineAck _ _ _ | .combineTimeout _ | .combineNackResend _ | .remoteAck _ _
  | .remoteTxTimeout _ | .rxferTransfer _ | .roceAck _ _ | .triggerFire _ _ _ | .triggerComplete _ _ | .snapshotArm
  | .snapshotCancel | .snapshotFreeze | .snapshotMarkComplete | .snapshotDrainRecord _ | .windowTableLoad
  | .ruleTableLoad | .taskDoorbell _ | .taskRead _ | .dependencePoll _ | .admissionTest _ | .stagingLanding _ _
  | .stagingTimeout _ | .cohortPlace _ _ _ | .cohortRetire _ | .storageClearComplete _ _ | .segmentConvert _ _ _
  | .segmentConversionComplete _ _ | .waitTimeout100us _ | .preemptLimitExpiry _ _ | .cohortRestore _ _
  | .taskQueueCancel _ | .fittingSample _ | .replayStep _ _ | .serviceResponse _ _ | .serviceRecordDeferred _
  | .mcRetry _ _ | .mcTrap _ _ | .mcKill _ _ | .mcRecordDeferred _ | .debugStop _ | .debugGo _
  | .channelHeadWrite _ _ _ | .channelRecord _ _ _ | .packageReset _ | .bootRetry _ | .trustQueueDoorbell
  | .trustQueueCancel | .doeRequest _ | .doeResponse _ | .doeAbort | .spdmGetVersion | .spdmGetCapabilities
  | .spdmNegotiateAlgorithms | .spdmGetDigests | .spdmGetCertificate | .spdmChallenge | .spdmGetMeasurements
  | .spdmUnsupportedRequest | .ideKmQuery | .ideKmKeyProg | .ideKmKSetGo | .ideKmKSetStop | .tdispGetVersion
  | .tdispGetCapabilities | .lockInterface _ | .getDeviceInterfaceReport _ | .getDeviceInterfaceState _
  | .startInterface _ | .stopInterface _ | .worldRequest _ | .functionLevelReset _ | .evictPage _
  | .pageReturn _ _ _ _ | .pageScrub _ | .hostAccess _ | .cxlSnoop _ | .portTrain _ _ | .flitTagFail _
  | .laneFailure _ | .powerThrottle _ _ | .thermalTrip | .ageingReplan _ _ | .doerqRead | .trrngRead
  | .tsstgdropRead _ | .tsremfltRead _ | .l2stgdropRead _ | .l2nackRead _ | .l2futdblRead _ | .l2poisonRead _
  | .fbrednackRead | .fbdroplateRead | .fbtimeoutRead | .fborphanRead | .fbbadhdrRead | .schedpreRead
  | .scheddemRead | .fedropRead _ | .feinvRead _ | .mcceRead _ | .trdenyRead | .trtagfailRead | .pwrthrotRead
  | .registerWrite _ _ _ | .l2StagingFill _ _ | .tdispInterfaceError _ | .supplyLoss => []

/-- The lowest bit of an offending field among a list of checks, if one fails. -/
def lowestBad : List Check → Option Nat
  | [] => none
  | (lo, ok) :: cs =>
    match lowestBad cs with
    | none => if ok then none else some lo
    | some m => if ok then some m else some (min lo m)

/-- Step 4 of R197 passes, as far as the fields decide it. -/
def Instr.wellFormed (i : Instr) : Bool := (lowestBad i.must).isNone

end Sys2Proof
end

