-- ==== Sys2Proof/Decode.lean ====
section
/-! DEFINITION. Decoding of 64-bit words (R194, R198, R209) into instructions, total on any word and rejecting by name,
and the encoder written from the same tables. A word with top byte 0xF8 decodes to the clause header; the rows of the
opcode table that are steps of other agents have no encoding. -/

namespace Sys2Proof

/-- Why a word is no instruction (R210). -/
inductive DecodeError where
  /-- The opcode is unassigned in R209. -/
  | unassigned (op : Nat)
deriving DecidableEq, Repr

/-- The fields of format S (R198). -/
def fieldsS (w : DWord) : SF :=
  { d := w.extractLsb' 48 8, a := w.extractLsb' 40 8, b := w.extractLsb' 32 8, fn := w.extractLsb' 28 4,
    ty := w.extractLsb' 24 4, imm := w.extractLsb' 0 24 }

/-- The fields of format I (R198). -/
def fieldsI (w : DWord) : IF :=
  { d := w.extractLsb' 48 8, fn := w.extractLsb' 40 8, z := w.extractLsb' 32 8, imm := w.extractLsb' 0 32 }

/-- The fields of format C (R198). -/
def fieldsC (w : DWord) : CF :=
  { a := w.extractLsb' 48 8, b := w.extractLsb' 40 8, z := w.extractLsb' 32 8, off := w.extractLsb' 0 32 }

/-- The fields of format V2 (R198). -/
def fieldsV2 (w : DWord) : V2F :=
  { d := w.extractLsb' 48 8, a := w.extractLsb' 40 8, b := w.extractLsb' 32 8, ra := w.extractLsb' 29 3,
    rb := w.extractLsb' 26 3, p := w.extractLsb' 16 10, ty := w.extractLsb' 12 4, rnd := w.extractLsb' 9 3,
    sat := w.extractLsb' 8 1, fn := w.extractLsb' 4 4, la := w.extractLsb' 0 4 }

/-- The fields of format V3 (R198). -/
def fieldsV3 (w : DWord) : V3F :=
  { d := w.extractLsb' 48 8, a := w.extractLsb' 40 8, b := w.extractLsb' 32 8, c := w.extractLsb' 24 8,
    ra := w.extractLsb' 21 3, rb := w.extractLsb' 18 3, rc := w.extractLsb' 15 3, p := w.extractLsb' 5 10,
    ty := w.extractLsb' 3 2, rnd := w.extractLsb' 0 3 }

/-- The fields of format M (R198). -/
def fieldsM (w : DWord) : MF :=
  { data := w.extractLsb' 48 8, base := w.extractLsb' 40 8, off := w.extractLsb' 32 8, size := w.extractLsb' 28 4,
    space := w.extractLsb' 25 3, hasOff := w.extractLsb' 24 1, la := w.extractLsb' 20 4, fn := w.extractLsb' 16 4,
    disp := w.extractLsb' 0 16 }

/-- The fields of format E (R198). -/
def fieldsE (w : DWord) : EF :=
  { a := w.extractLsb' 48 8, b := w.extractLsb' 40 8, c := w.extractLsb' 32 8, d := w.extractLsb' 24 8,
    e := w.extractLsb' 20 4, ctl := w.extractLsb' 0 20 }

/-- The fields of a clause header (R194). -/
def fieldsH (w : DWord) : HF :=
  { count := w.extractLsb' 52 4, cls := w.extractLsb' 48 4, rgn := w.extractLsb' 47 1, z := w.extractLsb' 32 15,
    k := w.extractLsb' 0 32 }

/-- The opcodes of format S (R209), part 1. -/
def sTable1 : List (Nat × (SF → Instr)) :=
   [(0x00, .nop), (0x01, .sadd), (0x02, .ssub), (0x03, .smul), (0x04, .smulh), (0x05, .sdiv),
    (0x06, .srem), (0x07, .sand), (0x08, .sor), (0x09, .sxor), (0x0a, .sandn), (0x0b, .sshl),
    (0x0c, .sshr), (0x0d, .ssha), (0x0e, .smin), (0x0f, .smax), (0x10, .scmp), (0x11, .ssel),
    (0x12, .smov), (0x14, .sbfe), (0x15, .sbfi), (0x16, .slzc), (0x17, .spopc), (0x18, .sffs)]

/-- The opcodes of format S (R209), part 2. -/
def sTable2 : List (Nat × (SF → Instr)) :=
   [(0x19, .sadd64), (0x1a, .ssub64), (0x1b, .smad64), (0x1c, .scvt), (0x1d, .sfma), (0x1e, .sfcmp),
    (0x1f, .gets), (0x20, .mand), (0x21, .mor), (0x22, .mxor), (0x23, .mandn), (0x24, .mnot),
    (0x25, .mmov), (0x26, .mpopc), (0x27, .mffs), (0x28, .msave), (0x29, .melse), (0x2a, .mjoin),
    (0x2b, .mlive)]

/-- The opcodes of format S (R209). -/
def sTable : List (Nat × (SF → Instr)) :=
  sTable1 ++ sTable2

/-- The opcodes of format I (R209). -/
def iTable : List (Nat × (IF → Instr)) :=
   [(0x13, .smovi), (0x56, .vmovi)]

/-- The opcodes of format C (R209). -/
def cTable : List (Nat × (CF → Instr)) :=
   [(0x30, .bra), (0x31, .brz), (0x32, .brnz), (0x33, .bmz), (0x34, .bmnz), (0x35, .bmall),
    (0x36, .call), (0x37, .ret), (0x38, .jmpi), (0x39, .exit), (0x3a, .bar), (0x3b, .bara),
    (0x3c, .barw), (0x3d, .yield), (0x3e, .nap), (0x3f, .trap)]

/-- The opcodes of format V2 (R209), part 1. -/
def v2Table1 : List (Nat × (V2F → Instr)) :=
   [(0x40, .vadd), (0x41, .vsub), (0x42, .vmul), (0x43, .vmulh), (0x45, .vmin), (0x46, .vmax),
    (0x47, .vabsd), (0x48, .vand), (0x49, .vor), (0x4a, .vxor), (0x4c, .vshl), (0x4d, .vshr),
    (0x4e, .vsha), (0x51, .vpopc), (0x52, .vlzc), (0x53, .vcmp), (0x55, .vmov), (0x57, .vlane),
    (0x58, .vred), (0x59, .vscan), (0x5a, .vrand), (0x5b, .vplane), (0x5c, .vunplane), (0x60, .vfadd)]

/-- The opcodes of format V2 (R209), part 2. -/
def v2Table2 : List (Nat × (V2F → Instr)) :=
   [(0x61, .vfsub), (0x62, .vfmul), (0x64, .vfmin), (0x65, .vfmax), (0x66, .vfcmp), (0x67, .vfclass),
    (0x68, .vfdiv), (0x69, .vfsqrt), (0x6a, .vfrcp), (0x6b, .vfrsq), (0x6c, .vfexp2), (0x6d, .vflog2),
    (0x6e, .vfsin), (0x6f, .vfcos), (0x70, .vftanh), (0x71, .vcvt), (0x72, .vpack), (0x73, .vunpk),
    (0x74, .vfred)]

/-- The opcodes of format V2 (R209). -/
def v2Table : List (Nat × (V2F → Instr)) :=
  v2Table1 ++ v2Table2

/-- The opcodes of format V3 (R209). -/
def v3Table : List (Nat × (V3F → Instr)) :=
   [(0x44, .vmad), (0x4b, .vlogic), (0x4f, .vbfe), (0x50, .vbfi), (0x54, .vsel), (0x63, .vfma),
    (0x75, .vfdot2)]

/-- The opcodes of format M (R209). -/
def mTable : List (Nat × (MF → Instr)) :=
   [(0x80, .vld), (0x81, .vst), (0x82, .sld), (0x83, .sst), (0x84, .vatom), (0x85, .satom),
    (0x86, .fqpush), (0x87, .fqpop), (0x88, .cpref), (0x89, .cflush), (0x8d, .fload), (0x8e, .fstore),
    (0x8f, .freset)]

/-- The opcodes of format E (R209), part 1. -/
def eTable1 : List (Nat × (EF → Instr)) :=
   [(0x8a, .segcfg), (0x8b, .tcopy), (0x8c, .spmark), (0x90, .fence), (0x91, .batch),
    (0x92, fun f => if f.e = 3 then .waittMemory f else .waitt f),
    (0x93, fun f => if f.e = 3 then .tlreadDeferred f else .tlread f), (0x94, .cgbegin),
    (0x95, .cgcommit), (0x96, .cgabort), (0x97, .sbset), (0x98, .sbclr), (0x99, .sbwait),
    (0x9a, .sbtake), (0xa0, .obres), (0xa1, .obrel), (0xa2, .obwr), (0xa3, .obrd), (0xa4, .mplane),
    (0xa5, .mlds), (0xa6, .mswap), (0xa7, .mma), (0xa8, .macz), (0xa9, .mshout)]

/-- The opcodes of format E (R209), part 2. -/
def eTable2 : List (Nat × (EF → Instr)) :=
   [(0xaa, .mshin), (0xb0, .rstore), (0xb1, .rload), (0xb2, .rred), (0xb3, .ratom), (0xb4, .rsig),
    (0xb5, .rxfer), (0xb6, .trgarm), (0xb7, .trgcan), (0xc0, .apxbegin), (0xc1, .apxend),
    (0xc2, .apxinv), (0xc3, .apxqry), (0xc4, .taskq), (0xc5, .tasksig), (0xd0, .sets), (0xd1, .eret),
    (0xd2, .syscall), (0xd3, .tlbinv), (0xd4, .hashb), (0xd5, .signq),
    (0xd6, fun f => if f.ctl.getLsbD 4 then .measxRead f else .measxExtend f)]

/-- The opcodes of format E (R209). -/
def eTable : List (Nat × (EF → Instr)) :=
  eTable1 ++ eTable2

/-- Looks an opcode up in a table. -/
def rowOf {α : Type} : List (Nat × (α → Instr)) → Nat → Option (α → Instr)
  | [], _ => none
  | (k, c) :: t, op => if k = op then some c else rowOf t op

/-- The major opcode (R198). -/
def opcodeOf (w : DWord) : Nat := (w.extractLsb' 56 8).toNat

/-- Decodes a 64-bit word by its major opcode (R209, R210). -/
def decode (w : DWord) : Except DecodeError Instr :=
  let op := opcodeOf w
  if op = 0xF8 then .ok (.clauseHeader (fieldsH w)) else
  match rowOf sTable op with
  | some c => .ok (c (fieldsS w))
  | none => match rowOf iTable op with
  | some c => .ok (c (fieldsI w))
  | none => match rowOf cTable op with
  | some c => .ok (c (fieldsC w))
  | none => match rowOf v2Table op with
  | some c => .ok (c (fieldsV2 w))
  | none => match rowOf v3Table op with
  | some c => .ok (c (fieldsV3 w))
  | none => match rowOf mTable op with
  | some c => .ok (c (fieldsM w))
  | none => match rowOf eTable op with
  | some c => .ok (c (fieldsE w))
  | none => .error (.unassigned op)

/-- The word of a format S instruction. -/
def encS (op : BitVec 8) (f : SF) : DWord := op ++ f.d ++ f.a ++ f.b ++ f.fn ++ f.ty ++ f.imm

/-- The word of a format I instruction. -/
def encI (op : BitVec 8) (f : IF) : DWord := op ++ f.d ++ f.fn ++ f.z ++ f.imm

/-- The word of a format C instruction. -/
def encC (op : BitVec 8) (f : CF) : DWord := op ++ f.a ++ f.b ++ f.z ++ f.off

/-- The word of a format V2 instruction. -/
def encV2 (op : BitVec 8) (f : V2F) : DWord :=
  op ++ f.d ++ f.a ++ f.b ++ f.ra ++ f.rb ++ f.p ++ f.ty ++ f.rnd ++ f.sat ++ f.fn ++ f.la

/-- The word of a format V3 instruction. -/
def encV3 (op : BitVec 8) (f : V3F) : DWord :=
  op ++ f.d ++ f.a ++ f.b ++ f.c ++ f.ra ++ f.rb ++ f.rc ++ f.p ++ f.ty ++ f.rnd

/-- The word of a format M instruction. -/
def encM (op : BitVec 8) (f : MF) : DWord :=
  op ++ f.data ++ f.base ++ f.off ++ f.size ++ f.space ++ f.hasOff ++ f.la ++ f.fn ++ f.disp

/-- The word of a format E instruction. -/
def encE (op : BitVec 8) (f : EF) : DWord := op ++ f.a ++ f.b ++ f.c ++ f.d ++ f.e ++ f.ctl

/-- The word of a clause header (R194). -/
def encH (h : HF) : DWord := (0xF8 : BitVec 8) ++ h.count ++ h.cls ++ h.rgn ++ h.z ++ h.k

/-- The word of an instruction (R198, R209); a step of another agent has none. -/
def encode (i : Instr) : Option DWord :=
  match i with
  | .nop f => some (encS 0x00 f)
  | .sadd f => some (encS 0x01 f)
  | .ssub f => some (encS 0x02 f)
  | .smul f => some (encS 0x03 f)
  | .smulh f => some (encS 0x04 f)
  | .sdiv f => some (encS 0x05 f)
  | .srem f => some (encS 0x06 f)
  | .sand f => some (encS 0x07 f)
  | .sor f => some (encS 0x08 f)
  | .sxor f => some (encS 0x09 f)
  | .sandn f => some (encS 0x0a f)
  | .sshl f => some (encS 0x0b f)
  | .sshr f => some (encS 0x0c f)
  | .ssha f => some (encS 0x0d f)
  | .smin f => some (encS 0x0e f)
  | .smax f => some (encS 0x0f f)
  | .scmp f => some (encS 0x10 f)
  | .ssel f => some (encS 0x11 f)
  | .smov f => some (encS 0x12 f)
  | .smovi f => some (encI 0x13 f)
  | .sbfe f => some (encS 0x14 f)
  | .sbfi f => some (encS 0x15 f)
  | .slzc f => some (encS 0x16 f)
  | .spopc f => some (encS 0x17 f)
  | .sffs f => some (encS 0x18 f)
  | .sadd64 f => some (encS 0x19 f)
  | .ssub64 f => some (encS 0x1a f)
  | .smad64 f => some (encS 0x1b f)
  | .scvt f => some (encS 0x1c f)
  | .sfma f => some (encS 0x1d f)
  | .sfcmp f => some (encS 0x1e f)
  | .gets f => some (encS 0x1f f)
  | .mand f => some (encS 0x20 f)
  | .mor f => some (encS 0x21 f)
  | .mxor f => some (encS 0x22 f)
  | .mandn f => some (encS 0x23 f)
  | .mnot f => some (encS 0x24 f)
  | .mmov f => some (encS 0x25 f)
  | .mpopc f => some (encS 0x26 f)
  | .mffs f => some (encS 0x27 f)
  | .msave f => some (encS 0x28 f)
  | .melse f => some (encS 0x29 f)
  | .mjoin f => some (encS 0x2a f)
  | .mlive f => some (encS 0x2b f)
  | .bra f => some (encC 0x30 f)
  | .brz f => some (encC 0x31 f)
  | .brnz f => some (encC 0x32 f)
  | .bmz f => some (encC 0x33 f)
  | .bmnz f => some (encC 0x34 f)
  | .bmall f => some (encC 0x35 f)
  | .call f => some (encC 0x36 f)
  | .ret f => some (encC 0x37 f)
  | .jmpi f => some (encC 0x38 f)
  | .exit f => some (encC 0x39 f)
  | .bar f => some (encC 0x3a f)
  | .bara f => some (encC 0x3b f)
  | .barw f => some (encC 0x3c f)
  | .yield f => some (encC 0x3d f)
  | .nap f => some (encC 0x3e f)
  | .trap f => some (encC 0x3f f)
  | .vadd f => some (encV2 0x40 f)
  | .vsub f => some (encV2 0x41 f)
  | .vmul f => some (encV2 0x42 f)
  | .vmulh f => some (encV2 0x43 f)
  | .vmad f => some (encV3 0x44 f)
  | .vmin f => some (encV2 0x45 f)
  | .vmax f => some (encV2 0x46 f)
  | .vabsd f => some (encV2 0x47 f)
  | .vand f => some (encV2 0x48 f)
  | .vor f => some (encV2 0x49 f)
  | .vxor f => some (encV2 0x4a f)
  | .vlogic f => some (encV3 0x4b f)
  | .vshl f => some (encV2 0x4c f)
  | .vshr f => some (encV2 0x4d f)
  | .vsha f => some (encV2 0x4e f)
  | .vbfe f => some (encV3 0x4f f)
  | .vbfi f => some (encV3 0x50 f)
  | .vpopc f => some (encV2 0x51 f)
  | .vlzc f => some (encV2 0x52 f)
  | .vcmp f => some (encV2 0x53 f)
  | .vsel f => some (encV3 0x54 f)
  | .vmov f => some (encV2 0x55 f)
  | .vmovi f => some (encI 0x56 f)
  | .vlane f => some (encV2 0x57 f)
  | .vred f => some (encV2 0x58 f)
  | .vscan f => some (encV2 0x59 f)
  | .vrand f => some (encV2 0x5a f)
  | .vplane f => some (encV2 0x5b f)
  | .vunplane f => some (encV2 0x5c f)
  | .vfadd f => some (encV2 0x60 f)
  | .vfsub f => some (encV2 0x61 f)
  | .vfmul f => some (encV2 0x62 f)
  | .vfma f => some (encV3 0x63 f)
  | .vfmin f => some (encV2 0x64 f)
  | .vfmax f => some (encV2 0x65 f)
  | .vfcmp f => some (encV2 0x66 f)
  | .vfclass f => some (encV2 0x67 f)
  | .vfdiv f => some (encV2 0x68 f)
  | .vfsqrt f => some (encV2 0x69 f)
  | .vfrcp f => some (encV2 0x6a f)
  | .vfrsq f => some (encV2 0x6b f)
  | .vfexp2 f => some (encV2 0x6c f)
  | .vflog2 f => some (encV2 0x6d f)
  | .vfsin f => some (encV2 0x6e f)
  | .vfcos f => some (encV2 0x6f f)
  | .vftanh f => some (encV2 0x70 f)
  | .vcvt f => some (encV2 0x71 f)
  | .vpack f => some (encV2 0x72 f)
  | .vunpk f => some (encV2 0x73 f)
  | .vfred f => some (encV2 0x74 f)
  | .vfdot2 f => some (encV3 0x75 f)
  | .vld f => some (encM 0x80 f)
  | .vst f => some (encM 0x81 f)
  | .sld f => some (encM 0x82 f)
  | .sst f => some (encM 0x83 f)
  | .vatom f => some (encM 0x84 f)
  | .satom f => some (encM 0x85 f)
  | .fqpush f => some (encM 0x86 f)
  | .fqpop f => some (encM 0x87 f)
  | .cpref f => some (encM 0x88 f)
  | .cflush f => some (encM 0x89 f)
  | .segcfg f => some (encE 0x8a f)
  | .tcopy f => some (encE 0x8b f)
  | .spmark f => some (encE 0x8c f)
  | .fload f => some (encM 0x8d f)
  | .fstore f => some (encM 0x8e f)
  | .freset f => some (encM 0x8f f)
  | .fence f => some (encE 0x90 f)
  | .batch f => some (encE 0x91 f)
  | .waitt f => some (encE 0x92 f)
  | .waittMemory f => some (encE 0x92 f)
  | .tlread f => some (encE 0x93 f)
  | .tlreadDeferred f => some (encE 0x93 f)
  | .cgbegin f => some (encE 0x94 f)
  | .cgcommit f => some (encE 0x95 f)
  | .cgabort f => some (encE 0x96 f)
  | .sbset f => some (encE 0x97 f)
  | .sbclr f => some (encE 0x98 f)
  | .sbwait f => some (encE 0x99 f)
  | .sbtake f => some (encE 0x9a f)
  | .obres f => some (encE 0xa0 f)
  | .obrel f => some (encE 0xa1 f)
  | .obwr f => some (encE 0xa2 f)
  | .obrd f => some (encE 0xa3 f)
  | .mplane f => some (encE 0xa4 f)
  | .mlds f => some (encE 0xa5 f)
  | .mswap f => some (encE 0xa6 f)
  | .mma f => some (encE 0xa7 f)
  | .macz f => some (encE 0xa8 f)
  | .mshout f => some (encE 0xa9 f)
  | .mshin f => some (encE 0xaa f)
  | .rstore f => some (encE 0xb0 f)
  | .rload f => some (encE 0xb1 f)
  | .rred f => some (encE 0xb2 f)
  | .ratom f => some (encE 0xb3 f)
  | .rsig f => some (encE 0xb4 f)
  | .rxfer f => some (encE 0xb5 f)
  | .trgarm f => some (encE 0xb6 f)
  | .trgcan f => some (encE 0xb7 f)
  | .apxbegin f => some (encE 0xc0 f)
  | .apxend f => some (encE 0xc1 f)
  | .apxinv f => some (encE 0xc2 f)
  | .apxqry f => some (encE 0xc3 f)
  | .taskq f => some (encE 0xc4 f)
  | .tasksig f => some (encE 0xc5 f)
  | .sets f => some (encE 0xd0 f)
  | .eret f => some (encE 0xd1 f)
  | .syscall f => some (encE 0xd2 f)
  | .tlbinv f => some (encE 0xd3 f)
  | .hashb f => some (encE 0xd4 f)
  | .signq f => some (encE 0xd5 f)
  | .measxExtend f => some (encE 0xd6 f)
  | .measxRead f => some (encE 0xd6 f)
  | .clauseHeader h => some (encH h)
  | .waveReady _ => none
  | .lateResultLand _ _ _ => none
  | .napExpiry _ => none
  | .storeBufferDrain _ _ => none
  | .l1SectorExpiry _ _ => none
  | .cowPageCopy _ => none
  | .floadResend _ _ => none
  | .translationWalkComplete _ _ => none
  | .tlbRequestReissue _ _ => none
  | .faultRecordDeferred _ => none
  | .faultRetry _ _ => none
  | .faultTrap _ _ => none
  | .faultKill _ _ => none
  | .invalidateAsid _ _ _ => none
  | .invalidateRange _ _ _ _ _ => none
  | .invalidateAll _ _ => none
  | .invalidationComplete _ => none
  | .tileCopyPerform _ _ => none
  | .segcfgComplete _ => none
  | .tlreadPerform _ => none
  | .obrelRelease _ _ => none
  | .obwrWrite _ _ => none
  | .obrdRead _ _ => none
  | .mplaneWrite _ _ => none
  | .mldsLoad _ _ => none
  | .mswapExchange _ _ => none
  | .mmaRowStep _ _ => none
  | .maczClear _ _ => none
  | .mshoutRow _ _ => none
  | .mshinRow _ _ => none
  | .routerExpand _ => none
  | .targetPerform _ => none
  | .reductionContribution _ => none
  | .reductionSlotTimeout _ => none
  | .tombstoneExpiry _ => none
  | .reductionNackResend _ => none
  | .combineAck _ _ _ => none
  | .combineTimeout _ => none
  | .combineNackResend _ => none
  | .remoteAck _ _ => none
  | .remoteTxTimeout _ => none
  | .rxferTransfer _ => none
  | .roceAck _ _ => none
  | .triggerFire _ _ _ => none
  | .triggerComplete _ _ => none
  | .snapshotArm => none
  | .snapshotCancel => none
  | .snapshotFreeze => none
  | .snapshotMarkComplete => none
  | .snapshotDrainRecord _ => none
  | .windowTableLoad => none
  | .ruleTableLoad => none
  | .taskDoorbell _ => none
  | .taskRead _ => none
  | .dependencePoll _ => none
  | .admissionTest _ => none
  | .stagingLanding _ _ => none
  | .stagingTimeout _ => none
  | .cohortPlace _ _ _ => none
  | .cohortRetire _ => none
  | .storageClearComplete _ _ => none
  | .segmentConvert _ _ _ => none
  | .segmentConversionComplete _ _ => none
  | .waitTimeout100us _ => none
  | .preemptLimitExpiry _ _ => none
  | .cohortRestore _ _ => none
  | .taskQueueCancel _ => none
  | .fittingSample _ => none
  | .replayStep _ _ => none
  | .serviceResponse _ _ => none
  | .serviceRecordDeferred _ => none
  | .mcRetry _ _ => none
  | .mcTrap _ _ => none
  | .mcKill _ _ => none
  | .mcRecordDeferred _ => none
  | .debugStop _ => none
  | .debugGo _ => none
  | .channelHeadWrite _ _ _ => none
  | .channelRecord _ _ _ => none
  | .packageReset _ => none
  | .bootRetry _ => none
  | .trustQueueDoorbell => none
  | .trustQueueCancel => none
  | .doeRequest _ => none
  | .doeResponse _ => none
  | .doeAbort => none
  | .spdmGetVersion => none
  | .spdmGetCapabilities => none
  | .spdmNegotiateAlgorithms => none
  | .spdmGetDigests => none
  | .spdmGetCertificate => none
  | .spdmChallenge => none
  | .spdmGetMeasurements => none
  | .spdmUnsupportedRequest => none
  | .ideKmQuery => none
  | .ideKmKeyProg => none
  | .ideKmKSetGo => none
  | .ideKmKSetStop => none
  | .tdispGetVersion => none
  | .tdispGetCapabilities => none
  | .lockInterface _ => none
  | .getDeviceInterfaceReport _ => none
  | .getDeviceInterfaceState _ => none
  | .startInterface _ => none
  | .stopInterface _ => none
  | .worldRequest _ => none
  | .functionLevelReset _ => none
  | .evictPage _ => none
  | .pageReturn _ _ _ _ => none
  | .pageScrub _ => none
  | .hostAccess _ => none
  | .cxlSnoop _ => none
  | .portTrain _ _ => none
  | .flitTagFail _ => none
  | .laneFailure _ => none
  | .powerThrottle _ _ => none
  | .thermalTrip => none
  | .ageingReplan _ _ => none
  | .doerqRead => none
  | .trrngRead => none
  | .tsstgdropRead _ => none
  | .tsremfltRead _ => none
  | .l2stgdropRead _ => none
  | .l2nackRead _ => none
  | .l2futdblRead _ => none
  | .l2poisonRead _ => none
  | .fbrednackRead => none
  | .fbdroplateRead => none
  | .fbtimeoutRead => none
  | .fborphanRead => none
  | .fbbadhdrRead => none
  | .schedpreRead => none
  | .scheddemRead => none
  | .fedropRead _ => none
  | .feinvRead _ => none
  | .mcceRead _ => none
  | .trdenyRead => none
  | .trtagfailRead => none
  | .pwrthrotRead => none
  | .registerWrite _ _ _ => none
  | .l2StagingFill _ _ => none
  | .tdispInterfaceError _ => none
  | .supplyLoss => none

/-- The instruction the decoder reads from the bits of an opcode-table row; an instruction is one 64-bit word, stored
little-endian, so its bits are the word's (R3, R198). -/
def decodeTableWord (_nbits w : Nat) : Option Instr :=
  match decode (BitVec.ofNat 64 w) with
  | .ok i => some i
  | .error _ => none

end Sys2Proof
end

