-- ==== Sys2Proof/Machine/WaveState.lean ====
section
/-! DEFINITION. The state of waves, cohorts and cores as plain data. Sparse maps (Maps.lean) hold register files
and storage: an unlisted key reads as the value placement gives it. -/

namespace Sys2Proof.Machine

/-- A cached translation (R28, R32): the page of an ASID, its physical base, its leaf entry and the leaf's bits. -/
structure Tr where
  asid : Nat
  page : Nat
  large : Bool
  base : Nat
  leafPa : Nat
  r : Bool
  w : Bool
  x : Bool
  fut : Bool
  cow : Bool
  io : Bool
  dirty : Bool
  adu : Bool
deriving DecidableEq, Repr

/-- A translation or permission fault (R37, R38): address, kind, access code and level. -/
structure TrFault where
  va : Nat
  kind : Nat
  access : Nat
  level : Nat
deriving DecidableEq, Repr

/-- The part of a late load or future load that one lane owns: the address it reads, the bytes of the wave's own store-buffer
entries captured at issue, and the entries of other waves of the core that it met there and waits for (R52); `nocache` keeps it
out of the L1 (R50); `va` is the virtual address. -/
structure LaneAcc where
  lane : Nat
  addr : Nat
  own : List (Nat × Byte)
  nocache : Bool
  after : List Nat := []
  va : Nat := 0
deriving DecidableEq, Repr

/-- Clause state (R166, R194): whether the wave stands inside a clause, the header's address and word, the instructions of it
still to issue, and the words of these that have been fetched already, which run as fetched (R16). -/
structure Clause where
  inside : Bool
  header : DWord
  word : DWord
  left : Nat
  words : List DWord := []
deriving DecidableEq, Repr

/-- What a late result waits for: an arithmetic result (R169), the answer to an instruction that delivers it by a lookahead wait of
L = 0 or to a GETS of a clock, a load of memory (global or scratch), a future load, or the answer of a remote operation. -/
inductive LateKind where
  | value
  | answer
  | global
  | scratch
  | future
  | remote (op : Nat)
deriving DecidableEq, Repr

/-- A pending late result (R169): destination registers, lookahead window left, and its lanes. `vals` holds what has
been answered. `refusals`/`until_` are the backoff of a refused FLOAD (R84), `stale` the lanes of an FLOAD whose translation an
invalidation has dropped (R36), `large` the pages reached through a large page. `epoch` counts the acquires
of the core before the load was issued (R53). `pc`, `clause` and `word` are those of the load, for a trap that its reads raise (R80, R409); a load issued
inside a commit group is `grouped`, and traps on nothing (R90). -/
structure Late where
  seq : Nat
  kind : LateKind
  vec : Bool
  reg : Nat
  nregs : Nat
  size : Nat
  window : Nat
  lanes : List LaneAcc
  vals : List (Nat × Nat)
  asid : Nat
  pages : List Nat
  refused : List Nat
  refusals : Nat
  until_ : Nat
  stale : List Nat := []
  large : List Nat := []
  epoch : Nat := 0
  pc : DWord := 0
  clause : Clause := { inside := false, header := 0, word := 0, left := 0 }
  word : DWord := 0
  grouped : Bool := false
deriving DecidableEq, Repr

/-- A register that awaits an engine (R171). -/
structure EPend where
  vec : Bool
  reg : Nat
  timeline : Nat
  batch : Nat
deriving DecidableEq, Repr

/-- An error recorded in a timeline (R119, R280): its batch, issue order, the trap code the covering WAITT raises and
its information; for the remote timeline the REMERR fields (R121). -/
structure TlErr where
  batch : Nat
  order : Nat
  code : Nat
  info : DWord
  cause : Nat
  window : Nat
  node : Nat
  count : Nat
deriving DecidableEq, Repr

/-- An engine timeline of a wave (R278): the batch counter, the commands outstanding with their batches, errors, and
the floating-point flags that enter FPSTAT when the timeline passes a batch (R193). -/
structure Timeline where
  batches : Nat
  open_ : List (Nat × Nat)
  errs : List TlErr
  flags : List (Nat × Nat)
deriving DecidableEq, Repr

/-- Why a wave is not ready (R167, R175). The 100 µs rule (R176) counts those that `counts100` names. -/
inductive Wait where
  | ready
  /-- at a yield point whose condition is already clear (YIELD, R242) -/
  | yielded
  | nap (until_ : Nat)
  /-- a late result that the next instruction must wait for (R169) -/
  | late
  /-- every pending late result, before trap entry (R378) -/
  | trapDrain
  /-- a translation (R25), with the pages still missing -/
  | walk
  /-- parked on a fault token of the die's fault queue (R41), or waiting for one -/
  | fault (die : Nat) (token : Nat)
  | faultQueue (die : Nat)
  /-- a free store-buffer entry (R51) -/
  | storeBuffer
  | barrier (b : Nat) (phase : Nat)
  | fence (pred succ scope : Nat)
  | timeline (engine : Nat) (value : Nat)
  | memTimeline (pa : Nat) (value : Nat)
  | scoreboard (pa : Nat) (mask : Nat) (any : Bool)
  | fifoFull (f : Nat)
  | fifoEmpty (f : Nat)
  /-- EMPTY scratch lines (R60) -/
  | scratchLine (lines : List Nat)
  /-- remote operations before a SETS of GRIDSHAPE or GRIDPOS (R100) -/
  | gridWrite (upTo : Nat)
  | service (die token : Nat)
  | serviceQueue (die : Nat)
  | invalidation (id : Nat)
  | remote (op : Nat)
  | lockstep
  | surrogate (until_ : Nat)
  | machineCheck (die token : Nat)
  | machineCheckQueue (die : Nat)
  | cow
  /-- an access that its slice or the core lets wait, and that is examined again -/
  | retry
  /-- the wave has ended and drains its store buffer (R165) -/
  | draining
  | ended
  /-- halted by an unhandled trap or an abort (R380, R349) -/
  | halted
deriving DecidableEq, Repr

/-- The register files of a wave (R13, R157, R158): scalar registers (keys 128 to 135 are h88 to h95, R379), vector
registers (key lane × 256 + register), the LIVE words and the poison marks of R390. -/
structure Regs where
  s : List (Nat × Word)
  v : List (Nat × Word)
  live : List (Nat × Word)
  spoison : List Nat
  vpoison : List Nat
deriving DecidableEq, Repr

/-- The per-wave special registers of R211 that are neither fixed at placement nor trap registers. An unlisted
generator holds the state that seed `rngSeed` gives its lane (R185). -/
structure Specials where
  fpstat : Nat
  fprm : Nat
  rngSeed : DWord
  gens : List (Nat × DWord)
  apxtab : DWord
  apxstat : DWord
  remerr : DWord
  remtrap : DWord
deriving DecidableEq, Repr

/-- Handler level and the trap registers (R378 to R383). `tpcEntry` is the TPC that trap entry wrote and `clauseEntry`
the clause recorded there; `dbgNext` holds the 1-writes to DBGCTL that wait for the next ERET or resume; `bpSkip`
suppresses the breakpoint match for one issue; `debugStop` says that the handler runs for BREAKPOINT or SINGLE_STEP, `broke` for the
former. -/
structure Traps where
  handler : Bool
  savedExec : List (Nat × Word)
  tba : DWord
  tpc : DWord
  tcause : DWord
  tinfo0 : DWord
  tinfo1 : DWord
  dbgctl : DWord
  dbgNext : DWord
  tpcEntry : DWord
  clauseEntry : Clause
  bpSkip : Bool
  stepDue : Bool
  debugStop : Bool
  broke : Bool := false
deriving DecidableEq, Repr

/-- An open commit group (R86): first cause of doom (0 none), read set with broken watches, write set, buffered bytes
by physical address, and the byte count. `since` is 1 while its CGBEGIN follows the restart point (R388); `locked` says that its
CGCOMMIT holds the locks of its lines while a page is copied or drained (R88, R91); `first` is the number of the last late result before
its CGBEGIN. -/
structure Group where
  doom : Nat
  reads : List (Nat × Bool)
  writes : List Nat
  bytes : List (Nat × Byte)
  count : Nat
  since : Nat
  locked : Bool := false
  first : Nat := 0
deriving DecidableEq, Repr

/-- Key of an approximable region (R355). -/
structure RegionKey where
  world : Nat
  asid : Nat
  tab : Nat
  id : Nat
deriving DecidableEq, Repr

/-- An open approximable region of a wave (R355, R356): key, generation, output block, and the captured input block of
each sampled lane; `since` as in a group. -/
structure OpenRegion where
  key : RegionKey
  gen : Nat
  out : Nat
  nout : Nat
  since : Nat
  capture : List (Nat × List Word)
deriving DecidableEq, Repr

/-- A trap that waits for the wave's late results before it is entered (R378), or is pending for a reported reason. -/
structure PendTrap where
  code : Nat
  tpc : DWord
  info0 : DWord
  info1 : DWord
  after : Bool
  queued : Bool
deriving DecidableEq, Repr

/-- Progress of the instruction at which the wave waits, which issues once although it waits (BAR has arrived, SYSCALL
has its token, and so on): `stage` 0 means nothing done; the other fields are the instruction's own. -/
structure Progress where
  stage : Nat
  x : Nat
  y : Nat
  data : List (Nat × Nat)
deriving DecidableEq, Repr

/-- The trap that the reads of a pending load have raised (R80, R409): the load's number, the trap at the load's address, and the
load's clause. -/
structure LateTrap where
  seq : Nat
  trap : PendTrap
  clause : Clause
deriving DecidableEq, Repr

/-- A store-buffer entry (R51): one sector of one wave, its bytes by offset, the clock of the last merge, the late
results it must not overtake (R135), and the page it was translated through (R36), `large` where that is a large page. Bytes that
merge while a newer read is pending stand in a second record of the same wave and sector, so that the older ones wait for no more than
they did (R131); the records of a wave and sector are one entry of the buffer, and drain in order. -/
structure SbEntry where
  id : Nat
  wave : Nat
  sector : Nat
  bytes : List (Nat × Byte)
  merged : Nat
  afterSeq : Nat
  asid : Nat
  page : Nat
  world : Nat
  cow : Bool
  large : Bool := false
deriving DecidableEq, Repr

/-- A wave (R155 to R176). `joined` says that an MJOIN makes the next access wait for earlier reads (R236);
`gridWait`, `waitSince` support R100 and R176; `xl`/`xfail` are the translations that complete for the instruction at
hand (R25); late results numbered above `restartSeq` were issued since the restart point (R388); `again` says that a mismatch has sent the wave back to the header of its
restart point (R388); `upset` says that a residue checker finds its next
arithmetic result wrong (R388); `lateTrap` is the trap that the reads of a pending load have raised;
`acquires` says that an acquire follows the reads that `joined` waits for (R150, R151); `entering` holds the sectors of a store that has
passed its checks and waits for store-buffer entries (R24, R51). -/
structure Wave where
  core : Nat
  slot : Nat
  cohort : Nat
  waveId : Nat
  k : Nat
  nv : Nat
  pc : DWord
  regs : Regs
  sp : Specials
  tr : Traps
  clause : Clause
  wait : Wait
  waitSince : Nat
  preemptible : Bool
  late : List Late
  lateSeq : Nat
  epend : List EPend
  tls : List Timeline
  restart : DWord
  restartClause : Clause
  restartSeq : Nat
  retry : Nat
  group : Option Group
  region : Option OpenRegion
  joined : Bool
  pend : Option PendTrap
  prog : Progress
  xl : List Tr
  xfail : List TrFault
  keeper : Option Nat
  upset : Bool
  lateTrap : Option LateTrap := none
  acquires : Bool := false
  entering : List SbEntry := []
  again : Bool := false
deriving DecidableEq, Repr

/-- A FIFO of a cohort (R61): number, segment address, depth and entries, each a list of lane values. -/
structure Fifo where
  num : Nat
  seg : Nat
  cap : Nat
  depth : Nat
  entries : List (List Word)
deriving DecidableEq, Repr

/-- A cohort barrier (R172): phases completed, and the waves that arrived in the current phase. -/
structure Barrier where
  phase : Nat
  arrived : List Nat
deriving DecidableEq, Repr

/-- A reservation record (R65): bits [127:0], and whether its release is queued (R295). -/
structure Record where
  bits : Nat
  releasing : Bool
deriving DecidableEq, Repr

/-- A plane's tag (R291): format (9 means NONE), BLK code, CENTER, planes read and scale bytes. -/
structure Tag where
  fmt : Nat
  blk : Nat
  center : Bool
  planes : Nat
  scales : List Byte
deriving DecidableEq, Repr

/-- A plane (R69): its 8 KiB by byte address, unlisted bytes zero, with its tag and the poisoned 32-bit words (R301). -/
structure Plane where
  bytes : List (Nat × Byte)
  tag : Tag
  poison : List Nat
deriving DecidableEq, Repr

/-- A plane slot (R69). `activeAhead` and `shadowAhead` are the tags that every queued command will leave (R287). `turned` says that
plane 1, the shadow plane at placement, is the active one; `turnedAhead` says the same of when every queued command is done (R286). -/
structure Slot where
  active : Plane
  shadow : Plane
  activeAhead : Tag
  shadowAhead : Tag
  turned : Bool := false
  turnedAhead : Bool := false
deriving DecidableEq, Repr

/-- The matrix stores that a cohort holds on one core (R64 to R69): unlisted bytes and accumulators are zero; `poison`
lists the accumulator words marked poisoned (R301), `obPoison` the poisoned operand-buffer words. -/
structure Matrix where
  ob : List (Nat × Byte)
  records : List (Nat × Record)
  acc : List (Nat × Word)
  slots : List (Nat × Slot)
  poison : List Nat
  obPoison : List Nat
deriving DecidableEq, Repr

/-- An SPMARK at work (R275): its wave, the clock of its issue, the lines of its range, how many have changed, and whether it sets
them FULL. -/
structure Marking where
  wave : Nat
  start : Nat
  line : Nat
  count : Nat
  done : Nat
  full : Bool
deriving DecidableEq, Repr

/-- What a byte of the scratchpad held before a store that no agent has yet seen performed, and that no FENCE of its wave has ordered
ahead of the wave's engine commands (R130, R144, R302): the wave, the store's place in order, the address, the byte, and whether its
word was poisoned. -/
structure Unfenced where
  wave : Nat
  num : Nat
  addr : Nat
  old : Byte
  bad : Bool
deriving DecidableEq, Repr

/-- A cohort (R155): its place and allocations, scratchpad (unlisted bytes zero), the EMPTY, staging-pending and
failed scratch lines (R58, R42; a failed line carries the trap to raise), poisoned 32-bit words of the scratchpad (R301), FIFO segments,
FIFOs, barriers and the matrix stores of its one or two cores. `obBase` and `accBase` place its contiguous allocations on each of its cores
(R64, R68); `marking` holds the SPMARKs at work, and `unfenced` the bytes of scratch stores that engine commands may still find as they were (R302). -/
structure Cohort where
  task : Nat
  index : Nat
  world : Nat
  asid : Nat
  core : Nat
  paired : Bool
  nwaves : Nat
  waves : List Nat
  ended : List Nat
  cx : Nat
  cy : Nat
  cz : Nat
  scratchSize : Nat
  scratch : List (Nat × Byte)
  empty : List Nat
  stagePend : List Nat
  failed : List (Nat × TrFault)
  spoiled : List Nat
  fifoSegs : List Nat
  fifos : List Fifo
  barriers : List (Nat × Barrier)
  mx : List Matrix
  obBytes : Nat
  obBase : List Nat
  accRows : Nat
  accBase : List Nat
  planes : Nat
  segs : List Nat
  started : Nat
  marking : List Marking := []
  unfenced : List Unfenced := []
deriving DecidableEq, Repr

/-- A sector of a core's L1 (R50): sector number (address / 16), world, bytes, fill clock and the way that holds its line, which is
a CACHE segment; `id` names it. -/
structure L1Sector where
  id : Nat
  sector : Nat
  world : Nat
  bytes : List Byte
  filled : Nat
  way : Nat := 0
deriving DecidableEq, Repr

/-- A line of the instruction cache of a pair of cores (R13, R16): line number (address / 64), the world of the fetch that filled
it (R70), and its 64 bytes. -/
structure CodeLine where
  line : Nat
  world : Nat
  bytes : List Byte
deriving DecidableEq, Repr

/-- A segment of a core's SRAM (R46, R47): role, the role it converts to and the clock from which that may serve, whether it is being cleared, and blocks
given to cohorts as (block, cohort). `converted` says that a conversion for a placement is complete: the new role is in force with the
cohort that takes the segment, since no other segment is SCRATCH or FIFO (R46). -/
structure Segment where
  role : Role
  next : Option Role
  ready : Nat
  clearing : Bool
  blocks : List (Nat × Nat)
  converted : Bool := false
deriving DecidableEq, Repr

/-- Something a core clears before it may be placed again (R71): what it is and how much, the clock at which it is clear, and the task
that held it. -/
structure Clearing where
  id : Nat
  regBytes : Nat
  waveSlots : List Nat
  segBlocks : List (Nat × Nat)
  obUnits : Nat
  obBase : Nat
  accRows : Nat
  accBase : Nat
  planes : Nat
  ready : Nat
  task : Nat
deriving DecidableEq, Repr

/-- A matrix command in a core's engine queue (R285, R287): operation code, owner, batch, and the operands read at issue;
`step` counts the rows done, `vals` the register values read at issue, `mis` the mismatches of the row step at hand, `err`
the error recorded: trap code and information (R301), and `plane` the plane of the slot that it reads or writes, whatever its name is by
then (R286). -/
structure MCmd where
  id : Nat
  op : Nat
  wave : Nat
  cohort : Nat
  half : Nat
  batch : Nat
  rec_ : Nat
  slot : Nat
  row : Nat
  n : Nat
  x : Nat
  pitch : Nat
  reg : Nat
  fmt : Nat
  rm : Nat
  scale : Nat
  dest : Nat
  f1 : Bool
  f2 : Bool
  f3 : Bool
  step : Nat
  vals : List (Nat × Word)
  recBits : Nat
  mis : Nat
  err : Option (Nat × DWord)
  plane : Nat := 0
  k : Nat := 1
  lanes : List Nat := []
deriving DecidableEq, Repr

/-- One sample on its way to the fitting engine (R356). -/
structure Sample where
  key : RegionKey
  gen : Nat
  core : Nat
  wave : Nat
  x : List Word
  y : List Word
deriving DecidableEq, Repr

/-- A core (R12, R13): segments (unlisted ones are CACHE and idle), L1, store buffer, TLB, engine queue, slot table
(R351: tenants of entries, strict bits, and writes that wait for clock 0 mod 64), the clause holder, issue history and
round-robin places (R352, R175), storage being cleared, the surrogate unit's cached regions (R373), and on the even core of a pair the
pair's instruction cache (R13). `spare` is the tenant that step 2 of R352 has chosen, until its wave issues;
`acquires` counts the acquires that loads in flight have met (R53); `guard` and `bin` are the voltage guardband in mV and the frequency bin
in MHz that it runs under (R423). -/
structure Core where
  segs : List (Nat × Segment)
  l1 : List L1Sector
  sb : List SbEntry
  tlb : List Tr
  queue : List MCmd
  tenants : List (Nat × Nat)
  strict : Nat
  tenantsNext : List (Nat × Nat)
  strictNext : Nat
  holder : Option Nat
  history : List (Nat × Nat)
  lastWave : List (Nat × Nat)
  lastSpare : Nat
  lastIssue : Option Nat
  clearing : List Clearing
  surrogate : List (RegionKey × Nat)
  code : List CodeLine := []
  spare : Option Nat := none
  acquires : Nat := 0
  guard : Nat := 0
  bin : Nat := 2000
deriving DecidableEq, Repr

/-- A core after reset: every segment CACHE, nothing cached, every slot entry tenant 0 (R46, R351). -/
def Core.reset : Core :=
  { segs := [], l1 := [], sb := [], tlb := [], queue := [], tenants := [], strict := 0, tenantsNext := [],
    strictNext := 0, holder := none, history := [], lastWave := [], lastSpare := 0, lastIssue := none,
    clearing := [], surrogate := [] }

/-- A segment after reset (R46). -/
def Segment.reset : Segment := { role := .cache, next := none, ready := 0, clearing := false, blocks := [] }

/-- The tag NONE (R291). -/
def Tag.none : Tag := { fmt := 9, blk := 0, center := false, planes := 0, scales := [] }

/-- A plane at placement (R69, R291). -/
def Plane.clear : Plane := { bytes := [], tag := Tag.none, poison := [] }

/-- A slot at placement. -/
def Slot.clear : Slot :=
  { active := Plane.clear, shadow := Plane.clear, activeAhead := Tag.none, shadowAhead := Tag.none }

/-- Matrix stores at placement (R68, R69). -/
def Matrix.clear : Matrix := { ob := [], records := [], acc := [], slots := [], poison := [], obPoison := [] }

/-- A timeline at placement (R157). -/
def Timeline.clear : Timeline := { batches := 0, open_ := [], errs := [], flags := [] }

/-- Timeline(e) (R278): the greatest n up to the batch counter with every batch from 1 to n complete. -/
def Timeline.value (t : Timeline) : Nat :=
  minNat t.batches (t.open_.map fun p => p.2 - 1)

end Sys2Proof.Machine
end

