-- ==== Sys2Proof/Machine/PackageState.lean ====
section
/-! DEFINITION. The state of dies, of the fabric block, the scheduler, the snapshot engine, the trust core's records,
the host link and power, as plain data. -/

namespace Sys2Proof.Machine

/-- Who waits for a translation or is parked on a fault token (R38): a wave (an instruction fetch or an access), a copy
command, a system copy channel, a staging copy. -/
inductive Agent where
  | wave (w : Nat) (fetch : Bool)
  | copy (cmd : Nat)
  | channel (die ch : Nat) (drain : Bool)
  | staging (copy : Nat)
deriving DecidableEq, Repr

/-- An unresolved fault token (R39): its key and the agents parked on it. `waiting` ones have no record yet. -/
structure Token where
  num : Nat
  asid : Nat
  page : Nat
  access : Nat
  fault : TrFault
  agents : List Agent
deriving DecidableEq, Repr

/-- A page-table walk in flight, or waiting in the miss queue (R33), with the requests that joined it. -/
structure Walk where
  id : Nat
  asid : Nat
  page : Nat
  world : Nat
  reqs : List (Nat × Nat × DWord)
deriving DecidableEq, Repr

/-- An invalidation (R35, R36): by TLBINV or TSINVCMD; `wave` waits for it. -/
structure Inval where
  id : Nat
  asid : Nat
  all : Bool
  pkg : Bool
  range : Bool
  page : Nat
  count : Nat
deriving DecidableEq, Repr

/-- The translation service of a die (R32, R39, R44); `fltcount` counts the records of the fault queue that software has not read. -/
structure Service where
  asbase : DWord
  fltbase : DWord
  flthead : Nat
  flttail : Nat
  fltphase : Bool
  fltcount : Nat
  invaddr : DWord
  badresp : Bool
  stgdrop : Nat
  remflt : Nat
  entries : List Tr
  pointers : List (Nat × Nat × Nat × Nat)
  walks : List Walk
  missq : List Walk
  refused : List (Nat × Walk)
  tokens : List Token
  waiting : List (TrFault × Nat × Agent)
  invals : List Inval
deriving DecidableEq, Repr

/-- A record queue towards system software (R329, R398): base, head, tail and phase, the records that software has not read, tokens outstanding with the wave
they belong to, and waves waiting for room. -/
structure RecordQueue where
  base : DWord
  head : Nat
  tail : Nat
  phase : Bool
  count : Nat
  tokens : List (Nat × Nat)
  waiting : List Nat
deriving DecidableEq, Repr

/-- A tracked region of a fitting engine (R358 to R373). `deps` are the watched physical pages or words as (first byte,
length); `seen` counts samples since entry to OBSERVE, `batch` holds the samples not yet trained on, `replay` the place in the
ring; `slot` says that it holds a training slot, which it asked for as number `queued`; `entered` orders the regions by their
last APXBEGIN; `stale` that it was invalidated since its entry was read. -/
structure Region where
  key : RegionKey
  nin : Nat
  nout : Nat
  h1 : Nat
  h2 : Nat
  s : Nat
  flags : Nat
  thresh : Word
  lrate : Word
  seed : DWord
  depVa : List (Nat × Nat)
  codeVa : List Nat
  watch : List (Nat × Nat)
  st : Nat
  n : Nat
  e : Word
  eset : Bool
  c : Nat
  f : Nat
  gen : Nat
  hi : List (Option Word)
  lo : List (Option Word)
  weights : List Word
  ring : List (List Word × List Word)
  seen : Nat
  batch : List (List Word × List Word)
  slot : Bool
  queued : Nat
  replay : Nat
  entered : Nat
  stale : Bool
deriving DecidableEq, Repr

/-- The fitting engine of a die (R372): registers, regions, the samples queued from the cores in order, and the mismatches of
the training step at hand of a region (R389). -/
structure Fitting where
  mode : Nat
  drop : Nat
  inv : Nat
  regions : List Region
  samples : List Sample
  mis : List (RegionKey × Nat)
deriving DecidableEq, Repr

/-- An armed or fired trigger (R319 to R323); `cmdVa` is the address of its command record. -/
structure Trigger where
  entry : Nat
  gen : Nat
  world : Nat
  asid : Nat
  disp : Nat
  task : Nat
  cohort : Nat
  core : Nat
  mask : Nat
  sb : Nat
  cpl : DWord
  sbPa : Nat
  nbt : Nat
  tol : Nat
  kind : Nat
  timed : Bool
  consume : Bool
  late : Bool
  grid : DWord × DWord
  fireNo : Nat
  cmd : List Byte
  fired : Bool
  unsync : Bool
  time : Nat
  cause : Nat
  done : Bool
  cmdId : Nat
  cmdVa : DWord
deriving DecidableEq, Repr

/-- A chain of linked transfer records (R417, R418): the record being walked, its bytes copied, and a fault it is parked
on; `rec_` is the record as the channel has read it, once it has, and `sent` says that RoCEv2 writes of it wait for their acknowledgement. -/
structure Chain where
  cur : Nat
  done : Nat
  parked : Bool
  trapped : Bool
  host : Bool
  rec_ : Option Nat := none
  sent : Bool := false
deriving DecidableEq, Repr

/-- A system copy channel (R419): the host chain and the snapshot-drain chain; `last` says which of them began the last record, true for
the drain. -/
structure Channel where
  host : Option Chain
  drain : Option Chain
  cur : Nat
  err : Bool
  drop : Bool
  last : Option Bool := none
deriving DecidableEq, Repr

/-- The L2 registers and reserve of a die (R75 to R78): protected lines with the task they were filled for. -/
structure L2 where
  stgres : Nat
  prot : List (Nat × Nat)
  stgdrop : Nat
  nack : Nat
  futdbl : Nat
  poison : Nat
deriving DecidableEq, Repr

/-- A die (R7, R17): translation service, service and machine-check queues, L2, fitting engine, trigger engine, system
copy channels, save pool and timeline keeper, staging promise (R343); `turnLast` is the clock of the last turn of L2 staging or of the drain,
and whether the drain had it (R344). -/
structure Die where
  ts : Service
  svc : RecordQueue
  svcres : DWord
  mc : RecordQueue
  mcce : Nat
  cspool : DWord
  poolUsed : List (Nat × Nat)
  l2 : L2
  fit : Fitting
  triggers : List Trigger
  trigGen : Nat
  channels : List (Nat × Channel)
  keeper : List (Nat × Nat)
  promised : Nat
  turnLast : Option (Nat × Bool) := none
deriving DecidableEq, Repr

/-- What a remote operation still owes when its payload has gathered its counts (R309). -/
structure Landing where
  tx : Tx
  count : Nat
deriving DecidableEq, Repr

/-- An operation of a remote engine (R119). `wave` is none for a trigger's command; `payload` counts the deliveries of
the payload transactions still to gather before the landing transaction; `sent` lists its transactions with their numbers
and refusals (R118); `void` is the cause for which an RRED sent a void (R117); `grid` holds the GRIDSHAPE and GRIDPOS values it was issued
under (R100); `peer` is the foreign peer of a FOREIGN transfer (R318). -/
structure RemoteOp where
  id : Nat
  die : Nat
  wave : Option Nat
  trigger : Option Nat
  batch : Nat
  pattern : BitVec 128
  world : Nat
  window : Nat
  kind : Nat
  expected : Nat
  gathered : Nat
  errs : Nat
  cause : Nat
  node : Nat
  data : List Byte
  issued : Nat
  landing : Option Landing
  payload : Nat
  foreign : Bool
  sent : List (Nat × Tx × Nat)
  void : Nat
  grid : DWord × DWord
  peer : Nat
deriving DecidableEq, Repr

/-- A copy command (TCOPY, SEGCFG, deferred TLREAD, RXFER's transfer) of a die (R273, R272, R281, R314). `rec_` is its
record; `done` lists elements moved; `wave` is none for a trigger's command; `stopped` is the trap and address of the fault it
is parked on. -/
structure CopyCmd where
  id : Nat
  kind : Nat
  die : Nat
  core : Nat
  wave : Option Nat
  cohort : Nat
  trigger : Option Nat
  batch : Nat
  world : Nat
  asid : Nat
  disp : Nat
  pc : DWord
  recVa : DWord
  rec_ : List Byte
  args : List Nat
  done : List Nat
  parked : Bool
  stopped : Option (Nat × Nat)
deriving DecidableEq, Repr

/-- Where an acknowledgement goes (R119, R124): a transaction of an operation of this package, a combine entry of the
neighbour on a port, or a branch of a combine entry here. -/
inductive Upstream where
  | op (id tx : Nat)
  | port (p seq : Nat)
  | branch (entry branch : Nat)
deriving DecidableEq, Repr

/-- A branch of a combine entry: its number in the entry, its port (0 the local port), the count and lowest node of the copy sent on it,
the copy and how often it was refused. -/
structure Branch where
  num : Nat
  port : Nat
  count : Nat
  node : Nat
  tx : Tx
  times : Nat
deriving DecidableEq, Repr

/-- A combine entry (R124): the branches still unanswered, and the running sums. -/
structure Combine where
  id : Nat
  up : Upstream
  branches : List Branch
  ack : Ack
  made : Nat
deriving DecidableEq, Repr

/-- A transaction delivered at the local port (R111), with the branch that waits for its acknowledgement. -/
structure Delivery where
  id : Nat
  tx : Tx
  up : Upstream
  here : Bool
deriving DecidableEq, Repr

/-- A transaction waiting to be expanded at this router (R123): from here, with the grid values of its operation (R100) and how often
this router refused it, or arrived at a port. -/
structure Waiting where
  tx : Tx
  port : Nat
  up : Upstream
  grid : Option (DWord × DWord) := none
  times : Nat := 0
deriving DecidableEq, Repr

/-- A copy refused for want of a combine entry or, where `anchor` says so, of a reduction slot (R118, R124): what to do again and when. -/
structure Refused where
  id : Nat
  tx : Tx
  port : Nat
  up : Upstream
  times : Nat
  until_ : Nat
  grid : Option (DWord × DWord) := none
  anchor : Bool := false
deriving DecidableEq, Repr

/-- One element of a reduction slot: presence, the exact accumulator as scaled integers, and special inputs (R115). -/
structure RedElem where
  have_ : Bool
  vals : List DWord
deriving DecidableEq, Repr

/-- A reduction slot at an anchor (R114). `op` 15 means no contribution with data yet. -/
structure RedSlot where
  id : Nat
  slice : Nat
  window : Nat
  offset : Nat
  pattern : BitVec 128
  tag : Nat
  world : Nat
  op : Nat
  fmt : Nat
  len : Nat
  ebytes : Nat
  rows : List (Nat × Nat)
  elems : List RedElem
  count : Nat
  voids : Nat
  land_ : Nat
  lbit : Nat
  loff : Nat
  opened : Nat
deriving DecidableEq, Repr

/-- A tombstone of a flushed slot (R118). -/
structure Tomb where
  id : Nat
  slice : Nat
  window : Nat
  offset : Nat
  pattern : BitVec 128
  tag : Nat
  status : Option Nat
  made : Nat
deriving DecidableEq, Repr

/-- A fabric port (R411, R420). -/
structure Port where
  up : Bool
  keyed : Bool
  fails : Nat
  lanes : Nat
deriving DecidableEq, Repr

/-- The fabric block (R102, R114 to R128): grid registers, registers, table copies, operations, transactions here and on
their way out, combine entries, slots, tombstones, refused copies, ports. -/
structure Fabric where
  shape : DWord
  pos : DWord
  wintab : DWord
  rules : DWord
  en : Bool
  ruleerr : Bool
  redto : Nat
  txto : Nat
  rednack : Nat
  droplate : Nat
  timeout : Nat
  orphan : Nat
  badhdr : Nat
  windows : List (BitVec 256)
  ruleTab : List (BitVec 128)
  ops : List RemoteOp
  inbox : List Waiting
  outbox : List (Nat × Tx)
  acksOut : List (Upstream × Ack)
  combines : List Combine
  deliveries : List Delivery
  slots : List RedSlot
  tombs : List Tomb
  refused : List Refused
  ports : List (Nat × Port)
deriving DecidableEq, Repr

/-- A slot of a ring that RETIRED has not passed: its number, whether its task has ended, the ring, address space and world that it was read
under, and the task read from it (R334, R335). -/
structure QueueSlot where
  n : Nat
  ended : Bool
  ring : Nat
  asid : Nat
  world : Nat
  task : Nat := 0
deriving DecidableEq, Repr

/-- A task queue (R335); queue 256 is the trust queue (R401). `bell` says that the front end has reads to make, `slots` lists the
slots that RETIRED has not passed, `lastTask` names the task read last. -/
structure Queue where
  cfg : DWord
  ring : DWord
  err : Bool
  ringf : Bool
  last : Nat
  bell : Bool
  slots : List QueueSlot
  lastTask : Nat
deriving DecidableEq, Repr

/-- Stages of a task (R340). -/
inductive Stage where
  | arrived | waiting | admitted | staging | ready | placing | running | done | cancelled
deriving DecidableEq, Repr

/-- A saved cohort (R393), by the cohort's number: the cohort and its waves, and the image: its die, the pool pages that hold it,
its bytes, and the world's save count (R412). -/
structure Saved where
  id : Nat
  cohort : Cohort
  waves : List (Nat × Wave)
  die : Nat
  pages : List Nat
  bytes : Nat
  count : Nat
deriving DecidableEq, Repr

/-- A task in the task store (R336 to R343); `prev` is the task read before it from its queue (SERIAL). `desc` is its descriptor as a 1,024-bit number, `deps` and `wset` the raw
table entries, `depsOk` the satisfied dependences; `entered` is the clock of its stage, `fitHeld` that from which the fit condition
has held it in WAITING; `saving` says that it is being pre-empted, `held` that DBGSTOP holds it;
`order` counts arrivals and `admitted` admissions. -/
structure Task where
  id : Nat
  queue : Nat
  slotN : Nat
  slotVa : DWord
  desc : Nat
  asid : Nat
  world : Nat
  disp : Nat
  stage : Stage
  status : Nat
  entered : Nat
  fitHeld : Option Nat
  deps : List Nat
  depsOk : List Nat
  wset : List Nat
  demand : Bool
  charge : List (Nat × Nat)
  placed : List Nat
  retired : Nat
  runTotal : Nat
  saved : List Saved
  saving : Bool
  held : Bool
  order : Nat
  prev : Nat
  admitted : Nat := 0
deriving DecidableEq, Repr

/-- A staging copy (R344, R346): of a task's L2 range, or of a SCRATCH range into a placed cohort; `demandClass` after
the drop of R42; `skip` lists scratch lines that a restored range leaves as they were saved (R348). -/
structure Staging where
  id : Nat
  task : Nat
  cohort : Option Nat
  range : Nat
  va : Nat
  len : Nat
  soff : Nat
  done : Nat
  die : Nat
  parked : Bool
  demandClass : Bool
  skip : List Nat := []
deriving DecidableEq, Repr

/-- The scheduler (R350) with the queues, the task store, staging copies and copy commands; `lastRead` is the clock and the die of the
last read of a task (R450). -/
structure Sched where
  en : Bool
  preempt : Bool
  stagelim : Nat
  preemptlim : Nat
  pre : Nat
  dem : Nat
  queues : List (Nat × Queue)
  tasks : List Task
  staging : List Staging
  copies : List CopyCmd
  nextDisp : Nat
  order : Nat
  lastRead : Option (Nat × Nat)
deriving DecidableEq, Repr

/-- The snapshot engine (R92 to R98). `marks` are physical 64 KiB pages still marked with the leaf entries that mark
them; `copies` gives the pool page that holds a page's copy; `regions` are the armed ones (ASID, first page, pages); `drained`
lists pages drained ahead of their record, with the record's address (R97), and `sending` those of which a part has been sent. -/
structure Snap where
  tl : DWord
  val : DWord
  reg : DWord
  pool : DWord
  drain : DWord
  state : Nat
  err : Nat
  skip : Nat
  marks : List (Nat × List Nat)
  copies : List (Nat × Nat)
  regions : List (Nat × Nat × Nat)
  drained : List (Nat × Nat)
  sending : List Nat
deriving DecidableEq, Repr

/-- A confidential world (R405, R407, R412): 0 FREE, 1 ACTIVE, 2 CLEARING. -/
structure World where
  state : Nat
  iface : Nat
  key : BitVec 256
  saves : Nat
  created : Nat
deriving DecidableEq, Repr

/-- States of a TDISP interface (R404, R414). -/
inductive IfaceState where
  | unlocked | locked | run | error
deriving DecidableEq, Repr

/-- A page-owner entry (R408). -/
structure Owner where
  world : Nat
  state : Nat
  shared : Bool
  version : Nat
deriving DecidableEq, Repr

/-- A page-owner entry after reset: world 0, ZERO (R408). -/
def Owner.reset : Owner := { world := 0, state := 2, shared := false, version := 0 }

/-- The trust registers, measurement and key slots, fuses and straps, worlds and interfaces (R399 to R414): IDE streams with a key and
those that run, slot extensions that wait for the mailbox (R444), whether the ROM's self-test passes, evicted pages as the host holds
them, events of the worlds' notice pages (1 a save image, 2 a page that failed its check), and interface resets with the steps done. -/
structure Trust where
  stage : Nat
  err : Nat
  recov : DWord
  /-- TRCTL.RETRY has been written and the boot it asks for has not begun (R401). -/
  retry : Bool
  deny : Nat
  tagfail : Nat
  slots : List (Nat × BitVec 256)
  keys : List (Nat × List Byte)
  fuseKeys : List (Nat × BitVec 256)
  fuseSvn : List (Nat × Nat)
  straps : List Byte
  worlds : List (Nat × World)
  worldsMade : Nat
  ifaces : List (Nat × IfaceState)
  ideKeys : List Nat
  ideLive : List Nat
  extensions : List (Nat × List Byte)
  selfTest : Bool
  evicted : List (Nat × Blob)
  notices : List (Nat × Nat)
  resets : List (Nat × Nat)
deriving DecidableEq, Repr

/-- The DOE mailbox and the SPDM connection (R403, R404, R442, R445): what stands in RQ, whether a request is being answered, requests
that wait, an abort of the request at hand, the responses handed to the host; the connection state (0 none, 1 VERSION, 2 CAPABILITIES,
3 ALGORITHMS without and 4 with an asymmetric algorithm), whether a CHALLENGE succeeded, the transcript with its VCA mark, and the
certificate chain; the length of the request at hand; and the responder's task (R444): queued and placed, its USER dwords, and where its
data block D and its transcript buffer TB stand. -/
structure Doe where
  len : Nat
  valid : Bool
  qb : DWord
  sb : DWord
  busy : Bool
  waiting : List (List Byte)
  aborted : Bool
  answers : List (List Byte)
  conn : Nat
  challenged : Bool
  transcript : List Byte
  vca : Nat
  chain : List Byte
  taken : Nat := 0
  queued : Bool := false
  placed : Bool := false
  user : List DWord := []
  data : Nat := 0
  tb : Nat := 0
deriving DecidableEq, Repr

/-- A RoCEv2 operation that has left on an Ethernet port (R318, R417, R421): the foreign peer, its usable ports, the queue pair, R_key and
IP address that its table entry gives the target, the destination, and the bytes written there; `add` marks the fetch-and-add of 1 of a
landing. -/
structure Roce where
  peer : Nat
  ports : Nat
  qp : Nat
  rkey : Nat
  addr : Nat
  dst : Nat
  add : Bool
  data : List Byte
deriving DecidableEq, Repr

/-- Power and ageing (R422, R423): registers, the nanoseconds below 2.0 GHz and of operation since the last plan, the plan, with the cores
that do not run under it yet and where in host memory its record goes; the host link's strap (R416) and the foreign peer table's base (R421); MSI-X counts and RoCEv2
operations that have left the package. -/
structure Power where
  lim : Nat
  watts : Nat
  mhz : Nat
  temp : Nat
  throt : Nat
  slowNs : Nat
  opNs : Nat
  guard : Nat
  bins : Nat
  plan : List CorePlan
  waiting : List Nat
  record : Nat
  stopped : Bool
  powered : Bool
  strap : Bool
  cxl : Bool
  ethpeer : DWord
  msix : List (Nat × Nat)
  foreign : List Roce
deriving DecidableEq, Repr

end Sys2Proof.Machine
end

