-- ==== Sys2Proof/Machine/State.lean ====
section
/-! DEFINITION. The state of one G9 package, its reset value, and the reasons a step can stop. Everything is plain
data. Memory is a list of (physical address, byte) cells in canonical form; an unlisted byte reads as zero, but for the state of a page
in the page-owner table (memReset; R408: ZERO pages are written with zeros before their first access; host memory: log 3). Parts that
come in fixed numbers (cores, dies, queues, ports) are sparse maps whose unlisted entries are at reset. -/

namespace Sys2Proof.Machine

/-- A translation service at reset (R44): the first pass through the fault queue writes PHASE 1 (R38). -/
def Service.reset : Service :=
  { asbase := 0, fltbase := 0, flthead := 0, flttail := 0, fltphase := true, fltcount := 0, invaddr := 0, badresp := false,
    stgdrop := 0, remflt := 0, entries := [], pointers := [], walks := [], missq := [], refused := [],
    tokens := [], waiting := [], invals := [] }

/-- A record queue at reset (R329, R398). -/
def RecordQueue.reset : RecordQueue :=
  { base := 0, head := 0, tail := 0, phase := true, count := 0, tokens := [], waiting := [] }

/-- The L2 registers at reset (R78). -/
def L2.reset : L2 := { stgres := 0, prot := [], stgdrop := 0, nack := 0, futdbl := 0, poison := 0 }

/-- A fitting engine at reset (R372). -/
def Fitting.reset : Fitting := { mode := 0, drop := 0, inv := 0, regions := [], samples := [], mis := [] }

/-- A system copy channel at reset (R419). -/
def Channel.reset : Channel := { host := none, drain := none, cur := 0, err := false, drop := false }

/-- A die at reset. The trigger generation starts at 1, since a generation is never 0 (R320; log 10). -/
def Die.reset : Die :=
  { ts := Service.reset, svc := RecordQueue.reset, svcres := 0, mc := RecordQueue.reset, mcce := 0,
    cspool := 0, poolUsed := [], l2 := L2.reset, fit := Fitting.reset, triggers := [], trigGen := 1, channels := [],
    keeper := [], promised := 0 }

/-- A fabric port at reset: 4 lanes, not trained (log 10). -/
def Port.reset : Port := { up := false, keyed := false, fails := 0, lanes := 4 }

/-- The fabric block at reset (R99, R128). -/
def Fabric.reset : Fabric :=
  { shape := 1, pos := 0, wintab := 0, rules := 0, en := false, ruleerr := false, redto := 200, txto := 1000,
    rednack := 0, droplate := 0, timeout := 0, orphan := 0, badhdr := 0, windows := [], ruleTab := [], ops := [],
    inbox := [], outbox := [], acksOut := [], combines := [], deliveries := [], slots := [], tombs := [],
    refused := [], ports := [] }

/-- A task queue at reset (R335, R401). -/
def Queue.reset : Queue :=
  { cfg := 0, ring := 0, err := false, ringf := false, last := 0, bell := false, slots := [], lastTask := 0 }

/-- The scheduler at reset (R350, R450). -/
def Sched.reset : Sched :=
  { en := false, preempt := true, stagelim := 200, preemptlim := 500, pre := 0, dem := 0, queues := [], tasks := [],
    staging := [], copies := [], nextDisp := 1, order := 0, lastRead := none }

/-- The snapshot engine at reset (R92). -/
def Snap.reset : Snap :=
  { tl := 0, val := 0, reg := 0, pool := 0, drain := 0, state := 0, err := 0, skip := 0, marks := [], copies := [],
    regions := [], drained := [], sending := [] }

/-- A world that is FREE (R405). -/
def World.reset : World := { state := 0, iface := 0, key := 0, saves := 0, created := 0 }

/-- The trust core's records at reset: TRSTAT.STAGE 0, every measurement slot zero (R333, R401); no key provisioned, and
the fuses and straps read zero (log 10). -/
def Trust.reset : Trust :=
  { stage := 0, err := 0, recov := 0, retry := false, deny := 0, tagfail := 0, slots := [], keys := [], fuseKeys := [], fuseSvn := [],
    straps := List.replicate 64 0, worlds := [], worldsMade := 0, ifaces := [], ideKeys := [], ideLive := [],
    extensions := [], selfTest := true, evicted := [], notices := [], resets := [] }

/-- The DOE mailbox at reset (R442). -/
def Doe.reset : Doe :=
  { len := 0, valid := false, qb := 0, sb := 0, busy := false, waiting := [], aborted := false, answers := [], conn := 0,
    challenged := false, transcript := [], vca := 0, chain := [] }

/-- Power at reset (R422); the strap selects PCIe (log 10). -/
def Power.reset : Power :=
  { lim := 3600, watts := 0, mhz := 2000, temp := 0, throt := 0, slowNs := 0, opNs := 0, guard := 0, bins := 0, plan := [], waiting := [], record := 0,
    stopped := false, powered := true, strap := false, cxl := false, ethpeer := 0, msix := [], foreign := [] }

/-- The package. `mem` to `fempty` are memory, with the page-owner table in it (R408), poisoned 16-byte sectors and EMPTY future words; `agenda`
holds who moves next, `cur` the wave whose turn it is; `clock` counts core clocks and `ptp` nanoseconds; `ids` names new
records, `free` numbers free values; `hostData` is what the last read by the host or an agent returned; `lpddr` is the population of the
LPDDR 6 tier in bytes (R10); `blocked` says that the step at hand has met a write that its slice holds (R91, R95, R97), so that the step
has to be made again. -/
structure State where
  mem : List Host.Cell
  poison : List Nat
  fempty : List Nat
  waves : List (Nat × Wave)
  cohorts : List (Nat × Cohort)
  cores : List (Nat × Core)
  dies : List (Nat × Die)
  fabric : Fabric
  sched : Sched
  snap : Snap
  trust : Trust
  doe : Doe
  power : Power
  agenda : List Turn
  cur : Option Nat
  clock : Nat
  ptp : Nat
  ids : Nat
  free : Nat
  hostData : List Byte
  lpddr : Nat
  blocked : Bool
deriving DecidableEq, Repr

/-- Why the machine stops with a fault: for no reason. Every failure that the spec describes is a trap, a status, an error bit or an answer,
and an access that it leaves open reads free values (log 72). -/
inductive Fault where
deriving DecidableEq, Repr

/-- Why a step is refused. -/
inductive Refusal where
  /-- The instruction has no meaning in the model yet; raised by the arms of `exec` that name one. Safe. -/
  | notModelled (mnemonic : String)
deriving DecidableEq, Repr

/-- The package right after reset: powered, nothing resident, nothing in flight, memory with nothing listed. The population of the
LPDDR 6 tier is the smallest of R10's three (log 2). -/
def State.reset : State :=
  { mem := [], poison := [], fempty := [], waves := [], cohorts := [], cores := [], dies := [],
    fabric := Fabric.reset, sched := Sched.reset, snap := Snap.reset, trust := Trust.reset, doe := Doe.reset,
    power := Power.reset, agenda := [], cur := none, clock := 0, ptp := 0, ids := 0, free := 0, hostData := [], lpddr := 512 * 2 ^ 30, blocked := false }

end Sys2Proof.Machine
end

