-- ==== Sys2Proof/Machine/Access.lean ====
section
/-! DEFINITION. Accessors: the parts of the state by name, registers of a wave with what R158, R159, R200 and R379 say of
reading and writing them, physical memory with the map of R45, page owners with the firewall of R409. -/

namespace Sys2Proof.Machine

/-! ### The parts of a package -/

/-- Die of a core key (a core key is die × 161 + COREID; COREID 160 on die 0 is the trust core, R19). -/
def dieOf (core : Nat) : Nat := core / 161

/-- COREID of a core key (R12, R19). -/
def coreIdOf (core : Nat) : Nat := core % 161

/-- Is this core the trust core (R19)? -/
def isTrustCore (core : Nat) : Bool := core == 160

def State.die (s : State) (d : Nat) : Die := mapGet Die.reset s.dies d
def State.setDie (s : State) (d : Nat) (x : Die) : State := { s with dies := mapPut Die.reset s.dies d x }
def State.updDie (s : State) (d : Nat) (f : Die → Die) : State := s.setDie d (f (s.die d))
def State.updTs (s : State) (d : Nat) (f : Service → Service) : State := s.updDie d fun x => { x with ts := f x.ts }
def State.updL2 (s : State) (d : Nat) (f : L2 → L2) : State := s.updDie d fun x => { x with l2 := f x.l2 }
def State.updFit (s : State) (d : Nat) (f : Fitting → Fitting) : State := s.updDie d fun x => { x with fit := f x.fit }

def State.core (s : State) (c : Nat) : Core := mapGet Core.reset s.cores c
def State.setCore (s : State) (c : Nat) (x : Core) : State := { s with cores := mapPut Core.reset s.cores c x }
def State.updCore (s : State) (c : Nat) (f : Core → Core) : State := s.setCore c (f (s.core c))

/-- Changes every core; a core that is then as after reset is not listed. -/
def State.mapCores (s : State) (f : Core → Core) : State :=
  { s with cores := (s.cores.map fun x => (x.1, f x.2)).filter fun x => x.2 != Core.reset }

def State.wave (s : State) (u : Nat) : Option Wave := mapFind s.waves u
def State.setWave (s : State) (u : Nat) (w : Wave) : State := { s with waves := mapInsert s.waves u w }

/-- Changes a wave that exists. -/
def State.updWave (s : State) (u : Nat) (f : Wave → Wave) : State :=
  match s.wave u with
  | some w => s.setWave u (f w)
  | none => s

def State.cohort (s : State) (c : Nat) : Option Cohort := mapFind s.cohorts c
def State.setCohort (s : State) (c : Nat) (x : Cohort) : State := { s with cohorts := mapInsert s.cohorts c x }

/-- Changes a cohort that exists. -/
def State.updCohort (s : State) (c : Nat) (f : Cohort → Cohort) : State :=
  match s.cohort c with
  | some x => s.setCohort c (f x)
  | none => s

/-- A new identifier. -/
def State.fresh (s : State) : Nat × State := (s.ids + 1, { s with ids := s.ids + 1 })

def State.task (s : State) (t : Nat) : Option Task := s.sched.tasks.find? fun x => x.id == t
def State.updTask (s : State) (t : Nat) (f : Task → Task) : State :=
  { s with sched := { s.sched with tasks := updFirst (fun x => x.id == t) f s.sched.tasks } }
def State.updFabric (s : State) (f : Fabric → Fabric) : State := { s with fabric := f s.fabric }
def State.queue (s : State) (q : Nat) : Queue := mapGet Queue.reset s.sched.queues q
def State.updQueue (s : State) (q : Nat) (f : Queue → Queue) : State :=
  { s with sched := { s.sched with queues := mapPut Queue.reset s.sched.queues q (f (s.queue q)) } }
def State.world (s : State) (n : Nat) : World := mapGet World.reset s.trust.worlds n
def State.setWorld (s : State) (n : Nat) (x : World) : State :=
  { s with trust := { s.trust with worlds := mapPut World.reset s.trust.worlds n x } }
def State.iface (s : State) (n : Nat) : IfaceState := mapGet .unlocked s.trust.ifaces n
def State.setIface (s : State) (n : Nat) (x : IfaceState) : State :=
  { s with trust := { s.trust with ifaces := mapPut .unlocked s.trust.ifaces n x } }

/-- Has issue stopped for a world whose interface is being reset (R414 step 1)? -/
def State.worldStopped (s : State) (n : Nat) : Bool := (s.world n).state == 2

/-- Clocks in `us` microseconds at 2.0 GHz (R1, R422). -/
def usClocks (us : Nat) : Nat := 2000 * us

/-! ### Registers of a wave -/

/-- Wave width (R155). -/
def Wave.width (w : Wave) : Nat := 32 * w.k

/-- The register that a scalar code names: at handler level codes 88 to 95 are h88 to h95 (R379). -/
def Wave.skey (w : Wave) (r : Nat) : Nat := if w.tr.handler && decide (88 ≤ r) && decide (r ≤ 95) then r + 40 else r

/-- Scalar register. -/
def Wave.s (w : Wave) (r : Nat) : Word := mapGet 0 w.regs.s (w.skey r)

/-- LIVE word j (R158). -/
def Wave.liveWord (w : Wave) (j : Nat) : Word := mapGet 0 w.regs.live j

/-- EXEC word j (R158). -/
def Wave.execWord (w : Wave) (j : Nat) : Word := mapGet 0 w.regs.s (96 + j)

/-- Writes a scalar register: a mask word below k is ANDed with LIVE (R159); the poison mark clears (R390). -/
def Wave.setS (w : Wave) (r : Nat) (x : Word) : Wave :=
  let key := w.skey r
  let x := if 96 ≤ r ∧ r < 96 + w.k then x &&& w.liveWord (r - 96) else x
  { w with regs := { w.regs with s := mapPut 0 w.regs.s key x, spoison := w.regs.spoison.filter (· != key) } }

/-- The pair r:2 (R200). -/
def Wave.s64 (w : Wave) (r : Nat) : DWord := w.s (r + 1) ++ w.s r

/-- Writes the pair r:2, word by word (R159). -/
def Wave.setS64 (w : Wave) (r : Nat) (x : DWord) : Wave :=
  (w.setS r (x.extractLsb' 0 32)).setS (r + 1) (x.extractLsb' 32 32)

/-- The scalar registers r to r + n − 1 as one number. -/
def Wave.sgroup (w : Wave) (r n : Nat) : Nat :=
  (List.range n).foldr (fun i acc => (w.s (r + i)).toNat + 2 ^ 32 * acc) 0

/-- The clause constant K (R194). -/
def Wave.kconst (w : Wave) : Word := w.clause.word.extractLsb' 0 32

/-- The 32-bit value of a scalar source code (R200). -/
def Wave.src (w : Wave) (c : BitVec 8) (imm : BitVec 24 := 0) : Word :=
  if c.toNat < 128 then w.s c.toNat else if c = 128 then w.kconst
  else if c = 129 then imm.signExtend 32 else 0

/-- The 64-bit value of a scalar source code: K and IMM are sign-extended (R200). -/
def Wave.src64 (w : Wave) (c : BitVec 8) (imm : BitVec 24 := 0) : DWord :=
  if c.toNat < 128 then w.s64 c.toNat else if c = 128 then w.kconst.signExtend 64
  else if c = 129 then imm.signExtend 64 else 0

/-- Word j of a mask group, or of ZERO (R233). -/
def Wave.maskWord (w : Wave) (c : BitVec 8) (j : Nat) : Word := if c.toNat < 128 then w.s (c.toNat + j) else 0

/-- Key of vector register r in lane i. -/
def vkey (r i : Nat) : Nat := i * 256 + r

/-- Vector register r in lane i (R218). -/
def Wave.v (w : Wave) (r i : Nat) : Word := mapGet 0 w.regs.v (vkey r i)

/-- Writes vector register r in lane i; the poison mark clears (R390). -/
def Wave.setV (w : Wave) (r i : Nat) (x : Word) : Wave :=
  { w with regs := { w.regs with v := mapPut 0 w.regs.v (vkey r i) x,
                                 vpoison := w.regs.vpoison.filter (· != vkey r i) } }

/-- The pair r:2 in lane i (R201). -/
def Wave.v64 (w : Wave) (r i : Nat) : DWord := w.v (r + 1) i ++ w.v r i

/-- EXEC(i), LIVE(i) and Active(i) (R158). -/
def Wave.execBit (w : Wave) (i : Nat) : Bool := (w.execWord (i / 32)).getLsbD (i % 32)
def Wave.liveBit (w : Wave) (i : Nat) : Bool := (w.liveWord (i / 32)).getLsbD (i % 32)
def Wave.active (w : Wave) (i : Nat) : Bool := w.execBit i && w.liveBit i

/-- The active lanes in ascending order. -/
def Wave.activeLanes (w : Wave) : List Nat := (List.range w.width).filter w.active

/-- The lanes in LIVE in ascending order. -/
def Wave.liveLanes (w : Wave) : List Nat := (List.range w.width).filter w.liveBit

/-- Some EXEC word is nonzero. -/
def Wave.anyExec (w : Wave) : Bool := (List.range w.k).any fun j => w.execWord j != 0

/-- EXECSUM (R156). -/
def Wave.execSum (w : Wave) : Nat :=
  (List.range w.k).foldr (fun j acc => b2n (w.execWord j != 0) + 2 * acc) 0

/-- The generator state that SETS RNGSEED gives lane i (R185). -/
def genInit (seed : DWord) (i : Nat) : DWord :=
  let x := seed ^^^ BitVec.ofNat 64 (0x9E3779B97F4A7C15 * (i + 1))
  if x = 0 then 1 else x

/-- One step of a generator (R185). -/
def genStep (x : DWord) : DWord :=
  let x := x ^^^ (x <<< 13)
  let x := x ^^^ (x >>> 7)
  x ^^^ (x <<< 17)

/-- The generator state of lane i. -/
def Wave.gen (w : Wave) (i : Nat) : DWord := (mapFind w.sp.gens i).getD (genInit w.sp.rngSeed i)

/-- Sets the generator state of lane i. -/
def Wave.setGen (w : Wave) (i : Nat) (x : DWord) : Wave := { w with sp := { w.sp with gens := mapInsert w.sp.gens i x } }

/-- ORs flags into FPSTAT (R184). -/
def Wave.raise (w : Wave) (fl : Nat) : Wave := { w with sp := { w.sp with fpstat := w.sp.fpstat ||| fl } }

/-- Timeline record e of a wave: 0 copy, 1 matrix, 2 remote (R205). -/
def Wave.tl (w : Wave) (e : Nat) : Timeline := nth Timeline.clear w.tls e

/-- Changes timeline record e. -/
def Wave.updTl (w : Wave) (e : Nat) (f : Timeline → Timeline) : Wave := { w with tls := w.tls.modify e f }

/-- A command joins the open batch of timeline e (R278). -/
def Wave.joinBatch (w : Wave) (e cmd : Nat) : Wave :=
  w.updTl e fun t => { t with open_ := t.open_ ++ [(cmd, t.batches + 1)] }

/-- The world of a wave's cohort. -/
def State.waveWorld (s : State) (w : Wave) : Nat := ((s.cohort w.cohort).map (·.world)).getD 0
/-- The address space of a wave's cohort. -/
def State.waveAsid (s : State) (w : Wave) : Nat := ((s.cohort w.cohort).map (·.asid)).getD 0
/-- The dispatch number of a wave's task (R450). -/
def State.waveDisp (s : State) (w : Wave) : Nat :=
  (((s.cohort w.cohort).bind fun c => s.task c.task).map (·.disp)).getD 0
/-- The half of a paired cohort on which a wave runs: 0 on the even core or an unpaired cohort (R155). -/
def Wave.half (c : Cohort) (w : Wave) : Nat := if c.paired then w.core - c.core else 0

/-! ### Physical memory (R45, R72) -/

/-- The LPDDR 6 range of the map, populated or not. -/
def inLpddr (pa : Nat) : Bool := decide (pa < 0x20000000000)
/-- The die whose bonded DRAM holds the address. -/
def bondedDie (pa : Nat) : Option Nat :=
  (List.range 4).find? fun d => decide (0x20000000000 + d * 0x1000000000 ≤ pa ∧ pa < 0x20000000000 + (d + 1) * 0x1000000000)
/-- The die whose MMIO range holds the address. -/
def mmioDie (pa : Nat) : Option Nat :=
  (List.range 4).find? fun d => decide (0x30000000000 + d * 0x1000000 ≤ pa ∧ pa < 0x30000000000 + (d + 1) * 0x1000000)
def isMmio (pa : Nat) : Bool := (mmioDie pa).isSome
def isHost (pa : Nat) : Bool := decide (0x8000000000000 ≤ pa ∧ pa < 0x10000000000000)
/-- Device memory: the two DRAM tiers, LPDDR 6 up to the population (R10). -/
def State.isDevice (s : State) (pa : Nat) : Bool := decide (pa < s.lpddr) || (bondedDie pa).isSome
/-- Backed addresses (R45). -/
def State.backed (s : State) (pa : Nat) : Bool := s.isDevice pa || isMmio pa || isHost pa
/-- Every byte of a range is memory (device or host), not MMIO and not a hole. -/
def State.backedMem (s : State) (pa n : Nat) : Bool :=
  (s.isDevice pa || isHost pa) && (n == 0 || ((s.isDevice (pa + n - 1) || isHost (pa + n - 1))))

/-- Home die of an address (R9, R45, R72). -/
def homeDie (pa : Nat) : Nat :=
  if inLpddr pa then pa / 65536 % 4 else ((bondedDie pa).orElse fun _ => mmioDie pa).getD 0

/-- Home slice within the home die (R72). -/
def homeSlice (pa : Nat) : Nat := fld pa 12 6 ^^^ fld pa 19 13 ^^^ fld pa 26 20

/-- The page-owner table (R408): 576 MiB of bonded DRAM of die 0; its place there is a choice (log 83). -/
def ownerBase : Nat := 0x20FDC000000
def ownerSize : Nat := 0x24000000
def inOwnerTable (pa : Nat) : Bool := decide (ownerBase ≤ pa ∧ pa < ownerBase + ownerSize)

/-- What a byte that nothing has written reads as: zero, but for the byte of an owner entry that holds STATE, which resets to ZERO
(R408). -/
def memReset (pa : Nat) : Byte := if inOwnerTable pa && pa % 16 == 1 then 2 else 0

/-- The canonical form of memory, from an address on: addresses rise strictly, and no listed byte equals what an unlisted one reads as. -/
def memWfFrom : Nat → List Host.Cell → Bool
  | _, [] => true
  | b, (k, v) :: m => decide (b ≤ k) && decide (v ≠ memReset k) && memWfFrom (k + 1) m

/-- The canonical form of memory. -/
def memWf (m : List Host.Cell) : Bool := memWfFrom 0 m

/-- A byte of physical memory. -/
def State.byte (s : State) (pa : Nat) : Byte := mapGet (memReset pa) s.mem pa

/-- Sets a byte of physical memory. -/
def State.setByte (s : State) (pa : Nat) (b : Byte) : State := { s with mem := mapPut (memReset pa) s.mem pa b }

/-- Bytes of physical memory. -/
def State.bytes (s : State) (pa n : Nat) : List Byte := (List.range n).map fun i => s.byte (pa + i)

/-- What the fabric block, the snapshot engine and the mailbox read at a physical address: the bytes of memory, and free values where there is
none (log 72). -/
def State.physBytes (s : State) (pa n : Nat) : List Byte :=
  (List.range n).map fun i => if s.isDevice (pa + i) || isHost (pa + i) then s.byte (pa + i) else Config.unbacked s.free (pa + i)

/-- The same as a little-endian value (R3). -/
def State.physRead (s : State) (pa n : Nat) : Nat := leNat (s.physBytes pa n)

/-- A read of a range that is not all memory uses up a free value (log 72). -/
def State.physDone (s : State) (pa n : Nat) : State := if s.backedMem pa n then s else { s with free := s.free + 1 }

/-- A little-endian value in physical memory (R3). -/
def State.read (s : State) (pa n : Nat) : Nat := leNat (s.bytes pa n)

/-- Sets bytes of physical memory one after another. -/
def State.setBytes (s : State) (pa : Nat) : List Byte → State
  | [] => s
  | b :: bs => (s.setByte pa b).setBytes (pa + 1) bs

/-- Stores a little-endian value (R3). -/
def State.store (s : State) (pa n v : Nat) : State := s.setBytes pa (natLe n v)

/-! ### Page owners and the firewall (R408, R409) -/

/-- Index of a page's owner entry (R408). -/
def ownerIndex (pa : Nat) : Nat :=
  match bondedDie pa with
  | some d => 2 ^ 25 + d * 2 ^ 20 + fld pa 35 16
  | none => fld pa 40 16

/-- Where the owner entry of a page stands. -/
def ownerPa (pa : Nat) : Nat := ownerBase + 16 * ownerIndex pa

/-- The owner entry of a page of device memory. -/
def State.owner (s : State) (pa : Nat) : Owner :=
  let e := ownerPa pa
  { world := (s.byte e).toNat, state := (s.byte (e + 1)).toNat % 4, shared := bit (s.byte (e + 1)).toNat 2, version := s.read (e + 8) 8 }

/-- The 16 bytes of an entry (R408). -/
def Owner.bytes (o : Owner) : List Byte :=
  natLe 8 (o.world % 256 + 256 * (o.state % 4) + 1024 * b2n o.shared) ++ natLe 8 o.version

def State.setOwner (s : State) (pa : Nat) (o : Owner) : State := s.setBytes (ownerPa pa) o.bytes

/-- Who makes an access (R409). -/
inductive Who where
  | trust
  | world (n : Nat)
  | host (iface : Option Nat)
deriving DecidableEq, Repr

/-- Registers of the DOE mailbox, which only the trust core reaches (R442). -/
def isDoe (pa : Nat) : Bool := decide (0x30000130000 ≤ pa ∧ pa < 0x30000130028)

/-- The firewall (R409), which refuses every access to an EVICTED page (R413). MMIO pages belong to world 0
and are open to the host through its physical function (R408, R415); host memory has no owner entry. -/
def State.admits (s : State) (who : Who) (pa : Nat) : Bool :=
  match who with
  | .trust => true
  | .world n =>
    if isMmio pa then n == 0 && !isDoe pa
    else if !s.isDevice pa then true
    else
      let o := s.owner pa
      (o.state == 0 && o.world == n) || (o.state != 1 && o.shared && n == 1)
  | .host i =>
    if isMmio pa then i.isNone && !isDoe pa
    else if !s.isDevice pa then true
    else
      let o := s.owner pa
      match i with
      | none => o.state != 1 && (o.world == 1 || o.shared)
      | some f => o.state != 1 && (s.world o.world).state != 0 && (s.world o.world).iface == f && decide (2 ≤ o.world)

/-- Who a wave is. -/
def State.waveWho (s : State) (w : Wave) : Who := if isTrustCore w.core then .trust else .world (s.waveWorld w)

end Sys2Proof.Machine
end

