-- ==== Sys2Proof/Machine/Network.lean ====
section
/-! DEFINITION. The networks of the fitting engine (R359, R361, R364 to R366): evaluation, error, training step and initial weights.
Every operation is f32 under round to nearest even. -/

namespace Sys2Proof.Machine

def f32Add (a b : Nat) : Nat := (fpAdd fpF32 0 0 a b).1
def f32Sub (a b : Nat) : Nat := (fpSub fpF32 0 0 a b).1
def f32Mul (a b : Nat) : Nat := (fpMul fpF32 0 0 a b).1
def f32Div (a b : Nat) : Nat := (fpDiv fpF32 0 0 a b).1
def f32Fma (a b c : Nat) : Nat := (fpFma fpF32 0 0 a b c).1
def f32Max (a b : Nat) : Nat := (fpMinMax fpF32 true a b).1
def f32Min (a b : Nat) : Nat := (fpMinMax fpF32 false a b).1
def f32Abs (a : Nat) : Nat := a % 2 ^ 31
def f32Neg (a : Nat) : Nat := if a < 2 ^ 31 then a + 2 ^ 31 else a - 2 ^ 31
def f32Less (a b : Nat) : Bool := (fpCompare fpF32 2 a b).1
def f32Nan (a : Nat) : Bool := (fpDecode fpF32 a).isNan
def f32Finite (a : Nat) : Bool := !f32Nan a && !(fpDecode fpF32 a).isInf
/-- A small integer as f32. -/
def f32Nat (n : Nat) : Nat := (roundVal fpF32 0 0 false (.fin false n 0 false)).1
/-- 2^−20 and 2^−6. -/
def f32Tiny : Nat := 0x35800000
def f32Sixth : Nat := 0x3C800000

/-- The sizes of the layers (R359): (in, out) of each. -/
def netShape (nin nout h1 h2 : Nat) : List (Nat × Nat) :=
  if h1 = 0 then [(nin, nout)] else if h2 = 0 then [(nin, h1), (h1, nout)] else [(nin, h1), (h1, h2), (h2, nout)]

/-- Values of a network. -/
def netSize (l : List (Nat × Nat)) : Nat := (l.map fun x => x.1 * x.2 + x.2).sum

/-- A layer: the weights of each unit, and the biases. -/
structure Layer where
  rows : List (List Nat)
  bias : List Nat
deriving DecidableEq, Repr

/-- The layers of a flat list of values, each layer's weights before its biases (R359). -/
def netLayers : List (Nat × Nat) → List Nat → List Layer
  | [], _ => []
  | (ni, no) :: l, v =>
    { rows := (List.range no).map fun j => (v.drop (j * ni)).take ni, bias := (v.drop (ni * no)).take no } ::
      netLayers l (v.drop (ni * no + no))

/-- The flat list of layers. -/
def netFlat (l : List Layer) : List Nat := l.flatMap fun x => x.rows.flatten ++ x.bias

/-- Pre-activations of a layer. -/
def layerSums (x : Layer) (a : List Nat) : List Nat :=
  (x.rows.zip x.bias).map fun r => (r.1.zip a).foldl (fun h wt => f32Fma wt.1 wt.2 h) r.2

/-- The activation of a hidden unit: a NaN gives the canonical NaN, a value not above 0 gives +0. -/
def relu (h : Nat) : Nat := if f32Nan h then fpF32.nan else if f32Less 0 h then h else 0

/-- A forward pass (R361): for each layer its inputs and pre-activations; then the outputs. -/
def forward : List Layer → List Nat → List (List Nat × List Nat) × List Nat
  | [], a => ([], a)
  | [x], a => let h := layerSums x a
    ([(a, h)], h)
  | x :: l, a =>
    let h := layerSums x a
    let r := forward l (h.map relu)
    ((a, h) :: r.1, r.2)

/-- The outputs of a network. -/
def netOut (shape : List (Nat × Nat)) (v : List Nat) (x : List Nat) : List Nat := (forward (netLayers shape v) x).2

/-- The error of a sample (R364); a NaN counts as +∞. -/
def sampleError (yh y : List Nat) : Nat :=
  let terms := (yh.zip y).map fun p => f32Div (f32Abs (f32Sub p.1 p.2)) (f32Max (f32Abs p.2) f32Tiny)
  let e := match terms with
    | [] => 0
    | t :: ts => if ts.isEmpty then t else f32Div (ts.foldl f32Add t) (f32Nat y.length)
  if f32Nan e then 0x7F800000 else e

/-- The running average E (R364). -/
def averageError (old e : Nat) : Nat := f32Fma (f32Sub e old) f32Sixth old

/-- r(o) of R365 from the extremes. -/
def spread (hi lo : Option Nat) : Nat :=
  match hi, lo with
  | some h, some l => f32Max (f32Sub h l) f32Tiny
  | _, _ => f32Tiny

/-- Gradients of the layers below a layer's error d, from the last layer up: the layers with their inputs and pre-activations in
reverse order. -/
def backward : List (Layer × Layer × List Nat × List Nat) → List Nat → List Layer
  | [], _ => []
  | (g, w, a, _) :: l, d =>
    let g' : Layer := { rows := (g.rows.zip d).map fun r => (r.1.zip a).map fun x => f32Fma r.2 x.2 x.1,
                        bias := (g.bias.zip d).map fun x => f32Add x.1 x.2 }
    let below := match l with
      | [] => []
      | (_, _, _, h) :: _ => (List.range h.length).map fun t =>
        if f32Less 0 (nth 0 h t) then (w.rows.zip d).foldl (fun acc r => f32Fma (nth 0 r.1 t) r.2 acc) 0 else 0
    g' :: backward l below

/-- Adds the gradients of one sample. -/
def addGradient (r : List Nat) (ws : List Layer) (g : List Layer) (s : List Nat × List Nat) : List Layer :=
  let (steps, yh) := forward ws s.1
  let n := f32Nat s.2.length
  let d := (yh.zip (s.2.zip r)).map fun x =>
    f32Div (f32Mul (f32Nat 2) (f32Sub x.1 x.2.1)) (f32Mul (f32Mul n x.2.2) x.2.2)
  (backward ((g.zip (ws.zip steps)).map fun x => (x.1, x.2.1, x.2.2.1, x.2.2.2)).reverse d).reverse

/-- One SGD step (R365) on a batch; none when it leaves a value that is not finite. -/
def sgdStep (shape : List (Nat × Nat)) (v : List Nat) (r : List Nat) (lrate : Nat) (batch : List (List Nat × List Nat)) : Option (List Nat) :=
  let ws := netLayers shape v
  let zero := netLayers shape (List.replicate (netSize shape) 0)
  let g := netFlat (batch.foldl (addGradient r ws) zero)
  let q := f32Neg (f32Div lrate (f32Nat 32))
  let new := (v.zip g).map fun x => f32Fma q x.2 x.1
  if new.all f32Finite then some new else none

/-- α of a layer (R366): √(6 / (in + out)) rounded once. -/
def initScale (n : Nat) : Nat := (roundFin fpF32 0 0 false false (isqrt 130 (6 * 2 ^ 200 / n) 0) (-100) true).1

/-- Draws `n` weights of scale α: the generator's state after them, and the weights. -/
def drawWeights (a : FpVal) : Nat → DWord → DWord × List Nat
  | 0, x => (x, [])
  | n + 1, x =>
    let x := genStep x
    let u : Int := 2 * ((x.extractLsb' 40 24).toNat : Int) - 2 ^ 24
    let (v, _) := mulVal (.fin (decide (u < 0)) u.natAbs (-24) false) a
    let r := drawWeights a n x
    (r.1, (roundVal fpF32 0 0 false v).1 :: r.2)

/-- Initial weights of an unseeded region (R366), layer by layer. -/
def initLayers : List (Nat × Nat) → DWord → List Nat
  | [], _ => []
  | (ni, no) :: l, x =>
    let (x, ws) := drawWeights (fpDecode fpF32 (initScale (ni + no))) (ni * no) x
    ws ++ List.replicate no 0 ++ initLayers l x

/-- The generator of a region (R366). -/
def initSeed (id : Nat) : DWord :=
  let x := BitVec.ofNat 64 id ^^^ 0x9E3779B97F4A7C15#64
  if x = 0 then 1 else x

end Sys2Proof.Machine
end

