-- ==== Sys2Proof/Machine/Training.lean ====
section
/-! DEFINITION. States of approximable regions, their training steps, and who holds a training slot (R359, R363 to R366). -/

namespace Sys2Proof.Machine

/-- States of a region (R363). -/
def rgOff : Nat := 0
def rgObserve : Nat := 1
def rgTrain : Nat := 2
def rgArmed : Nat := 3
def rgFallback : Nat := 4
def rgDisabled : Nat := 5

def Region.shape (r : Region) : List (Nat × Nat) := netShape r.nin r.nout r.h1 r.h2
def Region.vals (r : Region) : List Nat := r.weights.map (·.toNat)
def toWords (l : List Nat) : List Word := l.map (BitVec.ofNat 32)
def toNats (l : List Word) : List Nat := l.map (·.toNat)

/-- One SGD step on a batch: a value that is not finite disables the region (R363). -/
def Region.train (r : Region) (batch : List (List Word × List Word)) : Region :=
  let spreads := (r.hi.zip r.lo).map fun x => spread (x.1.map (·.toNat)) (x.2.map (·.toNat))
  match sgdStep r.shape r.vals spreads r.lrate.toNat (batch.map fun x => (toNats x.1, toNats x.2)) with
  | some v => { r with weights := toWords v }
  | none => { r with st := rgDisabled, weights := [], slot := false, batch := [] }

/-- Trains on every full batch that waits; `fuel` bounds their number. -/
def Region.trainAll : Nat → Region → Region
  | 0, r => r
  | n + 1, r =>
    if r.slot ∧ 32 ≤ r.batch.length then Region.trainAll n ({ r with batch := r.batch.drop 32 }.train (r.batch.take 32)) else r

/-- Free slots go to the regions that wait for them, in order of entry (R366); each trains on its queued batches. -/
def assignSlots : Nat → List Region → List Region
  | 0, l => l
  | n + 1, l =>
    if 8 ≤ l.countP (·.slot) then l
    else
      let wait := l.filter fun r => !r.slot && (r.st == rgTrain || r.st == rgFallback)
      match wait.foldl (fun (b : Option Region) r => match b with
          | none => some r
          | some x => if r.queued < x.queued then some r else some x) none with
      | none => l
      | some r => assignSlots n (updFirst (fun x => x.key == r.key) (fun x => Region.trainAll 128 { x with slot := true }) l)

end Sys2Proof.Machine
end

