-- ==== Sys2Proof/Machine/Home.lean ====
section
/-! DEFINITION. What a write performed at its home slice brings about (R72, R80, R87, R95, R147, R284, R321, R367):
memory, poison, broken watches, invalidated regions, and the waits and triggers that the slice checks again. -/

namespace Sys2Proof.Machine

/-- An approximable region after an invalidation (R363, R367): it must read its table entry again. -/
def Region.invalidated (r : Region) : Region :=
  { r with st := if r.flags % 2 = 1 then 1 else 0, n := 0, e := 0, eset := false, c := 0, f := 0, gen := r.gen + 1,
           hi := List.replicate r.nout none, lo := List.replicate r.nout none, weights := [], ring := [], seen := 0,
           batch := [], slot := false, replay := 0, stale := true }

/-- Invalidates the regions of one die that satisfy `p`; FEINV counts each (R367, R372), and training slots that came free are
given out (R366). -/
def Fitting.invalidate (f : Fitting) (p : Region → Bool) : Fitting :=
  { f with regions := assignSlots 8 (f.regions.map (fun r => if p r then r.invalidated else r)),
           inv := (f.inv + f.regions.countP p) % 2 ^ 32,
           drop := (f.drop + f.samples.countP (fun x => f.regions.any fun r => p r && r.key == x.key)) % 2 ^ 32,
           samples := f.samples.filter (fun x => !f.regions.any fun r => p r && r.key == x.key) }

/-- Invalidates regions on some dies and drops their weights from the surrogate units there (R367). -/
def State.invalidateRegionsOn (s : State) (on : Nat → Bool) (p : Region → Bool) : State :=
  let hit := s.dies.any fun x => on x.1 && x.2.fit.regions.any p
  if !hit then s else
  let keys := s.dies.flatMap fun x => if on x.1 then (x.2.fit.regions.filter p).map (·.key) else []
  { s with dies := s.dies.map (fun x => if on x.1 then (x.1, { x.2 with fit := x.2.fit.invalidate p }) else x),
           cores := (s.cores.map fun x => if on (dieOf x.1) then
             (x.1, { x.2 with surrogate := x.2.surrogate.filter fun k => !keys.contains k.1 }) else x).filter fun x => x.2 != Core.reset }

/-- Invalidates regions on every die. -/
def State.invalidateRegions (s : State) (p : Region → Bool) : State := s.invalidateRegionsOn (fun _ => true) p

/-- Do two byte ranges meet? -/
def overlaps (a n b m : Nat) : Bool := decide (a < b + m ∧ b < a + n)

/-- Breaks the commit-group watches of other agents on the lines a write touches (R87). -/
def State.breakWatches (s : State) (pa n : Nat) (writer : Option Nat) : State :=
  { s with waves := s.waves.map fun x =>
      if writer == some x.1 then x else
      match x.2.group with
      | none => x
      | some g => (x.1, { x.2 with group := some { g with
          reads := g.reads.map fun r => if overlaps pa n (r.1 * 64) 64 then (r.1, true) else r } }) }

/-- The sectors that a write of `n` bytes covers whole (R80). -/
def wholeSectors (pa n : Nat) : List Nat :=
  (List.range (n / 16 + 1)).filterMap fun i =>
    let k := (pa + 15) / 16 + i
    if k * 16 + 16 ≤ pa + n then some k else none

/-- A line of an instruction cache that a byte range meets. -/
def CodeLine.meets (x : CodeLine) (pa n : Nat) : Bool := overlaps pa n (x.line * 64) 64

/-- A write to code invalidates its line in every instruction cache (R16). -/
def State.dropCode (s : State) (pa n : Nat) : State :=
  if !s.cores.any (fun c => c.2.code.any fun x => x.meets pa n) then s else
  s.mapCores fun c => { c with code := c.code.filter fun x => !x.meets pa n }

/-- What a change of `n` bytes brings about besides the bytes: code lines, watches and regions on them (R16, R87, R367). -/
def State.touched (s : State) (pa n : Nat) (writer : Option Nat) : State :=
  ((s.dropCode pa n).breakWatches pa n writer).invalidateRegions fun r => r.watch.any fun d => overlaps pa n d.1 d.2

/-- A write performed at its home slice, before the waits on it are checked again. -/
def State.poke (s : State) (pa : Nat) (bs : List Byte) (writer : Option Nat) : State :=
  let n := bs.length
  if n = 0 then s else
  let s := s.setBytes pa bs
  { s with poison := s.poison.filter fun k => !(wholeSectors pa n).contains k }.touched pa n writer

/-- R95: from the write that brings the armed timeline to n until the freeze, an access that would see it waits. -/
def State.timelineHeld (s : State) (pa n : Nat) : Bool :=
  s.snap.state == 1 && overlaps pa n (s.snap.tl.toNat / 8 * 8) 8 &&
    decide (s.snap.val.toNat ≤ s.read (s.snap.tl.toNat / 8 * 8) 8)

/-- Does a range meet a line that the commit group of another wave has locked (R88)? -/
def State.lineLocked (s : State) (pa n : Nat) (who : Option Nat) : Bool :=
  s.waves.any fun x => who != some x.1 && x.2.group.any fun g =>
    g.locked && ((g.reads.map (·.1)) ++ g.writes).any fun l => overlaps pa n (l * 64) 64

/-- R88, R95, R97: a write to a page that the snapshot engine holds or has marked waits, and so does one to a locked line. -/
def State.writeHeld (s : State) (pa n : Nat) (who : Option Nat := none) : Bool :=
  (s.snap.marks.any fun m => overlaps pa n (m.1 * 65536) 65536) || s.lineLocked pa n who

/-- A read waits for the freeze if it would see the armed timeline at n (R95), and while another group has locked the line (R88). -/
def State.readHeld (s : State) (pa n : Nat) (who : Option Nat) : Bool := s.timelineHeld pa n || s.lineLocked pa n who

/-- Does an 8-byte word lie in a poisoned sector (R80)? -/
def State.poisonedWord (s : State) (pa : Nat) : Bool := s.poison.contains (pa / 16)

/-- The condition of a scoreboard wait (R284). -/
def sbHolds (m mask : Nat) (any : Bool) : Bool := if any then m &&& mask != 0 else m &&& mask == mask

/-- The lowest set bit of a number below 2^64. -/
def lowestBit (x : Nat) : Nat := ((List.range 64).find? fun j => bit x j).getD 64

/-- What the slice does for one waiting wave when a word changes: a satisfied wait ends; an SBTAKE clears its bit in the
same atomic and keeps the bit's number (R147, R284). A read that meets poison, or a page that the firewall no longer lets the wave reach,
sends the wave back to its instruction, which then traps (R80, R409); a take on a page that a snapshot holds waits for it (R97). -/
def State.recheckWave (s : State) (u : Nat) : State :=
  match s.wave u with
  | none => s
  | some w =>
    let again := s.setWave u { w with wait := .yielded, prog := { w.prog with stage := 0 } }
    match w.wait with
    | .memTimeline pa v =>
      if !s.admits (s.waveWho w) pa then again
      else if s.timelineHeld pa 8 || s.lineLocked pa 8 (some u) || decide (s.read pa 8 < v) then s
      else s.setWave u { w with wait := .yielded, prog := { w.prog with stage := if s.poisonedWord pa then 0 else 2 } }
    | .scoreboard pa mask any =>
      let m := s.read pa 8
      if !s.admits (s.waveWho w) pa then again
      else if s.timelineHeld pa 8 || s.lineLocked pa 8 (some u) || !sbHolds m mask any then s
      else if s.poisonedWord pa then again
      else if w.prog.stage = 1 then
        if s.writeHeld pa 8 (some u) then s else
        let j := lowestBit (m &&& mask)
        let s := s.poke pa (natLe 8 (m - 2 ^ j)) (some u)
        s.updWave u fun w => { w with wait := .yielded, prog := { w.prog with stage := 2, x := j } }
      else s.setWave u { w with wait := .yielded, prog := { w.prog with stage := 2 } }
    | _ => s

/-- What the slice does for one armed trigger when its word changes: the read that finds the condition fires it and,
with CONSUME, clears the mask bits in the same atomic (R321), once no snapshot holds their page (R97). Where the firewall no longer lets its world reach
the word (R409), it stays armed (a choice, log 87). -/
def State.recheckTrigger (s : State) (d : Nat) (t : Trigger) : State :=
  let m := s.read t.sbPa 8
  if !t.fired && !t.done && s.admits (.world t.world) t.sbPa && (m &&& t.mask == t.mask) && (!t.timed || decide (t.nbt ≤ s.ptp)) && !s.timelineHeld t.sbPa 8 &&
      !(t.consume && s.writeHeld t.sbPa 8) && !s.lineLocked t.sbPa 8 none then
    let s := if t.consume then s.poke t.sbPa (natLe 8 (m - (m &&& t.mask))) none else s
    s.updDie d fun x => { x with triggers := x.triggers.map fun y =>
      if y.entry == t.entry then { y with fired := true, time := s.ptp, fireNo := s.ids } else y }
  else s

/-- The waits and triggers on the words a write touched are checked again. -/
def State.recheck (s : State) (pa n : Nat) : State :=
  let us := (s.waves.filter fun x => match x.2.wait with
    | .memTimeline a _ => overlaps pa n a 8
    | .scoreboard a _ _ => overlaps pa n a 8
    | _ => false).map (·.1)
  let s := us.foldl State.recheckWave s
  let ts := s.dies.flatMap fun d => (d.2.triggers.filter fun t => overlaps pa n t.sbPa 8).map fun t => (d.1, t)
  ts.foldl (fun s x => s.recheckTrigger x.1 x.2) s

/-- Clears COW in the leaf entries that mark a page, and the mark (R94, R97, R98). -/
def State.unmark (s : State) (page : Nat) : State :=
  let leaves := (mapFind s.snap.marks page).getD []
  let s := leaves.foldl (fun s a => if bit (s.read a 8) 6 then s.poke a (natLe 8 (s.read a 8 - 2 ^ 6)) none else s) s
  { s with snap := { s.snap with marks := mapErase s.snap.marks page } }

/-- The free pool page of lowest number (R97). -/
def Snap.freePage (x : Snap) : Option Nat :=
  let n := x.pool.toNat % 2 ^ 32
  ((List.range (min n (x.copies.length + 1))).find? fun i => !x.copies.any fun c => c.2 == i)

/-- Physical address of a pool page (R92). -/
def Snap.poolPa (x : Snap) (i : Nat) : Nat := x.pool.toNat / 2 ^ 32 % 2 ^ 20 * 2 ^ 32 + i * 65536

/-- Copies a marked page, whose bytes are `bs`, into pool page `i` and clears the mark (R97); poisoned sectors stay poisoned in the copy. -/
def State.copyInto (s : State) (page i : Nat) (bs : List Byte) : State :=
  let base := s.snap.poolPa i
  let moved := (s.poison.filter fun k => k / 4096 == page).map fun k => base / 16 + k % 4096
  let s := s.poke base bs none
  State.unmark { s with
    poison := moved.foldl (fun l k => insNat k l) (s.poison.filter fun k => k / 4096 != base / 65536),
    snap := { s.snap with copies := mapInsert s.snap.copies page i } } page

/-- Copies a marked page into a free pool page (R97). None: the page is not marked, a part of it has been sent already, or the pool is
full. -/
def State.copyMarked (s : State) (page : Nat) : Option State :=
  if (mapFind s.snap.marks page).isNone ∨ s.snap.sending.contains page then none
  else s.snap.freePage.map fun i => s.copyInto page i (s.bytes (page * 65536) 65536)

/-- The pages of a range that are marked are copied before a write to it (R31, R97). None: a page cannot be copied now, since the
freeze still holds the writes to it (R95), it is being drained, or the pool is full (R97). -/
def State.copyFirst (s : State) (pa n : Nat) : Option State :=
  if s.snap.marks.isEmpty then some s else
  ((s.snap.marks.filter fun m => overlaps pa n (m.1 * 65536) 65536).map (·.1)).foldl
    (fun o p => o.bind fun s => if s.snap.state = 2 then none else s.copyMarked p) (some s)

/-- Zeros in a 64 KiB page, which waits as a write does for a locked line or for a page that a snapshot cannot copy yet (R88, R97). Its
full/empty bits stay (log 75). No page of the page-owner table is written so (log 83). -/
def State.zeroPage (s : State) (page : Nat) : State :=
  let pa := page * 65536
  if inOwnerTable pa then s
  else if s.lineLocked pa 65536 none then { s with blocked := true }
  else match s.copyFirst pa 65536 with
    | none => { s with blocked := true }
    | some s =>
      { s with mem := s.mem.filter (fun c => c.1 / 65536 != page), poison := s.poison.filter fun k => k / 4096 != page }.touched
        pa 65536 none

/-- Firmware writes the owner entry of a page (R410). -/
def State.writeOwner (s : State) (pa : Nat) (o : Owner) : State := s.poke (ownerPa pa) o.bytes none

/-- The pages whose owner entries `n` bytes at `pa` meet: an entry's index is its page's number (R408). -/
def ownedBy (pa n : Nat) : List Nat :=
  if n = 0 || !overlaps pa n ownerBase ownerSize then [] else
  let first := (max pa ownerBase - ownerBase) / 16
  let last := (min (pa + n) (ownerBase + ownerSize) - 1 - ownerBase) / 16
  (List.range (last + 1 - first)).map (first + ·)

/-- From `s` to `t` an atomic, such as Tirano's compare-and-swap of an owner entry (R410), has written `n` bytes at `pa`: a page that has
changed world, or has become ZERO, reads zero before its next access (R408). -/
def State.reowned (s t : State) (pa n : Nat) : State :=
  let other := fun (p : Nat) =>
    let o := s.owner (p * 65536)
    let n := t.owner (p * 65536)
    n.world != o.world || (n.state == 2 && o.state != 2)
  ((ownedBy pa n).filter other).foldl State.zeroPage t

/-- Applies a write performed at its home slice by an agent (`writer` is its wave, if it is a wave's). Agents that can wait for a page
that a snapshot holds ask `writeHeld` first; before the others' writes the engine copies the page at once (log 31). Where it cannot,
or where a commit group has locked the line (R88), the write is held: nothing is written, `blocked` is set, and the step that makes
the write has to be made again. -/
def State.applyHome (s : State) (pa : Nat) (bs : List Byte) (writer : Option Nat) (after : State → State) : State :=
  if s.lineLocked pa bs.length writer then { s with blocked := true }
  else match s.copyFirst pa bs.length with
    | none => { s with blocked := true }
    | some s => after (s.poke pa bs writer)

/-- A write performed at its home slice: the waits and triggers on the bytes are checked again at once. -/
def State.writeHome (s : State) (pa : Nat) (bs : List Byte) (writer : Option Nat := none) : State :=
  s.applyHome pa bs writer fun s => s.recheck pa bs.length

/-- A write performed at its home slice as one of several that no other agent's write comes between (R82, R132): the waits on it are
checked again when the last has been made. -/
def State.writeQuiet (s : State) (pa : Nat) (bs : List Byte) (writer : Option Nat) : State := s.applyHome pa bs writer id

/-- Does a range meet a poisoned sector (R80)? -/
def State.poisoned (s : State) (pa n : Nat) : Bool :=
  decide (0 < n) && s.poison.any fun k => overlaps pa n (k * 16) 16

/-- Invalidates the L1 sectors of a core that a range meets (R51). -/
def State.dropL1 (s : State) (core pa n : Nat) : State :=
  if (s.core core).l1.isEmpty then s else
  s.updCore core fun c => { c with l1 := c.l1.filter fun x => !overlaps pa n (x.sector * 16) 16 }

end Sys2Proof.Machine
end

