-- ==== Sys2Proof/Machine/Translate.lean ====
section
/-! DEFINITION. Address translation (R23 to R44): the page-table walk, the translation caches, permission checks, fault
tokens and records, for waves and for the engines that act for them. -/

namespace Sys2Proof.Machine

/-- Is a virtual address canonical (R23)? -/
def canonical (va : Nat) : Bool := fld va 63 56 == 0 || fld va 63 56 == 255

/-- What a walk gives: a leaf, a queued or direct fault (kind of R37, level), or a refusal by the firewall (R409). -/
inductive WalkResult where
  | leaf (t : Tr)
  | fault (kind level : Nat)
  | firewall
deriving DecidableEq, Repr

/-- The fields of an address-space entry (R26). A table in unbacked memory reads as zeros, so V = 0 (a choice, log 75). -/
def asEntry (s : State) (die asid : Nat) : Nat := s.read ((s.die die).ts.asbase.toNat / 65536 % 2 ^ 36 * 65536 + 16 * asid) 16
def asValid (e : Nat) : Bool := bit e 0
def asReserved (e : Nat) : Bool := fld e 5 2 == 0 && fld e 63 52 == 0 && fld e 127 72 == 0
def asRoot (e : Nat) : Nat := fld e 51 6 * 64
def asWorld (e : Nat) : Nat := fld e 71 64
/-- TSASBASE.EN (R44). -/
def asEnabled (s : State) (die : Nat) : Bool := (s.die die).ts.asbase.getLsbD 0

/-- Index bits of a level (R27). -/
def walkIndex (va level : Nat) : Nat :=
  match level with
  | 0 => fld va 56 55
  | 1 => fld va 54 42
  | 2 => fld va 41 29
  | _ => fld va 28 16

/-- A defect of R28 in an entry at a level: MALFORMED. -/
def malformedEntry (e level : Nat) : Bool :=
  let leaf := bit e 1
  let pa := fld e 51 16 * 65536
  if !leaf then level == 3 || fld e 15 2 != 0 || fld e 63 52 != 0
  else decide (level ≤ 1) || bit e 8 || fld e 15 11 != 0 || fld e 63 52 != 0 ||
    (level == 2 && fld e 28 16 != 0) || (bit e 7 != isMmio pa)

/-- The leaf that an entry holds. -/
def leafOf (asid va level pa e : Nat) (adu : Bool) : Tr :=
  { asid := asid, page := if level = 2 then fld va 56 29 * 8192 else fld va 56 16, large := level == 2,
    base := fld e 51 16 * 65536, leafPa := pa, r := bit e 2, w := bit e 3, x := bit e 4, fut := bit e 5,
    cow := bit e 6, io := bit e 7, dirty := bit e 10, adu := adu }

/-- One level of a walk and those below it (R27 to R29); `fuel` is the number of levels left. Beside the result stands
the address of the entry at which the walk stopped. Two choices (log 75): a pointer into the MMIO region is no malformed entry, so the
next level is UNBACKED; and a large IO page is judged by its base alone. -/
def walkFrom (s : State) (who : Who) (asid va : Nat) (adu : Bool) : Nat → Nat → Nat → WalkResult × Nat
  | 0, level, table => (.fault 1 level, table)
  | fuel + 1, level, table =>
    let pa := table + 8 * walkIndex va level
    if !s.backedMem pa 8 then (.fault 2 level, pa)
    else if !s.admits who pa then (.firewall, pa)
    else
      let e := s.read pa 8
      let next := fld e 51 16 * 65536
      if !bit e 0 then (.fault 0 level, pa)
      else if malformedEntry e level then (.fault 1 level, pa)
      else if !s.backed next then (.fault 2 level, pa)
      else if bit e 1 then (.leaf (leafOf asid va level pa e adu), pa)
      else walkFrom s who asid va adu fuel (level + 1) next

/-- The part of an address that selects the table of a level (R27). -/
def tablePrefix (va level : Nat) : Nat := if level = 1 then fld va 56 55 else if level = 2 then fld va 56 42 else fld va 56 29

/-- Where a walk starts: at the lowest table that the walk cache names, else at the root (R32). -/
def walkStart (ts : Service) (asid va root : Nat) : Nat × Nat :=
  let hit := fun (level : Nat) => ts.pointers.find? fun p => p.1 == asid && p.2.1 == level && p.2.2.1 == tablePrefix va level
  match (hit 3).orElse fun _ => (hit 2).orElse fun _ => hit 1 with
  | some p => (p.2.1, p.2.2.2)
  | none => (0, root)

/-- The pointer entries that a walk passes (R32). -/
def pointersFrom (s : State) (asid va : Nat) : Nat → Nat → Nat → List (Nat × Nat × Nat × Nat)
  | 0, _, _ => []
  | fuel + 1, level, table =>
    let pa := table + 8 * walkIndex va level
    if !s.backedMem pa 8 then [] else
    let e := s.read pa 8
    let next := fld e 51 16 * 65536
    if !bit e 0 || malformedEntry e level || bit e 1 || !s.backed next then []
    else (asid, level + 1, tablePrefix va (level + 1), next) :: pointersFrom s asid va fuel (level + 1) next

/-- A walk for a dispatch of a world (R26 to R29). With TSASBASE.EN = 0 no entry is valid (log 11). -/
def walk (s : State) (die asid world va : Nat) : WalkResult × Nat :=
  let e := asEntry s die asid
  let base := (s.die die).ts.asbase.toNat / 65536 % 2 ^ 36 * 65536 + 16 * asid
  if !asEnabled s die || !asValid e then (.fault 0 0, base)
  else if !asReserved e || asWorld e != world then (.fault 1 0, base)
  else
    let (level, table) := walkStart (s.die die).ts asid va (asRoot e)
    walkFrom s (.world world) asid va (bit e 1) (4 - level) level table

/-- The walk cache after a walk that reached a leaf (R32). -/
def State.notePointers (s : State) (die asid va : Nat) : State :=
  let (level, table) := walkStart (s.die die).ts asid va (asRoot (asEntry s die asid))
  let new := pointersFrom s asid va (4 - level) level table
  if new.isEmpty then s else s.updTs die fun ts => { ts with pointers := (new ++ ts.pointers).take 2048 }

/-- Sets ACC, and DIRTY for a write, in a leaf entry (R30): a compare-and-swap at the entry's home slice. It is made in the step in
which the walk reads the entry, so that the entry is what the walk has read. -/
def touchLeaf (s : State) (t : Tr) (write : Bool) : State × Tr :=
  if !t.adu then (s, t) else
  let e := s.read t.leafPa 8
  let e1 := if bit e 9 then e else e + 2 ^ 9
  let e2 := if write && t.w && !bit e1 10 then e1 + 2 ^ 10 else e1
  let s := if e2 = e then s else s.writeHome t.leafPa (natLe 8 e2)
  (s, { t with dirty := bit e2 10 })

/-- Does a translation serve an address of an address space? -/
def Tr.covers (t : Tr) (asid va : Nat) : Bool :=
  t.asid == asid && (if t.large then t.page / 8192 == fld va 56 29 else t.page == fld va 56 16)

/-- The physical address that a translation gives (R27). -/
def Tr.pa (t : Tr) (va : Nat) : Nat := t.base + (if t.large then va % 2 ^ 29 else va % 2 ^ 16)

/-- Permission checks on a leaf (R29): the kind of fault, if any. Access codes are those of R37; `io` says that the
access is one that IO pages allow. -/
def permFault (t : Tr) (access : Nat) (io : Bool) : Option Nat :=
  if t.io && !io then some 8
  else if (access == 4 || access == 5) && (!t.fut || isHost t.base) then some 7
  else if (access == 0 || access == 2 || access == 4) && !t.r then some 4
  else if (access == 1 || access == 2 || access == 5) && !t.w then some 5
  else if access == 3 && !t.x then some 6
  else none

/-- Does an access write? -/
def isWrite (access : Nat) : Bool := access == 1 || access == 2 || access == 5

/-- A write through a leaf without DIRTY redoes the walk from the leaf (R30). -/
def Tr.needsDirty (t : Tr) (access : Nat) : Bool := isWrite access && t.w && t.adu && !t.dirty

/-- Adds a translation to a cache of `n` entries, the oldest leaving first (R32; the order is not architectural). -/
def cacheAdd (n : Nat) (t : Tr) (l : List Tr) : List Tr :=
  (t :: l.filter fun x => !(x.asid == t.asid && x.page == t.page && x.large == t.large)).take n

/-- TLB entries of a core (R19, R32). -/
def tlbSize (core : Nat) : Nat := if isTrustCore core then 64 else 256

/-- An engine's translation (R22): canonical form, service entry or walk, permission, then the firewall (R24, R37). Each outcome
carries what the walk has changed: a walk that reaches a leaf sets ACC whatever follows (R30). -/
inductive Xlate where
  | ok (pa : Nat) (t : Tr) (s : State)
  | fault (kind level : Nat) (s : State)
  | firewall (s : State)

/-- The state after a translation, whatever it gave. -/
def Xlate.after : Xlate → State
  | .ok _ _ s => s
  | .fault _ _ s => s
  | .firewall s => s

/-- Translates for an engine or front end of a die that acts in a world and address space. -/
def engineXlate (s : State) (die asid world : Nat) (who : Who) (va access : Nat) : Xlate :=
  if !canonical va then .fault 3 0 s else
  let finish := fun (s : State) (t : Tr) =>
    match permFault t access false with
    | some k => Xlate.fault k (if t.large then 2 else 3) s
    | none => if s.admits who (t.pa va) then .ok (t.pa va) t s else .firewall s
  match ((s.die die).ts.entries.find? fun t => t.covers asid va && !t.needsDirty access) with
  | some t => finish s t
  | none =>
    match (walk s die asid world va).1 with
    | .leaf t =>
      let s := s.notePointers die asid va
      let (s, t) := touchLeaf s t (isWrite access && (permFault t access false).isNone)
      finish (s.updTs die fun ts => { ts with entries := cacheAdd 32768 t ts.entries }) t
    | .fault k l => .fault k l s
    | .firewall => .firewall s

/-- Reads `n` bytes for an engine, page by page; poison is reported as the given error. `fuel` bounds the pages. -/
inductive EngineRead where
  | ok (bs : List Byte) (s : State)
  | fault (va kind level : Nat) (s : State)
  | firewall (va : Nat) (s : State)
  | poison (va : Nat) (s : State)

/-- The state after an engine's read, whatever it gave. -/
def EngineRead.after : EngineRead → State
  | .ok _ s => s
  | .fault _ _ _ s => s
  | .firewall _ s => s
  | .poison _ s => s

/-- Reads a range of virtual memory for an engine. -/
def engineRead (die asid world : Nat) (who : Who) (access : Nat) : Nat → State → Nat → Nat → EngineRead
  | 0, s, _, _ => .ok [] s
  | fuel + 1, s, va, n =>
    if n = 0 then .ok [] s else
    let m := min n (65536 - va % 65536)
    match engineXlate s die asid world who va access with
    | .fault k l s => .fault va k l s
    | .firewall s => .firewall va s
    | .ok pa _ s =>
      if s.poisoned pa m then .poison va s
      else
        match engineRead die asid world who access fuel s ((va + m) % 2 ^ 64) (n - m) with
        | .ok bs s' => .ok (s.bytes pa m ++ bs) s'
        | r => r

/-! ### Translation for waves (R25) -/

/-- What a wave's translation of one address gives: an address with its leaf, a miss, a fault of R37, the firewall. -/
inductive WaveXlate where
  | ok (pa : Nat) (t : Tr)
  | miss
  | fault (kind level : Nat)
  | firewall
deriving DecidableEq, Repr

/-- Translates an address for a wave from what its instruction has obtained, then from its core's TLB (R24, R25, R32). -/
def waveXlate (s : State) (w : Wave) (va access : Nat) (io : Bool) : WaveXlate :=
  let asid := s.waveAsid w
  if !canonical va then .fault 3 0 else
  match w.xfail.find? fun f => fld f.va 56 16 == fld va 56 16 && f.access == access with
  | some f => if f.kind = 100 then .firewall else .fault f.kind f.level
  | none =>
    match (w.xl ++ (s.core w.core).tlb).find? fun t => t.covers asid va && !t.needsDirty access with
    | none => .miss
    | some t =>
      match permFault t access io with
      | some k => .fault k (if t.large then 2 else 3)
      | none => if s.admits (s.waveWho w) (t.pa va) then .ok (t.pa va) t else .firewall

/-- Asks the die's service for the translation of an address (R33): joins a walk of the same page, takes one of 256
walkers, waits in the miss queue of 4,096, or is refused and re-issued after 64 clocks. -/
def requestWalk (s : State) (u : Nat) (w : Wave) (access : Nat) (va : Nat) : State :=
  let d := dieOf w.core
  let asid := s.waveAsid w
  let page := fld va 56 16
  let req : Nat × Nat × DWord := (u, access, BitVec.ofNat 64 va)
  let ts := (s.die d).ts
  let joins := fun (x : Walk) => x.asid == asid && x.page == page
  if ts.walks.any joins then
    s.updTs d fun ts => { ts with walks := updFirst joins (fun x => { x with reqs := if x.reqs.contains req then x.reqs else x.reqs ++ [req] }) ts.walks }
  else if ts.missq.any joins then
    s.updTs d fun ts => { ts with missq := updFirst joins (fun x => { x with reqs := if x.reqs.contains req then x.reqs else x.reqs ++ [req] }) ts.missq }
  else
    let (id, s) := s.fresh
    let x : Walk := { id := id, asid := asid, page := page, world := s.waveWorld w, reqs := [req] }
    if ts.walks.length < 256 then s.updTs d fun ts => { ts with walks := ts.walks ++ [x] }
    else if ts.missq.length < 4096 then s.updTs d fun ts => { ts with missq := ts.missq ++ [x] }
    else s.updTs d fun ts => { ts with refused := ts.refused ++ [(s.clock + 64, x)] }

/-! ### Fault tokens and records (R38 to R41) -/

/-- Records that a queue of SIZE holds (R44, R329, R398). -/
def queueRecords (base : DWord) : Nat := 2 ^ (min (base.toNat % 16) 10 + 6)

/-- The queue has no free record: as many as it holds have not been read (R39). -/
def queueFull (base : DWord) (count : Nat) : Bool := decide (queueRecords base ≤ count)

/-- The records that software has not read once it has written TAIL: those from TAIL up to HEAD; none where the two are equal (log 12). -/
def queueUnread (base : DWord) (head tail : Nat) : Nat :=
  (head + queueRecords base - tail % queueRecords base) % queueRecords base

/-- Physical address of a record. -/
def queueAddr (base : DWord) (i : Nat) : Nat := fld base.toNat 51 12 * 4096 + 32 * (i % queueRecords base)

/-- HEAD and PHASE after a record has been written: PHASE inverts on each wrap (R38). -/
def queueAdvance (base : DWord) (head : Nat) (phase : Bool) : Nat × Bool :=
  if (head + 1) % queueRecords base = 0 then (0, !phase) else (head % queueRecords base + 1, phase)

/-- What a fault record says of an agent (R38): world, die, core, slot, source, PC and dispatch. -/
structure AgentInfo where
  world : Nat
  die : Nat
  core : Nat
  slot : Nat
  source : Nat
  asid : Nat
  pc : DWord
  disp : Nat
deriving DecidableEq, Repr

/-- The chain of a channel that an agent names. -/
def State.chain (s : State) (die ch : Nat) (drain : Bool) : Option Chain :=
  let c := mapGet Channel.reset (s.die die).channels ch
  if drain then c.drain else c.host

/-- The facts of an agent for its fault record. A host chain's channel acts for no world and records 0 (a choice, log 75). -/
def agentInfo (s : State) (asid : Nat) (a : Agent) : AgentInfo :=
  match a with
  | .wave u fetch =>
    match s.wave u with
    | some w => { world := s.waveWorld w, die := dieOf w.core, core := coreIdOf w.core, slot := w.slot,
                  source := b2n fetch, asid := s.waveAsid w, pc := w.pc, disp := s.waveDisp w }
    | none => { world := 0, die := 0, core := 0, slot := 0, source := b2n fetch, asid := asid, pc := 0, disp := 0 }
  | .copy c =>
    match s.sched.copies.find? fun x => x.id == c with
    | some x => { world := x.world, die := x.die, core := 0, slot := 0, source := 2, asid := x.asid, pc := x.recVa, disp := x.disp }
    | none => { world := 0, die := 0, core := 0, slot := 0, source := 2, asid := asid, pc := 0, disp := 0 }
  | .channel d ch drain =>
    { world := 0, die := d, core := 0, slot := 0, source := 3, asid := asid,
      pc := BitVec.ofNat 64 (((s.chain d ch drain).map (·.cur)).getD 0), disp := 0 }
  | .staging c =>
    match s.sched.staging.find? fun x => x.id == c with
    | some x =>
      let t := s.task x.task
      { world := (t.map (·.world)).getD 0, die := x.die, core := 0, slot := 0, source := 5, asid := asid,
        pc := (t.map (·.slotVa)).getD 0, disp := (t.map (·.disp)).getD 0 }
    | none => { world := 0, die := 0, core := 0, slot := 0, source := 5, asid := asid, pc := 0, disp := 0 }

/-- A fault record (R38). -/
def faultRecord (f : TrFault) (i : AgentInfo) (token : Nat) (phase : Bool) : Nat :=
  f.va % 2 ^ 64 + 2 ^ 64 * (f.kind % 256) + 2 ^ 72 * (f.access % 16) + 2 ^ 76 * (f.level % 4) +
  2 ^ 80 * (i.world % 256) + 2 ^ 88 * (i.die % 4) + 2 ^ 96 * (i.core % 256) + 2 ^ 104 * (i.slot % 32) +
  2 ^ 109 * (i.source % 8) + 2 ^ 112 * (i.asid % 4096) + 2 ^ 128 * i.pc.toNat + 2 ^ 192 * (i.disp % 2 ^ 32) +
  2 ^ 224 * (token % 2 ^ 16) + 2 ^ 255 * b2n phase

/-- The lowest number not in a list. -/
def freshNumber (used : List Nat) : Nat := ((List.range (used.length + 1)).find? fun n => !used.contains n).getD 0

/-- What becomes of an agent that is parked on a token, or waits for one. -/
def parkAgent (s : State) (die : Nat) (token : Option Nat) (a : Agent) : State :=
  match a with
  | .wave u _ => s.updWave u fun w => { w with
      wait := match token with
        | some t => .fault die t
        | none => .faultQueue die,
      waitSince := s.clock }
  | .copy c => { s with sched := { s.sched with
      copies := s.sched.copies.map fun x => if x.id == c then { x with parked := true } else x } }
  | .channel d ch drain => s.updDie d fun x =>
      let c := mapGet Channel.reset x.channels ch
      let park := fun (o : Option Chain) => o.map fun k => { k with parked := true }
      let c := if drain then { c with drain := park c.drain } else { c with host := park c.host }
      { x with channels := mapPut Channel.reset x.channels ch c }
  | .staging c => { s with sched := { s.sched with
      staging := s.sched.staging.map fun x => if x.id == c then { x with parked := true } else x } }

/-- Can a new token and record be had now (R39)? -/
def recordRoom (ts : Service) : Bool :=
  decide (ts.tokens.length < 1024) && !queueFull ts.fltbase ts.fltcount

/-- Writes a fault record at HEAD under a new token and parks the agent (R38, R39). At a TSFLTBASE in unbacked memory the record is
written all the same (a choice, log 75). -/
def writeFaultRecord (s : State) (die : Nat) (f : TrFault) (asid : Nat) (a : Agent) : State :=
  let ts := (s.die die).ts
  let num := freshNumber (ts.tokens.map (·.num))
  let rec_ := faultRecord f (agentInfo s asid a) num ts.fltphase
  let s := s.writeHome (queueAddr ts.fltbase ts.flthead) (natLe 32 rec_)
  let (head, phase) := queueAdvance ts.fltbase ts.flthead ts.fltphase
  let s := s.updTs die fun ts => { ts with
    flthead := head, fltphase := phase, fltcount := ts.fltcount + 1,
    tokens := ts.tokens ++ [{ num := num, asid := asid, page := fld f.va 56 16, access := f.access, fault := f, agents := [a] }] }
  parkAgent s die (some num) a

/-- Queues a fault (R39): on an unresolved token of the same key, under a new record, or behind others for room. -/
def queueFault (s : State) (die : Nat) (f : TrFault) (asid : Nat) (a : Agent) : State :=
  let ts := (s.die die).ts
  match ts.tokens.find? fun t => t.asid == asid && t.page == fld f.va 56 16 && t.access == f.access with
  | some t =>
    let s := s.updTs die fun ts => { ts with
      tokens := updFirst (fun x => x.num == t.num) (fun x => { x with agents := x.agents ++ [a] }) ts.tokens }
    parkAgent s die (some t.num) a
  | none =>
    if recordRoom ts && ts.waiting.isEmpty then writeFaultRecord s die f asid a
    else
      let s := s.updTs die fun ts => { ts with waiting := ts.waiting ++ [(f, asid, a)] }
      parkAgent s die none a

end Sys2Proof.Machine
end

