-- ==== Sys2Proof/Machine/Ops.lean ====
section
/-! DEFINITION. The shared operations over waves and cohorts: draining stores, ending a wave, releasing storage, ending
and cancelling a task, entering a trap and leaving it, and completing an instruction. -/

namespace Sys2Proof.Machine

/-! ### Store buffers (R51 to R53) -/

/-- Maximal runs of consecutive bytes of a sorted byte map. -/
def byteRuns : List (Nat × Byte) → List (Nat × List Byte)
  | [] => []
  | (o, b) :: m =>
    match byteRuns m with
    | (o', bs) :: rs => if o' = o + 1 then (o, b :: bs) :: rs else (o, [b]) :: (o', bs) :: rs
    | [] => [(o, [b])]

/-- Is a late result a read of memory (class R of R138)? -/
def Late.reads (l : Late) : Bool :=
  match l.kind with
  | .global | .scratch | .future => true
  | .value | .answer | .remote _ => false

/-- A store buffer holds an older record of an entry's wave and sector. -/
def State.olderRecord (s : State) (e : SbEntry) : Bool :=
  s.cores.any fun k => k.2.sb.any fun x => x.wave == e.wave && x.sector == e.sector && decide (x.id < e.id)

/-- May an entry drain: every earlier read of its wave has returned its value (R135), no older record of the sector is left, and neither
a snapshot nor a commit group holds the line. -/
def State.canDrain (s : State) (e : SbEntry) : Bool :=
  !s.olderRecord e && (match s.wave e.wave with
   | some w => w.late.all fun l => !l.reads || decide (e.afterSeq < l.seq)
   | none => true) && !s.writeHeld (e.sector * 16) 16 (some e.wave)

/-- Performs an entry's bytes at its home slice. The firewall drops a write whose world no longer owns the page (R409). -/
def State.performEntry (s : State) (core : Nat) (e : SbEntry) : State :=
  let s := s.updCore core fun c => { c with sb := c.sb.filter fun x => x.id != e.id }
  let who := if isTrustCore core then Who.trust else .world e.world
  if !s.admits who (e.sector * 16) then s
  else (byteRuns e.bytes).foldl (fun s r => s.writeHome (e.sector * 16 + r.1) r.2 (some e.wave)) s

/-- Drains every entry of a wave that may drain. -/
def State.drainWave (s : State) (core u : Nat) : State :=
  ((s.core core).sb.filter fun e => e.wave == u).foldl
    (fun s e => if s.canDrain e then s.performEntry core e else s) s

/-- The wave has no store-buffer entry. -/
def State.drained (s : State) (core u : Nat) : Bool := (s.core core).sb.all fun e => e.wave != u

/-! ### Barriers (R172, R173) -/

/-- Completes the phases of a cohort's barriers whose arrivals and ended waves reach the wave count. -/
def State.barrierCheck (s : State) (cid : Nat) : State :=
  match s.cohort cid with
  | none => s
  | some c =>
    let full := fun (b : Barrier) =>
      !b.arrived.isEmpty && decide (c.nwaves ≤ b.arrived.length + (c.ended.filter fun u => !b.arrived.contains u).length)
    let hit := (c.barriers.filter fun x => full x.2).map (·.1)
    if hit.isEmpty then s else
    let s := s.setCohort cid { c with
      barriers := c.barriers.map fun x => if full x.2 then (x.1, { phase := x.2.phase + 1, arrived := [] }) else x }
    { s with waves := s.waves.map fun x =>
        match x.2.wait with
        | .barrier b _ => if x.2.cohort == cid && hit.contains b then (x.1, { x.2 with wait := .yielded }) else x
        | _ => x }

/-! ### Storage (R71) -/

/-- Adds an item of storage to be cleared on a core. -/
def State.addClearing (s : State) (core : Nat) (x : Clearing) : State :=
  let (id, s) := s.fresh
  s.updCore core fun c => { c with clearing := c.clearing ++ [{ x with id := id }] }

/-- No storage. -/
def Clearing.nothing : Clearing :=
  { id := 0, regBytes := 0, waveSlots := [], segBlocks := [], obUnits := 0, obBase := 0, accRows := 0, accBase := 0, planes := 0,
    ready := 0, task := 0 }

/-- The clock from which a store of a core is free to clear the next item: each store clears its items one after another, at its own
rate (R71). -/
def Core.clearFrom (c : Core) (clock : Nat) (same : Clearing → Bool) : Nat := ((c.clearing.filter same).map (·.ready)).foldl max clock

/-- Takes a wave off its core: its slot and registers are cleared (R165, R71), the clause holder released. -/
def State.removeWave (s : State) (u : Nat) : State :=
  match s.wave u with
  | none => s
  | some w =>
    let bytes := w.nv * w.width * 4
    let from_ := (s.core w.core).clearFrom s.clock fun x => x.regBytes != 0
    let s := s.addClearing w.core { Clearing.nothing with
      regBytes := bytes, waveSlots := [w.slot], ready := from_ + max 1 ((bytes + 511) / 512),
      task := ((s.cohort w.cohort).map (·.task)).getD 0 }
    let s := s.updCore w.core fun c => { c with holder := if c.holder == some u then none else c.holder }
    { s with waves := mapErase s.waves u, cur := if s.cur == some u then none else s.cur }

/-- A wave has ended and its stores have drained: it counts as arrived at every barrier and leaves its core (R165). -/
def State.waveGone (s : State) (u : Nat) : State :=
  match s.wave u with
  | none => s
  | some w =>
    let s := s.updCohort w.cohort fun c => { c with ended := c.ended ++ [u] }
    (s.removeWave u).barrierCheck w.cohort

/-- A wave whose LIVE has emptied ends (R165): pending results are discarded, and it goes once its stores drained. -/
def State.endWave (s : State) (u : Nat) : State :=
  match s.wave u with
  | none => s
  | some w =>
    let s := s.setWave u { w with wait := .draining, late := [], epend := [], group := none, region := none }
    let s := s.updCore w.core fun c => { c with holder := if c.holder == some u then none else c.holder }
    if s.drained w.core u then s.waveGone u else s

/-- An entry drains, if it may; a wave that has ended goes with its last entry (R51, R165). -/
def State.drainEntry (s : State) (core : Nat) (e : SbEntry) : State :=
  if !s.canDrain e then s
  else
    let s := s.performEntry core e
    match s.wave e.wave with
    | some w => if w.wait = .draining && s.drained core e.wave then s.waveGone e.wave else s
    | none => s

/-- A line becomes FULL (R59): it is no longer failed (R42). -/
def Cohort.fillLine (c : Cohort) (l : Nat) : Cohort := { c with empty := c.empty.filter (· != l), failed := mapErase c.failed l }

/-- The cores on which a cohort holds storage. -/
def Cohort.cores (c : Cohort) : List Nat := if c.paired then [c.core, c.core + 1] else [c.core]

/-- The blocks of a segment that a cohort holds. -/
def Segment.blocksOf (g : Segment) (cid : Nat) : List Nat := (g.blocks.filter fun b => b.2 == cid).map (·.1)

/-- The items that a cohort's storage on one core becomes, one for each store and each segment, since these clear in parallel (R71). Its
reservation records are free at once. -/
def State.clearingOf (s : State) (cid : Nat) (c : Cohort) (core : Nat) : List Clearing :=
  let k := s.core core
  let free := k.clearFrom s.clock
  let item := { Clearing.nothing with task := c.task }
  let segs := (k.segs.filter fun x => !(x.2.blocksOf cid).isEmpty).map fun x =>
    { item with segBlocks := (x.2.blocksOf cid).map fun b => (x.1, b),
                ready := free (fun y => y.segBlocks.any fun p => p.1 == x.1) + 64 * (x.2.blocksOf cid).length }
  let ob := { item with obUnits := c.obBytes / 256, obBase := nth 0 c.obBase (core - c.core),
                        ready := free (fun y => y.obUnits != 0) + c.obBytes / 1024 }
  let acc := { item with accRows := c.accRows, accBase := nth 0 c.accBase (core - c.core),
                         ready := free (fun y => y.accRows != 0) + c.accRows }
  let planes := { item with planes := c.planes, ready := free (fun y => y.planes != 0) + 32 * c.planes }
  segs ++ ([ob, acc, planes].filter fun x => x.obUnits != 0 || x.accRows != 0 || x.planes != 0)

/-- Gives a cohort's storage back on one core (R71): blocks stay taken by the clearing item until it completes. -/
def State.releaseOn (s : State) (cid : Nat) (c : Cohort) (core : Nat) : State :=
  let items := ((s.clearingOf cid c core).zipIdx).map fun x => { x.1 with id := s.ids + 1 + x.2 }
  let holder := fun (g : Nat) => 2 ^ 40 + ((items.find? fun x => x.segBlocks.any fun b => b.1 == g).map (·.id)).getD 0
  let k := s.core core
  let segs := k.segs.map fun x => if (x.2.blocksOf cid).isEmpty then x else
    (x.1, { x.2 with blocks := x.2.blocks.map fun b => if b.2 == cid then (b.1, holder x.1) else b, clearing := true, next := none })
  { s.setCore core { k with segs := segs, clearing := k.clearing ++ items } with ids := s.ids + items.length }

/-- Removes a cohort with its waves and gives its storage back. -/
def State.releaseCohort (s : State) (cid : Nat) : State :=
  match s.cohort cid with
  | none => s
  | some c =>
    let s := c.waves.foldl (fun s u => s.removeWave u) s
    let s := c.cores.foldl (fun s k => s.releaseOn cid c k) s
    { s with cohorts := mapErase s.cohorts cid }

/-! ### Ends of tasks (R340, R342, R349) -/

/-- The front end's die for a queue (R334, R402). -/
def queueDie (q : Nat) : Nat := if q = 256 then 0 else q % 4

/-- Who a task acts as: the trust queue's tasks act as the trust core. -/
def Task.who (t : Task) : Who := if t.queue = 256 then .trust else .world t.world

/-- Ring size of a queue in slots (R334, R401). -/
def Queue.slotCount (q : Queue) (num : Nat) : Nat :=
  2 ^ ((if num = 256 then fld q.cfg.toNat 5 2 else fld q.cfg.toNat 4 1) + 4)

/-- VA of a queue's control block (R335), sign-extended (R23). -/
def Queue.ringVa (q : Queue) : Nat := wrapTo 64 (signedOf 57 (fld q.ring.toNat 56 7 * 128))

/-- The agent of a front end for a queue. -/
def queueWho (q world : Nat) : Who := if q = 256 then .trust else .world world

/-- A front end's write of an 8-byte word, computed from its old value (R336, R340); true where it cannot be made: a fault, the
firewall or poison. -/
def State.putWord (s : State) (q asid world va : Nat) (f : Nat → Nat) : State × Bool :=
  match engineXlate s (queueDie q) asid world (queueWho q world) (va % 2 ^ 64) 1 with
  | .ok pa _ s => if s.poisoned pa 8 then (s, true) else (s.writeHome pa (natLe 8 (f (s.read pa 8))), false)
  | r => (r.after, true)

/-- Two slots of one ring. -/
def QueueSlot.beside (a b : QueueSlot) : Bool := a.ring == b.ring && a.asid == b.asid && a.world == b.world

/-- The lowest slot of a ring, if its task has ended: of the first ring in which that is so. -/
def firstEnded (l : List QueueSlot) : Option QueueSlot := l.find? fun a => decide (l.find? a.beside = some a) && a.ended

/-- Writes RETIRED past every leading slot of a ring whose task has ended (R334, R336), ring by ring. A write that fails is made again at the
next completion of a task of the queue, and the queue is not read until its next bell. -/
def State.retireSlots (q : Nat) : Nat → State → State
  | 0, s => s
  | fuel + 1, s =>
    match firstEnded (s.queue q).slots with
    | none => s
    | some a =>
      let gone := ((s.queue q).slots.filter a.beside).takeWhile (·.ended)
      let r := s.putWord q a.asid a.world (a.ring + 96) fun _ => (gone.getLast?.map (·.n)).getD 0 + 1
      if r.2 then r.1.updQueue q fun x => { x with ringf := true, bell := false }
      else State.retireSlots q fuel (r.1.updQueue q fun x => { x with slots := x.slots.filter fun y => !gone.contains y })

/-- Signals a trigger's end at its CPL, if it has one: the status word, then 1 added to the timeline (R322, R323). -/
def State.signalTrigger (s : State) (die : Nat) (t : Trigger) (status : Nat) : State :=
  if t.cpl = 0 then s else
  let word := status + 2 ^ 32 * (t.time % 2 ^ 32)
  match engineXlate s die t.asid t.world (.world t.world) ((t.cpl.toNat + 8) % 2 ^ 64) 1 with
  | .ok pa _ s =>
    let s := s.writeHome pa (natLe 8 word)
    match engineXlate s die t.asid t.world (.world t.world) t.cpl.toNat 1 with
    | .ok pa _ s => s.writeHome pa (natLe 8 (s.read pa 8 + 1))
    | r => r.after
  | r => r.after

/-- Cancels every armed trigger that satisfies `p` (R323). -/
def State.cancelTriggers (s : State) (p : Trigger → Bool) : State :=
  let hit := s.dies.flatMap fun d => (d.2.triggers.filter fun t => p t && !t.fired).map fun t => (d.1, t)
  hit.foldl (fun s x =>
    let s := s.signalTrigger x.1 x.2 (b2n x.2.late * 2 + 8)
    s.updDie x.1 fun d => { d with triggers := d.triggers.filter fun t => t.entry != x.2.entry }) s

/-- Protection of a task's staged lines ends and its charge is returned (R76, R343). -/
def State.endProtection (s : State) (t : Task) : State :=
  let s := t.charge.foldl (fun s c => s.updDie c.1 fun d => { d with promised := d.promised - c.2 }) s
  let s := { s with dies := (s.dies.map fun (d : Nat × Die) => (d.1, { d.2 with l2 := { d.2.l2 with
    prot := d.2.l2.prot.filter fun x => x.2 != t.id } })).filter fun (d : Nat × Die) => d.2 != Die.reset }
  s.updTask t.id fun t => { t with charge := [] }

/-- A task ends (R340): the status word, the completion signal, the queue's status, RETIRED, and the entry is freed. A CPLTL that is
not aligned, which makes the task MALFORMED, takes no signal (log 34). -/
def State.finishTask (s : State) (id status : Nat) : State :=
  match s.task id with
  | none => s
  | some t =>
    let s := s.endProtection t
    let tl := fld t.desc 511 448
    let sig : State × Bool :=
      if tl = 0 ∨ tl % 16 ≠ 0 then (s, false) else
      let a := s.putWord t.queue t.asid t.world (tl + 8) fun _ => status
      let b := a.1.putWord t.queue t.asid t.world tl fun old => old + fld t.desc 575 512
      (b.1, a.2 || b.2)
    let s := sig.1
    let last := if sig.2 then 3 else status
    let s := s.updQueue t.queue fun q => { q with
      last := last, err := q.err || last != 0,
      slots := q.slots.map fun x => if x.task == id then { x with ended := true } else x }
    let s := { s with sched := { s.sched with tasks := s.sched.tasks.filter fun x => x.id != id } }
    let s := if status = 0 then s else s.cancelTriggers fun x => x.task == id
    State.retireSlots t.queue (s.queue t.queue).slots.length s

/-- Is a command of the copy engines one that reads or writes the scratchpad of its cohort (R273, R314)? -/
def CopyCmd.usesScratch (c : CopyCmd) : Bool :=
  (c.kind == 0 || c.kind == 3) && (bit (leNat c.rec_) 131 || bit (leNat c.rec_) 132)

/-- The wave leaves the core's clause: another may issue (R167). -/
def State.releaseHolder (s : State) (u core : Nat) : State :=
  if (s.core core).holder == some u then s.updCore core fun c => { c with holder := none } else s

/-- Aborts a resident cohort (R349): its waves stop at once. Its stores drain and its engine and remote operations run to completion
before COHORT_RETIRE gives its storage back. -/
def State.abortCohort (s : State) (cid : Nat) : State :=
  match s.cohort cid with
  | none => s
  | some c => c.waves.foldl (fun s u =>
      match s.wave u with
      | some w => (s.setWave u { w with late := [], entering := [], wait := .halted, group := none, region := none, pend := none, lateTrap := none }).releaseHolder u w.core
      | none => s) s

/-- Frees the save-pool pages of an image. -/
def State.freeImage (s : State) (x : Saved) : State :=
  s.updDie x.die fun d => { d with poolUsed := d.poolUsed.filter fun p => p.2 != x.id }

/-- A cancelled task whose cohorts are gone and whose storage is clear signals with its status (R340, R349). -/
def State.settleCancel (s : State) (id : Nat) : State :=
  match s.task id with
  | none => s
  | some t =>
    if t.stage ≠ .cancelled ∨ (s.cohorts.any fun c => c.2.task == id) ∨ (s.cores.any fun c => c.2.clearing.any fun x => x.task == id) then s
    else s.finishTask id t.status

/-- Sizes of a descriptor's grid of cohorts (R337) and their number. -/
def descDims (d : Nat) : Nat × Nat × Nat := (fld d 147 128 + 1, fld d 167 148 + 1, fld d 187 168 + 1)
def descTotal (d : Nat) : Nat := (descDims d).1 * (descDims d).2.1 * (descDims d).2.2

/-- A cohort that is not aborted has come to its end (R165, R340): its waves have ended and drained, and no copy command uses its scratchpad
any more. It retires in this clock (log 61). -/
def State.retiresNow (s : State) (cid : Nat) (k : Cohort) : Bool :=
  decide (k.nwaves ≤ k.ended.length) && !s.sched.copies.any fun c => c.cohort == cid && c.usesScratch

/-- The last cohort of a task retires in this clock, so that a cancel is too late (R340). -/
def State.tooLate (s : State) (t : Task) : Bool :=
  t.stage == .running && t.saved.isEmpty && decide (descTotal t.desc = t.retired + 1) &&
  (match s.cohorts.filter fun c => c.2.task == t.id with
   | [c] => s.retiresNow c.1 c.2
   | _ => false)

/-- A cancel (R349): unless it comes too late (R340), staging stops, cohorts are aborted, saved ones are discarded, the protection of staged lines ends; the status and
the signal follow when the last cohort is gone. -/
def State.cancelTask (s : State) (id status : Nat) : State :=
  match s.task id with
  | none => s
  | some t =>
    if t.stage = .cancelled ∨ s.tooLate t then s
    else
      let s := { s with sched := { s.sched with staging := s.sched.staging.filter fun x => x.task != id } }
      let s := (s.cohorts.filter fun c => c.2.task == id).foldl (fun s c => s.abortCohort c.1) s
      let s := (t.saved.foldl (fun s x => s.freeImage x) s).endProtection t
      (s.updTask id fun t => { t with stage := .cancelled, status := status, saved := [], saving := false }).settleCancel id

/-- Terminates every task of a dispatch (R40, R389). -/
def State.killDispatch (s : State) (disp : Nat) : State :=
  ((s.sched.tasks.filter fun t => t.disp == disp).map (·.id)).foldl (fun s t => s.cancelTask t 5) s

/-! ### Traps (R376 to R384) -/

/-- Trap codes (R376). -/
def trapIllegalInstruction : Nat := 1
def trapIllegalClause : Nat := 2
def trapIllegalRegister : Nat := 3
def trapIllegalOperand : Nat := 4
def trapPrivileged : Nat := 5
def trapLookahead : Nat := 6
def trapEngineHazard : Nat := 7
def trapConvergence : Nat := 8
def trapMisaligned : Nat := 9
def trapTranslation : Nat := 10
def trapProtection : Nat := 11
def trapFirewall : Nat := 12
def trapReservation : Nat := 13
def trapScratchRange : Nat := 14
def trapPattern : Nat := 15
def trapWindow : Nat := 16
def trapRemote : Nat := 17
def trapPoison : Nat := 18
def trapPipeline : Nat := 19
def trapSoftware : Nat := 21
def trapBreakpoint : Nat := 22
def trapStep : Nat := 23

/-- The trap of a fault kind (R37). -/
def kindTrap (kind : Nat) : Nat :=
  if kind ≤ 3 then trapTranslation else if kind = 100 then trapFirewall else if kind = 101 then trapPoison else trapProtection

/-- The kind of R37 that TINFO1 holds: none for what the model marks as a firewall refusal (100) or poison (101). -/
def kindCode (kind : Nat) : Nat := if kind < 16 then kind else 0

/-- Dooms an open commit group with a cause unless an earlier one stands (R90). -/
def Wave.doom (w : Wave) (cause : Nat) : Wave :=
  { w with group := w.group.map fun g => if g.doom = 0 then { g with doom := cause, bytes := [], locked := false } else g }

/-- A wait gives the core up, except the wait for a store-buffer entry, which holds it (R267). -/
def State.yieldCore (s : State) (u core : Nat) (wt : Wait) : State :=
  if wt = .storeBuffer then s.updCore core fun c => { c with holder := some u } else s.releaseHolder u core

/-- A clause state between clauses. -/
def Clause.boundary : Clause := { inside := false, header := 0, word := 0, left := 0 }

/-- No progress. -/
def Progress.none : Progress := { stage := 0, x := 0, y := 0, data := [] }

/-- The EXEC words of a wave as a map. -/
def Wave.execWords (w : Wave) : List (Nat × Word) :=
  (List.range w.k).foldl (fun m j => mapPut 0 m j (w.execWord j)) []

/-- Sets the restart point and clears the retry count (R386): a group or region open now was begun before it (R388). -/
def Wave.setRestart (w : Wave) (pc : DWord) (c : Clause) : Wave :=
  { w with restart := pc, restartClause := { c with words := [] }, restartSeq := w.lateSeq, retry := 0, again := false,
           group := w.group.map (fun g => { g with since := 0 }), region := w.region.map (fun r => { r with since := 0 }) }

/-- Trap entry (R378, R380, R386): saves TPC, TCAUSE, TINFO0, TINFO1 and EXEC, and continues at TBA at handler level. With
no handler, or at handler level, the wave halts and its task is cancelled with status 4. The words that were read for the rest of the clause
are dropped, and ERET fetches them again (log 86). -/
def State.enterTrap (s : State) (u : Nat) (w : Wave) (p : PendTrap) : State :=
  if w.tr.handler || w.tr.tba == 0 then
    let s := s.setWave u { w with wait := .halted, pend := none }
    match (s.cohort w.cohort).map (·.task) with
    | some t => s.cancelTask t 4
    | none => s.removeWave u
  else
    let cause := p.code + 2 ^ 8 * b2n p.after + 2 ^ 9 * b2n (p.after && p.code != trapStep && w.tr.dbgctl.getLsbD 0 && w.group.isNone) +
      2 ^ 10 * b2n p.queued
    let w := w.doom 4
    let t := { w.tr with
      handler := true, savedExec := w.execWords, tpc := p.tpc, tcause := BitVec.ofNat 64 cause, tinfo0 := p.info0,
      tinfo1 := p.info1, tpcEntry := p.tpc, clauseEntry := { w.clause with words := [] }, bpSkip := false, stepDue := false,
      debugStop := p.code == trapBreakpoint || p.code == trapStep, broke := p.code == trapBreakpoint }
    let w := { w with
      tr := t, pc := w.tr.tba, clause := Clause.boundary, wait := .ready, pend := none, prog := Progress.none,
      xl := [], xfail := [], lateTrap := none }
    (s.setWave u (w.setRestart w.tr.tba Clause.boundary)).releaseHolder u w.core

/-- Takes a trap: the wave first waits until its late results have landed (R378). -/
def State.takeTrap (s : State) (u : Nat) (p : PendTrap) : State :=
  match s.wave u with
  | none => s
  | some w =>
    if w.late.isEmpty then s.enterTrap u w p
    else (s.setWave u { w with wait := .trapDrain, pend := some p }).releaseHolder u w.core

/-- The trap that the reads of a load have raised (R80, R409) is taken at the load, with the load's clause (log 76). -/
def State.takeLateTrap (s : State) (u : Nat) (w : Wave) (t : LateTrap) : State :=
  (s.setWave u { w with lateTrap := none, clause := t.clause }).takeTrap u t.trap

/-- The 1-writes to DBGCTL that waited take effect at an ERET or resume (R383). -/
def Traps.applyDebug (t : Traps) : Traps := { t with dbgctl := t.dbgctl ||| t.dbgNext, dbgNext := 0 }

/-- Return from a trap (R327, R381): EXEC from the saved words under LIVE; the clause recorded at entry resumes when TPC is
what entry wrote, else issue begins at the header that TPC names. The breakpoint match is suppressed for the instruction that took
BREAKPOINT. -/
def Wave.eret (w : Wave) : Wave :=
  let t := w.tr
  let same := t.tpc == t.tpcEntry
  let c := if same then t.clauseEntry else Clause.boundary
  let w := { w with
    tr := { t.applyDebug with
      handler := false, bpSkip := same && t.broke, broke := false,
      stepDue := t.tcause.getLsbD 9, debugStop := false },
    pc := t.tpc, clause := c }.setRestart t.tpc c
  (List.range w.k).foldl (fun w j => w.setS (96 + j) (mapGet 0 t.savedExec j)) w

/-! ### Completing an instruction -/

/-- What the meaning of a wave's instruction comes to. -/
inductive Act where
  /-- it completes and the next word follows -/
  | done (s : State)
  /-- it completes and control goes to a clause header -/
  | jump (s : State) (target : DWord)
  /-- it completes, and the wave continues as the state says (ERET) -/
  | resumed (s : State)
  /-- the wave waits and takes the instruction again when the wait ends -/
  | wait (s : State) (w : Wait)
  /-- a precise trap: the instruction has no effect beyond `s` -/
  | trap (s : State) (code : Nat) (info0 info1 : DWord)
  /-- it completes and then traps with TPC at the next word (R243, R280) -/
  | trapAfter (s : State) (code : Nat) (info0 info1 : DWord)
  /-- the wave has ended, or its task was cancelled -/
  | gone (s : State)

/-- Bookkeeping of an issue: the tenant's issue clock, kept for the last 64 clocks, and the tenant that step 2 served (R352). -/
def State.noteIssue (s : State) (core tenant : Nat) : State :=
  s.updCore core fun c => { c with
    lastIssue := some s.clock, lastSpare := c.spare.getD c.lastSpare, spare := none, history := (s.clock, tenant) :: (c.history.filter fun h => decide (s.clock < h.1 + 64)) }

/-- The tenant of a wave's task (R337); the trust core has no slot table (R19). -/
def State.tenantOf (s : State) (w : Wave) : Nat :=
  (((s.cohort w.cohort).bind fun c => s.task c.task).map fun t => fld t.desc 283 280).getD 0

/-- The wave after an instruction of its clause has completed: lookahead windows shrink (R169), the clause counts
down, and progress and translations are forgotten. -/
def Wave.completed (w : Wave) (pc : DWord) (leaves closes : Bool) : Wave :=
  let c := if leaves || decide (w.clause.left ≤ 1) then { w.clause with inside := false, left := 0, words := [] }
    else { w.clause with left := w.clause.left - 1, words := w.clause.words.drop 1 }
  let w := { w with
    pc := pc, clause := c, late := w.late.map (fun l => { l with window := l.window - 1 }), prog := Progress.none,
    xl := [], xfail := [], tr := { w.tr with bpSkip := false } }
  if closes then w.setRestart pc c else w

/-- A NAP has stopped the wave (R242). -/
def Wave.napping (w : Wave) : Bool := match w.wait with
  | .nap _ => true
  | _ => false

/-- Completes an instruction of wave `u` that stood at `pc`: the clause is given up at its end or at a yield point, and
a stepped wave traps (R166, R387, R396), after a NAP when its clocks are over (R242). -/
def State.retire (s : State) (u : Nat) (pc next : DWord) (leaves closes stepped : Bool) : State :=
  match s.wave u with
  | none => s
  | some w =>
    let w := w.completed next leaves closes
    let s := (s.setWave u w).noteIssue w.core (s.tenantOf w)
    let s := s.updCore w.core fun c => { c with
      holder := if w.clause.inside && w.wait == .ready && !stepped then some u
        else if c.holder == some u then none else c.holder }
    if stepped && w.group.isNone && w.napping then s.setWave u { w with tr := { w.tr with stepDue := true } }
    else if stepped && w.group.isNone then s.takeTrap u { code := trapStep, tpc := next, info0 := pc, info1 := 0, after := true, queued := false }
    else s

/-- The outcome of an act of wave `u` at `pc`. `closes` says that the instruction closes the idempotent region. -/
def finishAct (u : Nat) (pc : DWord) (closes stepped : Bool) (a : Act) : Host.Outcome State Fault Refusal :=
  match a with
  | .done s => .next (s.retire u pc (pc + 8) false closes stepped)
  | .jump s t => .next (s.retire u pc t true closes stepped)
  | .resumed s => .next (match s.wave u with
    | some w => (s.noteIssue w.core (s.tenantOf w)).releaseHolder u w.core
    | none => s)
  | .wait s wt => .next (match s.wave u with
    | some w => (s.setWave u { w with wait := wt, waitSince := if w.wait == wt then w.waitSince else s.clock }).yieldCore u w.core wt
    | none => s)
  | .trap s c i0 i1 => .next (s.takeTrap u { code := c, tpc := pc, info0 := i0, info1 := i1, after := false, queued := false })
  | .trapAfter s c i0 i1 =>
    let s := s.retire u pc (pc + 8) false closes false
    .next (s.takeTrap u { code := c, tpc := pc + 8, info0 := i0, info1 := i1, after := true, queued := false })
  | .gone s => .next s

end Sys2Proof.Machine
end

