-- ==== Sys2Proof/Machine/Operands.lean ====
section
/-! DEFINITION. Operand forms: the weave's routes (R206), the registers that each instruction names (R169 to R171, R200,
R201), and the issue checks of R197 in their order. -/

namespace Sys2Proof.Machine

/-! ### The weave -/

/-- The lane that lane i reads under a route (R206); none where SHU supplies 0. -/
def routeLane (w : Wave) (mode : Nat) (p i : Nat) : Option Nat :=
  match mode with
  | 1 => some ((i + p) % w.width)
  | 2 => some p
  | 3 => some (i ^^^ p)
  | 4 => some ((w.v (p % 256) i).toNat % 1024 % w.width)
  | 5 => some (i / 2 ^ (p / 64) * 2 ^ (p / 64) + p % 64)
  | 6 => if p ≤ i then some (i - p) else none
  | _ => some i

/-- Route(src, mode, P, i) for a 32-bit or packed type (R206, R245). -/
def route32 (w : Wave) (src : BitVec 8) (mode : BitVec 3) (p : BitVec 10) (i : Nat) : Word :=
  if mode = 7 then w.src src else
  match routeLane w mode.toNat p.toNat i with
  | some j => w.v src.toNat j
  | none => 0

/-- Route(src, mode, P, i) for a 64-bit type: both halves of the chosen lane move together (R206). -/
def route64 (w : Wave) (src : BitVec 8) (mode : BitVec 3) (p : BitVec 10) (i : Nat) : DWord :=
  if mode = 7 then w.src64 src else
  match routeLane w mode.toNat p.toNat i with
  | some j => w.v64 src.toNat j
  | none => 0

/-- Route for an element of 1 or 2 registers, as a number. -/
def routeN (w : Wave) (wide : Bool) (src : BitVec 8) (mode : BitVec 3) (p : BitVec 10) (i : Nat) : Nat :=
  if wide then (route64 w src mode p i).toNat else (route32 w src mode p i).toNat

/-! ### The registers an instruction names -/

/-- How an instruction consumes a named register (R207, R247): not at all, in its active lanes, through a route, in
every lane of the swept passes (R257), in every lane, or as a scalar that the active lanes read (whole, or a word for each pass). -/
inductive Via where
  | none
  | active
  | route (mode p : Nat)
  | passes
  | all
  | lanes
  | group
deriving DecidableEq, Repr

/-- A block of registers that an instruction names: the field's lowest bit, the first register, how many, the alignment
its first register needs, and how it is read. -/
structure RegUse where
  vec : Bool
  lo : Nat
  reg : Nat
  n : Nat
  align : Nat
  via : Via
deriving DecidableEq, Repr

/-- A scalar source or destination field: codes from 128 upwards name no register. -/
def useS (lo : Nat) (c : BitVec 8) (n align : Nat) (read : Bool) : List RegUse :=
  if c.toNat < 128 then [{ vec := false, lo := lo, reg := c.toNat, n := n, align := align, via := if read then .active else .none }]
  else []

/-- A scalar source that lanes read (R247): it is consumed with an active lane only, or each word of a group with one of its own pass. -/
def laneRead (via : Via) (l : List RegUse) : List RegUse := l.map fun u => { u with via := via }

/-- A vector field. -/
def useV (lo : Nat) (c : BitVec 8) (n align : Nat) (via : Via) : List RegUse :=
  [{ vec := true, lo := lo, reg := c.toNat, n := n, align := align, via := via }]

/-- A routed source of V2 or V3: a vector register, or a scalar one under SCL. -/
def useR (lo : Nat) (c : BitVec 8) (mode : BitVec 3) (p : BitVec 10) (n : Nat) : List RegUse :=
  if mode = 7 then laneRead .lanes (useS lo c n n true) else useV lo c n n (.route mode.toNat p.toNat)

/-- The IX index register, if a source is routed by IX (R206). -/
def useIX (lo : Nat) (p : BitVec 10) (routes : List (BitVec 3)) : List RegUse :=
  if routes.contains 4 then
    [{ vec := true, lo := lo, reg := p.toNat % 256, n := 1, align := 1, via := .active }] else []

/-- Registers of an element of a V2 type (R201). -/
def regsOf (ty : BitVec 4) : Nat := if ty = 2 ∨ ty = 3 ∨ ty = 5 then 2 else 1

/-- Registers of a V2 instruction with destination `d`. -/
def usesV2 (f : V2F) (two : Bool) (n : Nat) (d : List RegUse) : List RegUse :=
  d ++ useR 40 f.a f.ra f.p n ++ (if two then useR 32 f.b f.rb f.p n else []) ++
  useIX 16 f.p (if two then [f.ra, f.rb] else [f.ra])

/-- Registers of a V3 instruction whose sources a, b take `n` and c takes `m` registers. -/
def usesV3 (f : V3F) (two : Bool) (n m dn : Nat) : List RegUse :=
  useV 48 f.d dn dn .none ++ useR 40 f.a f.ra f.p n ++ (if two then useR 32 f.b f.rb f.p n else []) ++
  useR 24 f.c f.rc f.p m ++ useIX 5 f.p [f.ra, f.rb, f.rc]

/-- Registers of a memory datum (R199). -/
def sizeRegs (size : BitVec 4) : Nat := if size = 3 then 2 else if size = 4 then 4 else 1

/-- Registers of an atomic's datum (R269). -/
def atomRegs (size fn : Nat) : Nat := if fn = 9 then (if size = 3 then 4 else 2) else if size = 3 then 2 else 1

/-- The base pair and offset register of a memory instruction of the lanes, and of a scalar one (R199). -/
def usesAddr (f : MF) : List RegUse :=
  laneRead .lanes (useS 40 f.base 2 2 true) ++ (if f.hasOff = 1 then useV 32 f.off 1 1 .active else [])
def usesBase (f : MF) : List RegUse :=
  useS 40 f.base 2 2 true ++ (if f.hasOff = 1 then useV 32 f.off 1 1 .active else [])

/-- A single scalar register destination or source. -/
def useS1 (lo : Nat) (c : BitVec 8) (read : Bool) : List RegUse := useS lo c 1 1 read
/-- An even scalar pair. -/
def useS2 (lo : Nat) (c : BitVec 8) (read : Bool) : List RegUse := useS lo c 2 2 read

/-- Width of a special register in registers (R211). -/
def specialRegs (idx : Nat) : Nat := if idx ≤ 8 ∨ idx = 11 ∨ idx = 17 then 1 else 2

/-- N of a row-and-count source (R292). -/
def rowCount (x : Word) : Nat := fld x.toNat 26 16

/-- Registers of the vector block of MSHOUT and MSHIN (R299). -/
def shiftBlock (w : Wave) (f : EF) : Nat :=
  (if ctlBits f 3 0 = 0 then 2 else 1) * ((rowCount (w.src f.a) + w.k - 1) / w.k)

/-- The registers of MSHOUT and MSHIN. -/
def usesShift (w : Wave) (f : EF) (via : Via) : List RegUse :=
  useS1 48 f.a true ++
  (if ctlBits f 9 8 = 0 then useV 24 f.d (shiftBlock w f) (if ctlBits f 3 0 = 0 then 2 else 1) via
   else useS1 40 f.b true ++ (if ctlBits f 9 8 = 2 then useS1 32 f.c true else []))

/-- The registers that an instruction names, in the order of its fields. -/
def Instr.uses (w : Wave) : Instr → List RegUse
  | .nop _ => []
  | .sadd f | .ssub f | .smul f | .smulh f | .sdiv f | .srem f | .sand f | .sor f | .sxor f | .sandn f
  | .sshl f | .sshr f | .ssha f | .smin f | .smax f | .sbfe f =>
      useS1 48 f.d false ++ useS1 40 f.a true ++ useS1 32 f.b true
  | .scmp f => let n := if f.ty.toNat < 2 then 1 else 2
      useS1 48 f.d false ++ useS 40 f.a n n true ++ useS 32 f.b n n true
  | .ssel f => useS1 48 f.d false ++ useS1 40 f.a true ++ useS1 32 f.b true ++ useS1 0 (f.imm.extractLsb' 0 8) true
  | .smov f => let n := if f.ty = 2 then 2 else 1
      useS 48 f.d n n false ++ useS 40 f.a n n true
  | .smovi f => let n := if f.fn = 0 then 1 else 2
      useS 48 f.d n n false
  | .sbfi f => useS1 48 f.d true ++ useS1 40 f.a true ++ useS1 32 f.b true
  | .slzc f | .spopc f | .sffs f => useS1 48 f.d false ++ useS1 40 f.a true
  | .sadd64 f | .ssub64 f => useS2 48 f.d false ++ useS2 40 f.a true ++ useS2 32 f.b true
  | .smad64 f => useS2 48 f.d true ++ useS1 40 f.a true ++ useS1 32 f.b true
  | .scvt f => useS 48 f.d (regsOf f.ty) (regsOf f.ty) false ++ useS 40 f.a (regsOf f.fn) (regsOf f.fn) true
  | .sfma f => let n := regsOf f.ty
      useS 48 f.d n n (f.fn == 0) ++ useS 40 f.a n n true ++ useS 32 f.b n n true
  | .sfcmp f => let n := regsOf f.ty
      useS1 48 f.d false ++ useS 40 f.a n n true ++ useS 32 f.b n n true
  | .gets f => let n := specialRegs (f.imm.toNat % 256)
      useS 48 f.d n n false
  | .mand f | .mor f | .mxor f | .mandn f =>
      useS 48 f.d w.k 1 false ++ useS 40 f.a w.k 1 true ++ useS 32 f.b w.k 1 true
  | .mnot f | .mmov f | .msave f => useS 48 f.d w.k 1 false ++ useS 40 f.a w.k 1 true
  | .mpopc f | .mffs f => useS1 48 f.d false ++ useS 40 f.a w.k 1 true
  | .melse f | .mjoin f => useS 40 f.a w.k 1 true
  | .mlive f => useS 48 f.d w.k 1 false
  | .bra _ | .exit _ | .bar _ | .bara _ | .barw _ | .yield _ => []
  | .brz f | .brnz f | .nap f | .trap f => useS1 48 f.a true
  | .bmz f | .bmnz f | .bmall f => useS 48 f.a w.k 1 true
  | .call f => useS2 48 f.a false
  | .ret f => useS2 48 f.a true
  | .jmpi f => useS2 48 f.a true ++ useS2 40 f.b false
  | .vadd f | .vsub f | .vmul f | .vmulh f | .vmin f | .vmax f | .vabsd f | .vand f | .vor f | .vxor f | .vshl f
  | .vshr f | .vsha f | .vfadd f | .vfsub f | .vfmul f | .vfmin f | .vfmax f | .vfdiv f =>
      usesV2 f true (regsOf f.ty) (useV 48 f.d (regsOf f.ty) (regsOf f.ty) .none)
  | .vplane f | .vunplane f => useV 48 f.d 1 1 .none ++ useV 40 f.a 1 1 .passes
  | .vpopc f | .vlzc f | .vmov f | .vscan f | .vfclass f | .vfsqrt f | .vfrcp f | .vfrsq f
  | .vfexp2 f | .vflog2 f | .vfsin f | .vfcos f | .vftanh f | .vunpk f =>
      usesV2 f false (regsOf f.ty) (useV 48 f.d (regsOf f.ty) (regsOf f.ty) .none)
  | .vcmp f | .vfcmp f => usesV2 f true (regsOf f.ty) (useS 48 f.d w.k 1 false)
  | .vmad f => let n := if f.ty = 2 then 2 else 1
      usesV3 f true n n n
  | .vlogic f | .vbfi f | .vfdot2 f => usesV3 f true 1 1 1
  | .vbfe f => usesV3 f false 1 1 1
  | .vfma f => let n := if f.ty = 1 then 2 else 1
      usesV3 f true n n n
  | .vsel f => useV 48 f.d 1 1 .none ++ useR 40 f.a f.ra f.p 1 ++ useR 32 f.b f.rb f.p 1 ++ laneRead .group (useS 24 f.c w.k 1 true) ++
      useIX 5 f.p [f.ra, f.rb]
  | .vmovi f => let n := if f.fn = 0 then 1 else 2
      useV 48 f.d n n .none
  | .vlane f => useV 48 f.d 1 1 .none
  | .vrand f => let n := if f.fn = 1 then 2 else 1
      useV 48 f.d n n .none
  | .vred f => usesV2 f false 1 (useS2 48 f.d false)
  | .vfred f => let n := regsOf f.ty
      usesV2 f false n (useS 48 f.d (2 * n) (2 * n) false)
  | .vcvt f => let n := if f.fn = 0 then 2 else 1
      let m := if f.ty = 0 then 2 else 1
      usesV2 f false n (useV 48 f.d m m .none)
  | .vpack f => usesV2 f true 1 (useV 48 f.d 1 1 (if f.fn = 0 then .none else .active))
  | .vld f => useV 48 f.data (sizeRegs f.size) (sizeRegs f.size) .none ++ usesAddr f
  | .vst f => useV 48 f.data (sizeRegs f.size) (sizeRegs f.size) .active ++ usesAddr f
  | .sld f => useS 48 f.data (sizeRegs f.size) (sizeRegs f.size) false ++ usesBase f
  | .sst f => useS 48 f.data (sizeRegs f.size) (sizeRegs f.size) true ++ usesBase f
  | .vatom f => let n := atomRegs f.size.toNat f.fn.toNat
      useV 48 f.data n n .active ++ usesAddr f
  | .satom f => let n := atomRegs f.size.toNat f.fn.toNat
      useS 48 f.data n n true ++ usesBase f
  | .fqpush f => useV 48 f.data 1 1 .all
  | .fqpop f => useV 48 f.data 1 1 .none
  | .cpref f | .cflush f | .freset f => usesAddr f
  | .fload f => useV 48 f.data (sizeRegs f.size) (sizeRegs f.size) .none ++ usesAddr f
  | .fstore f => useV 48 f.data (sizeRegs f.size) (sizeRegs f.size) .active ++ usesAddr f
  | .segcfg f => useS1 48 f.a true ++ useS 40 f.b 4 1 true
  | .tcopy f | .rxfer f => useS2 40 f.b true
  | .spmark f => useS1 48 f.a true ++ useS1 40 f.b true
  | .fence _ | .cgbegin _ | .cgabort _ | .eret _ | .apxend _ | .obrel _ | .mplane _ | .mswap _ => []
  | .batch f | .tlread f => useS2 24 f.d false
  | .waitt f => useS2 48 f.a true
  | .waittMemory f => useS2 48 f.a true ++ useS2 40 f.b true
  | .tlreadDeferred f => useS2 40 f.b true ++ useS2 24 f.d false
  | .cgcommit f => useS1 24 f.d false
  | .sbset f | .sbclr f | .sbwait f | .tasksig f => useS2 48 f.a true ++ useS2 40 f.b true
  | .sbtake f | .trgarm f => useS2 48 f.a true ++ useS2 40 f.b true ++ useS1 24 f.d false
  | .obres f => useS2 48 f.a true
  | .obwr f => useS1 48 f.a true ++ useV 24 f.d (ctlBits f 11 4 + 1) 1 .all
  | .obrd f => useS1 48 f.a true ++ useV 24 f.d (ctlBits f 11 4 + 1) 1 .none
  | .mlds f | .macz f => useS1 48 f.a true
  | .mma f => useS1 48 f.a true ++ useS1 40 f.b true
  | .mshout f => usesShift w f .none
  | .mshin f => usesShift w f .all
  | .rstore f => let n := if ctlBits f 2 0 = 4 then 4 else if ctlBits f 2 0 = 3 then 2 else 1
      useS 48 f.a 4 4 true ++ useS 40 f.b 4 4 true ++ useV 32 f.c n n .active
  | .rload f => let n := if ctlBits f 2 0 = 4 then 4 else if ctlBits f 2 0 = 3 then 2 else 1
      useS 48 f.a 4 4 true ++ useS 40 f.b 4 4 true ++ useV 32 f.c n n .none
  | .rred f => let n := if ctlBits f 7 4 = 3 ∨ ctlBits f 7 4 = 5 then 2 else 1
      useS 48 f.a 4 4 true ++ useS 40 f.b 4 4 true ++ useV 32 f.c n n .active
  | .ratom f => let n := atomRegs (ctlBits f 2 0) (ctlBits f 7 4)
      useS 48 f.a 4 4 true ++ useS 40 f.b 4 4 true ++ useV 32 f.c n n .active
  | .rsig f => useS 48 f.a 4 4 true ++ useS 40 f.b 4 4 true
  | .trgcan f => useS1 48 f.a true ++ useS1 24 f.d false
  | .apxbegin f => useV 48 f.a (f.d.toNat % 16 + 1) 1 .active ++ useV 40 f.b (f.d.toNat / 16 % 8 + 1) 1 .none ++
      useS1 32 f.c true
  | .apxinv f => if ctlBits f 0 0 = 1 then [] else useS1 32 f.c true
  | .apxqry f => useS1 32 f.c true ++ useS2 24 f.d false
  | .taskq f => useS1 48 f.a true ++ useS2 40 f.b true ++ useS1 24 f.d false
  | .sets f => let n := specialRegs (ctlBits f 7 0)
      useS 48 f.a n n true
  | .syscall f => useS1 48 f.a true ++ useS2 40 f.b true ++ useS2 24 f.d false
  | .tlbinv f => useS2 48 f.a true ++ useS1 40 f.b true
  | .hashb f => useS2 48 f.a true ++ useS1 40 f.b true ++ useS2 32 f.c true ++ useS 24 f.d 8 8 true
  | .signq f => useS2 48 f.a true ++ useS1 40 f.b true ++ useS2 32 f.c true
  | .measxExtend f | .measxRead f => useS2 48 f.a true
  | .clauseHeader _ => []
  | .waveReady _ | .lateResultLand _ _ _ | .napExpiry _ | .storeBufferDrain _ _ | .l1SectorExpiry _ _
  | .cowPageCopy _ | .floadResend _ _ | .translationWalkComplete _ _ | .tlbRequestReissue _ _
  | .faultRecordDeferred _ | .faultRetry _ _ | .faultTrap _ _ | .faultKill _ _ | .invalidateAsid _ _ _
  | .invalidateRange _ _ _ _ _ | .invalidateAll _ _ | .invalidationComplete _ | .tileCopyPerform _ _
  | .segcfgComplete _ | .tlreadPerform _ | .obrelRelease _ _ | .obwrWrite _ _ | .obrdRead _ _ | .mplaneWrite _ _
  | .mldsLoad _ _ | .mswapExchange _ _ | .mmaRowStep _ _ | .maczClear _ _ | .mshoutRow _ _ | .mshinRow _ _
  | .routerExpand _ | .targetPerform _ | .reductionContribution _ | .reductionSlotTimeout _ | .tombstoneExpiry _
  | .reductionNackResend _ | .combineAck _ _ _ | .combineTimeout _ | .combineNackResend _ | .remoteAck _ _
  | .remoteTxTimeout _ | .rxferTransfer _ | .roceAck _ _ | .triggerFire _ _ _ | .triggerComplete _ _ | .snapshotArm
  | .snapshotCancel | .snapshotFreeze | .snapshotMarkComplete | .snapshotDrainRecord _ | .windowTableLoad
  | .ruleTableLoad | .taskDoorbell _ | .taskRead _ | .dependencePoll _ | .admissionTest _ | .stagingLanding _ _
  | .stagingTimeout _ | .cohortPlace _ _ _ | .cohortRetire _ | .storageClearComplete _ _ | .segmentConvert _ _ _
  | .segmentConversionComplete _ _ | .waitTimeout100us _ | .preemptLimitExpiry _ _ | .cohortRestore _ _
  | .taskQueueCancel _ | .fittingSample _ | .replayStep _ _ | .serviceResponse _ _ | .serviceRecordDeferred _
  | .mcRetry _ _ | .mcTrap _ _ | .mcKill _ _ | .mcRecordDeferred _ | .debugStop _ | .debugGo _
  | .channelHeadWrite _ _ _ | .channelRecord _ _ _ | .packageReset _ | .bootRetry _ | .trustQueueDoorbell
  | .trustQueueCancel | .doeRequest _ | .doeResponse _ | .doeAbort | .spdmGetVersion | .spdmGetCapabilities
  | .spdmNegotiateAlgorithms | .spdmGetDigests | .spdmGetCertificate | .spdmChallenge | .spdmGetMeasurements
  | .spdmUnsupportedRequest | .ideKmQuery | .ideKmKeyProg | .ideKmKSetGo | .ideKmKSetStop | .tdispGetVersion
  | .tdispGetCapabilities | .lockInterface _ | .getDeviceInterfaceReport _ | .getDeviceInterfaceState _
  | .startInterface _ | .stopInterface _ | .worldRequest _ | .functionLevelReset _ | .evictPage _
  | .pageReturn _ _ _ _ | .pageScrub _ | .hostAccess _ | .cxlSnoop _ | .portTrain _ _ | .flitTagFail _
  | .laneFailure _ | .powerThrottle _ _ | .thermalTrip | .ageingReplan _ _ | .doerqRead | .trrngRead
  | .tsstgdropRead _ | .tsremfltRead _ | .l2stgdropRead _ | .l2nackRead _ | .l2futdblRead _ | .l2poisonRead _
  | .fbrednackRead | .fbdroplateRead | .fbtimeoutRead | .fborphanRead | .fbbadhdrRead | .schedpreRead
  | .scheddemRead | .fedropRead _ | .feinvRead _ | .mcceRead _ | .trdenyRead | .trtagfailRead | .pwrthrotRead
  | .registerWrite _ _ _ | .l2StagingFill _ _ | .tdispInterfaceError _ | .supplyLoss => []

/-! ### Issue checks (R197) -/

/-- Step 5: the first field whose registers are not allocated or not aligned (R200, R201). -/
def badRegister (w : Wave) (us : List RegUse) : Option Nat :=
  (us.find? fun u => decide ((if u.vec then w.nv else 128) < u.reg + u.n) || (u.align != 0 && u.reg % u.align != 0)).map (·.lo)

/-- Is a register awaiting a late result (R169)? Scalar registers go by their key. -/
def Wave.latePending (w : Wave) (vec : Bool) (r : Nat) : Bool :=
  w.late.any fun l => l.vec == vec && decide (l.reg ≤ r ∧ r < l.reg + l.nregs)

/-- Is a register awaiting an engine (R171)? -/
def Wave.enginePending (w : Wave) (vec : Bool) (r : Nat) : Bool := w.epend.any fun e => e.vec == vec && e.reg == r

/-- The registers of a block. -/
def RegUse.regs (u : RegUse) : List Nat := (List.range u.n).map (u.reg + ·)

/-- Step 6: the first named register that is pending, with its trap (R170, R171, R376). -/
def pendingRegister (w : Wave) (us : List RegUse) : Option (Nat × Nat) :=
  us.findSome? fun u => u.regs.findSome? fun r =>
    let key := if u.vec then r else w.skey r
    let info := r + (if u.vec then 256 else 0)
    if w.latePending u.vec key then some (trapLookahead, info)
    else if w.enginePending u.vec key then some (trapEngineHazard, info) else none

/-- Step 7: EXEC equals LIVE. -/
def Wave.converged (w : Wave) : Bool := (List.range w.k).all fun j => w.execWord j == w.liveWord j

/-- The source lanes that a read consumes (R207, R247, R390). -/
def consumedLanes (w : Wave) (v : Via) : List Nat :=
  match v with
  | .none => []
  | .active | .lanes | .group => w.activeLanes
  | .passes => (List.range w.width).filter fun i => w.execWord (i / 32) != 0
  | .all => w.liveLanes
  | .route m p => w.activeLanes.filterMap (routeLane w m p)

/-- Is word `j` of a scalar source consumed: always by a scalar read, with an active lane by a read of the lanes (R160, R247)? -/
def readsScalar (w : Wave) (u : RegUse) (j : Nat) : Bool :=
  match u.via with
  | .lanes => !w.activeLanes.isEmpty
  | .group => w.activeLanes.any fun i => i / 32 == j
  | _ => true

/-- The first poisoned source register (R390): register, whether a vector register, source lane. -/
def poisonedSource (w : Wave) (us : List RegUse) : Option (Nat × Nat) :=
  if w.regs.spoison.isEmpty && w.regs.vpoison.isEmpty then none else
  us.findSome? fun u => if u.via = .none then none else u.regs.findSome? fun r =>
    if u.vec then ((consumedLanes w u.via).find? fun i => w.regs.vpoison.contains (vkey r i)).map fun i => (r + 256, i)
    else if w.regs.spoison.contains (w.skey r) && readsScalar w u (r - u.reg) then some (r, 0) else none

/-- The class rule (R195) by major opcode. Classes: 0 G, 1 M, 2 X, 3 S. -/
def classAllows (op cls : Nat) : Bool :=
  if op < 0x40 then true else if op < 0x80 then cls == 0
  else if op = 0x8B then cls == 0 || cls == 2 else if op < 0x90 then cls == 0
  else if op < 0xA0 then true else if op < 0xB0 then cls == 1 else if op < 0xC0 then cls == 2
  else if op < 0xC4 then cls == 0 else if op < 0xD0 then cls == 2 else cls == 3

/-- The control transfers (R196): BRA to JMPI, ERET, SYSCALL and APXBEGIN. -/
def isTransfer (op : Nat) : Bool := decide (0x30 ≤ op ∧ op ≤ 0x38) || op == 0xD1 || op == 0xD2 || op == 0xC0

/-- The trap of step 3, if any (R210, R212, R327, R330). A special register that nobody may write is ILLEGAL_OPERAND at
handler level in world 0. -/
def privilegeTrap (s : State) (w : Wave) (i : Instr) : Option Nat :=
  let priv := w.tr.handler && s.waveWorld w == 0
  match i with
  | .sets f =>
    let idx := ctlBits f 7 0
    if [0, 1, 2, 3, 4, 5, 6, 7, 8, 11, 12, 15, 16, 17, 19].contains idx then
      some (if priv then trapIllegalOperand else trapPrivileged)
    else if [9, 10, 22, 27].contains idx then (if priv then none else some trapPrivileged)
    else if [23, 24, 25, 26].contains idx then (if w.tr.handler then none else some trapPrivileged)
    else none
  | .eret _ => if w.tr.handler then none else some trapPrivileged
  | .tlbinv _ => if priv then none else some trapPrivileged
  | .hashb _ | .signq _ | .measxExtend _ | .measxRead _ => if isTrustCore w.core then none else some trapPrivileged
  | _ => none

/-- The parts of step 4 that need the wave: P against W (R206), and the saved group of the mask instructions (R235). -/
def Instr.mustWave (w : Wave) (i : Instr) : List Check :=
  let pOk := fun (lo : Nat) (p : BitVec 10) (routes : List (BitVec 3)) =>
    (lo, (!(routes.contains 2 || routes.contains 3) || decide (p.toNat < w.width)) &&
      (!routes.contains 5 || decide (2 ^ (p.toNat / 64) ≤ w.width)))
  let clash := fun (lo : Nat) (g : BitVec 8) =>
    (lo, !(decide (g.toNat < 128) && decide (g.toNat < 96 + w.k) && decide (96 < g.toNat + w.k)))
  match i with
  | .msave f => [clash 48 f.d]
  | .melse f | .mjoin f => [clash 40 f.a]
  | .vadd f | .vsub f | .vmul f | .vmulh f | .vmin f | .vmax f | .vabsd f | .vand f | .vor f | .vxor f | .vshl f
  | .vshr f | .vsha f | .vfadd f | .vfsub f | .vfmul f | .vfmin f | .vfmax f | .vfdiv f | .vcmp f | .vfcmp f
  | .vpopc f | .vlzc f | .vmov f | .vscan f | .vfclass f | .vfsqrt f | .vfrcp f | .vfrsq f
  | .vfexp2 f | .vflog2 f | .vfsin f | .vfcos f | .vftanh f | .vunpk f | .vred f | .vfred f | .vcvt f | .vpack f =>
      [pOk 16 f.p [f.ra, f.rb]]
  | .vmad f | .vlogic f | .vbfe f | .vbfi f | .vfma f | .vfdot2 f => [pOk 5 f.p [f.ra, f.rb, f.rc]]
  | .vsel f => [pOk 5 f.p [f.ra, f.rb]]
  | _ => []

/-- A trap that an issue check raises: code, TINFO0, TINFO1. -/
abbrev TrapInfo := Nat × DWord × DWord

/-- The major opcode of an instruction. -/
def Instr.op (i : Instr) : Nat := ((encode i).map opcodeOf).getD 0

/-- The checks of R197 from step 2 to step 7, then poison (R377): the first that fails. -/
def issueCheck (s : State) (w : Wave) (i : Instr) : Option TrapInfo :=
  let word := (encode i).getD 0
  let op := Instr.op i
  let info := fun (n : Nat) => BitVec.ofNat 64 n
  if !classAllows op (fld w.clause.word.toNat 51 48) || (isTransfer op && w.clause.left != 1) then
    some (trapIllegalClause, word, w.clause.word)
  else match privilegeTrap s w i with
  | some c => some (c, word, 0)
  | none => match lowestBad (i.must ++ Instr.mustWave w i) with
  | some lo => some (trapIllegalOperand, word, info lo)
  | none =>
    let us := Instr.uses w i
    match badRegister w us with
    | some lo => some (trapIllegalRegister, word, info lo)
    | none => match pendingRegister w us with
    | some (c, x) => some (c, word, info x)
    | none =>
      if (decide (0xA0 ≤ op ∧ op ≤ 0xAA) || op == 0x86 || op == 0x87) && !w.converged then
        some (trapConvergence, word, 0)
      else match poisonedSource w us with
      | some (r, lane) => some (trapPoison, word, info (r + 2 ^ 16 * lane))
      | none => none

end Sys2Proof.Machine
end

