-- ==== Sys2Proof/Machine/Issue.lean ====
section
/-! DEFINITION. Issue of an instruction by the wave whose turn it is: what precedes its effect (breakpoints, lookahead,
the checks of R197, a residue mismatch), and what a wave does when an access faults. -/

namespace Sys2Proof.Machine

/-! ### Faults of a wave's access -/

/-- Kinds that trap at once (R37). -/
def directKind (kind : Nat) : Bool := kind == 3 || kind == 7 || kind == 8

/-- A fault met by wave `u`: a direct kind traps, the others park the wave on the fault queue (R37, R39); the trap that a TRAP
response delivers is kept with it (R40). -/
def waveFault (s : State) (u : Nat) (w : Wave) (va kind access level lane : Nat) (fetch : Bool) : Act :=
  if directKind kind then
    .trap s (kindTrap kind) (BitVec.ofNat 64 va) (BitVec.ofNat 64 (kind + 2 ^ 8 * access + 2 ^ 16 * lane))
  else
    let info1 := BitVec.ofNat 64 (kind + 2 ^ 8 * access + 2 ^ 16 * lane)
    let p : PendTrap := { code := kindTrap kind, tpc := w.pc, info0 := BitVec.ofNat 64 va, info1 := info1, after := false, queued := true }
    let s := s.setWave u { w with pend := some p }
    let s := queueFault s (dieOf w.core) { va := va, kind := kind, access := access, level := level } (s.waveAsid w)
      (.wave u fetch)
    match s.wave u with
    | some w => .wait s w.wait
    | none => .gone s

/-- A miss: the die's service is asked for every page and the wave stands at a yield point (R25). -/
def waveMiss (s : State) (u : Nat) (w : Wave) (access : Nat) (vas : List Nat) : Act :=
  .wait (vas.foldl (fun s va => requestWalk s u w access va) (s.setWave u w)) .walk

/-! ### Restart and machine checks (R386 to R389, R398) -/

/-- A machine-check record: the layout of R38 with KIND 16 (R389). -/
def machineCheckRecord (s : State) (u unit num : Nat) (restart : DWord) (phase : Bool) : Nat :=
  faultRecord { va := restart.toNat, kind := 16, access := unit, level := 0 }
    { agentInfo s 0 (.wave u false) with source := 0 } num phase

/-- Writes a record to a die's machine-check queue for wave `u` (0: the fitting engine) at HEAD, under a new token. -/
def State.writeMachineCheck (s : State) (die u unit : Nat) (restart : DWord) : State :=
  let q := (s.die die).mc
  let num := freshNumber (q.tokens.map (·.1))
  let r := machineCheckRecord s u unit num restart q.phase
  let r := if u = 0 then r + 2 ^ 88 * (die % 4) else r
  let s := s.writeHome (queueAddr q.base q.head) (natLe 32 r)
  let (head, phase) := queueAdvance q.base q.head q.phase
  let s := s.updDie die fun d => { d with mc := { d.mc with head := head, phase := phase, count := d.mc.count + 1, tokens := d.mc.tokens ++ [(num, u)] } }
  s.updWave u fun w => { w with wait := .machineCheck die num, waitSince := s.clock }

/-- The wave parks at its restart point and escalates (R389); with the queue full it waits in order of arrival (R398).
The unit code is kept in `prog.x`. -/
def State.escalate (s : State) (u unit : Nat) : State :=
  match s.wave u with
  | none => s
  | some w =>
    let die := dieOf w.core
    let w := { w with
      pc := w.restart, clause := w.restartClause, upset := false, prog := { Progress.none with x := unit }, xl := [], xfail := [],
      pend := none }
    let s := (s.setWave u w).releaseHolder u w.core
    let q := (s.die die).mc
    if q.waiting.isEmpty && !queueFull q.base q.count then s.writeMachineCheck die u unit w.restart
    else
      let s := s.updDie die fun d => { d with mc := { d.mc with waiting := d.mc.waiting ++ [u] } }
      s.updWave u fun w => { w with wait := .machineCheckQueue die, waitSince := s.clock }

/-- What a mismatch undoes (R388): results of instructions issued since the restart point, a commit group and an open
region begun since it; a group begun before is doomed. -/
def Wave.discard (w : Wave) : Wave :=
  { w with
    late := w.late.filter fun l => decide (l.seq ≤ w.restartSeq),
    group := match w.group with
      | some g => if g.since = 1 then none else some (if g.doom = 0 then { g with doom := 4, bytes := [] } else g)
      | none => none,
    region := match w.region with
      | some r => if r.since = 1 then none else some r
      | none => none,
    upset := false }

/-- A mismatch in an instruction of wave `u`: it resumes at its restart point, and the third escalates (R388, R389). -/
def State.restartWave (s : State) (u unit : Nat) : State :=
  match s.wave u with
  | none => s
  | some w =>
    let w := w.discard
    if 2 ≤ w.retry then (s.setWave u w).escalate u unit
    else
      let w := { w with
        pc := w.restart, clause := w.restartClause, retry := w.retry + 1, wait := .ready, prog := Progress.none, xl := [],
        xfail := [], pend := none, again := !w.restartClause.inside }
      (s.setWave u w).releaseHolder u w.core

/-- A mismatch in the operands of an instruction that closes the region: the instruction is sent again (R387). -/
def State.resend (s : State) (u unit : Nat) : State :=
  match s.wave u with
  | none => s
  | some w =>
    if 2 ≤ w.retry then (s.setWave u w.discard).escalate u unit
    else s.setWave u { w with retry := w.retry + 1, upset := false }

/-- The unit whose checker covers an instruction (R389). -/
def unitOf (op : Nat) : Nat :=
  if 0x40 ≤ op ∧ op < 0x80 then 1 else if op = 0xC0 then 2 else if 0xA0 ≤ op ∧ op < 0xB0 then 3 else 0

/-- Instructions that close the idempotent region when they complete (R387), by major opcode. -/
def closesRegion (w : Wave) (op : Nat) : Bool :=
  [0x8E, 0x8F, 0xB0, 0xB1, 0xB2, 0xB3, 0xB4, 0xB5, 0x95, 0xC4, 0xC5, 0x8B, 0xB6, 0x97, 0x98, 0x9A, 0x86, 0x87, 0xD6,
   0x3A, 0x3B, 0x3C, 0x39, 0xD2, 0xC1, 0xC2].contains op || ((op == 0x84 || op == 0x85) && w.anyExec)

/-! ### Issue -/

/-- DBGCTL bits (R382). -/
def Wave.stepping (w : Wave) : Bool := w.tr.dbgctl.getLsbD 0 && !w.tr.handler
def Wave.breakHere (w : Wave) : Bool :=
  w.tr.dbgctl.getLsbD 2 && !w.tr.handler && !w.tr.bpSkip && w.pc == w.tr.dbgctl >>> 3 <<< 3

/-- A late result that must land before the next instruction issues (R169). -/
def Wave.lateDue (w : Wave) : Bool := w.late.any fun l => l.window == 0

/-- A trap before any effect of the instruction at the wave's PC. -/
def trapHere (s : State) (u : Nat) (w : Wave) (code : Nat) (i0 i1 : DWord) (after : Bool) : State :=
  s.takeTrap u { code := code, tpc := w.pc, info0 := i0, info1 := i1, after := after, queued := false }

/-- The wave stops at a yield point before the instruction. -/
def stopWave (s : State) (u : Nat) (w : Wave) (wt : Wait) : State :=
  (s.setWave u { w with wait := wt, waitSince := s.clock }).releaseHolder u w.core


/-- What comes before any check of the instruction or header at the PC: a trap that an earlier load has raised, a SINGLE_STEP that is
due (R381), BREAKPOINT (R395), and the lookahead wait (R169). -/
def issueGate (s : State) (u : Nat) (w : Wave) (header : Bool) : Option State :=
  match w.lateTrap with
  | some t => some (if w.late.isEmpty then s.takeLateTrap u w t else stopWave s u w .late)
  | none =>
  if w.tr.stepDue && !w.tr.handler then some (trapHere s u w trapStep (w.pc - 8) 0 true)
  else if w.breakHere then some (trapHere s u w trapBreakpoint w.pc 0 false)
  else if w.lateDue || (header && !w.late.isEmpty) then some (stopWave s u w .late)
  else none

/-! ### Stores on their way into the store buffer (R51) -/

/-- Entries of a core's store buffer (R19, R51). -/
def sbSize (core : Nat) : Nat := if isTrustCore core then 16 else 64

/-- Entries in use: the records of one wave and sector are one entry. -/
def sbCount (sb : List SbEntry) : Nat := (sb.map fun e => (e.wave, e.sector)).eraseDups.length

/-- A new record in a core's store buffer. -/
def State.newEntry (s : State) (core : Nat) (e : SbEntry) : State :=
  let (id, s) := s.fresh
  s.updCore core fun c => { c with sb := c.sb ++ [{ e with id := id, merged := s.clock }] }

/-- Drains entries until one is free. None: what may drain does not free one. -/
def State.freeEntry (core : Nat) : Nat → State → Option State
  | 0, s => if sbCount (s.core core).sb < sbSize core then some s else none
  | fuel + 1, s =>
    if sbCount (s.core core).sb < sbSize core then some s
    else ((s.core core).sb.find? s.canDrain).bind fun e => State.freeEntry core fuel (s.performEntry core e)

/-- Puts one sector's bytes into the store buffer (R51): they merge into the wave's entry for the sector, in a record of their own where
the entry would come to wait for reads issued since (R131), or take a new entry. None: no entry is free. -/
def State.enterSector (s : State) (core : Nat) (w : Wave) (e : SbEntry) : Option State :=
  let sb := (s.core core).sb
  match (sb.filter fun x => x.wave == e.wave && x.sector == e.sector).getLast? with
  | some y =>
    if w.late.any fun l => l.reads && decide (y.afterSeq < l.seq) then some (s.newEntry core e)
    else some (s.updCore core fun c => { c with sb := updFirst (fun x => x.id == y.id && x.wave == e.wave && x.sector == e.sector) (fun y => { y with
      bytes := e.bytes.foldl (fun m b => mapInsert m b.1 b.2) y.bytes, merged := s.clock, afterSeq := e.afterSeq }) c.sb })
  | none => (State.freeEntry core sb.length s).map fun s => s.newEntry core e

/-- Enters sectors in turn; the state, and the sectors that are left. -/
def State.enterSectors (core : Nat) (w : Wave) : List SbEntry → State → State × List SbEntry
  | [], s => (s, [])
  | e :: es, s =>
    match s.enterSector core w e with
    | none => (s, e :: es)
    | some s => State.enterSectors core w es s

/-- The sectors of a store that has passed its checks enter the store buffer; the wave waits only while no entry is free (R267), and then
goes on with the sectors that are left, so that the store has all of its effect (R24, R25). -/
def enterAll (es : List SbEntry) : State → Nat → Wave → Act := fun s u w =>
  let (s, left) := State.enterSectors w.core w es s
  let s := s.updWave u fun w => { w with entering := left }
  if left.isEmpty then .done s else .wait s .storeBuffer

/-- Issues instruction `i` for the wave whose turn it is; `body` is its effect once every check has passed. A mismatch is met by the
checkers as the instruction computes its operands, and not by one that has left the core and waits (R387); of an APXBEGIN also while the
surrogate unit computes, when n has advanced (R374, R388). A store whose sectors are
entering the store buffer goes on with them. -/
def runInstr (i : Instr) (body : State → Nat → Wave → Act) (s : State) : Host.Outcome State Fault Refusal :=
  match s.cur with
  | none => .next s
  | some u =>
    match s.wave u with
    | none => .next s
    | some w =>
      if !w.entering.isEmpty then
        let w := { w with wait := .ready }
        finishAct u w.pc (closesRegion w (Instr.op i)) w.stepping (enterAll w.entering (s.setWave u w) u w)
      else match issueGate s u w false with
      | some s => .next s
      | none =>
        match issueCheck s w i with
        | some (c, i0, i1) => .next (trapHere s u w c i0 i1 false)
        | none =>
          let op := Instr.op i
          let closes := closesRegion w op
          if closes && w.late.any (fun l => decide (l.kind = .value)) then .next (stopWave s u w .late)
          else if w.upset && (w.prog.stage == 0 || (op == 0xC0 && w.prog.stage == 1)) then
            let unit := if op = 0xC0 ∧ w.prog.stage = 0 then 0 else unitOf op
            .next (if closes then s.resend u unit else s.restartWave u unit)
          else
            let w := { w with wait := .ready }
            finishAct u w.pc closes w.stepping (body (s.setWave u w) u w)

/-- A word in an instruction position that is no instruction (R197 step 1, R210). -/
def State.illegalWord (s : State) (word : DWord) : Host.Outcome State Fault Refusal :=
  match s.cur with
  | none => .next s
  | some u =>
    match s.wave u with
    | none => .next s
    | some w =>
      match issueGate s u w false with
      | some s => .next s
      | none => .next (trapHere s u w trapIllegalInstruction word 0 false)

/-- A word in a header position whose top byte is not 0xF8 (R210). -/
def State.illegalHeader (s : State) (word : DWord) : Host.Outcome State Fault Refusal :=
  match s.cur with
  | none => .next s
  | some u =>
    match s.wave u with
    | none => .next s
    | some w =>
      match issueGate s u w true with
      | some s => .next s
      | none => .next (trapHere s u w trapIllegalClause word word false)

/-- The fetch of the word at the wave's PC (R32, R197). -/
inductive Fetch where
  | word (x : DWord) (s : State)
  | act (a : Act)

/-- The core that holds the instruction cache of a core: the even one of its pair (R12, R13). The trust core belongs to no pair, and has one
of its own (a choice, log 86). -/
def codeCore (core : Nat) : Nat := if isTrustCore core then core else dieOf core * 161 + coreIdOf core / 2 * 2

/-- Reads a word of code through the instruction cache of a pair (R16): a line of another world misses (R70); a line that holds no poison
is filled from the slice, but for host memory over PCIe, which is not cached (R74). None: the word is poisoned. The cache holds 2,048
lines (R13); the oldest leaves. -/
def State.readCode (s : State) (core world pa : Nat) : Option (DWord × State) :=
  let k := codeCore core
  let line := pa / 64
  match (s.core k).code.find? fun x => x.line == line && x.world == world with
  | some x => some (BitVec.ofNat 64 (leNat ((x.bytes.drop (pa % 64)).take 8)), s)
  | none =>
    if s.poisoned pa 8 then none
    else
      let word := BitVec.ofNat 64 (s.read pa 8)
      if s.poisoned (line * 64) 64 || (isHost pa && !s.power.cxl) then some (word, s)
      else
        let x : CodeLine := { line := line, world := world, bytes := s.bytes (line * 64) 64 }
        some (word, s.updCore k fun c => { c with code := (x :: c.code.filter fun y => !(y.line == line && y.world == world)).take 2048 })

/-- The words of a clause that its header's fetch brings with it: those that are translated and hold no poison, up to the first that is
not (R16; log 77). -/
def State.fetchAhead (u : Nat) (w : Wave) : Nat → DWord → State → List DWord × State
  | 0, _, s => ([], s)
  | n + 1, va, s =>
    match waveXlate s w va.toNat 3 false with
    | .ok pa _ =>
      match s.readCode w.core (s.waveWorld w) pa with
      | some (x, s) =>
        let r := State.fetchAhead u w n (va + 8) s
        (x :: r.1, r.2)
      | none => ([], s)
    | _ => ([], s)

/-- Fetches through the core's TLB; a miss or fault is the wave's, with access code 3 (R25, R37). Poison in a fetched
word is consumed by the fetch (log 13). -/
def State.fetchAt (s : State) (u : Nat) (w : Wave) (va : DWord) : Fetch :=
  match waveXlate s w va.toNat 3 false with
  | .miss => .act (waveMiss s u w 3 [va.toNat])
  | .fault k l => .act (waveFault s u w va.toNat k 3 l 0 true)
  | .firewall => .act (.trap s trapFirewall va 0)
  | .ok pa _ =>
    match s.readCode w.core (s.waveWorld w) pa with
    | none => .act (.trap s trapPoison 0 0)
    | some (x, s) => .word x s

/-- The next word of a wave: one that was fetched with its clause runs as fetched (R16). -/
def State.nextWord (s : State) (u : Nat) (w : Wave) : Fetch :=
  match w.clause.inside, w.clause.words with
  | true, x :: _ => .word x s
  | _, _ => s.fetchAt u w w.pc

/-- The tenant whose turn clock t of a core is, and how many of the 64 entries it has (R351, R352). -/
def Core.entry (c : Core) (t : Nat) : Nat := mapGet 0 c.tenants (t % 64)
def Core.entries (c : Core) (tenant : Nat) : Nat := (List.range 64).countP fun j => mapGet 0 c.tenants j == tenant

/-- COHORTSTOP (R397): another wave of the cohort is at handler level for a debug trap with the bit set. -/
def State.cohortStopped (s : State) (u : Nat) (w : Wave) : Bool :=
  s.waves.any fun x => x.1 != u && x.2.cohort == w.cohort && x.2.tr.handler && x.2.tr.debugStop && x.2.tr.dbgctl.getLsbD 1

/-- Is a wave's cohort being saved (R175)? -/
def State.beingSaved (s : State) (w : Wave) : Bool := ((s.cohort w.cohort).bind fun c => s.task c.task).any (·.saving)

/-- Can a wave's next instruction issue at once, as far as its late results go (R169, R175)? -/
def Wave.mayIssue (w : Wave) : Bool := if w.clause.inside then !w.lateDue else w.late.isEmpty

/-- Ready waves of a core that may start a clause: (slot, wave, tenant). -/
def State.readyWaves (s : State) (core : Nat) : List (Nat × Nat × Nat) :=
  s.waves.filterMap fun x =>
    if x.2.core == core && x.2.wait == .ready && x.2.mayIssue && !s.cohortStopped x.1 x.2 && !s.beingSaved x.2 &&
      !s.worldStopped (s.waveWorld x.2) then some (x.2.slot, x.1, s.tenantOf x.2) else none

/-- The first ready wave of a tenant after the slot that last started a clause for it (R175). -/
def pickWave (c : Core) (ready : List (Nat × Nat × Nat)) (tenant : Nat) : Option (Nat × Nat) :=
  let last := mapGet 31 c.lastWave tenant
  ((List.range 32).findSome? fun i => ready.find? fun r => r.1 == (last + 1 + i) % 32 && r.2.2 == tenant).map
    fun r => (r.1, r.2.1)

/-- The choice at a clause start (R352): wave, its slot, its tenant, and whether step 2 served it. -/
def Core.choose (c : Core) (trust : Bool) (t : Nat) (ready : List (Nat × Nat × Nat)) : Option (Nat × Nat × Nat × Bool) :=
  if trust then (pickWave c (ready.map fun r => (r.1, r.2.1, 0)) 0).map fun r => (r.2, r.1, 0, false)
  else
    let e := c.entry t
    let issues := c.history.countP fun h => h.2 == e && decide (t < h.1 + 64)
    match (if issues < c.entries e + 16 then pickWave c ready e else none) with
    | some (slot, u) => some (u, slot, e, false)
    | none =>
      if bit c.strict e then none
      else (List.range 16).findSome? fun i =>
        let x := (c.lastSpare + 1 + i) % 16
        if bit c.strict x then none else (pickWave c ready x).map fun r => (r.2, r.1, x, true)

/-- The core's clause holder waits for a store-buffer entry, and that wait holds the core (R267). -/
def State.coreHeld (s : State) (c : Nat) : Bool :=
  match (s.core c).holder.bind s.wave with
  | some w => w.wait == .storeBuffer
  | none => false

/-- The wave that core `c` issues from now: the holder of its clause, else the choice of R352. A choice of step 2 is kept until the
wave issues. -/
def State.selectWave (s : State) (c : Nat) : Option (Nat × State) :=
  if s.coreHeld c then none else
  let k := s.core c
  let held := match k.holder with
    | some u => match s.wave u with
      | some w => if w.wait == .ready && w.core == c then some u else none
      | none => none
    | none => none
  match held with
  | some u => some (u, { s with cur := some u })
  | none =>
    match k.choose (isTrustCore c) s.clock (s.readyWaves c) with
    | none => none
    | some (u, _, tenant, spare) =>
      let s := s.updCore c fun k => { k with holder := none, spare := if spare then some tenant else none }
      some (u, { s with cur := some u })

/-- Wave `u` starts a clause: it is the one that last did so for its tenant (R175), and its clause holds the core (R166). -/
def State.startClause (s : State) (u : Nat) (w : Wave) : State :=
  let tenant := if isTrustCore w.core then 0 else s.tenantOf w
  s.updCore w.core fun c => { c with holder := some u, lastWave := mapPut 31 c.lastWave tenant w.slot }

/-- Milliseconds below 2.0 GHz and operating hours as nanoseconds pass (R422, R423). -/
def Power.pass (p : Power) (ns : Nat) : Power :=
  let slow := if p.mhz < 2000 then p.slowNs + ns else p.slowNs
  { p with throt := (p.throt + slow / 1000000) % 2 ^ 32, slowNs := slow % 1000000, opNs := p.opNs + ns }

/-- Lines of an SPMARK that have changed at a clock: 32 in each clock from the one after its issue, in ascending order (R275). -/
def Marking.due (m : Marking) (clock : Nat) : Nat := min m.count (32 * (clock - m.start))

/-- A line takes the bit that an SPMARK gives it. -/
def Cohort.markLine (c : Cohort) (full : Bool) (l : Nat) : Cohort := if full then c.fillLine l else { c with empty := insNat l c.empty }

/-- The SPMARKs of a cohort in one clock. -/
def Cohort.markAt (c : Cohort) (clock : Nat) : Cohort :=
  let c := c.marking.foldl (fun c m => (List.range (m.due clock - m.done)).foldl (fun c i => c.markLine m.full (m.line + m.done + i)) c) c
  { c with marking := (c.marking.map fun m => { m with done := m.due clock }).filter fun m => m.done != m.count }

/-- The SPMARKs of a cohort over `n` clocks from `clock`, clock by clock until they are done. -/
def Cohort.markLines (c : Cohort) (clock n : Nat) : Cohort :=
  let last := (c.marking.map fun m => m.start + (m.count + 31) / 32).foldl max clock
  (List.range (min n (last - clock))).foldl (fun c i => c.markAt (clock + i + 1)) c

/-- The SPMARKs of every cohort over `n` clocks. -/
def State.markLines (s : State) (n : Nat) : State :=
  if !s.cohorts.any (fun c => !c.2.marking.isEmpty) then s
  else { s with cohorts := s.cohorts.map fun c => (c.1, c.2.markLines s.clock n) }

end Sys2Proof.Machine
end

