-- ==== Sys2Proof/Machine/Order.lean ====
section
/-! DEFINITION. Orders that a wave waits for or establishes (R135 to R140, R169), late results, rounding modes and
generators of a wave (R182 to R186): what several families share. -/

namespace Sys2Proof.Machine

/-- The effect of an instruction once every check has passed. -/
abbrev Body := State → Nat → Wave → Act

/-- An instruction that changes only its wave. -/
def onWave (f : Wave → Wave) : Body := fun s u w => .done (s.setWave u (f w))

/-! ### Late results (R169) -/

/-- Is a late result the value of an access, local or remote? -/
def Late.accesses (l : Late) : Bool := l.kind != .value && l.kind != .answer

/-- A new late result of the wave with lookahead `la`, for the instruction `word` at its PC. -/
def Wave.addLate (w : Wave) (kind : LateKind) (vec : Bool) (reg nregs size la : Nat) (lanes : List LaneAcc)
    (vals : List (Nat × Nat)) (asid : Nat := 0) (pages : List Nat := []) (large : List Nat := []) (epoch : Nat := 0) (word : DWord := 0)
    (grouped : Bool := false) : Wave :=
  { w with
    lateSeq := w.lateSeq + 1,
    late := w.late ++ [{ seq := w.lateSeq + 1, kind := kind, vec := vec, reg := if vec then reg else w.skey reg, nregs := nregs,
                         size := size, window := la + 1, lanes := lanes, vals := vals, asid := asid, pages := pages, refused := [],
                         refusals := 0, until_ := 0, large := large, epoch := epoch, pc := w.pc,
                         clause := { w.clause with words := [] }, word := word, grouped := grouped }] }

/-- An instruction's answer, which the wave waits for before its next instruction: a lookahead wait of L = 0 (R167, R268, R270, R282). -/
def Wave.addAnswer (w : Wave) (vec : Bool) (reg nregs : Nat) (vals : List (Nat × Nat)) : Wave := w.addLate .answer vec reg nregs 0 0 [] vals

/-- Writes a scalar register by its key (R159, R379): what a late result does when it lands. -/
def Wave.setKey (w : Wave) (key : Nat) (x : Word) : Wave :=
  let x := if 96 ≤ key ∧ key < 96 + w.k then x &&& w.liveWord (key - 96) else x
  { w with regs := { w.regs with s := mapPut 0 w.regs.s key x, spoison := w.regs.spoison.filter (· != key) } }

/-- Writes `n` consecutive registers from the 32-bit words of a value, low word first: scalar by key. -/
def Wave.setKeys (w : Wave) (key n v : Nat) : Wave :=
  (List.range n).foldl (fun w i => w.setKey (key + i) (BitVec.ofNat 32 (v / 2 ^ (32 * i)))) w

/-- Writes `n` consecutive vector registers in a lane from the words of a value. -/
def Wave.setVs (w : Wave) (r n lane v : Nat) : Wave :=
  (List.range n).foldl (fun w i => w.setV (r + i) lane (BitVec.ofNat 32 (v / 2 ^ (32 * i)))) w

/-- The words of `n` consecutive vector registers in a lane as one number. -/
def Wave.vs (w : Wave) (r n lane : Nat) : Nat :=
  (List.range n).foldr (fun i acc => (w.v (r + i) lane).toNat + 2 ^ 32 * acc) 0

/-- The destination of a late result takes its values. -/
def Wave.landLate (w : Wave) (l : Late) : Wave :=
  let w := { w with late := w.late.filter fun x => x.seq != l.seq }
  l.vals.foldl (fun w v => if l.vec then w.setVs l.reg l.nregs v.1 v.2 else w.setKeys l.reg l.nregs v.2) w

/-- Changes a late result. -/
def Wave.noteFload (w : Wave) (seq : Nat) (f : Late → Late) : Wave := { w with late := updFirst (fun l => l.seq == seq) f w.late }

/-- A pending load traps: it writes nothing, and its trap is kept until the wave's other results have landed; of two the earlier load's
trap stands. -/
def Wave.trapLate (w : Wave) (l : Late) (t : TrapInfo) : Wave :=
  let x : LateTrap := { seq := l.seq, clause := l.clause, trap :=
    { code := t.1, tpc := l.pc, info0 := t.2.1, info1 := t.2.2, after := false, queued := false } }
  { w with
    late := w.late.filter fun x => x.seq != l.seq,
    lateTrap := match w.lateTrap with
      | some y => some (if y.seq < l.seq then y else x)
      | none => some x }

/-- A pending load whose read meets poison (R80), a page of another world (R409), or a translation that no longer stands (R36) traps. In
a commit group nothing traps: the load returns zero, and its group, if it is still open, is doomed with status 3 (R90). -/
def Wave.failLate (w : Wave) (l : Late) (t : TrapInfo) : Wave :=
  if l.grouped then
    (if w.group.any fun g => decide (g.first < l.seq) then w.doom 3 else w).noteFload l.seq fun l =>
      { l with vals := l.lanes.map fun a => (a.lane, 0) }
  else w.trapLate l t

/-- POISON_CONSUMED of a pending load: TINFO1 names its register and the lane (R80, R376). -/
def Late.poisonInfo (l : Late) (lane : Nat) : TrapInfo :=
  (trapPoison, l.word, BitVec.ofNat 64 (l.reg % 128 * b2n (!l.vec) + l.reg * b2n l.vec + 256 * b2n l.vec + 2 ^ 16 * lane))

/-- Loads of global memory are pending on a core. -/
def State.loadsInFlight (s : State) (core : Nat) : Bool := s.waves.any fun x => x.2.core == core && x.2.late.any fun l => l.kind == .global

/-- The acquire side (R53): every line of the core's L1 is invalidated, and a fill that is in flight will not install its line. -/
def State.acquire (s : State) (core : Nat) : State :=
  if (s.core core).l1.isEmpty && !s.loadsInFlight core then s
  else s.updCore core fun c => { c with l1 := [], acquires := c.acquires + 1 }

/-- The acquire that waited for the wave's earlier reads is made as the last of them has landed (R150, R151). -/
def State.lateAcquire (s : State) (u : Nat) (w : Wave) : State :=
  if w.acquires && !w.late.any (·.accesses) then (s.setWave u { w with acquires := false }).acquire w.core else s

/-- After a result has landed or failed: a wave that waited for it may go on (before a header, once all have landed), and a trap
that waited for the last one is entered (R378), or that of an earlier load which failed meanwhile. -/
def State.afterLanding (s : State) (u : Nat) : State :=
  match ((s.wave u).map (s.lateAcquire u)).getD s, (((s.wave u).map (s.lateAcquire u)).getD s).wave u with
  | s, none => s
  | s, some w =>
    match w.wait, w.pend with
    | .late, _ => if w.late.isEmpty || (w.clause.inside && !w.lateDue) then s.setWave u { w with wait := .yielded } else s
    | .trapDrain, some p =>
      if !w.late.isEmpty then s
      else match w.lateTrap with
      | some t => s.enterTrap u { w with clause := t.clause } t.trap
      | none => s.enterTrap u w p
    | _, _ => s

/-! ### Rounding of a wave -/

/-- The mode that a rounding field selects (R182). -/
def Wave.mode (w : Wave) (rm : Nat) : Nat := if rm = 6 then w.sp.fprm else rm

/-- Under SR the lane's generator steps and gives u; in any other mode nothing happens (R186). -/
def Wave.draw (w : Wave) (mode lane : Nat) : Nat × Wave :=
  if mode = 5 then
    let x := genStep (w.gen lane)
    ((x >>> 32).toNat, w.setGen lane x)
  else (0, w)

/-! ### Orders -/

/-- After MJOIN an access waits for every earlier read (R236). -/
def Wave.joinHolds (w : Wave) : Bool := w.joined && w.late.any (·.accesses)

/-- An access of the wave: it first waits for what an MJOIN before it orders. -/
def afterJoin (body : Body) : Body := fun s u w =>
  if w.joinHolds then .wait s .late
  else
    let w := { w with joined := false }
    body (s.setWave u w) u w

/-- Every remote operation of the wave has gathered its expected count (R119, R140). -/
def State.remoteDone (s : State) (u : Nat) : Bool := s.fabric.ops.all fun o => o.wave != some u

/-- The scratch stores of wave `u` have been performed: an engine command that is issued now reads what they stored (R144, R302). -/
def State.storesPerformed (s : State) (u cid : Nat) : State :=
  s.updCohort cid fun c => { c with unfenced := c.unfenced.filter fun x => x.wave != u }

/-- Every line of the wave's SPMARKs, which are writes (R138), has changed. -/
def State.marked (s : State) (u cid : Nat) : Bool := (s.cohort cid).all fun c => !c.marking.any fun m => m.wave == u

/-- The predecessor side of a fence (R140): reads returned; with `wr` (class W at scope COHORT or wider) the store buffer drained to home
slices, scratch stores performed and SPMARKs done; remote operations answered. MMIO accesses and host accesses over PCIe are performed
when they issue. -/
def State.predecessors (s : State) (u : Nat) (w : Wave) (r wr x : Bool) : State × Bool :=
  if r && w.late.any (·.reads) then (s, false)
  else
    let s := if wr then (s.drainWave w.core u).storesPerformed u w.cohort else s
    (s, (!wr || (s.drained w.core u && s.marked u w.cohort)) && (!x || s.remoteDone u))

/-- Inside a commit group the instruction performs nothing and dooms the group with status 6 (R90). -/
def forbiddenInGroup (body : Body) : Body := fun s u w =>
  if w.group.isSome then .done (s.setWave u (w.doom 6)) else body s u w

end Sys2Proof.Machine
end

