-- ==== Sys2Proof/Machine/Scalar.lean ====
section
/-! DEFINITION. The scalar instructions (R219 to R232). -/

namespace Sys2Proof.Machine

/-! ### Integer functions shared with the vector forms (R181, R224) -/

/-- Number of one bits of a w-bit value. -/
def popCount (w x : Nat) : Nat := (List.range w).countP fun j => bit x j
/-- Number of leading zero bits of a w-bit value; w for 0. -/
def leadZeros (w x : Nat) : Nat := if x % 2 ^ w = 0 then w else w - 1 - Nat.log2 (x % 2 ^ w)
/-- Index of the lowest one bit; w for 0. -/
def firstSet (w x : Nat) : Nat := ((List.range w).find? fun j => bit x j).getD w

/-- The field of R227 and R251: position, top and length after cutting; length 0 means no field. -/
def fieldOf (y : Nat) : Nat × Nat × Nat :=
  let pos := fld y 4 0
  let len := min (fld y 13 8) 32
  let top := min (pos + len) 32
  (pos, if len = 0 then 0 else top - pos, top)

/-- Extracts a field, sign-extended or zero-extended to 32 bits. -/
def extractField (x y : Nat) (signed : Bool) : Nat :=
  let (pos, n, _) := fieldOf y
  if n = 0 then 0
  else
    let f := x / 2 ^ pos % 2 ^ n
    if signed then wrapTo 32 (signedOf n f) else f

/-- Replaces the field of `base` by the low bits of x. -/
def insertField (base x y : Nat) : Nat :=
  let (pos, n, _) := fieldOf y
  base - base / 2 ^ pos % 2 ^ n * 2 ^ pos + x % 2 ^ n * 2 ^ pos

/-- Quotient and remainder of R181 on integers of a width. -/
def divInt (w : Nat) (x y : Int) : Nat := if y = 0 then 2 ^ w - 1 else wrapTo w (Int.tdiv x y)
def remInt (w : Nat) (x y : Int) : Nat := if y = 0 then wrapTo w x else wrapTo w (Int.tmod x y)

/-- Compare predicates 0 EQ, 1 NE, 2 LT, 3 LE, 4 GT, 5 GE (R225). -/
def comparePred (p : Nat) (x y : Int) : Bool :=
  match p with
  | 0 => decide (x = y)
  | 1 => decide (x ≠ y)
  | 2 => decide (x < y)
  | 3 => decide (x ≤ y)
  | 4 => decide (y < x)
  | _ => decide (y ≤ x)

/-! ### Forms -/

/-- A two-source instruction on 32-bit values read as signed for type 0, unsigned for type 1 (R224). -/
def scalar2 (f : SF) (g : Int → Int → Nat) : Body := onWave fun w =>
  let sg := f.ty == 0
  let x := intVal 32 sg (w.src f.a f.imm).toNat
  let y := intVal 32 sg (w.src f.b f.imm).toNat
  w.setS f.d.toNat (BitVec.ofNat 32 (g x y))

/-- A two-source instruction on bits. -/
def scalarBits (f : SF) (g : Word → Word → Word) : Body := onWave fun w =>
  w.setS f.d.toNat (g (w.src f.a f.imm) (w.src f.b f.imm))

/-- A one-source instruction on bits. -/
def scalar1 (f : SF) (g : Nat → Nat) : Body := onWave fun w =>
  w.setS f.d.toNat (BitVec.ofNat 32 (g (w.src f.a f.imm).toNat))

/-- A two-source instruction on pairs. -/
def scalarPair (f : SF) (g : DWord → DWord → DWord) : Body := onWave fun w =>
  w.setS64 f.d.toNat (g (w.src64 f.a f.imm) (w.src64 f.b f.imm))

/-- NOP (R222). -/
def execNop (f : SF) (s : State) := runInstr (.nop f) (onWave id) s
/-- SADD (R224). -/
def execSadd (f : SF) (s : State) := runInstr (.sadd f) (scalar2 f fun x y => wrapTo 32 (x + y)) s
/-- SSUB (R224). -/
def execSsub (f : SF) (s : State) := runInstr (.ssub f) (scalar2 f fun x y => wrapTo 32 (x - y)) s
/-- SMUL (R224). -/
def execSmul (f : SF) (s : State) := runInstr (.smul f) (scalar2 f fun x y => wrapTo 32 (x * y)) s
/-- SMULH (R224): bits [63:32] of the exact product. -/
def execSmulh (f : SF) (s : State) := runInstr (.smulh f) (scalar2 f fun x y => wrapTo 64 (x * y) / 2 ^ 32) s
/-- SDIV (R181, R224). -/
def execSdiv (f : SF) (s : State) := runInstr (.sdiv f) (scalar2 f (divInt 32)) s
/-- SREM (R181, R224). -/
def execSrem (f : SF) (s : State) := runInstr (.srem f) (scalar2 f (remInt 32)) s
/-- SAND (R224). -/
def execSand (f : SF) (s : State) := runInstr (.sand f) (scalarBits f fun x y => x &&& y) s
/-- SOR (R224). -/
def execSor (f : SF) (s : State) := runInstr (.sor f) (scalarBits f fun x y => x ||| y) s
/-- SXOR (R224). -/
def execSxor (f : SF) (s : State) := runInstr (.sxor f) (scalarBits f fun x y => x ^^^ y) s
/-- SANDN (R224). -/
def execSandn (f : SF) (s : State) := runInstr (.sandn f) (scalarBits f fun x y => x &&& ~~~y) s
/-- SSHL (R224): the amount is taken modulo 32. -/
def execSshl (f : SF) (s : State) := runInstr (.sshl f) (scalarBits f fun x y => x <<< (y.toNat % 32)) s
/-- SSHR (R224). -/
def execSshr (f : SF) (s : State) := runInstr (.sshr f) (scalarBits f fun x y => x >>> (y.toNat % 32)) s
/-- SSHA (R224): copies of bit 31 fill in, whatever the type. -/
def execSsha (f : SF) (s : State) := runInstr (.ssha f) (scalarBits f fun x y => x.sshiftRight (y.toNat % 32)) s
/-- SMIN (R224). -/
def execSmin (f : SF) (s : State) := runInstr (.smin f) (scalar2 f fun x y => wrapTo 32 (min x y)) s
/-- SMAX (R224). -/
def execSmax (f : SF) (s : State) := runInstr (.smax f) (scalar2 f fun x y => wrapTo 32 (max x y)) s

/-- SCMP (R225): 1 or 0 in one 32-bit register; types 2 and 3 compare pairs. -/
def execScmp (f : SF) (s : State) := runInstr (.scmp f) (onWave fun w =>
  let sg := f.ty == 0 || f.ty == 2
  let v := fun (c : BitVec 8) => if f.ty.toNat < 2 then intVal 32 sg (w.src c f.imm).toNat else intVal 64 sg (w.src64 c f.imm).toNat
  w.setS f.d.toNat (if comparePred f.fn.toNat (v f.a) (v f.b) then 1 else 0)) s

/-- SSEL (R226): S[a] when the condition register is nonzero, else S[b]. -/
def execSsel (f : SF) (s : State) := runInstr (.ssel f) (onWave fun w =>
  w.setS f.d.toNat (if w.s (f.imm.toNat % 128) = 0 then w.src f.b else w.src f.a)) s

/-- SMOV (R226): a register, or a pair with type 2. -/
def execSmov (f : SF) (s : State) := runInstr (.smov f) (onWave fun w =>
  if f.ty = 2 then w.setS64 f.d.toNat (w.src64 f.a f.imm) else w.setS f.d.toNat (w.src f.a f.imm)) s

/-- SMOVI (R226): a register, or a pair sign-extended (fn 1) or zero-extended (fn 2). -/
def execSmovi (f : IF) (s : State) := runInstr (.smovi f) (onWave fun w =>
  if f.fn = 0 then w.setS f.d.toNat f.imm
  else if f.fn = 1 then w.setS64 f.d.toNat (f.imm.signExtend 64) else w.setS64 f.d.toNat (f.imm.zeroExtend 64)) s

/-- SBFE (R227). -/
def execSbfe (f : SF) (s : State) := runInstr (.sbfe f) (onWave fun w =>
  w.setS f.d.toNat (BitVec.ofNat 32 (extractField (w.src f.a f.imm).toNat (w.src f.b f.imm).toNat (f.ty == 0)))) s

/-- SBFI (R227): d is also read. -/
def execSbfi (f : SF) (s : State) := runInstr (.sbfi f) (onWave fun w =>
  w.setS f.d.toNat (BitVec.ofNat 32
    (insertField (w.s f.d.toNat).toNat (w.src f.a f.imm).toNat (w.src f.b f.imm).toNat))) s

/-- SLZC (R224). -/
def execSlzc (f : SF) (s : State) := runInstr (.slzc f) (scalar1 f (leadZeros 32)) s
/-- SPOPC (R224). -/
def execSpopc (f : SF) (s : State) := runInstr (.spopc f) (scalar1 f (popCount 32)) s
/-- SFFS (R224). -/
def execSffs (f : SF) (s : State) := runInstr (.sffs f) (scalar1 f (firstSet 32)) s

/-- SADD64 (R228). -/
def execSadd64 (f : SF) (s : State) := runInstr (.sadd64 f) (scalarPair f fun x y => x + y) s
/-- SSUB64 (R228). -/
def execSsub64 (f : SF) (s : State) := runInstr (.ssub64 f) (scalarPair f fun x y => x - y) s

/-- SMAD64 (R228): d:2 += ext(x) × ext(y). -/
def execSmad64 (f : SF) (s : State) := runInstr (.smad64 f) (onWave fun w =>
  let v := fun (c : BitVec 8) => intVal 32 (f.ty == 0) (w.src c f.imm).toNat
  w.setS64 f.d.toNat (BitVec.ofNat 64 (wrapTo 64 ((w.s64 f.d.toNat).toNat + v f.a * v f.b)))) s

/-! ### Floating point -/

/-- A scalar source as a number, 1 or 2 registers. -/
def Wave.srcN (w : Wave) (wide : Bool) (c : BitVec 8) : Nat := if wide then (w.src64 c).toNat else (w.src c).toNat
/-- Writes 1 or 2 registers. -/
def Wave.setN (w : Wave) (wide : Bool) (r x : Nat) : Wave :=
  if wide then w.setS64 r (BitVec.ofNat 64 x) else w.setS r (BitVec.ofNat 32 x)
/-- Does a V2 type occupy a pair? -/
def wideTy (ty : BitVec 4) : Bool := ty == 2 || ty == 3 || ty == 5

/-- SCVT (R229): both types from the V2 codes, rounding in imm24[2:0], sat in imm24[3]; SR steps lane 0's generator. -/
def execScvt (f : SF) (s : State) := runInstr (.scvt f) (onWave fun w =>
  let mode := w.mode (f.imm.toNat % 8)
  let (u, w) := w.draw mode 0
  let x := w.srcN (wideTy f.fn) f.a
  let src := scvtType f.fn.toNat
  let r := convert src (scvtType f.ty.toNat) mode u (f.imm.getLsbD 3) (x % 2 ^ src.width)
  (w.setN (wideTy f.ty) f.d.toNat r.1).raise r.2) s

/-- SFMA (R230): fn 0 a × b + d, 1 a × b, 2 a + b, 3 a − b. -/
def execSfma (f : SF) (s : State) := runInstr (.sfma f) (onWave fun w =>
  let wide := f.ty == 5
  let fmt := if wide then fpF64 else fpF32
  let mode := w.mode (f.imm.toNat % 8)
  let (u, w) := w.draw mode 0
  let a := w.srcN wide f.a
  let b := w.srcN wide f.b
  let r := match f.fn.toNat with
    | 0 => fpFma fmt mode u a b (if wide then (w.s64 f.d.toNat).toNat else (w.s f.d.toNat).toNat)
    | 1 => fpMul fmt mode u a b
    | 2 => fpAdd fmt mode u a b
    | _ => fpSub fmt mode u a b
  (w.setN wide f.d.toNat r.1).raise r.2) s

/-- SFCMP (R231). -/
def execSfcmp (f : SF) (s : State) := runInstr (.sfcmp f) (onWave fun w =>
  let wide := f.ty == 5
  let r := fpCompare (if wide then fpF64 else fpF32) f.fn.toNat (w.srcN wide f.a) (w.srcN wide f.b)
  (w.setS f.d.toNat (if r.1 then 1 else 0)).raise r.2) s

/-! ### Special registers (R211, R232) -/

/-- The value of a special register as a wave reads it. A 1 written to DBGCTL that waits for the next ERET reads as written
(R383). -/
def special (s : State) (w : Wave) (idx : Nat) : DWord :=
  let c := s.cohort w.cohort
  let n := fun (x : Nat) => BitVec.ofNat 64 x
  match idx with
  | 0 => n w.width
  | 1 => n w.k
  | 2 => n w.waveId
  | 3 => n ((c.map (·.cx)).getD 0)
  | 4 => n ((c.map (·.cy)).getD 0)
  | 5 => n ((c.map (·.cz)).getD 0)
  | 6 => n (s.waveDisp w)
  | 7 => n (coreIdOf w.core)
  | 8 => n (dieOf w.core)
  | 9 => s.fabric.pos
  | 10 => s.fabric.shape
  | 11 => n w.execSum
  | 12 => n w.sp.fpstat
  | 13 => n w.sp.fprm
  | 14 => w.sp.rngSeed
  | 15 => n s.clock
  | 16 => n s.ptp
  | 17 => n (s.waveWorld w)
  | 18 => w.sp.apxtab
  | 19 => w.sp.apxstat
  | 20 => w.sp.remerr
  | 21 => w.sp.remtrap
  | 22 => w.tr.tba
  | 23 => w.tr.tpc
  | 24 => w.tr.tcause
  | 25 => w.tr.tinfo0
  | 26 => w.tr.tinfo1
  | _ => w.tr.dbgctl ||| w.tr.dbgNext

/-- GETS (R232): CLOCK and PTPTIME are sampled at issue and delivered late. -/
def execGets (f : SF) (s : State) := runInstr (.gets f) (fun s u w =>
  let idx := f.imm.toNat % 256
  let v := special s w idx
  if idx = 15 ∨ idx = 16 then
    .done (s.setWave u (w.addLate .answer false f.d.toNat 2 3 f.fn.toNat [{ lane := 0, addr := 0, own := [], nocache := true }] [(0, v.toNat)]))
  else if specialRegs idx = 2 then .done (s.setWave u (w.setS64 f.d.toNat v))
  else .done (s.setWave u (w.setS f.d.toNat (v.extractLsb' 0 32)))) s

end Sys2Proof.Machine
end

