-- ==== Sys2Proof/Machine/Mask.lean ====
section
/-! DEFINITION. The mask instructions (R233 to R236). -/

namespace Sys2Proof.Machine

/-- Writes the registers from r on, one after another; EXEC words are masked by LIVE (R159). -/
def Wave.setGroup (w : Wave) (r : Nat) (xs : List Word) : Wave :=
  (xs.zipIdx).foldl (fun w x => w.setS (r + x.2) x.1) w

/-- The k words of a mask group, or of ZERO. -/
def Wave.group_ (w : Wave) (c : BitVec 8) : List Word := (List.range w.k).map (w.maskWord c)

/-- A word-by-word instruction on two groups: every source word is read before any destination is written (R233). -/
def mask2 (f : SF) (g : Word → Word → Word) : Body := onWave fun w =>
  w.setGroup f.d.toNat ((List.range w.k).map fun j => g (w.maskWord f.a j) (w.maskWord f.b j))

/-- A word-by-word instruction on one group. -/
def mask1 (f : SF) (g : Word → Word) : Body := onWave fun w => w.setGroup f.d.toNat ((w.group_ f.a).map g)

/-- The group as one number of W bits. -/
def maskNat (ws : List Word) : Nat := ws.foldr (fun x acc => x.toNat + 2 ^ 32 * acc) 0

/-- MAND (R233). -/
def execMand (f : SF) (s : State) := runInstr (.mand f) (mask2 f fun x y => x &&& y) s
/-- MOR (R233). -/
def execMor (f : SF) (s : State) := runInstr (.mor f) (mask2 f fun x y => x ||| y) s
/-- MXOR (R233). -/
def execMxor (f : SF) (s : State) := runInstr (.mxor f) (mask2 f fun x y => x ^^^ y) s
/-- MANDN (R233). -/
def execMandn (f : SF) (s : State) := runInstr (.mandn f) (mask2 f fun x y => x &&& ~~~y) s
/-- MNOT (R233). -/
def execMnot (f : SF) (s : State) := runInstr (.mnot f) (mask1 f fun x => ~~~x) s
/-- MMOV (R233). -/
def execMmov (f : SF) (s : State) := runInstr (.mmov f) (mask1 f fun x => x) s

/-- MPOPC (R233). -/
def execMpopc (f : SF) (s : State) := runInstr (.mpopc f) (onWave fun w =>
  w.setS f.d.toNat (BitVec.ofNat 32 (popCount w.width (maskNat (w.group_ f.a))))) s

/-- MFFS (R233): W when the group is zero. -/
def execMffs (f : SF) (s : State) := runInstr (.mffs f) (onWave fun w =>
  w.setS f.d.toNat (BitVec.ofNat 32 (firstSet w.width (maskNat (w.group_ f.a))))) s

/-- MSAVE (R235). -/
def execMsave (f : SF) (s : State) := runInstr (.msave f) (onWave fun w =>
  let old := (List.range w.k).map w.execWord
  let c := w.group_ f.a
  (w.setGroup f.d.toNat old).setGroup 96 (old.zipWith (fun x y => x &&& y) c)) s

/-- MELSE (R235). -/
def execMelse (f : SF) (s : State) := runInstr (.melse f) (onWave fun w =>
  w.setGroup 96 ((List.range w.k).map fun j => w.maskWord f.a j &&& ~~~(w.execWord j))) s

/-- MJOIN (R236): EXEC is restored, and the next access waits for the reads before it. -/
def execMjoin (f : SF) (s : State) := runInstr (.mjoin f) (onWave fun w =>
  { w.setGroup 96 (w.group_ f.a) with joined := w.joined || w.late.any (·.accesses) }) s

/-- MLIVE (R233). -/
def execMlive (f : SF) (s : State) := runInstr (.mlive f) (onWave fun w =>
  w.setGroup f.d.toNat ((List.range w.k).map w.liveWord)) s

end Sys2Proof.Machine
end

