-- ==== Sys2Proof/Machine/Control.lean ====
section
/-! DEFINITION. The control instructions (R237 to R243) and the clause header (R194, R386). -/

namespace Sys2Proof.Machine

/-- A transfer to `target`, taken or not: the target must be aligned, canonical and a clause header (R196, R238). A miss in
reading it is a translation of the fetch; a fetch fault there is left to the target's header. -/
def transfer (target : Wave → DWord) (taken : Wave → Bool) (effect : Wave → Wave) : Body := fun s u w =>
  let t := target w
  let go := if taken w then Act.jump (s.setWave u (effect w)) t else .done s
  if t.toNat % 8 ≠ 0 then .trap s trapMisaligned t 0
  else if !canonical t.toNat then waveFault s u w t.toNat 3 3 0 0 true
  else match waveXlate s w t.toNat 3 false with
  | .miss => waveMiss s u w 3 [t.toNat]
  | .fault _ _ => go
  | .firewall => go
  | .ok pa _ => if s.byte (pa + 7) = 0xF8 then go else .trap s trapIllegalClause t w.clause.word

/-- The target of a direct transfer: its address + 8 × offset modulo 2^64 (R198). -/
def directTarget (off : BitVec 32) (w : Wave) : DWord := w.pc + off.signExtend 64 <<< 3

/-- BRA (R237). -/
def execBra (f : CF) (s : State) := runInstr (.bra f) (transfer (directTarget f.off) (fun _ => true) id) s
/-- BRZ (R237). -/
def execBrz (f : CF) (s : State) := runInstr (.brz f) (transfer (directTarget f.off) (fun w => w.src f.a == 0) id) s
/-- BRNZ (R237). -/
def execBrnz (f : CF) (s : State) := runInstr (.brnz f) (transfer (directTarget f.off) (fun w => w.src f.a != 0) id) s
/-- BMZ (R237). -/
def execBmz (f : CF) (s : State) :=
  runInstr (.bmz f) (transfer (directTarget f.off) (fun w => (w.group_ f.a).all (· == 0)) id) s
/-- BMNZ (R237). -/
def execBmnz (f : CF) (s : State) :=
  runInstr (.bmnz f) (transfer (directTarget f.off) (fun w => (w.group_ f.a).any (· != 0)) id) s
/-- BMALL (R237). -/
def execBmall (f : CF) (s : State) :=
  runInstr (.bmall f) (transfer (directTarget f.off) (fun w => (List.range w.k).all fun j => w.maskWord f.a j == w.liveWord j) id) s
/-- CALL (R237): the link is the address of the CALL + 8. -/
def execCall (f : CF) (s : State) :=
  runInstr (.call f) (transfer (directTarget f.off) (fun _ => true) fun w => w.setS64 f.a.toNat (w.pc + 8)) s
/-- RET (R237). -/
def execRet (f : CF) (s : State) := runInstr (.ret f) (transfer (fun w => w.src64 f.a) (fun _ => true) id) s
/-- JMPI (R237). -/
def execJmpi (f : CF) (s : State) :=
  runInstr (.jmpi f) (transfer (fun w => w.src64 f.a + f.off.signExtend 64 <<< 3) (fun _ => true) fun w =>
    if f.b.toNat < 128 then w.setS64 f.b.toNat (w.pc + 8) else w) s

/-- EXIT (R164): the lanes of EXEC leave LIVE; the wave ends when LIVE empties, else EXEC becomes 0. In R439's program lanes then go on
(log 90). -/
def execExit (f : CF) (s : State) := runInstr (.exit f) (fun s u w =>
  if !w.anyExec then .done s
  else
    let live := (List.range w.k).foldl (fun m j => mapPut 0 m j (w.liveWord j &&& ~~~(w.execWord j))) ([] : List (Nat × Word))
    let w := { w with regs := { w.regs with live := live } }
    let w := w.setGroup 96 (List.replicate w.k 0)
    if live.isEmpty then .gone (((s.setWave u w).noteIssue w.core (s.tenantOf w)).endWave u) else .done (s.setWave u w)) s

/-! ### Barriers (R172, R173, R241) -/

/-- Barrier b of a cohort. -/
def Cohort.barrier (c : Cohort) (b : Nat) : Barrier := mapGet { phase := 0, arrived := [] } c.barriers b

/-- Wave `u` arrives at barrier b of its cohort. -/
def State.arrive (s : State) (u cid b : Nat) : State :=
  (s.updCohort cid fun c =>
    let x := c.barrier b
    { c with barriers := mapPut { phase := 0, arrived := [] } c.barriers b { x with arrived := x.arrived ++ [u] } }).barrierCheck cid

/-- The barrier's phase, and whether the wave has arrived in it. -/
def State.barrierOf (s : State) (u cid b : Nat) : Nat × Bool :=
  match s.cohort cid with
  | some c => ((c.barrier b).phase, (c.barrier b).arrived.contains u)
  | none => (0, false)

/-- BAR and BARA (R173, R149): the release half, the arrival (after the current phase, if the wave has arrived in it), and
for BAR the wait and the acquire half. `prog.stage` 1 with the phase in `prog.x` says that the wave has arrived. -/
def barrier (b : Nat) (waits : Bool) : Body := fun s u w =>
  let (phase, here) := s.barrierOf u w.cohort b
  if w.prog.stage = 1 then
    if w.prog.x < phase then .done (s.acquire w.core) else .wait s (.barrier b phase)
  else if here then .wait s (.barrier b phase)
  else
    let (s, ok) := s.predecessors u w true true false
    if !ok then .wait s (.fence 3 0 1)
    else
      let s := s.setWave u { w with prog := { w.prog with stage := 1, x := phase } }
      let s := s.arrive u w.cohort b
      if !waits then .done s
      else if phase < (s.barrierOf u w.cohort b).1 then .done (s.acquire w.core)
      else .wait s (.barrier b phase)

/-- BAR (R173). -/
def execBar (f : CF) (s : State) := runInstr (.bar f) (barrier (f.off.toNat % 16) true) s
/-- BARA (R173). -/
def execBara (f : CF) (s : State) := runInstr (.bara f) (barrier (f.off.toNat % 16) false) s

/-- BARW (R173): waits for the phase in which the wave last arrived, then the acquire half. -/
def execBarw (f : CF) (s : State) := runInstr (.barw f) (fun s u w =>
  let (phase, here) := s.barrierOf u w.cohort (f.off.toNat % 16)
  if here then .wait s (.barrier (f.off.toNat % 16) phase) else .done (s.acquire w.core)) s

/-! ### Waits and traps -/

/-- YIELD (R242): a yield point whose condition is already clear. -/
def execYield (f : CF) (s : State) := runInstr (.yield f) (onWave fun w => { w with wait := .yielded }) s

/-- NAP (R242). -/
def execNap (f : CF) (s : State) := runInstr (.nap f) (fun s u w =>
  let n := (w.src f.a).toNat
  .done (s.setWave u { w with wait := if n = 0 then .yielded else .nap (s.clock + n), waitSince := s.clock })) s

/-- TRAP (R243): SOFTWARE_TRAP after completion. -/
def execTrap (f : CF) (s : State) := runInstr (.trap f) (fun s _ w =>
  .trapAfter s trapSoftware (f.off.zeroExtend 64) ((w.src f.a).zeroExtend 64)) s

/-! ### The clause header -/

/-- CLAUSE_HEADER (R194): the wave reaches a header. A breakpoint, late results and the header's defects come first; then
the clause opens, and with RGN it is the restart point (R386); a header to which a mismatch has sent the wave back stands as its restart point,
with the retry count (R389). A header takes no issue clock (R239). -/
def execClauseHeader (h : HF) (s : State) : Host.Outcome State Fault Refusal :=
  match s.cur with
  | none => .next s
  | some u =>
    match s.wave u with
    | none => .next s
    | some w =>
      match issueGate s u w true with
      | some s => .next s
      | none =>
        let word := (encode (.clauseHeader h)).getD 0
        if 3 < h.cls.toNat ∨ (h.cls = 1 ∧ isTrustCore w.core) then
          .next (trapHere s u w trapIllegalClause word word false)
        else if h.z ≠ 0 then .next (trapHere s u w trapIllegalOperand word 32 false)
        else
          let (words, s) := State.fetchAhead u w (h.count.toNat + 1) (w.pc + 8) s
          let w := { w with
            pc := w.pc + 8, clause := { inside := true, header := w.pc, word := word, left := h.count.toNat + 1, words := words },
            xl := [], xfail := [], tr := { w.tr with bpSkip := false } }
          let w := if h.rgn = 1 ∧ !w.again then w.setRestart (w.pc - 8) Clause.boundary else { w with again := false }
          .next ((s.setWave u w).startClause u w)

end Sys2Proof.Machine
end

