-- ==== Sys2Proof/Machine/VectorInt.lean ====
section
/-! DEFINITION. The integer vector instructions (R244 to R257). -/

namespace Sys2Proof.Machine

/-! ### Elements and lanes -/

/-- Element width, element count and signedness of a V2 type (R181, R202). -/
def elemWidth (ty : BitVec 4) : Nat :=
  if ty = 2 ∨ ty = 3 ∨ ty = 5 then 64 else if ty = 6 ∨ ty = 7 ∨ ty = 8 ∨ ty = 9 then 16 else if ty = 10 ∨ ty = 11 then 8 else 32
def elemCount (ty : BitVec 4) : Nat := if wideTy ty then 1 else 32 / elemWidth ty
def elemSigned (ty : BitVec 4) : Bool := ty == 0 || ty == 2 || ty == 8 || ty == 10

/-- Element e of a value (R181). -/
def elemOf (w x e : Nat) : Nat := x / 2 ^ (w * e) % 2 ^ w

/-- A value from its elements, element 0 lowest. -/
def packElems (w : Nat) (xs : List Nat) : Nat := xs.foldr (fun x acc => x % 2 ^ w + 2 ^ w * acc) 0

/-- Registers of an element of a type. -/
def tyRegs (ty : BitVec 4) : Nat := if wideTy ty then 2 else 1

/-- Writes `n` registers from d on in every active lane; every value was read before (R161, R244). -/
def Wave.setLanes (w : Wave) (d n : Nat) (g : Nat → Nat) : Wave :=
  (w.activeLanes.map fun i => (i, g i)).foldl (fun w r => w.setVs d n r.1 r.2) w

/-- The routed value of source a or b of format V2 in lane i. -/
def srcA (w : Wave) (f : V2F) (i : Nat) : Nat := routeN w (wideTy f.ty) f.a f.ra f.p i
def srcB (w : Wave) (f : V2F) (i : Nat) : Nat := routeN w (wideTy f.ty) f.b f.rb f.p i

/-- An instruction on raw elements of two sources: width, x, y. -/
def vector2 (f : V2F) (g : Nat → Nat → Nat → Nat) : Body := onWave fun w =>
  let n := elemWidth f.ty
  w.setLanes f.d.toNat (tyRegs f.ty) fun i =>
    let x := srcA w f i
    let y := srcB w f i
    packElems n ((List.range (elemCount f.ty)).map fun e => g n (elemOf n x e) (elemOf n y e))

/-- An instruction on the integer values of two sources' elements (R249): the exact result is clamped when sat is 1 and
wraps otherwise (R250). -/
def vectorInt (f : V2F) (g : Int → Int → Int) : Body := vector2 f fun n x y =>
  let sg := elemSigned f.ty
  let r := g (intVal n sg x) (intVal n sg y)
  wrapTo n (if f.sat = 1 then clampTo (intLo n sg) (intHi n sg) r else r)

/-- An instruction on raw elements of one source. -/
def vector1 (f : V2F) (g : Nat → Nat → Nat) : Body := onWave fun w =>
  let n := elemWidth f.ty
  w.setLanes f.d.toNat (tyRegs f.ty) fun i =>
    packElems n ((List.range (elemCount f.ty)).map fun e => g n (elemOf n (srcA w f i) e))

/-! ### Arithmetic, logic, shifts (R249) -/

/-- VADD. -/
def execVadd (f : V2F) (s : State) := runInstr (.vadd f) (vectorInt f fun x y => x + y) s
/-- VSUB. -/
def execVsub (f : V2F) (s : State) := runInstr (.vsub f) (vectorInt f fun x y => x - y) s
/-- VMUL. -/
def execVmul (f : V2F) (s : State) := runInstr (.vmul f) (vectorInt f fun x y => x * y) s
/-- VMULH: the high half of the exact 2w-bit product. -/
def execVmulh (f : V2F) (s : State) := runInstr (.vmulh f) (vector2 f fun n x y =>
  wrapTo (2 * n) (intVal n (elemSigned f.ty) x * intVal n (elemSigned f.ty) y) / 2 ^ n) s
/-- VMIN. -/
def execVmin (f : V2F) (s : State) := runInstr (.vmin f) (vectorInt f min) s
/-- VMAX. -/
def execVmax (f : V2F) (s : State) := runInstr (.vmax f) (vectorInt f max) s
/-- VABSD: the exact absolute difference, stored unsigned. -/
def execVabsd (f : V2F) (s : State) := runInstr (.vabsd f) (vector2 f fun n x y =>
  (intVal n (elemSigned f.ty) x - intVal n (elemSigned f.ty) y).natAbs) s
/-- VAND. -/
def execVand (f : V2F) (s : State) := runInstr (.vand f) (vector2 f fun _ x y => x &&& y) s
/-- VOR. -/
def execVor (f : V2F) (s : State) := runInstr (.vor f) (vector2 f fun _ x y => x ||| y) s
/-- VXOR. -/
def execVxor (f : V2F) (s : State) := runInstr (.vxor f) (vector2 f fun _ x y => x ^^^ y) s
/-- VSHL: the amount is taken modulo the element width. -/
def execVshl (f : V2F) (s : State) := runInstr (.vshl f) (vector2 f fun n x y => x * 2 ^ (y % n)) s
/-- VSHR: zeros fill in. -/
def execVshr (f : V2F) (s : State) := runInstr (.vshr f) (vector2 f fun n x y => x / 2 ^ (y % n)) s
/-- VSHA: copies of the element's top bit fill in, whatever the type's signedness. -/
def execVsha (f : V2F) (s : State) := runInstr (.vsha f) (vector2 f fun n x y =>
  wrapTo n (Int.fdiv (signedOf n x) (2 ^ (y % n) : Nat))) s
/-- VPOPC. -/
def execVpopc (f : V2F) (s : State) := runInstr (.vpopc f) (vector1 f popCount) s
/-- VLZC. -/
def execVlzc (f : V2F) (s : State) := runInstr (.vlzc f) (vector1 f leadZeros) s

/-! ### Three sources (R251) -/

/-- A routed source of format V3. -/
def src3 (w : Wave) (wide : Bool) (f : V3F) (c : BitVec 8) (r : BitVec 3) (i : Nat) : Nat := routeN w wide c r f.p i

/-- A 32-bit instruction on the three routed sources. -/
def vector3 (f : V3F) (g : Nat → Nat → Nat → Nat) : Body := onWave fun w =>
  w.setLanes f.d.toNat 1 fun i => g (src3 w false f f.a f.ra i) (src3 w false f f.b f.rb i) (src3 w false f f.c f.rc i)

/-- VMAD: (a × b + c) mod 2^w. -/
def execVmad (f : V3F) (s : State) := runInstr (.vmad f) (onWave fun w =>
  let wide := f.ty == 2
  w.setLanes f.d.toNat (if wide then 2 else 1) fun i =>
    src3 w wide f f.a f.ra i * src3 w wide f f.b f.rb i + src3 w wide f f.c f.rc i) s

/-- VLOGIC: bit j of d is bit 4a[j] + 2b[j] + c[j] of K. -/
def execVlogic (f : V3F) (s : State) := runInstr (.vlogic f) (fun s u w =>
  vector3 f (fun a b c => packElems 1 ((List.range 32).map fun j =>
    b2n (w.kconst.getLsbD (4 * b2n (bit a j) + 2 * b2n (bit b j) + b2n (bit c j))))) s u w) s

/-- VBFE: sign-extended when bit 15 of the field specification is 1. -/
def execVbfe (f : V3F) (s : State) := runInstr (.vbfe f) (vector3 f fun a _ c => extractField a c (bit c 15)) s

/-- VBFI: the low bits of b inserted into a. -/
def execVbfi (f : V3F) (s : State) := runInstr (.vbfi f) (vector3 f fun a b c => insertField a b c) s

/-! ### Compare, select, move (R252 to R254) -/

/-- The k words of a mask group whose bit i is set in an active lane where `p` holds; every other bit is 0. -/
def laneMask (w : Wave) (p : Nat → Bool) : List Word :=
  (List.range w.k).map fun j => BitVec.ofNat 32 (packElems 1 ((List.range 32).map fun b =>
    b2n (w.active (32 * j + b) && p (32 * j + b))))

/-- VCMP (R252): all k words are written, also when no lane is active. -/
def execVcmp (f : V2F) (s : State) := runInstr (.vcmp f) (onWave fun w =>
  let n := elemWidth f.ty
  let sg := elemSigned f.ty
  w.setGroup f.d.toNat (laneMask w fun i => comparePred f.fn.toNat (intVal n sg (srcA w f i)) (intVal n sg (srcB w f i)))) s

/-- VSEL (R253): the group is read as it stood at issue. -/
def execVsel (f : V3F) (s : State) := runInstr (.vsel f) (onWave fun w =>
  w.setLanes f.d.toNat 1 fun i =>
    if (w.maskWord f.c (i / 32)).getLsbD (i % 32) then src3 w false f f.a f.ra i else src3 w false f f.b f.rb i) s

/-- VMOV (R253): type 0, or pairs with type 2. -/
def execVmov (f : V2F) (s : State) := runInstr (.vmov f) (onWave fun w =>
  w.setLanes f.d.toNat (tyRegs f.ty) fun i => srcA w f i) s

/-- VMOVI (R253). -/
def execVmovi (f : IF) (s : State) := runInstr (.vmovi f) (onWave fun w =>
  if f.fn = 0 then w.setLanes f.d.toNat 1 fun _ => f.imm.toNat
  else if f.fn = 1 then w.setLanes f.d.toNat 2 fun _ => (f.imm.signExtend 64).toNat
  else w.setLanes f.d.toNat 2 fun _ => f.imm.toNat) s

/-- VLANE (R254). -/
def execVlane (f : V2F) (s : State) := runInstr (.vlane f) (onWave fun w =>
  w.setLanes f.d.toNat 1 fun i =>
    if f.fn = 0 then i else if f.fn = 1 then i % 32 else if f.fn = 2 then i / 32 else w.waveId * w.width + i) s

/-- VRAND (R254): each active lane's generator steps once. -/
def execVrand (f : V2F) (s : State) := runInstr (.vrand f) (onWave fun w =>
  w.activeLanes.foldl (fun w i =>
    let x := genStep (w.gen i)
    let w := w.setGen i x
    if f.fn = 0 then w.setVs f.d.toNat 1 i (x >>> 32).toNat else w.setVs f.d.toNat 2 i x.toNat) w) s

/-! ### Reductions and scans (R255, R256) -/

/-- The operators 0 add, 1 min, 2 max, 3 and, 4 or, 5 xor on w-bit values read as signed or unsigned. -/
def reduceOp (op n : Nat) (sg : Bool) (x y : Nat) : Nat :=
  match op with
  | 0 => (x + y) % 2 ^ n
  | 1 => if intVal n sg x ≤ intVal n sg y then x else y
  | 2 => if intVal n sg x ≤ intVal n sg y then y else x
  | 3 => x &&& y
  | 4 => x ||| y
  | _ => x ^^^ y

/-- Identities of the operators (R255). -/
def reduceId (op n : Nat) (sg : Bool) : Nat :=
  match op with
  | 1 => wrapTo n (intHi n sg)
  | 2 => wrapTo n (intLo n sg)
  | 3 => 2 ^ n - 1
  | _ => 0

/-- VRED (R255): the result in S[d], the number of active lanes in S[d+1]. -/
def execVred (f : V2F) (s : State) := runInstr (.vred f) (onWave fun w =>
  let sg := f.ty == 0
  let r := w.activeLanes.foldl (fun acc i => reduceOp f.fn.toNat 32 sg acc (srcA w f i)) (reduceId f.fn.toNat 32 sg)
  (w.setS f.d.toNat (BitVec.ofNat 32 r)).setS (f.d.toNat + 1) (BitVec.ofNat 32 w.activeLanes.length)) s

/-- VSCAN (R256): inclusive, or exclusive with fn[3]. -/
def execVscan (f : V2F) (s : State) := runInstr (.vscan f) (onWave fun w =>
  let n := elemWidth f.ty
  let sg := elemSigned f.ty
  let op := f.fn.toNat % 8
  (w.activeLanes.foldl (fun (r : Wave × Nat) i =>
    let next := reduceOp op n sg r.2 (srcA w f i)
    (r.1.setVs f.d.toNat (tyRegs f.ty) i (if f.fn.toNat / 8 = 1 then r.2 else next), next)) (w, reduceId op n sg)).1) s

/-! ### Bit planes (R191, R257) -/

/-- The plane layout of a block of B codes (R191). -/
def planeBlock (b : Nat) (codes : List Nat) : List Nat :=
  (List.range b).map fun n =>
    let j := 7 - n / (b / 8)
    packElems 1 ((List.range 8).map fun k => b2n (bit (nth 0 codes (n % (b / 8) * 8 + k)) j))

/-- The inverse. -/
def unplaneBlock (b : Nat) (bytes : List Nat) : List Nat :=
  (List.range b).map fun e => packElems 1 ((List.range 8).map fun j =>
    b2n (bit (nth 0 bytes (b / 8 * (7 - j) + e / 8)) (e % 8)))

/-- VPLANE and VUNPLANE on each swept pass: 128 bytes of 32 lanes, in blocks of B. -/
def planes (f : V2F) (g : Nat → List Nat → List Nat) : Body := onWave fun w =>
  let b := 16 * 2 ^ f.fn.toNat
  let pass := fun (j : Nat) =>
    let bytes := (List.range 128).map fun n => elemOf 8 (w.v f.a.toNat (32 * j + n / 4)).toNat (n % 4)
    (List.range (128 / b)).flatMap fun i => g b ((bytes.drop (i * b)).take b)
  let outs := (List.range w.k).map fun j => if w.execWord j = 0 then [] else pass j
  w.setLanes f.d.toNat 1 fun i =>
    packElems 8 ((List.range 4).map fun m => nth 0 (nth [] outs (i / 32)) (i % 32 * 4 + m))

/-- VPLANE (R257). -/
def execVplane (f : V2F) (s : State) := runInstr (.vplane f) (planes f planeBlock) s
/-- VUNPLANE (R257). -/
def execVunplane (f : V2F) (s : State) := runInstr (.vunplane f) (planes f unplaneBlock) s

end Sys2Proof.Machine
end

