-- ==== Sys2Proof/Machine/VectorFp.lean ====
section
/-! DEFINITION. The floating-point, conversion and packing vector instructions (R258 to R264). -/

namespace Sys2Proof.Machine

/-- Format of a floating-point V2 type and of a V3 type2 code (R202, R203). -/
def fpOf (ty : BitVec 4) : FpFmt := if ty = 4 then fpF32 else if ty = 5 then fpF64 else if ty = 6 then fpF16 else fpBf16
def fpOf3 (ty : BitVec 2) : FpFmt := if ty = 0 then fpF32 else if ty = 1 then fpF64 else if ty = 2 then fpF16 else fpBf16

/-- The elements of one lane under a mode: each element draws from the lane's generator in ascending order (R186). -/
def roundElems (mode lane : Nat) (w : Wave) (gs : List (Nat → FpRes)) : Wave × List Nat × Nat :=
  gs.foldl (fun (r : Wave × List Nat × Nat) g =>
    let (u, w) := r.1.draw mode lane
    let x := g u
    (w, r.2.1 ++ [x.1], r.2.2 ||| x.2)) (w, [], 0)

/-- The results of every active lane, each `n`-bit element rounded under a mode: the wave with its generators and flags, and
the value of each lane. `gs` reads the registers as they stood. -/
def roundLanes (mode n : Nat) (gs : Nat → List (Nat → FpRes)) (w : Wave) : Wave × List (Nat × Nat) :=
  w.activeLanes.foldl (fun (r : Wave × List (Nat × Nat)) i =>
    let (w, xs, fl) := roundElems mode i r.1 (gs i)
    (w.raise fl, r.2 ++ [(i, packElems n xs)])) (w, [])

/-- Writes lane values to `n` registers from d on. -/
def Wave.putLanes (w : Wave) (d n : Nat) (vals : List (Nat × Nat)) : Wave := vals.foldl (fun w r => w.setVs d n r.1 r.2) w

/-- A floating-point instruction of format V2 on elements of the sources. -/
def vectorFp (f : V2F) (g : FpFmt → Nat → Nat → Nat → Nat → FpRes) (w : Wave) : Wave × List (Nat × Nat) :=
  let mode := w.mode f.rnd.toNat
  let fmt := fpOf f.ty
  let n := fmt.width
  roundLanes mode n (fun i => (List.range (elemCount f.ty)).map fun e u =>
    g fmt mode u (elemOf n (srcA w f i) e) (elemOf n (srcB w f i) e)) w

/-- The instruction writes at once. -/
def vectorFpNow (f : V2F) (g : FpFmt → Nat → Nat → Nat → Nat → FpRes) : Body := onWave fun w =>
  let (w', vals) := vectorFp f g w
  w'.putLanes f.d.toNat (tyRegs f.ty) vals

/-- The instruction writes late (R169): with no active lane nothing becomes pending. Its flags count from its issue
(R232; log 17). -/
def vectorFpLate (f : V2F) (g : FpFmt → Nat → Nat → Nat → Nat → FpRes) : Body := onWave fun w =>
  let (w', vals) := vectorFp f g w
  if vals.isEmpty then w'
  else w'.addLate .value true f.d.toNat (tyRegs f.ty) 0 f.la.toNat (vals.map fun v => { lane := v.1, addr := 0, own := [], nocache := true }) vals

/-- VFADD (R258). -/
def execVfadd (f : V2F) (s : State) := runInstr (.vfadd f) (vectorFpNow f fpAdd) s
/-- VFSUB (R258). -/
def execVfsub (f : V2F) (s : State) := runInstr (.vfsub f) (vectorFpNow f fpSub) s
/-- VFMUL (R258). -/
def execVfmul (f : V2F) (s : State) := runInstr (.vfmul f) (vectorFpNow f fpMul) s
/-- VFMIN (R259). -/
def execVfmin (f : V2F) (s : State) := runInstr (.vfmin f) (vectorFpNow f fun fmt _ _ x y => fpMinMax fmt false x y) s
/-- VFMAX (R259). -/
def execVfmax (f : V2F) (s : State) := runInstr (.vfmax f) (vectorFpNow f fun fmt _ _ x y => fpMinMax fmt true x y) s
/-- VFDIV (R258). -/
def execVfdiv (f : V2F) (s : State) := runInstr (.vfdiv f) (vectorFpLate f fpDiv) s
/-- VFSQRT (R258). -/
def execVfsqrt (f : V2F) (s : State) := runInstr (.vfsqrt f) (vectorFpLate f fun fmt mode u x _ => fpSqrt fmt mode u x) s

/-- VFMA (R258): the product and sum rounded once. -/
def execVfma (f : V3F) (s : State) := runInstr (.vfma f) (onWave fun w =>
  let mode := w.mode f.rnd.toNat
  let fmt := fpOf3 f.ty
  let wide := f.ty == 1
  let n := fmt.width
  let (w', vals) := roundLanes mode n (fun i => (List.range (if 32 ≤ n then 1 else 2)).map fun e u =>
    fpFma fmt mode u (elemOf n (src3 w wide f f.a f.ra i) e) (elemOf n (src3 w wide f f.b f.rb i) e)
      (elemOf n (src3 w wide f f.c f.rc i) e)) w
  w'.putLanes f.d.toNat (if wide then 2 else 1) vals) s

/-- VFDOT2 (R258): a.lo × b.lo + a.hi × b.hi + c, exact under the special values of R193, rounded once to f32. -/
def execVfdot2 (f : V3F) (s : State) := runInstr (.vfdot2 f) (onWave fun w =>
  let mode := w.mode f.rnd.toNat
  let fmt := fpOf3 f.ty
  let (w', vals) := roundLanes mode 32 (fun i =>
    let a := src3 w false f f.a f.ra i
    let b := src3 w false f f.b f.rb i
    let el := fun (x e : Nat) => fpDecode fmt (elemOf 16 x e)
    [fun u => exactSum fpF32 mode u (fpDecode fpF32 (src3 w false f f.c f.rc i)) [(el a 0, el b 0), (el a 1, el b 1)] false]) w
  w'.putLanes f.d.toNat 1 vals) s

/-- VFCMP (R260): a mask group as VCMP writes it, with the flags of R231 from active lanes. -/
def execVfcmp (f : V2F) (s : State) := runInstr (.vfcmp f) (onWave fun w =>
  let cmp := fun (i : Nat) => fpCompare (fpOf f.ty) f.fn.toNat (srcA w f i) (srcB w f i)
  (w.setGroup f.d.toNat (laneMask w fun i => (cmp i).1)).raise (w.activeLanes.foldl (fun fl i => fl ||| (cmp i).2) 0)) s

/-- VFCLASS (R260): the class mask of each element. -/
def execVfclass (f : V2F) (s : State) := runInstr (.vfclass f) (onWave fun w =>
  let fmt := fpOf f.ty
  let n := fmt.width
  w.setLanes f.d.toNat (tyRegs f.ty) fun i =>
    packElems n ((List.range (elemCount f.ty)).map fun e => fpClass fmt (elemOf n (srcA w f i) e))) s

/-! ### Special functions (R261) -/

/-- A special function by its number in `Config.special`. -/
def specialFn (fn : Nat) (f : V2F) : Body := vectorFpLate f fun fmt _ _ x _ => fpSpecial fmt fn x

/-- VFRCP (R261). -/
def execVfrcp (f : V2F) (s : State) := runInstr (.vfrcp f) (specialFn 0 f) s
/-- VFRSQ (R261). -/
def execVfrsq (f : V2F) (s : State) := runInstr (.vfrsq f) (specialFn 1 f) s
/-- VFEXP2 (R261). -/
def execVfexp2 (f : V2F) (s : State) := runInstr (.vfexp2 f) (specialFn 2 f) s
/-- VFLOG2 (R261). -/
def execVflog2 (f : V2F) (s : State) := runInstr (.vflog2 f) (specialFn 3 f) s
/-- VFSIN (R261). -/
def execVfsin (f : V2F) (s : State) := runInstr (.vfsin f) (specialFn 4 f) s
/-- VFCOS (R261). -/
def execVfcos (f : V2F) (s : State) := runInstr (.vfcos f) (specialFn 5 f) s
/-- VFTANH (R261). -/
def execVftanh (f : V2F) (s : State) := runInstr (.vftanh f) (specialFn 6 f) s

/-! ### Conversion and packing (R262, R263) -/

/-- VCVT (R262): the source format in fn, the target in the type field. -/
def execVcvt (f : V2F) (s : State) := runInstr (.vcvt f) (onWave fun w =>
  let mode := w.mode f.rnd.toNat
  let src := cvtType f.fn.toNat
  let dst := cvtType f.ty.toNat
  let (w', vals) := roundLanes mode 64 (fun i =>
    [fun u => convert src dst mode u (f.sat == 1) (routeN w (f.fn == 0) f.a f.ra f.p i % 2 ^ src.width)]) w
  w'.putLanes f.d.toNat (if f.ty = 0 then 2 else 1) vals) s

/-- VPACK (R263): halves, or two bytes into the low or high half, the other half of d kept. -/
def execVpack (f : V2F) (s : State) := runInstr (.vpack f) (onWave fun w =>
  w.setLanes f.d.toNat 1 fun i =>
    let a := (route32 w f.a f.ra f.p i).toNat
    let b := (route32 w f.b f.rb f.p i).toNat
    let d := (w.v f.d.toNat i).toNat
    let two := a % 256 + 256 * (b % 256)
    if f.fn = 0 then a % 65536 + 65536 * (b % 65536)
    else if f.fn = 1 then d / 65536 * 65536 + two else 65536 * two + d % 65536) s

/-- VUNPK (R263): half or byte of the source, zero-extended. -/
def execVunpk (f : V2F) (s : State) := runInstr (.vunpk f) (onWave fun w =>
  w.setLanes f.d.toNat 1 fun i =>
    let a := (route32 w f.a f.ra f.p i).toNat
    if f.fn.toNat < 2 then elemOf 16 a f.fn.toNat else elemOf 8 a (f.fn.toNat - 2)) s

/-! ### Floating-point reduction (R264) -/

/-- One level of the tree from left to right: neighbours are combined; an empty node gives the other one exactly. The wave
carries the generator and the flags. -/
def combinePairs (g : Wave → Nat → Nat → Wave × Nat) : Wave → List (Option Nat) → Wave × List (Option Nat)
  | w, some x :: some y :: r =>
    let (w, z) := g w x y
    let (w, t) := combinePairs g w r
    (w, some z :: t)
  | w, none :: y :: r =>
    let (w, t) := combinePairs g w r
    (w, y :: t)
  | w, some x :: none :: r =>
    let (w, t) := combinePairs g w r
    (w, some x :: t)
  | w, l => (w, l)

/-- All levels. -/
def combineTree (g : Wave → Nat → Nat → Wave × Nat) : Nat → Wave → List (Option Nat) → Wave × Option Nat
  | 0, w, l => (w, (l.head?).getD none)
  | m + 1, w, l =>
    let (w, l) := combinePairs g w l
    combineTree g m w l

/-- VFRED (R264): a fixed tree over 2^m leaves, m = ceil(log2 W). When DYN selects SR, each combination rounds with lane 0's
generator (log 18). -/
def execVfred (f : V2F) (s : State) := runInstr (.vfred f) (onWave fun w =>
  let mode := w.mode f.rnd.toNat
  let fmt := fpOf f.ty
  let m := Nat.log2 (w.width - 1) + 1
  let leaves := (List.range (2 ^ m)).map fun i => if i < w.width ∧ w.active i then some (srcA w f i) else none
  let g := fun (w : Wave) (x y : Nat) =>
    if f.fn = 0 then
      let (u, w) := w.draw mode 0
      let r := fpAdd fmt mode u x y
      (w.raise r.2, r.1)
    else
      let r := fpMinMax fmt (f.fn == 2) x y
      (w.raise r.2, r.1)
  let n := BitVec.ofNat 32 w.activeLanes.length
  let (w, r) := combineTree g m w leaves
  let identity := if f.fn = 0 then 0 else fmt.signed (f.fn == 2) (fmt.inf.getD 0)
  let r := r.getD identity
  let d := f.d.toNat
  if f.ty = 5 then ((w.setS64 d (BitVec.ofNat 64 r)).setS (d + 2) n).setS (d + 3) 0
  else (w.setS d (BitVec.ofNat 32 r)).setS (d + 1) n) s

end Sys2Proof.Machine
end

