-- ==== Sys2Proof/Machine/Memory.lean ====
section
/-! DEFINITION. Loads, stores and atomics of waves (R22 to R25, R50 to R60, R72 to R90, R132, R199, R265 to R271), but for the
scalar accesses to registers, which MemIo.lean adds. -/

namespace Sys2Proof.Machine

/-! ### Addresses (R199) -/

/-- Bytes of an element by size code. -/
def sizeBytes (size : Nat) : Nat :=
  match size with
  | 0 => 1
  | 1 => 2
  | 2 => 4
  | 3 => 8
  | 4 => 16
  | 5 => 1
  | _ => 2

/-- The loaded value of a size code: sizes 5 and 6 are sign-extended to 32 bits. -/
def extendLoad (size v : Nat) : Nat :=
  if size = 5 then wrapTo 32 (signedOf 8 v) else if size = 6 then wrapTo 32 (signedOf 16 v) else v

/-- The base of a memory operand: a pair, or 0 for ZERO. -/
def Wave.base (w : Wave) (c : BitVec 8) : Nat := if c.toNat < 128 then (w.s64 c.toNat).toNat else 0

/-- The address of a lane: base + offset × e + displacement modulo 2^64. -/
def laneAddr (w : Wave) (f : MF) (lane : Nat) : Nat :=
  let off : Int := if f.hasOff = 1 then (w.v f.off.toNat lane).toInt else 0
  wrapTo 64 (w.base f.base + off * sizeBytes f.size.toNat + f.disp.toInt)

/-- The lanes of a vector access with their addresses, and the one access of a scalar one (R266). -/
def vectorLanes (w : Wave) (f : MF) : List (Nat × Nat) := w.activeLanes.map fun i => (i, laneAddr w f i)
def scalarLane (w : Wave) (f : MF) : List (Nat × Nat) := if w.anyExec then [(0, laneAddr w { f with hasOff := 0 } 0)] else []

/-! ### Checks (R24) -/

/-- A lane's access after its checks. -/
structure Acc where
  lane : Nat
  va : Nat
  pa : Nat
  tr : Tr
deriving DecidableEq, Repr

/-- The outcome of the checks of R24: every lane passes; the instruction cannot go on (`act`); or a fault that a commit
group turns into status 3 (`bad`). -/
inductive Checked where
  | ok (l : List Acc)
  | act (a : Act)
  | bad (a : Act)

/-- TINFO1 that names a lane. -/
def laneInfo (lane : Nat) : DWord := BitVec.ofNat 64 (2 ^ 16 * lane)

/-- One address of each page. -/
def onePerPage : List Nat → List Nat
  | [] => []
  | a :: l => let r := onePerPage l
    if r.any fun b => b / 65536 == a / 65536 then r else a :: r

/-- Translation of lanes in turn: what each gives. -/
def xlateLanes (s : State) (w : Wave) (access : Nat) (io : Bool) (lanes : List (Nat × Nat)) : List (Nat × Nat × WaveXlate) :=
  lanes.map fun l => (l.1, l.2, waveXlate s w l.2 access io)

/-- The checks of R24 in their order: alignment, canonical form, translation and permission, firewall. Within a step the
lowest lane is reported; a miss is resolved before any fault is (R25). -/
def checkGlobal (s : State) (u : Nat) (w : Wave) (access : Nat) (io : Bool) (align : Nat) (lanes : List (Nat × Nat)) : Checked :=
  match lanes.find? fun l => l.2 % align != 0 with
  | some l => .act (.trap s trapMisaligned (BitVec.ofNat 64 l.2) (laneInfo l.1))
  | none =>
    match lanes.find? fun l => !canonical l.2 with
    | some l => .bad (waveFault s u w l.2 3 access 0 l.1 false)
    | none =>
      let xs := xlateLanes s w access io lanes
      let missing := xs.filterMap fun x => if x.2.2 = .miss then some x.2.1 else none
      if !missing.isEmpty then .act (waveMiss s u w access (onePerPage missing))
      else
        match xs.findSome? fun x => match x.2.2 with
            | .fault k l => some (x.1, x.2.1, k, l)
            | _ => none with
        | some (lane, va, k, l) => .bad (waveFault s u w va k access l lane false)
        | none =>
          match xs.find? fun x => x.2.2 = .firewall with
          | some x => .bad (.trap s trapFirewall (BitVec.ofNat 64 x.2.1) (laneInfo x.1))
          | none => .ok (xs.filterMap fun x => match x.2.2 with
              | .ok pa t => some { lane := x.1, va := x.2.1, pa := pa, tr := t }
              | _ => none)

/-- POISON_CONSUMED for an access that meets a poisoned sector (R80): TINFO1 names the data register and the lane. -/
def poisonTrap (s : State) (w : Wave) (i : Instr) (vec : Bool) (reg lane : Nat) : Act :=
  .trap s trapPoison ((encode i).getD 0) (BitVec.ofNat 64 (w.skey reg % 128 * b2n (!vec) + reg * b2n vec + 256 * b2n vec + 2 ^ 16 * lane))

/-! ### Scratchpad (R54 to R60) -/

/-- Does a byte range of the scratchpad lie in the allocation and in no FIFO segment (R54, R63)? -/
def Cohort.scratchOk (c : Cohort) (a n : Nat) : Bool :=
  decide (a + n ≤ c.scratchSize) && c.fifoSegs.all fun g => !overlaps a n g 131072

/-- The scratch stores that are still unseen once bytes that satisfy `p` have been observed: a store that is seen has been performed, and
with it every earlier one of its wave (R130, R135). -/
def unseenAfter (p : Unfenced → Bool) : List Unfenced → List Unfenced
  | [] => []
  | x :: l => if (x :: l).any fun y => y.wave == x.wave && p y then unseenAfter p l else x :: unseenAfter p l

/-- Bytes of the scratchpad have been read as they stand, by wave `u` if a wave has read them: what it stored itself it would see anyway. -/
def Cohort.seen (c : Cohort) (u : Option Nat) (a n : Nat) : Cohort :=
  { c with unfenced := unseenAfter (fun x => u != some x.wave && decide (a ≤ x.addr) && decide (x.addr < a + n)) c.unfenced }

/-- Bytes and values of the scratchpad. -/
def Cohort.scratchBytes (c : Cohort) (a n : Nat) : List Byte := (List.range n).map fun i => mapGet 0 c.scratch (a + i)
def Cohort.scratchRead (c : Cohort) (a n : Nat) : Nat := leNat (c.scratchBytes a n)
def Cohort.scratchWrite (c : Cohort) (a : Nat) (bs : List Byte) : Cohort :=
  { c with scratch := (bs.zipIdx).foldl (fun m b => mapPut 0 m (a + b.2) b.1) c.scratch,
           spoiled := c.spoiled.filter fun k => !(decide (a ≤ 4 * k) && decide (4 * k + 4 ≤ a + bs.length)),
           unfenced := unseenAfter (fun x => decide (a ≤ x.addr) && decide (x.addr < a + bs.length)) c.unfenced }

/-- Does a range meet a word that a matrix command marked poisoned (R301; log 24)? -/
def Cohort.scratchSpoiled (c : Cohort) (a n : Nat) : Bool := c.spoiled.any fun k => overlaps a n (4 * k) 4

/-- A store of wave `u`, its lanes in ascending order, so that the highest wins a byte (R132). Until another agent has seen it, or a FENCE
with W ahead of X, a command of the wave may still read what the instruction replaced (R144, R302). -/
def Cohort.scratchStore (c : Cohort) (u : Nat) (ws : List (Nat × List Byte)) : Cohort :=
  let c' := ws.foldl (fun c x => c.scratchWrite x.1 x.2) c
  let addrs := (ws.flatMap fun x => (List.range x.2.length).map (x.1 + ·)).eraseDups
  let num := (c.unfenced.map (·.num)).foldl max 0 + 1
  { c' with unfenced := (c'.unfenced.filter fun x => x.wave != u) ++ (c.unfenced.filter fun x => x.wave == u) ++ addrs.map fun a =>
      { wave := u, num := num, addr := a, old := mapGet 0 c.scratch a, bad := c.scratchSpoiled a 1 } }

/-- What command `cmd` of wave `u` reads of a byte of the scratchpad, whether it is poisoned, and the cohort then: what stands there, or
what an unseen store of the wave replaced (R144, R302; log 80). Stores that the byte shows have been performed. -/
def Cohort.engineByte (c : Cohort) (u : Option Nat) (cmd a : Nat) : Byte × Bool × Cohort :=
  match (c.unfenced.filter fun x => u == some x.wave && x.addr == a)[Config.scratchSeen cmd a]? with
  | some x => (x.old, x.bad, { c with unfenced := unseenAfter (fun y => y.addr == a && decide (y.num < x.num)) c.unfenced })
  | none => (mapGet 0 c.scratch a, c.scratchSpoiled a 1, c.seen none a 1)

/-- Bytes of the scratchpad that command `cmd` of wave `u` reads, each with whether it is poisoned, and the cohort then. -/
def Cohort.engineRead (c : Cohort) (u : Option Nat) (cmd a n : Nat) : List (Byte × Bool) × Cohort :=
  (List.range n).foldl (fun r i =>
    let x := r.2.engineByte u cmd (a + i)
    (r.1 ++ [(x.1, x.2.1)], x.2.2)) ([], c)

/-- The aligned units of `k` bytes that a byte range touches, by number. -/
def unitsOf (k a n : Nat) : List Nat := if n = 0 then [] else (List.range ((a + n - 1) / k + 1 - a / k)).map (a / k + ·)

/-- The scratch lines that a byte range touches. -/
def linesOf (a n : Nat) : List Nat := unitsOf 128 a n

/-- The trap of a scratch read that meets a failed line: the staging's fault (R42). -/
def failedTrap (t : TrFault) (lane : Nat) : TrapInfo :=
  (kindTrap t.kind, BitVec.ofNat 64 t.va, BitVec.ofNat 64 (kindCode t.kind + 2 ^ 8 * t.access + 2 ^ 16 * lane))

/-- The checks of a scratch access: alignment, then range (R24, R54). An access after an SPMARK of its wave waits until the last line of
that has changed (R275). -/
def checkPlace (s : State) (u : Nat) (c : Cohort) (lanes : List (Nat × Nat)) (e : Nat) : Option Act :=
  match lanes.find? fun l => l.2 % e != 0 with
  | some l => some (.trap s trapMisaligned (BitVec.ofNat 64 l.2) (laneInfo l.1))
  | none =>
    match lanes.find? fun l => !c.scratchOk l.2 e with
    | some l => some (.trap s trapScratchRange (BitVec.ofNat 64 l.2) (laneInfo l.1))
    | none =>
      if c.marking.any fun m => m.wave == u then some (.wait s .retry) else none

/-- The first lane whose scratch line staging has failed, with the trap of a read there (R42). -/
def Cohort.failedLane (c : Cohort) (lanes : List (Nat × Nat)) : Option TrapInfo :=
  lanes.findSome? fun l => (mapFind c.failed (l.2 / 128)).map fun t => failedTrap t l.1

/-- The same for an access that reads: a failed line (R42), then EMPTY lines (R59). -/
def checkScratch (s : State) (u : Nat) (c : Cohort) (lanes : List (Nat × Nat)) (e : Nat) (reads : Bool) : Option Act :=
  match checkPlace s u c lanes e with
  | some a => some a
  | none =>
    if !reads then none
    else match c.failedLane lanes with
      | some x => some (.trap s x.1 x.2.1 x.2.2)
      | none =>
        let lines := ((lanes.map fun l => l.2 / 128).filter c.empty.contains).eraseDups
        if lines.isEmpty then none else some (.wait s (.scratchLine lines))

/-! ### Store buffer (R51, R52) -/

/-- Bytes of the wave's own entries in a range, by offset. -/
def State.ownBytes (s : State) (core u pa n : Nat) : List (Nat × Byte) :=
  ((s.core core).sb.filter fun e => e.wave == u && overlaps pa n (e.sector * 16) 16).flatMap fun e =>
    e.bytes.filterMap fun b => if pa ≤ e.sector * 16 + b.1 ∧ e.sector * 16 + b.1 < pa + n then some (e.sector * 16 + b.1 - pa, b.2) else none

/-- Lays captured bytes over bytes read. -/
def overlay (bs : List Byte) (own : List (Nat × Byte)) : List Byte := own.foldl (fun bs o => bs.set o.1 o.2) bs

/-- An entry of another wave of the core overlaps a range (R52). -/
def State.othersBytes (s : State) (core u pa n : Nat) : Bool :=
  (s.core core).sb.any fun e => e.wave != u && overlaps pa n (e.sector * 16) 16

/-- Drains what may drain of the entries that overlap a range, the wave's own or those of others. -/
def State.drainRange (s : State) (core pa n : Nat) : State :=
  ((s.core core).sb.filter fun e => overlaps pa n (e.sector * 16) 16).foldl
    (fun s e => if s.canDrain e then s.performEntry core e else s) s

/-- A wave's group as the state has it: writes performed since the wave was read may have broken its watches (R87). -/
def State.groupOf (s : State) (u : Nat) (w : Wave) : Option Group := ((s.wave u).map (·.group)).getD w.group
def State.regroup (s : State) (u : Nat) (w : Wave) : Wave := { w with group := s.groupOf u w }

/-- Bytes that one instruction stores, by sector: later lanes replace earlier ones (R132). -/
def gatherSectors (stores : List (Acc × List Byte)) : List (Nat × Acc × List (Nat × Byte)) :=
  stores.foldl (fun m st =>
    (st.2.zipIdx).foldl (fun (m : List (Nat × Acc × List (Nat × Byte))) b =>
      let a := st.1.pa + b.2
      let cur := (mapFind m (a / 16)).getD (st.1, [])
      mapInsert m (a / 16) (st.1, mapInsert cur.2 (a % 16) b.1)) m) []

/-- The entries that the gathered sectors of a store will make. -/
def State.entriesOf (s : State) (u : Nat) (w : Wave) (stores : List (Acc × List Byte)) : List SbEntry :=
  (gatherSectors stores).map fun x =>
    { id := 0, wave := u, sector := x.1, bytes := x.2.2, merged := 0, afterSeq := w.lateSeq, asid := s.waveAsid w,
      page := fld x.2.1.va 56 16, world := s.waveWorld w, cow := x.2.1.tr.cow, large := x.2.1.tr.large }

/-! ### Loads -/

/-- Pages that an L1 may hold: neither future nor I/O pages (R50), and none of host memory, under CXL either (a choice, log 86). -/
def Tr.cacheable (t : Tr) : Bool := !t.fut && !t.io && !isHost t.base

/-- The ways of a core's L1: its CACHE segments (R50), but for one that is being converted, which takes no more lines (R48). -/
def State.ways (s : State) (core : Nat) : List Nat :=
  (List.range (if isTrustCore core then 2 else 16)).filter fun g =>
    let x := mapGet Segment.reset (s.core core).segs g
    x.role == .cache && x.next.isNone

/-- The way that takes a line (R50): the one that holds it, one that is free in the line's set of 2,048, or the one filled least
recently (replacement order is not architectural). -/
def Core.wayFor (c : Core) (ways : List Nat) (world line : Nat) : Option Nat :=
  let set := c.l1.filter fun x => x.sector / 4 % 2048 == line % 2048
  ((set.find? fun x => x.sector / 4 == line && x.world == world && ways.contains x.way).map (·.way)).orElse fun _ =>
    (ways.find? fun g => !set.any fun x => x.way == g).orElse fun _ =>
      ((set.filter fun x => ways.contains x.way).foldl (fun (m : Option L1Sector) x => match m with
        | some y => some (if x.filled < y.filled then x else y)
        | none => some x) none).map (·.way)

/-- Adds a sector to a core's L1 (R50), unless no segment is a way or a store that the core still holds overlaps it (R51). The line
that held the way in its set leaves. -/
def State.fillL1 (s : State) (core world sector : Nat) : State :=
  if (s.core core).sb.any fun e => e.sector == sector then s else
  match (s.core core).wayFor (s.ways core) world (sector / 4) with
  | none => s
  | some g =>
    let (id, s) := s.fresh
    let x : L1Sector := { id := id, sector := sector, world := world, bytes := s.bytes (sector * 16) 16, filled := s.clock, way := g }
    let stays := fun (y : L1Sector) => y.sector != sector &&
      !(y.way == g && y.sector / 4 % 2048 == sector / 4 % 2048 && !(y.sector / 4 == sector / 4 && y.world == world))
    s.updCore core fun c => { c with l1 := x :: c.l1.filter stays }

/-- Host memory over PCIe is reached at the link in issue order (R74). -/
def State.atLink (s : State) (pa : Nat) : Bool := isHost pa && !s.power.cxl

/-- The pages of a load, and those of them that a large page maps (R36). -/
def loadPages (accs : List Acc) : List Nat := (accs.map fun a => fld a.va 56 16).eraseDups
def loadLarge (accs : List Acc) : List Nat := ((accs.filter fun a => a.tr.large).map fun a => fld a.va 56 16).eraseDups

/-- The store-buffer entries of the core's other waves that a load meets as it issues: it waits until these have drained (R52). -/
def State.othersEntries (s : State) (core u pa : Nat) : List Nat :=
  ((s.core core).sb.filter fun e => e.wave != u && e.sector == pa / 16).map (·.id)

/-- A pending load of global memory: lanes at the link are read now, the others when they land. -/
def loadLate (s : State) (u : Nat) (w : Wave) (accs : List Acc) (i : Instr) (vec : Bool) (reg nregs size la : Nat) : Wave :=
  let e := sizeBytes size
  let lanes := accs.map fun a => ({ lane := a.lane, addr := a.pa, own := s.ownBytes w.core u a.pa e, nocache := !a.tr.cacheable,
                                    after := s.othersEntries w.core u a.pa, va := a.va } : LaneAcc)
  let vals := accs.filterMap fun a => if s.atLink a.pa then some (a.lane, extendLoad size (s.read a.pa e)) else none
  w.addLate .global vec reg nregs size la lanes vals (s.waveAsid w) (loadPages accs) (loadLarge accs) (s.core w.core).acquires
    ((encode i).getD 0) w.group.isSome

/-- An earlier read of the wave that has not been performed overlaps the sector of a lane (R135). -/
def Wave.earlierRead (w : Wave) (seq sector : Nat) : Bool :=
  w.late.any fun l => decide (l.seq < seq) && (l.kind == .global || l.kind == .future) &&
    l.lanes.any fun a => a.addr / 16 == sector && !l.vals.any fun v => v.1 == a.lane

/-- The bytes of a group over a range, by offset. -/
def Group.over (g : Group) (pa n : Nat) : List (Nat × Byte) :=
  if g.doom ≠ 0 then [] else g.bytes.filterMap fun b => if pa ≤ b.1 ∧ b.1 < pa + n then some (b.1 - pa, b.2) else none

/-- The bytes that a wave reads at their home slices as it issues (R52, R86): none yet while another wave's entry, a hold, or an earlier
read of the wave (R135) stands before one of them. The L1 keeps no older copy of them, so that no later load meets one. -/
def State.readNow (s : State) (u : Nat) (w : Wave) (xs : List (Acc × Nat)) : State × Option (List (Acc × List Byte)) :=
  let s := xs.foldl (fun s x => if s.othersBytes w.core u x.1.pa x.2 then s.drainRange w.core x.1.pa x.2 else s) s
  let early := fun (pa n : Nat) => (unitsOf 16 pa n).any fun k => w.earlierRead (w.lateSeq + 1) k
  if xs.any fun x => s.othersBytes w.core u x.1.pa x.2 || s.readHeld x.1.pa x.2 (some u) || early x.1.pa x.2 then (s, none)
  else
    let s := xs.foldl (fun s x => s.dropL1 w.core x.1.pa x.2) s
    let g := s.groupOf u w
    (s, some (xs.map fun x =>
      (x.1, overlay (s.bytes x.1.pa x.2) (s.ownBytes w.core u x.1.pa x.2 ++ (g.map fun g => g.over x.1.pa x.2).getD []))))

/-- The watch entries in use at a slice (R87): those of groups that nothing has doomed. -/
def State.watchesAt (s : State) (die slice : Nat) : Nat :=
  (s.waves.map fun x => match x.2.group with
    | some g => if g.doom = 0 then g.reads.countP fun r => homeDie (r.1 * 64) == die && homeSlice (r.1 * 64) == slice else 0
    | none => 0).sum

/-- Can a group watch more lines: eight in all, and 1,024 at a slice (R86, R87)? -/
def State.canWatch (s : State) (g : Group) (new : List Nat) : Bool :=
  decide (g.reads.length + new.length ≤ 8) && new.all fun l =>
    let d := homeDie (l * 64)
    let k := homeSlice (l * 64)
    decide (s.watchesAt d k + (new.countP fun m => homeDie (m * 64) == d && homeSlice (m * 64) == k) ≤ 1024)

/-- The lines of accesses, each with its bytes, that a group does not watch yet. -/
def Group.newLines (g : Group) (xs : List (Acc × Nat)) : List Nat :=
  (xs.flatMap fun x => unitsOf 64 x.1.pa x.2).eraseDups.filter fun l => !g.reads.any fun r => r.1 == l

/-- A wave's group watches more lines. -/
def Wave.watch (w : Wave) (new : List Nat) : Wave :=
  { w with group := w.group.map fun g => { g with reads := g.reads ++ new.map fun l => (l, false) } }

/-- A load inside an open, undoomed group (R86, R90): its lines are watched from now, its bytes are read now, with the
group's own bytes over them. Where the lines cannot be watched the group is doomed, and the load is then a plain one. -/
def loadInGroup (s : State) (u : Nat) (w : Wave) (g : Group) (accs : List Acc) (i : Instr) (vec : Bool) (reg nregs size la : Nat) : Act :=
  let xs := accs.map fun a => (a, sizeBytes size)
  let new := g.newLines xs
  if !s.canWatch g new then .done (s.setWave u (loadLate s u (w.doom 2) accs i vec reg nregs size la))
  else match s.readNow u w xs with
  | (s, none) => .wait s .retry
  | (s, some bs) =>
    .done (s.setWave u (((s.regroup u w).watch new).addLate .global vec reg nregs size la
      (accs.map fun a => { lane := a.lane, addr := a.pa, own := [], nocache := true })
      (bs.map fun x => (x.1.lane, extendLoad size (leNat x.2)))))

/-- Zero in every lane: what a load inside a group returns when it faults (R90). -/
def loadZero (w : Wave) (lanes : List (Nat × Nat)) (vec : Bool) (reg nregs size la : Nat) : Wave :=
  w.addLate .global vec reg nregs size la (lanes.map fun l => { lane := l.1, addr := 0, own := [], nocache := true })
    (lanes.map fun l => (l.1, 0))

/-- The doom of a group's load or record read that fails: 6 for an IO page, else 3 (R90). -/
def loadDoom (s : State) (w : Wave) (ls : List (Nat × Nat)) : Nat :=
  if (xlateLanes s w 0 true ls).any (fun x => match x.2.2 with
    | .ok _ t => t.io
    | _ => false) then 6 else 3

/-- A global load (R24, R80, R86, R267). -/
def loadGlobal (i : Instr) (lanes : Wave → List (Nat × Nat)) (vec : Bool) (reg nregs size la : Nat) : Body := fun s u w =>
  let ls := lanes w
  if ls.isEmpty then .done s
  else match checkGlobal s u w 0 false (sizeBytes size) ls with
  | .act a => a
  | .bad a => if w.group.isSome then
      if loadDoom s w ls = 6 then .done (s.setWave u (w.doom 6))
      else .done (s.setWave u (loadZero (w.doom 3) ls vec reg nregs size la))
    else a
  | .ok accs =>
    if accs.any fun a => s.atLink a.pa && s.readHeld a.pa (sizeBytes size) (some u) then .wait s .retry
    else match accs.find? fun a => s.poisoned a.pa (sizeBytes size) with
    | some a => if w.group.isSome then .done (s.setWave u (loadZero (w.doom 3) ls vec reg nregs size la))
      else poisonTrap s w i vec reg a.lane
    | none =>
      match w.group with
      | some g => if g.doom = 0 then loadInGroup s u w g accs i vec reg nregs size la
        else .done (s.setWave u (loadLate s u w accs i vec reg nregs size la))
      | none => .done (s.setWave u (loadLate s u w accs i vec reg nregs size la))

/-- A scratch load (R59, R60): it issues when every line is FULL; all lanes are read together when it lands. In a commit group one that
meets a failed line or poison returns zero and dooms the group with status 3 (R90). -/
def loadScratch (i : Instr) (lanes : Wave → List (Nat × Nat)) (vec : Bool) (reg nregs size la : Nat) : Body := fun s u w =>
  let ls := lanes w
  match s.cohort w.cohort with
  | none => .done s
  | some c =>
    let fails := (c.failedLane ls).isSome || ls.any fun l => c.scratchSpoiled l.2 (sizeBytes size)
    if ls.isEmpty then .done s
    else if w.group.isSome && fails && (checkPlace s u c ls (sizeBytes size)).isNone then
      .done (s.setWave u (loadZero (w.doom 3) ls vec reg nregs size la))
    else match checkScratch s u c ls (sizeBytes size) true with
    | some a => a
    | none =>
      match ls.find? fun l => c.scratchSpoiled l.2 (sizeBytes size) with
      | some l => poisonTrap s w i vec reg l.1
      | none => .done (s.setWave u (w.addLate .scratch vec reg nregs size la
        (ls.map fun l => { lane := l.1, addr := l.2, own := [], nocache := true }) [] 0 [] [] 0 ((encode i).getD 0) w.group.isSome))

/-! ### Stores -/

/-- No write is performed before the wave's earlier reads have returned (R135): writes that take effect as they issue wait
for them. -/
def afterReads (body : Body) : Body := fun s u w => if w.late.any (·.reads) then .wait s .late else body s u w

/-- The stored bytes join the open group (R86): a ninth line or more than 512 bytes dooms it with status 2. -/
def Group.store (g : Group) (stores : List (Acc × List Byte)) : Group :=
  let lines := (stores.flatMap fun x => unitsOf 64 x.1.pa x.2.length).eraseDups
  let new := lines.filter fun l => !g.writes.contains l
  let n := (stores.map fun x => x.2.length).sum
  if 8 < g.writes.length + new.length ∨ 512 < g.count + n then { g with doom := 2, bytes := [] }
  else { g with
    writes := g.writes ++ new, count := g.count + n,
    bytes := stores.foldl (fun m x => (x.2.zipIdx).foldl (fun m b => mapInsert m (x.1.pa + b.2) b.1) m) g.bytes }

/-- Stores to host memory over PCIe are performed at the link as they issue (R74), with no other write between those of one instruction
(R132). -/
def State.storeAtLink (s : State) (u : Nat) (stores : List (Acc × List Byte)) : State :=
  let xs := stores.filter fun x => s.atLink x.1.pa
  let s := xs.foldl (fun s x => s.writeQuiet x.1.pa x.2 (some u)) s
  xs.foldl (fun s x => s.recheck x.1.pa x.2.length) s

/-- Checked stores enter the group, or are performed at the link, or enter the store buffer (R51, R74, R86). -/
def storeAccs (stores : List (Acc × List Byte)) : Body := fun s u w =>
  match w.group with
  | some g => .done (s.setWave u { w with group := some (if g.doom = 0 then g.store stores else g) })
  | none =>
    if stores.any (fun x => s.atLink x.1.pa) && w.late.any (·.reads) then .wait s .late
    else if stores.any (fun x => s.atLink x.1.pa && s.writeHeld x.1.pa x.2.length (some u)) then .wait s .cow
    else
      let es := s.entriesOf u w (stores.filter fun x => !s.atLink x.1.pa)
      enterAll es (stores.foldl (fun s x => s.dropL1 w.core x.1.pa x.2.length) (s.storeAtLink u stores)) u w

/-- A store of a group that faults dooms it: 6 for an IO page, else 3 (R90). -/
def storeDoom (s : State) (w : Wave) (ls : List (Nat × Nat)) : Nat :=
  if (xlateLanes s w 2 true ls).any (fun x => match x.2.2 with
    | .ok _ t => t.io
    | _ => false) then 6 else 3

/-- Stores bytes at addresses, each with its lane (R24, R51, R86, R90). A store of a commit group needs R and W (R29), and poison dooms
the group (R90). -/
def storePieces (align : Nat) (ls : List (Nat × Nat)) (data : List (List Byte)) : Body := fun s u w =>
  match checkGlobal s u w (if w.group.isSome then 2 else 1) false align ls with
  | .act a => a
  | .bad a => if w.group.isSome then .done (s.setWave u (w.doom (storeDoom s w ls))) else a
  | .ok accs =>
    let xs := accs.zip data
    if w.group.isSome && xs.any fun x => s.poisoned x.1.pa x.2.length then .done (s.setWave u (w.doom 3)) else storeAccs xs s u w

/-- A global store. -/
def storeGlobal (lanes : Wave → List (Nat × Nat)) (size : Nat) (value : Wave → Nat → Nat) : Body := fun s u w =>
  let ls := lanes w
  let e := sizeBytes size
  if ls.isEmpty then .done s else storePieces e ls (ls.map fun l => natLe e (value w l.1)) s u w

/-- A scratch store (R59, R132): the highest lane wins a byte. -/
def storeScratch (lanes : Wave → List (Nat × Nat)) (size : Nat) (value : Wave → Nat → Nat) : Body :=
  forbiddenInGroup (afterReads fun s u w =>
    let ls := lanes w
    match s.cohort w.cohort with
    | none => .done s
    | some c =>
      match checkScratch s u c ls (sizeBytes size) false with
      | some a => a
      | none => .done (s.setCohort w.cohort (c.scratchStore u (ls.map fun l => (l.2, natLe (sizeBytes size) (value w l.1))))))

/-- VLD (R266, R267). -/
def execVld (f : MF) (s : State) := runInstr (.vld f) (afterJoin fun s u w =>
  let n := sizeRegs f.size
  if f.space = 0 then loadGlobal (.vld f) (fun w => vectorLanes w f) true f.data.toNat n f.size.toNat f.la.toNat s u w
  else loadScratch (.vld f) (fun w => vectorLanes w f) true f.data.toNat n f.size.toNat f.la.toNat s u w) s

/-- VST (R266, R267). -/
def execVst (f : MF) (s : State) := runInstr (.vst f) (afterJoin fun s u w =>
  let value := fun (w : Wave) (i : Nat) => w.vs f.data.toNat (sizeRegs f.size) i
  if f.space = 0 then storeGlobal (fun w => vectorLanes w f) f.size.toNat value s u w
  else if w.activeLanes.isEmpty ∧ w.group.isNone then .done s
  else storeScratch (fun w => vectorLanes w f) f.size.toNat value s u w) s

/-! ### Atomics (R132, R268, R269) -/

/-- The new memory value of an atomic: none when CAS finds another value. `n` is the width in bits; flags of FADD. -/
def atomicNew (fn n m x y : Nat) : Option Nat × Nat :=
  match fn with
  | 0 => (some ((m + x) % 2 ^ n), 0)
  | 1 => (some (if signedOf n m ≤ signedOf n x then m else x), 0)
  | 2 => (some (if signedOf n m ≤ signedOf n x then x else m), 0)
  | 3 => (some (min m x), 0)
  | 4 => (some (max m x), 0)
  | 5 => (some (m &&& x), 0)
  | 6 => (some (m ||| x), 0)
  | 7 => (some (m ^^^ x), 0)
  | 8 => (some x, 0)
  | 9 => (if m = x then some y else none, 0)
  | _ => let r := fpAdd fpF32 0 0 m x
    (some r.1, r.2)

/-- The operands of an atomic as one number: x, and the new value of CAS above it. -/
def atomicArgs (v n : Nat) : Nat × Nat := (v % 2 ^ n, v / 2 ^ n % 2 ^ n)

/-- One atomic at a home slice: the old value, the flags, and the state. A CAS that fails makes no write (R269); one of an
owner entry gives a page to another world (R410). -/
def State.atomicAt (s : State) (pa fn e v : Nat) (u : Option Nat) : State × Nat × Nat :=
  let m := s.read pa e
  let (x, y) := atomicArgs v (8 * e)
  let (new, fl) := atomicNew fn (8 * e) m x y
  ((match new with
    | some z => s.reowned (s.writeQuiet pa (natLe e z) u) pa e
    | none => s), m, fl)

/-- The registers that receive the old value: those of x. -/
def oldRegs (size : Nat) : Nat := if size = 3 then 2 else 1

/-- A global atomic: own entries that overlap drain first, and the lanes act in ascending order in one step, with no other
agent between them (R132; a choice, log 86); the old values return before the next instruction (R268). -/
def atomicGlobal (i : Instr) (lanes : List (Nat × Nat)) (vec : Bool) (reg size fn : Nat) (args : Nat → Nat) : Body := fun s u w =>
  let e := sizeBytes size
  match checkGlobal s u w 2 false e lanes with
  | .act a => a
  | .bad a => a
  | .ok accs =>
    match accs.find? fun a => s.poisoned a.pa e with
    | some a => poisonTrap s w i vec reg a.lane
    | none =>
      let s := accs.foldl (fun s a => if (s.ownBytes w.core u a.pa e).isEmpty then s else s.drainRange w.core a.pa e) s
      if accs.any fun a => !(s.ownBytes w.core u a.pa e).isEmpty || s.writeHeld a.pa e (some u) || s.timelineHeld a.pa e then .wait s .cow
      else
        let s := accs.foldl (fun s a => s.dropL1 w.core a.pa e) s
        let r := accs.foldl (fun (r : State × List (Nat × Nat) × Nat) a =>
          let (s, m, fl) := r.1.atomicAt a.pa fn e (args a.lane) (some u)
          (s, r.2.1 ++ [(a.lane, m)], r.2.2 ||| fl)) (s, [], 0)
        let s := accs.foldl (fun s a => s.recheck a.pa e) r.1
        .done (s.updWave u fun w => (w.raise r.2.2).addAnswer vec reg (oldRegs size) r.2.1)

/-- A scratch atomic at the banks (R59, R268). -/
def atomicScratch (i : Instr) (lanes : List (Nat × Nat)) (vec : Bool) (reg size fn : Nat) (args : Nat → Nat) : Body :=
  fun s u w =>
    let e := sizeBytes size
    match s.cohort w.cohort with
    | none => .done s
    | some c =>
      match checkScratch s u c lanes e true with
      | some a => a
      | none =>
        match lanes.find? fun l => c.scratchSpoiled l.2 e with
        | some l => poisonTrap s w i vec reg l.1
        | none =>
        let r := lanes.foldl (fun (r : Cohort × List (Nat × Nat) × Nat) l =>
          let m := r.1.scratchRead l.2 e
          let (x, y) := atomicArgs (args l.1) (8 * e)
          let (new, fl) := atomicNew fn (8 * e) m x y
          ((match new with
            | some z => r.1.scratchWrite l.2 (natLe e z)
            | none => r.1.seen (some u) l.2 e), r.2.1 ++ [(l.1, m)], r.2.2 ||| fl)) (c, [], 0)
        .done ((s.setCohort w.cohort r.1).setWave u ((w.raise r.2.2).addAnswer vec reg (oldRegs size) r.2.1))

/-- VATOM (R268, R269). -/
def execVatom (f : MF) (s : State) := runInstr (.vatom f) (forbiddenInGroup (afterJoin fun s u w =>
  let ls := vectorLanes w f
  let args := fun (i : Nat) => w.vs f.data.toNat (atomRegs f.size.toNat f.fn.toNat) i
  if ls.isEmpty then .done s
  else if f.space = 0 then afterReads (atomicGlobal (.vatom f) ls true f.data.toNat f.size.toNat f.fn.toNat args) s u w
  else afterReads (atomicScratch (.vatom f) ls true f.data.toNat f.size.toNat f.fn.toNat args) s u w)) s

/-- SATOM (R268, R269): one access for the wave. -/
def execSatom (f : MF) (s : State) := runInstr (.satom f) (forbiddenInGroup (afterJoin fun s u w =>
  let ls := scalarLane w f
  let args := fun (_ : Nat) => w.sgroup f.data.toNat (atomRegs f.size.toNat f.fn.toNat)
  if ls.isEmpty then .done s
  else if f.space = 0 then afterReads (atomicGlobal (.satom f) ls false f.data.toNat f.size.toNat f.fn.toNat args) s u w
  else afterReads (atomicScratch (.satom f) ls false f.data.toNat f.size.toNat f.fn.toNat args) s u w)) s

/-! ### Prefetch and flush (R271) -/

/-- CPREF (R271): lanes that would fault are dropped; fn 0 fills the line into the L1. -/
def execCpref (f : MF) (s : State) := runInstr (.cpref f) (afterJoin fun s u w =>
  let ls := (vectorLanes w f).filter fun l => canonical l.2
  let xs := xlateLanes s w 0 false ls
  let missing := xs.filterMap fun x => if x.2.2 = .miss then some x.2.1 else none
  if !missing.isEmpty then waveMiss s u w 0 (onePerPage missing)
  else
    let sectors := (xs.flatMap fun x => match x.2.2 with
      | .ok pa t => if f.fn = 0 ∧ t.cacheable then (List.range 4).map fun k => pa / 64 * 4 + k else []
      | _ => []).eraseDups
    .done (sectors.foldl (fun s k =>
      if s.poison.contains k || s.readHeld (k * 16) 16 (some u) then s else s.fillL1 w.core (s.waveWorld w) k) s)) s

/-- A core without a line in its L1. -/
def Core.dropLine (c : Core) (line : Nat) : Core := { c with l1 := c.l1.filter fun x => x.sector / 4 != line }

/-- Invalidates a line in every L1 of the package. -/
def State.dropLine (s : State) (line : Nat) : State :=
  (s.cores.map fun (c : Nat × Core) => c.1).foldl (fun s k => s.updCore k fun c => c.dropLine line) s

/-- CFLUSH (R271): the wave's entries for the line drain, the line is written back, and with fn 1 every L1 drops it. It is translated as a
write, and so sets DIRTY in the leaf (a choice, log 86). -/
def execCflush (f : MF) (s : State) := runInstr (.cflush f) (afterJoin fun s u w =>
  let ls := vectorLanes w f
  if ls.isEmpty then .done s
  else match checkGlobal s u w 1 false 1 ls with
  | .act a => a
  | .bad a => if w.group.isSome then .done (s.setWave u (w.doom 3)) else a
  | .ok accs =>
    let lines := (accs.map fun a => a.pa / 64).eraseDups
    let s := lines.foldl (fun s l => if (s.ownBytes w.core u (l * 64) 64).isEmpty then s else s.drainRange w.core (l * 64) 64) s
    if lines.any fun l => !(s.ownBytes w.core u (l * 64) 64).isEmpty then .wait s (.fence 2 0 5)
    else .done (if f.fn = 1 then lines.foldl (fun s l => s.dropLine l) s else s)) s

/-! ### FIFOs (R61, R62, R270) -/

/-- The FIFO of a number, if configured. -/
def Cohort.fifo (c : Cohort) (n : Nat) : Option Fifo := c.fifos.find? fun x => x.num == n
def Cohort.setFifo (c : Cohort) (x : Fifo) : Cohort := { c with fifos := updFirst (fun y => y.num == x.num) (fun _ => x) c.fifos }

/-- The entry that FQPUSH builds: the live lanes' values, 0 elsewhere. -/
def Wave.fifoEntry (w : Wave) (r : Nat) : List Word := (List.range w.width).map fun i => if w.liveBit i then w.v r i else 0

/-- FQPUSH (R270): waits while the FIFO is full. -/
def execFqpush (f : MF) (s : State) := runInstr (.fqpush f) (forbiddenInGroup (afterJoin (afterReads fun s _ w =>
  let n := f.disp.toNat % 16
  match s.cohort w.cohort with
  | none => .done s
  | some c =>
    match c.fifo n with
    | none => .trap s trapScratchRange (BitVec.ofNat 64 n) 0
    | some x =>
      if x.depth ≤ x.entries.length then .wait s (.fifoFull n)
      else .done (s.setCohort w.cohort (c.setFifo { x with entries := x.entries ++ [w.fifoEntry f.data.toNat] }))))) s

/-- FQPOP (R270): waits while the FIFO is empty; its result comes by a lookahead wait. -/
def execFqpop (f : MF) (s : State) := runInstr (.fqpop f) (forbiddenInGroup (afterJoin fun s u w =>
  let n := f.disp.toNat % 16
  match s.cohort w.cohort with
  | none => .done s
  | some c =>
    match c.fifo n with
    | none => .trap s trapScratchRange (BitVec.ofNat 64 n) 0
    | some x =>
      match x.entries with
      | [] => .wait s (.fifoEmpty n)
      | e :: rest =>
        let vals := w.liveLanes.map fun i => (i, (nth 0 e i).toNat)
        .done ((s.setCohort w.cohort (c.setFifo { x with entries := rest })).setWave u (w.addAnswer true f.data.toNat 1 vals)))) s

end Sys2Proof.Machine
end

