-- ==== Sys2Proof/Machine/Future.lean ====
section
/-! DEFINITION. Future words (R81 to R85, R150, R276): FLOAD with its deferral entries and refusals, FSTORE and FRESET. -/

namespace Sys2Proof.Machine

/-- Is the future word that holds an address EMPTY (R81)? `fempty` lists the EMPTY words by number. -/
def State.wordEmpty (s : State) (pa : Nat) : Bool := s.fempty.contains (pa / 8)

/-- Lanes of a late FLOAD that wait at their slices: neither answered nor refused, and with a translation that stands. -/
def Late.deferred (l : Late) : List LaneAcc :=
  if l.kind = .future then l.lanes.filter fun x =>
    !(l.vals.any fun v => v.1 == x.lane) && !l.refused.contains x.lane && !l.stale.contains x.lane else []

/-- The deferral entries at a slice (R83): one for each line of each FLOAD with a deferred lane there. -/
def State.deferrals (s : State) (die slice : Nat) : List (Nat × Nat × Nat) :=
  (s.waves.flatMap fun x => x.2.late.flatMap fun l => l.deferred.filterMap fun a =>
    if homeDie a.addr = die ∧ homeSlice a.addr = slice then some (x.1, l.seq, a.addr / 64) else none).eraseDups

/-- A FULL word answers one lane of a late FLOAD; the firewall and the error code check the read (R80, R409). -/
def State.answerLane (s : State) (u seq : Nat) (a : LaneAcc) : State :=
  match (s.wave u).bind fun w => (w.late.find? fun l => l.seq == seq).map fun l => (w, l) with
  | none => s
  | some (w, l) =>
    let n := sizeBytes l.size
    s.setWave u (if !s.admits (s.waveWho w) a.addr then w.failLate l (trapFirewall, BitVec.ofNat 64 a.va, laneInfo a.lane)
      else if s.poisoned a.addr n then w.failLate l (l.poisonInfo a.lane)
      else w.noteFload seq fun l => { l with
        refused := l.refused.filter (· != a.lane), vals := l.vals ++ [(a.lane, s.read a.addr n)] })

/-- One lane's request at its slice (R82 to R84): a FULL word is returned, an EMPTY one makes or joins a deferral entry, and
without a free entry the request is refused. -/
def State.floadLane (s : State) (u seq : Nat) (a : LaneAcc) : State :=
  if !s.wordEmpty a.addr then s.answerLane u seq a
  else
    let d := homeDie a.addr
    let used := s.deferrals d (homeSlice a.addr)
    if used.contains (u, seq, a.addr / 64) || decide (used.length < 512) then
      s.updWave u fun w => w.noteFload seq fun l => { l with refused := l.refused.filter (· != a.lane) }
    else s.updWave u fun w => w.noteFload seq fun l => { l with
      refused := if l.refused.contains a.lane then l.refused else l.refused ++ [a.lane] }

/-- The lines of those of the lanes just sent that were refused: each counts 1 in L2NACK (R84). -/
def State.countNacks (s : State) (u seq : Nat) (sent : List LaneAcc) : State :=
  match (s.wave u).bind fun w => w.late.find? fun l => l.seq == seq with
  | none => s
  | some l =>
    let lines := ((sent.filter fun a => l.refused.contains a.lane).map fun a => a.addr / 64).eraseDups
    lines.foldl (fun s x => s.updL2 (homeDie (x * 64)) fun r => { r with nack := (r.nack + 1) % 2 ^ 32 }) s

/-- Backoff after the n-th refusal of an instruction (R84). -/
def backoff (n : Nat) : Nat := min 32000 (256 * 2 ^ n)

/-- Sends lanes of an FLOAD. All of them are marked refused first, so that the entries counted are those of others. The FLOAD keeps
one backoff, which a send with refused lanes doubles once, however many lines of it were refused (R84; log 78). -/
def State.floadSend (s : State) (u seq : Nat) (lanes : List LaneAcc) : State :=
  let s := s.updWave u fun w => w.noteFload seq fun l => { l with refused := l.refused ++ (lanes.map (·.lane)).filter fun x => !l.refused.contains x }
  let s := lanes.foldl (fun s a => s.floadLane u seq a) s
  let s := s.countNacks u seq lanes
  s.updWave u fun w => w.noteFload seq fun l =>
    if !lanes.any fun a => l.refused.contains a.lane then l else { l with refusals := l.refusals + 1, until_ := s.clock + backoff l.refusals }

/-- What FLOAD, FSTORE and FRESET share: MJOIN, the checks of R24 for an access code of R37, and the draining of the wave's
own store-buffer entries for the words (R135). -/
def future (f : MF) (access : Nat) (body : List Acc → Body) : Body := forbiddenInGroup (afterJoin fun s u w =>
  let ls := vectorLanes w f
  let e := sizeBytes f.size.toNat
  if ls.isEmpty then .done s
  else match checkGlobal s u w access false e ls with
  | .act a => a
  | .bad a => a
  | .ok accs =>
    let s := accs.foldl (fun s a => if (s.ownBytes w.core u a.pa e).isEmpty then s else s.drainRange w.core a.pa e) s
    if accs.any fun a => !(s.ownBytes w.core u a.pa e).isEmpty then .wait s (.fence 2 0 1)
    else body accs s u w)

/-- FLOAD (R276): its requests go to the slices now; later accesses of the wave wait for its answers (R150). -/
def execFload (f : MF) (s : State) := runInstr (.fload f) (future f 4 fun accs s u w =>
  let e := sizeBytes f.size.toNat
  match accs.find? fun a => s.poisoned a.pa e && !s.wordEmpty a.pa with
  | some a => poisonTrap s w (.fload f) true f.data.toNat a.lane
  | none =>
    match s.readNow u w (accs.map fun a => (a, e)) with
    | (s, none) => .wait s .retry
    | (s, some _) =>
      let lanes := accs.map fun a => ({ lane := a.lane, addr := a.pa, own := [], nocache := true, va := a.va } : LaneAcc)
      let w := { w.addLate .future true f.data.toNat (sizeRegs f.size) f.size.toNat f.la.toNat lanes [] (s.waveAsid w) (loadPages accs)
        (loadLarge accs) 0 ((encode (.fload f)).getD 0) with joined := true }
      .done ((s.setWave u w).floadSend u w.lateSeq lanes)) s

/-- Answers every deferred lane for a word with the value stored (R82). -/
def State.answerDeferred (s : State) (word : Nat) : State :=
  let hit := s.waves.flatMap fun x => x.2.late.flatMap fun l => (l.deferred.filter fun a => a.addr / 8 == word).map fun a => (x.1, l.seq, a)
  hit.foldl (fun s h => s.answerLane h.1 h.2.1 h.2.2) s

/-- One lane of an FSTORE at its slice (R82): the deferred requests get the stored value before any wait on the word is checked again. -/
def State.fstoreLane (s : State) (u e v : Nat) (pa : Nat) : State :=
  if s.wordEmpty pa then
    let s := { s with fempty := s.fempty.filter (· != pa / 8) }
    ((s.writeQuiet pa (natLe e v) (some u)).answerDeferred (pa / 8)).recheck pa e
  else s.updL2 (homeDie pa) fun r => { r with futdbl := (r.futdbl + 1) % 2 ^ 32 }

/-- FSTORE (R276): first a release of R and W at PACKAGE scope (R150), then its lanes in ascending order. -/
def execFstore (f : MF) (s : State) := runInstr (.fstore f) (future f 5 fun accs s u w =>
  let (s, ok) := s.predecessors u w true true false
  if !ok then .wait s (.fence 3 2 3)
  else
    let e := sizeBytes f.size.toNat
    if accs.any fun a => s.writeHeld a.pa e (some u) then .wait s .cow
    else
      let s := accs.foldl (fun s a => s.dropL1 w.core a.pa e) s
      .done (accs.foldl (fun s a => s.fstoreLane u e (w.vs f.data.toNat (sizeRegs f.size) a.lane) a.pa) s)) s

/-- FRESET (R276): sets words EMPTY and keeps their data; as a write it breaks watches (R87) and follows the wave's earlier
reads (R135). -/
def execFreset (f : MF) (s : State) := runInstr (.freset f) (future f 5 fun accs s u w =>
  if w.late.any (·.reads) then .wait s .late
  else if accs.any fun a => s.writeHeld a.pa 8 (some u) then .wait s .cow
  else .done (accs.foldl (fun s a =>
    { s.breakWatches (a.pa / 8 * 8) 8 (some u) with fempty := insNat (a.pa / 8) s.fempty }) s)) s

/-- A lane whose translation an invalidation dropped (R36) is translated again, by the die's service; its request is then due. A fault
there is the FLOAD's trap (log 78). -/
def State.retranslate (s : State) (u seq : Nat) (a : LaneAcc) : State :=
  match (s.wave u).bind fun w => (w.late.find? fun l => l.seq == seq).map fun l => (w, l) with
  | none => s
  | some (w, l) =>
    let info := fun (k : Nat) => BitVec.ofNat 64 (k + 2 ^ 8 * 4 + 2 ^ 16 * a.lane)
    match engineXlate s (dieOf w.core) l.asid (s.waveWorld w) (s.waveWho w) a.va 4 with
    | .ok pa t s => s.updWave u fun w => w.noteFload seq fun l => { l with
        lanes := l.lanes.map fun x => if x.lane == a.lane then { x with addr := pa } else x,
        large := if t.large then insNat (fld a.va 56 16) l.large else l.large,
        stale := l.stale.filter (· != a.lane), refused := if l.refused.contains a.lane then l.refused else l.refused ++ [a.lane] }
    | .fault k _ s => s.updWave u fun w => w.failLate l (kindTrap k, BitVec.ofNat 64 a.va, info (kindCode k))
    | .firewall s => s.updWave u fun w => w.failLate l (trapFirewall, BitVec.ofNat 64 a.va, laneInfo a.lane)

/-- A wave's FLOAD. -/
def State.floadOf (s : State) (u seq : Nat) : Option Late :=
  (s.wave u).bind fun w => w.late.find? fun l => l.seq == seq && l.kind == .future

/-- Sends an FLOAD again (R36, R84, R85): lanes whose translation is dropped are translated, and the refused lanes whose backoff is over
are sent. A request waits where a read of its word would (R88, R95). -/
def State.floadAgain (s : State) (u seq : Nat) (l : Late) : State :=
  let waits := fun (x : Nat) => l.refused.contains x && decide (s.clock < l.until_)
  let s := (l.lanes.filter fun a => l.stale.contains a.lane).foldl (fun s a => s.retranslate u seq a) s
  match s.floadOf u seq with
  | none => s.afterLanding u
  | some l =>
    let due := l.lanes.filter fun a => l.refused.contains a.lane && !waits a.lane && !s.readHeld a.addr (sizeBytes l.size) (some u)
    if due.isEmpty then s
    else
      let s := s.floadSend u seq due
      if (s.floadOf u seq).isNone then s.afterLanding u else s

/-- FLOAD_RESEND (R36, R84): lanes whose translation was dropped are due at once, refused lanes after the backoff. -/
def execFloadResend (wave seq : Nat) (s : State) : Host.Outcome State Fault Refusal :=
  match s.floadOf wave seq with
  | none => .next s
  | some l =>
    if l.stale.isEmpty ∧ (l.refused.isEmpty ∨ s.clock < l.until_) then .next s
    else .next (s.floadAgain wave seq l)

end Sys2Proof.Machine
end

