-- ==== Sys2Proof/Machine/Image.lean ====
section
/-! DEFINITION. The image of a saved cohort (R393) and its sealed form (R412), written to and read from the save pool. Layouts
that R393 names only by size are the model's (log 33). -/

namespace Sys2Proof.Machine

/-- A sum of words placed side by side from bit `lo` on: word `i` of `n` at lo + width × i. -/
def sideBySide (lo width n : Nat) (f : Nat → Nat) : Nat := (List.range n).foldl (fun a i => a + 2 ^ (lo + width * i) * f i) 0

/-- The order of the special registers in a wave record. -/
def Wave.specialWords (w : Wave) : List Nat :=
  [w.sp.fpstat, w.sp.fprm, w.sp.rngSeed.toNat, w.sp.apxtab.toNat, w.sp.remerr.toNat, w.sp.remtrap.toNat, w.tr.dbgctl.toNat,
   w.tr.tba.toNat, w.tr.tpc.toNat, w.tr.tcause.toNat, w.tr.tinfo0.toNat, w.tr.tinfo1.toNat]

/-- The wave record of 1,024 bytes. -/
def waveRecord (c : Cohort) (u : Nat) (w : Wave) : Nat :=
  let fload := w.late.any fun l => decide (l.kind = .future)
  let token := match w.wait with
    | .service _ t => (1, t)
    | _ => (0, 0)
  let here := fun (b : Nat) => (mapGet { phase := 0, arrived := [] } c.barriers b).arrived.contains u
  let done := fun (b : Nat) => decide (0 < (mapGet { phase := 0, arrived := [] } c.barriers b).phase)
  w.pc.toNat + 2 ^ 64 * b2n w.tr.handler + 2 ^ 66 * ((w.group.map fun g => 1 + g.doom).getD 0) + 2 ^ 69 * b2n fload +
  2 ^ 70 * token.1 + 2 ^ 71 * (token.2 % 2 ^ 16) + 2 ^ 87 * w.retry +
  sideBySide 128 32 32 (fun j => (w.liveWord j).toNat) + sideBySide 1152 32 32 (fun j => (mapGet 0 w.tr.savedExec j).toNat) +
  sideBySide 2176 32 136 (fun r => (mapGet 0 w.regs.s r).toNat) + sideBySide 6528 64 12 (fun j => nth 0 w.specialWords j) +
  sideBySide 7296 128 3 (fun e => (w.tl e).value + 2 ^ 64 * (w.tl e).batches) +
  sideBySide 7680 1 256 (fun r => b2n (w.epend.any fun x => x.vec && x.reg == r)) +
  sideBySide 7936 1 128 (fun r => b2n (w.epend.any fun x => !x.vec && x.reg == r)) + 2 ^ 8064 * w.restart.toNat +
  sideBySide 8128 2 16 (fun b => b2n (here b) + 2 * b2n (done b && !here b)) +
  2 ^ 8160 * ((w.keeper.map fun k => k % 1024 + 1).getD 0)

/-- Bytes of a wave's section. -/
def waveSectionBytes (n width : Nat) : Nat := 1024 + n * width * 4 + width * 8 + (n * width / 8 + 20) + width / 8 + 2112

/-- A bit for each number of a range, eight to a byte. -/
def bitBytes (n : Nat) (f : Nat → Bool) : List Byte :=
  (List.range (n / 8)).map fun i => BitVec.ofNat 8 (sideBySide 0 1 8 fun j => b2n (f (8 * i + j)))

/-- A wave's section. -/
def waveSection (c : Cohort) (u : Nat) (w : Wave) : List Byte :=
  let n := w.width
  let words := (List.range w.nv).flatMap fun r => (List.range n).flatMap fun i => natLe 4 (w.v r i).toNat
  let gens := (List.range n).flatMap fun i => natLe 8 (w.gen i).toNat
  let answered := fun (i : Nat) => w.late.any fun l => decide (l.kind = .future) && l.vals.any fun v => v.1 == i
  let region := match w.region with
    | none => 0
    | some r => r.key.id + 2 ^ 16 * r.key.asid + 2 ^ 32 * r.key.world + 2 ^ 64 * r.key.tab + 2 ^ 128 * r.gen +
        (r.capture.zipIdx).foldl (fun a x => a + sideBySide (512 + x.2 * 32 * x.1.2.length) 32 x.1.2.length fun j => (nth 0 x.1.2 j).toNat) 0
  natLe 1024 (waveRecord c u w) ++ words ++ gens ++ bitBytes (w.nv * n) (fun k => w.regs.vpoison.contains (vkey (k / n) (k % n))) ++
    bitBytes 160 (fun k => w.regs.spoison.contains k) ++ bitBytes n answered ++ natLe 2112 region

/-- The cohort header of 256 bytes. -/
def cohortHeader (c : Cohort) (w : Wave) (len disp : Nat) : Nat :=
  len % 2 ^ 64 + 2 ^ 64 * (disp % 2 ^ 32) + 2 ^ 96 * c.cx + 2 ^ 116 * c.cy + 2 ^ 136 * c.cz + 2 ^ 156 * c.world + 2 ^ 164 * c.nwaves +
  2 ^ 171 * (w.k - 1) + 2 ^ 176 * (w.nv / 8) + 2 ^ 182 * b2n c.paired + 2 ^ 192 * c.scratchSize + 2 ^ 224 * (c.accRows / 32) +
  2 ^ 230 * (c.obBytes / 4096) + 2 ^ 238 * c.planes +
  sideBySide 256 16 16 (fun b => let x := mapGet ({ phase := 0, arrived := [] } : Barrier) c.barriers b; x.arrived.length + 2 ^ 7 * (x.phase % 2))

/-- A plane's tag in 2,112 bytes. -/
def tagBytes (t : Tag) : List Byte :=
  (natLe 64 (t.fmt + 2 ^ 8 * t.blk + 2 ^ 16 * b2n t.center + 2 ^ 24 * t.planes + 2 ^ 32 * t.scales.length) ++ t.scales ++
    List.replicate 2048 0).take 2112

/-- A plane slot in 20,608 bytes. -/
def slotBytesOf (x : Slot) : List Byte :=
  let plane := fun (p : Plane) => (List.range 8192).map fun i => mapGet 0 p.bytes i
  plane x.active ++ plane x.shadow ++ tagBytes x.active.tag ++ tagBytes x.shadow.tag

/-- A FIFO segment in 131,136 bytes: its entries FIFO after FIFO, then a pointer word for each. -/
def fifoBytes (c : Cohort) (seg : Nat) : List Byte :=
  let fs := c.fifos.filter fun q => q.seg == seg
  let data := fs.flatMap fun q => ((q.entries.flatMap fun e => e.flatMap fun x => natLe 4 x.toNat) ++ List.replicate q.cap 0).take q.cap
  (data ++ List.replicate 131072 0).take 131072 ++
    (List.range 8).flatMap fun i => natLe 8 (((fs[i]?).map fun q => q.entries.length + 2 ^ 32 * q.num).getD 0)

/-- The sections of one core. -/
def coreSection (c : Cohort) (half : Nat) : List Byte :=
  let size := if c.paired then c.scratchSize / 2 else c.scratchSize
  let at_ := half * size
  let lines := size / 128
  let m := nth Matrix.clear c.mx half
  let flag := fun (k : Nat) => if k % 2 = 0 then !c.empty.contains (at_ / 128 + k / 2) else c.stagePend.contains (at_ / 128 + k / 2)
  ((List.range size).map fun i => mapGet 0 c.scratch (at_ + i)) ++ bitBytes (2 * lines) flag ++
  ((c.fifoSegs.filter fun g => decide (at_ ≤ g ∧ g < at_ + size)).flatMap (fifoBytes c)) ++
  ((List.range c.obBytes).map fun i => mapGet 0 m.ob i) ++
  (if c.obBytes = 0 then [] else (List.range 16).flatMap fun n => natLe 16 (((mapFind m.records n).map (·.bits)).getD 0)) ++
  ((List.range (32 * c.accRows)).flatMap fun i => natLe 4 (mapGet 0 m.acc i).toNat) ++
  ((List.range c.planes).flatMap fun i => slotBytesOf (mapGet Slot.clear m.slots i))

/-- Any wave of a saved cohort, for its width. -/
def Saved.someWave (x : Saved) : Option Wave := (x.waves.head?).map (·.2)

/-- The image (R393): an ended wave has a section whose record holds ENDED alone. -/
def Saved.image (x : Saved) (disp : Nat) : List Byte :=
  match x.someWave with
  | none => []
  | some w =>
    let sections := x.cohort.waves.flatMap fun u => match mapFind x.waves u with
      | some w => waveSection x.cohort u w
      | none => natLe (waveSectionBytes w.nv w.width) (2 ^ 65)
    let body := sections ++ coreSection x.cohort 0 ++ (if x.cohort.paired then coreSection x.cohort 1 else [])
    natLe 256 (cohortHeader x.cohort w (256 + body.length) disp) ++ body

/-! ### Sealing (R412) -/

/-- Header, body and tag of the chunks of an image, each tag over the one before. -/
def sealFrom (key : BitVec 256) (count disp world total : Nat) : Nat → Nat → List Byte → List Byte → List Byte
  | 0, _, _, _ => []
  | fuel + 1, i, prev, img =>
    let body := (img.take 4096 ++ List.replicate 4096 0).take 4096
    let header := natLe 16 (i + 2 ^ 64 * (disp % 2 ^ 32) + 2 ^ 96 * world + 2 ^ 104 * b2n (i + 1 == total))
    let tag := (Config.gcmTag key (count % 2 ^ 64 + 2 ^ 64 * i) (prev ++ header) body ++ List.replicate 16 0).take 16
    header ++ body ++ tag ++ sealFrom key count disp world total fuel (i + 1) tag (img.drop 4096)

/-- The chunks of an image. -/
def sealImage (key : BitVec 256) (count disp world : Nat) (img : List Byte) : List Byte :=
  let n := (img.length + 4095) / 4096
  sealFrom key count disp world n n 0 (List.replicate 16 0) img

/-- The chunks verify in order: each header is the expected one and each tag is that of its chunk. -/
def unsealFrom (key : BitVec 256) (count disp world total : Nat) : Nat → Nat → List Byte → List Byte → Bool
  | 0, _, _, _ => true
  | fuel + 1, i, prev, bs =>
    let header := bs.take 16
    let body := (bs.drop 16).take 4096
    let tag := (bs.drop 4112).take 16
    header == natLe 16 (i + 2 ^ 64 * (disp % 2 ^ 32) + 2 ^ 96 * world + 2 ^ 104 * b2n (i + 1 == total)) &&
    tag == (Config.gcmTag key (count % 2 ^ 64 + 2 ^ 64 * i) (prev ++ header) body ++ List.replicate 16 0).take 16 &&
    unsealFrom key count disp world total fuel (i + 1) tag (bs.drop 4128)

/-! ### The pool -/

/-- What is stored for an image: chunks for a confidential world. -/
def Saved.stored (s : State) (x : Saved) (disp : Nat) : List Byte :=
  let img := x.image disp
  if 2 ≤ x.cohort.world then sealImage (s.world x.cohort.world).key x.count disp x.cohort.world img else img

/-- Writes bytes over pages of 64 KiB; the core's writes break watches like any agent's (R87), wait for locked lines (R88), and a page that a
snapshot has marked is copied first (R97). -/
def State.writePages (s : State) : List Nat → List Byte → State
  | [], _ => s
  | p :: ps, bs => if bs.isEmpty then s else (s.writeHome p (bs.take 65536)).writePages ps (bs.drop 65536)

/-- A byte of a stored image, and a little-endian value in it. -/
def State.imageByte (s : State) (x : Saved) (i : Nat) : Byte := s.byte (nth 0 x.pages (i / 65536) + i % 65536)
def State.imageRead (s : State) (x : Saved) (i n : Nat) : Nat := leNat ((List.range n).map fun j => s.imageByte x (i + j))

/-- Writes the image of a saved cohort to its pages. -/
def State.writeImage (s : State) (x : Saved) (disp : Nat) : State := s.writePages x.pages (x.stored s disp)

/-- A wave as its section of the image has it: system software may edit DBGCTL, TPC and the registers of a dispatch that it
holds (R398). Sealed images are not edited. -/
def State.editedWave (s : State) (x : Saved) (i : Nat) (w : Wave) : Wave :=
  if 2 ≤ x.cohort.world then w else
  let at_ := 256 + i * waveSectionBytes w.nv w.width
  let r := s.imageRead x at_ 1024
  let regs := (List.range 136).foldl (fun m k => mapPut 0 m k (BitVec.ofNat 32 (fld r (2207 + 32 * k) (2176 + 32 * k)))) w.regs.s
  let words := (List.range (w.nv * w.width)).foldl (fun m k =>
    mapPut 0 m (vkey (k / w.width) (k % w.width)) (BitVec.ofNat 32 (s.imageRead x (at_ + 1024 + 4 * k) 4))) w.regs.v
  { w with
    regs := { w.regs with s := regs, v := words },
    tr := { w.tr with dbgctl := BitVec.ofNat 64 (fld r 6975 6912), tpc := BitVec.ofNat 64 (fld r 7103 7040) } }

/-- A saved cohort with the edits in its image. -/
def State.edited (s : State) (x : Saved) : Saved :=
  { x with waves := x.waves.map fun u => (u.1, s.editedWave x ((x.cohort.waves.idxOf? u.1).getD 0) u.2) }

/-- Changes saved contexts and writes their images again: what engines land while a cohort is saved (R392). -/
def State.updSaved (s : State) (p : Saved → Bool) (f : Saved → Saved) : State :=
  s.sched.tasks.foldl (fun s t => t.saved.foldl (fun s x =>
    if !p x then s else
    let y := f (s.edited x)
    (s.updTask t.id fun t => { t with saved := updFirst (fun z => z.id == x.id) (fun _ => y) t.saved }).writeImage y t.disp) s) s

/-- Remote loads of a wave that have been answered land in its registers. -/
def Wave.landAnswered (w : Wave) : Wave :=
  (w.late.filter fun l => match l.kind with
    | .remote _ => !l.vals.isEmpty
    | _ => false).foldl (fun w l => w.landLate l) w

end Sys2Proof.Machine
end

