-- ==== Sys2Proof/Machine/Sync.lean ====
section
/-! DEFINITION. Fences, batches and waits on timelines, commit groups and scoreboards (R86 to R91, R138 to R153, R277 to
R284), and the completion of engine commands, which the copy, matrix and remote families share. -/

namespace Sys2Proof.Machine

/-! ### Timelines (R278) -/

/-- Floating-point flags of batches that the timeline has passed enter FPSTAT (R193). -/
def Wave.passBatches (w : Wave) (e : Nat) : Wave :=
  let v := (w.tl e).value
  let fl := ((w.tl e).flags.filter fun x => decide (x.1 ≤ v)).foldl (fun a x => a ||| x.2) 0
  (w.raise fl).updTl e fun t => { t with flags := t.flags.filter fun x => decide (v < x.1) }

/-- Changes a wave, resident or in a saved context (R119, R171, R278); there the image follows, and answers of remote loads land in
it (R392). -/
def State.updAnyWave (s : State) (u : Nat) (f : Wave → Wave) : State :=
  if (s.wave u).isSome then s.updWave u f
  else s.updSaved (fun x => (mapFind x.waves u).isSome) fun x =>
    { x with waves := x.waves.map fun y => if y.1 == u then (y.1, (f y.2).landAnswered) else y }

/-- A wave that exists, resident or saved. -/
def State.anyWave (s : State) (u : Nat) : Option Wave :=
  (s.wave u).orElse fun _ => (s.sched.tasks.findSome? fun t => t.saved.findSome? fun x => mapFind x.waves u)

/-- Command `cmd` of timeline `e` completes, with an error if one is given. -/
def Wave.completeCmd (w : Wave) (e cmd : Nat) (err : Option (Nat → TlErr)) : Wave :=
  let batch := ((w.tl e).open_.find? fun x => x.1 == cmd).map (·.2)
  (w.updTl e fun t => { t with
    open_ := t.open_.filter fun x => x.1 != cmd,
    errs := match err, batch with
      | some f, some b => t.errs ++ [f b]
      | _, _ => t.errs }).passBatches e

/-- The completion in the state. -/
def State.completeCmd (s : State) (u e cmd : Nat) (err : Option (Nat → TlErr)) : State :=
  s.updAnyWave u fun w => w.completeCmd e cmd err

/-- An error that names a trap and its first information word. -/
def trapErr (cmd code : Nat) (info : DWord) : Nat → TlErr := fun b =>
  { batch := b, order := cmd, code := code, info := info, cause := 0, window := 0, node := 0, count := 0 }

/-- The first of the errors that a wait covers: lowest batch, then issued first (R121, R280). -/
def firstErr (l : List TlErr) : Option TlErr :=
  l.foldl (fun best x => match best with
    | none => some x
    | some b => if x.batch < b.batch ∨ (x.batch = b.batch ∧ x.order < b.order) then some x else some b) none

/-- What a REMERR-format word holds (R121). -/
def remerrWord (cause window node count : Nat) : DWord :=
  BitVec.ofNat 64 (cause % 16 + 2 ^ 4 * (window % 256) + 2 ^ 12 * (node % 1024) + 2 ^ 32 * min 65535 count)

/-- Records covered remote errors in REMERR (R121). -/
def Wave.recordRemote (w : Wave) (x : TlErr) (sum : Nat) : Wave :=
  let old := fld w.sp.remerr.toNat 47 32
  let r := if old = 0 then remerrWord x.cause x.window x.node sum
    else remerrWord (fld w.sp.remerr.toNat 3 0) (fld w.sp.remerr.toNat 11 4) (fld w.sp.remerr.toNat 21 12) (old + sum)
  { w with sp := { w.sp with remerr := r } }

/-- The wave after a completed wait on timeline `e` with value `n`: covered registers are free, covered errors cleared
(R171, R280). -/
def Wave.covered (w : Wave) (e n : Nat) : Wave :=
  { w with epend := w.epend.filter fun x => !(x.timeline == e && decide (x.batch ≤ n)) }.updTl e fun t =>
    { t with errs := t.errs.filter fun x => decide (n < x.batch) }

/-- Where the TRAP response to a failed matrix command continues (R389): the batch and the place after the WAITT are kept with the
parked wave. -/
def State.escalateAfter (s : State) (u : Nat) (w : Wave) (batch : Nat) : State :=
  let left := if w.clause.left ≤ 1 then 0 else w.clause.left - 1
  (s.escalate u 3).updWave u fun x => { x with prog := { x.prog with
    y := batch + 1, data := [(0, left), (1, w.clause.header.toNat), (2, w.clause.word.toNat), (3, (w.pc + 8).toNat)] } }

/-- An engine wait completes (R145, R279, R280). -/
def finishWaitt (e n : Nat) : Body := fun s u w =>
  let errs := (w.tl e).errs.filter fun x => decide (x.batch ≤ n)
  let w := w.covered e n
  let s := s.acquire w.core
  match firstErr errs with
  | none => .done (s.setWave u w)
  | some x =>
    if e = 2 then
      let sum := (errs.map (·.count)).sum
      if w.sp.remtrap.getLsbD 0 then
        .trapAfter (s.setWave u w) trapRemote (remerrWord x.cause x.window x.node sum) (BitVec.ofNat 64 x.batch)
      else .done (s.setWave u (w.recordRemote x sum))
    else if x.code = trapPipeline then .gone ((s.setWave u w).escalateAfter u w x.batch)
    else .trapAfter (s.setWave u w) x.code x.info (BitVec.ofNat 64 x.batch)

/-- BATCH (R278). -/
def execBatch (f : EF) (s : State) := runInstr (.batch f) (forbiddenInGroup (onWave fun w =>
  let e := f.e.toNat
  let w := w.updTl e fun t => { t with batches := t.batches + 1 }
  (w.setS64 f.d.toNat (BitVec.ofNat 64 (w.tl e).batches)).passBatches e)) s

/-- WAITT on an engine timeline (R279). -/
def execWaitt (f : EF) (s : State) := runInstr (.waitt f) (forbiddenInGroup fun s u w =>
  let e := f.e.toNat
  let n := (w.src64 f.a).toNat
  if (w.tl e).batches < n then .trap s trapIllegalOperand ((encode (.waitt f)).getD 0) 48
  else if (w.tl e).value < n then .wait s (.timeline e n)
  else finishWaitt e n s u w) s

/-- TLREAD of an engine timeline (R281). -/
def execTlread (f : EF) (s : State) := runInstr (.tlread f) (onWave fun w =>
  w.setS64 f.d.toNat (BitVec.ofNat 64 (w.tl f.e.toNat).value)) s

/-! ### Words in memory that a wave waits on or changes at their home slice -/

/-- The one access of a wave-level instruction to an 8-byte word: checked as lane 0's (R24), poison found, the wave's own
store-buffer entries for it drained and earlier loads of it waited for (R135), and accesses that a snapshot holds waited for (R95, R97). -/
def wordAccess (i : Instr) (base : BitVec 8) (reg access : Nat) (body : Nat → Body) : Body := afterJoin fun s u w =>
  match checkGlobal s u w access false 8 [(0, w.base base)] with
  | .act a => a
  | .bad a => a
  | .ok accs =>
    match accs with
    | [] => .done s
    | a :: _ =>
      if s.poisoned a.pa 8 then poisonTrap s w i false reg 0
      else
        let s := if (s.ownBytes w.core u a.pa 8).isEmpty then s else s.drainRange w.core a.pa 8
        if w.earlierRead (w.lateSeq + 1) (a.pa / 16) then .wait s .retry
        else if !(s.ownBytes w.core u a.pa 8).isEmpty || s.lineLocked a.pa 8 (some u) || (isWrite access && s.writeHeld a.pa 8 (some u)) then .wait s .cow
        else body a.pa s u (s.regroup u w)

/-- The acquire side of a wait on memory (R147, R151): the L1 is invalidated; with earlier reads pending, later accesses wait for these,
and the L1 is invalidated again when they have landed. -/
def acquired (s : State) (u : Nat) (w : Wave) : State :=
  let early := w.late.any (·.reads)
  (s.setWave u { w with joined := w.joined || early, acquires := w.acquires || early }).acquire w.core

/-- WAITT on a memory timeline (R147, R279). Stage 2 says that the slice has made the read that ends the wait. -/
def execWaittMemory (f : EF) (s : State) := runInstr (.waittMemory f) (forbiddenInGroup fun s u w =>
  if w.prog.stage = 2 then .done (acquired s u w)
  else wordAccess (.waittMemory f) f.b f.b.toNat 0 (fun pa s u w =>
    let n := (w.src64 f.a).toNat
    if !s.readHeld pa 8 (some u) && decide (n ≤ s.read pa 8) then .done (acquired s u w)
    else .wait s (.memTimeline pa n)) s u w) s

/-- FENCE (R139, R140, R277). Without a predecessor class it orders nothing, but its acquire side still empties the L1 (R53). -/
def execFence (f : EF) (s : State) := runInstr (.fence f) (forbiddenInGroup fun s u w =>
  let pred := ctlBits f 3 0
  let succ := ctlBits f 7 4
  let scope := ctlBits f 10 8
  let after := fun (s : State) => if bit succ 0 && decide (1 ≤ scope) then s.acquire w.core else s
  if pred = 0 ∨ succ = 0 then .done (after s)
  else
    let (s, ok) := s.predecessors u w (bit pred 0) (bit pred 1 && decide (1 ≤ scope)) (bit pred 2)
    if !ok then .wait s (.fence pred succ scope)
    else .done (after s)) s

/-! ### Scoreboards (R283, R284) -/

/-- SBSET and SBCLR: a release of R, W and X at the named scope (R151), then the atomic. -/
def scoreboard (i : Instr) (f : EF) (change : Nat → Nat → Nat) : Body := forbiddenInGroup (wordAccess i f.b f.b.toNat 2
  fun pa s u w =>
    let scope := ctlBits f 2 0
    let (s, ok) := s.predecessors u w true (decide (1 ≤ scope)) true
    if !ok then .wait s (.fence 7 2 scope)
    else if s.readHeld pa 8 (some u) then .wait s .cow
    else .done ((s.dropL1 w.core pa 8).writeHome pa (natLe 8 (change (s.read pa 8) (w.src64 f.a).toNat)) (some u)))

/-- SBSET (R284). -/
def execSbset (f : EF) (s : State) := runInstr (.sbset f) (scoreboard (.sbset f) f fun m x => m ||| x) s
/-- SBCLR (R284). -/
def execSbclr (f : EF) (s : State) := runInstr (.sbclr f) (scoreboard (.sbclr f) f fun m x => m - (m &&& x)) s

/-- SBWAIT (R284). -/
def execSbwait (f : EF) (s : State) := runInstr (.sbwait f) (forbiddenInGroup fun s u w =>
  let any := bit f.ctl.toNat 3
  let mask := (w.src64 f.a).toNat
  if w.prog.stage = 2 then .done (acquired s u w)
  else if any && mask == 0 then .trap s trapIllegalOperand ((encode (.sbwait f)).getD 0) 48
  else wordAccess (.sbwait f) f.b f.b.toNat 0 (fun pa s u w =>
    if !s.readHeld pa 8 (some u) && sbHolds (s.read pa 8) mask any then .done (acquired s u w)
    else .wait s (.scoreboard pa mask any)) s u w) s

/-- SBTAKE (R284): the bit goes in the atomic that finds it; stage 1 marks a waiting SBTAKE, and stage 2 one whose bit the
slice has taken, in `prog.x`. -/
def execSbtake (f : EF) (s : State) := runInstr (.sbtake f) (forbiddenInGroup fun s u w =>
  let mask := (w.src64 f.a).toNat
  if w.prog.stage = 2 then .done (acquired s u (w.setS f.d.toNat (BitVec.ofNat 32 w.prog.x)))
  else if mask = 0 then .trap s trapIllegalOperand ((encode (.sbtake f)).getD 0) 48
  else wordAccess (.sbtake f) f.b f.b.toNat 2 (afterReads ∘ fun pa s u w =>
    let m := s.read pa 8
    if !s.readHeld pa 8 (some u) && sbHolds m mask true then
      let j := lowestBit (m &&& mask)
      let s := (s.dropL1 w.core pa 8).writeHome pa (natLe 8 (m - 2 ^ j)) (some u)
      .done (acquired s u (w.setS f.d.toNat (BitVec.ofNat 32 j)))
    else .wait (s.setWave u { w with prog := { w.prog with stage := 1 } }) (.scoreboard pa mask true)) s u w) s

/-! ### Commit groups (R86 to R90, R282) -/

/-- An opened group. `since` is 1: its CGBEGIN follows the restart point (R388). -/
def Group.opened : Group := { doom := 0, reads := [], writes := [], bytes := [], count := 0, since := 1 }

/-- CGBEGIN (R282). -/
def execCgbegin (f : EF) (s : State) := runInstr (.cgbegin f) (onWave fun w =>
  if w.group.isSome then w.doom 6 else { w with group := some { Group.opened with first := w.lateSeq } }) s

/-- CGABORT (R282). -/
def execCgabort (f : EF) (s : State) := runInstr (.cgabort f) (onWave fun w => w.doom 5) s

/-- Performs a group's stores together (R88, R89): every byte first, then the waits on what changed are checked. -/
def State.performGroup (s : State) (u : Nat) (w : Wave) (g : Group) : State :=
  let runs := byteRuns g.bytes
  let s := runs.foldl (fun s r => (s.dropL1 w.core r.1 r.2.length).poke r.1 r.2 (some u)) s
  runs.foldl (fun s r => s.recheck r.1 r.2.length) s

/-- Does a group store to a page that a snapshot has marked (R91)? -/
def State.marksGroup (s : State) (g : Group) : Bool := g.bytes.any fun b => (mapFind s.snap.marks (b.1 / 65536)).isSome

/-- Lines of a group that another group has locked (R88). -/
def State.linesTaken (s : State) (u : Nat) (g : Group) : Bool :=
  ((g.reads.map (·.1)) ++ g.writes).any fun l => s.lineLocked (l * 64) 64 (some u)

/-- CGCOMMIT (R88, R90, R91, R282): the lines lock together, the watches are tested and the stores are performed in one step. While
pages of the group are copied for a snapshot, the lines stay locked (R91); a freeze is waited for without locks. A store that the firewall
refuses makes the whole commit fail (R89, R90). The status comes by a lookahead wait. -/
def execCgcommit (f : EF) (s : State) := runInstr (.cgcommit f) (fun s u w =>
  let close := fun (s : State) (status : Nat) =>
    Act.done (s.updWave u fun w => { w with group := none }.addAnswer false f.d.toNat 1 [(0, status)])
  match w.group with
  | none => close s 6
  | some g =>
    if g.doom ≠ 0 then close s g.doom
    else if g.reads.any (·.2) then close s 1
    else if w.late.any (·.reads) then .wait s .late
    else
      let s := (byteRuns g.bytes).foldl (fun s r =>
        if (s.ownBytes w.core u r.1 r.2.length).isEmpty then s else s.drainRange w.core r.1 r.2.length) s
      let g := (s.groupOf u w).getD g
      if g.reads.any (·.2) then close s 1
      else if (byteRuns g.bytes).any (fun r => !(s.ownBytes w.core u r.1 r.2.length).isEmpty || s.timelineHeld r.1 r.2.length) ||
          s.linesTaken u g || (s.snap.state == 2 && s.marksGroup g) then .wait s .cow
      else if g.bytes.any fun b => !s.admits (s.waveWho w) b.1 then close s 3
      else if s.marksGroup g then .wait (s.updWave u fun w => { w with group := some { g with locked := true } }) .cow
      else close (s.performGroup u w g) 0) s

end Sys2Proof.Machine
end

