-- ==== Sys2Proof/Machine/Copy.lean ====
section
/-! DEFINITION. The copy timeline (R47, R59, R63, R144, R272 to R275, R281): segment roles, tile copies with their records,
deferred timeline reads, and SPMARK. -/

namespace Sys2Proof.Machine

/-! ### Cohorts, resident or saved -/

/-- Changes a cohort, resident or in a saved context. -/
def State.updAnyCohort (s : State) (cid : Nat) (f : Cohort → Cohort) : State :=
  if (s.cohort cid).isSome then s.updCohort cid f
  else s.updSaved (fun x => x.id == cid) fun x => { x with cohort := f x.cohort }

/-- Is a cohort in a saved context? -/
def State.isSaved (s : State) (cid : Nat) : Bool := s.sched.tasks.any fun t => t.saved.any fun x => x.id == cid

/-- Bytes of one half of a cohort's scratch allocation (R54). -/
def Cohort.halfSize (c : Cohort) : Nat := if c.paired then c.scratchSize / 2 else c.scratchSize

/-- The core and segment that hold the whole range beginning at a scratch address (R55). `segs` lists half × 16 + segment
for the whole ranges in ascending order of address. -/
def Cohort.wholeSegment (c : Cohort) (a : Nat) : Option (Nat × Nat) :=
  let h := c.halfSize
  let k := if h = 0 then 0 else a / h
  let off := a - k * h
  if h ≠ 0 ∧ k < (if c.paired then 2 else 1) ∧ off % 131072 = 0 ∧ off + 131072 ≤ h then
    (c.segs[k * (h / 131072) + off / 131072]?).map fun x => (c.core + x / 16, x % 16)
  else none

/-- A whole segment's range reads zero with every line FULL, and nothing is pending in it (R63). -/
def Cohort.clearRange (c : Cohort) (a : Nat) : Cohort :=
  let inside := fun (line : Nat) => decide (a / 128 ≤ line ∧ line < a / 128 + 1024)
  { c with
    scratch := c.scratch.filter fun x => !decide (a ≤ x.1 ∧ x.1 < a + 131072),
    spoiled := c.spoiled.filter fun k => !decide (a ≤ 4 * k ∧ 4 * k < a + 131072), empty := c.empty.filter fun l => !inside l,
    stagePend := c.stagePend.filter fun l => !inside l, failed := c.failed.filter fun x => !inside x.1,
    unfenced := c.unfenced.filter fun x => !decide (a ≤ x.addr ∧ x.addr < a + 131072) }

/-! ### Copy commands -/

/-- A command of the copy engines, not yet begun. -/
def CopyCmd.blank (id kind die core : Nat) : CopyCmd :=
  { id := id, kind := kind, die := die, core := core, wave := none, cohort := 0, trigger := none, batch := 0, world := 0,
    asid := 0, disp := 0, pc := 0, recVa := 0, rec_ := [], args := [], done := [], parked := false, stopped := none }

/-- A copy command of wave `u` joins the open batch of timeline `e` and is queued (R278). -/
def State.issueCopy (s : State) (u : Nat) (w : Wave) (e kind : Nat) (recVa : DWord) (rec_ : List Byte) (args : List Nat) : State × Nat :=
  let (id, s) := s.fresh
  let s := s.updWave u fun w => w.joinBatch e id
  let c : CopyCmd := { CopyCmd.blank id kind (dieOf w.core) w.core with
    wave := some u, cohort := w.cohort, batch := (w.tl e).batches + 1, world := s.waveWorld w, asid := s.waveAsid w,
    disp := s.waveDisp w, pc := w.pc, recVa := recVa, rec_ := rec_, args := args }
  ({ s with sched := { s.sched with copies := s.sched.copies ++ [c] } }, id)

/-- A copy command by its number. -/
def State.copyCmd (s : State) (id : Nat) : Option CopyCmd := s.sched.copies.find? fun x => x.id == id
def State.updCopy (s : State) (id : Nat) (f : CopyCmd → CopyCmd) : State :=
  { s with sched := { s.sched with copies := updFirst (fun x => x.id == id) f s.sched.copies } }

/-- The cause that a fired trigger reports for a trap code (R322). -/
def triggerCause (code : Nat) : Nat := if code = trapPoison then 9 else if code = trapFirewall then 3 else 2

/-- A command of the copy timeline completes, with the trap and address of its error if it failed (R274, R280, R322). -/
def State.finishCopy (s : State) (c : CopyCmd) (err : Option (Nat × DWord)) : State :=
  let s := { s with sched := { s.sched with copies := s.sched.copies.filter fun x => x.id != c.id } }
  let s := match c.wave with
    | some u => s.completeCmd u 0 c.id (err.map fun e => trapErr c.id e.1 e.2)
    | none => s
  match c.trigger with
  | some t => s.updDie c.die fun d => { d with triggers := d.triggers.map fun x =>
      if x.entry == t && x.cmdId == c.id then { x with done := true, cause := (err.map fun e => triggerCause e.1).getD 0 } else x }
  | none => s

/-- Who a copy command acts as. -/
def CopyCmd.who (c : CopyCmd) : Who := if isTrustCore c.core then .trust else .world c.world

/-! ### Records read at issue (R273) -/

/-- Pieces of memory that the issuing wave reads as its own loads at issue (R24, R80); `reg` is the base register for TINFO1. Inside a
commit group they are loads of the group (R86, R90). -/
def readPieces (i : Instr) (reg align : Nat) (ps : List (Nat × Nat)) (body : List Byte → Body) : Body := fun s u w =>
  let ls := ps.map fun p => (0, p.1)
  let go := fun (bs : List Byte) (s : State) (w : Wave) => body bs (s.setWave u w) u w
  let zeros := fun (cause : Nat) => go (List.replicate (ps.map (·.2)).sum 0) s (w.doom cause)
  match checkGlobal s u w 0 false align ls with
  | .act a => a
  | .bad a => if w.group.isSome then zeros (loadDoom s w ls) else a
  | .ok accs =>
    let xs := accs.zip (ps.map (·.2))
    if xs.any fun x => s.poisoned x.1.pa x.2 then if w.group.isSome then zeros 3 else poisonTrap s w i false reg 0
    else
      let (w, new) := match w.group with
        | some g => if g.doom ≠ 0 then (w, []) else if s.canWatch g (g.newLines xs) then (w, g.newLines xs) else (w.doom 2, [])
        | none => (w, [])
      match (s.setWave u w).readNow u w xs with
      | (s, none) => .wait s .retry
      | (s, some bs) => go (bs.flatMap (·.2)) s ((s.regroup u w).watch new)

/-- A record of `n` bytes at an address, aligned to its size. -/
def readRecordAt (i : Instr) (reg va n : Nat) (body : List Byte → Body) : Body := readPieces i reg n [(va, n)] body

/-- A record named by a base pair. -/
def readRecord (i : Instr) (base : BitVec 8) (n : Nat) (body : List Byte → Body) : Body :=
  afterJoin fun s u w => readRecordAt i base.toNat (w.base base) n body s u w

/-- A copy record (R273): extents of unused dimensions are 1. -/
structure Tile where
  src : Nat
  dst : Nat
  e : Nat
  ssp : Bool
  dsp : Bool
  fill : Bool
  dims : Nat
  ext : List Nat
  sstep : List Int
  dstep : List Int
deriving DecidableEq, Repr

/-- The fields of a record. -/
def tileOf (n : Nat) : Tile :=
  let dims := fld n 135 134
  { src := fld n 63 0, dst := fld n 127 64, e := 2 ^ fld n 130 128, ssp := bit n 131, dsp := bit n 132, fill := bit n 133,
    dims := dims, ext := (List.range 4).map fun j => if j ≤ dims then fld n (191 + 32 * j) (160 + 32 * j) else 1,
    sstep := 0 :: (List.range 3).map fun j => signedOf 32 (fld n (351 + 64 * j) (320 + 64 * j)),
    dstep := 0 :: (List.range 3).map fun j => signedOf 32 (fld n (383 + 64 * j) (352 + 64 * j)) }

/-- Elements of a tile. -/
def Tile.count (t : Tile) : Nat := t.ext.foldl (· * ·) 1

/-- Index of an element on each dimension. -/
def Tile.index (t : Tile) (i : Nat) : List Nat :=
  let x := nth 1 t.ext
  [i % x 0, i / x 0 % x 1, i / (x 0 * x 1) % x 2, i / (x 0 * x 1 * x 2)]

/-- Address of an element from a base and steps. -/
def Tile.addr (t : Tile) (base : Nat) (steps : List Int) (i : Nat) : Nat :=
  let x := t.index i
  wrapTo 64 ((base : Int) + (nth 0 x 0 * t.e : Nat) + ((nth 0 x 1 : Nat) : Int) * nth 0 steps 1 + ((nth 0 x 2 : Nat) : Int) * nth 0 steps 2 +
    ((nth 0 x 3 : Nat) : Int) * nth 0 steps 3)
def Tile.srcAddr (t : Tile) (i : Nat) : Nat := t.addr t.src t.sstep i
def Tile.dstAddr (t : Tile) (i : Nat) : Nat := t.addr t.dst t.dstep i

/-- The checks that make a record malformed (R273, R314): byte offset of the field, and whether it is acceptable. -/
def tileChecks (n : Nat) (rxfer : Bool) : List (Nat × Bool) :=
  let t := tileOf n
  let used := fun (j : Nat) => decide (j ≤ t.dims)
  [(0, t.src % t.e == 0), (8, t.dst % t.e == 0), (16, decide (fld n 130 128 ≤ 4)), (16, !(rxfer && t.dsp)),
   (16, !t.fill || (t.dsp && !rxfer)), (17, fld n 159 136 == 0)] ++
  ((List.range 4).map fun j => (20 + 4 * j, (fld n (191 + 32 * j) (160 + 32 * j) != 0) == used j)) ++
  [(20, decide (t.count * t.e ≤ 2 ^ 40)), (36, rxfer || fld n 319 288 == 0)] ++
  ((List.range 3).map fun j => (40 + 8 * j, used (j + 1) || fld n (351 + 64 * j) (320 + 64 * j) == 0)) ++
  ((List.range 3).map fun j => (44 + 8 * j, used (j + 1) || fld n (383 + 64 * j) (352 + 64 * j) == 0))

/-- The lowest byte offset of a failed check. -/
def lowestOffset (l : List (Nat × Bool)) : Option Nat :=
  (l.filterMap fun x => if x.2 then none else some x.1).foldl (fun m x => match m with
    | none => some x
    | some y => some (min x y)) none

/-- ILLEGAL_OPERAND for a record: TINFO1 is 0xFF with the byte offset (R376). -/
def badRecord (i : Instr) (off : Nat) : TrapInfo := (trapIllegalOperand, (encode i).getD 0, BitVec.ofNat 64 (0xFF + 2 ^ 16 * off))

/-- The first element address of a row of `n` elements of `e` bytes that the cohort's allocation does not hold. -/
def Cohort.badRow (c : Cohort) (a n e : Nat) : Option Nat :=
  if c.scratchOk a (n * e) then none
  else if !c.scratchOk a e then some a
  else
    let lim := (c.fifoSegs.filter fun g => decide (a < g)).foldl min c.scratchSize
    some (a + (lim - a) / e * e)

/-- The first element of a tile that lies outside the scratch allocation (R273): rows in index order. -/
def Cohort.badTile (c : Cohort) (t : Tile) (addr : Nat → Nat) : Option Nat :=
  let n := nth 1 t.ext 0
  (List.range (t.count / max n 1)).findSome? fun r => c.badRow (addr (r * n)) n t.e

/-- The checks of a TCOPY record at issue: malformed, then scratch ranges, source first (R273). -/
def tcopyCheck (i : Instr) (c : Cohort) (n : Nat) : Option TrapInfo :=
  match lowestOffset (tileChecks n false) with
  | some off => some (badRecord i off)
  | none =>
    let t := tileOf n
    let bad := (if t.ssp then c.badTile t t.srcAddr else none).orElse fun _ => if t.dsp then c.badTile t t.dstAddr else none
    bad.map fun a => (trapScratchRange, BitVec.ofNat 64 a, 0)

/-- TCOPY (R273). -/
def execTcopy (f : EF) (s : State) := runInstr (.tcopy f) (forbiddenInGroup (readRecord (.tcopy f) f.b 64 fun bs s u w =>
  match s.cohort w.cohort with
  | none => .done s
  | some c =>
    match tcopyCheck (.tcopy f) c (leNat bs) with
    | some (code, i0, i1) => .trap s code i0 i1
    | none => .done (s.issueCopy u w 0 0 (BitVec.ofNat 64 (w.base f.b)) bs []).1)) s

/-! ### Moving elements (R274) -/

/-- What moving one element comes to. -/
inductive Move where
  /-- the element is moved -/
  | moved (s : State)
  /-- it waits: an EMPTY line, a held page or line -/
  | later
  /-- the command is parked on a fault token -/
  | parked (s : State)
  /-- the command stops with a trap code and address -/
  | stop (code : Nat) (va : Nat) (s : State)

/-- A fault of an engine command: direct kinds stop it, the others are queued with SOURCE 2 (R37, R274). -/
def engineFault (s : State) (c : CopyCmd) (va kind access level : Nat) : Move :=
  if directKind kind then .stop (kindTrap kind) va s
  else .parked (queueFault (s.updCopy c.id fun c => { c with stopped := some (kindTrap kind, va) }) c.die { va := va, kind := kind, access := access, level := level } c.asid (.copy c.id))

/-- Bytes that an engine reads, or why it does not. -/
inductive Got where
  | bytes (bs : List Byte) (s : State)
  | other (m : Move)

/-- Reads an element's source: scratchpad lines must be FULL (R59) and not failed (R42); a byte that the wave has stored and
nobody has seen may be the old one (R144). -/
def engineGet (s : State) (c : CopyCmd) (scratch : Bool) (a n : Nat) : Got :=
  if scratch then
    match s.cohort c.cohort with
    | none => .other (if s.isSaved c.cohort then .later else .stop trapScratchRange a s)
    | some k =>
      if !k.scratchOk a n then .other (.stop trapScratchRange a s)
      else match (linesOf a n).findSome? fun l => mapFind k.failed l with
        | some t => .other (.stop (kindTrap t.kind) t.va s)
        | none => if (linesOf a n).any fun l => k.empty.contains l then .other .later
          else
            let r := k.engineRead c.wave c.id a n
            if r.1.any (·.2) then .other (.stop trapPoison a s) else .bytes (r.1.map (·.1)) (s.setCohort c.cohort r.2)
  else match engineRead c.die c.asid c.world c.who 0 (n / 65536 + 2) s a n with
    | .ok bs s' =>
      match engineXlate s' c.die c.asid c.world c.who a 0 with
      | .ok pa _ _ => if s'.readHeld pa n none then .other .later else .bytes bs s'
      | _ => .bytes bs s'
    | .fault va k l s => .other (engineFault s c va k 0 l)
    | .firewall va s => .other (.stop trapFirewall va s)
    | .poison va s => .other (.stop trapPoison va s)

/-- The pieces of a range by page. -/
def pagePieces (va : Nat) (bs : List Byte) : List (Nat × List Byte) :=
  let m := 65536 - va % 65536
  if bs.length ≤ m then [(va, bs)] else [(va, bs.take m), ((va + m) % 2 ^ 64, bs.drop m)]

/-- Writes an element to its destination: every piece is checked before any is written. -/
def enginePut (s : State) (c : CopyCmd) (scratch : Bool) (a : Nat) (bs : List Byte) : Move :=
  if scratch then
    match s.cohort c.cohort with
    | none => if s.isSaved c.cohort then .later else .stop trapScratchRange a s
    | some k => if !k.scratchOk a bs.length then .stop trapScratchRange a s else .moved (s.setCohort c.cohort (k.scratchWrite a bs))
  else
    let rec go (s : State) (ps : List (Nat × List Byte)) (w : List (Nat × List Byte)) : Move :=
      match ps with
      | [] => if w.any fun x => s.writeHeld x.1 x.2.length then .later else .moved (w.foldl (fun s x => s.writeHome x.1 x.2) s)
      | p :: ps =>
        match engineXlate s c.die c.asid c.world c.who p.1 1 with
        | .ok pa _ s => go s ps (w ++ [(pa, p.2)])
        | .fault k l s => engineFault s c p.1 k 1 l
        | .firewall s => .stop trapFirewall p.1 s
    go s (pagePieces a bs) []

/-- Moves one element of a tile copy. -/
def moveElement (s : State) (c : CopyCmd) (t : Tile) (i : Nat) : Move :=
  match engineGet s c t.ssp (t.srcAddr i) t.e with
  | .other m => m
  | .bytes bs s => enginePut s c t.dsp (t.dstAddr i) bs

/-- Lines of the destination that the moved elements complete under FILL (R59): every element of the command that writes to
the line has been moved. -/
def Tile.filledLines (t : Tile) (done moved : List Nat) : List Nat :=
  ((moved.filter done.contains).flatMap fun i => linesOf (t.dstAddr i) t.e).eraseDups.filter fun l =>
    (List.range t.count).all fun i => done.contains i || !(linesOf (t.dstAddr i) t.e).contains l

/-- The lines that a FILL command's moved elements have completed become FULL (R59, R273). -/
def State.fillTile (s : State) (t : Tile) (cmd : Nat) (moved : List Nat) : State :=
  match s.copyCmd cmd with
  | some c => if t.fill then s.updCohort c.cohort fun k => (t.filledLines c.done moved).foldl Cohort.fillLine k else s
  | none => s

/-- Moves elements in turn until one parks or stops the command; the elements moved are recorded, and what has landed stays landed.
`moved` are the elements of this event, whose lines alone become FULL now (R59). -/
def moveElements (t : Tile) (id : Nat) (moved : List Nat) : List Nat → State → State
  | [], s => s
  | i :: is, s =>
    match s.copyCmd id with
    | none => s
    | some c =>
      match moveElement s c t i with
      | .moved s => moveElements t id moved is (s.updCopy id fun c => { c with done := insNat i c.done })
      | .later => moveElements t id moved is s
      | .parked s => s
      | .stop code va s => (s.fillTile t id (moved.filter c.done.contains)).finishCopy c (some (code, BitVec.ofNat 64 va))

/-- TILE_COPY_PERFORM (R274): the engine moves the elements named, or every element left, in the order given; with the last
one the command completes. -/
def execTileCopyPerform (cmd : Nat) (elems : List Nat) (s : State) : Host.Outcome State Fault Refusal :=
  match s.copyCmd cmd with
  | none => .next s
  | some c =>
    if c.kind ≠ 0 ∨ c.parked then .next s
    else
      let t := tileOf (leNat c.rec_)
      let todo := (if elems.isEmpty then List.range t.count else elems).filter fun i => decide (i < t.count) && !c.done.contains i
      let s := moveElements t cmd todo todo s
      match s.copyCmd cmd with
      | none => .next s
      | some c =>
        let s := s.fillTile t cmd todo
        .next (if c.done.length = t.count then s.finishCopy c none else s)

/-! ### Segment roles (R47, R61, R63, R272) -/

/-- Changes a segment of a core. -/
def State.updSegment (s : State) (core seg : Nat) (f : Segment → Segment) : State :=
  s.updCore core fun k => { k with segs := mapPut Segment.reset k.segs seg (f (mapGet Segment.reset k.segs seg)) }

/-- The FIFOs of a layout: (number, capacity in units of 4 KiB) of the valid entries. -/
def fifoLayout (x : Nat) : List (Nat × Nat) :=
  (List.range 8).filterMap fun f =>
    let e := x / 2 ^ (16 * f) % 65536
    if bit e 4 then some (fld e 3 0, fld e 13 8) else none

/-- The reserved bits of a layout are zero. -/
def layoutReserved (x : Nat) : Bool :=
  (List.range 8).all fun f => let e := x / 2 ^ (16 * f) % 65536; fld e 7 5 == 0 && fld e 15 14 == 0

/-- Depth of a FIFO of `units` for width W (R61). -/
def fifoDepth (units width : Nat) : Nat := units * 4096 / (width * 4)

/-- Numbers of the FIFOs that pending SEGCFGs of a cohort will make. -/
def State.pendingFifos (s : State) (cid : Nat) : List Nat :=
  (s.sched.copies.filter fun c => c.kind == 1 && c.cohort == cid).flatMap fun c => (fifoLayout (nth 0 c.args 2)).map (·.1)

/-- Is a layout acceptable for a cohort (R61, R272)? -/
def layoutOk (c : Cohort) (inUse : List Nat) (x width : Nat) : Bool :=
  let l := fifoLayout x
  layoutReserved x && !l.isEmpty && decide ((l.map (·.2)).sum ≤ 32) && l.all (fun p => decide (1 ≤ fifoDepth p.2 width)) &&
    l.all (fun p => !(c.fifos.any fun q => q.num == p.1) && !inUse.contains p.1) && (l.map (·.1)).eraseDups.length == l.length

/-- The FIFOs of a segment are empty. -/
def Cohort.fifosEmpty (c : Cohort) (a : Nat) : Bool := c.fifos.all fun q => q.seg != a || q.entries.isEmpty

/-- SEGCFG (R272): checked now, the new role serves 1,024 clocks later. A segment that returns to SCRATCH loses its FIFOs
at once. `args` is the address, the role, the layout, the clock from which the new role may serve, and the wave's width. -/
def execSegcfg (f : EF) (s : State) := runInstr (.segcfg f) (forbiddenInGroup (afterJoin fun s u w =>
  let a := (w.src f.a).toNat
  let role := ctlBits f 1 0
  let layout := if role = 3 then w.sgroup f.b.toNat 4 else 0
  let illegal := fun (lo : Nat) => Act.trap s trapIllegalOperand ((encode (.segcfg f)).getD 0) (BitVec.ofNat 64 lo)
  match s.cohort w.cohort with
  | none => .done s
  | some c =>
    let busy := s.sched.copies.any fun x => x.kind == 1 && x.cohort == w.cohort && nth 0 x.args 0 == a
    if a % 131072 ≠ 0 then illegal 48
    else if role = 3 && !layoutOk c (s.pendingFifos w.cohort) layout w.width then illegal 40
    else match c.wholeSegment a with
      | none => .trap s trapScratchRange (BitVec.ofNat 64 a) 0
      | some (core, seg) =>
        let fifo := c.fifoSegs.contains a
        if busy || fifo == decide (role = 3) || (role == 2 && !c.fifosEmpty a) then illegal 48
        else
          let s := if role = 2 then s.setCohort w.cohort { c with fifos := c.fifos.filter fun q => q.seg != a } else s
          let s := s.updSegment core seg fun g => { g with next := some (if role = 2 then .scratch else .fifo) }
          .done (s.issueCopy u w 0 1 0 [] [a, role, layout, s.clock + 1024, w.width]).1)) s

/-- SEGCFG_COMPLETE (R272): the new role serves and the command completes. -/
def execSegcfgComplete (cmd : Nat) (s : State) : Host.Outcome State Fault Refusal :=
  match s.copyCmd cmd with
  | none => .next s
  | some c =>
    if c.kind ≠ 1 ∨ s.clock < nth 0 c.args 3 then .next s
    else
      let a := nth 0 c.args 0
      let toFifo := decide (nth 0 c.args 1 = 3)
      let width := nth 0 c.args 4
      let apply := fun (k : Cohort) =>
        let k := k.clearRange a
        if toFifo then
          let new := (fifoLayout (nth 0 c.args 2)).map fun p =>
            ({ num := p.1, seg := a, cap := p.2 * 4096, depth := fifoDepth p.2 width, entries := [] } : Fifo)
          { k with fifoSegs := insNat a k.fifoSegs, fifos := k.fifos ++ new }
        else { k with fifoSegs := k.fifoSegs.filter (· != a) }
      let s := match (s.cohort c.cohort).bind fun k => k.wholeSegment a with
        | some (core, seg) => s.updSegment core seg fun g => { g with role := if toFifo then .fifo else .scratch, next := none }
        | none => s
      .next ((s.updAnyCohort c.cohort apply).finishCopy c none)

/-! ### Deferred timeline reads (R281) -/

/-- TLREAD of a memory timeline: the pair is engine-pending until a covering WAITT (R171). -/
def execTlreadDeferred (f : EF) (s : State) := runInstr (.tlreadDeferred f) (forbiddenInGroup (afterJoin fun s u w =>
  let va := w.base f.b
  if va % 8 ≠ 0 then .trap s trapMisaligned (BitVec.ofNat 64 va) 0
  else
    let key := w.skey f.d.toNat
    let (s, _) := s.issueCopy u w 0 2 (BitVec.ofNat 64 va) [] [key, va]
    .done (s.updWave u fun w => { w with epend := w.epend ++
      [{ vec := false, reg := key, timeline := 0, batch := (w.tl 0).batches + 1 },
       { vec := false, reg := key + 1, timeline := 0, batch := (w.tl 0).batches + 1 }] }))) s

/-- TLREAD_PERFORM (R281): the word is read at its home slice; a fault of any kind completes the command with an error. -/
def execTlreadPerform (cmd : Nat) (s : State) : Host.Outcome State Fault Refusal :=
  match s.copyCmd cmd with
  | none => .next s
  | some c =>
    if c.kind ≠ 2 then .next s
    else
      let va := nth 0 c.args 1
      let fail := fun (s : State) (code : Nat) => s.finishCopy c (some (code, BitVec.ofNat 64 va))
      match engineXlate s c.die c.asid c.world c.who va 0 with
      | .fault k _ s => .next (fail s (kindTrap k))
      | .firewall s => .next (fail s trapFirewall)
      | .ok pa _ s =>
        if s.poisoned pa 8 then .next (fail s trapPoison)
        else if s.readHeld pa 8 none then .next s
        else
          let v := s.read pa 8
          let s := match c.wave with
            | some u => s.updAnyWave u fun w => w.setKeys (nth 0 c.args 0) 2 v
            | none => s
          .next (s.finishCopy c none)

/-! ### SPMARK (R275) -/

/-- SPMARK: the lines change clock by clock from the next one (`Cohort.markLines`). It waits for an SPMARK before it of its wave as for
any other scratch access. -/
def execSpmark (f : EF) (s : State) := runInstr (.spmark f) (forbiddenInGroup (afterJoin (afterReads fun s u w =>
  let a := (w.src f.a).toNat
  let n := (w.src f.b).toNat
  match s.cohort w.cohort with
  | none => .done s
  | some c =>
    if a % 128 ≠ 0 then .trap s trapMisaligned (BitVec.ofNat 64 a) 0
    else if n % 128 ≠ 0 then .trap s trapMisaligned (BitVec.ofNat 64 n) 0
    else match (if n = 0 then none else c.badRow a (n / 128) 128) with
      | some x => .trap s trapScratchRange (BitVec.ofNat 64 x) 0
      | none =>
        if n = 0 then .done s
        else if c.marking.any fun m => m.wave == u then .wait s .retry
        else .done (s.setCohort w.cohort { c with marking := c.marking ++
          [{ wave := u, start := s.clock, line := a / 128, count := n / 128, done := 0, full := f.ctl == 1 }] })))) s

end Sys2Proof.Machine
end

