-- ==== Sys2Proof/Machine/Matrix.lean ====
section
/-! DEFINITION. The matrix engine (R64 to R69, R187, R190 to R193, R285 to R302): issue of its instructions, and the steps that
the engine makes for the commands of its queue. -/

namespace Sys2Proof.Machine

/-! ### The stores of a cohort -/

/-- The matrix stores of a half of a cohort. -/
def Cohort.mxOf (c : Cohort) (half : Nat) : Matrix := nth Matrix.clear c.mx half
def State.updMatrix (s : State) (cid half : Nat) (f : Matrix → Matrix) : State :=
  s.updCohort cid fun c => { c with mx := c.mx.modify half f }

/-- Bytes of the operand buffer from an offset in the allocation. -/
def Matrix.obBytes (m : Matrix) (a n : Nat) : List Byte := (List.range n).map fun i => mapGet 0 m.ob (a + i)
def Matrix.obRead (m : Matrix) (a n : Nat) : Nat := leNat (m.obBytes a n)

/-- Writes bytes to the operand buffer; words written whole lose their poison mark. -/
def Matrix.obWrite (m : Matrix) (a : Nat) (bs : List Byte) : Matrix :=
  { m with ob := (bs.zipIdx).foldl (fun x b => mapPut 0 x (a + b.2) b.1) m.ob,
           obPoison := m.obPoison.filter fun k => !(decide (a ≤ 4 * k) && decide (4 * k + 4 ≤ a + bs.length)) }

/-- The first poisoned operand-buffer word that a range meets. -/
def Matrix.obSpoiled (m : Matrix) (a n : Nat) : Option Nat := m.obPoison.find? fun k => overlaps a n (4 * k) 4

/-- Accumulator word of a row and column (R68). -/
def accKey (row col : Nat) : Nat := row * 32 + col
def Matrix.accWord (m : Matrix) (row col : Nat) : Word := mapGet 0 m.acc (accKey row col)

/-- Writes an accumulator word, with or without a poison mark. -/
def Matrix.setAcc (m : Matrix) (row col : Nat) (x : Word) (bad : Bool) : Matrix :=
  let k := accKey row col
  { m with acc := mapPut 0 m.acc k x, poison := if bad then insNat k m.poison else m.poison.filter (· != k) }

/-- The accumulator of an index under ACC64 or not: row j, or the pair 2j and 2j + 1 (R68). -/
def Matrix.accOf (m : Matrix) (f64 : Bool) (row col : Nat) : Nat :=
  if f64 then (m.accWord (row + 1) col ++ m.accWord row col).toNat else (m.accWord row col).toNat
def Matrix.accSpoiled (m : Matrix) (f64 : Bool) (row col : Nat) : Bool :=
  m.poison.contains (accKey row col) || (f64 && m.poison.contains (accKey (row + 1) col))
def Matrix.setAccOf (m : Matrix) (f64 : Bool) (row col v : Nat) (bad : Bool) : Matrix :=
  let m := m.setAcc row col (BitVec.ofNat 32 v) bad
  if f64 then m.setAcc (row + 1) col (BitVec.ofNat 32 (v / 2 ^ 32)) bad else m

/-- A plane slot. -/
def Matrix.slot (m : Matrix) (i : Nat) : Slot := mapGet Slot.clear m.slots i
def Matrix.updSlot (m : Matrix) (i : Nat) (f : Slot → Slot) : Matrix := { m with slots := mapPut Slot.clear m.slots i (f (m.slot i)) }

/-- The exchange of MSWAP (R297): planes with their tags. -/
def Slot.swap (x : Slot) : Slot := { x with active := x.shadow, shadow := x.active, turned := !x.turned }
/-- The exchange as issue checks see it (R287). -/
def Slot.swapAhead (x : Slot) : Slot :=
  { x with activeAhead := x.shadowAhead, shadowAhead := x.activeAhead, turnedAhead := !x.turnedAhead }

/-- The plane of a number, whichever name it has now (R286), and its replacement. -/
def Slot.plane (x : Slot) (p : Nat) : Plane := if (p == 1) == x.turned then x.active else x.shadow
def Slot.setPlane (x : Slot) (p : Nat) (new : Plane) : Slot :=
  if (p == 1) == x.turned then { x with active := new } else { x with shadow := new }
/-- The number of the plane that is active, or the shadow, when a command that issues now runs. -/
def Slot.activeNo (x : Slot) : Nat := b2n x.turnedAhead
def Slot.shadowNo (x : Slot) : Nat := b2n !x.turnedAhead

/-- A word of a matrix store becomes uncorrectable (R301). -/
def Matrix.spoil (m : Matrix) (store word : Nat) : Matrix :=
  match store with
  | 0 => { m with obPoison := insNat word m.obPoison }
  | 1 => { m with poison := insNat word m.poison }
  | k + 2 => m.updSlot (k / 2) fun x =>
      if k % 2 = 0 then { x with active := { x.active with poison := insNat word x.active.poison } }
      else { x with shadow := { x.shadow with poison := insNat word x.shadow.poison } }

/-! ### Records (R65) -/

/-- The fields of a record's bits. -/
def recBase (r : Nat) : Nat := fld r 11 1 * 256
def recLen (r : Nat) : Nat := fld r 23 12 * 256
def recFmt (r : Nat) : Nat := fld r 27 24
def recBlk (r : Nat) : Nat := 16 * 2 ^ fld r 29 28
def recSoff (r : Nat) : Nat := fld r 50 32
def recPlanes (r : Nat) : Nat := fld r 54 51
def recCenter (r : Nat) : Bool := bit r 55
def recOwner (r : Nat) : Nat := fld r 60 56
/-- Formats with block scales (R190). -/
def scaledFmt (fmt : Nat) : Bool := fmt == 4 || fmt == 5 || fmt == 6
/-- End of the data region of a record (R66). -/
def recEnd (r : Nat) : Nat := if scaledFmt (recFmt r) then recSoff r else recLen r
/-- A record that later commands may name: valid and not released (R295). -/
def Matrix.record (m : Matrix) (n : Nat) : Option Nat :=
  (mapFind m.records n).bind fun x => if x.releasing then none else some x.bits

/-- Blocks of a record's data region. -/
def recBlocks (r : Nat) : Nat := (recSoff r + recBlk r - 1) / recBlk r

/-- The fields of a record image that disagree (R66, R294). -/
def recordIllegal (r : Nat) : Bool :=
  let fmt := recFmt r
  let l := fld r 23 12
  bit r 0 || fld r 60 56 != 0 || fld r 31 30 != 0 || fld r 63 61 != 0 || l == 0 || decide (2048 < l) || decide (8 < fmt) ||
  (scaledFmt fmt && decide (256 * l < recSoff r + recBlocks r)) ||
  (if fmt = 6 then decide (recPlanes r < 2) || decide (8 < recPlanes r) else recPlanes r != 0) ||
  (!scaledFmt fmt && (fld r 29 28 != 0 || recSoff r != 0 || recCenter r))

/-- RESERVATION_FAULT naming a record, row or slot (R376). -/
def reservation (s : State) (i : Instr) (x : Nat) : Act :=
  .trap s trapReservation ((encode i).getD 0) (BitVec.ofNat 64 (x % 1024))
/-- ILLEGAL_OPERAND at a field. -/
def illegalAt (s : State) (i : Instr) (lo : Nat) : Act :=
  .trap s trapIllegalOperand ((encode i).getD 0) (BitVec.ofNat 64 lo)

/-- A matrix instruction: the wave's cohort and half; forbidden in a commit group (R288). -/
def matrixInstr (body : Cohort → Nat → Body) : Body := forbiddenInGroup (afterJoin fun s u w =>
  match s.cohort w.cohort with
  | none => .done s
  | some c => body c (w.half c) s u w)

/-- OBRES (R294): takes effect in its issue clock. -/
def execObres (f : EF) (s : State) := runInstr (.obres f) (matrixInstr fun c half s _ w =>
  let r := (w.src64 f.a).toNat
  let n := ctlBits f 3 0
  let m := c.mxOf half
  let other := fun (x : Nat) => recOwner x != w.slot && overlaps (recBase r) (recLen r) (recBase x) (recLen x)
  if recordIllegal r then illegalAt s (.obres f) 48
  else if c.obBytes < recBase r + recLen r || (mapFind m.records n).isSome || m.records.any fun x => other x.2.bits then
    reservation s (.obres f) n
  else
    let bits := r + 1 + 2 ^ 56 * w.slot + 2 ^ 64 * c.world
    .done (s.updMatrix w.cohort half fun m => { m with records := mapInsert m.records n { bits := bits, releasing := false } })) s

/-! ### The queue (R285 to R287) -/

/-- A command without operands. -/
def MCmd.blank : MCmd :=
  { id := 0, op := 0, wave := 0, cohort := 0, half := 0, batch := 0, rec_ := 0, slot := 0, row := 0, n := 0, x := 0, pitch := 0,
    reg := 0, fmt := 0, rm := 0, scale := 0, dest := 0, f1 := false, f2 := false, f3 := false, step := 0, vals := [],
    recBits := 0, mis := 0, err := none }

/-- A command joins the open batch of the matrix timeline and its core's queue; `regs` become engine-pending (R171). -/
def State.issueMatrix (s : State) (u : Nat) (w : Wave) (half : Nat) (c : MCmd) (regs : List Nat) : State :=
  let (id, s) := s.fresh
  let batch := (w.tl 1).batches + 1
  let s := s.updWave u fun w =>
    let w := w.joinBatch 1 id
    { w with epend := w.epend ++ regs.map fun r => { vec := true, reg := r, timeline := 1, batch := batch } }
  let c := { c with id := id, wave := u, cohort := w.cohort, half := half, batch := batch, k := w.k, lanes := w.liveLanes }
  s.updCore w.core fun k => { k with queue := k.queue ++ [c] }

/-- A command of a core's queue. -/
def State.mcmd (s : State) (core id : Nat) : Option MCmd := (s.core core).queue.find? fun c => c.id == id
def State.updMcmd (s : State) (core id : Nat) (f : MCmd → MCmd) : State :=
  s.updCore core fun k => { k with queue := updFirst (fun c => c.id == id) f k.queue }

/-- A command completes, with what it recorded (R301). -/
def State.finishMatrix (s : State) (core : Nat) (c : MCmd) : State :=
  let s := s.updCore core fun k => { k with queue := k.queue.filter fun x => x.id != c.id }
  s.completeCmd c.wave 1 c.id (c.err.map fun e => trapErr c.id e.1 e.2)

/-- What an MMA with a plane format reads of an element (R289): bytes of an A element. -/
def elemBytes (fmt : Nat) : Nat := match fmt with
  | 0 => 8
  | 1 => 4
  | 2 | 3 => 2
  | 8 => 4
  | _ => 1
/-- Throughput class of a number of planes (R192). -/
def planeClass (p : Nat) : Nat := if p ≤ 2 then 2 else if p ≤ 4 then 4 else 8
/-- K of a plane format (R289). -/
def planeK (fmt planes : Nat) : Nat := match fmt with
  | 0 => 32
  | 1 => 64
  | 2 | 3 => 128
  | 6 => 2048 / planeClass planes
  | _ => 256
/-- Bytes of an A row (R289). -/
def aRowBytes (fmt planes : Nat) : Nat := if fmt = 6 then planeK fmt planes else 256
/-- Bytes of a stored B block. -/
def blockStored (fmt planes : Nat) : Nat := if fmt = 6 then 32 * planeK fmt planes else 8192

/-- A resource: store, owner, first, length, and whether it is written (R286). Stores: 0 operand buffer (bytes), 1
accumulator rows, 2 planes (2 × slot + shadow), 3 scratch bytes, 4 vector registers, 5 records. -/
structure Res where
  store : Nat
  owner : Nat
  at_ : Nat
  len : Nat
  write : Bool
deriving DecidableEq, Repr

/-- Runs of consecutive numbers of an ascending list: first and length. -/
def numberRuns : List Nat → List (Nat × Nat)
  | [] => []
  | a :: l =>
    match numberRuns l with
    | (b, n) :: rs => if b = a + 1 then (a, n + 1) :: rs else (a, 1) :: (b, n) :: rs
    | [] => [(a, 1)]

/-- Element bytes of a target or source format of MSHOUT and MSHIN. -/
def shiftBytes (fmt : Nat) : Nat := elemBytes fmt

/-- Rows that a command with a row count covers. -/
def MCmd.rows (c : MCmd) (f64 : Bool) : Nat := if f64 then 2 * c.n else c.n

/-- The operand-buffer bytes, from a block's start, that MLDS puts into a plane, in plane order, as runs of (first, length): for ni the
first class planes of each block of each column (R290, R191). -/
def planeRuns (fmt blk planes : Nat) : List (Nat × Nat) :=
  if fmt ≠ 6 then [(0, 8192)]
  else
    let k := planeK fmt planes
    (List.range 32).flatMap fun col => (List.range (k / blk)).map fun b => (col * k + b * blk, blk / 8 * planeClass planes)

/-- The resources of a command (R286), its planes by number. MMA.swap and MSWAP come after every earlier command that reads or writes a
plane of their slot (`later`); a later command meets only the plane that an MMA reads. -/
def MCmd.resources (c : MCmd) (fmt planes : Nat) (later : Bool) : List Res :=
  let own := c.cohort * 2 + c.half
  let ob := fun (a n : Nat) (wr : Bool) => ({ store := 0, owner := own, at_ := a, len := n, write := wr } : Res)
  let names := [({ store := 5, owner := own, at_ := c.rec_, len := 1, write := false } : Res)]
  let acc := fun (f64 wr : Bool) => ({ store := 1, owner := own, at_ := c.row, len := c.rows f64, write := wr } : Res)
  let plane := fun (wr : Bool) => ({ store := 2, owner := own, at_ := 2 * c.slot + c.plane, len := 1, write := wr } : Res)
  let exchange := if later then [({ store := 2, owner := own, at_ := 2 * c.slot, len := 2, write := true } : Res)] else []
  let base := recBase c.recBits
  let blk := recBlk c.recBits
  let scales := fun (n : Nat) =>
    if scaledFmt (recFmt c.recBits) then [ob (base + recSoff c.recBits + c.x / blk) ((c.x % blk + n + blk - 1) / blk) false] else []
  let place := fun (wr : Bool) => match c.dest with
    | 0 => if wr then [({ store := 4, owner := c.wave, at_ := c.reg, len := c.pitch, write := true } : Res)] else []
    | 1 => ob (base + c.x) (32 * c.n * shiftBytes c.fmt) wr :: names
    | _ => (List.range c.n).map fun i => { store := 3, owner := c.cohort, at_ := c.x + i * c.pitch, len := 32 * shiftBytes c.fmt, write := wr }
  match c.op with
  | 0xA1 => [{ store := 5, owner := own, at_ := c.rec_, len := 1, write := true }]
  | 0xA2 => ob (base + c.x) c.n true :: names
  | 0xA3 => ((List.range c.pitch).flatMap fun j => (numberRuns c.lanes).map fun r => ob (base + c.x + 128 * c.k * j + 4 * r.1) (4 * r.2) false) ++
      [{ store := 4, owner := c.wave, at_ := c.reg, len := c.pitch, write := true }] ++ names
  | 0xA4 => [plane true]
  | 0xA5 => plane true :: ((planeRuns fmt blk planes).map fun r => ob (base + c.x + r.1) r.2 false) ++ scales (blockStored fmt planes) ++ names
  | 0xA6 => exchange
  | 0xA7 => [ob (base + c.x) (c.n * aRowBytes fmt planes) false, acc c.f3 true, plane false] ++
      (if c.f1 then exchange else []) ++ scales (c.n * aRowBytes fmt planes) ++ names
  | 0xA8 => [acc false true]
  | 0xA9 => acc c.f2 c.f3 :: place true
  | _ => acc c.f2 true :: place false

/-- Two commands share a resource that one of them writes. -/
def conflict (a b : List Res) : Bool :=
  a.any fun x => b.any fun y => x.store == y.store && x.owner == y.owner && (x.write || y.write) && overlaps x.at_ x.len y.at_ y.len

/-- The resources of a queued command: an MMA's plane format stands in `fmt`, its planes in `pitch`. -/
def MCmd.res (c : MCmd) (later : Bool) : List Res :=
  if c.op = 0xA7 then c.resources c.fmt c.pitch later else c.resources (recFmt c.recBits) (recPlanes c.recBits) later

/-- The command that may act now: no earlier command of the queue conflicts with it, and MMAs stream one at a time (R286). -/
def State.readyCmd (s : State) (core id op : Nat) : Option MCmd :=
  match s.mcmd core id with
  | none => none
  | some c =>
    let before := (s.core core).queue.takeWhile fun x => x.id != id
    if c.op ≠ op || before.any fun x => conflict (x.res false) (c.res true) || (x.op == 0xA7 && op == 0xA7) then none else some c

/-- A mismatch in a row step (R301): the third one fails the command; an MMA.swap has then exchanged its planes before its first row
(R297). -/
def State.upsetMatrix (s : State) (core cmd : Nat) : State :=
  match s.readyCmd core cmd 0xA7 with
  | none => s
  | some c =>
    if c.mis < 2 then s.updMcmd core cmd fun c => { c with mis := c.mis + 1 }
    else
      let s := if c.f1 ∧ c.step = 0 then s.updMatrix c.cohort c.half fun m => m.updSlot c.slot Slot.swap else s
      s.finishMatrix core { c with err := some (trapPipeline, 3) }

/-! ### Issue of commands -/

/-- The row and count of a source (R292): row [9:0] and N [26:16], or none when it is not acceptable. -/
def rowAndCount (x : Word) : Option (Nat × Nat) :=
  let v := x.toNat
  let n := fld v 26 16
  if fld v 15 10 != 0 || fld v 31 27 != 0 || n = 0 || 1024 < n then none else some (fld v 9 0, n)

/-- OBREL (R295): from its issue the record counts as invalid. -/
def execObrel (f : EF) (s : State) := runInstr (.obrel f) (matrixInstr fun c half s u w =>
  let n := ctlBits f 3 0
  match (c.mxOf half).record n with
  | none => reservation s (.obrel f) n
  | some r =>
    let alive := s.waves.any fun x => x.2.cohort == w.cohort && x.2.core == w.core && x.2.slot == recOwner r && x.2.wait != .draining
    if recOwner r ≠ w.slot && alive then reservation s (.obrel f) n
    else
      let s := s.updMatrix w.cohort half fun m => { m with records := mapInsert m.records n { bits := r, releasing := true } }
      .done (s.issueMatrix u w half { MCmd.blank with op := 0xA1, rec_ := n } [])) s

/-- The issue checks of OBWR and OBRD (R296), then what follows with the record's bits and the offset. -/
def obMove (i : Instr) (f : EF) (owner : Bool) (body : Nat → Nat → Nat → Body) : Body := matrixInstr fun c half s u w =>
  let n := ctlBits f 3 0
  let x := (w.src f.a).toNat
  if x % 4 ≠ 0 then .trap s trapMisaligned (BitVec.ofNat 64 x) 0
  else match (c.mxOf half).record n with
  | none => reservation s i n
  | some r =>
    if recLen r < x + 4 * w.width * (ctlBits f 11 4 + 1) || (owner && recOwner r != w.slot) then reservation s i n
    else body half r x s u w

/-- OBWR (R296): the registers are read at issue. -/
def execObwr (f : EF) (s : State) := runInstr (.obwr f) (obMove (.obwr f) f true fun half r x s u w =>
  let k := ctlBits f 11 4 + 1
  let vals := (List.range k).flatMap fun j => w.liveLanes.filterMap fun i =>
    if w.v (f.d.toNat + j) i = 0 then none else some (w.width * j + i, w.v (f.d.toNat + j) i)
  .done (s.issueMatrix u w half { MCmd.blank with
    op := 0xA2, rec_ := ctlBits f 3 0, x := x, n := 4 * w.width * k, vals := vals, recBits := r } [])) s

/-- OBRD (R296): its registers are engine-pending. -/
def execObrd (f : EF) (s : State) := runInstr (.obrd f) (obMove (.obrd f) f false fun half r x s u w =>
  let k := ctlBits f 11 4 + 1
  .done (s.issueMatrix u w half { MCmd.blank with
    op := 0xA3, rec_ := ctlBits f 3 0, x := x, n := 4 * w.width * k, reg := f.d.toNat, pitch := k, recBits := r }
    ((List.range k).map (f.d.toNat + ·)))) s

/-- The tag that a command will give a shadow plane, as issue checks see it. -/
def aheadTag (fmt blk planes : Nat) (center : Bool) : Tag := { fmt := fmt, blk := blk, center := center, planes := planes, scales := [] }

/-- MPLANE (R297). -/
def execMplane (f : EF) (s : State) := runInstr (.mplane f) (matrixInstr fun c half s u w =>
  let slot := ctlBits f 1 0
  if c.planes ≤ slot then reservation s (.mplane f) slot
  else
    let s := s.updMatrix w.cohort half fun m => m.updSlot slot fun x => { x with shadowAhead := aheadTag (ctlBits f 5 2) 0 0 false }
    .done (s.issueMatrix u w half { MCmd.blank with op := 0xA4, slot := slot, fmt := ctlBits f 5 2, f1 := bit f.ctl.toNat 6,
                                                            plane := ((c.mxOf half).slot slot).shadowNo } [])) s

/-- MLDS (R297). -/
def execMlds (f : EF) (s : State) := runInstr (.mlds f) (matrixInstr fun c half s u w =>
  let n := ctlBits f 3 0
  let slot := ctlBits f 5 4
  let o := 256 * (w.src f.a).toNat
  match (c.mxOf half).record n with
  | none => reservation s (.mlds f) n
  | some r =>
    let fmt := recFmt r
    if c.planes ≤ slot then reservation s (.mlds f) slot
    else if 6 < fmt then illegalAt s (.mlds f) 0
    else if recEnd r < o + blockStored fmt (recPlanes r) then reservation s (.mlds f) n
    else
      let s := s.updMatrix w.cohort half fun m => m.updSlot slot fun x =>
        { x with shadowAhead := aheadTag fmt (recBlk r) (recPlanes r) (recCenter r) }
      .done (s.issueMatrix u w half { MCmd.blank with op := 0xA5, rec_ := n, slot := slot, x := o, recBits := r,
                                                              plane := ((c.mxOf half).slot slot).shadowNo } [])) s

/-- MSWAP (R297). -/
def execMswap (f : EF) (s : State) := runInstr (.mswap f) (matrixInstr fun c half s u w =>
  let slot := ctlBits f 1 0
  if c.planes ≤ slot then reservation s (.mswap f) slot
  else
    let s := s.updMatrix w.cohort half fun m => m.updSlot slot Slot.swapAhead
    .done (s.issueMatrix u w half { MCmd.blank with op := 0xA6, slot := slot } [])) s

/-- The legal pairs of R290: format and planes of the A record with a plane format. -/
def legalPair (afmt aplanes pfmt : Nat) : Bool :=
  match pfmt with
  | 0 | 1 | 2 | 3 => afmt == pfmt
  | 4 | 5 => afmt == 4 || afmt == 5
  | 6 => afmt == 4 || (afmt == 6 && aplanes == 8)
  | _ => false

/-- MMA (R298): checked in the order of R292, R291, R290, the rows and the accumulator range. -/
def execMma (f : EF) (s : State) := runInstr (.mma f) (matrixInstr fun c half s u w =>
  let n := ctlBits f 3 0
  let slot := ctlBits f 5 4
  let a := (w.src f.a).toNat
  let row := fld (w.src f.b).toNat 9 0
  let count := fld a 26 16
  let m := c.mxOf half
  if fld a 15 11 != 0 || fld a 31 27 != 0 || count == 0 || decide (1024 < count) then illegalAt s (.mma f) 48
  else match m.record n with
  | none => reservation s (.mma f) n
  | some r =>
    let swap := bit f.ctl.toNat 6
    let tag := if swap then (m.slot slot).shadowAhead else (m.slot slot).activeAhead
    let f64 := tag.fmt == 0
    let o := 256 * fld a 10 0
    if c.planes ≤ slot then reservation s (.mma f) slot
    else if tag.fmt = 9 then illegalAt s (.mma f) 4
    else if !legalPair (recFmt r) (recPlanes r) tag.fmt then illegalAt s (.mma f) 0
    else if recEnd r < o + count * aRowBytes tag.fmt tag.planes then reservation s (.mma f) n
    else if f64 && row % 2 == 1 then illegalAt s (.mma f) 40
    else if c.accRows < row + count * (if f64 then 2 else 1) then reservation s (.mma f) row
    else
      let s := if swap then s.updMatrix w.cohort half fun m => m.updSlot slot Slot.swapAhead else s
      .done (s.issueMatrix u w half { MCmd.blank with
        op := 0xA7, rec_ := n, slot := slot, row := row, n := count, x := o, pitch := tag.planes, fmt := tag.fmt, f1 := swap,
        f2 := bit f.ctl.toNat 7, f3 := f64, recBits := r,
        plane := if swap then (m.slot slot).shadowNo else (m.slot slot).activeNo } [])) s

/-- MACZ (R298). -/
def execMacz (f : EF) (s : State) := runInstr (.macz f) (matrixInstr fun c half s u w =>
  match rowAndCount (w.src f.a) with
  | none => illegalAt s (.macz f) 48
  | some (row, n) =>
    if c.accRows < row + n then reservation s (.macz f) row
    else .done (s.issueMatrix u w half { MCmd.blank with op := 0xA8, row := row, n := n } [])) s

/-- The checks that MSHOUT and MSHIN share (R292, R299), and the command they make. -/
def shiftIssue (i : Instr) (f : EF) (op : Nat) (body : MCmd → Nat → Body) : Body := matrixInstr fun c half s u w =>
  let fmt := ctlBits f 3 0
  let e := shiftBytes fmt
  let dest := ctlBits f 9 8
  let f64 := bit f.ctl.toNat 10
  let x := (w.src f.b).toNat
  let pitch := (w.src f.c).toNat
  match rowAndCount (w.src f.a) with
  | none => illegalAt s i 48
  | some (row, n) =>
    let cmd := { MCmd.blank with
      op := op, row := row, n := n, x := x, pitch := pitch, fmt := fmt, rm := w.mode (ctlBits f 6 4), dest := dest, f2 := f64 }
    if f64 && row % 2 == 1 then illegalAt s i 48
    else if c.accRows < row + n * (if f64 then 2 else 1) then reservation s i row
    else match dest with
    | 0 => body { cmd with reg := f.d.toNat, pitch := shiftBlock w f } half s u w
    | 1 =>
      let k := f.d.toNat
      if x % e ≠ 0 then .trap s trapMisaligned (BitVec.ofNat 64 x) 0
      else match (c.mxOf half).record k with
      | none => reservation s i k
      | some r => if recLen r < x + 32 * n * e then reservation s i k else body { cmd with rec_ := k, recBits := r } half s u w
    | _ =>
      if x % e ≠ 0 then .trap s trapMisaligned (BitVec.ofNat 64 x) 0
      else if pitch % e ≠ 0 then .trap s trapMisaligned (BitVec.ofNat 64 pitch) 0
      else if pitch < 32 * e then illegalAt s i 32
      else match (List.range n).findSome? fun j => c.badRow (x + j * pitch) 32 e with
      | some a => .trap s trapScratchRange (BitVec.ofNat 64 a) 0
      | none => body cmd half s u w

/-- MSHOUT (R299). `scale` keeps SCALE, `f1` SAT, `f3` CLR. -/
def execMshout (f : EF) (s : State) := runInstr (.mshout f) (shiftIssue (.mshout f) f 0xA9 fun c half s u w =>
  let regs := if c.dest = 0 then (List.range c.pitch).map (c.reg + ·) else []
  .done (s.issueMatrix u w half { c with
    scale := ctlBits f 18 11, f1 := bit f.ctl.toNat 7, f3 := bit f.ctl.toNat 19 } regs)) s

/-- MSHIN (R300): vector registers are read at issue. `f1` keeps ADD. -/
def execMshin (f : EF) (s : State) := runInstr (.mshin f) (shiftIssue (.mshin f) f 0xAA fun c half s u w =>
  let vals := if c.dest = 0 then w.liveLanes.flatMap fun i => (List.range c.pitch).filterMap fun j =>
    if w.v (c.reg + j) i = 0 then none else some (vkey j i, w.v (c.reg + j) i) else []
  .done (s.issueMatrix u w half { c with f1 := bit f.ctl.toNat 11, vals := vals } [])) s

/-! ### What the engine does -/

/-- Error information of R301: the record and the unit of an operand-buffer word, or all ones. -/
def obInfo (c : MCmd) (word : Nat) : DWord := BitVec.ofNat 64 (c.rec_ + 2 ^ 16 * ((4 * word - recBase c.recBits) / 256))
def allOnes : DWord := BitVec.allOnes 64

/-- Records the first error of a command. -/
def MCmd.note (c : MCmd) (bad : Option DWord) : MCmd :=
  { c with err := c.err.orElse fun _ => bad.map fun i => (trapPoison, i) }

/-- OBREL_RELEASE (R295): the units and the number become free. -/
def execObrelRelease (core cmd : Nat) (s : State) : Host.Outcome State Fault Refusal :=
  match s.readyCmd core cmd 0xA1 with
  | none => .next s
  | some c => .next ((s.updMatrix c.cohort c.half fun m => { m with records := mapErase m.records c.rec_ }).finishMatrix core c)

/-- OBWR_WRITE (R296). -/
def execObwrWrite (core cmd : Nat) (s : State) : Host.Outcome State Fault Refusal :=
  match s.readyCmd core cmd 0xA2 with
  | none => .next s
  | some c =>
    let bs := (List.range (c.n / 4)).flatMap fun i => natLe 4 (mapGet 0 c.vals i).toNat
    .next ((s.updMatrix c.cohort c.half fun m => m.obWrite (recBase c.recBits + c.x) bs).finishMatrix core c)

/-- Writes a vector register of a wave for an engine, with a poison mark if the data had one. -/
def Wave.putV (w : Wave) (r i : Nat) (x : Word) (bad : Bool) : Wave :=
  let w := w.setV r i x
  if bad then { w with regs := { w.regs with vpoison := insNat (vkey r i) w.regs.vpoison } } else w

/-- The wave of a command. -/
def State.cmdWave (s : State) (c : MCmd) : Option Wave := s.anyWave c.wave

/-- OBRD_READ (R296): only lanes in LIVE are read and written. -/
def execObrdRead (core cmd : Nat) (s : State) : Host.Outcome State Fault Refusal :=
  match s.readyCmd core cmd 0xA3 with
  | none => .next s
  | some c =>
    match s.cohort c.cohort with
    | none => .next (s.finishMatrix core c)
    | some k =>
      let m := k.mxOf c.half
      let a := recBase c.recBits + c.x
      let place := fun (w : Wave) (j i : Nat) => a + 4 * w.width * j + 4 * i
      let hit := (s.cmdWave c).bind fun w => (List.range c.pitch).findSome? fun j => w.liveLanes.findSome? fun i => m.obSpoiled (place w j i) 4
      let s := s.updAnyWave c.wave fun w =>
        (List.range c.pitch).foldl (fun w j => w.liveLanes.foldl (fun w i =>
          let p := place w j i
          w.putV (c.reg + j) i (BitVec.ofNat 32 (m.obRead p 4)) (m.obSpoiled p 4).isSome) w) w
      .next (s.finishMatrix core (c.note (hit.map (obInfo c))))

/-- Code of 1 in a plane format. -/
def oneCode (fmt : Nat) : Nat := match fmt with
  | 0 => 0x3FF0000000000000
  | 1 => 0x3F800000
  | 2 => 0x3C00
  | 3 => 0x3F80
  | 4 => 0x38
  | _ => 0x3C

/-- MPLANE_WRITE (R297): zero or identity, every fp8 scale 0x7F. -/
def execMplaneWrite (core cmd : Nat) (s : State) : Host.Outcome State Fault Refusal :=
  match s.readyCmd core cmd 0xA4 with
  | none => .next s
  | some c =>
    let e := elemBytes c.fmt
    let one := fun (col kk : Nat) => natLe e (if kk % 32 = col then oneCode c.fmt else 0)
    let bytes := if c.f1 then (List.range 32).flatMap fun col => (List.range (256 / e)).flatMap fun kk => one col kk else []
    let scales := if c.fmt = 4 ∨ c.fmt = 5 then List.replicate 512 0x7F#8 else []
    let p : Plane := { bytes := (bytes.zipIdx).foldl (fun m b => mapPut 0 m b.2 b.1) [],
                       tag := { fmt := c.fmt, blk := 16, center := false, planes := 0, scales := scales }, poison := [] }
    .next ((s.updMatrix c.cohort c.half fun m => m.updSlot c.slot fun x => x.setPlane c.plane p).finishMatrix core c)

/-- The addresses of `planeRuns` one by one. -/
def planeSources (fmt blk planes : Nat) : List Nat := (planeRuns fmt blk planes).flatMap fun r => (List.range r.2).map (r.1 + ·)

/-- MLDS_LOAD (R297): a B block into the shadow plane, with its tag and scale bytes. -/
def execMldsLoad (core cmd : Nat) (s : State) : Host.Outcome State Fault Refusal :=
  match s.readyCmd core cmd 0xA5 with
  | none => .next s
  | some c =>
    match s.cohort c.cohort with
    | none => .next (s.finishMatrix core c)
    | some k =>
      let m := k.mxOf c.half
      let r := c.recBits
      let fmt := recFmt r
      let blk := recBlk r
      let a := recBase r + c.x
      let src := planeSources fmt blk (recPlanes r)
      let stored := blockStored fmt (recPlanes r)
      let at_ := recBase r + recSoff r + c.x / blk
      let nscale := if scaledFmt fmt then stored / blk else 0
      -- bytes of a block in the plane
      let per := if fmt = 6 then blk / 8 * planeClass (recPlanes r) else blk
      let bad := fun (i : Nat) => (m.obSpoiled (a + nth 0 src i) 1).isSome ||
        (decide (0 < nscale) && (m.obSpoiled (at_ + i / per) 1).isSome)
      let p : Plane := {
        bytes := (src.zipIdx).foldl (fun x o => mapPut 0 x o.2 (mapGet 0 m.ob (a + o.1))) [],
        tag := { fmt := fmt, blk := blk, center := recCenter r, planes := recPlanes r, scales := m.obBytes at_ nscale },
        poison := if m.obPoison.isEmpty then [] else (List.range 2048).filter fun x => (List.range 4).any fun j => bad (4 * x + j) }
      let hit := ((src.findSome? fun o => m.obSpoiled (a + o) 1).orElse fun _ => if nscale = 0 then none else m.obSpoiled at_ nscale)
      let s := s.updMatrix c.cohort c.half fun m => m.updSlot c.slot fun x => x.setPlane c.plane p
      .next (s.finishMatrix core (c.note (hit.map (obInfo c))))

/-- MSWAP_EXCHANGE (R297). -/
def execMswapExchange (core cmd : Nat) (s : State) : Host.Outcome State Fault Refusal :=
  match s.readyCmd core cmd 0xA6 with
  | none => .next s
  | some c => .next ((s.updMatrix c.cohort c.half fun m => m.updSlot c.slot Slot.swap).finishMatrix core c)

/-- A value with a block scale (R190): 0xFF makes it a NaN. -/
def scaleVal (code : Nat) (v : FpVal) : FpVal :=
  if code = 255 then .nan (v.isSig)
  else match v with
    | .fin n m e st => .fin n m (e + code - 127) st
    | v => v

/-- The value of the first p planes of an ni element (R192): `plane j` is bit j. -/
def niVal (planes : Nat) (center : Bool) (plane : Nat → Bool) : FpVal :=
  let v : Int := (List.range 8).foldl (fun (acc : Int) j => if 8 - planes ≤ j ∧ plane j then acc + (if j = 7 then (-128 : Int) else ((2 ^ j : Nat) : Int)) else acc) 0
  let v := if center && decide (planes < 8) then v + ((2 ^ (7 - planes) : Nat) : Int) else v
  .fin (decide (v < 0)) v.natAbs 0 false

/-- Element kk of an A row that starts at record byte `x0` (R290). -/
def aElem (m : Matrix) (r x0 kk : Nat) : FpVal :=
  let fmt := recFmt r
  let base := recBase r
  let scale := fun (x : Nat) => (mapGet 0 m.ob (base + recSoff r + x / recBlk r)).toNat
  if fmt = 6 then
    let b := x0 + kk / recBlk r * recBlk r
    let e := kk % recBlk r
    scaleVal (scale b) (niVal (recPlanes r) (recCenter r) fun j =>
      (mapGet 0 m.ob (base + b + recBlk r / 8 * (7 - j) + e / 8)).getLsbD (e % 8))
  else
    let n := elemBytes fmt
    let v := fpDecode (fpFormat fmt) (m.obRead (base + x0 + kk * n) n)
    if scaledFmt fmt then scaleVal (scale (x0 + kk)) v else v

/-- Element kk of a column of a plane. -/
def bElem (p : Plane) (kk col : Nat) : FpVal :=
  let t := p.tag
  let k := planeK t.fmt t.planes
  let scale := fun (i : Nat) => (nth 0x7F#8 t.scales i).toNat
  let byte := fun (i : Nat) => mapGet 0 p.bytes i
  if t.fmt = 6 then
    let b := kk / t.blk
    let e := kk % t.blk
    let cls := planeClass t.planes
    let start := col * 256 + b * (t.blk / 8 * cls)
    scaleVal (scale ((col * k + kk) / t.blk)) (niVal t.planes t.center fun j =>
      decide (8 - cls ≤ j) && (byte (start + t.blk / 8 * (7 - j) + e / 8)).getLsbD (e % 8))
  else
    let n := elemBytes t.fmt
    let v := fpDecode (fpFormat t.fmt) (leNat ((List.range n).map fun j => byte (col * 256 + kk * n + j)))
    if t.fmt = 4 ∨ t.fmt = 5 then scaleVal (scale ((col * 256 + kk) / t.blk)) v else v

/-- Flags of a command's batch (R193): they enter FPSTAT when the timeline passes the batch. -/
def State.matrixFlags (s : State) (c : MCmd) (fl : Nat) : State :=
  if fl = 0 then s else s.updAnyWave c.wave fun w => w.updTl 1 fun t => { t with flags := t.flags ++ [(c.batch, fl)] }

/-- One row step of an MMA (R298): the matrix stores and the flags. -/
def mmaRow (m : Matrix) (c : MCmd) : Matrix × Nat :=
  let i := c.step
  let p := (m.slot c.slot).plane c.plane
  let k := planeK p.tag.fmt p.tag.planes
  let bytes := aRowBytes p.tag.fmt p.tag.planes
  let x0 := c.x + i * bytes
  let row := c.row + i * (if c.f3 then 2 else 1)
  let f := if c.f3 then fpF64 else fpF32
  let aBad := (m.obSpoiled (recBase c.recBits + x0) bytes).isSome ||
    (scaledFmt (recFmt c.recBits) && (m.obSpoiled (recBase c.recBits + recSoff c.recBits + x0 / recBlk c.recBits)
      ((bytes + recBlk c.recBits - 1) / recBlk c.recBits)).isSome)
  (List.range 32).foldl (fun (acc : Matrix × Nat) col =>
    let prods := (List.range k).map fun kk => (aElem m c.recBits x0 kk, bElem p kk col)
    let old := if c.f2 then 0 else m.accOf c.f3 row col
    let (v, fl) := exactSum f 0 0 (fpDecode f old) prods false
    let bad := aBad || p.poison.any (fun w => w / 64 == col) || (!c.f2 && m.accSpoiled c.f3 row col)
    (acc.1.setAccOf c.f3 row col v bad, acc.2 ||| fl)) (m, 0)

/-- What a row step of an MMA consumes that is poisoned. -/
def mmaSpoiled (m : Matrix) (c : MCmd) : Option DWord :=
  let p := (m.slot c.slot).plane c.plane
  let bytes := aRowBytes p.tag.fmt p.tag.planes
  let x0 := c.x + c.step * bytes
  let row := c.row + c.step * (if c.f3 then 2 else 1)
  let scales := if scaledFmt (recFmt c.recBits) then m.obSpoiled (recBase c.recBits + recSoff c.recBits + x0 / recBlk c.recBits)
      ((bytes + recBlk c.recBits - 1) / recBlk c.recBits) else none
  match (m.obSpoiled (recBase c.recBits + x0) bytes).orElse fun _ => scales with
  | some w => some (obInfo c w)
  | none =>
    if !p.poison.isEmpty || (!c.f2 && (List.range 32).any fun col => m.accSpoiled c.f3 row col) then some allOnes else none

/-- A command has done one more step; with its last one it completes. -/
def State.stepCmd (s : State) (core : Nat) (c : MCmd) : State :=
  let c := { c with step := c.step + 1, mis := 0 }
  if c.n ≤ c.step then s.finishMatrix core c else s.updMcmd core c.id fun _ => c

/-- MMA_ROW_STEP (R298): with SWAP the planes are exchanged immediately before the first row. -/
def execMmaRowStep (core cmd : Nat) (s : State) : Host.Outcome State Fault Refusal :=
  match s.readyCmd core cmd 0xA7 with
  | none => .next s
  | some c =>
    let s := if c.f1 ∧ c.step = 0 then s.updMatrix c.cohort c.half fun m => m.updSlot c.slot Slot.swap else s
    match s.cohort c.cohort with
    | none => .next (s.finishMatrix core c)
    | some k =>
      let m := k.mxOf c.half
      let (m', fl) := mmaRow m c
      .next (((s.updMatrix c.cohort c.half fun _ => m').matrixFlags c fl).stepCmd core (c.note (mmaSpoiled m c)))

/-- MACZ_CLEAR (R298): one row of +0. -/
def execMaczClear (core cmd : Nat) (s : State) : Host.Outcome State Fault Refusal :=
  match s.readyCmd core cmd 0xA8 with
  | none => .next s
  | some c =>
    let clear := fun (m : Matrix) => (List.range 32).foldl (fun m col => m.setAcc (c.row + c.step) col 0 false) m
    .next ((s.updMatrix c.cohort c.half clear).stepCmd core c)

/-- Where element (i, c) of a shift with vector registers lies (R299): register offset and lane. -/
def shiftLane (w : Wave) (f64 : Bool) (i col : Nat) : Nat × Nat := ((if f64 then 2 else 1) * (i / w.k), 32 * (i % w.k) + col)

/-- The stochastic word for a lane (R187): the lane's generator steps if the lane is in LIVE. -/
def Wave.drawLive (w : Wave) (mode lane : Nat) : Nat × Wave :=
  if mode = 5 && !w.liveBit lane then ((w.gen lane >>> 32).toNat, w) else w.draw mode lane

/-- The stochastic word for a command's wave; a wave that has ended gives a free value. -/
def State.drawFor (s : State) (c : MCmd) (lane : Nat) : Nat × State :=
  match s.anyWave c.wave with
  | some w =>
    let (x, w) := w.drawLive c.rm lane
    (x, s.updAnyWave c.wave fun _ => w)
  | none => if c.rm = 5 then ((Config.freeWord s.free).toNat, { s with free := s.free + 1 }) else (0, s)

/-- One converted element of MSHOUT: the exact value times 2^(SCALE − 127), rounded to the target (R188, R189, R299). -/
def shiftOut (c : MCmd) (u acc : Nat) : FpRes :=
  let f := if c.f2 then fpF64 else fpF32
  match cvtType c.fmt, fpDecode f acc with
  | .fp g, .nan sg => (g.nan, if sg then flagNV else 0)
  | .fp g, .inf n => if c.f1 then (g.signed n g.maxCode, 0) else match g.inf with
      | some x => (g.signed n x, 0)
      | none => (g.nan, flagNV)
  | .fp g, .fin n m e st => roundVal g c.rm u c.f1 (.fin n m (e + c.scale - 127) st)
  | .int w sg, v =>
    let (x, fl) := roundInt c.rm u (intLo w sg) (intHi w sg) (match v with
      | .fin n m e st => .fin n m (e + c.scale - 127) st
      | v => v)
    (wrapTo w x, fl)

/-- Puts one element of MSHOUT where it lands. -/
def State.landOut (s : State) (c : MCmd) (i col v : Nat) (bad : Bool) : State :=
  let e := shiftBytes c.fmt
  match c.dest with
  | 0 => s.updAnyWave c.wave fun w =>
      let (r, lane) := shiftLane w (c.fmt == 0) i col
      if !w.liveBit lane then w
      else
        let w := w.putV (c.reg + r) lane (BitVec.ofNat 32 v) bad
        if c.fmt = 0 then w.putV (c.reg + r + 1) lane (BitVec.ofNat 32 (v / 2 ^ 32)) bad else w
  | 1 => s.updMatrix c.cohort c.half fun m =>
      let a := recBase c.recBits + c.x + (32 * i + col) * e
      let m := m.obWrite a (natLe e v)
      if bad then { m with obPoison := ((List.range ((a + e - 1) / 4 + 1 - a / 4)).map (a / 4 + ·)).foldl (fun l k => insNat k l) m.obPoison } else m
  | _ => s.updCohort c.cohort fun k =>
      let a := c.x + i * c.pitch + col * e
      let k := k.scratchWrite a (natLe e v)
      if bad then { k with spoiled := ((List.range ((a + e - 1) / 4 + 1 - a / 4)).map (a / 4 + ·)).foldl (fun l x => insNat x l) k.spoiled } else k

/-- Words that a whole row of MSHOUT rewrites are poisoned no more, unless it poisons them (R301). -/
def State.freshRow (s : State) (c : MCmd) (i : Nat) : State :=
  let n := 32 * shiftBytes c.fmt
  let kept := fun (a : Nat) (l : List Nat) => l.filter fun k => !(decide (a ≤ 4 * k) && decide (4 * k + 4 ≤ a + n))
  match c.dest with
  | 0 => s
  | 1 => s.updMatrix c.cohort c.half fun m => { m with obPoison := kept (recBase c.recBits + c.x + i * n) m.obPoison }
  | _ => s.updCohort c.cohort fun k => { k with spoiled := kept (c.x + i * c.pitch) k.spoiled }

/-- The scratch bytes that a row of MSHIN reads, and the cohort then: of bytes that the wave has stored with no FENCE since, it may read the
old ones (R302). -/
def MCmd.scratchRow (c : MCmd) (k : Cohort) : List (Byte × Bool) × Cohort :=
  if c.dest = 2 then k.engineRead (some c.wave) c.id (c.x + c.step * c.pitch) (32 * shiftBytes c.fmt) else ([], k)

/-- A scratch row of a command that the cohort's allocation no longer holds, since a segment has become a FIFO (R63): the address of the
first element outside. -/
def MCmd.lostRow (c : MCmd) (k : Cohort) : Option Nat :=
  if c.dest = 2 then k.badRow (c.x + c.step * c.pitch) 32 (shiftBytes c.fmt) else none

/-- MSHOUT_ROW (R299): reads one row, converts it and lands it; a row that has left the scratchpad fails the command (R63). -/
def execMshoutRow (core cmd : Nat) (s : State) : Host.Outcome State Fault Refusal :=
  match s.readyCmd core cmd 0xA9 with
  | none => .next s
  | some c =>
    match s.cohort c.cohort with
    | none => .next (s.finishMatrix core c)
    | some k =>
      match c.lostRow k with
      | some a => .next (s.finishMatrix core { c with err := some (trapScratchRange, BitVec.ofNat 64 a) })
      | none =>
      let m := k.mxOf c.half
      let i := c.step
      let row := c.row + i * (if c.f2 then 2 else 1)
      let kw := c.k
      let r := (List.range 32).foldl (fun (r : State × Nat) col =>
        let lane := if c.dest = 0 then 32 * (i % kw) + col else col
        let (u, s) := r.1.drawFor c lane
        let (v, fl) := shiftOut c u (m.accOf c.f2 row col)
        (s.landOut c i col v (m.accSpoiled c.f2 row col), r.2 ||| fl)) (s.freshRow c i, 0)
      let s := if c.f3 then r.1.updMatrix c.cohort c.half fun m =>
          (List.range 32).foldl (fun m col => m.setAccOf c.f2 row col 0 false) m else r.1
      let bad := if (List.range 32).any fun col => m.accSpoiled c.f2 row col then some allOnes else none
      .next ((s.matrixFlags c r.2).stepCmd core (c.note bad))

/-- What MSHIN reads for an element: its code, and the error information of a poisoned word. `row` holds the bytes of a scratch row as the
engine reads them. -/
def shiftIn (k : Cohort) (row : List (Byte × Bool)) (c : MCmd) (i col : Nat) : Nat × Option DWord :=
  let e := shiftBytes c.fmt
  match c.dest with
  | 0 =>
    let r := (if c.fmt = 0 then 2 else 1) * (i / c.k)
    let lane := 32 * (i % c.k) + col
    let lo := (mapGet 0 c.vals (vkey r lane)).toNat
    let hi := (mapGet 0 c.vals (vkey (r + 1) lane)).toNat
    ((lo + 2 ^ 32 * hi) % 2 ^ (8 * e), none)
  | 1 =>
    let a := recBase c.recBits + c.x + (32 * i + col) * e
    let m := k.mxOf c.half
    (m.obRead a e, (m.obSpoiled a e).map (obInfo c))
  | _ =>
    let bs := (row.drop (col * e)).take e
    (leNat (bs.map (·.1)), if bs.any (·.2) then some allOnes else none)

/-- The new accumulator of MSHIN (R300): the exact value, or the exact sum with the accumulator, rounded once. -/
def shiftAcc (c : MCmd) (u acc code : Nat) : FpRes :=
  let f := if c.f2 then fpF64 else fpF32
  let v : FpVal := match cvtType c.fmt with
    | .fp g => fpDecode g code
    | .int w sg =>
      let x := intVal w sg code
      .fin (decide (x < 0)) x.natAbs 0 false
  if c.f1 then
    let vs := [fpDecode f acc, v]
    let (x, fl) := sumVal (vs.all fun t => t.isZero && t.neg) vs
    finishFp f c.rm u (fl ||| sigFlag vs) x
  else finishFp f c.rm u (sigFlag [v]) v

/-- MSHIN_ROW (R300): writes one accumulator row; a scratch row waits on its EMPTY lines (R59), and a failed line or one that has left
the scratchpad fails the command (R42, R63). -/
def execMshinRow (core cmd : Nat) (s : State) : Host.Outcome State Fault Refusal :=
  match s.readyCmd core cmd 0xAA with
  | none => .next s
  | some c =>
    match s.cohort c.cohort with
    | none => .next (s.finishMatrix core c)
    | some k =>
      let i := c.step
      let lines := if c.dest = 2 then linesOf (c.x + i * c.pitch) (32 * shiftBytes c.fmt) else []
      let fails := ((c.lostRow k).map fun a => (trapScratchRange, BitVec.ofNat 64 a)).orElse fun _ =>
        (lines.findSome? fun l => mapFind k.failed l).map fun t => (kindTrap t.kind, BitVec.ofNat 64 t.va)
      match fails with
      | some x => .next (s.finishMatrix core { c with err := some x })
      | none =>
        if lines.any fun l => k.empty.contains l then .next s
        else
          let (bytes, k) := c.scratchRow k
          let s := s.setCohort c.cohort k
          let m := k.mxOf c.half
          let row := c.row + i * (if c.f2 then 2 else 1)
          let r := (List.range 32).foldl (fun (r : State × Matrix × Nat × Option DWord) col =>
            let (u, s) := r.1.drawFor c col
            let (code, hit) := shiftIn k bytes c i col
            let (v, fl) := shiftAcc c u (m.accOf c.f2 row col) code
            let hit := hit.orElse fun _ => if c.f1 && m.accSpoiled c.f2 row col then some allOnes else none
            (s, r.2.1.setAccOf c.f2 row col v hit.isSome, r.2.2.1 ||| fl, r.2.2.2.orElse fun _ => hit)) (s, m, 0, none)
          .next (((r.1.updMatrix c.cohort c.half fun _ => r.2.1).matrixFlags c r.2.2.1).stepCmd core (c.note r.2.2.2))

end Sys2Proof.Machine
end

