-- ==== Sys2Proof/Machine/Grid.lean ====
section
/-! DEFINITION. The device grid, node patterns and windows (R99 to R107, R122). -/

namespace Sys2Proof.Machine

/-- Have the engines been released (R399)? -/
def State.released (s : State) : Bool := s.trust.stage == 3

/-! ### Coordinates (R99, R101) -/

/-- Axes and axis sizes of a GRIDSHAPE value; an absent axis has size 1. -/
def gridAxes (shape : Nat) : Nat := fld shape 2 0
def gridSize (shape j : Nat) : Nat := if j < gridAxes shape then fld shape (10 * j + 17) (10 * j + 8) + 1 else 1
/-- A coordinate of a GRIDPOS value. -/
def gridCoord (pos j : Nat) : Nat := fld pos (10 * j + 9) (10 * j)

def State.shape (s : State) : Nat := s.fabric.shape.toNat
/-- This package's coordinate on the five axes; an absent axis counts as 0 (R101). -/
def State.here (s : State) : List Nat :=
  (List.range 5).map fun j => if j < gridAxes s.shape then gridCoord s.fabric.pos.toNat j else 0

/-- The values of GRIDSHAPE and GRIDPOS, and the package seen under others: operations issued before a SETS keep the old ones (R100). -/
def State.grid (s : State) : DWord × DWord := (s.fabric.shape, s.fabric.pos)
def State.withGrid (s : State) (g : DWord × DWord) : State := s.updFabric fun f => { f with shape := g.1, pos := g.2 }

/-- Linear index of a coordinate (R101). -/
def linearIndex (shape : Nat) (c : List Nat) : Nat :=
  (List.range 5).foldr (fun j acc => nth 0 c j + gridSize shape j * acc) 0

/-- This package's linear index. -/
def State.node (s : State) : Nat := linearIndex s.shape s.here

/-! ### Intervals and patterns (R105 to R107) -/

/-- Widths of intervals multiply to the number of coordinates that they hold. -/
def ivCard (iv : List (Nat × Nat)) : Nat := iv.foldl (fun n x => n * (x.2 + 1 - x.1)) 1
def ivHas (iv : List (Nat × Nat)) (c : List Nat) : Bool := (iv.zip c).all fun x => decide (x.1.1 ≤ x.2 ∧ x.2 ≤ x.1.2)
/-- The coordinates in intervals, in ascending linear index. -/
def ivCoords : List (Nat × Nat) → List (List Nat)
  | [] => [[]]
  | x :: iv => (ivCoords iv).flatMap fun tail => (List.range (x.2 + 1 - x.1)).map fun i => (x.1 + i) :: tail

/-- Descriptor of an axis. -/
def patMode (p j : Nat) : Nat := fld p (24 * j + 23) (24 * j + 22)
def patLo (p j : Nat) : Nat := fld p (24 * j + 19) (24 * j + 10)
def patHi (p j : Nat) : Nat := fld p (24 * j + 9) (24 * j)
def patExcl (p : Nat) : Bool := bit p 120
def patAxes (p : Nat) : Nat := fld p 127 125

/-- The intervals of a pattern (R106); axes above AXES hold coordinate 0. -/
def patIntervals (shape p : Nat) : List (Nat × Nat) :=
  (List.range 5).map fun j =>
    if j < gridAxes shape then
      match patMode p j with
      | 0 => (patLo p j, patLo p j)
      | 1 => (0, gridSize shape j - 1)
      | _ => (patLo p j, patHi p j)
    else (0, 0)

/-- Is the descriptor of an axis well formed (R107)? -/
def axisOk (shape p j : Nat) : Bool :=
  if j < gridAxes shape then
    fld p (24 * j + 21) (24 * j + 20) == 0 &&
    (match patMode p j with
     | 0 => patHi p j == 0 && decide (patLo p j < gridSize shape j)
     | 1 => patLo p j == 0 && patHi p j == 0
     | 2 => decide (patLo p j ≤ patHi p j ∧ patHi p j < gridSize shape j)
     | _ => false)
  else fld p (24 * j + 23) (24 * j) == 0

/-- The first failing axis of a malformed pattern (R107). A wrong AXES or a nonzero bit above the axes is reported as axis 0
(log 25). -/
def patternBad (shape p : Nat) : Option Nat :=
  if patAxes p != gridAxes shape || fld p 124 121 != 0 then some 0
  else (List.range 5).find? fun j => !axisOk shape p j

/-- The pattern of intervals (R123): an axis is fixed when it holds one coordinate, else a range. -/
def patOf (axes : Nat) (iv : List (Nat × Nat)) (excl : Bool) : Nat :=
  let d := fun (j : Nat) => let x := nth (0, 0) iv j
    if x.1 = x.2 then x.1 * 2 ^ 10 else 2 * 2 ^ 22 + x.1 * 2 ^ 10 + x.2
  (List.range axes).foldl (fun p j => p + d j * 2 ^ (24 * j)) 0 + b2n excl * 2 ^ 120 + axes * 2 ^ 125

/-- Members, effective cardinality and anchor of a pattern for this package (R106). -/
def State.isMember (s : State) (p : Nat) : Bool := ivHas (patIntervals s.shape p) s.here
def State.effCard (s : State) (p : Nat) : Nat :=
  ivCard (patIntervals s.shape p) - b2n (patExcl p && s.isMember p)
def anchorOf (shape p : Nat) : List Nat := (patIntervals shape p).map (·.1)

/-! ### Windows (R102, R104) -/

/-- Entry of the cached window table. -/
def State.window (s : State) (n : Nat) : Nat := (nth 0 s.fabric.windows n).toNat
/-- Is an entry registered? -/
def winOk (e : Nat) : Bool :=
  bit e 0 && fld e 15 5 == 0 && fld e 31 28 == 0 && fld e 63 40 == 0 && fld e 127 121 == 0 && fld e 255 164 == 0 && fld e 66 64 == 0
def winAsid (e : Nat) : Nat := fld e 27 16
def winWorld (e : Nat) : Nat := fld e 39 32
def winLen (e : Nat) : Nat := fld e 163 128 + 1
/-- Virtual address of a window offset: BASE holds VA[56:0], sign-extended (R23). -/
def winVa (e off : Nat) : Nat := wrapTo 64 (signedOf 57 (fld e 120 64) + (off : Int))

/-- Permission bits: 1 RD, 2 WR, 3 AT, 4 RE. -/
def permBit (op : Nat) : Nat :=
  match op with
  | 2 => 1
  | 3 => 3
  | 4 | 7 => 4
  | _ => 2

/-- The cause (R120) for which a window refuses an operation of a world on byte ranges, if any. -/
def winRefuses (e world op : Nat) (ranges : List (Nat × Nat)) : Option Nat :=
  if !winOk e then some 1
  else if winWorld e ≠ world then some 4
  else if !bit e (permBit op) || ranges.any fun r => decide (winLen e < r.1 + r.2) then some 1
  else none

/-- The words of a landing: the landing word, and for reductions the status word above it (R113, R116). -/
def landRanges (land loff : Nat) (red : Bool) : List (Nat × Nat) :=
  if land = 0 then [] else (loff * 8, 8) :: (if red then [(loff * 8 + 8, 8)] else [])

/-! ### Rules (R122) -/

/-- Fields of a routing rule. -/
def rulePorts (r : Nat) : Nat := fld r 17 1
def ruleVal (r j : Nat) : Nat := fld r (14 * j + 29) (14 * j + 20)
def rulePlen (r j : Nat) : Nat := fld r (14 * j + 33) (14 * j + 30)
/-- The block of a rule on an axis. -/
def ruleBlock (r j : Nat) : Nat × Nat :=
  let n := 2 ^ (10 - rulePlen r j)
  (ruleVal r j / n * n, ruleVal r j / n * n + n - 1)
/-- The part of intervals that a rule covers, if any. -/
def ruleMeets (axes r : Nat) (iv : List (Nat × Nat)) : Option (List (Nat × Nat)) :=
  let cut := (List.range 5).map fun j =>
    let x := nth (0, 0) iv j
    if j < axes then (max x.1 (ruleBlock r j).1, min x.2 (ruleBlock r j).2) else x
  if cut.all fun x => decide (x.1 ≤ x.2) then some cut else none

end Sys2Proof.Machine
end

