-- ==== Sys2Proof/Machine/Remote.lean ====
section
/-! DEFINITION. Remote operations at their issuer (R104, R108 to R110, R117, R119 to R121, R303 to R318): the checks, the
transactions, the gathering of acknowledgements, and collective transfers. -/

namespace Sys2Proof.Machine

/-! ### Operations and their transactions -/

/-- A transaction with no landing and no payload. -/
def txBlank : Tx :=
  { pattern := 0, op := 0, window := 0, world := 0, land := 0, lbit := 0, offset := 0, loff := 0, seq := 0, lenm1 := 0,
    toAnchor := false, aop := 0, asize := 0, payload := [] }

/-- The fields of a remote operand group (R304) as a number. -/
def ogOffset (g : Nat) : Nat := fld g 35 0
def ogWindow (g : Nat) : Nat := fld g 47 40
def ogLand (g : Nat) : Nat := fld g 49 48
def ogLbit (g : Nat) : Nat := fld g 55 50
def ogLoff (g : Nat) : Nat := fld g 96 64
def ogTag (g : Nat) : Nat := fld g 127 112

/-- The field rules of R304 and R312 for an operation code of R126. -/
def ogOk (g op : Nat) : Bool :=
  let land := ogLand g
  fld g 39 36 == 0 && fld g 63 56 == 0 && fld g 111 97 == 0 && land != 3 && (land == 2 || ogLbit g == 0) &&
  (land != 0 || ogLoff g == 0) && (op == 4 || ogTag g == 0) && (op != 5 || (land != 0 && ogOffset g == 0)) && (op != 2 || land == 0)

/-- The header of an operation's transactions, from its pattern and operand group. -/
def txOf (p g op world : Nat) : Tx :=
  { txBlank with
    pattern := BitVec.ofNat 128 p, op := BitVec.ofNat 6 op, window := BitVec.ofNat 8 (ogWindow g), world := BitVec.ofNat 8 world,
    land := BitVec.ofNat 2 (ogLand g), lbit := BitVec.ofNat 6 (ogLbit g), offset := BitVec.ofNat 36 (ogOffset g),
    loff := BitVec.ofNat 33 (ogLoff g) }

/-- A transaction with a payload at an offset. -/
def txCarry (t : Tx) (off : Nat) (bs : List Byte) : Tx :=
  { t with offset := BitVec.ofNat 36 off, lenm1 := BitVec.ofNat 13 (bs.length - 1), payload := bs }

/-- A transaction without its landing. -/
def txNoLand (t : Tx) : Tx := { t with land := 0, lbit := 0, loff := 0 }
/-- The landing transaction of an operation, in the form of RSIG (R309). -/
def txLanding (t : Tx) : Tx := { t with op := 5, offset := 0, lenm1 := 0, toAnchor := false, payload := [] }

/-- An operation that has sent nothing. -/
def RemoteOp.blank : RemoteOp :=
  { id := 0, die := 0, wave := none, trigger := none, batch := 0, pattern := 0, world := 0, window := 0, kind := 0, expected := 0,
    gathered := 0, errs := 0, cause := 0, node := 0, data := [], issued := 0, landing := none, payload := 0, foreign := false,
    sent := [], void := 0, grid := (1, 0), peer := 0 }

def State.remoteOp (s : State) (id : Nat) : Option RemoteOp := s.fabric.ops.find? fun o => o.id == id
def State.updOp (s : State) (id : Nat) (f : RemoteOp → RemoteOp) : State :=
  s.updFabric fun x => { x with ops := updFirst (fun o => o.id == id) f x.ops }

/-- The package under the grid values of an operation (R100). -/
def State.gridOf (s : State) (id : Nat) : State := ((s.remoteOp id).map fun o => s.withGrid o.grid).getD s

/-- Sends a transaction of an operation to the router (R123). -/
def State.inject (s : State) (op k : Nat) (t : Tx) : State :=
  s.updFabric fun f => { f with
    inbox := f.inbox ++ [{ tx := t, port := 0, up := .op op k, grid := (s.remoteOp op).map (·.grid) }],
    ops := updFirst (fun o => o.id == op) (fun o => { o with sent := o.sent ++ [(k, t, 0)] }) f.ops }

/-- A new operation and its number; a wave's joins the open batch of its remote timeline (R306). -/
def State.addOp (s : State) (o : RemoteOp) : Nat × State :=
  let (id, s) := s.fresh
  let batch := ((o.wave.bind s.wave).map fun w => (w.tl 2).batches + 1).getD 0
  let s := match o.wave with
    | some u => s.updWave u fun w => w.joinBatch 2 id
    | none => s
  (id, s.updFabric fun f => { f with ops := f.ops ++ [{ o with id := id, batch := batch, issued := s.clock }] })

/-- The answer of a remote operation reaches a late result (R310, R311): lane j takes its e bytes, or zero on an error. -/
def Wave.answerRemote (w : Wave) (op : Nat) (data : List Byte) (bad : Bool) : Wave :=
  { w with late := w.late.map fun l =>
      if l.kind = .remote op then
        let e := sizeBytes l.size
        { l with vals := l.lanes.map fun a => (a.lane, if bad then 0 else leNat ((data.drop (a.addr * e)).take e)) }
      else l }

/-- Has a wave ended (R165)? One that drains its store buffer has, and so has one of an aborted cohort. -/
def Wave.over (w : Wave) : Bool := w.wait == .draining || w.wait == .ended || w.wait == .halted

/-- An operation has gathered its count: its batch, its late result or its trigger learns so (R119, R121, R322). Errors of an
operation whose wave has ended count in FBORPHAN. -/
def State.finishOp (s : State) (o : RemoteOp) : State :=
  let s := s.updFabric fun f => { f with ops := f.ops.filter fun x => x.id != o.id }
  let err : Nat → TlErr := fun b => { batch := b, order := o.id, code := trapRemote, info := 0, cause := o.cause,
                                      window := o.window, node := o.node, count := o.errs }
  let s := match o.wave with
    | some u =>
      let s := if ((s.anyWave u).map (·.over)).getD true then s.updFabric fun f => { f with orphan := (f.orphan + o.errs) % 2 ^ 32 } else s
      (s.updAnyWave u fun w => w.answerRemote o.id o.data (o.errs != 0)).completeCmd u 2 o.id (if o.errs = 0 then none else some err)
    | none => s
  match o.trigger with
  | some t => s.updDie o.die fun d => { d with triggers := d.triggers.map fun x =>
      if x.entry == t && x.cmdId == o.id then { x with done := true, cause := if o.errs = 0 then 0 else o.cause } else x }
  | none => s

/-- An error joins those gathered: the one of the lowest node is kept (R119). -/
def RemoteOp.addErr (o : RemoteOp) (n cause node : Nat) : RemoteOp :=
  if n = 0 then o
  else if o.errs = 0 ∨ node < o.node then { o with errs := o.errs + n, cause := cause, node := node } else { o with errs := o.errs + n }

/-- Payload transactions have been gathered or failed: with the last of them the landing transaction is sent, or completed as
errors of the first error's cause (R309). -/
def State.payloadGathered (s : State) (id n : Nat) : State :=
  match s.remoteOp id with
  | none => s
  | some o =>
    match o.landing with
    | none => s
    | some l =>
      if n < o.payload then s.updOp id fun o => { o with payload := o.payload - n }
      else
        let s := s.updOp id fun o => { o with payload := 0, landing := none }
        if o.errs = 0 then s.inject id 1000000 l.tx
        else s.updOp id fun o => { o with gathered := o.gathered + l.count, errs := o.errs + l.count }

/-- Completes an operation that has gathered its expected count. -/
def State.settleOp (s : State) (id : Nat) : State :=
  match s.remoteOp id with
  | none => s
  | some o => if o.expected ≤ o.gathered then s.finishOp o else s

/-- An acknowledgement of a transaction of an operation (R119). A void's own acknowledgement carries the cause of the local
failure (R117), and the error of a late or misshapen contribution names the contributor (R430). -/
def State.countAck (s : State) (id : Nat) (a : Ack) : State :=
  let node := (s.gridOf id).node
  let s := s.updOp id fun o =>
    let o := { o with gathered := o.gathered + a.count, data := if a.data.isEmpty then o.data else a.data }
    let o := o.addErr a.errs a.cause (if (o.kind == 4 || o.kind == 7) && (a.cause == 5 || a.cause == 6) then node else a.node)
    if o.void ≠ 0 ∧ a.errs = 0 then o.addErr a.count o.void node else o
  (s.payloadGathered id a.count).settleOp id

/-! ### Issue (R305, R306) -/

/-- What an operation needs checked: its code in R126, element bytes, block length, and whether the data is too long. -/
structure OpSpec where
  op : Nat
  e : Nat
  len : Nat
  tooLong : Bool
deriving DecidableEq, Repr

/-- What the checks of R305 after the field codes come to: a trap, a void with its cause, or passed. -/
inductive OpCheck where
  | trap (t : TrapInfo)
  | void (cause : Nat)
  | ok

/-- WINDOW_FAULT with its window and cause (R376). -/
def windowTrap (word : DWord) (window cause : Nat) : TrapInfo := (trapWindow, word, BitVec.ofNat 64 (window + 2 ^ 8 * cause))

/-- The checks of R304, R107, R110, the alignment of OFFSET, and the window with FBCTL.EN, in the order of R305. -/
def checkOp (s : State) (word : DWord) (world p g : Nat) (o : OpSpec) : OpCheck :=
  let illegal := fun (lo : Nat) => OpCheck.trap (trapIllegalOperand, word, BitVec.ofNat 64 lo)
  if !ogOk g o.op then illegal 40
  else if o.tooLong then illegal 32
  else match patternBad s.shape p with
  | some axis => .trap (trapPattern, word, BitVec.ofNat 64 axis)
  | none =>
    if (o.op = 2 && s.effCard p != 1) || (o.op = 4 && (patExcl p || !s.isMember p)) then .trap (trapPattern, word, 8)
    else if ogOffset g % o.e ≠ 0 then .trap (trapMisaligned, BitVec.ofNat 64 (ogOffset g), 0)
    else
      let bad := winRefuses (s.window (ogWindow g)) world o.op ((ogOffset g, o.len) :: landRanges (ogLand g) (ogLoff g) (o.op == 4))
      match bad with
      | some c => if o.op = 4 ∧ s.fabric.en then .void c else .trap (windowTrap word (ogWindow g) c)
      | none => if s.fabric.en then .ok else .trap (windowTrap word (ogWindow g) 1)

/-- A remote instruction with its pattern group and operand group read. -/
def remoteInstr (i : Instr) (f : EF) (spec : Wave → OpSpec) (body : Nat → Nat → OpSpec → Nat → Body) : Body :=
  forbiddenInGroup (afterJoin fun s u w =>
    let p := w.sgroup f.a.toNat 4
    let g := w.sgroup f.b.toNat 4
    match checkOp s ((encode i).getD 0) (s.waveWorld w) p g (spec w) with
    | .trap (c, i0, i1) => .trap s c i0 i1
    | .void c => body p g (spec w) c s u w
    | .ok => body p g (spec w) 0 s u w)

/-- An operation of a wave. -/
def waveOp (s : State) (u : Nat) (w : Wave) (p g : Nat) (o : OpSpec) : RemoteOp :=
  { RemoteOp.blank with
    die := dieOf w.core, wave := some u, pattern := BitVec.ofNat 128 p, world := s.waveWorld w, window := ogWindow g, kind := o.op,
    grid := s.grid }

/-- Cuts a list into pieces of at most n. -/
def pieces {α : Type} (n : Nat) (l : List α) : List (List α) :=
  (List.range ((l.length + n - 1) / n)).map fun i => (l.drop (n * i)).take n

/-- Starts an operation whose transactions all go to every member: payload pieces with their offsets, and a landing
transaction if there is a landing and more than one piece (R108, R309). -/
def State.startOp (s : State) (o : RemoteOp) (head : Tx) (parts : List (Nat × List Byte)) (card : Nat) : State × Nat :=
  let two := head.land != 0 && decide (1 < parts.length)
  let n := card * parts.length
  let (id, s) := s.addOp { o with
    expected := n + (if two then card else 0), payload := n,
    landing := if two then some { tx := txLanding head, count := card } else none }
  let txs := parts.map fun x => txCarry (if two then txNoLand head else head) x.1 x.2
  let s := if card = 0 then s else (txs.zipIdx).foldl (fun s t => s.inject id t.2 t.1) s
  (if n = 0 then s.settleOp id else s, id)

/-- The packed block of a wave's active lanes (R307): `n` registers give e bytes a lane. -/
def Wave.packed (w : Wave) (reg n e : Nat) : List Byte := w.activeLanes.flatMap fun i => natLe e (w.vs reg n i)

/-- RSTORE (R308). -/
def execRstore (f : EF) (s : State) :=
  let size := ctlBits f 2 0
  let e := sizeBytes size
  runInstr (.rstore f) (remoteInstr (.rstore f) f (fun w => { op := 1, e := e, len := w.activeLanes.length * e, tooLong := false })
    fun p g o _ s u w =>
      let bs := w.packed f.c.toNat (sizeRegs (BitVec.ofNat 4 size)) e
      let parts := ((pieces 4096 bs).zipIdx).map fun x => (ogOffset g + 4096 * x.2, x.1)
      .done (s.startOp (waveOp s u w p g o) (txOf p g 1 (s.waveWorld w)) parts (s.effCard p)).1) s

/-- RLOAD (R310): one transaction whose answer is a late result. It carries no payload, and its length travels in LENM1 (log 85). -/
def execRload (f : EF) (s : State) :=
  let size := ctlBits f 2 0
  let e := sizeBytes size
  runInstr (.rload f) (remoteInstr (.rload f) f
    (fun w => { op := 2, e := e, len := w.activeLanes.length * e, tooLong := decide (4096 < w.activeLanes.length * e) })
    fun p g o _ s u w =>
      let n := w.activeLanes.length
      if n = 0 then .done (s.startOp (waveOp s u w p g o) txBlank [] 1).1
      else
        let (id, s) := s.addOp { waveOp s u w p g o with expected := 1 }
        let lanes := (w.activeLanes.zipIdx).map fun x => ({ lane := x.1, addr := x.2, own := [], nocache := true } : LaneAcc)
        let s := s.updWave u fun w =>
          w.addLate (.remote id) true f.c.toNat (sizeRegs (BitVec.ofNat 4 size)) size f.e.toNat lanes []
        .done (s.inject id 0 { txOf p g 2 (s.waveWorld w) with
          asize := BitVec.ofNat 3 size, lenm1 := BitVec.ofNat 13 (n * e - 1) })) s

/-- RATOM (R311): with one target the wave waits for the old values, else they are zero at once. -/
def execRatom (f : EF) (s : State) :=
  let size := ctlBits f 2 0
  let fn := ctlBits f 7 4
  let e := sizeBytes size
  let bytes := if fn = 9 then 2 * e else e
  runInstr (.ratom f) (remoteInstr (.ratom f) f
    (fun w => { op := 3, e := e, len := w.activeLanes.length * e, tooLong := decide (4096 < w.activeLanes.length * bytes) })
    fun p g o _ s u w =>
      let card := s.effCard p
      let bs := w.packed f.c.toNat (atomRegs size fn) bytes
      let head := { txOf p g 3 (s.waveWorld w) with aop := BitVec.ofNat 4 fn, asize := BitVec.ofNat 3 size }
      if bs.isEmpty then .done (s.startOp (waveOp s u w p g o) head [] card).1
      else if card = 1 then
        let (id, s) := s.addOp { waveOp s u w p g o with expected := 1 }
        let lanes := (w.activeLanes.zipIdx).map fun x => ({ lane := x.1, addr := x.2, own := [], nocache := true } : LaneAcc)
        let s := s.updWave u fun w => w.addLate (.remote id) true f.c.toNat (oldRegs size) size 0 lanes []
        .done (s.inject id 0 (txCarry head (ogOffset g) bs))
      else
        let (s, _) := s.startOp (waveOp s u w p g o) head [(ogOffset g, bs)] card
        .done (s.updWave u fun w => w.activeLanes.foldl (fun w i => w.setVs f.c.toNat (oldRegs size) i 0) w)) s

/-- RSIG (R312). -/
def execRsig (f : EF) (s : State) :=
  runInstr (.rsig f) (remoteInstr (.rsig f) f (fun _ => { op := 5, e := 1, len := 0, tooLong := false })
    fun p g o _ s u w => .done (s.startOp (waveOp s u w p g o) (txOf p g 5 (s.waveWorld w)) [(0, [])] (s.effCard p)).1) s

/-- Bytes of an element of a reduction format (R303). -/
def redBytes (fmt : Nat) : Nat := if fmt = 3 ∨ fmt = 5 then 8 else 4

/-- The reduction word (R126). -/
def redWord (op fmt tag : Nat) : List Byte := natLe 8 (op + 2 ^ 4 * fmt + 2 ^ 16 * tag)

/-- The presence mask of the active lanes, one bit an element rounded up to 8 bytes. -/
def Wave.presence (w : Wave) : List Byte :=
  natLe ((w.width + 63) / 64 * 8) ((List.range w.width).foldl (fun m i => if w.active i then m + 2 ^ i else m) 0)

/-- RRED (R117, R313): a contribution of every lane; a void carries the reduction word alone. -/
def execRred (f : EF) (s : State) :=
  let rop := ctlBits f 3 0
  let fmt := ctlBits f 7 4
  let e := redBytes fmt
  runInstr (.rred f) (remoteInstr (.rred f) f
    (fun w => { op := 4, e := e, len := w.width * e, tooLong := decide (2048 < w.width * e) })
    fun p g o void s u w =>
      let n := e / 4
      let data := (List.range w.width).flatMap fun i => natLe e (if w.active i then w.vs f.c.toNat n i else 0)
      let bs := redWord rop fmt (ogTag g) ++ (if void = 0 then w.presence ++ data else [])
      let t := { txCarry (txOf p g 4 (s.waveWorld w)) (ogOffset g) bs with toAnchor := true }
      let (id, s) := s.addOp { waveOp s u w p g o with expected := 1, void := void }
      .done (s.inject id 0 t)) s

/-! ### Collective transfers (R314 to R318) -/

/-- Fields of an RXFER record (R314) as a 1,024-bit number. -/
def rxPattern (n : Nat) : Nat := fld n 639 512
def rxWindow (n : Nat) : Nat := fld n 295 288
def rxRop (n : Nat) : Nat := fld n 303 301
def rxFmt (n : Nat) : Nat := fld n 306 304
def rxLand (n : Nat) : Nat := fld n 308 307
def rxForeign (n : Nat) : Bool := bit n 315

/-- The record's fields as an operand group (R304). -/
def rxGroup (n : Nat) : Nat :=
  fld n 127 64 % 2 ^ 36 + 2 ^ 40 * rxWindow n + 2 ^ 48 * rxLand n + 2 ^ 50 * fld n 314 309 + 2 ^ 64 * fld n 672 640 + 2 ^ 112 * fld n 703 688

/-- The checks that make an RXFER record malformed (R314), by byte offset. -/
def rxferChecks (n : Nat) : List (Nat × Bool) :=
  let rop := rxRop n
  let land := rxLand n
  tileChecks n true ++
  [(37, decide (rop ≤ 6)), (38, decide (rxFmt n ≤ 5)), (37, rop != 0 || rxFmt n == 0),
   (37, rop == 0 || redPair (rop - 1) (rxFmt n)), (16, rop == 0 || decide (2 ^ fld n 130 128 = redBytes (rxFmt n))),
   (38, land != 3), (38, land == 2 || fld n 314 309 == 0), (39, fld n 319 316 == 0), (80, land != 0 || fld n 672 640 == 0),
   (84, fld n 687 673 == 0), (86, rop != 0 || fld n 703 688 == 0), (88, rxForeign n || fld n 711 704 == 0), (89, fld n 1023 712 == 0)]

/-- The split axes of a write (R315). -/
def splitAxes (s : State) (n : Nat) : List Nat :=
  let iv := patIntervals s.shape (rxPattern n)
  if rxRop n ≠ 0 then [] else
  (List.range (gridAxes s.shape)).filter fun j => !bit n (296 + j) && decide ((nth (0, 0) iv j).1 < (nth (0, 0) iv j).2)

/-- A share of an RXFER: the members that receive it, how many they are, and the first index and extent of the outermost
dimension. -/
structure Share where
  pattern : Nat
  card : Nat
  start : Nat
  q : Nat
deriving DecidableEq, Repr

/-- The shares of an RXFER (R315): one for each coordinate on the split axes. -/
def rxShares (s : State) (n : Nat) : List Share :=
  let p := rxPattern n
  let axes := gridAxes s.shape
  let iv := patIntervals s.shape p
  let split := splitAxes s n
  let width := fun (j : Nat) => (nth (0, 0) iv j).2 + 1 - (nth (0, 0) iv j).1
  let parts := split.foldl (fun m j => m * width j) 1
  let ext := nth 1 (tileOf n).ext (tileOf n).dims
  let q := ext / parts
  let pick := (List.range 5).map fun j => if split.contains j then nth (0, 0) iv j else ((nth (0, 0) iv j).1, (nth (0, 0) iv j).1)
  (ivCoords pick).map fun c =>
    let iv' := (List.range 5).map fun j => if split.contains j then (nth 0 c j, nth 0 c j) else nth (0, 0) iv j
    let slice := (split.foldl (fun (a : Nat × Nat) j => (a.1 + (nth 0 c j - (nth (0, 0) iv j).1) * a.2, a.2 * width j)) (0, 1)).1
    { pattern := patOf axes iv' (patExcl p), card := ivCard iv' - b2n (patExcl p && ivHas iv' s.here), start := slice * q, q := q }

/-- One transaction of an RXFER: its members, window offset, row bytes, and the sources of its rows. -/
structure PlanTx where
  pattern : Nat
  card : Nat
  off : Nat
  rowBytes : Nat
  rows : List Nat
deriving DecidableEq, Repr

/-- Addresses of a row (R316): source, and destination offset with the share's first index taken off. -/
def rowAddrs (t : Tile) (h : Share) (x1 x2 x3 : Nat) : Nat × Nat :=
  let d := fun (j x : Nat) => if j = t.dims then x + h.start else x
  let at_ := fun (base : Nat) (steps : List Int) (x0 x1 x2 x3 : Nat) => wrapTo 64 ((base : Int) + (x0 * t.e : Nat) +
    (x1 : Int) * nth 0 steps 1 + (x2 : Int) * nth 0 steps 2 + (x3 : Int) * nth 0 steps 3)
  (at_ t.src t.sstep (d 0 0) (d 1 x1) (d 2 x2) (d 3 x3), at_ t.dst t.dstep 0 x1 x2 x3)

/-- The transactions of a share (R316, R317): rows in index order, up to `lim` data bytes each. -/
def sharePlan (t : Tile) (h : Share) (lim : Nat) : List PlanTx :=
  let ext := fun (j : Nat) => if j = t.dims then h.q else nth 1 t.ext j
  let r := ext 0 * t.e
  let perTx := lim / max r 1
  (List.range (ext 3)).flatMap fun x3 => (List.range (ext 2)).flatMap fun x2 =>
    if r ≤ lim then
      (pieces (max perTx 1) (List.range (ext 1))).map fun xs =>
        { pattern := h.pattern, card := h.card, off := (rowAddrs t h (nth 0 xs 0) x2 x3).2, rowBytes := r,
          rows := xs.map fun x1 => (rowAddrs t h x1 x2 x3).1 }
    else
      (List.range (ext 1)).flatMap fun x1 =>
        let a := rowAddrs t h x1 x2 x3
        (List.range ((r + lim - 1) / lim)).map fun k =>
          { pattern := h.pattern, card := h.card, off := a.2 + k * lim, rowBytes := min lim (r - k * lim), rows := [a.1 + k * lim] }

/-- Every transaction of an RXFER. A foreign one is a single transfer. -/
def rxPlan (s : State) (n : Nat) : List PlanTx :=
  (rxShares s n).flatMap fun h => if h.card = 0 then [] else sharePlan (tileOf n) h (if rxRop n = 0 then 4080 else 4064)

/-- The destination ranges of a plan: every row of every transaction (R314). -/
def planRanges (t : Tile) (l : List PlanTx) : List (Nat × Nat) :=
  l.flatMap fun x => (List.range x.rows.length).map fun (k : Nat) => (wrapTo 64 ((x.off : Int) + (k : Int) * nth 0 t.dstep 1), x.rowBytes)

/-- The checks of an RXFER at issue, in order (R305, R314, R315, R317, R318). A confidential world makes no FOREIGN one (R406). -/
def rxferCheck (s : State) (i : Instr) (world : Nat) (c : Option Cohort) (n : Nat) : Option TrapInfo :=
  let word := (encode i).getD 0
  let illegal := fun (off : Nat) => some (badRecord i off)
  let p := rxPattern n
  let t := tileOf n
  let axes := gridAxes s.shape
  match lowestOffset (rxferChecks n) with
  | some off => illegal off
  | none =>
    let scratchBad := if t.ssp then (match c with
      | some c => c.badTile t t.srcAddr
      | none => some t.src) else none
    match scratchBad with
    | some a => some (trapScratchRange, BitVec.ofNat 64 a, 0)
    | none =>
      if rxForeign n && (rxRop n != 0 || decide (1 < rxLand n)) then illegal 37
      else match patternBad s.shape p with
      | some axis => some (trapPattern, word, BitVec.ofNat 64 axis)
      | none =>
        let iv := patIntervals s.shape p
        let wide := (List.range axes).find? fun j => patMode p j != 0
        if rxForeign n && wide.isSome then some (trapPattern, word, BitVec.ofNat 64 (wide.getD 0))
        else if rxRop n ≠ 0 ∧ (patExcl p || !ivHas iv s.here) then some (trapPattern, word, 8)
        else if rxRop n ≠ 0 ∧ !((List.range axes).all fun j => bit n (296 + j)) then illegal 37
        else
          let parts := (splitAxes s n).foldl (fun m j => m * ((nth (0, 0) iv j).2 + 1 - (nth (0, 0) iv j).1)) 1
          if nth 1 t.ext t.dims % parts ≠ 0 then illegal (20 + 4 * t.dims)
          else
            let plan := rxPlan s n
            if rxRop n ≠ 0 ∧ rxLand n = 2 ∧ 1 < plan.length then illegal 38
            else if rxForeign n && decide (2 ≤ world) then some (windowTrap word (rxWindow n) 4)
            else
              let op := if rxRop n = 0 then 6 else 7
              let whole := if plan.isEmpty then [] else planRanges t plan
              match winRefuses (s.window (rxWindow n)) world op (whole ++ landRanges (rxLand n) (fld n 672 640) (op == 7)) with
              | some cause => some (windowTrap word (rxWindow n) cause)
              | none => if s.fabric.en then none else some (windowTrap word (rxWindow n) 1)

/-- Starts an RXFER: the operation with its expected count, and the copy command that reads the source (R314, R316). A FOREIGN one
counts 1, and its landing follows its writes (R318). -/
def State.startRxfer (s : State) (o : RemoteOp) (c : CopyCmd) (n : Nat) : State :=
  let g := s.withGrid o.grid
  let p := rxPattern n
  let plan := rxPlan g n
  let red := rxRop n != 0
  let foreign := rxForeign n
  let deliveries := if plan.isEmpty then 0 else if foreign then 1 else (plan.map fun x => if red then 1 else x.card).sum
  let perMember := (((rxShares g n).find? fun h => h.card != 0).map fun h => (sharePlan (tileOf n) h 4080).length).getD 0
  let two := !red && !plan.isEmpty && rxLand n != 0 && (foreign || decide (1 < perMember))
  let card := if foreign then 0 else g.effCard p
  let expected := deliveries + (if two then card else 0)
  let head := txOf p (rxGroup n) 5 o.world
  let (id, s) := s.addOp { o with
    pattern := BitVec.ofNat 128 p, window := rxWindow n, kind := if red then 7 else 6, expected := expected, payload := deliveries,
    foreign := foreign, peer := fld n 711 704, landing := if two then some { tx := txLanding head, count := card } else none }
  let (cid, s) := s.fresh
  if expected = 0 then s.settleOp id
  else { s with sched := { s.sched with copies := s.sched.copies ++ [{ c with id := cid, kind := 3, args := [id] }] } }

/-- RXFER (R314). -/
def execRxfer (f : EF) (s : State) := runInstr (.rxfer f) (forbiddenInGroup (readRecord (.rxfer f) f.b 128 fun bs s u w =>
  match rxferCheck s (.rxfer f) (s.waveWorld w) (s.cohort w.cohort) (leNat bs) with
  | some (c, i0, i1) => .trap s c i0 i1
  | none =>
    let o := { RemoteOp.blank with die := dieOf w.core, wave := some u, world := s.waveWorld w, grid := s.grid }
    let c := { CopyCmd.blank 0 3 (dieOf w.core) w.core with
      wave := some u, cohort := w.cohort, world := s.waveWorld w, asid := s.waveAsid w, disp := s.waveDisp w, pc := w.pc,
      recVa := BitVec.ofNat 64 (w.base f.b), rec_ := bs }
    .done (s.startRxfer o c (leNat bs)))) s

/-- The rows of a transaction read by the engine in turn. -/
def getRows (s : State) (c : CopyCmd) (scratch : Bool) (n : Nat) : List Nat → Got
  | [] => .bytes [] s
  | a :: l =>
    match engineGet s c scratch a n with
    | .other m => .other m
    | .bytes bs s =>
      match getRows s c scratch n l with
      | .bytes rest s => .bytes (bs ++ rest) s
      | .other m => .other m

/-- The payload of a transaction (R316, R317): for a reduction the reduction word, then the row word, then the data. -/
def planPayload (n : Nat) (t : Tile) (x : PlanTx) (data : List Byte) : List Byte :=
  (if rxRop n = 0 then [] else redWord (rxRop n - 1) (rxFmt n) (fld n 703 688)) ++
  natLe 16 (x.rowBytes + 2 ^ 16 * x.rows.length + 2 ^ 64 * wrapTo 64 (nth 0 t.dstep 1)) ++ data

/-- Deliveries of an RXFER that its engine has not sent. -/
def State.unsent (s : State) (c : CopyCmd) : Nat :=
  let n := leNat c.rec_
  if rxForeign n then 1
  else (((rxPlan (s.gridOf (nth 0 c.args 0)) n).zipIdx.filter fun y => !c.done.contains y.2).map fun y => if rxRop n = 0 then y.1.card else 1).sum

/-- The engine sends no more: every delivery left completes as an error (R314). -/
def State.rxferFails (s : State) (c : CopyCmd) (cause : Nat) : State :=
  let id := nth 0 c.args 0
  let left := s.unsent c
  let node := (s.gridOf id).node
  let s := { s with sched := { s.sched with copies := s.sched.copies.filter fun x => x.id != c.id } }
  let s := s.updOp id fun o => { o with gathered := o.gathered + left }.addErr left cause node
  (s.payloadGathered id left).settleOp id

/-- The cause of R120 for a trap met in reading a source. -/
def sourceCause (code : Nat) : Nat := if code = trapFirewall then 3 else if code = trapPoison then 9 else 2

/-- The RoCEv2 operation for the package of one linear index of a peer's domain, with what the peer's table entry gives (R421): queue pair
QPBASE + n, the R_key of the world and window, and address ADDR + n. -/
def State.roceTo (s : State) (peer world window n dst : Nat) (add : Bool) (data : List Byte) : Roce :=
  let e := s.read (fld s.power.ethpeer.toNat 51 13 * 8192 + 32 * peer) 32
  { peer := peer, ports := fld e 8 1, qp := (fld e 39 16 + n) % 2 ^ 24, rkey := fld e 55 40 * 2 ^ 16 + world * 2 ^ 8 + window,
    addr := (fld e 191 64 + n) % 2 ^ 128, dst := dst, add := add, data := data }

/-- A RoCEv2 operation leaves on an Ethernet port. -/
def State.sendRoce (s : State) (x : Roce) : State := { s with power := { s.power with foreign := s.power.foreign ++ [x] } }

/-- The linear index of the anchor of an operation's pattern, under the grid values it was issued with (R101, R106). -/
def State.targetOf (s : State) (id : Nat) : Nat :=
  ((s.remoteOp id).map fun o => linearIndex o.grid.1.toNat (anchorOf o.grid.1.toNat o.pattern.toNat)).getD 0

/-- Sends the transactions of a plan in turn, each when its source can be read. -/
def sendPlan (n : Nat) (id : Nat) : List (PlanTx × Nat) → State → State
  | [], s => s
  | x :: rest, s =>
    match s.copyCmd id with
    | none => s
    | some c =>
      if c.done.contains x.2 then sendPlan n id rest s
      else
        let t := tileOf n
        let op := nth 0 c.args 0
        match getRows s c t.ssp x.1.rowBytes x.1.rows with
        | .bytes data s =>
          let two := ((s.remoteOp op).bind (·.landing)).isSome
          let g := rxGroup n
          let head := txOf (if rxRop n = 0 then x.1.pattern else rxPattern n) g (if rxRop n = 0 then 6 else 7) c.world
          let tx := txCarry (if two then txNoLand head else head) x.1.off (planPayload n t x.1 data)
          let s := s.updCopy id fun c => { c with done := insNat x.2 c.done }
          let s := if rxForeign n then s.sendRoce (s.roceTo (fld n 711 704) c.world (rxWindow n) (s.targetOf op) x.1.off false tx.payload)
            else s.inject op x.2 { tx with toAnchor := rxRop n != 0 }
          sendPlan n id rest s
        | .other .later => sendPlan n id rest s
        | .other (.parked s) => s
        | .other (.stop code _ s) => s.rxferFails c (sourceCause code)
        | .other (.moved s) => s

/-- The entry of the foreign peer table is usable (R421): valid, with a port, no reserved bit set (R4), in a page of world 0. -/
def State.peerValid (s : State) (peer : Nat) : Bool :=
  let pa := fld s.power.ethpeer.toNat 51 13 * 8192 + 32 * peer
  let e := s.read pa 32
  bit e 0 && fld e 8 1 != 0 && fld e 15 9 == 0 && fld e 63 56 == 0 && fld e 255 192 == 0 && s.admits (.world 0) pa

/-- RXFER_TRANSFER (R314, R318): the engine reads what it can and hands it to the remote engine. -/
def execRxferTransfer (cmd : Nat) (s : State) : Host.Outcome State Fault Refusal :=
  match s.copyCmd cmd with
  | none => .next s
  | some c =>
    if c.kind ≠ 3 ∨ c.parked then .next s
    else
      let n := leNat c.rec_
      if rxForeign n && !s.peerValid (fld n 711 704) then .next (s.rxferFails c 7)
      else
        let plan := rxPlan (s.gridOf (nth 0 c.args 0)) n
        let s := sendPlan n cmd plan.zipIdx s
        match s.copyCmd cmd with
        | none => .next s
        | some c => .next (if c.done.length = plan.length then
            { s with sched := { s.sched with copies := s.sched.copies.filter fun x => x.id != cmd } } else s)

/-! ### Acknowledgements -/

/-- The transaction of an operation for which an acknowledgement waits at the router. -/
def State.ackFor (s : State) (op : Nat) (ack : Ack) : Option Nat :=
  s.fabric.acksOut.findSome? fun x => match x.1 with
    | .op id k => if id = op ∧ x.2 = ack then some k else none
    | _ => none

/-- REMOTE_ACK (R119, R118): an acknowledgement that the router holds for an operation is counted. One of count 0 is the
negative acknowledgement of an anchor without a slot: the contribution is sent again after its backoff. -/
def execRemoteAck (op : Nat) (ack : Ack) (s : State) : Host.Outcome State Fault Refusal :=
  match s.ackFor op ack with
  | none => .next s
  | some k =>
    let s := s.updFabric fun f => { f with acksOut := dropFirst (fun y => decide (y = (.op op k, ack))) f.acksOut }
    if ack.count = 0 then
      match (s.remoteOp op).bind fun o => o.sent.find? fun t => t.1 == k with
      | none => .next s
      | some t =>
        let (id, s) := s.fresh
        let again : Refused := { id := id, tx := t.2.1, port := 0, up := .op op k, times := t.2.2 + 1, until_ := s.clock + backoff t.2.2,
                                 grid := (s.remoteOp op).map (·.grid), anchor := true }
        .next (s.updFabric fun f => { f with
          refused := f.refused ++ [again]
          ops := updFirst (fun o => o.id == op) (fun o => { o with
            sent := o.sent.map fun y => if y.1 == k then (y.1, y.2.1, y.2.2 + 1) else y }) f.ops })
    else .next (s.countAck op ack)

/-- Default and least values of the timeouts (R128), in clocks. -/
def State.redTimeout (s : State) : Nat := usClocks (max 1 s.fabric.redto)
def State.txTimeout (s : State) : Nat := max (usClocks s.fabric.txto) (2 * s.redTimeout)

/-- REMOTE_TX_TIMEOUT (R119): what is missing completes as errors of cause TIMEOUT that name the anchor. -/
def execRemoteTxTimeout (op : Nat) (s : State) : Host.Outcome State Fault Refusal :=
  match s.remoteOp op with
  | none => .next s
  | some o =>
    if s.clock < o.issued + s.txTimeout then .next s
    else
      let missing := o.expected - o.gathered
      let shape := o.grid.1.toNat
      let node := linearIndex shape (anchorOf shape o.pattern.toNat)
      let s := s.updFabric fun f => { f with timeout := (f.timeout + missing) % 2 ^ 32 }
      .next (s.finishOp ({ o with gathered := o.expected }.addErr missing 8 node))

/-- The answer of a foreign peer for an operation (R318), with a cause of R120, 0 for success: the peer has acknowledged every write, and a
landing's fetch-and-add then follows; or it has acknowledged that, has refused, or could not be reached, and the operation's count is
complete. A refusal names the target as its node, and a peer that cannot be reached this package. -/
def State.roceAnswer (s : State) (op cause : Nat) : State :=
  match s.remoteOp op with
  | none => s
  | some o =>
    if !o.foreign || s.sched.copies.any (fun c => c.kind == 3 && nth 0 c.args 0 == op) then s
    else
      let ends := fun (s : State) (cause : Nat) => (s.updOp op fun o => { o with landing := none }).countAck op
        { count := 1, errs := b2n (cause != 0), cause := cause, node := if cause = 7 then (s.gridOf op).node else s.targetOf op, data := [] }
      match (if cause = 0 then o.landing else none) with
      | some l =>
        if !s.peerValid o.peer then ends s 7
        else (s.updOp op fun o => { o with landing := none }).sendRoce
          (s.roceTo o.peer o.world o.window (s.targetOf op) (l.tx.loff.toNat * 8) true (natLe 8 1))
      | none => ends s cause

/-- REDUCTION_NACK_RESEND (R118): the remote engine sends a refused contribution again after its backoff. -/
def execReductionNackResend (refusal : Nat) (s : State) : Host.Outcome State Fault Refusal :=
  match s.fabric.refused.find? fun x => x.id == refusal with
  | none => .next s
  | some x =>
    match x.up with
    | .op _ _ =>
      if s.clock < x.until_ ∨ !x.anchor then .next s
      else .next (s.updFabric fun f => { f with
        refused := f.refused.filter (fun y => y.id != refusal), inbox := f.inbox ++ [{ tx := x.tx, port := 0, up := x.up, grid := x.grid }] })
    | _ => .next s

end Sys2Proof.Machine
end

