-- ==== Sys2Proof/Machine/Fabric.lean ====
section
/-! DEFINITION. The fabric block (R102, R111 to R118, R122 to R128): tables, the pattern router with its combine entries, what a
target performs, and reduction slots. -/

namespace Sys2Proof.Machine

/-! ### Tables (R102, R122, R128) -/

/-- The fabric block may read its tables only in pages of world 0 (R128). -/
def State.tableOk (s : State) (pa n : Nat) : Bool := s.admits (.world 0) pa && s.admits (.world 0) (pa + n - 1)

/-- Loads the window table; in a page that is not world 0's no window is registered (log 26). -/
def State.loadWindows (s : State) : Host.Outcome State Fault Refusal :=
  let base := fld s.fabric.wintab.toNat 51 13 * 8192
  let ok := s.tableOk base 8192
  .next ((s.updFabric fun f => { f with
    windows := if ok then (List.range 256).map fun i => BitVec.ofNat 256 (s.physRead (base + 32 * i) 32) else [] }).physDone base 8192)

/-- A valid rule breaks no rule of R122. -/
def ruleOk (r : Nat) : Bool :=
  rulePorts r != 0 && fld r 19 18 == 0 && fld r 127 90 == 0 && (List.range 5).all fun j => decide (rulePlen r j ≤ 10)
/-- Do two rules overlap on the grid's axes? -/
def rulesOverlap (axes a b : Nat) : Bool := (ruleMeets axes b ((List.range 5).map fun j => ruleBlock a j)).isSome

/-- Loads and checks the rule table; a bad table sets RULEERR and keeps the previous one. A good one leaves RULEERR as it is, until software
clears it (log 85). -/
def State.loadRules (s : State) : Host.Outcome State Fault Refusal :=
  let base := fld s.fabric.rules.toNat 51 12 * 4096
  let rules := (List.range 256).map fun i => s.physRead (base + 16 * i) 16
  let valid := rules.filter fun r => bit r 0
  let pairs := (valid.zipIdx).all fun x => (valid.drop (x.2 + 1)).all fun y => !rulesOverlap (gridAxes s.shape) x.1 y
  let s := s.physDone base 4096
  if s.tableOk base 4096 && valid.all ruleOk && pairs then
    .next (s.updFabric fun f => { f with ruleTab := rules.map fun r => BitVec.ofNat 128 r })
  else .next (s.updFabric fun f => { f with ruleerr := true })

/-- WINDOW_TABLE_LOAD (R102). -/
def execWindowTableLoad (s : State) : Host.Outcome State Fault Refusal := s.loadWindows
/-- RULE_TABLE_LOAD (R122). -/
def execRuleTableLoad (s : State) : Host.Outcome State Fault Refusal := s.loadRules

/-! ### Acknowledgements through combine entries (R124) -/

/-- An acknowledgement for one delivery that failed here, with a cause of R120. -/
def State.errAck (s : State) (cause : Nat) : Ack := { count := 1, errs := 1, cause := cause, node := s.node, data := [] }
/-- An acknowledgement of success. -/
def okAck (data : List Byte) : Ack := { count := 1, errs := 0, cause := 0, node := 0, data := data }
/-- A negative acknowledgement has count 0: `cause` 0 says that the next hop had no combine entry, 1 that the anchor had no
reduction slot. -/
def nack (cause : Nat) : Ack := { count := 0, errs := 0, cause := cause, node := 0, data := [] }

/-- Sums of two acknowledgements: the error of the lowest node is kept, and data only while the sum counts one member (R126). -/
def addAck (a b : Ack) : Ack :=
  let low := if b.errs = 0 then a else if a.errs = 0 ∨ b.node < a.node then b else a
  { count := a.count + b.count, errs := a.errs + b.errs, cause := low.cause, node := low.node, data := if a.count + b.count = 1 then a.data ++ b.data else [] }

/-- Sends an acknowledgement to an operation here or to the neighbour on a port. -/
def State.sendUp (s : State) (up : Upstream) (a : Ack) : State :=
  match up with
  | .branch _ _ => s
  | up => s.updFabric fun f => { f with acksOut := f.acksOut ++ [(up, a)] }

/-- A branch of a combine entry answers. With the last one the sums go upstream. A copy that the next hop refused is held and
sent again; a contribution that the anchor refused goes back to its issuer. -/
def State.combineAnswer (s : State) (entry branch : Nat) (a : Ack) : State :=
  match s.fabric.combines.find? fun c => c.id == entry with
  | none => s
  | some c =>
    match c.branches.find? fun b => b.num == branch with
    | none => s
    | some b =>
      let put := fun (s : State) (c : Combine) => s.updFabric fun f => { f with combines := updFirst (fun x => x.id == entry) (fun _ => c) f.combines }
      let drop := fun (s : State) => s.updFabric fun f => { f with combines := f.combines.filter fun x => x.id != entry }
      if a.count = 0 then
        if a.cause = 1 then (drop s).sendUp c.up a
        else
          let (id, s) := s.fresh
          let s := put s { c with branches := updFirst (fun x => x.num == branch) (fun x => { x with times := x.times + 1 }) c.branches }
          let again : Refused := { id := id, tx := b.tx, port := b.port, up := .branch entry branch, times := b.times + 1, until_ := s.clock + backoff b.times }
          s.updFabric fun f => { f with refused := f.refused ++ [again] }
      else
        let c := { c with branches := dropFirst (fun x => x.num == branch) c.branches, ack := addAck c.ack a }
        if c.branches.isEmpty then (drop s).sendUp c.up c.ack else put s c

/-- Answers whatever waits for a delivery. -/
def State.answer (s : State) (up : Upstream) (a : Ack) : State :=
  match up with
  | .branch e b => s.combineAnswer e b a
  | up => s.sendUp up a

/-- COMBINE_ACK (R124): an acknowledgement of a branch arrives on its port; the local port's branch answers itself. -/
def execCombineAck (entry branch : Nat) (ack : Ack) (s : State) : Host.Outcome State Fault Refusal :=
  let onPort := (s.fabric.combines.find? fun c => c.id == entry).any fun c => c.branches.any fun b => b.num == branch && b.port != 0
  if onPort then .next (s.combineAnswer entry branch ack) else .next s

/-- COMBINE_TIMEOUT (R124): after FBTXTO the missing branches are reported as TIMEOUT. -/
def execCombineTimeout (entry : Nat) (s : State) : Host.Outcome State Fault Refusal :=
  match s.fabric.combines.find? fun c => c.id == entry with
  | none => .next s
  | some c =>
    if s.clock < c.made + s.txTimeout then .next s
    else
      let a := c.branches.foldl (fun a b => addAck a { count := b.count, errs := b.count, cause := 8, node := b.node, data := [] }) c.ack
      let n := (c.branches.map (·.count)).sum
      .next ((s.updFabric fun f => { f with
        combines := f.combines.filter (fun x => x.id != entry), timeout := (f.timeout + n) % 2 ^ 32 }).sendUp c.up a)

/-- A refused copy goes out of its port again; one of a confidential world whose port's cipher is off is answered with ROUTE (R406). -/
def State.sendAgain (s : State) (x : Refused) (entry branch : Nat) : State :=
  if 2 ≤ x.tx.world.toNat ∧ !(mapGet Port.reset s.fabric.ports (x.port - 1)).keyed then
    match (s.fabric.combines.find? fun c => c.id == entry).bind fun c => c.branches.find? fun b => b.num == branch with
    | none => s
    | some b => s.combineAnswer entry branch { count := b.count, errs := b.count, cause := 7, node := b.node, data := [] }
  else s.updFabric fun f => { f with outbox := f.outbox ++ [(x.port, x.tx)] }

/-- COMBINE_NACK_RESEND (R124): a copy refused for want of a combine entry is sent again after its backoff. -/
def execCombineNackResend (refusal : Nat) (s : State) : Host.Outcome State Fault Refusal :=
  match s.fabric.refused.find? fun x => x.id == refusal with
  | none => .next s
  | some x =>
    if s.clock < x.until_ ∨ x.anchor then .next s
    else
      let s := s.updFabric fun f => { f with refused := f.refused.filter fun y => y.id != refusal }
      .next (match x.up with
        | .branch e b => s.sendAgain x e b
        | _ => s.updFabric fun f => { f with inbox := f.inbox ++ [{ tx := x.tx, port := 0, up := x.up, grid := x.grid, times := x.times }] })

/-! ### The router (R123) -/

/-- What expanding one copy gives: its branches, and the errors answered at once. -/
structure Expansion where
  branches : List Branch
  ack : Ack
deriving DecidableEq, Repr

/-- The header of a transaction (R126). -/
def txHeader (t : Tx) : Nat :=
  t.pattern.toNat + 2 ^ 128 * t.op.toNat + 2 ^ 134 * t.window.toNat + 2 ^ 142 * t.world.toNat + 2 ^ 150 * t.land.toNat +
  2 ^ 152 * t.lbit.toNat + 2 ^ 158 * t.offset.toNat + 2 ^ 194 * t.loff.toNat + 2 ^ 227 * t.seq.toNat + 2 ^ 240 * t.lenm1.toNat +
  2 ^ 253 * b2n t.toAnchor

/-- The header of an acknowledgement for the combine entry `seq` of the previous hop (R126): OP 8, with its numbers in the pattern's
bits. -/
def ackHeader (a : Ack) (seq : Nat) : Nat :=
  a.count % 2 ^ 11 + 2 ^ 16 * (a.errs % 2 ^ 11) + 2 ^ 32 * (a.cause % 16) + 2 ^ 40 * (a.node % 1024) + 2 ^ 128 * 8 + 2 ^ 227 * (seq % 2 ^ 13) +
  2 ^ 240 * ((a.data.length - 1) % 2 ^ 13)

/-- What stands on the wire (R126). -/
def txWire (t : Tx) : List Byte := natLe 32 (txHeader t) ++ t.payload
def ackWire (a : Ack) (seq : Nat) : List Byte := natLe 32 (ackHeader a seq) ++ a.data
/-- Flits of 64 bytes (R125). -/
def flits (bs : List Byte) : Nat := (bs.length + 63) / 64

/-- Flits that wait for the link of a router port. -/
def Fabric.backlog (f : Fabric) (port : Nat) : Nat :=
  ((f.outbox.filter fun x => x.1 == port).map fun x => flits (txWire x.2)).sum +
  (f.acksOut.map fun x => match x.1 with
    | .port p seq => if p = port then flits (ackWire x.2 seq) else 0
    | _ => 0).sum

/-- The port that the router picks (R123): of those that are up (of all, if none is: log 27) the one with the most free link buffer, the
lower on a tie. Every link's buffer is taken to be of one size, so that the shortest backlog leaves the most. -/
def State.pickPort (s : State) (ports : Nat) : Nat :=
  let l := (List.range 17).filter fun j => bit ports j && j != 0
  let up := l.filter fun j => (mapGet Port.reset s.fabric.ports (j - 1)).up
  let l := if up.isEmpty then l else up
  let least := (l.map s.fabric.backlog).foldl min (s.fabric.backlog (l.headD 0))
  (l.find? fun j => s.fabric.backlog j == least).getD 0

/-- An error of cause ROUTE for coordinates: their number and the lowest linear index. -/
def routeErr (shape : Nat) (l : List (List Nat)) : Ack :=
  { count := l.length, errs := l.length, cause := 7, node := ((l.map (linearIndex shape)).foldl min 1023), data := [] }

/-- Expands a copy that arrived at router port `port` (0: issued here). Its coordinates are those of its pattern, or its
anchor's alone when it travels to the anchor. A confidential world's copy is not sent on a port whose cipher is off (R406). -/
def State.expand (s : State) (tx : Tx) (port : Nat) : Expansion :=
  let shape := s.shape
  let axes := gridAxes shape
  let p := tx.pattern.toNat
  let here := s.here
  let excl := port == 0 && !tx.toAnchor && patExcl p
  let iv := if tx.toAnchor then (anchorOf shape p).map (fun c => (c, c)) else patIntervals shape p
  let none_ : Ack := { count := 0, errs := 0, cause := 0, node := 0, data := [] }
  let rules := (s.fabric.ruleTab.map (·.toNat)).filter fun r => bit r 0
  let add := fun (x : Expansion) (l : List (List Nat)) => if l.isEmpty then x else { x with ack := addAck x.ack (routeErr shape l) }
  let x := rules.foldl (fun (x : Expansion) r =>
    match ruleMeets axes r iv with
    | none => x
    | some cut =>
      let coords := ivCoords cut
      let own := ivHas cut here
      let others := coords.filter fun c => c != here
      let ports := if port = 0 then rulePorts r else if bit (rulePorts r) port then rulePorts r - 2 ^ port else rulePorts r
      if ports = 0 then add x (if own && excl then others else coords)
      else if bit ports 0 then
        let b : Branch := { num := x.branches.length, port := 0, count := 1, node := linearIndex shape here, tx := tx, times := 0 }
        let x := if own && !excl then { x with branches := x.branches ++ [b] } else x
        add x others
      else
        let out := if tx.toAnchor then tx else { tx with pattern := BitVec.ofNat 128 (patOf axes cut false) }
        let node := (coords.map (linearIndex shape)).foldl min 1023
        let out_ := s.pickPort ports
        let b : Branch := { num := x.branches.length, port := out_, count := ivCard cut, node := node, tx := out, times := 0 }
        if 2 ≤ tx.world.toNat ∧ !(mapGet Port.reset s.fabric.ports (out_ - 1)).keyed then add x coords
        else { x with branches := x.branches ++ [b] }) { branches := [], ack := none_ }
  let left := (ivCoords iv).filter fun c => !(rules.any fun r => (ruleMeets axes r iv).any fun cut => ivHas cut c)
  add x (if excl then left.filter fun c => c != here else left)

/-- The lowest free combine entry (R124). -/
def State.freeCombine (s : State) : Option Nat :=
  let n := freshNumber (s.fabric.combines.map (·.id))
  if n < 8192 then some n else none

/-- The package as a waiting copy's operation sees its grid (R100). -/
def State.asIssued (s : State) (x : Waiting) : State := (x.grid.map s.withGrid).getD s

/-- Routes one copy. A copy with nothing to wait for is answered at once; one that finds no combine entry is refused. -/
def State.routeCopy (s : State) (x : Waiting) : State :=
  let e := (s.asIssued x).expand x.tx x.port
  if e.branches.isEmpty then s.sendUp x.up e.ack
  else match s.freeCombine with
  | none =>
    match x.up with
    | .op _ _ =>
      let (id, s) := s.fresh
      let again : Refused := { id := id, tx := x.tx, port := 0, up := x.up, times := x.times + 1, until_ := s.clock + backoff x.times,
                               grid := x.grid }
      s.updFabric fun f => { f with refused := f.refused ++ [again] }
    | up => s.sendUp up (nack 0)
  | some n =>
    let bs := e.branches.map fun b => { b with tx := { b.tx with seq := BitVec.ofNat 13 n } }
    let s := s.updFabric fun f => { f with combines := f.combines ++ [{ id := n, up := x.up, branches := bs, ack := e.ack, made := s.clock }] }
    bs.foldl (fun s b =>
      if b.port = 0 then
        let (id, s) := s.fresh
        s.updFabric fun f => { f with deliveries := f.deliveries ++ [{ id := id, tx := b.tx, up := .branch n b.num, here := x.port == 0 }] }
      else s.updFabric fun f => { f with outbox := f.outbox ++ [(b.port, b.tx)] }) s

/-- ROUTER_EXPAND (R123): a copy that waits here, or one that arrives at fabric port `port` + 1 of the router. A bad operation
code is dropped there and counted (R126); an acknowledgement, OP 8, is no copy to expand (COMBINE_ACK takes it). A flit that passed its tag
ends a row of failures (R411). -/
def execRouterExpand (arrival : Arrival) (s : State) : Host.Outcome State Fault Refusal :=
  match arrival with
  | .here i =>
    match s.fabric.inbox[i]? with
    | none => .next s
    | some x => .next ((s.updFabric fun f => { f with inbox := dropAt f.inbox i }).routeCopy x)
  | .port p tx =>
    if !(mapGet Port.reset s.fabric.ports p).up ∨ 16 ≤ p then .next s
    else
    let s := s.updFabric fun f => { f with ports := mapPut Port.reset f.ports p { mapGet Port.reset f.ports p with fails := 0 } }
    if tx.op = 8 then .next s
    else if tx.op = 0 ∨ 8 < tx.op.toNat then .next (s.updFabric fun f => { f with badhdr := (f.badhdr + 1) % 2 ^ 32 })
    else .next (s.routeCopy { tx := tx, port := p + 1, up := .port (p + 1) tx.seq.toNat })

/-! ### Performing at a target (R111 to R113) -/

/-- A byte range of a window as physical pieces, or a cause of R120. -/
inductive Reach where
  | ok (l : List (Nat × Nat)) (s : State)
  | bad (cause : Nat) (s : State)

/-- Translates a range through a window, page by page (R43, R103); poison counts as R111 says. -/
def reach (s : State) (e off n access : Nat) : Reach :=
  let rec go (s : State) (ps : List (Nat × List Byte)) (acc : List (Nat × Nat)) : Reach :=
    match ps with
    | [] => .ok acc s
    | p :: ps =>
      match engineXlate s 0 (winAsid e) (winWorld e) (.world (winWorld e)) p.1 access with
      | .ok pa _ s => if s.poisoned pa p.2.length then .bad 9 s else go s ps (acc ++ [(pa, p.2.length)])
      | .fault _ _ s => .bad 2 s
      | .firewall s => .bad 3 s
  if n = 0 then .ok [] s else go s (pagePieces (winVa e off) (List.replicate n 0)) []

/-- Several ranges in turn. -/
def reachAll (s : State) (e access : Nat) : List (Nat × Nat) → Reach
  | [] => .ok [] s
  | r :: rs =>
    match reach s e r.1 r.2 access with
    | .bad c s => .bad c s
    | .ok l s =>
      match reachAll s e access rs with
      | .bad c s => .bad c s
      | .ok l' s => .ok (l ++ l') s

/-- Writes bytes over physical pieces in order. -/
def State.writePieces (s : State) (bs : List Byte) : List (Nat × Nat) → State
  | [] => s
  | p :: ps => (s.writeHome p.1 (bs.take p.2)).writePieces (bs.drop p.2) ps

/-- Reads bytes over physical pieces in order. -/
def State.readPieces (s : State) (l : List (Nat × Nat)) : List Byte := l.flatMap fun p => s.bytes p.1 p.2

/-- The landing action of a transaction at its word (R113). -/
def State.land (s : State) (land lbit pa : Nat) : State :=
  let m := s.read pa 8
  match land with
  | 1 => s.writeHome pa (natLe 8 (m + 1))
  | 2 => s.writeHome pa (natLe 8 (m ||| 2 ^ lbit))
  | _ => s

/-- The byte ranges of a transaction's data in the window: rows for a collective write (R316). -/
def txRanges (t : Tx) : List (Nat × Nat) :=
  let off := t.offset.toNat
  match t.op.toNat with
  | 1 => [(off, t.payload.length)]
  | 2 => [(off, t.lenm1.toNat + 1)]
  | 3 => [(off, if t.aop = 9 then t.payload.length / 2 else t.payload.length)]
  | 6 =>
    let w := leNat (t.payload.take 16)
    (List.range (fld w 31 16)).map fun (k : Nat) => (wrapTo 64 ((off : Int) + (k : Int) * signedOf 64 (fld w 127 64)), fld w 15 0)
  | _ => []

/-- The elements of an RATOM in turn at their addresses (R269, R311): old values. -/
def State.atomElems (s : State) (fn e : Nat) : List (Nat × Nat) → State × List Byte
  | [] => (s, [])
  | x :: xs =>
    let (s, m, _) := s.atomicAt x.1 fn e x.2 none
    let (s, bs) := s.atomElems fn e xs
    (s, natLe e m ++ bs)

/-- A RoCEv2 request arrives on an Ethernet port (R127, R318): a write, or the fetch-and-add of a landing. The fabric block checks and
performs it as it does a transaction of the fabric (R111), and its answer goes back to the peer. Nothing starts before boot has
released the engines (R399). -/
def State.roceArrival (s : State) (peer : Nat) (tx : Tx) : State :=
  if !s.released ∨ tx.op ≠ 1 ∧ tx.op ≠ 6 ∧ tx.op ≠ 5 ∨ 1 < tx.land.toNat then s
  else
    let (id, s) := s.fresh
    s.updFabric fun f => { f with deliveries := f.deliveries ++ [{ id := id, tx := tx, up := .port (17 + peer) tx.seq.toNat, here := false }] }

/-- TARGET_PERFORM (R111): every check first, then the data, then the landing, then the acknowledgement. A page that a snapshot
holds, or a line that a commit group has locked, delays it (R88, R95, R97). The service of die 0 translates at the target, and counts
its faults (a choice, log 75). The data, in address order, and the landing are written in one step (log 85). -/
def execTargetPerform (delivery : Nat) (s : State) : Host.Outcome State Fault Refusal :=
  match s.fabric.deliveries.find? fun d => d.id == delivery with
  | none => .next s
  | some d =>
    let t := d.tx
    let op := t.op.toNat
    if op = 4 ∨ op = 7 then .next s
    else
      let finish := fun (s : State) (a : Ack) =>
        Host.Outcome.next ((s.updFabric fun f => { f with deliveries := f.deliveries.filter fun x => x.id != delivery }).answer d.up a)
      let e := s.window t.window.toNat
      let ranges := txRanges t
      let lands := landRanges t.land.toNat t.loff.toNat false
      let fails := fun (s : State) (c : Nat) => finish (if c = 2 then s.updTs 0 fun ts => { ts with remflt := (ts.remflt + 1) % 2 ^ 32 } else s) (s.errAck c)
      if !s.fabric.en then finish s (s.errAck 1)
      else match winRefuses e t.world.toNat op (ranges ++ lands) with
      | some c => fails s c
      | none =>
        match reachAll s e (if op = 2 then 0 else if op = 3 then 2 else 1) ranges with
        | .bad c s => fails s c
        | .ok data s1 =>
          match reachAll s1 e 2 lands with
          | .bad c s => fails s c
          | .ok land s2 =>
            let held := (if op = 2 then [] else data ++ land).any fun p => s2.writeHeld p.1 p.2
            if held || (data ++ land).any fun p => s2.readHeld p.1 p.2 none then .next s
            else
              let size := sizeBytes t.asize.toNat
              let r : State × List Byte := match op with
                | 1 => (s2.writePieces t.payload data, [])
                | 6 => (s2.writePieces (t.payload.drop 16) data, [])
                | 2 => (s2, s2.readPieces data)
                | 3 =>
                  let args := if t.aop = 9 then 2 * size else size
                  let at_ := fun (i : Nat) => match engineXlate s2 0 (winAsid e) (winWorld e) (.world (winWorld e)) (winVa e (t.offset.toNat + i * size)) 2 with
                    | .ok pa _ _ => pa
                    | _ => 0
                  let elems := (List.range (t.payload.length / args)).map fun i => (at_ i, leNat ((t.payload.drop (i * args)).take args))
                  let (s, old) := s2.atomElems t.aop.toNat size elems
                  (elems.foldl (fun s x => s.recheck x.1 size) s, if ivCard (patIntervals s.shape t.pattern.toNat) = 1 then old else [])
                | _ => (s2, [])
              let s := land.foldl (fun s p => s.land t.land.toNat t.lbit.toNat p.1) r.1
              finish s (okAck r.2)

/-! ### Reductions (R114 to R118) -/

/-- What a contribution's payload says: operator, format, tag, its rows in the window, and its elements with their presence;
a void has no rows. -/
structure Contribution where
  op : Nat
  fmt : Nat
  tag : Nat
  len : Nat
  rows : List (Nat × Nat)
  elems : List (Bool × Nat)
deriving DecidableEq, Repr

/-- Width of an RRED payload with data (R126): mask and elements fill it. -/
def redWidth (n e : Nat) : Nat := ((List.range 33).find? fun k => (k * 32 + 63) / 64 * 8 + k * 32 * e == n).getD 0 * 32

/-- Reads a payload. -/
def contributionOf (t : Tx) : Contribution :=
  let w := leNat (t.payload.take 8)
  let op := fld w 3 0
  let fmt := fld w 7 4
  let e := redBytes fmt
  let body := t.payload.drop 8
  if body.isEmpty then { op := op, fmt := fmt, tag := fld w 31 16, len := 0, rows := [], elems := [] }
  else if t.op = 7 then
    let r := leNat (body.take 16)
    let data := body.drop 16
    { op := op, fmt := fmt, tag := fld w 31 16, len := data.length,
      rows := (List.range (fld r 31 16)).map fun (k : Nat) => (wrapTo 64 ((t.offset.toNat : Int) + (k : Int) * signedOf 64 (fld r 127 64)), fld r 15 0),
      elems := (pieces e data).map fun x => (true, leNat x) }
  else
    let n := redWidth body.length e
    let mask := leNat (body.take ((n + 63) / 64 * 8))
    let data := body.drop ((n + 63) / 64 * 8)
    { op := op, fmt := fmt, tag := fld w 31 16, len := data.length, rows := [(t.offset.toNat, n * e)],
      elems := ((pieces e data).zipIdx).map fun x => (bit mask x.2, leNat x.1) }

/-- An exact sum of values in a floating-point format (R115): code and flags. -/
def redAdd (f : FpFmt) (l : List Nat) : FpRes :=
  let vs := l.map (fpDecode f)
  if vs.any (·.isNan) then (f.nan, flagNV)
  else
    let (v, fl) := sumVal (vs.all fun v => v.isZero && v.neg) vs
    finishFp f 0 0 fl v

/-- The result of an element from its present values (R115). -/
def redResult (op fmt : Nat) (l : List Nat) : FpRes :=
  let n := 8 * redBytes fmt
  let fold := fun (f : Nat → Nat → Nat) => match l with
    | [] => 0
    | x :: xs => xs.foldl f x
  match op, fmt with
  | 0, 0 => redAdd fpF32 l
  | 0, 1 =>
    let lo := redAdd fpBf16 (l.map fun x => x % 65536)
    let hi := redAdd fpBf16 (l.map fun x => x / 65536)
    (lo.1 + 65536 * hi.1, lo.2 ||| hi.2)
  | 0, _ => (l.sum % 2 ^ n, 0)
  | 3, _ => (fold (· &&& ·), 0)
  | 4, _ => (fold (· ||| ·), 0)
  | 5, _ => (fold (· ^^^ ·), 0)
  | _, 0 =>
    if (l.map (fpDecode fpF32)).any (·.isNan) then (fpF32.nan, flagNV) else (fold fun a b => (fpMinMax fpF32 (op == 2) a b).1, 0)
  | _, _ => (fold fun a b => if (signedOf n a ≤ signedOf n b) == (op == 1) then a else b, 0)

/-- Offsets of a slot's elements in the window. -/
def RedSlot.offsets (x : RedSlot) : List Nat :=
  x.rows.flatMap fun r => (List.range (r.2 / max x.ebytes 1)).map fun j => wrapTo 64 (r.1 + j * x.ebytes : Nat)

/-- The status word of a flush (R116). -/
def redStatus (x : RedSlot) (short : Bool) (fl : Nat) : Nat :=
  x.count % 2 ^ 11 + 2 ^ 16 * (x.voids % 2 ^ 11) + 2 ^ 32 * b2n short + 2 ^ 34 * b2n (bit fl 0) + 2 ^ 35 * b2n (bit fl 2) +
  2 ^ 36 * b2n (bit fl 4) + 2 ^ 48 * x.tag

/-- The physical places of results in a window; one whose address does not translate has none. -/
def State.placeResults (s : State) (e : Nat) : List (Nat × Nat × Nat) → List (Nat × Nat) × State
  | [] => ([], s)
  | r :: rs => match engineXlate s 0 (winAsid e) (winWorld e) (.world (winWorld e)) (winVa e r.1) 1 with
    | .ok pa _ s => let x := s.placeResults e rs
      ((pa, r.2.1) :: x.1, x.2)
    | x => x.after.placeResults e rs

/-- A flush (R116): results, status word, landing; then the tombstone of R118. None while a snapshot holds a page (R95). Results and words
whose translation fails at the flush are dropped, and count in no TSREMFLT (log 85). -/
def State.flushSlot (s : State) (x : RedSlot) (short : Bool) : Option State :=
  let e := s.window x.window
  let present := (x.offsets.zip x.elems).filter fun y => y.2.have_
  let results := present.map fun y => (y.1, redResult x.op x.fmt (y.2.vals.map (·.toNat)))
  let fl := results.foldl (fun a r => a ||| r.2.2) 0
  let (place, s) := s.placeResults e results
  let lands := landRanges x.land_ x.loff true
  let (words, s) := if x.land_ = 0 ∨ (winRefuses e x.world 4 lands).isSome then ([], s) else match reachAll s e 2 lands with
    | .ok l s => (l.map (·.1), s)
    | .bad _ s => ([], s)
  if place.any (fun p => s.writeHeld p.1 x.ebytes) || words.any (fun p => s.writeHeld p 8 || s.readHeld p 8 none) then none
  else
    let s := place.foldl (fun s p => s.writeHome p.1 (natLe x.ebytes p.2)) s
    let s := match words with
      | [l, st] => (s.writeHome st (natLe 8 (redStatus x short fl))).land x.land_ x.lbit l
      | _ => s
    let (id, s) := s.fresh
    let t : Tomb := { id := id, slice := x.slice, window := x.window, offset := x.offset, pattern := x.pattern, tag := x.tag,
                      status := if words.length = 2 then some (x.loff * 8 + 8) else none, made := s.clock }
    let mine := s.fabric.tombs.filter fun y => y.slice == x.slice
    let tombs := if mine.length < 256 then s.fabric.tombs else dropFirst (fun y => y.slice == x.slice) s.fabric.tombs
    some (s.updFabric fun f => { f with slots := f.slots.filter (fun y => y.id != x.id), tombs := tombs ++ [t] })

/-- A slot whose gathered count reaches its pattern's cardinality flushes. -/
def State.tryFlush (s : State) (id : Nat) : State :=
  match s.fabric.slots.find? fun x => x.id == id with
  | none => s
  | some x => if x.count < ivCard (patIntervals s.shape x.pattern.toNat) then s else (s.flushSlot x false).getD s

/-- The slice at which a window offset is homed; slice 0 if it does not translate, which only a void's can fail to do (log 85). -/
def State.redSlice (s : State) (e off : Nat) : Nat :=
  match engineXlate s 0 (winAsid e) (winWorld e) (.world (winWorld e)) (winVa e off) 1 with
  | .ok pa _ _ => homeDie pa * 128 + homeSlice pa
  | _ => 0

/-- The state after that translation, which may have set ACC and DIRTY in the leaf (R30). -/
def State.redWalk (s : State) (e off : Nat) : State := (engineXlate s 0 (winAsid e) (winWorld e) (.world (winWorld e)) (winVa e off) 1).after

/-- A contribution joins a slot (R114, R115): a void adds nothing, the first data sets the shape, and one that disagrees counts
as a void. The second result says that it disagreed. -/
def RedSlot.take (x : RedSlot) (c : Contribution) : RedSlot × Bool :=
  let x := { x with count := x.count + 1 }
  if c.rows.isEmpty then ({ x with voids := x.voids + 1 }, false)
  else
    let x := if x.op = 15 then { x with
      op := c.op, fmt := c.fmt, len := c.len, ebytes := redBytes c.fmt, rows := c.rows,
      elems := c.elems.map fun _ => ({ have_ := false, vals := [] } : RedElem) } else x
    if x.op ≠ c.op ∨ x.fmt ≠ c.fmt ∨ x.len ≠ c.len then ({ x with voids := x.voids + 1 }, true)
    else ({ x with elems := (x.elems.zip c.elems).map fun y =>
      if y.2.1 then { have_ := true, vals := y.1.vals ++ [BitVec.ofNat 64 y.2.2] } else y.1 }, false)

/-- A late contribution sets LATE in the status word of its flush (R118), whose place in the window is translated again. -/
def State.markLate (s : State) (e off : Nat) : State :=
  match reach s e off 8 2 with
  | .ok l s => l.foldl (fun s p => s.writeHome p.1 (natLe p.2 (s.read p.1 p.2 ||| 2 ^ 33))) s
  | .bad _ s => s

/-- REDUCTION_CONTRIBUTION (R114 to R118): checked as a transaction is unless it is a void; then tombstone, open slot, or a new
slot. -/
def execReductionContribution (delivery : Nat) (s : State) : Host.Outcome State Fault Refusal :=
  match s.fabric.deliveries.find? fun d => d.id == delivery with
  | none => .next s
  | some d =>
    let t := d.tx
    if t.op ≠ 4 ∧ t.op ≠ 7 then .next s
    else
      let finish := fun (s : State) (a : Ack) =>
        ((s.updFabric fun f => { f with deliveries := f.deliveries.filter fun x => x.id != delivery }).answer d.up a)
      let e := s.window t.window.toNat
      let c := contributionOf t
      let fails := fun (s : State) (k : Nat) => Host.Outcome.next
        (finish (if k = 2 then s.updTs 0 fun ts => { ts with remflt := (ts.remflt + 1) % 2 ^ 32 } else s) (s.errAck k))
      let checked : State × Option Nat := if c.rows.isEmpty then (s, none)
        else match winRefuses e t.world.toNat 4 c.rows with
        | some k => (s, some k)
        | none => match reachAll s e 1 c.rows with
          | .bad k s => (s, some k)
          | .ok _ s => (s, none)
      let same := fun (w o : Nat) (p : BitVec 128) (g : Nat) => w == t.window.toNat && o == t.offset.toNat && p == t.pattern && g == c.tag
      if !s.fabric.en then .next (finish s (s.errAck 1))
      else match checked with
      | (s, some k) => fails s k
      | (s, none) =>
        match s.fabric.slots.find? fun x => same x.window x.offset x.pattern x.tag with
        | some x =>
          let (y, shape) := x.take c
          let s := s.updFabric fun f => { f with slots := updFirst (fun z => z.id == x.id) (fun _ => y) f.slots }
          .next ((finish s (if shape then s.errAck 6 else okAck [])).tryFlush x.id)
        | none =>
          match s.fabric.tombs.find? fun x => same x.window x.offset x.pattern x.tag with
          | some x =>
            let s := match x.status with
              | some off => s.markLate e off
              | none => s
            let s := s.updFabric fun f => { f with droplate := (f.droplate + 1) % 2 ^ 32 }
            .next (finish s (s.errAck 5))
          | none =>
            let slice := s.redSlice e t.offset.toNat
            let s := s.redWalk e t.offset.toNat
            if 64 ≤ s.fabric.slots.countP fun x => x.slice == slice then
              .next (finish (s.updFabric fun f => { f with rednack := (f.rednack + 1) % 2 ^ 32 }) (nack 1))
            else
              let id := freshNumber (s.fabric.slots.map (·.id))
              let x : RedSlot := {
                id := id, slice := slice, window := t.window.toNat, offset := t.offset.toNat, pattern := t.pattern, tag := c.tag,
                world := t.world.toNat, op := 15, fmt := 0, len := 0, ebytes := 0, rows := [], elems := [], count := 0, voids := 0,
                land_ := t.land.toNat, lbit := t.lbit.toNat, loff := t.loff.toNat, opened := s.clock }
              let s := s.updFabric fun f => { f with slots := f.slots ++ [(x.take c).1] }
              .next ((finish s (okAck [])).tryFlush id)

/-- REDUCTION_SLOT_TIMEOUT (R116): FBREDTO after its first arrival a slot flushes SHORT; one that is complete but was held
flushes as such. -/
def execReductionSlotTimeout (slot : Nat) (s : State) : Host.Outcome State Fault Refusal :=
  match s.fabric.slots.find? fun x => x.id == slot with
  | none => .next s
  | some x =>
    let short := decide (x.count < ivCard (patIntervals s.shape x.pattern.toNat))
    if short && decide (s.clock < x.opened + s.redTimeout) then .next s else .next ((s.flushSlot x short).getD s)

/-- TOMBSTONE_EXPIRY (R118): a tombstone goes after twice FBREDTO. -/
def execTombstoneExpiry (tombstone : Nat) (s : State) : Host.Outcome State Fault Refusal :=
  .next (s.updFabric fun f => { f with tombs := f.tombs.filter fun x =>
    !(x.id == tombstone && decide (x.made + 2 * s.redTimeout ≤ s.clock)) })

end Sys2Proof.Machine
end

