-- ==== Sys2Proof/Machine/Trigger.lean ====
section
/-! DEFINITION. Triggers (R319 to R323): arming, cancelling, firing and completion. -/

namespace Sys2Proof.Machine

/-- Fields of a trigger record (R319) as a 512-bit number. -/
def trSb (n : Nat) : Nat := fld n 63 0
def trCmd (n : Nat) : Nat := fld n 127 64
def trCpl (n : Nat) : Nat := fld n 191 128
def trNbt (n : Nat) : Nat := fld n 255 192
def trKind (n : Nat) : Nat := fld n 289 288

/-- Is a trigger record well formed? -/
def trOk (n : Nat) : Bool := trKind n != 3 && fld n 511 292 == 0

/-- Bytes of the command that a kind names: a TCOPY record, an RXFER record, an RSIG block (log 28: aligned to its size). -/
def trCmdBytes (kind : Nat) : Nat := if kind = 0 then 64 else if kind = 1 then 128 else 32

/-- The operand group and pattern of an RSIG block. -/
def sigPattern (n : Nat) : Nat := fld n 127 0
def sigGroup (n : Nat) : Nat := fld n 255 128

/-- The checks of the command as the instruction it stands for makes them at issue (R320). -/
def trCheck (s : State) (i : Instr) (w : Wave) (kind n : Nat) : Option TrapInfo :=
  match kind with
  | 0 => (s.cohort w.cohort).bind fun c => tcopyCheck i c n
  | 1 => rxferCheck s i (s.waveWorld w) (s.cohort w.cohort) n
  | _ =>
    match checkOp s ((encode i).getD 0) (s.waveWorld w) (sigPattern n) (sigGroup n) { op := 5, e := 1, len := 0, tooLong := false } with
    | .trap t => some (if t.1 = trapIllegalOperand then badRecord i 16 else t)
    | _ => none

/-- A word of the wave that a trigger watches or writes: aligned, translated, not on an IO page. -/
def triggerWord (access va : Nat) (body : Nat → Body) : Body := fun s u w =>
  match checkGlobal s u w access false 8 [(0, va)] with
  | .act a => a
  | .bad a => a
  | .ok accs =>
    match accs with
    | [] => .done s
    | a :: _ => body a.pa s u w

/-- The same for a completion timeline, which 0 leaves out. -/
def triggerCpl (va : Nat) (body : Body) : Body := fun s u w =>
  if va = 0 then body s u w else triggerWord 2 va (fun _ => body) s u w

/-- Handle of a trigger (R320). -/
def triggerHandle (die : Nat) (t : Trigger) : Nat := t.entry + 2 ^ 8 * die + 2 ^ 10 * t.gen

/-- The next generation of a die: 22 bits, never 0. -/
def nextGen (g : Nat) : Nat := if (g + 1) % 2 ^ 22 = 0 then 1 else g + 1

/-- The trigger engine stores a trigger in the lowest free entry; its condition is tested at once (R320, R321). -/
def State.armTrigger (s : State) (u : Nat) (w : Wave) (dest mask n sbPa : Nat) (cmd : List Byte) : State :=
  let die := dieOf w.core
  let d := s.die die
  let entry := freshNumber (d.triggers.map (·.entry))
  if 256 ≤ entry then s.setWave u (w.setS dest 0)
  else
    let timed := bit n 290
    let t : Trigger := {
      entry := entry, gen := d.trigGen, world := s.waveWorld w, asid := s.waveAsid w, disp := s.waveDisp w,
      task := ((s.cohort w.cohort).map (·.task)).getD 0, cohort := w.cohort, core := w.core, mask := mask, sb := trSb n,
      cpl := BitVec.ofNat 64 (trCpl n), sbPa := sbPa, nbt := trNbt n, tol := fld n 287 256, kind := trKind n, timed := timed,
      consume := bit n 291, late := timed && decide (trNbt n ≤ s.ptp), grid := s.grid, fireNo := 0, cmd := cmd, cmdVa := BitVec.ofNat 64 (trCmd n),
      fired := false, unsync := false, time := 0,
      cause := 0, done := false, cmdId := 0 }
    let s := s.setDie die { d with triggers := d.triggers ++ [t], trigGen := nextGen d.trigGen }
    (s.setWave u (w.setS dest (BitVec.ofNat 32 (triggerHandle die t)))).recheckTrigger die t

/-- TRGARM (R320). -/
def execTrgarm (f : EF) (s : State) := runInstr (.trgarm f) (forbiddenInGroup fun s u w =>
  let mask := (w.src64 f.a).toNat
  if mask = 0 then .trap s trapIllegalOperand ((encode (.trgarm f)).getD 0) 48
  else readRecord (.trgarm f) f.b 64 (fun rec_ s u w =>
    let n := leNat rec_
    if !trOk n then
      let t := badRecord (.trgarm f) 36
      .trap s t.1 t.2.1 t.2.2
    else triggerWord (if bit n 291 then 2 else 0) (trSb n) (fun sbPa => triggerCpl (trCpl n)
      (readRecordAt (.trgarm f) f.b.toNat (trCmd n) (trCmdBytes (trKind n)) fun cmd s u w =>
        match trCheck s (.trgarm f) w (trKind n) (leNat cmd) with
        | some (c, i0, i1) => .trap s c i0 i1
        | none => .done (s.armTrigger u w f.d.toNat mask n sbPa cmd))) s u w) s u w) s

/-- TRGCAN (R323). -/
def execTrgcan (f : EF) (s : State) := runInstr (.trgcan f) (forbiddenInGroup fun s u w =>
  let h := (w.src f.a).toNat
  let die := fld h 9 8
  let hit := (s.die die).triggers.find? fun t =>
    t.entry == h % 256 && t.gen == fld h 31 10 && t.world == s.waveWorld w && !t.fired
  match hit with
  | none => .done (s.setWave u (w.setS f.d.toNat 0))
  | some t =>
    let s := s.setWave u (w.setS f.d.toNat 1)
    let s := s.signalTrigger die t (b2n t.late * 2 + 8)
    .done (s.updDie die fun d => { d with triggers := d.triggers.filter fun x => x.entry != t.entry })) s

/-- The command of a fired trigger starts in the name of the arming world (R321). -/
def State.startTrigger (s : State) (die : Nat) (t : Trigger) : State :=
  let n := leNat t.cmd
  let base : CopyCmd := { CopyCmd.blank 0 0 die t.core with
    cohort := t.cohort, trigger := some t.entry, world := t.world, asid := t.asid, disp := t.disp, recVa := t.cmdVa, rec_ := t.cmd }
  let mark := fun (s : State) (id : Nat) => s.updDie die fun d => { d with
    triggers := d.triggers.map fun x => if x.entry == t.entry then { x with cmdId := id } else x }
  match t.kind with
  | 0 =>
    let (id, s) := s.fresh
    let s := mark s id
    { s with sched := { s.sched with copies := s.sched.copies ++ [{ base with id := id }] } }
  | k =>
    let op := { RemoteOp.blank with die := die, trigger := some t.entry, world := t.world, grid := t.grid }
    let s := mark s (s.ids + 1)
    if k = 1 then s.startRxfer op base n
    else
      let p := sigPattern n
      let g := sigGroup n
      (s.startOp { op with pattern := BitVec.ofNat 128 p, window := ogWindow g, kind := 5 } (txOf p g 5 t.world) [(0, [])] ((s.withGrid t.grid).effCard p)).1

/-- TRIGGER_FIRE (R321): a trigger whose condition and time hold, or were found to hold, starts its command. `uncertainty` is
the time servo's, in nanoseconds. -/
def execTriggerFire (die entry uncertainty : Nat) (s : State) : Host.Outcome State Fault Refusal :=
  let get := fun (s : State) => (s.die die).triggers.find? fun t => t.entry == entry
  match get s with
  | none => .next s
  | some t =>
    let s := s.recheckTrigger die t
    match get s with
    | none => .next s
    | some t =>
      if !t.fired ∨ t.done ∨ t.cmdId ≠ 0 then .next s
      else
        let t := { t with unsync := decide (t.tol < uncertainty) }
        let s := s.updDie die fun d => { d with triggers := d.triggers.map fun x => if x.entry == entry then t else x }
        .next (s.startTrigger die t)

/-- TRIGGER_COMPLETE (R322): the status word, then the completion timeline; the entry is free. -/
def execTriggerComplete (die entry : Nat) (s : State) : Host.Outcome State Fault Refusal :=
  match (s.die die).triggers.find? fun t => t.entry == entry with
  | none => .next s
  | some t =>
    if !t.done then .next s
    else
      let s := s.signalTrigger die t (1 + 2 * b2n t.late + 4 * b2n t.unsync + 16 * (t.cause % 16))
      .next (s.updDie die fun d => { d with triggers := d.triggers.filter fun x => x.entry != entry })

end Sys2Proof.Machine
end

