-- ==== Sys2Proof/Machine/TransEvents.lean ====
section
/-! DEFINITION. The steps of the translation services (R33, R35, R36, R39, R40, R44): walks, fault responses, invalidations. -/

namespace Sys2Proof.Machine

/-! ### Walks (R33) -/

/-- Does a walk list hold a request of a wave? -/
def Service.asks (ts : Service) (u : Nat) : Bool :=
  let has := fun (x : Walk) => x.reqs.any fun r => r.1 == u
  ts.walks.any has || ts.missq.any has || ts.refused.any fun x => has x.2

/-- The answer of a walk reaches one requester: a translation enters its core's TLB and its instruction, or a fault is
kept for it. With its last request answered the wave leaves its yield point. -/
def State.answerWalk (s : State) (die : Nat) (r : WalkResult) (q : Nat × Nat × DWord) : State :=
  match s.wave q.1 with
  | none => s
  | some w =>
    let (s, w) := match r with
      | .leaf t => (s.updCore w.core fun c => { c with tlb := cacheAdd (tlbSize w.core) t c.tlb }, { w with xl := t :: w.xl })
      | .fault k l => (s, { w with xfail := { va := q.2.2.toNat, kind := k, access := q.2.1, level := l } :: w.xfail })
      | .firewall => (s, { w with xfail := { va := q.2.2.toNat, kind := 100, access := q.2.1, level := 0 } :: w.xfail })
    let w := s.regroup q.1 w
    let w := if w.wait = .walk ∧ !(s.die die).ts.asks q.1 then { w with wait := .yielded } else w
    s.setWave q.1 w

/-- What the service finds for a walk: an entry that serves every request, else a walk of the tables, which updates the leaf it has
read once for all of them and becomes an entry (R30, R32). -/
def State.walkResult (s : State) (die : Nat) (x : Walk) (va : Nat) : WalkResult × State :=
  let fits := fun (t : Tr) => t.covers x.asid va && x.reqs.all fun r => !t.needsDirty r.2.1
  match (s.die die).ts.entries.find? fits with
  | some t => (.leaf t, s)
  | none =>
    match (walk s die x.asid x.world va).1 with
    | .leaf t =>
      let (s, t) := touchLeaf (s.notePointers die x.asid va) t (x.reqs.any fun r => isWrite r.2.1 && (permFault t r.2.1 true).isNone)
      (.leaf t, s.updTs die fun ts => { ts with entries := cacheAdd 32768 t ts.entries })
    | r => (r, s)

/-- TRANSLATION_WALK_COMPLETE (R33): every joined request is answered; the walker takes the next waiting request. -/
def execTranslationWalkComplete (die walk : Nat) (s : State) : Host.Outcome State Fault Refusal :=
  match (s.die die).ts.walks.find? fun x => x.id == walk with
  | none => .next s
  | some x =>
    let va := ((x.reqs.head?).map fun r => r.2.2.toNat).getD 0
    let (r, s) := s.walkResult die x va
    let s := s.updTs die fun ts => { ts with
      walks := (ts.walks.filter fun y => y.id != walk) ++ ts.missq.take 1, missq := ts.missq.drop 1 }
    .next (x.reqs.foldl (fun s q => s.answerWalk die r q) s)

/-- TLB_REQUEST_REISSUE (R33): a refused request is made again after 64 clocks. -/
def execTlbRequestReissue (die request : Nat) (s : State) : Host.Outcome State Fault Refusal :=
  match (s.die die).ts.refused.find? fun x => x.2.id == request with
  | none => .next s
  | some x =>
    if s.clock < x.1 then .next s
    else
      let s := s.updTs die fun ts => { ts with refused := ts.refused.filter fun y => y.2.id != request }
      .next (x.2.reqs.foldl (fun s q => match s.wave q.1 with
        | some w => requestWalk s q.1 w q.2.1 q.2.2.toNat
        | none => s) s)

/-! ### Fault records and responses (R38 to R41) -/

/-- Does an agent that waits for a record still wait? -/
def State.agentWaits (s : State) (die : Nat) (a : Agent) : Bool :=
  match a with
  | .wave u _ => ((s.wave u).map fun w => decide (w.wait = .faultQueue die)).getD false
  | .copy c => (s.copyCmd c).isSome
  | .channel d ch drain => ((s.chain d ch drain).map (·.parked)).getD false
  | .staging c => s.sched.staging.any fun x => x.id == c

/-- FAULT_RECORD_DEFERRED (R39): the fault that has waited longest joins a token or is recorded. -/
def execFaultRecordDeferred (die : Nat) (s : State) : Host.Outcome State Fault Refusal :=
  let ts := (s.die die).ts
  match ts.waiting with
  | [] => .next s
  | (f, asid, a) :: rest =>
    let drop := s.updTs die fun ts => { ts with waiting := rest }
    if !s.agentWaits die a then .next drop
    else match ts.tokens.find? fun t => t.asid == asid && t.page == fld f.va 56 16 && t.access == f.access with
    | some t => .next (parkAgent (drop.updTs die fun ts => { ts with
        tokens := updFirst (fun x => x.num == t.num) (fun x => { x with agents := x.agents ++ [a] }) ts.tokens }) die (some t.num) a)
    | none => if recordRoom ts then .next (writeFaultRecord drop die f asid a) else .next s

/-- A token that is outstanding, and the state without it; another token sets BADRESP (R40). -/
def State.popToken (s : State) (die token : Nat) : Option (Token × State) :=
  ((s.die die).ts.tokens.find? fun t => t.num == token).map fun t =>
    (t, s.updTs die fun ts => { ts with tokens := ts.tokens.filter fun x => x.num != token })
def State.badResponse (s : State) (die : Nat) : State := s.updTs die fun ts => { ts with badresp := true }

/-- Is a wave parked on a token? -/
def Wave.parkedOn (w : Wave) (die token : Nat) : Bool := decide (w.wait = .fault die token)

/-- Changes the chain of a channel. -/
def State.updChain (s : State) (die ch : Nat) (drain : Bool) (f : Chain → Chain) : State :=
  s.updDie die fun d =>
    let c := mapGet Channel.reset d.channels ch
    let c := if drain then { c with drain := c.drain.map f } else { c with host := c.host.map f }
    { d with channels := mapPut Channel.reset d.channels ch c }

/-- Lets an agent go on (R40): a wave translates afresh, an engine replays its access. -/
def State.retryAgent (s : State) (die token : Nat) (a : Agent) : State :=
  match a with
  | .wave u _ => s.updWave u fun w =>
      if w.parkedOn die token then { w with wait := .yielded, pend := none, xl := [], xfail := [] } else w
  | .copy c => s.updCopy c fun x => { x with parked := false, stopped := none }
  | .channel d ch drain => s.updChain d ch drain fun k => { k with parked := false }
  | .staging c => { s with sched := { s.sched with staging := s.sched.staging.map fun x =>
      if x.id == c then { x with parked := false } else x } }

/-- A failed staging copy (R42): its lines that have not landed stay EMPTY and pending, and are marked with the trap. -/
def State.failStaging (s : State) (c : Nat) (f : TrFault) : State :=
  match s.sched.staging.find? fun x => x.id == c with
  | none => s
  | some x =>
    let s := { s with sched := { s.sched with staging := s.sched.staging.filter fun y => y.id != c } }
    match x.cohort with
    | none => s
    | some k => s.updCohort k fun k =>
      let lines := (linesOf x.soff x.len).filter fun l => k.stagePend.contains l && k.empty.contains l
      { k with failed := lines.foldl (fun m l => mapInsert m l f) k.failed }

/-- Fails an agent with its fault (R40): a wave takes the trap, an engine command completes with an error, an RXFER as to what it has not
sent (R314). -/
def State.trapAgent (s : State) (die token : Nat) (f : TrFault) (a : Agent) : State :=
  match a with
  | .wave u _ =>
    match s.wave u with
    | some w => match w.pend with
      | some p => if w.parkedOn die token then s.takeTrap u p else s
      | none => s
    | none => s
  | .copy c =>
    match s.copyCmd c with
    | none => s
    | some x =>
      let e := x.stopped.getD (kindTrap f.kind, f.va)
      if !x.parked then s
      else if x.kind = 3 then s.rxferFails x (sourceCause e.1)
      else s.finishCopy x (some (e.1, BitVec.ofNat 64 e.2))
  | .channel d ch drain => s.updChain d ch drain fun k => { k with parked := false, trapped := true }
  | .staging c => s.failStaging c f

/-- The dispatch of an agent, resident or saved (R40). -/
def State.agentDispatch (s : State) (a : Agent) : Option Nat :=
  match a with
  | .wave u _ => (s.anyWave u).map fun w => ((s.sched.tasks.find? fun t =>
      (s.cohort w.cohort).any (fun c => c.task == t.id) || t.saved.any fun x => x.id == w.cohort).map (·.disp)).getD 0
  | .copy c => (s.copyCmd c).map (·.disp)
  | .channel _ _ _ => none
  | .staging c => ((s.sched.staging.find? fun x => x.id == c).bind fun x => s.task x.task).map (·.disp)

/-- FAULT_RETRY (R40). -/
def execFaultRetry (die token : Nat) (s : State) : Host.Outcome State Fault Refusal :=
  match s.popToken die token with
  | none => .next (s.badResponse die)
  | some (t, s) => .next (t.agents.foldl (fun s a => s.retryAgent die token a) s)

/-- FAULT_TRAP (R40). -/
def execFaultTrap (die token : Nat) (s : State) : Host.Outcome State Fault Refusal :=
  match s.popToken die token with
  | none => .next (s.badResponse die)
  | some (t, s) => .next (t.agents.foldl (fun s a => s.trapAgent die token t.fault a) s)

/-- Is an agent still parked on a token: a wave may have been saved and gone on since (R41)? -/
def State.stillParked (s : State) (die token : Nat) (a : Agent) : Bool :=
  match a with
  | .wave u _ => (s.anyWave u).any fun w => w.parkedOn die token
  | .copy c => (s.copyCmd c).any (·.parked)
  | .channel d ch drain => (s.chain d ch drain).any (·.parked)
  | .staging c => s.sched.staging.any fun x => x.id == c && x.parked

/-- FAULT_KILL (R40): the dispatches of the parked agents are terminated. An engine command also stops with an error (R274, R314, R321),
and an agent without a dispatch fails as under TRAP. -/
def execFaultKill (die token : Nat) (s : State) : Host.Outcome State Fault Refusal :=
  match s.popToken die token with
  | none => .next (s.badResponse die)
  | some (t, s) =>
    let agents := t.agents.filter fun a => s.stillParked die token a
    let disps := (agents.filterMap s.agentDispatch).eraseDups
    let fails := fun (a : Agent) => match a with
      | .copy _ => true
      | a => (s.agentDispatch a).isNone
    let s := (agents.filter fails).foldl (fun s a => s.trapAgent die token t.fault a) s
    .next (disps.foldl (fun s d => s.killDispatch d) s)

/-! ### Invalidations (R35, R36, R44) -/

/-- Does an invalidation cover a page of an address space? `large` pages are met by any part of them. -/
def Inval.covers (i : Inval) (asid page : Nat) (large : Bool) : Bool :=
  i.all || (i.asid == asid && (!i.range ||
    (if large then decide (page / 8192 * 8192 < i.page + max 1 i.count ∧ i.page < page / 8192 * 8192 + 8192)
     else decide (i.page ≤ page ∧ page < i.page + max 1 i.count))))

/-- The requests of an FLOAD that an invalidation drops with their translation: those that wait at their slices or have been refused
(R36, R84). -/
def Late.dropped (l : Late) (i : Inval) : Late :=
  if l.kind ≠ .future then l else
  let page := fun (a : LaneAcc) => fld a.va 56 16
  let hit := l.lanes.filter fun a => !(l.vals.any fun v => v.1 == a.lane) && i.covers l.asid (page a) (l.large.contains (page a))
  { l with stale := (hit.map (·.lane)).foldl (fun m x => insNat x m) l.stale }

/-- A wave whose translations an invalidation drops: it translates afresh what it waits for at a slice, and a commit group that
holds stores by physical address is doomed (log 29). -/
def Wave.invalidated (w : Wave) (i : Inval) : Wave :=
  let w := { w with xl := w.xl.filter fun t => !i.covers t.asid t.page t.large, late := w.late.map fun (l : Late) => l.dropped i }
  let w := if w.group.isSome then w.doom 3 else w
  match w.wait with
  | .memTimeline _ _ => { w with wait := .yielded }
  | .scoreboard _ _ _ => { w with wait := .yielded }
  | _ => w

/-- Does an invalidation cover a dependency range or a code page of a region (R367)? -/
def Inval.coversRegion (i : Inval) (r : Region) : Bool :=
  let meets := fun (va n : Nat) => decide (fld va 56 16 < i.page + max 1 i.count ∧ i.page ≤ fld (va + n - 1) 56 16)
  i.all || (r.key.asid == i.asid && (!i.range || (r.depVa.any fun d => meets d.1 d.2) || r.codeVa.any fun v => meets v 65536))

/-- An armed trigger whose word's translation an invalidation drops is translated again; one whose word no longer translates is cancelled
with cause 2 (R36; log 79). -/
def State.rearm (s : State) (die : Nat) (t : Trigger) : State :=
  match engineXlate s die t.asid t.world (.world t.world) t.sb (if t.consume then 2 else 0) with
  | .ok pa _ s =>
    let t := { t with sbPa := pa }
    (s.updDie die fun d => { d with triggers := updFirst (fun x => x.entry == t.entry) (fun _ => t) d.triggers }).recheckTrigger die t
  | r =>
    let s := r.after.signalTrigger die t (2 * b2n t.late + 8 + 16 * 2)
    s.updDie die fun d => { d with triggers := d.triggers.filter fun x => x.entry != t.entry }

/-- An invalidation begins on a die: what it covers leaves the TLBs, the service and the walk cache; a walk in flight restarts
(it reads the tables when it completes); regions that rest on it are invalidated. -/
def State.beginInval (s : State) (die : Nat) (i : Inval) : State :=
  let keep := fun (t : Tr) => !i.covers t.asid t.page t.large
  let s := s.updTs die fun ts => { ts with
    entries := ts.entries.filter keep, pointers := ts.pointers.filter fun p => !(i.all || p.1 == i.asid) }
  let s := ((s.cores.map (·.1)).filter fun c => dieOf c == die).foldl (fun s c => s.updCore c fun k => { k with tlb := k.tlb.filter keep }) s
  let s := s.invalidateRegionsOn (· == die) i.coversRegion
  let mine := fun (w : Wave) => dieOf w.core == die && (i.all || s.waveAsid w == i.asid)
  let s : State := { s with waves := s.waves.map fun x => if mine x.2 then (x.1, x.2.invalidated i) else x }
  let hit := (s.die die).triggers.filter fun t =>
    !t.fired && (i.covers t.asid (fld t.sb 56 16) false || i.covers t.asid (fld t.sb 56 16) true)
  hit.foldl (fun s t => s.rearm die t) s

/-- Queues an invalidation on dies; it begins where none is in progress. -/
def State.addInval (s : State) (dies : List Nat) (i : Inval) : State :=
  dies.foldl (fun s d =>
    let idle := (s.die d).ts.invals.isEmpty
    let s := s.updTs d fun ts => { ts with invals := ts.invals ++ [i] }
    if idle then s.beginInval d i else s) s

/-- The dies that an invalidation acts on. -/
def invalDies (die : Nat) (pkg : Bool) : List Nat := if pkg then [0, 1, 2, 3] else [die]

/-- The queue of TSINVCMD holds 16 commands behind the one in progress; a further write stalls (R44). -/
def State.invalRoom (s : State) (dies : List Nat) : Bool := dies.all fun d => decide ((s.die d).ts.invals.length < 17)

/-- A write to TSINVCMD. -/
def State.writeInval (s : State) (die : Nat) (pkg : Bool) (i : Inval) : Host.Outcome State Fault Refusal :=
  let dies := invalDies die pkg
  if !s.invalRoom dies then .next s
  else
    let (id, s) := s.fresh
    .next (s.addInval dies { i with id := id })

/-- INVALIDATE_ASID (R35). -/
def execInvalidateAsid (die asid : Nat) (pkg : Bool) (s : State) : Host.Outcome State Fault Refusal :=
  s.writeInval die pkg { id := 0, asid := asid, all := false, pkg := pkg, range := false, page := 0, count := 0 }
/-- INVALIDATE_RANGE (R35). -/
def execInvalidateRange (die asid va count : Nat) (pkg : Bool) (s : State) : Host.Outcome State Fault Refusal :=
  s.writeInval die pkg { id := 0, asid := asid, all := false, pkg := pkg, range := true, page := fld va 56 16, count := count }
/-- INVALIDATE_ALL (R35). -/
def execInvalidateAll (die : Nat) (pkg : Bool) (s : State) : Host.Outcome State Fault Refusal :=
  s.writeInval die pkg { id := 0, asid := 0, all := true, pkg := pkg, range := false, page := 0, count := 0 }

/-- Accesses in flight on a die whose translation an invalidation drops: stores that have not drained or wait for an entry, loads that have
not returned. -/
def State.invalBusy (s : State) (die : Nat) (i : Inval) : Bool :=
  (s.cores.any fun c => dieOf c.1 == die && c.2.sb.any fun e => i.covers e.asid e.page e.large) ||
  (s.waves.any fun x => dieOf x.2.core == die && x.2.entering.any fun e => i.covers e.asid e.page e.large) ||
  (s.waves.any fun x => dieOf x.2.core == die && x.2.late.any fun l =>
    decide (l.kind = .global) && decide (l.vals.length < l.lanes.length) && l.pages.any fun p => i.covers l.asid p (l.large.contains p))

/-- The invalidation at the head of a die's queue is done, and the one behind it begins. -/
def State.nextInval (s : State) (die : Nat) : State :=
  let rest := (s.die die).ts.invals.drop 1
  let s := s.updTs die fun ts => { ts with invals := rest }
  match rest with
  | [] => s
  | j :: _ => s.beginInval die j

/-- An invalidation is done on a die, or does not act there. -/
def State.invalDone (s : State) (die : Nat) (i : Inval) : Bool :=
  match (s.die die).ts.invals with
  | [] => true
  | j :: rest => if j.id = i.id then !s.invalBusy die i else !rest.any fun x => x.id == i.id

/-- INVALIDATION_COMPLETE (R36): one that acts on all dies is complete on all of them or on none. The waves that wait for it go on, and on
each die the next one begins (R44). -/
def execInvalidationComplete (die : Nat) (s : State) : Host.Outcome State Fault Refusal :=
  match (s.die die).ts.invals with
  | [] => .next s
  | i :: _ =>
    let dies := if i.pkg then [0, 1, 2, 3].filter fun d => (s.die d).ts.invals.any fun j => j.id == i.id else [die]
    if !dies.all fun d => s.invalDone d i then .next s
    else
      let s := dies.foldl State.nextInval s
      .next { s with waves := s.waves.map fun x =>
        if x.2.wait = .invalidation i.id then (x.1, { x.2 with wait := .yielded }) else x }

end Sys2Proof.Machine
end

