-- ==== Sys2Proof/Machine/System.lean ====
section
/-! DEFINITION. System instructions and the service queue (R326 to R330, R378 to R383). -/

namespace Sys2Proof.Machine

/-! ### SETS (R326) -/

/-- Is a value acceptable for GRIDSHAPE (R100)? -/
def gridShapeOk (v : Nat) : Bool :=
  decide (1 ≤ gridAxes v ∧ gridAxes v ≤ 5) && fld v 7 3 == 0 && fld v 63 58 == 0 &&
  ((List.range 5).all fun j => decide (j < gridAxes v) || fld v (10 * j + 17) (10 * j + 8) == 0) &&
  decide (((List.range 5).foldl (fun n j => n * gridSize v j) 1) ≤ 1024)

/-- Is a value acceptable for GRIDPOS under a shape (R100)? -/
def gridPosOk (shape v : Nat) : Bool :=
  (List.range 5).all fun j => decide (gridCoord v j < if j < gridAxes shape then gridSize shape j else 1)

/-- No remote operation issued before number `upTo` is outstanding, nor one carried by a trigger that fired before then (R100). -/
def State.gridQuiet (s : State) (upTo : Nat) : Bool :=
  (s.fabric.ops.all fun o => decide (upTo < o.id)) &&
  s.dies.all fun d => d.2.triggers.all fun t => !t.fired || t.kind == 0 || t.done || decide (upTo ≤ t.fireNo)

/-- A SETS of GRIDSHAPE or GRIDPOS: it waits for what was issued before it; then armed RXFER and RSIG triggers are cancelled
(R100, R323). -/
def setGrid (ok : State → Bool) (illegal : State → Act) (put : State → State) : Body := fun s u w =>
  if !ok s then illegal s
  else
    let w := if w.prog.stage = 1 then w else { w with prog := { w.prog with stage := 1, x := s.ids + 1 } }
    let s := { s with ids := max s.ids w.prog.x }
    if !s.gridQuiet w.prog.x then .wait (s.setWave u w) (.gridWrite w.prog.x)
    else .done ((put (s.setWave u w)).cancelTriggers fun t => t.kind != 0)

/-- DBGCTL after a SETS (R383): zeros and BPADDR at once, ones at the next ERET or resume. -/
def Traps.writeDebug (t : Traps) (v : DWord) : Traps :=
  { t with dbgctl := (v &&& ~~~7#64) ||| (t.dbgctl &&& v &&& 7#64), dbgNext := v &&& 7#64 &&& ~~~t.dbgctl }

/-- SETS (R326) under each register's own rules (R100, R121, R183, R185, R211, R382). -/
def execSets (f : EF) (s : State) := runInstr (.sets f) (fun s u w =>
  let idx := ctlBits f 7 0
  let v := if specialRegs idx = 2 then w.src64 f.a else (w.src f.a).zeroExtend 64
  let n := v.toNat
  let illegal := fun (s : State) => Act.trap s trapIllegalOperand ((encode (.sets f)).getD 0) 48
  let put := fun (w : Wave) => Act.done (s.setWave u w)
  let traps := fun (t : Traps) => put { w with tr := t }
  match idx with
  | 9 => setGrid (fun s => gridPosOk s.shape n) illegal (fun s => s.updFabric fun f => { f with pos := BitVec.ofNat 64 (fld n 49 0) }) s u w
  | 10 => setGrid (fun _ => gridShapeOk n) illegal (fun s => s.updFabric fun f => { f with shape := v }) s u w
  | 13 => if 5 < n % 8 ∨ bit n 3 ∨ fld n 63 5 ≠ 0 then illegal s
    else put { w with sp := { w.sp with fprm := n % 8, fpstat := if bit n 4 then 0 else w.sp.fpstat } }
  | 14 => put { w with sp := { w.sp with rngSeed := v, gens := [] } }
  | 18 => if n % 64 ≠ 0 then illegal s else put { w with sp := { w.sp with apxtab := BitVec.ofNat 64 (fld n 56 0) } }
  | 20 => put { w with sp := { w.sp with remerr := 0 } }
  | 21 => put { w with sp := { w.sp with remtrap := v &&& 1 } }
  | 22 => if n % 8 ≠ 0 then illegal s else traps { w.tr with tba := v }
  | 23 => traps { w.tr with tpc := v }
  | 24 => traps { w.tr with tcause := v &&& 0x7FF }
  | 25 => traps { w.tr with tinfo0 := v }
  | 26 => traps { w.tr with tinfo1 := v }
  | _ => traps (w.tr.writeDebug v)) s

/-! ### ERET (R327, R381) -/

/-- ERET: back to TPC. A TPC that the handler has written must be a clause header. -/
def execEret (f : EF) (s : State) := runInstr (.eret f) (fun s u w =>
  if w.tr.tpc == w.tr.tpcEntry then .resumed (s.setWave u w.eret)
  else match transfer (fun w => w.tr.tpc) (fun _ => true) Wave.eret s u w with
  | .jump s _ => .resumed s
  | a => a) s

/-! ### SYSCALL and the service queue (R328, R329) -/

/-- A service record (R328). -/
def serviceRecord (s : State) (w : Wave) (code arg token : Nat) (phase : Bool) : Nat :=
  code % 2 ^ 32 + 2 ^ 32 * (arg % 2 ^ 64) + 2 ^ 96 * (s.waveDisp w % 2 ^ 32) + 2 ^ 128 * (coreIdOf w.core % 256) +
  2 ^ 136 * (w.slot % 32) + 2 ^ 144 * (s.waveWorld w % 256) + 2 ^ 224 * (token % 2 ^ 16) + 2 ^ 255 * b2n phase

/-- Writes the record of a SYSCALL at HEAD under a new token; the wave waits for its answer. -/
def State.writeService (s : State) (die u : Nat) (code arg : Nat) : State :=
  match s.wave u with
  | none => s
  | some w =>
    let q := (s.die die).svc
    let num := freshNumber (q.tokens.map (·.1))
    let s := s.writeHome (queueAddr q.base q.head) (natLe 32 (serviceRecord s w code arg num q.phase))
    let (head, phase) := queueAdvance q.base q.head q.phase
    let s := s.updDie die fun d => { d with svc := { d.svc with head := head, phase := phase, count := d.svc.count + 1, tokens := d.svc.tokens ++ [(num, u)] } }
    s.updWave u fun w => { w with wait := .service die num, waitSince := s.clock, prog := { Progress.none with stage := 1, x := num } }

/-- SYSCALL (R328): the target is checked as a transfer's is; stage 1 waits for the answer to token `prog.x`, stage 2 has it in
`prog.y`. -/
def execSyscall (f : EF) (s : State) := runInstr (.syscall f) (fun s u w =>
  let die := dieOf w.core
  if w.prog.stage = 2 then .jump (s.setWave u (w.setS64 f.d.toNat (BitVec.ofNat 64 w.prog.y))) (w.pc + 8)
  else if w.prog.stage = 1 then .wait s (.service die w.prog.x)
  else match transfer (fun w => w.pc + 8) (fun _ => true) id s u w with
  | .jump s _ =>
    let code := (w.src f.a).toNat
    let arg := (w.src64 f.b).toNat
    let q := (s.die die).svc
    if q.waiting.isEmpty && !queueFull q.base q.count then
      let s := s.writeService die u code arg
      match s.wave u with
      | some w => .wait s w.wait
      | none => .gone s
    else
      let s := s.updDie die fun d => { d with svc := { d.svc with waiting := d.svc.waiting.filter (· != u) ++ [u] } }
      .wait (s.setWave u { w with prog := { Progress.none with data := [(0, code), (1, arg)] } }) (.serviceQueue die)
  | a => a) s

/-- SERVICE_RECORD_DEFERRED (R329): the SYSCALL that has waited longest writes its record once the queue has room. -/
def execServiceRecordDeferred (die : Nat) (s : State) : Host.Outcome State Fault Refusal :=
  let q := (s.die die).svc
  match q.waiting with
  | [] => .next s
  | u :: rest =>
    let drop := s.updDie die fun d => { d with svc := { d.svc with waiting := rest } }
    match s.wave u with
    | none => .next drop
    | some w =>
      if w.wait ≠ .serviceQueue die then .next drop
      else if queueFull q.base q.count then .next s
      else .next (drop.writeService die u ((mapFind w.prog.data 0).getD 0) ((mapFind w.prog.data 1).getD 0))

/-- SERVICE_RESPONSE (R329): the wave of the token, resident or saved, takes SVCRES as its result. -/
def execServiceResponse (die token : Nat) (s : State) : Host.Outcome State Fault Refusal :=
  match (s.die die).svc.tokens.find? fun t => t.1 == token with
  | none => .next s
  | some t =>
    let v := (s.die die).svcres.toNat
    let s := s.updDie die fun d => { d with svc := { d.svc with tokens := d.svc.tokens.filter fun x => x.1 != token } }
    .next (s.updAnyWave t.2 fun w =>
      if w.prog.stage = 1 then { w with
        wait := if w.wait = .service die token then .yielded else w.wait, prog := { w.prog with stage := 2, y := v } }
      else w)

/-! ### TLBINV (R330) -/

/-- TLBINV: the wave waits until its own invalidation has completed on every die it acts on. -/
def execTlbinv (f : EF) (s : State) := runInstr (.tlbinv f) (fun s u w =>
  let c := ctlBits f 14 0
  let inProgress := fun (id : Nat) => [0, 1, 2, 3].any fun d => (s.die d).ts.invals.any fun i => i.id == id
  if w.prog.stage = 1 then (if inProgress w.prog.x then .wait s (.invalidation w.prog.x) else .done s)
  else
    let (id, s) := s.fresh
    let all := bit c 12
    let i : Inval := { id := id, asid := fld c 11 0, all := all, pkg := bit c 13, range := bit c 14 && !all,
                       page := fld (w.src64 f.a).toNat 56 16, count := (w.src f.b).toNat }
    let s := s.setWave u { w with prog := { w.prog with stage := 1, x := id } }
    .wait (s.addInval (invalDies (dieOf w.core) (bit c 13)) i) (.invalidation id)) s

end Sys2Proof.Machine
end

