-- ==== Sys2Proof/Machine/CoreEvents.lean ====
section
/-! DEFINITION. The steps of cores that no instruction names (R50 to R52, R130, R131, R165, R167, R169, R242): waits that end,
late results that land, store-buffer entries that drain, L1 sectors that expire. -/

namespace Sys2Proof.Machine

/-! ### Waits (R167) -/

/-- Every late result that an access of class R has outstanding has returned. -/
def Wave.readsBack (w : Wave) : Bool := w.late.all fun l => !l.reads

/-- The wave's store-buffer entries have drained, or can drain now. -/
def State.drainable (s : State) (core u : Nat) : Bool := (s.core core).sb.all fun e => e.wave != u || s.canDrain e

/-- The fitting engine of a wave's die has consumed every sample that the wave sent, with all that they cause (R356, R372): none is queued,
and no full batch of the wave's region, whose id and table `prog` holds, waits for a training slot. -/
def State.samplesDone (s : State) (u : Nat) (w : Wave) : Bool :=
  let f := (s.die (dieOf w.core)).fit
  (f.samples.all fun x => x.wave != u) &&
  !f.regions.any fun r => r.key == { world := s.waveWorld w, asid := s.waveAsid w, tab := w.prog.y, id := w.prog.x } &&
    decide (32 ≤ r.batch.length) && (r.st == rgTrain || r.st == rgFallback)

/-- Has the condition cleared for which a wave stands at a yield point? Waits that another step ends are false here. A wave
whose condition is examined by its instruction (`cow`, `retry`) examines it again. -/
def State.waitOver (s : State) (u : Nat) (w : Wave) : Bool :=
  match w.wait with
  | .yielded => true
  | .nap t | .surrogate t => decide (t ≤ s.clock)
  | .late => w.late.isEmpty
  | .storeBuffer => decide (sbCount (s.core w.core).sb < sbSize w.core) || (s.core w.core).sb.any s.canDrain
  | .fence pred _ scope =>
    (!bit pred 0 || w.readsBack) && (!bit pred 1 || scope == 0 || (s.drainable w.core u && s.marked u w.cohort)) && (!bit pred 2 || s.remoteDone u)
  | .timeline e n => decide (n ≤ (w.tl e).value)
  | .fifoFull f => (s.cohort w.cohort).all fun c => (c.fifo f).all fun x => decide (x.entries.length < x.depth)
  | .fifoEmpty f => (s.cohort w.cohort).all fun c => (c.fifo f).all fun x => !x.entries.isEmpty
  | .scratchLine ls => (s.cohort w.cohort).all fun c =>
      ls.all (fun l => !c.empty.contains l) || ls.any fun l => (mapFind c.failed l).isSome
  | .gridWrite upTo => s.gridQuiet upTo
  | .remote op => s.fabric.ops.all fun o => o.id != op
  | .lockstep => s.samplesDone u w
  | .cow | .retry => true
  | _ => false

/-- WAVE_READY (R167): the wave becomes ready when its condition has cleared. The slice makes its read again for a wave that
waits on a word in memory. -/
def execWaveReady (wave : Nat) (s : State) : Host.Outcome State Fault Refusal :=
  let s := s.recheckWave wave
  match s.wave wave with
  | none => .next s
  | some w => .next (if s.waitOver wave w then s.setWave wave { w with wait := .ready } else s)

/-- NAP_EXPIRY (R242). -/
def execNapExpiry (wave : Nat) (s : State) : Host.Outcome State Fault Refusal :=
  match s.wave wave with
  | none => .next s
  | some w => match w.wait with
    | .nap t => .next (if t ≤ s.clock then s.setWave wave { w with wait := .ready } else s)
    | _ => .next s

/-! ### Late results (R169) -/

/-- The L1 sector that a lane hits: of the wave's world, filled less than 8,000 clocks ago (R50, R131). -/
def State.l1Hit (s : State) (core world sector : Nat) : Option L1Sector :=
  (s.core core).l1.find? fun x => x.sector == sector && x.world == world && decide (s.clock < x.filled + 8000)

/-- The core still holds store-buffer entries that a lane met as it issued (R52). -/
def State.behindEntries (s : State) (core : Nat) (a : LaneAcc) : Bool := (s.core core).sb.any fun e => a.after.contains e.id

/-- Performs one lane of a late load of global memory (R52, R130): in the L1, or at its home slice, where the firewall and the error
code check it and from which the sector is installed, unless an acquire came between (R53). A lane that must wait stays unread. -/
def State.readLane (s : State) (u seq : Nat) (a : LaneAcc) : State :=
  match s.wave u with
  | none => s
  | some w =>
    match w.late.find? fun l => l.seq == seq with
    | none => s
    | some l =>
      let e := sizeBytes l.size
      let sector := a.addr / 16
      let put := fun (s : State) (bs : List Byte) => s.setWave u (w.noteFload seq fun l => { l with
        vals := l.vals ++ [(a.lane, extendLoad l.size (leNat (overlay bs a.own)))] })
      if w.earlierRead seq sector || s.behindEntries w.core a then s
      else match (if a.nocache then none else s.l1Hit w.core (s.waveWorld w) sector) with
      | some x => put s ((x.bytes.drop (a.addr % 16)).take e)
      | none =>
        if s.readHeld (if a.nocache then a.addr else sector * 16) (if a.nocache then e else 16) (some u) then s
        else if !s.admits (s.waveWho w) a.addr then
          s.setWave u (w.failLate l (trapFirewall, BitVec.ofNat 64 a.va, laneInfo a.lane))
        else if s.poisoned a.addr e then s.setWave u (w.failLate l (l.poisonInfo a.lane))
        else
          let bs := s.bytes a.addr e
          let fill := !a.nocache && l.epoch == (s.core w.core).acquires && !s.poisoned (sector * 16) 16
          put (if fill then s.fillL1 w.core (s.waveWorld w) sector else s) bs

/-- Is a scratch address on the half that the wave's own core holds (R54)? -/
def Wave.ownHalf (w : Wave) (c : Cohort) (a : Nat) : Bool := !c.paired || decide (a / max 1 c.halfSize = w.half c)

/-- Must scratch load `l` follow scratch load `x` of the wave (R135): both reach the own half, or they read a byte in common? -/
def Wave.scratchFollows (w : Wave) (c : Cohort) (x l : Late) : Bool :=
  (x.lanes.any (fun a => w.ownHalf c a.addr) && l.lanes.any fun a => w.ownHalf c a.addr) ||
    x.lanes.any fun a => l.lanes.any fun b => overlaps a.addr (sizeBytes x.size) b.addr (sizeBytes l.size)

/-- Performs a pending scratch load (R60): after the wave's earlier scratch loads that it must follow, in the clock in which every line it
touches is FULL, all lanes at once. A range that has become a FIFO's (R63), a line that staging has failed (R42) or a poisoned word (R301)
is found here if it was not there at issue. What it reads has been performed for every agent. -/
def State.readScratch (s : State) (u seq : Nat) : State :=
  match s.wave u with
  | none => s
  | some w =>
    match w.late.find? fun l => l.seq == seq, s.cohort w.cohort with
    | some l, some c =>
      let e := sizeBytes l.size
      if !l.vals.isEmpty || w.late.any fun x => x.kind == .scratch && decide (x.seq < seq) && x.vals.isEmpty && w.scratchFollows c x l then s
      else match l.lanes.find? fun a => !c.scratchOk a.addr e with
      | some a => s.setWave u (w.trapLate l (trapScratchRange, BitVec.ofNat 64 a.va, laneInfo a.lane))
      | none =>
      match l.lanes.findSome? fun a => (mapFind c.failed (a.addr / 128)).map fun t => (a.lane, t) with
      | some (lane, t) => s.setWave u (w.failLate l (failedTrap t lane))
      | none =>
        if l.lanes.any fun a => c.empty.contains (a.addr / 128) then s
        else match l.lanes.find? fun a => c.scratchSpoiled a.addr e with
        | some a => s.setWave u (w.failLate l (l.poisonInfo a.lane))
        | none => (s.setCohort w.cohort (l.lanes.foldl (fun c a => c.seen (some u) a.addr e) c)).setWave u (w.noteFload seq fun l => { l with
            vals := l.lanes.map fun a => (a.lane, extendLoad l.size (c.scratchRead a.addr e)) })
    | _, _ => s

/-- Lanes of a late load to perform together: those named (all, when none is named), and those that share a sector with one of
them, since lanes that read the same byte receive the same value (R132). -/
def Late.lanesWith (l : Late) (lanes : List Nat) : List LaneAcc :=
  let left := l.lanes.filter fun a => !l.vals.any fun v => v.1 == a.lane
  let named := left.filter fun a => lanes.isEmpty || lanes.contains a.lane
  left.filter fun a => named.any fun b => b.addr / 16 == a.addr / 16

/-- Frees a wave's keeper entry once no remote load of it is unanswered (R392). -/
def State.freeKeeper (s : State) (u : Nat) : State :=
  match s.wave u with
  | none => s
  | some w =>
    match w.keeper with
    | none => s
    | some k =>
      let open_ := w.late.any fun l => match l.kind with
        | .remote _ => l.vals.isEmpty
        | _ => false
      if open_ then s
      else (s.updDie (k / 1024) fun d => { d with keeper := d.keeper.filter fun e => e.1 != k % 1024 }).setWave u { w with keeper := none }

/-- Every lane of a late result has its value; an FLOAD's values pass no word that the freeze is about to hold (R95). -/
def State.answered (s : State) (l : Late) : Bool :=
  (if l.lanes.isEmpty then !l.vals.isEmpty else l.lanes.all fun a => l.vals.any fun v => v.1 == a.lane) &&
    !(l.kind == .future && l.lanes.any fun a => s.timelineHeld a.addr (sizeBytes l.size))

/-- The acquire of an FLOAD as it lands (R150); with earlier reads pending, later accesses wait for these and the L1 is invalidated again
when they have landed. -/
def State.floadAcquire (s : State) (u seq : Nat) : State :=
  match s.wave u with
  | none => s
  | some w =>
    if w.late.any fun l => l.reads && decide (l.seq < seq) then (s.setWave u { w with joined := true, acquires := true }).acquire w.core
    else s.acquire w.core

/-- Lanes of a late result are performed, and it lands if all of them have been answered (R169). -/
def State.landLate (s : State) (wave seq : Nat) (lanes : List Nat) : State :=
  match (s.wave wave).bind fun w => w.late.find? fun l => l.seq == seq with
  | none => s
  | some l =>
    let s : State := match l.kind with
      | .global => (l.lanesWith lanes).foldl (fun s a => s.readLane wave seq a) s
      | .scratch => s.readScratch wave seq
      | _ => s
    match (s.wave wave).bind fun w => (w.late.find? fun l => l.seq == seq).map fun l => (w, l) with
    | none => s.afterLanding wave
    | some (w, l) =>
      if !s.answered l then s
      else
        let s := s.setWave wave (w.landLate l)
        ((if l.kind = .future then s.floadAcquire wave seq else s).freeKeeper wave).afterLanding wave

/-- LATE_RESULT_LAND (R169): lanes of a load are performed, and a result whose lanes have all been answered lands. An FLOAD then
acquires (R150). -/
def execLateResultLand (wave seq : Nat) (lanes : List Nat) (s : State) : Host.Outcome State Fault Refusal := .next (s.landLate wave seq lanes)

/-! ### Store buffers and the L1 -/

/-- STORE_BUFFER_DRAIN (R51): an entry whose earlier reads have returned is performed at its home slice; a wave that has ended
goes with its last entry (R165). -/
def execStoreBufferDrain (core entry : Nat) (s : State) : Host.Outcome State Fault Refusal :=
  match (s.core core).sb.find? fun e => e.id == entry with
  | none => .next s
  | some e => .next (s.drainEntry core e)

/-- The earlier reads that an entry waits for are performed, as far as they can be: a load of global memory always can, behind the
entries of other waves that it met. -/
def State.pressLoads (s : State) (u upTo : Nat) : State :=
  match s.wave u with
  | none => s
  | some w => ((w.late.filter fun l => l.reads && decide (l.seq ≤ upTo)).map (·.seq)).foldl (fun s q => s.landLate u q []) s

/-- The entries that have to drain before an entry can: the older record of its sector, and those that its wave's earlier loads met. -/
def State.entriesBefore (s : State) (core : Nat) (e : SbEntry) : List SbEntry :=
  let met := match s.wave e.wave with
    | some w => (w.late.filter fun (l : Late) => decide (l.seq ≤ e.afterSeq)).flatMap fun (l : Late) => l.lanes.flatMap fun (a : LaneAcc) => a.after
    | none => []
  (s.core core).sb.filter fun x => (x.wave == e.wave && x.sector == e.sector && decide (x.id < e.id)) || met.contains x.id

/-- An entry that is due drains (R51): what it waits for comes first, so that no pending load of global memory keeps it (R131). -/
def State.pressEntry (core : Nat) : Nat → State → SbEntry → State
  | 0, s, e => s.drainEntry core e
  | fuel + 1, s, e =>
    if s.canDrain e then s.drainEntry core e
    else
      let s := (s.entriesBefore core e).foldl (fun s x => State.pressEntry core fuel s x) s
      let s := s.pressLoads e.wave e.afterSeq
      if (s.core core).sb.any fun x => x.id == e.id then s.drainEntry core e else s

/-- Store-buffer entries whose last merge lies 2,000 clocks back drain (R51), unless a snapshot, a commit group, or an earlier read that
cannot be performed holds them (log 42). -/
def State.drainOverdue (s : State) : State :=
  let due := fun (e : SbEntry) => decide (e.merged + 2000 ≤ s.clock)
  if !s.cores.any (fun c => c.2.sb.any due) then s
  else s.cores.foldl (fun s c => (c.2.sb.filter due).foldl (fun s e =>
    if (s.core c.1).sb.any fun x => x.id == e.id then State.pressEntry c.1 c.2.sb.length s e else s) s) s

/-- Time passes (R1): clocks and nanoseconds; writes to slot tables take effect when a clock whose index modulo 64 is 0
comes (R351), scratch lines are marked, and entries that have waited long enough drain. -/
def State.advance (s : State) (clocks ns : Nat) : State :=
  let s := if s.clock / 64 = (s.clock + clocks) / 64 then s else
    { s with cores := (s.cores.map fun (x : Nat × Core) => (x.1, { x.2 with tenants := x.2.tenantsNext, strict := x.2.strictNext })) }
  ({ s.markLines clocks with clock := s.clock + clocks, ptp := s.ptp + ns, power := s.power.pass ns } : State).drainOverdue

/-- L1_SECTOR_EXPIRY (R131): a sector leaves the L1, at the latest 8,000 clocks after its fill; until then it may be replaced at
any time (R50). -/
def execL1SectorExpiry (core sector : Nat) (s : State) : Host.Outcome State Fault Refusal :=
  .next (s.updCore core fun c => { c with l1 := c.l1.filter fun x => x.id != sector })

end Sys2Proof.Machine
end

