-- ==== Sys2Proof/Machine/Channel.lean ====
section
/-! DEFINITION. System copy channels (R417 to R419) and the snapshot engine (R92 to R98), whose drain walks the same records. -/

namespace Sys2Proof.Machine

/-! ### Linked transfer records (R417) -/

/-- The fields of a record. -/
structure Link where
  next : Nat
  src : Nat
  dst : Nat
  len : Nat
  own : Bool
  int : Bool
  skind : Nat
  dkind : Nat
  fpeer : Nat
  asid : Nat
  reserved : Nat
deriving DecidableEq, Repr

/-- The fields of a record's 512 bits. -/
def linkOf (n : Nat) : Link :=
  { next := fld n 63 0, src := fld n 127 64, dst := fld n 191 128, len := fld n 223 192, own := bit n 224, int := bit n 225,
    skind := fld n 227 226, dkind := fld n 229 228, fpeer := fld n 237 230, asid := fld n 249 238, reserved := fld n 511 254 }

/-- Is a record malformed? -/
def Link.malformed (l : Link) : Bool :=
  l.len == 0 || decide (2 ≤ l.skind) || l.dkind == 3 || (l.dkind != 2 && l.fpeer != 0) || l.reserved != 0 || l.next % 64 != 0

/-- The record at a physical address; none where the map holds no memory or the agent may not read it. -/
def State.linkAt (s : State) (who : Who) (pa : Nat) : Option Link :=
  if s.backedMem pa 64 && s.admits who pa then some (linkOf (s.read pa 64)) else none

/-- STATUS written and OWN cleared in one write (R418). -/
def State.closeLink (s : State) (pa status : Nat) : State :=
  let x := s.read (pa + 28) 4
  let x := x % 2 ^ 26 / 2 * 2 + 2 ^ 26 * (status % 16) + x / 2 ^ 30 * 2 ^ 30
  s.writeHome (pa + 28) (natLe 4 x)

/-- Who moves the bytes of a record, and for which agent its faults are queued. -/
structure Mover where
  die : Nat
  ch : Nat
  drain : Bool
  who : Who
  asid : Nat
deriving DecidableEq, Repr

/-- The world in which a mover's addresses are walked: a drain's is 0; the host names an address space, not a world (log 32). -/
def State.moverWorld (s : State) (m : Mover) : Nat := if m.drain then 0 else asWorld (asEntry s m.die m.asid)

/-- The physical address of one end of a piece, or why there is none: status 2 or 3, or a queued fault (R418). -/
inductive MoverPa where
  | ok (pa : Nat) (s : State)
  | other (m : Move)

/-- Translates or checks one end of a piece of `n` bytes that lies in one page. -/
def moverPa (s : State) (m : Mover) (virt : Bool) (a n access : Nat) : MoverPa :=
  if virt then
    match engineXlate s m.die m.asid (s.moverWorld m) m.who a access with
    | .ok pa _ s => .ok pa s
    | .fault k l s =>
      if directKind k then .other (.stop 2 a s)
      else .other (.parked (queueFault s m.die { va := a, kind := k, access := access, level := l } m.asid (.channel m.die m.ch m.drain)))
    | .firewall s => .other (.stop 3 a s)
  else if !s.backedMem a n then .other (.stop 2 a s)
  else if !s.admits m.who a then .other (.stop 3 a s)
  else .ok a s

/-- Writes a piece at its destination (R417); a RoCEv2 write to a peer whose entry is not usable is a remote error (R421). The record names a
peer alone: the write goes to linear index 0 and window 0 of world 0 there (log 85). -/
def moverPut (s : State) (m : Mover) (l : Link) (off : Nat) (bs : List Byte) : Move :=
  if l.dkind = 2 then
    if !s.peerValid l.fpeer then .stop 5 l.dst s
    else .moved (s.sendRoce (s.roceTo l.fpeer 0 0 0 ((l.dst + off) % 2 ^ 64) false bs))
  else
    match moverPa s m (l.dkind == 1) ((l.dst + off) % 2 ^ 64) bs.length 1 with
    | .other x => x
    | .ok pa s => if s.writeHeld pa bs.length then .later else .moved (s.writeHome pa bs)

/-- Bytes of the piece that begins at offset `off`: it crosses no page at either end. -/
def Link.piece (l : Link) (off : Nat) : Nat :=
  min (l.len - off) (min (65536 - (l.src + off) % 65536) (65536 - (l.dst + off) % 65536))

/-! ### Host chains (R418, R419) -/

/-- The host agent for which a host chain acts. -/
def hostMover (die ch asid : Nat) : Mover := { die := die, ch := ch, drain := false, who := .host none, asid := asid }

/-- Moves the piece at an offset. -/
def movePiece (s : State) (m : Mover) (l : Link) (off : Nat) : Move :=
  let n := l.piece off
  match moverPa s m (l.skind == 1) ((l.src + off) % 2 ^ 64) n 0 with
  | .other x => x
  | .ok pa s =>
    if s.poisoned pa n then .stop 4 l.src s
    else if s.readHeld pa n none then .later
    else moverPut s m l off (s.bytes pa n)

/-- How far a record has come. -/
inductive Moved where
  | all (s : State)
  | part (s : State) (off : Nat)
  | stop (s : State) (status : Nat)

/-- Moves a record's pieces from an offset; `fuel` bounds their number. -/
def movePieces (m : Mover) (l : Link) : Nat → State → Nat → Moved
  | 0, s, off => if off < l.len then .part s off else .all s
  | fuel + 1, s, off =>
    if l.len ≤ off then .all s
    else match movePiece s m l off with
      | .moved s => movePieces m l fuel s (off + l.piece off)
      | .later => .part s off
      | .parked s => .part s off
      | .stop status _ s => .stop s status

/-- Changes a channel. -/
def State.updChannel (s : State) (die ch : Nat) (f : Channel → Channel) : State :=
  s.updDie die fun d => { d with channels := mapPut Channel.reset d.channels ch (f (mapGet Channel.reset d.channels ch)) }

/-- A channel. -/
def State.channel (s : State) (die ch : Nat) : Channel := mapGet Channel.reset (s.die die).channels ch

/-- MSI-X vector of a channel raised. -/
def State.raiseMsix (s : State) (die ch : Nat) : State :=
  { s with power := { s.power with msix := mapPut 0 s.power.msix (4 * die + ch) (mapGet 0 s.power.msix (4 * die + ch) + 1) } }

/-- May a chain begin a record (R419)? The channel alternates: not the chain that began the last one, unless the other has none to begin. -/
def Channel.turn (c : Channel) (drain : Bool) : Bool :=
  c.last != some drain || ((if drain then c.host else c.drain).all fun k => k.rec_.isSome)

/-- A chain at its first byte of a record. -/
def Chain.at_ (host : Bool) (pa : Nat) : Chain := { cur := pa, done := 0, parked := false, trapped := false, host := host }

/-- A host chain's record ends with a status: the record is closed, and the chain halts or follows NEXT (R418). -/
def State.endRecord (s : State) (die ch : Nat) (k : Chain) (l : Link) (status : Nat) : State :=
  let s := s.closeLink k.cur status
  let s := if l.int then s.raiseMsix die ch else s
  s.updChannel die ch fun c =>
    if status ≠ 0 then { c with host := none, err := true }
    else if l.next = 0 then { c with host := none }
    else { c with host := some (Chain.at_ true l.next), cur := l.next }

/-- The record of a chain: as the channel has read it, or as it reads it now, once (R418). -/
def State.chainLink (s : State) (who : Who) (k : Chain) : Option Link := (k.rec_.map linkOf).orElse fun _ => s.linkAt who k.cur

/-- A chain after some of its record: the record has been read, and RoCEv2 writes may wait for their acknowledgement. -/
def Chain.after (k : Chain) (n off : Nat) (l : Link) : Chain :=
  { k with done := off, rec_ := some (k.rec_.getD n), sent := k.sent || (l.dkind == 2 && decide (0 < off)) }

/-- One record of a host chain. A record that the channel cannot read halts the chain with ERR (log 32). Bytes sent to a foreign peer wait
for its acknowledgement before the record is closed; a record that fails is closed at once (log 85). -/
def State.hostRecord (s : State) (die ch : Nat) (k : Chain) : State :=
  match s.chainLink (.host none) k with
  | none => s.updChannel die ch fun c => { c with host := none, err := true }
  | some l =>
    let n := s.read k.cur 64
    let part := fun (s : State) (off : Nat) => s.updChannel die ch fun c => { c with host := c.host.map fun k => k.after n off l }
    let s := s.updChannel die ch fun c => { c with last := some false }
    if k.sent ∧ l.len ≤ k.done then s
    else if !l.own then s.updChannel die ch fun c => { c with host := none }
    else if k.trapped then s.endRecord die ch k l 2
    else if l.malformed then s.endRecord die ch k l 1
    else match movePieces (hostMover die ch l.asid) l (2 * (l.len / 65536) + 4) s k.done with
      | .all s => if l.dkind = 2 then part s l.len else s.endRecord die ch k l 0
      | .stop s status => s.endRecord die ch k l status
      | .part s off => part s off

/-- The peer's answer for the bytes that a host record has sent (R418): the record ends, with status 5 where it failed. -/
def State.hostAnswered (s : State) (die ch cause : Nat) : State :=
  match (s.channel die ch).host with
  | none => s
  | some k =>
    match s.chainLink (.host none) k with
    | none => s
    | some l => if k.sent ∧ l.len ≤ k.done then s.endRecord die ch k l (if cause = 0 then 0 else 5) else s

/-- A write to SCCHEAD (R419). Before boot has released the engines nothing starts (R399). -/
def State.writeHead (s : State) (die ch : Nat) (value : DWord) : State :=
  let pa := fld value.toNat 51 6 * 64
  if !s.released then s else
  s.updChannel die ch fun c =>
    if c.host.isSome then { c with drop := true } else { c with host := some (Chain.at_ true pa), cur := pa }

/-- CHANNEL_HEAD_WRITE (R419). Each die has four channels. -/
def execChannelHeadWrite (die channel : Nat) (value : DWord) (s : State) : Host.Outcome State Fault Refusal :=
  .next (if die < 4 ∧ channel < 4 then s.writeHead die channel value else s)

/-! ### Arming and marking (R92 to R96) -/

/-- Fields of SNAPREG, SNAPTL and SNAPVAL. -/
def Snap.count (x : Snap) : Nat := x.reg.toNat % 128
def Snap.tablePa (x : Snap) : Nat := fld x.reg.toNat 51 8 * 256
def Snap.timelinePa (x : Snap) : Nat := fld x.tl.toNat 51 3 * 8

/-- A region record: reserved bits, ASID, page count, first page's address (R93). -/
def regionReserved (n : Nat) : Nat := fld n 15 0 + fld n 127 108
def snapRegion (n : Nat) : Nat × Nat × Nat := (fld n 107 96, fld n 63 16, fld n 95 64)

/-- The leaf that maps a page of an address space, for the snapshot engine: the world is the one the space names. -/
def State.snapLeaf (s : State) (asid page : Nat) : Option Tr :=
  let va := page * 65536 % 2 ^ 64
  if !canonical va then none
  else match (walk s 0 asid (asWorld (asEntry s 0 asid)) va).1 with
    | .leaf t => some t
    | _ => none

/-- Does a region meet a 512 MiB page? -/
def State.meetsLarge (s : State) (r : Nat × Nat × Nat) : Bool :=
  (List.range ((r.2.1 + r.2.2 - 1) / 8192 + 1 - r.2.1 / 8192)).any fun i =>
    ((s.snapLeaf r.1 (max r.2.1 ((r.2.1 / 8192 + i) * 8192))).map (·.large)).getD false

/-- The error of a region record: 1 bad, 2 large page, 0 none (R93). -/
def State.regionError (s : State) (n : Nat) : Nat :=
  let r := snapRegion n
  if r.2.2 = 0 ∨ regionReserved n ≠ 0 then 1 else if s.meetsLarge r then 2 else 0

/-- The first error of an arming: the records in order, then the pool (R93). A count outside 1 to 64 is a bad region. -/
def State.armError (s : State) : Nat :=
  let x := s.snap
  if x.count = 0 ∨ 64 < x.count then 1
  else
    let errs := (List.range x.count).map fun i => s.regionError (s.physRead (x.tablePa + 16 * i) 16)
    match errs.find? (· != 0) with
    | some e => e
    | none => if s.lpddr < x.poolPa 0 + x.pool.toNat % 2 ^ 32 * 65536 then 3 else 0

/-- The walks that look for a large page in a region set ACC in the leaves they reach (R30). -/
def State.armWalk (s : State) (r : Nat × Nat × Nat) : State :=
  (List.range ((r.2.1 + r.2.2 - 1) / 8192 + 1 - r.2.1 / 8192)).foldl (fun s i =>
    match s.snapLeaf r.1 (max r.2.1 ((r.2.1 / 8192 + i) * 8192)) with
    | some t => (touchLeaf s t false).1
    | none => s) s

/-- SNAPSHOT_ARM (R93, R94): accepted in IDLE and DONE, once the engines are released (R399). -/
def execSnapshotArm (s : State) : Host.Outcome State Fault Refusal :=
  let x := s.snap
  if !s.released ∨ x.state ≠ 0 ∧ x.state ≠ 4 then .next s
  else
    let e := s.armError
    let regions := (List.range x.count).map fun i => snapRegion (s.physRead (x.tablePa + 16 * i) 16)
    .next { (regions.foldl (fun s r => s.armWalk r) s).physDone x.tablePa (16 * x.count) with snap :=
      if e ≠ 0 then { x with state := 5, err := e }
      else { x with state := 1, err := 0, skip := 0, drained := [], regions := regions } }

/-- Marks one page (R96): COW is set in its leaf, and by the walk that finds it ACC (R30). A page without a leaf counts in SKIP, and so does one of a confidential world
(R406). -/
def State.markPage (s : State) (asid page : Nat) : State :=
  let skip : State := { s with snap := { s.snap with skip := (s.snap.skip + 1) % 2 ^ 24 } }
  match s.snapLeaf asid page with
  | none => skip
  | some t =>
    if s.isDevice t.base && decide (2 ≤ (s.owner t.base).world) then skip else
    let e := s.read t.leafPa 8
    let e' := e ||| 2 ^ 6 ||| (if t.adu then 2 ^ 9 else 0)
    let s := if e' = e then s else s.poke t.leafPa (natLe 8 e') none
    let p := t.base / 65536
    let old := (mapFind s.snap.marks p).getD []
    { s with snap := { s.snap with marks := mapInsert s.snap.marks p (insNat t.leafPa old) } }

/-- Cached translations of the marked pages leave every cache (R31, R96). -/
def State.forgetMarked (s : State) : State :=
  let keep := fun (t : Tr) => (mapFind s.snap.marks (t.base / 65536)).isNone || t.large
  { s with
    cores := (s.cores.map fun (c : Nat × Core) => (c.1, { c.2 with tlb := c.2.tlb.filter keep })).filter fun c => c.2 != Core.reset,
    dies := (s.dies.map fun (d : Nat × Die) => (d.1, { d.2 with ts := { d.2.ts with entries := d.2.ts.entries.filter keep } })).filter
      fun d => d.2 != Die.reset }

/-- SNAPSHOT_FREEZE (R94 to R96): once the timeline is at n or above, the slices hold writes to the armed regions and their pages
are marked; accesses held at the timeline go on. Copies of an earlier cut that no drain named leave the pool. -/
def execSnapshotFreeze (s : State) : Host.Outcome State Fault Refusal :=
  let x := s.snap
  if x.state ≠ 1 then .next s
  else if s.physRead x.timelinePa 8 < x.val.toNat then .next (s.physDone x.timelinePa 8)
  else
    let s := s.physDone x.timelinePa 8
    let s := x.regions.foldl (fun s r => (List.range r.2.2).foldl (fun s i => s.markPage r.1 (r.2.1 + i)) s) { s with snap := { s.snap with copies := [] } }
    let s := { s.forgetMarked with snap := { s.snap with state := 2 } }
    .next (s.recheck x.timelinePa 8)

/-- Marked pages not yet drained, with those whose copy waits in the pool (R92). -/
def Snap.left (x : Snap) : Nat := x.marks.length + x.copies.length

/-- The channels of the package: die and number. -/
def allChannels : List (Nat × Nat) := [0, 1, 2, 3].flatMap fun d => [0, 1, 2, 3].map fun c => (d, c)

/-- Sets the drain chain of every channel. -/
def State.setDrains (s : State) (k : Option Chain) : State := allChannels.foldl (fun s x => s.updChannel x.1 x.2 fun c => { c with drain := k }) s

/-- The channel of its die that drains a page: which of the four does is a choice (log 31). -/
def drainChannel (page : Nat) : Nat := page / 4 % 4

/-- SNAPSHOT_MARK_COMPLETE (R94): held writes go on; the drain, if there is one, starts on the four channels of every die (R98). -/
def execSnapshotMarkComplete (s : State) : Host.Outcome State Fault Refusal :=
  if s.snap.state ≠ 2 then .next s
  else
    let head := fld s.snap.drain.toNat 51 6 * 64
    if head = 0 then .next { s with snap := { s.snap with state := 4 } }
    else .next (State.setDrains { s with snap := { s.snap with state := 3 } } (some (Chain.at_ false head)))

/-- The drain chains stop; no page is being sent. -/
def State.stopDrain (s : State) : State := State.setDrains { s with snap := { s.snap with sending := [] } } none

/-- SNAPSHOT_CANCEL (R94): every mark is cleared and the pool is free. -/
def execSnapshotCancel (s : State) : Host.Outcome State Fault Refusal :=
  let x := s.snap
  if x.state = 0 ∨ x.state = 4 then .next s
  else
    let s := ((x.marks.map (·.1)).foldl (fun s p => s.unmark p) s).stopDrain
    let s := { s with snap := { s.snap with state := 0, err := 0, marks := [], copies := [], regions := [], drained := [] } }
    .next (s.recheck x.timelinePa 8)

/-! ### The drain (R97, R98) -/

/-- Does a record's source lie inside an armed region? -/
def Snap.inRegion (x : Snap) (l : Link) : Bool :=
  x.regions.any fun r => r.1 == l.asid && decide (r.2.1 * 65536 ≤ l.src ∧ l.src + l.len ≤ (r.2.1 + r.2.2) * 65536)

/-- A drain record is acceptable (R98). -/
def Snap.drainable (x : Snap) (l : Link) : Bool := !l.malformed && l.skind == 1 && x.inRegion l

/-- The agent of a drain on a channel of a die. -/
def drainMover (die ch asid : Nat) : Mover := { die := die, ch := ch, drain := true, who := .world 0, asid := asid }

/-- Where the cut of a page lies: its pool copy, or the page itself. -/
def Snap.cutPa (x : Snap) (page : Nat) : Nat :=
  match mapFind x.copies page with
  | some i => x.poolPa i
  | none => page * 65536

/-- The page has been sent: its copy is freed and its mark cleared, and what waited for its mark is checked again. -/
def State.pageSent (s : State) (page : Nat) : State :=
  let s := s.unmark page
  State.recheck { s with snap := { s.snap with copies := mapErase s.snap.copies page, sending := s.snap.sending.filter (· != page) } }
    (page * 65536) 65536

/-- A part of a page has been sent, so that it is no longer copied (R97). -/
def State.partSent (s : State) (page : Nat) : State := { s with snap := { s.snap with sending := insNat page s.snap.sending } }

/-- Sends the piece at an offset, if its page is homed on the die, is the channel's, and has not been drained ahead of this record. -/
def sendPiece (s : State) (m : Mover) (l : Link) (cur off : Nat) : Move :=
  let n := l.piece off
  match moverPa s m true ((l.src + off) % 2 ^ 64) n 0 with
  | .other x => x
  | .ok pa s =>
    let page := pa / 65536
    if homeDie pa ≠ m.die ∨ drainChannel page ≠ m.ch ∨ s.snap.drained.contains (page, cur) then .moved s
    else
      let from_ := s.snap.cutPa page + pa % 65536
      if s.poisoned from_ n then .stop 4 l.src s
      else match moverPut s m l off (s.bytes from_ n) with
        | .moved s => .moved (if (pa + n) % 65536 = 0 ∨ off + n = l.len then s.pageSent page else s.partSent page)
        | x => x

/-- Sends a record's pieces from an offset. -/
def sendPieces (m : Mover) (l : Link) (cur : Nat) : Nat → State → Nat → Moved
  | 0, s, off => if off < l.len then .part s off else .all s
  | fuel + 1, s, off =>
    if l.len ≤ off then .all s
    else match sendPiece s m l cur off with
      | .moved s => sendPieces m l cur fuel s (off + l.piece off)
      | .later => .part s off
      | .parked s => .part s off
      | .stop status _ s => .stop s status

/-- A drain record fails: the chain stops and the marks stay (R94). -/
def State.failDrain (s : State) (cur status : Nat) : State :=
  let s := (s.closeLink cur status).stopDrain
  { s with snap := { s.snap with state := 5, err := 4 } }

/-- When every channel has sent its pages of a record, and a foreign peer has acknowledged them, the record is closed and the chain goes on; with the last record done and
nothing left the snapshot is DONE (R94, R98). -/
def State.drainJoin (s : State) (cur : Nat) (l : Link) : State :=
  let ends := allChannels.all fun x => ((s.channel x.1 x.2).drain.map fun k => decide (l.len ≤ k.done) && !k.sent).getD false
  if !ends then s
  else
    let s := s.closeLink cur 0
    if l.next ≠ 0 then s.setDrains (some (Chain.at_ false l.next))
    else
      let s := s.stopDrain
      if s.snap.left = 0 then { s with snap := { s.snap with state := 4 } } else s

/-! ### Turns among the staging class (R344) -/

/-- Does a staging copy of a die wait for its turn: of the SCRATCH group, or of the L2 group? -/
def State.stagingWaits (s : State) (die : Nat) (scratch : Bool) : Bool :=
  s.sched.staging.any fun y => y.die == die && y.cohort.isSome == scratch && !y.parked && !y.demandClass &&
    !(s.task y.task).any fun t => s.worldStopped t.world

/-- May a channel's drain chain move bytes: it is not parked, and its record is at hand and not all sent, or may be begun? -/
def Channel.drains (c : Channel) : Bool :=
  c.drain.any fun k => !k.parked && (match k.rec_ with
    | some n => decide (k.done < (linkOf n).len)
    | none => c.turn true)

/-- Does the drain of a die wait for its turn? -/
def State.drainWaits (s : State) (die : Nat) : Bool := s.snap.state == 3 && [0, 1, 2, 3].any fun ch => (s.channel die ch).drains

/-- Is it the turn of the L2 group of a die, or of the snapshot drain, in this clock? SCRATCH ranges of placed cohorts go before a drain; the
two groups alternate clock by clock when both wait. -/
def State.groupTurn (s : State) (die : Nat) (drain : Bool) : Bool :=
  !(drain && s.stagingWaits die true) &&
  (!(if drain then s.stagingWaits die false else s.drainWaits die) ||
    (match (s.die die).turnLast with
     | none => true
     | some (c, d) => if c = s.clock then d == drain else d != drain))

/-- A group has had a turn. -/
def State.noteTurn (s : State) (die : Nat) (drain : Bool) : State := s.updDie die fun d => { d with turnLast := some (s.clock, drain) }

/-- One channel's part of the drain record that stands next. -/
def State.drainRecord (s : State) (die ch : Nat) : State :=
  let len := s.power.foreign.length
  match (s.channel die ch).drain with
  | none => s
  | some k =>
    if k.parked ∨ s.snap.state ≠ 3 ∨ !s.released ∨ !(k.rec_.isSome || (s.channel die ch).turn true) ∨ !s.groupTurn die true then s
    else match s.chainLink (.world 0) k with
      | none => { s.stopDrain with snap := { s.snap with state := 5, err := 4 } }
      | some l =>
        let n := s.read k.cur 64
        let part := fun (s : State) (off : Nat) =>
          let sent := (s.channel die ch).drain.any (·.sent) || decide (len < s.power.foreign.length)
          s.updChannel die ch fun c => { c with drain := c.drain.map fun k => { k with done := off, rec_ := some (k.rec_.getD n), sent := sent } }
        let s := (s.noteTurn die true).updChannel die ch fun c => { c with last := some true }
        if !l.own then s.stopDrain
        else if k.trapped then s.failDrain k.cur 2
        else if !s.snap.drainable l then s.failDrain k.cur 1
        else if l.len ≤ k.done then s
        else match sendPieces (drainMover die ch l.asid) l k.cur (2 * (l.len / 65536) + 4) s k.done with
          | .stop s status => s.failDrain k.cur status
          | .part s off => part s off
          | .all s => (part s l.len).drainJoin k.cur l

/-- The peer's answer for the bytes of a drain record that one channel has sent (R418): the record may be closed, or fails with status 5. -/
def State.drainAnswered (s : State) (die ch cause : Nat) : State :=
  match (s.channel die ch).drain with
  | none => s
  | some k =>
    match s.chainLink (.world 0) k with
    | none => s
    | some l =>
      if !(k.sent && decide (l.len ≤ k.done)) then s
      else if cause ≠ 0 then s.failDrain k.cur 5
      else (s.updChannel die ch fun c => { c with drain := c.drain.map fun k => { k with sent := false } }).drainJoin k.cur l

/-- ROCE_ACK (R318, R418): a foreign peer answers for an operation of the remote engine, or for the bytes that a channel has sent. -/
def execRoceAck (source : RoceSource) (cause : Nat) (s : State) : Host.Outcome State Fault Refusal :=
  .next (match source with
    | .op id => s.roceAnswer id cause
    | .channel die ch drain => if drain then s.drainAnswered die ch cause else s.hostAnswered die ch cause)

/-- SNAPSHOT_DRAIN_RECORD (R98): the channels of a die send the pages it homes of the record that stands next. -/
def execSnapshotDrainRecord (die : Nat) (s : State) : Host.Outcome State Fault Refusal :=
  .next ([0, 1, 2, 3].foldl (fun s ch => s.drainRecord die ch) s)

/-- CHANNEL_RECORD (R418, R419): a channel walks one record of its host chain, or of the drain. -/
def execChannelRecord (die channel : Nat) (drain : Bool) (s : State) : Host.Outcome State Fault Refusal :=
  if drain then .next (s.drainRecord die channel)
  else match (s.channel die channel).host with
    | none => .next s
    | some k =>
      .next (if k.parked ∨ !s.released ∨ !(k.rec_.isSome || (s.channel die channel).turn false) then s else s.hostRecord die channel k)

/-! ### Priority drains (R97) -/

/-- The record of a drain chain whose source holds a page, with the offset of the page's first byte in it. -/
def State.recordOf (s : State) (page : Nat) : Nat → Nat → Option (Nat × Link × Nat)
  | 0, _ => none
  | fuel + 1, cur =>
    match s.linkAt (.world 0) cur with
    | none => none
    | some l =>
      let pages := (l.src + l.len - 1) / 65536 + 1 - l.src / 65536
      let hit := if !l.own || !s.snap.drainable l then none else
        (List.range pages).find? fun i => ((s.snapLeaf l.asid (l.src / 65536 + i)).map fun t => t.base / 65536 == page).getD false
      match hit with
      | some i => some (cur, l, (l.src / 65536 + i) * 65536 - l.src)
      | none => if l.next = 0 then none else s.recordOf page fuel l.next

/-- Sends the rest of one page of a record, piece by piece; poison fails the record (R418). -/
def sendPage (m : Mover) (l : Link) (page : Nat) : Nat → State → Nat → Moved
  | 0, s, off => .part s off
  | fuel + 1, s, off =>
    let n := l.piece off
    let from_ := page * 65536 + (l.src + off) % 65536
    if s.poisoned from_ n then .stop s 4
    else match moverPut s m l off (s.bytes from_ n) with
    | .moved s => if (from_ + n) % 65536 = 0 ∨ off + n = l.len then .all (s.pageSent page) else sendPage m l page fuel s (off + n)
    | .later => .part s off
    | .parked s => .part s off
    | .stop status _ s => .stop s status

/-- COW_PAGE_COPY (R97): the engine copies a marked page into the pool and clears its mark, so that a stalled write may proceed;
with the pool full it drains that page first. A page that is being drained is left to its drain. -/
def execCowPageCopy (page : Nat) (s : State) : Host.Outcome State Fault Refusal :=
  if s.snap.state = 2 ∨ (mapFind s.snap.marks page).isNone ∨ s.snap.sending.contains page then .next s
  else match s.copyMarked page with
    | some s => .next (s.recheck (page * 65536) 65536)
    | none =>
      let die := homeDie (page * 65536)
      match (s.channel die (drainChannel page)).drain.bind fun k => s.recordOf page 65536 k.cur with
      | none => .next s
      | some (cur, l, off) =>
        match sendPage (drainMover die (drainChannel page) l.asid) l page 4 s off with
        | .part _ _ => .next s
        | .stop s status => .next (s.failDrain cur status)
        | .all s =>
          let s := if l.dkind = 2 then s.updChannel die (drainChannel page) fun c => { c with drain := c.drain.map fun k => { k with sent := true } } else s
          .next { s with snap := { s.snap with drained := (page, cur) :: s.snap.drained } }

end Sys2Proof.Machine
end

