-- ==== Sys2Proof/Machine/Place.lean ====
section
/-! DEFINITION. A wave and a cohort as placement leaves them (R58, R61, R68, R69, R157, R347). -/

namespace Sys2Proof.Machine

/-- k words of ones from word `at_`. -/
def fullWords (at_ k : Nat) : List (Nat × Word) := (List.range k).map fun j => (at_ + j, 0xFFFFFFFF#32)

/-- A wave at placement (R121, R157, R378, R382, R386): PC and restart point at the code address, s0:2 the descriptor's address, TBA
from the descriptor with TBA[2:0] zero, every lane live and in EXEC, every other register 0. -/
def Wave.placed (core slot cohort waveId k nv : Nat) (pc desc tba : DWord) : Wave :=
  { core := core, slot := slot, cohort := cohort, waveId := waveId, k := k, nv := nv, pc := pc,
    regs := { s := mapPut 0 (mapPut 0 (fullWords 96 k) 0 (desc.extractLsb' 0 32)) 1 (desc.extractLsb' 32 32),
              v := [], live := fullWords 0 k, spoison := [], vpoison := [] },
    sp := { fpstat := 0, fprm := 0, rngSeed := 0, gens := [], apxtab := 0, apxstat := 0, remerr := 0, remtrap := 1 },
    tr := { handler := false, savedExec := [], tba := tba >>> 3 <<< 3, tpc := 0, tcause := 0, tinfo0 := 0, tinfo1 := 0, dbgctl := 0,
            dbgNext := 0, tpcEntry := 0, clauseEntry := Clause.boundary, bpSkip := false, stepDue := false, debugStop := false },
    clause := Clause.boundary, wait := .ready, waitSince := 0, preemptible := false, late := [], lateSeq := 0, epend := [],
    tls := [Timeline.clear, Timeline.clear, Timeline.clear], restart := pc, restartClause := Clause.boundary,
    restartSeq := 0, retry := 0, group := none, region := none, joined := false, pend := none, prog := Progress.none,
    xl := [], xfail := [], keeper := none, upset := false }

/-- A cohort without storage or waves. -/
def Cohort.blank (task index world asid core : Nat) : Cohort :=
  { task := task, index := index, world := world, asid := asid, core := core, paired := false, nwaves := 0, waves := [],
    ended := [], cx := 0, cy := 0, cz := 0, scratchSize := 0, scratch := [], empty := [], stagePend := [], failed := [], spoiled := [],
    fifoSegs := [], fifos := [], barriers := [], mx := [Matrix.clear], obBytes := 0, obBase := [], accRows := 0, accBase := [], planes := 0, segs := [],
    started := 0 }

end Sys2Proof.Machine
end

