-- ==== Sys2Proof/Machine/Sched.lean ====
section
/-! DEFINITION. The scheduler front ends (R334 to R347): reading rings, checking descriptors, dependences, admission, staging,
placement and retirement, and the storage they give out (R46 to R48, R54, R71). -/

namespace Sys2Proof.Machine

/-! ### Descriptors (R337) -/

/-- Fields of a descriptor. -/
def descCode (d : Nat) : Nat := fld d 63 0
def descTrap (d : Nat) : Nat := fld d 127 64
def descK (d : Nat) : Nat := fld d 196 192 + 1
def descPaired (d : Nat) : Bool := bit d 197
def descWaves (d : Nat) : Nat := fld d 204 198
def descVr (d : Nat) : Nat := 8 * fld d 210 205
def descSerial (d : Nat) : Bool := bit d 211
def descPrio (d : Nat) : Nat := fld d 278 276
def descNdep (d : Nat) : Nat := fld d 298 296
def descNws (d : Nat) : Nat := fld d 303 300
/-- Cores of a cohort. -/
def descCores (d : Nat) : Nat := if descPaired d then 2 else 1
/-- The scratch allocation (R54). -/
def descScratch (d : Nat) : Nat :=
  let unit := 8192 * descCores d
  (fld d 255 224 + unit - 1) / unit * unit

/-- A reserved bit of a descriptor is set. -/
def descReserved (d : Nat) : Bool :=
  [(191, 188), (223, 212), (263, 262), (275, 275), (279, 279), (287, 284), (299, 299), (307, 307), (319, 311)].any fun f => fld d f.1 f.2 != 0

/-- The trust queue's own rules (R402). -/
def descTrustBad (d : Nat) : Bool :=
  fld d 295 288 != 0 || descPaired d || descTotal d != 1 || decide (4 < descWaves d) || decide (2 < descK d) ||
  fld d 261 256 != 0 || fld d 271 264 != 0 || fld d 274 272 != 0 || descNws d != 0 || decide (262144 < fld d 255 224)

/-- Is a descriptor MALFORMED (R337, R339)? -/
def descMalformed (d world : Nat) (trust : Bool) : Bool :=
  let w := descWaves d
  descReserved d || descCode d % 8 != 0 || descVr d == 0 || decide (256 < descVr d) ||
  (if descPaired d then w % 2 != 0 || decide (w < 2) || decide (64 < w) else decide (w < 1) || decide (32 < w)) ||
  decide (32 < fld d 261 256) || decide (128 < fld d 271 264) || decide (4 < fld d 274 272) || fld d 295 288 != world ||
  decide (4 < descNdep d) || decide (8 < descNws d) || decide (5 < fld d 306 304) || decide (5 < fld d 310 308) ||
  decide (2097152 * descCores d < descScratch d) || fld d 383 320 % 16 != 0 || (descNdep d == 0 && fld d 383 320 != 0) || fld d 447 384 % 32 != 0 ||
  (descNws d == 0 && fld d 447 384 != 0) || fld d 511 448 % 16 != 0 || (trust && descTrustBad d)

/-- Fields of a working-set entry (R338). -/
def wsAddr (e : Nat) : Nat := fld e 63 0
def wsStride (e : Nat) : Int := signedOf 64 (fld e 127 64)
def wsLen (e : Nat) : Nat := fld e 159 128
def wsScratch (e : Nat) : Bool := bit e 160
def wsOff (e : Nat) : Nat := fld e 186 164

/-- Is a working-set entry malformed? -/
def wsMalformed (d e : Nat) : Bool :=
  wsAddr e % 16 != 0 || wsLen e % 16 != 0 || wsLen e == 0 || wsOff e % 16 != 0 || fld e 255 187 != 0 ||
  (if wsScratch e then bit e 161 || decide (descScratch d < wsOff e + wsLen e) else wsStride e != 0 || wsOff e != 0)

/-- Source address of a range for a cohort. -/
def wsSource (e index : Nat) : Nat := wrapTo 64 ((wsAddr e : Int) + wsStride e * (index : Int))

/-! ### What a cohort needs and what cores have (R14, R19, R54, R64, R68) -/

/-- Storage of one core of a cohort, or of a core. -/
structure Need where
  waves : Nat
  vrf : Nat
  scratch : Nat
  ob : Nat
  acc : Nat
  planes : Nat
deriving DecidableEq, Repr

/-- What a descriptor asks of each of its cores. -/
def needOf (d : Nat) : Need :=
  let n := descWaves d / descCores d
  { waves := n, vrf := n * descVr d * (32 * descK d) * 4, scratch := descScratch d / descCores d, ob := 4096 * fld d 271 264,
    acc := 32 * fld d 261 256, planes := fld d 274 272 }

/-- What a core has. -/
def coreHas (core : Nat) : Need :=
  if isTrustCore core then { waves := 4, vrf := 32768, scratch := 262144, ob := 0, acc := 0, planes := 0 }
  else { waves := 32, vrf := 262144, scratch := 2097152, ob := 524288, acc := 1024, planes := 4 }

/-- Can a need ever be met by a core? -/
def Need.within (a b : Need) : Bool :=
  decide (a.waves ≤ b.waves) && decide (a.vrf ≤ b.vrf) && decide (a.scratch ≤ b.scratch) && decide (a.ob ≤ b.ob) &&
  decide (a.acc ≤ b.acc) && decide (a.planes ≤ b.planes)

/-- The lowest free run of `n` units below `cap` between busy runs (start, length). -/
def lowestGap (cap n : Nat) (busy : List (Nat × Nat)) : Option Nat :=
  if n = 0 then some 0 else
  let starts := (0 :: busy.map fun b => b.1 + b.2).filter fun a => decide (a + n ≤ cap) && busy.all fun b => !overlaps a n b.1 b.2
  match starts with
  | [] => none
  | a :: l => some (minNat a l)

/-- The cohorts resident on a core, but for some that are taken as gone. -/
def State.residents (s : State) (core : Nat) (gone : List Nat) : List (Nat × Cohort) :=
  s.cohorts.filter fun c => c.2.cores.contains core && !gone.contains c.1

/-- The waves on a core, but for those of cohorts taken as gone. -/
def State.wavesOn (s : State) (core : Nat) (gone : List Nat) : List (Nat × Wave) :=
  s.waves.filter fun x => x.2.core == core && !gone.contains x.2.cohort

/-- Free wave slots in ascending order; a slot that is being cleared is not free (R71). -/
def State.freeSlots (s : State) (core : Nat) (gone : List Nat) : List Nat :=
  let busy := (s.wavesOn core gone).map (·.2.slot) ++ (s.core core).clearing.flatMap (·.waveSlots)
  (List.range (coreHas core).waves).filter fun j => !busy.contains j

/-- Vector register bytes in use. -/
def State.vrfUsed (s : State) (core : Nat) (gone : List Nat) : Nat :=
  ((s.wavesOn core gone).map fun x => x.2.nv * x.2.width * 4).sum + ((s.core core).clearing.map (·.regBytes)).sum

/-- Busy runs of the operand buffer (bytes) and of accumulator rows. -/
def State.obBusy (s : State) (core : Nat) (gone : List Nat) : List (Nat × Nat) :=
  ((s.residents core gone).map fun c => (nth 0 c.2.obBase (core - c.2.core), c.2.obBytes)) ++ (s.core core).clearing.map fun x => (x.obBase, 256 * x.obUnits)
def State.accBusy (s : State) (core : Nat) (gone : List Nat) : List (Nat × Nat) :=
  ((s.residents core gone).map fun c => (nth 0 c.2.accBase (core - c.2.core), c.2.accRows)) ++ (s.core core).clearing.map fun x => (x.accBase, x.accRows)
def State.planesUsed (s : State) (core : Nat) (gone : List Nat) : Nat :=
  ((s.residents core gone).map fun c => c.2.planes).sum + ((s.core core).clearing.map (·.planes)).sum
def State.recordsUsed (s : State) (core : Nat) (gone : List Nat) : Nat :=
  ((s.residents core gone).map fun c => if c.2.obBytes = 0 then 0 else 16).sum

/-- Can a segment be given to a placement at once: it is SCRATCH, or its conversion is complete (R47, R48)? -/
def Segment.serves (g : Segment) : Bool :=
  !g.clearing && ((g.next.isNone && g.role == .scratch) || (g.converted && g.next == some .scratch))

/-- Segments of a core with the blocks that stay taken. `now` asks for segments that can be given at once. -/
def State.segmentsOf (s : State) (core : Nat) (gone : List Nat) (now : Bool) : List (Nat × Nat) :=
  ((List.range ((coreHas core).scratch / 131072)).map fun j => (j, mapGet Segment.reset (s.core core).segs j)).filterMap fun x =>
    let taken := (x.2.blocks.filter fun b => !gone.contains b.2).length
    let usable := x.2.serves || (!now && taken == 0 && !x.2.clearing)
    if usable then some (x.1, taken) else none

/-- The segments and blocks for a scratch allocation of one core (R55): whole segments, then blocks of shared ones. -/
def pickSegments (segs : List (Nat × Nat)) (bytes : Nat) : Option (List Nat × List (Nat × Nat)) :=
  let whole := bytes / 131072
  let rest := (bytes % 131072 + 8191) / 8192
  let empty := (segs.filter fun x => x.2 == 0).map (·.1)
  let shared := segs.filter fun x => x.2 != 0 && decide (x.2 < 16)
  let spare := shared.map (·.1) ++ empty.drop whole
  let room := (shared.map fun x => 16 - x.2).sum + 16 * (empty.length - whole)
  if empty.length < whole ∨ room < rest then none
  else some (empty.take whole, spare.map fun j => (j, 16 - ((shared.find? fun x => x.1 == j).map (·.2)).getD 0))

/-- Does a core meet a need, with the storage that is free and that of the cohorts taken as gone? -/
def State.fits (s : State) (core : Nat) (n : Need) (gone : List Nat) (now : Bool) : Bool :=
  let has := coreHas core
  n.within has && decide (n.waves ≤ (s.freeSlots core gone).length) && decide (s.vrfUsed core gone + n.vrf ≤ has.vrf) &&
  (pickSegments (s.segmentsOf core gone now) n.scratch).isSome && (lowestGap has.ob n.ob (s.obBusy core gone)).isSome &&
  (lowestGap has.acc n.acc (s.accBusy core gone)).isSome && decide (s.planesUsed core gone + n.planes ≤ has.planes) &&
  (n.ob == 0 || decide (s.recordsUsed core gone + 16 ≤ 64))

/-- The compute cores of a die on which a cohort may begin, and the cores it takes there. -/
def coreChoices (trust paired : Bool) : List (List Nat) :=
  if trust then [[160]]
  else [0, 1, 2, 3].flatMap fun d =>
    if paired then (List.range 80).map fun j => [d * 161 + 2 * j, d * 161 + 2 * j + 1] else (List.range 160).map fun j => [d * 161 + j]

/-! ### Reading a ring (R336) -/

/-- The scheduler works: SCHEDCTL.EN, and the package has booted (R350, R399, R400). -/
def State.schedules (s : State) : Bool := s.sched.en && s.trust.stage == 3
/-- Fields of a queue's configuration; the trust queue is world 0's (R401). -/
def Queue.enabled (q : Queue) : Bool := q.cfg.getLsbD 0
def Queue.asid (q : Queue) : Nat := fld q.cfg.toNat 27 16
def Queue.world (q : Queue) (num : Nat) : Nat := if num = 256 then 0 else fld q.cfg.toNat 35 28
def Queue.who (q : Queue) (num : Nat) : Who := if num = 256 then .trust else .world (q.world num)

/-- A bell makes the front end read TAIL, if the queue is enabled (R335). -/
def State.ringBell (s : State) (q : Nat) : State := if (s.queue q).enabled then s.updQueue q fun x => { x with bell := true } else s

/-- TASK_DOORBELL (R335, R336). -/
def execTaskDoorbell (queue : Nat) (s : State) : Host.Outcome State Fault Refusal :=
  .next (if queue < 256 then s.ringBell queue else s)

/-- Is the address space of a queue usable on a die (R26, R44)? -/
def State.dieServes (s : State) (die asid world : Nat) : Bool :=
  let e := asEntry s die asid
  asEnabled s die && asValid e && asReserved e && asWorld e == world

/-- Does some die that could run a task serve its address space? Where none does the task can never place (R26, R339). -/
def State.served (s : State) (t : Task) : Bool := (if t.queue = 256 then [0] else [0, 1, 2, 3]).any fun h => s.dieServes h t.asid t.world

/-- Reads a table of `n` entries of `size` bytes for a task. -/
def State.readTable (s : State) (t : Task) (va n size : Nat) : Option (List Nat) × State :=
  match engineRead (queueDie t.queue) t.asid t.world t.who 0 4 s va (n * size) with
  | .ok bs s => (some ((List.range n).map fun i => leNat ((bs.drop (i * size)).take size)), s)
  | r => (none, r.after)

/-- The checks at ARRIVED (R337 to R340): the status of a task that fails, or its tables. -/
def State.checkTask (s : State) (t : Task) : Sum Nat (List Nat × List Nat) × State :=
  let d := t.desc
  let trust := t.queue == 256
  if descMalformed d t.world trust then (.inl 1, s)
  else if !(needOf d).within (coreHas (if trust then 160 else 0)) || !s.served t then (.inl 2, s)
  else match s.readTable t (fld d 383 320) (descNdep d) 16 with
  | (none, s) => (.inl 3, s)
  | (some deps, s) =>
    match s.readTable t (fld d 447 384) (descNws d) 32 with
    | (none, s) => (.inl 3, s)
    | (some ws, s) => if deps.any (fun e => fld e 63 0 % 8 != 0) || ws.any (wsMalformed d) then (.inl 1, s) else (.inr (deps, ws), s)

/-- Reads dependence words that are not yet satisfied (R341). None: a word cannot be read. -/
def readDeps (t : Task) : List Nat → State → Option (List Nat) × State
  | [], s => (some [], s)
  | i :: is, s =>
    let e := nth 0 t.deps i
    if fld e 127 64 = 0 then let r := readDeps t is s
      (r.1.map fun l => i :: l, r.2)
    else match engineXlate s (queueDie t.queue) t.asid t.world t.who (fld e 63 0) 0 with
      | .ok pa _ s' =>
        if s'.poisoned pa 8 then (none, s')
        else
          let hit := !s'.readHeld pa 8 none && decide (fld e 127 64 ≤ s'.read pa 8)
          let r := readDeps t is s'
          (r.1.map fun l => if hit then i :: l else l, r.2)
      | r => (none, r.after)

/-- The front end reads a waiting task's dependence words again; a word that cannot be read ends the task with status 3. -/
def State.pollDeps (s : State) (id : Nat) : State :=
  match s.task id with
  | none => s
  | some t =>
    if t.stage ≠ .waiting then s
    else
      let left := (List.range t.deps.length).filter fun i => !t.depsOk.contains i
      match readDeps t left s with
      | (none, s) => s.cancelTask id 3
      | (some ok, s) => s.updTask id fun t => { t with depsOk := t.depsOk ++ ok }

/-- A task read from a ring, after task `prev`. -/
def Task.arrived (id queue slotN : Nat) (slotVa : DWord) (desc asid world disp order clock prev : Nat) : Task :=
  { id := id, queue := queue, slotN := slotN, slotVa := slotVa, desc := desc, asid := asid, world := world, disp := disp,
    stage := .arrived, status := 0, entered := clock, fitHeld := none, deps := [], depsOk := [], wset := [], demand := false,
    charge := [], placed := [], retired := 0, runTotal := 0, saved := [], saving := false, held := false, order := order, prev := prev }

/-- The ring of a queue fails at a step (R336). -/
def State.ringFault (s : State) (q : Nat) : State := s.updQueue q fun x => { x with ringf := true, bell := false }

/-- A descriptor that has been read becomes a task: its dispatch number (R450), then the checks and WAITING. -/
def State.newTask (s : State) (q head slot desc : Nat) : State :=
  let x := s.queue q
  let (id, s) := s.fresh
  let disp := s.sched.nextDisp
  let t := Task.arrived id q head (BitVec.ofNat 64 slot) desc x.asid (x.world q) disp s.sched.order s.clock x.lastTask
  let s := { s with sched := { s.sched with
    tasks := s.sched.tasks ++ [t], order := s.sched.order + 1, lastRead := some (s.clock, queueDie q), nextDisp := if disp = 2 ^ 32 - 1 then 1 else disp + 1 } }
  let s := s.updQueue q fun x => { x with
    slots := x.slots ++ [{ n := head, ended := false, ring := x.ringVa, asid := x.asid, world := x.world q, task := id }], lastTask := id }
  match s.checkTask t with
  | (.inl status, s) => s.cancelTask id status
  | (.inr (deps, ws), s) =>
    (s.updTask id fun t => { t with stage := .waiting, deps := deps, wset := ws }).pollDeps id

/-- Has a front end of a higher die read a task in this clock? The reads of one clock go by ascending die (R450). -/
def State.readOutOfTurn (s : State) (die : Nat) : Bool := s.sched.lastRead.any fun r => r.1 == s.clock && decide (die < r.2)

/-- TASK_READ (R336, R340): the front end reads TAIL and HEAD and the next slot, writes HEAD + 1, and checks the descriptor. -/
def execTaskRead (queue : Nat) (s : State) : Host.Outcome State Fault Refusal :=
  let q := s.queue queue
  if queue > 256 ∨ !q.bell ∨ !q.enabled ∨ !s.schedules ∨ s.worldStopped (q.world queue) ∨ 4096 ≤ s.sched.tasks.length ∨
      s.readOutOfTurn (queueDie queue) then .next s
  else
    let die := queueDie queue
    let rd := fun (s : State) (va n : Nat) => engineRead die q.asid (q.world queue) (q.who queue) 0 2 s (va % 2 ^ 64) n
    match rd s q.ringVa 8 with
    | .ok tail s =>
      match rd s (q.ringVa + 64) 8 with
      | .ok head s =>
        let head := leNat head
        if leNat tail ≤ head then .next (s.updQueue queue fun x => { x with bell := false })
        else
          let slot := (q.ringVa + 128 + 128 * (head % q.slotCount queue)) % 2 ^ 64
          match rd s slot 128 with
          | .ok d s =>
            match engineXlate s die q.asid (q.world queue) (q.who queue) ((q.ringVa + 64) % 2 ^ 64) 1 with
            | .ok pa _ s => .next ((s.writeHome pa (natLe 8 (head + 1))).newTask queue head slot (leNat d))
            | r => .next (r.after.ringFault queue)
          | r => .next (r.after.ringFault queue)
      | r => .next (r.after.ringFault queue)
    | r => .next (r.after.ringFault queue)

/-- DEPENDENCE_POLL (R341). -/
def execDependencePoll (task : Nat) (s : State) : Host.Outcome State Fault Refusal := .next (s.pollDeps task)

/-! ### Admission (R343) -/

/-- Every dependence is satisfied, and a SERIAL task's predecessor in its queue, the task read before it, has ended. -/
def State.eligible (s : State) (t : Task) : Bool :=
  t.stage == .waiting && (List.range t.deps.length).all t.depsOk.contains &&
  (!descSerial t.desc || !s.sched.tasks.any fun x => x.id == t.prev)

/-- The cohorts of a core whose predicted remaining time is 2 ms or less. -/
def State.leavingSoon (s : State) (core : Nat) : List Nat :=
  ((s.residents core []).filter fun c => match s.task c.2.task with
    | some t => t.retired != 0 && decide (t.runTotal / t.retired - (s.clock - c.2.started) ≤ usClocks 2000)
    | none => false).map (·.1)

/-- The fit condition (R343): free storage on some core or pair, or with what cohorts about to leave hold there. -/
def State.fitHolds (s : State) (t : Task) : Bool :=
  let n := needOf t.desc
  (coreChoices (t.queue == 256) (descPaired t.desc)).any fun cs => match cs with
    | [] => false
    | c :: _ => s.dieServes (dieOf c) t.asid t.world &&
      (cs.all (fun c => s.fits c n [] false) || cs.all fun c => s.fits c n (s.leavingSoon c) false)

/-- Physical address and bytes of a range's part in each page; pages without a translation count nowhere (R343). -/
def State.rangePages (t : Task) : Nat → Nat → Nat → State → List (Nat × Nat) × State
  | 0, _, _, s => ([], s)
  | fuel + 1, va, len, s =>
    if len = 0 then ([], s) else
    let n := min len (65536 - va % 65536)
    let rest := State.rangePages t fuel ((va + n) % 2 ^ 64) (len - n)
    match engineXlate s (queueDie t.queue) t.asid t.world t.who va 0 with
    | .ok pa _ s => let r := rest s
      ((pa, n) :: r.1, r.2)
    | r => rest r.after

/-- The same for several ranges, each with its address and length. -/
def State.rangesPages (t : Task) : List (Nat × Nat) → State → List (Nat × Nat) × State
  | [], s => ([], s)
  | x :: xs, s =>
    let r := State.rangePages t (x.2 / 65536 + 2) x.1 x.2 s
    let rs := State.rangesPages t xs r.2
    (r.1 ++ rs.1, rs.2)

/-- What parts of ranges weigh on a die that homes them. -/
def homedOn (ps : List (Nat × Nat)) (weight : Nat → Nat → Nat) (h : Nat) : Nat :=
  (ps.filter fun p => homeDie p.1 == h).foldl (fun a p => a + weight p.1 p.2) 0

/-- need(h) of a task for every die h: the bytes of the lines of its L2 ranges (R343). -/
def State.l2Needs (s : State) (t : Task) : List (Nat × Nat) × State :=
  let r := State.rangesPages t ((t.wset.filter fun e => !wsScratch e).map fun e => (wsAddr e, wsLen e)) s
  ([0, 1, 2, 3].map fun h => (h, homedOn r.1 (fun pa n => 64 * (unitsOf 64 pa n).length) h), r.2)

/-- The staging reserve of a die (R75, R343). -/
def State.reserve (s : State) (h : Nat) : Nat := min 4 ((s.die h).l2.stgres % 8) * 50331648

/-- The L2 ranges of a task. -/
def Task.l2Ranges (t : Task) : List Nat := (List.range t.wset.length).filter fun i => !wsScratch (nth 0 t.wset i)

/-- A staging copy not yet begun. -/
def Staging.start (id task range va len soff die : Nat) (cohort : Option Nat) : Staging :=
  { id := id, task := task, cohort := cohort, range := range, va := va, len := len, soff := soff, done := 0, die := die,
    parked := false, demandClass := false }

/-- Queues a staging copy. -/
def State.addStaging (s : State) (x : Staging) : State :=
  let (id, s) := s.fresh
  { s with sched := { s.sched with staging := s.sched.staging ++ [{ x with id := id }] } }

/-- From ADMITTED (R340): L2 ranges are staged, by each die the lines that it homes (R344), or the task is READY. -/
def State.leaveAdmitted (s : State) (id : Nat) : State :=
  match s.task id with
  | none => s
  | some t =>
    let rs := t.l2Ranges
    if t.demand ∨ rs.isEmpty then s.updTask id fun t => { t with stage := .ready, entered := s.clock }
    else
      let s := s.updTask id fun t => { t with stage := .staging, entered := s.clock }
      rs.foldl (fun s i =>
        let e := nth 0 t.wset i
        [0, 1, 2, 3].foldl (fun s d => s.addStaging (Staging.start 0 id i (wsAddr e) (wsLen e) 0 d none)) s) s

/-- ADMISSION_TEST (R343): a task that fits is admitted after those before it, with its charge or in demand mode. One whose address space
no die serves any more completes with status 2 (R26). -/
def execAdmissionTest (task : Nat) (s : State) : Host.Outcome State Fault Refusal :=
  match s.task task with
  | none => .next s
  | some t =>
    if !s.eligible t ∨ s.worldStopped t.world then .next s
    else if !s.served t then .next (s.cancelTask task 2)
    else if !s.fitHolds t then .next (s.updTask task fun t => { t with fitHeld := some (t.fitHeld.getD s.clock) })
    else
    let s := s.updTask task fun t => { t with fitHeld := none }
    if s.sched.tasks.any fun x => (decide (descPrio t.desc < descPrio x.desc) || (descPrio x.desc == descPrio t.desc && decide (x.order < t.order))) &&
        s.eligible x && s.fitHolds x then .next s
    else
      let (needs, s) := s.l2Needs t
      let room := needs.all fun x => decide ((s.die x.1).promised + x.2 ≤ s.reserve x.1)
      let s := if room then
          needs.foldl (fun s x => if x.2 = 0 then s else s.updDie x.1 fun d => { d with promised := d.promised + x.2 })
            (s.updTask task fun t => { t with charge := needs.filter fun x => x.2 != 0 })
        else { s with sched := { s.sched with dem := (s.sched.dem + 1) % 2 ^ 32 } }
      let n := s.sched.order
      let s := { s with sched := { s.sched with order := n + 1 } }
      .next ((s.updTask task fun t => { t with stage := .admitted, demand := !room, admitted := n }).leaveAdmitted task)

/-! ### Staging (R42, R344, R346) -/

/-- A staging copy has ended; with the last L2 copy a STAGING task is READY. -/
def State.endStaging (s : State) (x : Staging) : State :=
  let s := { s with sched := { s.sched with staging := s.sched.staging.filter fun y => y.id != x.id } }
  if s.sched.staging.any fun y => y.task == x.task && y.cohort.isNone then s
  else s.updTask x.task fun t => if t.stage = .staging then { t with stage := .ready, entered := s.clock } else t

def State.updStaging (s : State) (id : Nat) (f : Staging → Staging) : State :=
  { s with sched := { s.sched with staging := updFirst (fun x => x.id == id) f s.sched.staging } }

/-- A dropped range counts in TSSTGDROP of the die whose service met the fault (a choice, log 75). -/
def State.countDrop (s : State) (die : Nat) : State := s.updTs die fun ts => { ts with stgdrop := (ts.stgdrop + 1) % 2 ^ 32 }

/-- Does a task's staging still protect lines (R76)? -/
def Task.protects (t : Task) : Bool := t.stage == .staging || t.stage == .ready || t.stage == .placing

/-- Does a staging copy of a die go before another (R338, R344): SCRATCH ranges in order of placement, then L2 ranges by SPRIO, PRIO and
order of admission, a task's write-intent ranges after its read-intent ranges of the same SPRIO? -/
def State.goesBefore (s : State) (y x : Staging) : Bool :=
  match y.cohort, x.cohort with
  | some _, none => true
  | none, some _ => false
  | some _, some _ => decide (y.id < x.id)
  | none, none =>
    match s.task y.task, s.task x.task with
    | some a, some b =>
      let e := nth 0 a.wset y.range
      let f := nth 0 b.wset x.range
      let key := fun (t : Task) (e : Nat) => 8 * fld e 163 162 + descPrio t.desc
      decide (key b f < key a e) || (key a e == key b f &&
        (decide (a.admitted < b.admitted) || (a.admitted == b.admitted && (decide (b2n (bit e 161) < b2n (bit f 161)) || (bit e 161 == bit f 161 && decide (y.id < x.id))))))
    | _, _ => false

/-- Is it a copy's turn among those of its die that can go on? A copy in the demand class (R42) has no turn to wait for. A write-intent
range waits for its task's read-intent ranges of the same SPRIO on every die. -/
def State.stagingTurn (s : State) (x : Staging) : Bool :=
  let intent := fun (y : Staging) => match s.task y.task with
    | some t => (fld (nth 0 t.wset y.range) 163 162, bit (nth 0 t.wset y.range) 161)
    | none => (0, false)
  x.demandClass || s.sched.staging.all fun y =>
    let waits := y.parked || y.demandClass || (s.task y.task).any fun t => s.worldStopped t.world
    (y.die != x.die || waits || !s.goesBefore y x) &&
    !(y.task == x.task && y.cohort.isNone && x.cohort.isNone && (intent x).2 && !(intent y).2 && (intent y).1 == (intent x).1)

/-- Distinct protected lines in the set of a line (R76, R77); which lines share a set is free (log 35). -/
def State.protectedBeside (s : State) (pa : Nat) : Nat :=
  let set := fun (line : Nat) => (homeSlice (line * 64), Config.l2Set line % 6144)
  ((((s.die (homeDie pa)).l2.prot.map (·.1)).eraseDups).filter fun l => l != pa / 64 && set l == set (pa / 64)).length

/-- L2_STAGING_FILL (R42, R77, R344): the next line of the range (`line` counts from its first), if the copy's die homes it, is protected
at its home slice, or left to demand when protected lines hold every reserve way of its set. The source is read, so R is checked, for a
write-intent range too (a choice, log 75). A fault drops the range, on every die, and counts in the service that met it (a choice, log
75). -/
def execL2StagingFill (copy line : Nat) (s : State) : Host.Outcome State Fault Refusal :=
  match s.sched.staging.find? fun x => x.id == copy with
  | none => .next s
  | some x =>
    match s.task x.task with
    | none => .next s
    | some t =>
      let at_ := if line = 0 then 0 else 64 * line - x.va % 64
      if x.cohort.isSome ∨ x.done ≠ at_ ∨ s.worldStopped t.world ∨ !s.stagingTurn x ∨ !s.groupTurn x.die false then .next s
      else
        let s := s.noteTurn x.die false
        let va := (x.va + x.done) % 2 ^ 64
        let n := min (x.len - x.done) (64 - va % 64)
        match engineXlate s x.die t.asid t.world t.who va 0 with
        | .ok pa _ s =>
          let h := homeDie pa
          let full := decide (min 4 ((s.die h).l2.stgres % 8) ≤ s.protectedBeside pa) && !(s.die h).l2.prot.any fun p => p.1 == pa / 64
          let s := if h ≠ x.die then s
            else if full then s.updL2 h fun l => { l with stgdrop := (l.stgdrop + 1) % 2 ^ 32 }
            else if t.protects then s.updL2 h fun l => { l with prot := if l.prot.contains (pa / 64, t.id) then l.prot else l.prot ++ [(pa / 64, t.id)] }
            else s
          .next (if x.done + n < x.len then s.updStaging copy fun y => { y with done := x.done + n } else s.endStaging x)
        | r =>
          let s := r.after.countDrop x.die
          .next ((s.sched.staging.filter fun y => y.task == x.task && y.range == x.range && y.cohort.isNone).foldl State.endStaging s)

/-- STAGING_TIMEOUT (R340): after STAGELIM a task in STAGING is READY; its copies go on. -/
def execStagingTimeout (task : Nat) (s : State) : Host.Outcome State Fault Refusal :=
  match s.task task with
  | none => .next s
  | some t =>
    if t.stage = .staging ∧ t.entered + usClocks (max 1 s.sched.stagelim) ≤ s.clock then
      .next (s.updTask task fun t => { t with stage := .ready, entered := s.clock })
    else .next s

/-- Bytes land in the scratchpad (R346, R348): a line becomes FULL, and is pending no more, when the range's part of it has landed (R59). A
restored range passes over the lines that were not pending. -/
def landBytes (x : Staging) (k : Cohort) (bs : List Byte) : Cohort :=
  let a := x.soff + x.done
  let lines := (linesOf a bs.length).filter fun l => !x.skip.contains l
  let k := lines.foldl (fun k l =>
    let lo := max a (128 * l)
    let hi := min (a + bs.length) (128 * l + 128)
    k.scratchWrite lo ((bs.drop (lo - a)).take (hi - lo))) k
  let whole := lines.filter fun l => decide (min (x.soff + x.len) (128 * l + 128) ≤ a + bs.length)
  let k := whole.foldl Cohort.fillLine k
  { k with stagePend := k.stagePend.filter fun l => !whole.contains l }

/-- A fault of a SCRATCH copy (R42): first the range is dropped and copied again in the demand class; then the fault is queued with
SOURCE 5, or, for a kind that is never queued, fails the copy. -/
def State.stagingFault (s : State) (x : Staging) (t : Task) (f : TrFault) : State :=
  if !x.demandClass then (s.countDrop x.die).updStaging x.id fun y => { y with demandClass := true }
  else if directKind f.kind ∨ 100 ≤ f.kind then s.failStaging x.id f
  else queueFault s x.die f t.asid (.staging x.id)

/-- STAGING_LANDING (R346): the next bytes of a SCRATCH range land, at most those named. -/
def execStagingLanding (copy bytes : Nat) (s : State) : Host.Outcome State Fault Refusal :=
  match s.sched.staging.find? fun x => x.id == copy with
  | none => .next s
  | some x =>
    match s.task x.task, x.cohort with
    | some t, some cid =>
      match s.cohort cid with
      | none => .next s
      | some k =>
        let va := (x.va + x.done) % 2 ^ 64
        let n := min (min bytes (x.len - x.done)) (65536 - va % 65536)
        if x.parked ∨ n = 0 ∨ s.worldStopped t.world ∨ !s.stagingTurn x then .next s
        else
          let bad := fun (s : State) (kind level : Nat) => s.stagingFault x t { va := va, kind := kind, access := 0, level := level }
          match engineXlate s x.die t.asid t.world t.who va 0 with
          | .fault kind l s => .next (bad s kind l)
          | .firewall s => .next (bad s 100 0)
          | .ok pa _ s =>
            if s.poisoned pa n then .next (bad s 101 0)
            else if s.readHeld pa n none then .next s
            else
              let s := s.setCohort cid (landBytes x k (s.bytes pa n))
              .next (if x.done + n < x.len then s.updStaging copy fun y => { y with done := x.done + n } else s.endStaging x)
    | _, _ => .next s

/-! ### Storage (R46 to R48, R71) -/

/-- STORAGE_CLEAR_COMPLETE (R71): cleared storage is free. A segment that holds nothing more returns to CACHE (R46: the scheduler's
choice). With the last of a cancelled task's storage clear, the task ends (R349). -/
def execStorageClearComplete (core item : Nat) (s : State) : Host.Outcome State Fault Refusal :=
  match (s.core core).clearing.find? fun x => x.id == item with
  | none => .next s
  | some x =>
    if s.clock < x.ready then .next s
    else
    let s := s.updCore core fun c => { c with
      clearing := c.clearing.filter fun y => y.id != item,
      segs := (c.segs.map fun (g : Nat × Segment) =>
        let blocks := g.2.blocks.filter fun b => b.2 != 2 ^ 40 + item
        let clearing := blocks.any fun b => decide (2 ^ 40 ≤ b.2)
        let freed := blocks.isEmpty && !g.2.blocks.isEmpty
        (g.1, { g.2 with blocks := blocks, clearing := clearing, role := if freed then .cache else g.2.role })).filter
          fun g => g.2 != Segment.reset }
    .next (s.settleCancel x.task)

/-- May the scheduler change a segment's role (R47)? A segment converted for a placement that has not come may be given another role, or
its old one back. -/
def roleChangeOk (g : Segment) (role : Role) : Bool :=
  (g.next.isNone || g.converted) && !g.clearing && (g.role != role || g.converted) &&
  (match g.role with
   | .cache => true
   | .off => true
   | .scratch => g.blocks.isEmpty && (role == .cache || role == .off)
   | .fifo => g.blocks.isEmpty && (role == .cache || role == .off))

/-- SEGMENT_CONVERT (R47, R48): the scheduler begins a change; from now the segment takes no more lines. -/
def execSegmentConvert (core segment : Nat) (role : Role) (s : State) : Host.Outcome State Fault Refusal :=
  let g := mapGet Segment.reset (s.core core).segs segment
  if (coreHas core).scratch / 131072 ≤ segment ∨ !roleChangeOk g role then .next s
  else
    .next (s.updSegment core segment fun g => { g with
      next := some role, ready := if g.role = .off then s.clock + 2000 else s.clock, converted := false })

/-- SEGMENT_CONVERSION_COMPLETE (R47, R48): the lines of the segment's way are invalid, and the new role of a scheduler's change serves: as
CACHE or OFF at once, as SCRATCH or FIFO with the cohort that takes it. SEGCFG's changes complete with their command. -/
def execSegmentConversionComplete (core segment : Nat) (s : State) : Host.Outcome State Fault Refusal :=
  let g := mapGet Segment.reset (s.core core).segs segment
  if !g.blocks.isEmpty ∨ s.clock < g.ready then .next s
  else .next (match g.next with
    | some r =>
      (s.updCore core fun c => { c with l1 := c.l1.filter fun x => x.way != segment }).updSegment core segment fun g =>
        if r == .cache || r == .off then { g with role := r, next := none, converted := false } else { g with converted := true }
    | none => s)

/-! ### Placement (R347) -/

/-- Gives a cohort its segments on one core; its whole segments are returned. -/
def State.giveSegments (s : State) (core cid bytes : Nat) : State × List Nat :=
  match pickSegments (s.segmentsOf core [] true) bytes with
  | none => (s, [])
  | some (whole, spare) =>
    let take := fun (s : State) (j : Nat) (n : Nat) => s.updSegment core j fun g =>
      let free := (List.range 16).filter fun b => !g.blocks.any fun x => x.1 == b
      { g with role := .scratch, next := none, converted := false, blocks := g.blocks ++ (free.take n).map fun b => (b, cid) }
    let s := whole.foldl (fun s j => take s j 16) s
    let r := spare.foldl (fun (r : State × Nat) x => if r.2 = 0 then r else (take r.1 x.1 (min x.2 r.2), r.2 - min x.2 r.2))
      (s, (bytes % 131072 + 8191) / 8192)
    (r.1, whole)

/-- The cores of a placement at `core`: a compute core, an even core with its pair, or the trust core for the trust queue (R19). -/
def placeCores (t : Task) (core : Nat) : Option (List Nat) :=
  if t.queue = 256 then if core = 160 then some [160] else none
  else if 4 * 161 ≤ core ∨ coreIdOf core = 160 then none
  else if !descPaired t.desc then some [core]
  else if coreIdOf core % 2 = 0 then some [core, core + 1] else none

/-- Can a cohort of a task be placed at a core now? -/
def State.canPlace (s : State) (t : Task) (core : Nat) : Option (List Nat) :=
  (placeCores t core).bind fun cs =>
    if s.schedules && !s.power.stopped && !s.worldStopped t.world && (t.stage == .ready || t.stage == .placing) && !t.held && !t.saving && s.dieServes (dieOf core) t.asid t.world &&
      cs.all (fun c => s.fits c (needOf t.desc) [] true) then some cs else none

/-- A cohort with its storage on its cores (R54, R64, R68). -/
def State.allocate (s : State) (cid : Nat) (t : Task) (k : Cohort) (cs : List Nat) : State × Cohort :=
  let n := needOf t.desc
  let core := cs.headD 0
  let r := (cs.zipIdx).foldl (fun (r : State × List Nat) c =>
    let g := r.1.giveSegments c.1 cid n.scratch
    (g.1, r.2 ++ g.2.map fun j => c.2 * 16 + j)) (s, [])
  let gap := fun (cap n : Nat) (busy : List (Nat × Nat)) => (lowestGap cap n busy).getD 0
  (r.1, { k with
    core := core, segs := r.2, obBytes := n.ob, accRows := n.acc, planes := n.planes, scratchSize := n.scratch * cs.length,
    obBase := cs.map fun c => gap (coreHas core).ob n.ob (s.obBusy c []),
    accBase := cs.map fun c => gap (coreHas core).acc n.acc (s.accBusy c []) })

/-- The SCRATCH ranges of a task as copies into a cohort (R338, R346). -/
def State.stageScratch (s : State) (t : Task) (cid index die : Nat) : State :=
  ((List.range t.wset.length).filter fun i => wsScratch (nth 0 t.wset i)).foldl (fun s i =>
    let e := nth 0 t.wset i
    s.addStaging (Staging.start 0 t.id i (wsSource e index) (wsLen e) (wsOff e) die (some cid))) s

/-- The lines that a task's SCRATCH ranges cover. -/
def Task.stagedLines (t : Task) : List Nat :=
  ((t.wset.filter wsScratch).flatMap fun e => linesOf (wsOff e) (wsLen e)).foldl (fun l x => insNat x l) []

/-- The waves of a cohort take slots and start (R155, R157). -/
def State.placeWaves (s : State) (cid : Nat) (t : Task) (cs : List Nat) : State × List Nat :=
  let per := (needOf t.desc).waves
  let start := fun (r : State × List Nat) (c : Nat × Nat) =>
    ((r.1.freeSlots c.1 []).take per).zipIdx.foldl (fun (r : State × List Nat) x =>
      let (u, s) := r.1.fresh
      (s.setWave u (Wave.placed c.1 x.1 cid (c.2 * per + x.2) (descK t.desc) (descVr t.desc) (BitVec.ofNat 64 (descCode t.desc))
        t.slotVa (BitVec.ofNat 64 (descTrap t.desc))), r.2 ++ [u])) r
  (cs.zipIdx).foldl start (s, [])

/-- After a placement: with the last cohort the task is RUNNING and the protection of its lines ends (R76, R340). -/
def State.afterPlacement (s : State) (id : Nat) : State :=
  match s.task id with
  | none => s
  | some t =>
    if t.saved.isEmpty ∧ descTotal t.desc ≤ t.placed.length then
      (s.endProtection t).updTask id fun t => { t with stage := .running, entered := s.clock }
    else s.updTask id fun t => { t with stage := .placing }

/-- The lowest of the dies that fit a cohort and home the most of its SCRATCH source bytes (R347). -/
def State.chosenDie (s : State) (t : Task) (index : Nat) : Option Nat × State :=
  let r := State.rangesPages t ((t.wset.filter wsScratch).map fun e => (wsSource e index, wsLen e)) s
  let s := r.2
  let fit := [0, 1, 2, 3].filter fun d => s.dieServes d t.asid t.world && (coreChoices (t.queue == 256) (descPaired t.desc)).any fun cs =>
    dieOf (cs.headD 0) == d && (s.canPlace t (cs.headD 0)).isSome
  (fit.foldl (fun (m : Option Nat) d => match m with
    | some b => if homedOn r.1 (fun _ n => n) b < homedOn r.1 (fun _ n => n) d then some d else some b
    | none => some d) none, s)

/-- The residency score of a cohort (R347), as lines present at their home slices out of all source lines of its SCRATCH ranges. A protected
line is present; which others are is free (log 61). -/
def State.score (s : State) (t : Task) (index : Nat) : (Nat × Nat) × State :=
  let r := State.rangesPages t ((t.wset.filter wsScratch).map fun e => (wsSource e index, wsLen e)) s
  let lines := r.1.flatMap fun p => unitsOf 64 p.1 p.2
  let here := fun (l : Nat) => ((r.2.die (homeDie (l * 64))).l2.prot.any fun x => x.1 == l) || Config.present s.free l
  ((lines.countP here, lines.length), r.2)

/-- Of cohorts in ascending order of index the one with the highest score, the lowest on a tie (R347). Without SCRATCH ranges every score is 0. -/
def State.highest (s : State) (t : Task) : List Nat → Option Nat × State
  | [] => (none, s)
  | i :: is =>
    if is.isEmpty || !t.wset.any wsScratch then (some i, s) else
    let (a, s1) := s.score t i
    let (j, s2) := s1.highest t is
    match j with
    | none => (some i, s2)
    | some j =>
      let (b, s3) := s2.score t j
      (some (if a.1 * max b.2 1 < b.1 * max a.2 1 then j else i), s3)

/-- The cohort of a task that places next (R347, R348): a saved one before any that has not run. -/
def State.nextCohort (s : State) (t : Task) : Option Nat × State :=
  if t.saved.isEmpty then s.highest t ((List.range (descTotal t.desc)).filter fun i => !t.placed.contains i)
  else s.highest t ((List.range (descTotal t.desc)).filter fun i => t.saved.any fun x => x.cohort.index == i)

/-- COHORT_PLACE (R58, R347): saved cohorts go first (R348); a task whose address space no die serves any more completes with status 2
(R26), also one of which some cohorts have been placed or saved (log 87). -/
def execCohortPlace (task index core : Nat) (s : State) : Host.Outcome State Fault Refusal :=
  match s.task task with
  | none => .next s
  | some t =>
    if (t.stage = .ready ∨ t.stage = .placing) ∧ !s.served t then .next (s.cancelTask task 2) else
    match s.canPlace t core with
    | none => .next s
    | some cs =>
      let (next, s) := s.nextCohort t
      let (die, s) := s.chosenDie t index
      if !t.saved.isEmpty ∨ next ≠ some index ∨ die ≠ some (dieOf core) then .next s
      else
        let s := { s with free := s.free + 1 }
        let (cid, s) := s.fresh
        let (x, y, _) := descDims t.desc
        let lines := t.stagedLines
        let k : Cohort := { Cohort.blank task index t.world t.asid core with
          paired := descPaired t.desc, nwaves := descWaves t.desc, cx := index % x, cy := index / x % y, cz := index / (x * y),
          empty := lines, stagePend := lines, mx := List.replicate (descCores t.desc) Matrix.clear, started := s.clock }
        let (s, k) := s.allocate cid t k cs
        let (s, us) := s.placeWaves cid t cs
        let s := s.setCohort cid { k with waves := us }
        let s := cs.foldl (fun s c => s.acquire c) s
        let s := s.stageScratch t cid index (dieOf core)
        .next ((s.updTask task fun t => { t with placed := insNat index t.placed }).afterPlacement task)

/-- A copy command that waits at EMPTY lines of its cohort, none of which anyone is left to fill (R59). -/
def CopyCmd.starved (k : Cohort) (c : CopyCmd) : Bool :=
  let t := tileOf (leNat (c.rec_.take 64))
  let waits := fun (i : Nat) => (linesOf (t.srcAddr i) t.e).any k.empty.contains
  t.ssp && (if c.kind = 3 then (List.range t.count).any waits else (List.range t.count).all fun i => c.done.contains i || waits i)

/-- Is a cohort's task cancelled, so that its cohorts are aborted (R349)? -/
def State.aborted (s : State) (k : Cohort) : Bool := match s.task k.task with
  | some t => t.stage == .cancelled
  | none => true

/-- Does a copy command keep a cohort's storage (R165, R349)? In an aborted cohort every command of its waves does, but one that nobody is
left to feed. -/
def State.storageHeld (s : State) (cid : Nat) (k : Cohort) : Bool :=
  s.sched.copies.any fun c => c.cohort == cid && (if s.aborted k then c.trigger.isNone && !c.starved k else c.usesScratch)

/-- The waves of a cohort have come to their end: they have ended and drained (R165), or were stopped by a cancel and their stores have
drained and their engine and remote operations are done (R349). -/
def State.cohortOver (s : State) (cid : Nat) (k : Cohort) : Bool :=
  if s.aborted k then
    (k.waves.all fun u => (k.cores.all fun c => s.drained c u) && s.remoteDone u) && !k.cores.any fun c => (s.core c).queue.any fun m => m.cohort == cid
  else decide (k.nwaves ≤ k.ended.length)

/-- A task whose last resident cohort was saved, or retired while others were saved, is ADMITTED again (R340, R348). -/
def State.endSaving (s : State) (id : Nat) : State :=
  if s.cohorts.any fun c => c.2.task == id then s
  else (s.updTask id fun t => { t with saving := false, stage := .admitted, entered := s.clock }).leaveAdmitted id

/-- COHORT_RETIRE (R340, R349): the cohort's waves have come to their end and no copy command uses its scratchpad any more; its storage
is given back. The last cohort ends its task with status 0, or returns one that is being saved to ADMITTED. -/
def execCohortRetire (cohort : Nat) (s : State) : Host.Outcome State Fault Refusal :=
  match s.cohort cohort with
  | none => .next s
  | some c =>
    if !s.cohortOver cohort c ∨ s.storageHeld cohort c then .next s
    else
      let s := { s with sched := { s.sched with staging := s.sched.staging.filter fun x => x.cohort != some cohort } }
      let s := s.releaseCohort cohort
      let s := s.updTask c.task fun t => { t with retired := t.retired + 1, runTotal := t.runTotal + (s.clock - c.started) }
      .next (match s.task c.task with
        | some t =>
          if t.stage = .cancelled then s.settleCancel c.task
          else if descTotal t.desc ≤ t.retired ∧ t.saved.isEmpty then s.finishTask c.task 0
          else if t.saving then s.endSaving c.task else s
        | none => s)

end Sys2Proof.Machine
end

