-- ==== Sys2Proof/Machine/Preempt.lean ====
section
/-! DEFINITION. Pre-emption, saved contexts and cancels (R348, R349, R391 to R394, R412), machine-check responses (R389, R398) and
the debug registers' steps (R398). -/

namespace Sys2Proof.Machine

/-! ### Saving (R391 to R393) -/

/-- May a wave be saved now (R168, R391): at a clause boundary or a yield point, with nothing of its own in flight but what a saved
context holds (FLOADs, R85; remote loads, R392; scratch loads that wait for an EMPTY line, R60), and with stores that can drain? -/
def State.waveSavable (s : State) (u : Nat) (w : Wave) : Bool :=
  let stopped := match w.wait with
    | .storeBuffer | .draining | .halted | .ended => false
    | .ready => !(w.clause.inside && (s.core w.core).holder == some u && w.tr.dbgctl.getLsbD 0 == false)
    | _ => true
  stopped && w.late.all (fun l => match l.kind with
    | .future | .remote _ => true
    | .scratch => l.vals.isEmpty && (s.cohort w.cohort).any fun c => l.lanes.any fun a => c.empty.contains (a.addr / 128)
    | _ => false) && w.entering.isEmpty && s.drainable w.core u

/-- Does a wave need an entry of the timeline keeper (R392)? -/
def Wave.needsKeeper (w : Wave) : Bool :=
  w.tls.any (fun t => decide (t.value < t.batches)) || w.late.any fun l => match l.kind with
    | .remote _ => l.vals.isEmpty
    | _ => false

/-- An FLOAD as a saved context holds it (R85): its unanswered lanes are withdrawn, to be translated and sent again on resumption. -/
def Late.withdrawn (l : Late) : Late :=
  if l.kind ≠ .future then l
  else { l with
    refused := [], refusals := 0, until_ := 0,
    stale := (l.lanes.map (·.lane)).filter fun i => !l.vals.any fun v => v.1 == i }

/-- The progress that a wave's instruction keeps over a save: none of one whose result an engine was computing (a signing, R332; a
surrogate, R355), which executes again. -/
def Wave.savedProgress (w : Wave) : Progress :=
  match w.wait with
  | .service _ _ | .machineCheck _ _ | .machineCheckQueue _ => w.prog
  | .surrogate _ | .nap _ | .trapDrain => Progress.none
  | _ => if w.prog.data.isEmpty then w.prog else Progress.none

/-- A wave as its saved context holds it: a group ends doomed (R90), a NAP is over (R242), and what it waited for is asked again on
resumption, but for answers that are still to come and a trap that waits for late results (R378). -/
def Wave.toSave (w : Wave) (keeper : Option Nat) : Wave :=
  { w.doom 4 with
    wait := match w.wait with
      | .service d t => .service d t
      | .machineCheck d t => .machineCheck d t
      | .machineCheckQueue d => .machineCheckQueue d
      | .trapDrain => .trapDrain
      | _ => .yielded,
    late := w.late.map Late.withdrawn, prog := w.savedProgress,
    clause := { w.clause with words := [] },
    pend := if w.wait = .trapDrain then w.pend else none, xl := [], xfail := [], preemptible := false, keeper := keeper }

/-- Gives keeper entries to waves that need one. -/
def State.giveKeepers (s : State) (die : Nat) : List (Nat × Wave) → State × List (Nat × Wave)
  | [] => (s, [])
  | (u, w) :: ws =>
    if w.needsKeeper then
      let k := freshNumber ((s.die die).keeper.map (·.1))
      let r := (s.updDie die fun d => { d with keeper := d.keeper ++ [(k, u)] }).giveKeepers die ws
      (r.1, (u, w.toSave (some (die * 1024 + k))) :: r.2)
    else
      let r := s.giveKeepers die ws
      (r.1, (u, w.toSave none) :: r.2)

/-- Bytes that the image of a cohort takes in the pool (R393, R412). -/
def storedBytes (k : Cohort) (w : Wave) : Nat :=
  let core := k.halfSize + k.halfSize / 512 + (if k.obBytes = 0 then 0 else k.obBytes + 256) + 128 * k.accRows + 20608 * k.planes
  let n := 256 + k.nwaves * waveSectionBytes w.nv w.width + (if k.paired then 2 else 1) * core + 131136 * k.fifoSegs.length
  if 2 ≤ k.world then (n + 4095) / 4096 * 4128 else n

/-- The pool page of a number (R398). -/
def Die.poolPa (d : Die) (i : Nat) : Nat := fld d.cspool.toNat 51 32 * 2 ^ 32 + 65536 * i

/-- Free pages of a save pool, the first `n` of them. -/
def Die.freePool (d : Die) (n : Nat) : Option (List Nat) :=
  let free := (List.range (min (d.cspool.toNat % 2 ^ 32) (n + d.poolUsed.length))).filter fun i => !d.poolUsed.any fun p => p.1 == i
  if free.length < n then none else some (free.take n)

/-- The live waves of a cohort. -/
def State.liveWaves (s : State) (k : Cohort) : List (Nat × Wave) :=
  k.waves.filterMap fun u => if k.ended.contains u then none else (s.wave u).map fun w => (u, w)

/-- Saves a cohort if it can be saved now: its waves stand still, its matrix commands and deferred reads are done, keeper entries and
pool pages are free. -/
def State.saveCohort (s : State) (cid : Nat) : Option State :=
  match s.cohort cid with
  | none => none
  | some k =>
    let ws := s.liveWaves k
    let die := dieOf k.core
    match s.task k.task, ws.head? with
    | some t, some (_, w) =>
      let busy := !k.marking.isEmpty || k.cores.any (fun c => (s.core c).queue.any fun m => m.cohort == cid) ||
        s.sched.copies.any fun c => c.kind == 2 && c.cohort == cid
      let keepers := ws.countP fun x => x.2.needsKeeper
      if busy || !ws.all (fun x => s.waveSavable x.1 x.2) || decide (1024 < (s.die die).keeper.length + keepers) then none
      else
        (s.die die).freePool ((storedBytes k w + 65535) / 65536) |>.map fun pages =>
          let s := ws.foldl (fun s x => s.drainWave x.2.core x.1) s
          let (s, ws) := s.giveKeepers die ws
          let s := if 2 ≤ k.world then s.setWorld k.world { s.world k.world with saves := (s.world k.world).saves + 1 } else s
          let x : Saved := { id := cid, cohort := { k with failed := [] }, waves := ws, die := die, pages := pages.map (s.die die).poolPa, bytes := 0,
                             count := (s.world k.world).saves }
          let x := { x with bytes := (x.image t.disp).length }
          let s := s.updDie die fun d => { d with poolUsed := d.poolUsed ++ pages.map fun i => (i, cid) }
          let s := (s.writeImage x t.disp).releaseCohort cid
          let s := s.updTask t.id fun t => { t with saved := t.saved ++ [x] }
          { s with sched := { s.sched with pre := (s.sched.pre + 1) % 2 ^ 32 } }
    | _, _ => none

/-- The resident cohorts of a task. -/
def State.cohortsOf (s : State) (task : Nat) : List Nat := (s.cohorts.filter fun c => c.2.task == task).map (·.1)

/-- Has each die's pool room for the images of a task's cohorts (R393)? -/
def State.poolRoom (s : State) (task : Nat) : Bool :=
  [0, 1, 2, 3].all fun d =>
    let need := ((s.cohorts.filter fun c => c.2.task == task && dieOf c.2.core == d).map fun c =>
      match (s.liveWaves c.2).head? with
      | some x => (storedBytes c.2 x.2 + 65535) / 65536
      | none => 0).sum
    decide ((s.die d).poolUsed.length + need ≤ (s.die d).cspool.toNat % 2 ^ 32)

/-- Pre-empts a task (R348): its staging stops and protection ends; its cohorts are saved as they come to stand still; with the
last one saved or retired the task is ADMITTED again. The step is made again while cohorts are still to be saved. -/
def State.preemptTask (s : State) (id : Nat) : State :=
  match s.task id with
  | none => s
  | some t =>
    let cs := s.cohortsOf id
    if !t.saving ∧ (cs.isEmpty ∨ !s.poolRoom id) then s
    else
      let s := if t.saving then s else
        ({ s with sched := { s.sched with staging := s.sched.staging.filter fun x => x.task != id } }.endProtection t).updTask id
          fun t => { t with saving := true }
      (cs.foldl (fun s c => (s.saveCohort c).getD s) s).endSaving id

/-! ### When a task is pre-empted (R176, R348, R398) -/

/-- A wave of a cohort waits for one of the conditions that R176 counts, or for a service's answer (R328). A wave that waits for late
results waits for a deferred word or, with a scratch load, for an EMPTY line. -/
def Wave.counts100 (w : Wave) (c : Option Cohort) : Bool :=
  match w.wait with
  | .scratchLine _ | .fifoFull _ | .fifoEmpty _ | .scoreboard _ _ _ | .memTimeline _ _ | .service _ _ | .serviceQueue _ => true
  | .late => w.late.any fun l => !l.deferred.isEmpty ||
      (l.kind == .scratch && c.any fun c => l.lanes.any fun a => c.empty.contains (a.addr / 128))
  | _ => false

/-- WAIT_TIMEOUT_100US (R176): a wave stopped for more than 200,000 clocks becomes pre-emptible; a pre-emptible wave's task is
pre-empted while tasks wait to place. -/
def execWaitTimeout100us (wave : Nat) (s : State) : Host.Outcome State Fault Refusal :=
  match s.wave wave with
  | none => .next s
  | some w =>
    let task := (s.cohort w.cohort).map (·.task)
    let saving := s.beingSaved w
    if !saving && !(w.counts100 (s.cohort w.cohort) && decide (w.waitSince + 200000 < s.clock)) then .next s
    else if !saving && !w.preemptible then .next (s.setWave wave { w with preemptible := true })
    else
      let queued := s.sched.tasks.any fun t => some t.id != task && (t.stage == .waiting || t.stage == .ready || t.stage == .placing)
      match task with
      | some t => .next (if saving || (s.sched.preempt && queued && (s.task t).any fun x => x.queue != 256) then s.preemptTask t else s)
      | none => .next s

/-- PREEMPT_LIMIT_EXPIRY (R348): a task that the fit condition has held in WAITING for PREEMPTLIM has a task of lower PRIO
pre-empted; tasks of the trust queue are not (R402). -/
def execPreemptLimitExpiry (task victim : Nat) (s : State) : Host.Outcome State Fault Refusal :=
  match s.task task, s.task victim with
  | some t, some v =>
    let due := s.sched.preempt && t.stage == .waiting && decide (descPrio v.desc < descPrio t.desc) && v.queue != 256 &&
      match t.fitHeld with
      | some c => decide (c + usClocks s.sched.preemptlim ≤ s.clock)
      | none => false
    .next (if v.saving || due then s.preemptTask victim else s)
  | _, _ => .next s

/-- DEBUG_STOP (R398): ignored for a confidential world. -/
def execDebugStop (dispatch : Nat) (s : State) : Host.Outcome State Fault Refusal :=
  match s.sched.tasks.find? fun t => t.disp == dispatch with
  | none => .next s
  | some t => .next (if 2 ≤ t.world then s else (s.updTask t.id fun t => { t with held := true }).preemptTask t.id)

/-- DEBUG_GO (R398). -/
def execDebugGo (dispatch : Nat) (s : State) : Host.Outcome State Fault Refusal :=
  match s.sched.tasks.find? fun t => t.disp == dispatch with
  | none => .next s
  | some t => .next (s.updTask t.id fun t => { t with held := false })

/-! ### Restoring (R394) -/

/-- The lines of an image as they are verified (R412). -/
def State.imageVerifies (s : State) (x : Saved) (disp : Nat) : Bool :=
  if x.cohort.world < 2 then true else
  let n := (x.bytes + 4095) / 4096
  unsealFrom (s.world x.cohort.world).key x.count disp x.cohort.world n n 0 (List.replicate 16 0)
    ((List.range (n * 4128)).map (s.imageByte x))

/-- A wave on its new core and slot: it waits for outstanding remote loads before it issues (R310), DBGCTL's waiting ones take
effect (R383), and its EXEC words, which an edit may have changed (R398), name lanes of LIVE only (R159). -/
def Wave.resumed (w : Wave) (core slot clock : Nat) : Wave :=
  let w := { w with
    core := core, slot := slot, waitSince := clock, tr := w.tr.applyDebug,
    late := w.late.map fun l => match l.kind with
      | .remote _ => { l with window := 0 }
      | _ => l }
  (List.range w.k).foldl (fun w j => w.setS (96 + j) (w.s (96 + j))) w

/-- The owners of a half's records follow their waves to the new slots; a wave that has ended keeps none (R67). -/
def Matrix.reowned (m : Matrix) (slots : List (Nat × Nat)) : Matrix :=
  let none_ := freshNumber (slots.map (·.2))
  let new := fun (r : Nat) => ((slots.find? fun x => x.1 == fld r 60 56).map (·.2)).getD none_
  { m with records := m.records.map fun x => (x.1, { x.2 with bits := x.2.bits - 2 ^ 56 * fld x.2.bits 60 56 + 2 ^ 56 * (new x.2.bits % 32) }) }

/-- Old and new slots of the saved waves that ran on a half. -/
def State.newSlots (s : State) (x : Saved) (half core : Nat) : List (Nat × Nat × Nat) :=
  let mine := x.waves.filter fun u => u.2.half x.cohort == half
  (mine.zip (s.freeSlots core [])).map fun p => (p.1.1, p.1.2.slot, p.2)

/-- Writes a saved cohort back on its cores. -/
def State.writeBack (s : State) (t : Task) (x : Saved) (cs : List Nat) : State :=
  let (s, k) := s.allocate x.id t x.cohort cs
  let slots := (cs.zipIdx).map fun c => s.newSlots x c.2 c.1
  let k := { k with
    scratchSize := x.cohort.scratchSize, started := s.clock, unfenced := [],
    mx := (k.mx.zipIdx).map fun m => m.1.reowned ((nth [] slots m.2).map fun p => (p.2.1, p.2.2)) }
  let s := s.setCohort x.id k
  let s := k.fifoSegs.foldl (fun s a => match k.wholeSegment a with
    | some (core, seg) => s.updSegment core seg fun g => { g with role := .fifo }
    | none => s) s
  let s := (cs.zip slots).foldl (fun s c => c.2.foldl (fun s p => match mapFind x.waves p.1 with
    | some w => s.setWave p.1 (w.resumed c.1 p.2.2 s.clock)
    | none => s) s) s
  cs.foldl (fun s c => s.acquire c) s

/-- What a resumed wave does before it issues: its FLOADs are sent again (R85), its keeper entry is given back, a trap that waits is
entered. -/
def State.resumeWave (s : State) (u : Nat) : State :=
  match s.wave u with
  | none => s
  | some w =>
    let s := (w.late.filter fun l => decide (l.kind = .future)).foldl (fun s l => s.floadAgain u l.seq l) s
    let s := s.freeKeeper u
    match s.wave u with
    | some w => match w.pend with
      | some _ => s.afterLanding u
      | none => s
    | none => s

/-- The SCRATCH ranges of a restored cohort that still cover pending lines are copied again (R348). -/
def State.restage (s : State) (t : Task) (cid index die : Nat) (pend : List Nat) : State :=
  ((List.range t.wset.length).filter fun i =>
    let e := nth 0 t.wset i
    wsScratch e && (linesOf (wsOff e) (wsLen e)).any pend.contains).foldl (fun s i =>
      let e := nth 0 t.wset i
      s.addStaging { Staging.start 0 t.id i (wsSource e index) (wsLen e) (wsOff e) die (some cid) with
        skip := (linesOf (wsOff e) (wsLen e)).filter fun l => !pend.contains l }) s

/-- COHORT_RESTORE (R347, R394, R412): the saved cohort of the highest score is placed, on the die that homes the most of its source bytes.
Every section is written back before a wave issues. A sealed image that does not verify ends the
task with status 5, and the world is told. -/
def execCohortRestore (saved core : Nat) (s : State) : Host.Outcome State Fault Refusal :=
  match s.sched.tasks.find? fun t => t.saved.any fun x => x.id == saved with
  | none => .next s
  | some t =>
    match t.saved.find? (fun x => x.id == saved), s.canPlace t core with
    | some x, some cs =>
      let (next, s) := s.nextCohort t
      let (die, s) := s.chosenDie t x.cohort.index
      let s := { s with free := s.free + 1 }
      if next ≠ some x.cohort.index ∨ die ≠ some (dieOf core) then .next s
      else if !s.imageVerifies x t.disp then
        let s := s.cancelTask t.id 5
        .next { s with trust := { s.trust with notices := s.trust.notices ++ [(x.cohort.world, 1)] } }
      else
        let x := s.edited x
        let s := s.writeBack t x cs
        let s := (s.freeImage x).updTask t.id fun t => { t with saved := t.saved.filter fun y => y.id != saved }
        let s := x.waves.foldl (fun s w => s.resumeWave w.1) s
        let s := s.restage t saved x.cohort.index (dieOf core) x.cohort.stagePend
        .next (s.afterPlacement t.id)
    | _, _ => .next s

/-! ### Cancels (R349) -/

/-- TASK_QUEUE_CANCEL (R335, R349): every task of the queue that is not DONE is cancelled. -/
def State.cancelQueue (s : State) (q : Nat) : State :=
  ((s.sched.tasks.filter fun t => t.queue == q).map (·.id)).foldl (fun s t => s.cancelTask t 6) s

/-- TASK_QUEUE_CANCEL. -/
def execTaskQueueCancel (queue : Nat) (s : State) : Host.Outcome State Fault Refusal :=
  .next (if queue < 256 then s.cancelQueue queue else s)

/-! ### Machine-check responses (R389, R398) -/

/-- A machine-check token that is outstanding, and the state without it. -/
def State.popCheck (s : State) (die token : Nat) : Option (Nat × State) :=
  ((s.die die).mc.tokens.find? fun t => t.1 == token).map fun t =>
    (t.2, s.updDie die fun d => { d with mc := { d.mc with tokens := d.mc.tokens.filter fun x => x.1 != token } })

/-- RETRY: the wave restarts with a retry count of 0. -/
def Wave.retryCheck (w : Wave) (die token : Nat) : Wave :=
  if w.wait = .machineCheck die token then { w with wait := .yielded, retry := 0, prog := Progress.none } else w

/-- The PIPELINE_ERROR that TRAP delivers: at the restart point, or for a matrix command after its WAITT with the failed batch. -/
def Wave.trapCheck (w : Wave) (die token : Nat) : Wave :=
  if w.wait ≠ .machineCheck die token then w
  else
    let after := w.prog.y != 0
    let d := fun (i : Nat) => (mapFind w.prog.data i).getD 0
    let pc := if after then BitVec.ofNat 64 (d 3) else w.restart
    let clause : Clause := if after then
        { inside := d 0 != 0, header := BitVec.ofNat 64 (d 1), word := BitVec.ofNat 64 (d 2), left := d 0 }
      else w.restartClause
    { w with
      wait := .trapDrain, pc := pc, clause := clause, prog := Progress.none,
      pend := some { code := trapPipeline, tpc := pc, info0 := BitVec.ofNat 64 w.prog.x,
                     info1 := BitVec.ofNat 64 (w.prog.y - 1), after := after, queued := false } }

/-- MC_RETRY (R389): the wave may be saved. A record of the fitting engine only frees its token. -/
def execMcRetry (die token : Nat) (s : State) : Host.Outcome State Fault Refusal :=
  match s.popCheck die token with
  | none => .next s
  | some (u, s) => .next (if u = 0 then s else s.updAnyWave u fun w => w.retryCheck die token)

/-- MC_TRAP (R389). -/
def execMcTrap (die token : Nat) (s : State) : Host.Outcome State Fault Refusal :=
  match s.popCheck die token with
  | none => .next s
  | some (u, s) =>
    if u = 0 then .next s
    else
      let s := s.updAnyWave u fun w => w.trapCheck die token
      .next (match s.wave u with
        | some w => match w.pend with
          | some p => if w.wait = .trapDrain ∧ w.late.isEmpty then s.enterTrap u w p else s
          | none => s
        | none => s)

/-- MC_KILL (R389): the dispatch ends with status 5. -/
def execMcKill (die token : Nat) (s : State) : Host.Outcome State Fault Refusal :=
  match s.popCheck die token with
  | none => .next s
  | some (u, s) => .next (match s.agentDispatch (.wave u false) with
      | some d => s.killDispatch d
      | none => s)

/-- MC_RECORD_DEFERRED (R398): the wave that has waited longest writes its record once the queue has room. -/
def execMcRecordDeferred (die : Nat) (s : State) : Host.Outcome State Fault Refusal :=
  let q := (s.die die).mc
  match q.waiting with
  | [] => .next s
  | u :: rest =>
    let drop := s.updDie die fun d => { d with mc := { d.mc with waiting := rest } }
    if queueFull q.base q.count then .next s
    else if u = 0 then .next (drop.writeMachineCheck die 0 4 0)
    else match s.anyWave u with
      | none => .next drop
      | some w =>
        if w.wait ≠ .machineCheckQueue die then .next drop
        else
          let num := freshNumber (q.tokens.map (·.1))
          let s := drop.writeMachineCheck die u w.prog.x w.restart
          .next (if (s.wave u).isSome then s else s.updAnyWave u fun w => { w with wait := .machineCheck die num })

end Sys2Proof.Machine
end

