-- ==== Sys2Proof/Machine/Sha.lean ====
section
/-! DEFINITION. SHA-256 (FIPS 180-4), which the trust core computes (R331, R333, R399, R400, R407). -/

namespace Sys2Proof.Machine

/-- The round constants. -/
def shaK : List Word :=
  [0x428A2F98, 0x71374491, 0xB5C0FBCF, 0xE9B5DBA5, 0x3956C25B, 0x59F111F1, 0x923F82A4, 0xAB1C5ED5] ++
  [0xD807AA98, 0x12835B01, 0x243185BE, 0x550C7DC3, 0x72BE5D74, 0x80DEB1FE, 0x9BDC06A7, 0xC19BF174] ++
  [0xE49B69C1, 0xEFBE4786, 0x0FC19DC6, 0x240CA1CC, 0x2DE92C6F, 0x4A7484AA, 0x5CB0A9DC, 0x76F988DA] ++
  [0x983E5152, 0xA831C66D, 0xB00327C8, 0xBF597FC7, 0xC6E00BF3, 0xD5A79147, 0x06CA6351, 0x14292967] ++
  [0x27B70A85, 0x2E1B2138, 0x4D2C6DFC, 0x53380D13, 0x650A7354, 0x766A0ABB, 0x81C2C92E, 0x92722C85] ++
  [0xA2BFE8A1, 0xA81A664B, 0xC24B8B70, 0xC76C51A3, 0xD192E819, 0xD6990624, 0xF40E3585, 0x106AA070] ++
  [0x19A4C116, 0x1E376C08, 0x2748774C, 0x34B0BCB5, 0x391C0CB3, 0x4ED8AA4A, 0x5B9CCA4F, 0x682E6FF3] ++
  [0x748F82EE, 0x78A5636F, 0x84C87814, 0x8CC70208, 0x90BEFFFA, 0xA4506CEB, 0xBEF9A3F7, 0xC67178F2]

/-- The initial state. -/
def shaInit : List Word := [0x6A09E667, 0xBB67AE85, 0x3C6EF372, 0xA54FF53A, 0x510E527F, 0x9B05688C, 0x1F83D9AB, 0x5BE0CD19]

def rotr (n : Nat) (x : Word) : Word := x.rotateRight n
def shaS0 (x : Word) : Word := rotr 2 x ^^^ rotr 13 x ^^^ rotr 22 x
def shaS1 (x : Word) : Word := rotr 6 x ^^^ rotr 11 x ^^^ rotr 25 x
def shaG0 (x : Word) : Word := rotr 7 x ^^^ rotr 18 x ^^^ (x >>> 3)
def shaG1 (x : Word) : Word := rotr 17 x ^^^ rotr 19 x ^^^ (x >>> 10)

/-- The words of a block, big-endian. -/
def shaWords : List Byte → List Word
  | a :: b :: c :: d :: bs => (a ++ b ++ c ++ d) :: shaWords bs
  | _ => []

/-- Extends a message schedule, newest word first, by `n` words. -/
def shaExtend : Nat → List Word → List Word
  | 0, w => w
  | n + 1, w => shaExtend n ((shaG1 (nth 0 w 1) + nth 0 w 6 + shaG0 (nth 0 w 14) + nth 0 w 15) :: w)

/-- One round on the eight working variables. -/
def shaRound (v : List Word) (kw : Word × Word) : List Word :=
  match v with
  | [a, b, c, d, e, f, g, h] =>
    let t1 := h + shaS1 e + ((e &&& f) ^^^ (~~~e &&& g)) + kw.1 + kw.2
    let t2 := shaS0 a + ((a &&& b) ^^^ (a &&& c) ^^^ (b &&& c))
    [t1 + t2, a, b, c, d + t1, e, f, g]
  | v => v

/-- Compresses one block into a state. -/
def shaCompress (h : List Word) (block : List Byte) : List Word :=
  let w := (shaExtend 48 (shaWords block).reverse).reverse
  (h.zip ((shaK.zip w).foldl shaRound h)).map fun x => x.1 + x.2

/-- Cuts bytes into blocks of 64; `fuel` bounds their number. -/
def shaBlocks : Nat → List Byte → List (List Byte)
  | 0, _ => []
  | n + 1, bs => if bs.isEmpty then [] else bs.take 64 :: shaBlocks n (bs.drop 64)

/-- Compresses whole blocks in turn. -/
def shaRun (h : List Word) (bs : List Byte) : List Word := (shaBlocks (bs.length / 64) bs).foldl shaCompress h

/-- The padding after `n` bytes of the last call, for a message of `total` bytes. -/
def shaPad (n total : Nat) : List Byte :=
  0x80#8 :: (List.replicate ((119 - n % 64) % 64) 0 ++ (natLe 8 (8 * total)).reverse)

/-- A state as bytes, big-endian. -/
def shaBytes (h : List Word) : List Byte := h.flatMap fun x => (natLe 4 x.toNat).reverse

/-- SHA-256 of a message. -/
def sha256 (m : List Byte) : List Byte := shaBytes (shaRun shaInit (m ++ shaPad m.length m.length))

end Sys2Proof.Machine
end

