-- ==== Sys2Proof/Machine/Trusted.lean ====
section
/-! DEFINITION. The trust core's instructions (R331 to R333). -/

namespace Sys2Proof.Machine

/-! ### Blocks of memory that one instruction reads or writes -/

/-- The pieces of a range of virtual memory by page: address and length. -/
def rangePieces : Nat → Nat → Nat → List (Nat × Nat)
  | 0, _, _ => []
  | fuel + 1, va, n =>
    if n = 0 then [] else
    let m := min n (65536 - va % 65536)
    (va, m) :: rangePieces fuel ((va + m) % 2 ^ 64) (n - m)

/-- Reads a block of any alignment as loads of the wave (R24, R80, R90). -/
def readBlock (i : Instr) (reg va n : Nat) (body : List Byte → Body) : Body := readPieces i reg 1 (rangePieces (n / 65536 + 2) va n) body

/-- Cuts a list by the lengths of pieces. -/
def cutBy {α : Type} : List Nat → List α → List (List α)
  | [], _ => []
  | n :: ns, l => l.take n :: cutBy ns (l.drop n)

/-- Writes a block of any alignment as stores of the wave. -/
def writeBlock (va : Nat) (bs : List Byte) : Body :=
  let ps := rangePieces (bs.length / 65536 + 2) va bs.length
  storePieces 1 (ps.map fun p => (0, p.1)) (cutBy (ps.map (·.2)) bs)

/-! ### HASHB (R331) -/

/-- A timed wait of the instruction at hand: its result stands in `prog.data` until `until_`. -/
def workFor (until_ : Nat) (data : List (Nat × Nat)) : Body := fun s u w =>
  .wait (s.setWave u { w with prog := { w.prog with stage := 1, x := 0, y := 0, data := data } }) (.nap until_)

/-- HASHB: 80 clocks a block, then H0 to H7. -/
def execHashb (f : EF) (s : State) := runInstr (.hashb f) (afterJoin fun s u w =>
  let n := (w.src f.b).toNat
  let final := bit f.ctl.toNat 1
  let d := f.d.toNat
  if w.prog.stage = 1 then
    .done (s.setWave u ((List.range 8).foldl (fun w j => w.setS (d + j) (BitVec.ofNat 32 ((mapFind w.prog.data j).getD 0))) w))
  else if !final && n % 64 != 0 then .trap s trapIllegalOperand ((encode (.hashb f)).getD 0) 40
  else readBlock (.hashb f) f.a.toNat (w.base f.a) n (fun bs s u w =>
    let h := if bit f.ctl.toNat 0 then shaInit else (List.range 8).map fun j => w.s (d + j)
    let m := if final then bs ++ shaPad n ((w.base f.c) + n) else bs
    let r := shaRun h m
    workFor (s.clock + 80 * (m.length / 64)) ((List.range 8).map fun j => (j, (nth 0 r j).toNat)) s u w) s u w) s

/-! ### SIGNQ (R332) -/

/-- The key of a slot, if it has one: slot 0 is the device identity key, and firmware provisions the others. -/
def State.signKey (s : State) (slot : Nat) : Option (List Byte) := if slot = 0 then some Config.identityKey else mapFind s.trust.keys slot

/-- Tirano, which runs once its image has been started, provisions a key in a slot from 1 to 3. -/
def State.provision (s : State) (slot : Nat) (key : List Byte) : State :=
  if s.trust.stage = 3 ∧ 1 ≤ slot ∧ slot ≤ 3 then { s with trust := { s.trust with keys := mapInsert s.trust.keys slot key } } else s

/-- SLH-DSA-SHA2-128s, pure, with an empty context: the message carries the domain byte 0 and a context length of 0. -/
def slhSignature (key m : List Byte) : List Byte :=
  let g := Config.slhSign key (0 :: 0 :: m)
  (List.range 7856).map fun i => nth 0 g i

/-- SIGNQ: the duration is not promised; the signature is stored when the wait has ended. -/
def execSignq (f : EF) (s : State) := runInstr (.signq f) (afterJoin fun s u w =>
  let n := (w.src f.b).toNat
  if w.prog.stage = 1 then
    writeBlock (w.base f.c) (w.prog.data.map fun x => BitVec.ofNat 8 x.2) s u w
  else if 65536 < n then .trap s trapIllegalOperand ((encode (.signq f)).getD 0) 40
  else match s.signKey (ctlBits f 1 0) with
  | none => .trap s trapIllegalOperand ((encode (.signq f)).getD 0) 0
  | some key => readBlock (.signq f) f.a.toNat (w.base f.a) n (fun bs s u w =>
      workFor s.clock ((slhSignature key bs).zipIdx.map fun x => (x.2, x.1.toNat)) s u w) s u w) s

/-! ### MEASX (R333) -/

/-- The 32 bytes of a measurement slot. -/
def State.slotBytes (s : State) (n : Nat) : List Byte := natLe 32 (mapGet 0 s.trust.slots n).toNat

/-- slot := SHA-256(slot ‖ the 32 bytes). -/
def State.extendSlot (s : State) (n : Nat) (bs : List Byte) : State :=
  { s with trust := { s.trust with
    slots := mapPut 0 s.trust.slots n (BitVec.ofNat 256 (leNat (sha256 (s.slotBytes n ++ bs)))) } }

/-- MEASX with control[4] = 0: extends the slot after 160 clocks. -/
def execMeasxExtend (f : EF) (s : State) := runInstr (.measxExtend f) (afterJoin fun s u w =>
  if w.prog.stage = 1 then .done (s.extendSlot (ctlBits f 3 0) (w.prog.data.map fun x => BitVec.ofNat 8 x.2))
  else readBlock (.measxExtend f) f.a.toNat (w.base f.a) 32 (fun bs s u w =>
    workFor (s.clock + 160) (bs.zipIdx.map fun x => (x.2, x.1.toNat)) s u w) s u w) s

/-- MEASX with control[4] = 1: copies the slot to the buffer. -/
def execMeasxRead (f : EF) (s : State) := runInstr (.measxRead f) (afterJoin fun s u w =>
  writeBlock (w.base f.a) (s.slotBytes (ctlBits f 3 0)) s u w) s

end Sys2Proof.Machine
end

