-- ==== Sys2Proof/Machine/Boot.lean ====
section
/-! DEFINITION. Package reset, boot and measurement (R399 to R401, R416, R446), and the loss of supplies (R423). -/

namespace Sys2Proof.Machine

/-! ### Firmware images (R400) -/

/-- A little-endian field of an image header (places: log 36). -/
def headerField (i : BootImage) (at_ n : Nat) : Nat := leNat ((i.header.drop at_).take n)
def imageMagic (i : BootImage) : Nat := headerField i 0 4
def imageKind (i : BootImage) : Nat := headerField i 4 4
def imageSvn (i : BootImage) : Nat := headerField i 8 4
def imageLength (i : BootImage) : Nat := headerField i 12 4
def imageDigest (i : BootImage) : List Byte := (i.header.drop 16).take 32
def imageKey (i : BootImage) : Nat := headerField i 48 4

/-- The magic of a header. -/
def imageMagicWord : Nat := 0x51544946

/-- Does an image have the form of R400: a whole header with the magic, one of four keys, and the body its header describes? -/
def imageFormed (i : BootImage) : Bool :=
  i.header.length == 64 && imageMagic i == imageMagicWord && decide (imageKey i < 4) && i.publicKey.length == 32 &&
  i.signature.length == 7856 && imageLength i == i.body.length && imageDigest i == sha256 i.body

/-- Is an image signed with a fused key: the key's digest is in the fuse, and the signature is over the header, pure with an empty
context? -/
def State.imageSigned (s : State) (i : BootImage) : Bool :=
  sha256 i.publicKey == natLe 32 (mapGet 0 s.trust.fuseKeys (imageKey i)).toNat &&
  Config.slhVerify i.publicKey i.signature (0 :: 0 :: i.header)

/-- TRSTAT.ERR for an image, 0 if it passes; the form is looked at first, then the signature, then the SVN (log 36). -/
def State.imageError (s : State) (i : BootImage) : Nat :=
  if !imageFormed i then 3 else if !s.imageSigned i then 1
  else if imageSvn i < mapGet 0 s.trust.fuseSvn (imageKind i) then 2 else 0

/-! ### Boot (R399) -/

/-- One image in its slot: checked, then measured before it starts; with Tirano's the ROM measures the fuse and strap summary. -/
def State.bootImage (s : State) (slot : Nat) (i : Option BootImage) : State × Nat :=
  match i with
  | none => (s, 3)
  | some i =>
    match s.imageError i with
    | 0 =>
      let s := s.extendSlot slot (sha256 (i.header ++ i.body))
      (if slot = 0 then s.extendSlot 1 (sha256 (s.trust.straps.take 64)) else s, 0)
    | e => (s, e)

/-- Images in turn; the first that fails stops the boot. -/
def State.bootImages (s : State) : List (Nat × Option BootImage) → State × Nat
  | [] => (s, 0)
  | x :: xs =>
    match s.bootImage x.1 x.2 with
    | (s, 0) => s.bootImages xs
    | r => r

/-- The record of slot 7: the SVNs of slots 0 to 6; slot 1, which holds no image, has 0 (log 36). -/
def svnList (images : List BootImage) : List Byte :=
  let svn := fun (k : Nat) => natLe 4 ((images[k]?.map imageSvn).getD 0)
  svn 0 ++ natLe 4 0 ++ svn 1 ++ svn 2 ++ svn 3 ++ svn 4 ++ svn 5

/-- The ROM and then Tirano verify, measure and start the images: Tirano's, then those of slots 2 to 6. The slots hold zero when it
begins (R333; log 36). Once slot 7 has been extended, Tirano queues the SPDM responder (R444). -/
def State.boot (s : State) (images : List BootImage) : State :=
  let s := { s with trust := { s.trust with slots := [], stage := 0, err := 0, retry := false } }
  if !s.trust.selfTest then { s with trust := { s.trust with stage := 15, err := 4 } }
  else
    let slots := [0, 2, 3, 4, 5, 6]
    match s.bootImages ((slots.zipIdx).map fun x => (x.1, images[x.2]?)) with
    | (s, 0) =>
      let s := s.extendSlot 7 (sha256 (svnList images))
      { s with trust := { s.trust with stage := 3 }, power := { s.power with stopped := false }, doe := { s.doe with queued := true } }
    | (s, e) => { s with trust := { s.trust with stage := 15, err := e } }

/-- What a reset leaves: reset values, but for what the package does not hold (host memory, the host's blobs, the agenda), what is built
into it (the LPDDR population), fuses and straps, and the counters of free values. -/
def State.cleared (s : State) : State :=
  { State.reset with
    mem := s.mem.filter fun c => isHost c.1
    agenda := s.agenda
    ids := s.ids
    lpddr := s.lpddr
    free := s.free
    trust := { Trust.reset with
      fuseKeys := s.trust.fuseKeys, fuseSvn := s.trust.fuseSvn, straps := s.trust.straps,
      selfTest := s.trust.selfTest, worldsMade := s.trust.worldsMade, evicted := s.trust.evicted }
    power := { Power.reset with strap := s.power.strap, cxl := s.power.strap } }

/-- PACKAGE_RESET (R399, R416): everything returns to its reset value, the strap is read, and the trust core boots. -/
def execPackageReset (images : List BootImage) (s : State) : Host.Outcome State Fault Refusal :=
  .next (s.cleared.boot images)

/-- Does an image stand in memory: its header, signature, public key and body, one after the other (log 36)? -/
def State.holdsImage (s : State) (pa : Nat) (i : BootImage) : Bool :=
  let all := i.header ++ i.signature ++ i.publicKey ++ i.body
  s.bytes pa all.length == all

/-- Is one of the six images that a boot reads the recovery image that stands at TRRECOV, with a whole header (R400, R401)? -/
def State.fromRecovery (s : State) (images : List BootImage) : Bool :=
  (images.take 6).any fun i => i.header.length == 64 && s.holdsImage s.trust.recov.toNat i

/-- BOOT_RETRY (R401): the boot that TRCTL.RETRY asked for, of the boot flash's images with the recovery image that stands at TRRECOV
in place of its own; all pass the same checks. Without the request, or without the image, nothing happens. -/
def execBootRetry (images : List BootImage) (s : State) : Host.Outcome State Fault Refusal :=
  .next (if s.trust.stage = 15 && s.trust.retry && s.fromRecovery images then s.boot images else s)

/-- SUPPLY_LOSS (R423): no state is held and no time kept. -/
def execSupplyLoss (s : State) : Host.Outcome State Fault Refusal :=
  .next { s.cleared with power := { s.cleared.power with powered := false } }

end Sys2Proof.Machine
end

