-- ==== Sys2Proof/Machine/Fitting.lean ====
section
/-! DEFINITION. Approximable regions and the fitting engine (R353 to R374, R389). -/

namespace Sys2Proof.Machine

/-! ### Regions of a die -/

/-- The region of a key on a die. -/
def State.region (s : State) (die : Nat) (k : RegionKey) : Option Region := (s.die die).fit.regions.find? fun r => r.key == k

def State.updRegion (s : State) (die : Nat) (k : RegionKey) (f : Region → Region) : State :=
  s.updFit die fun x => { x with regions := updFirst (fun r => r.key == k) f x.regions }

/-- Drops a region's weights from the surrogate units of a die (R373). -/
def State.uncache (s : State) (die : Nat) (k : RegionKey) : State :=
  ((s.cores.map (·.1)).filter fun c => dieOf c == die).foldl
    (fun s c => s.updCore c fun x => { x with surrogate := x.surrogate.filter fun y => y.1 != k }) s

/-! ### Training (R363 to R366) -/

/-- A region enters TRAIN or FALLBACK as number `q` of those that ask for a slot. -/
def Region.askSlot (r : Region) (st q : Nat) : Region := { r with st := st, queued := q, batch := [], replay := 0 }

/-- A region enters ARMED: the weights freeze, its slot is released (R363). -/
def Region.arm (r : Region) : Region := { r with st := rgArmed, n := 0, batch := [], slot := false }

/-- The seed block of a region, which the engine reads for itself (R366). -/
def State.readSeed (s : State) (die : Nat) (r : Region) : Option (List Word) × State :=
  let n := 4 * netSize r.shape
  match engineRead die r.key.asid r.key.world (.world r.key.world) 0 (n / 65536 + 2) s r.seed.toNat n with
  | .ok bs s => (some ((pieces 4 bs).map fun b => BitVec.ofNat 32 (leNat b)), s)
  | x => (none, x.after)

/-- Entry to TRAIN from OBSERVE (R363, R366). -/
def State.initRegion (s : State) (die : Nat) (r : Region) (q : Nat) : State × Region :=
  let start := fun (ws : List Word) => { r.askSlot rgTrain q with weights := ws, c := 0, eset := false }
  if bit r.flags 1 then
    match s.readSeed die r with
    | (some ws, s) => (s, start ws)
    | (none, s) => (s, { r with st := rgDisabled, ring := [] })
  else (s, start (toWords (initLayers r.shape (initSeed r.key.id))))

/-- E and C after a sample's error (R364). -/
def Region.score (r : Region) (e : Nat) : Region :=
  let avg := if r.eset then averageError r.e.toNat e else e
  { r with e := BitVec.ofNat 32 avg, eset := true, c := if f32Less avg r.thresh.toNat then r.c + 1 else 0 }

/-- The extremes and the ring take a sample (R364). -/
def Region.note (r : Region) (x y : List Word) : Region :=
  let ext := fun (f : Nat → Nat → Nat) (l : List (Option Word)) => (l.zip y).map fun p =>
    if f32Nan p.2.toNat then p.1 else some (match p.1 with
      | some v => BitVec.ofNat 32 (f v.toNat p.2.toNat)
      | none => p.2)
  { r with hi := ext f32Max r.hi, lo := ext f32Min r.lo, ring := (r.ring ++ [(x, y)]).drop (r.ring.length + 1 - 4096) }

/-- A sample joins the batch at hand; batches beyond what the ring holds are lost (R366). -/
def Region.batchSample (r : Region) (x y : List Word) : Region :=
  let b := r.batch ++ [(x, y)]
  Region.trainAll 1 { r with batch := if 4096 < b.length then b.drop 32 else b }

/-- One sample of a region (R363 to R366); `q` is its number if it asks for a slot. -/
def State.takeSample (s : State) (die : Nat) (r : Region) (x y : List Word) (q : Nat) : State × Region :=
  let r := r.note x y
  let scored := r.score (sampleError (netOut r.shape r.vals (toNats x)) (toNats y))
  if r.st = rgObserve then
    let r := { r with seen := r.seen + 1 }
    if r.seen < 256 then (s, r) else s.initRegion die r q
  else if r.st = rgTrain ∨ r.st = rgFallback then
    (s, if 256 ≤ scored.c then scored.arm else scored.batchSample x y)
  else if r.st = rgArmed then
    if (fpCompare fpF32 5 scored.e.toNat r.thresh.toNat).1 then
      let f := r.f + 1
      (s, if f = 8 then { scored with f := f, c := 0, st := rgDisabled } else { scored.askSlot rgFallback q with f := f, c := 0 })
    else (s, scored)
  else (s, r)

/-- The engine of a die consumes a sample: only one of the region's generation counts (R367). Weights that are no longer frozen
leave the surrogate units; slots that came free are given out. -/
def State.consume (s : State) (die : Nat) (x : Sample) : State :=
  match s.region die x.key with
  | none => s
  | some r =>
    if r.gen ≠ x.gen then s
    else
      let (q, s) := s.fresh
      let (s, r') := s.takeSample die r x.x x.y q
      let s := s.updRegion die x.key fun _ => r'
      let s := if r.st = rgArmed ∧ r'.st ≠ rgArmed then s.uncache die x.key else s
      s.updFit die fun f => { f with regions := assignSlots 8 f.regions, mis := f.mis.filter fun m => m.1 != x.key }

/-- FITTING_SAMPLE (R364): the next sample of the die's queue. -/
def execFittingSample (die : Nat) (s : State) : Host.Outcome State Fault Refusal :=
  .next (match (s.die die).fit.samples with
    | [] => s
    | x :: rest => (s.updFit die fun f => { f with samples := rest }).consume die x)

/-- REPLAY_STEP (R366): in normal mode a slot with no new batch trains on 32 samples of the ring, in ring order. -/
def execReplayStep (die region : Nat) (s : State) : Host.Outcome State Fault Refusal :=
  match (s.die die).fit.regions[region]? with
  | none => .next s
  | some r =>
    if (s.die die).fit.mode ≠ 0 ∨ !r.slot ∨ 32 ≤ r.batch.length ∨ r.ring.length < 32 then .next s
    else
      let at_ := r.replay % r.ring.length
      let batch := ((r.ring ++ r.ring).drop at_).take 32
      let s := s.updRegion die r.key fun r => { r with replay := (at_ + 32) % r.ring.length }.train batch
      .next (s.updFit die fun f => { f with regions := assignSlots 8 f.regions, mis := f.mis.filter fun m => m.1 != r.key })

/-- A training step of a region mismatches (R389): it is repeated up to 2 times; the third disables the region and writes a
machine-check record with CORE 0. -/
def State.upsetTraining (s : State) (die region : Nat) : State :=
  match (s.die die).fit.regions[region]? with
  | none => s
  | some r =>
    let n := (((s.die die).fit.mis.find? fun m => m.1 == r.key).map (·.2)).getD 0 + 1
    let rest := (s.die die).fit.mis.filter fun m => m.1 != r.key
    if !r.slot then s
    else if n < 3 then s.updFit die fun f => { f with mis := rest ++ [(r.key, n)] }
    else
      let s := s.updRegion die r.key fun r => { r with st := rgDisabled, weights := [], slot := false, batch := [] }
      let s := s.updFit die fun f => { f with mis := rest, regions := assignSlots 8 f.regions }
      let q := (s.die die).mc
      if q.waiting.isEmpty && !queueFull q.base q.count then s.writeMachineCheck die 0 4 0
      else s.updDie die fun d => { d with mc := { d.mc with waiting := d.mc.waiting ++ [0] } }

/-! ### The APX table (R358, R360) -/

/-- Fields of an entry as a 512-bit number. -/
def apxNin (n : Nat) : Nat := fld n 11 8 + 1
def apxNout (n : Nat) : Nat := fld n 14 12 + 1
def apxShape (n : Nat) : List (Nat × Nat) := netShape (apxNin n) (apxNout n) (fld n 21 16) (fld n 29 24)

/-- The checks of an entry, by byte offset; EN = 0 lifts none (R360). -/
def apxChecks (n : Nat) : List (Nat × Bool) :=
  let positive := fun (x : Nat) => f32Finite x && f32Less 0 x
  [(0, fld n 7 3 == 0), (0, !bit n 2 || bit n 1), (1, !bit n 15), (2, fld n 23 22 == 0 && decide (fld n 21 16 ≤ 32)),
   (3, fld n 31 30 == 0 && decide (fld n 29 24 ≤ 32) && (fld n 21 16 != 0 || fld n 29 24 == 0)),
   (4, fld n 63 39 == 0 && decide (fld n 38 36 ≤ 4)), (8, positive (fld n 95 64)), (12, positive (fld n 127 96)),
   (16, fld n 133 128 == 0 && (bit n 1 || fld n 191 128 == 0)), (24, fld n 255 192 == 0)] ++
  (List.range 4).map fun m => (32 + 8 * m, decide (m < fld n 38 36) || fld n (64 * m + 319) (64 * m + 256) == 0)

/-- The dependency ranges of an entry: address and length. -/
def apxDeps (n : Nat) : List (Nat × Nat) :=
  (List.range (min 4 (fld n 38 36))).map fun m =>
    (wrapTo 64 (signedOf 57 (fld n (64 * m + 300) (64 * m + 256) * 4096)), (fld n (64 * m + 319) (64 * m + 301) + 1) * 4096)

/-- What a region watches for pieces of pages (R360, R367): their bytes, or the table entries at which walks stopped. A walk that
reaches a leaf sets ACC (R30). -/
def watchPieces (die asid world : Nat) : List (Nat × Nat) → State → List (Nat × Nat) × State
  | [], s => ([], s)
  | p :: ps, s =>
    match walk s die asid world p.1 with
    | (.leaf t, _) =>
      let r := watchPieces die asid world ps (touchLeaf s t false).1
      ((t.pa p.1, p.2) :: r.1, r.2)
    | (_, at_) =>
      let r := watchPieces die asid world ps s
      ((at_, 8) :: r.1, r.2)

/-- The 64 KiB pages from one address to another. -/
def pagesBetween (a b : Nat) : List Nat :=
  let lo := min a b / 65536
  (List.range (max a b / 65536 + 1 - lo)).map fun k => (lo + k) * 65536

/-- The watches of a region (R367). -/
def State.watches (s : State) (die asid world : Nat) (deps : List (Nat × Nat)) (code : List Nat) : List (Nat × Nat) × State :=
  watchPieces die asid world ((deps.flatMap fun (d : Nat × Nat) => rangePieces (d.2 / 65536 + 2) d.1 d.2) ++ code.map fun v => (v, 65536)) s

/-- Reads entry `id` and, for a seeded region, its seed block, as loads of the wave (R360). -/
def readEntry (i : Instr) (reg id : Nat) (body : Nat → List Word → Body) : Body := fun s u w =>
  readRecordAt i reg (wrapTo 64 (signedOf 57 w.sp.apxtab.toNat + (64 * id : Nat))) 64 (fun bs s u w =>
    let n := leNat bs
    match lowestOffset (apxChecks n) with
    | some off => let t := badRecord i off
      .trap s t.1 t.2.1 t.2.2
    | none =>
      if !bit n 1 then body n [] s u w
      else readBlock i reg (fld n 191 128) (4 * netSize (apxShape n)) (fun bs s u w =>
        body n ((pieces 4 bs).map fun b => BitVec.ofNat 32 (leNat b)) s u w) s u w) s u w

/-- A region as its entry gives it: ARMED with the seed weights if `armed` allows it, else OBSERVE; OFF with EN = 0. -/
def regionOf (k : RegionKey) (n gen : Nat) (seed : List Word) (armed : Bool) (code : List Nat) (watch : List (Nat × Nat)) : Region :=
  let arm := armed && bit n 0 && bit n 2
  { key := k, nin := apxNin n, nout := apxNout n, h1 := fld n 21 16, h2 := fld n 29 24, s := fld n 35 32, flags := fld n 2 0,
    thresh := BitVec.ofNat 32 (fld n 95 64), lrate := BitVec.ofNat 32 (fld n 127 96), seed := BitVec.ofNat 64 (fld n 191 128),
    depVa := if bit n 0 then apxDeps n else [], codeVa := code, watch := watch,
    st := if !bit n 0 then rgOff else if arm then rgArmed else rgObserve, n := 0, e := 0, eset := true, c := 0, f := 0, gen := gen,
    hi := List.replicate (apxNout n) none, lo := List.replicate (apxNout n) none, weights := if arm then seed else [],
    ring := [], seen := 0, batch := [], slot := false, queued := 0, replay := 0, entered := 0, stale := false }

/-- Room for a new key (R373): the least recently entered region in OFF, OBSERVE or DISABLED leaves, as if invalidated. -/
def State.regionRoom (s : State) (die : Nat) : Option State :=
  let f := (s.die die).fit
  if f.regions.length < 256 then some s
  else
    let idle := f.regions.filter fun r => r.st == rgOff || r.st == rgObserve || r.st == rgDisabled
    (idle.foldl (fun (b : Option Region) r => match b with
      | none => some r
      | some x => if r.entered < x.entered then some r else some x) none).map fun r =>
        (s.invalidateRegionsOn (· == die) fun x => x.key == r.key).updFit die fun f =>
          { f with regions := f.regions.filter fun x => x.key != r.key }

/-- A region that is tracked, or becomes so, or is read again after an invalidation (R360, R363, R367); none when no entry can be
had (R373). -/
def withRegion (i : Instr) (reg : Nat) (k : RegionKey) (target : Nat) (body : Option Region → Body) : Body := fun s u w =>
  let die := dieOf w.core
  let code := pagesBetween w.pc.toNat target
  let fill := fun (n : Nat) (seed : List Word) (armed : Bool) (gen : Nat) (s : State) =>
    let (watch, s) := if bit n 0 then s.watches die k.asid k.world (apxDeps n) code else ([], s)
    (regionOf k n gen seed armed code watch, s)
  match s.region die k with
  | some r =>
    if !r.stale then body (some r) s u w
    else readEntry i reg k.id (fun n seed s u w =>
      let (r, s) := fill n seed false r.gen s
      body (some r) (s.updRegion die k fun _ => r) u (s.regroup u w)) s u w
  | none => readEntry i reg k.id (fun n seed s u w =>
      match s.regionRoom die with
      | none => body none s u w
      | some s =>
        let (id, s) := s.fresh
        let (r, s) := fill n seed true (id * 2 ^ 32) s
        body (some r) (s.updFit die fun f => { f with regions := f.regions ++ [r] }) u (s.regroup u w)) s u w

/-! ### The instructions (R354 to R356, R369 to R371) -/

/-- A region id, or ILLEGAL_OPERAND. -/
def withRegionId (i : Instr) (c : BitVec 8) (body : Nat → Body) : Body := fun s u w =>
  let x := (w.src c).toNat
  if x < 65536 then body x s u w else .trap s trapIllegalOperand ((encode i).getD 0) 32

/-- The key of a region for a wave (R355). -/
def State.regionKey (s : State) (w : Wave) (id : Nat) : RegionKey :=
  { world := s.waveWorld w, asid := s.waveAsid w, tab := w.sp.apxtab.toNat, id := id }

/-- APXSTAT (R371). -/
def apxStat (id st : Nat) (surr sampled untracked miss : Bool) : DWord :=
  BitVec.ofNat 64 (id + 2 ^ 16 * st + 2 ^ 19 * b2n surr + 2 ^ 20 * b2n sampled + 2 ^ 21 * b2n untracked + 2 ^ 22 * b2n miss)

/-- Capture (R355): the input block of the 32 lowest active lanes. -/
def capture (k : RegionKey) (r : Region) (a b : Nat) (w : Wave) : OpenRegion :=
  { key := k, gen := r.gen, out := b, nout := r.nout, since := 1,
    capture := (w.activeLanes.take 32).map fun i => (i, (List.range r.nin).map fun t => w.v (a + t) i) }

/-- Clocks of an invocation (R362): a pass of 32 lanes takes half a clock a weight, rounded up; a miss adds 400. -/
def surrogateClocks (r : Region) (w : Wave) (miss : Bool) : Nat :=
  let m := (r.shape.map fun x => x.1 * x.2).sum
  let passes := (List.range w.k).countP fun j => w.execWord j &&& w.liveWord j != 0
  12 + (m + 1) / 2 * passes + 400 * b2n miss

/-- The surrogate's outputs for the active lanes, by vector register key. -/
def surrogateOuts (r : Region) (a b : Nat) (w : Wave) : List (Nat × Nat) :=
  w.activeLanes.flatMap fun i =>
    let y := netOut r.shape r.vals ((List.range r.nin).map fun t => (w.v (a + t) i).toNat)
    (y.zipIdx).map fun o => (vkey (b + o.2) i, o.1)

/-- The unit's weight cache after a use (R373). -/
def Core.useWeights (c : Core) (k : RegionKey) (gen : Nat) : Core :=
  { c with surrogate := ((k, gen) :: c.surrogate.filter fun x => x.1 != k).take 4 }

/-- The case of R355 on a region. `go` runs on into the region. -/
def enterRegion (f : EF) (k : RegionKey) (target : DWord) (r : Region) : Body := fun s u w =>
  let die := dieOf w.core
  let (tick, s) := s.fresh
  let s := s.updRegion die k fun r => { r with entered := tick }
  let a := f.a.toNat
  let b := f.b.toNat
  let stat := fun (w : Wave) (x : DWord) => { w with sp := { w.sp with apxstat := x } }
  if f.d.toNat % 16 + 1 ≠ r.nin ∨ f.d.toNat / 16 % 8 + 1 ≠ r.nout then .trap s trapIllegalOperand (BitVec.ofNat 64 k.id) 0
  else
    let w := { w with region := none }
    let sampled := fun (s : State) =>
      Act.done (s.setWave u (stat { w with region := some (capture k r a b w) } (apxStat k.id r.st false true false false)))
    if r.st = rgArmed then
      let n := r.n + 1
      let s := s.updRegion die k fun r => { r with n := n }
      if n % 2 ^ r.s = 2 ^ r.s - 1 then sampled s
      else
        let miss := !(s.core w.core).surrogate.any fun x => x.1 == k
        let s := s.updCore w.core fun c => c.useWeights k r.gen
        let data := surrogateOuts r a b w
        let word := (apxStat k.id r.st true false false miss).toNat
        let w := { w with prog := { Progress.none with stage := 1, x := word, y := target.toNat, data := data } }
        .wait (s.setWave u w) (.surrogate (s.clock + surrogateClocks r w miss))
    else if r.st = rgObserve ∨ r.st = rgTrain ∨ r.st = rgFallback then sampled s
    else .done (s.setWave u (stat w (apxStat k.id r.st false false false false)))

/-- APXBEGIN (R355). Stage 1 says that the surrogate has computed: `prog.data` holds its outputs, `prog.x` APXSTAT. Its reading of the
entry, the seed block and the region is an access of class R after an MJOIN (R137, R368). The trust core has no surrogate unit (R19). -/
def execApxbegin (f : EF) (s : State) := runInstr (.apxbegin f) (fun s u w =>
  let target := w.pc + f.ctl.signExtend 64 <<< 3
  if w.prog.stage = 1 then
    let w := w.prog.data.foldl (fun w x => w.setV (x.1 % 256) (x.1 / 256) (BitVec.ofNat 32 x.2)) w
    .jump (s.setWave u { w with sp := { w.sp with apxstat := BitVec.ofNat 64 w.prog.x } }) target
  else match transfer (fun _ => target) (fun _ => true) id s u w with
  | .jump s _ => withRegionId (.apxbegin f) f.c (fun id s u w =>
      if w.activeLanes.isEmpty then .jump s target
      else
        let off := fun (u' : Bool) => Act.done (s.setWave u { w with
          region := none, sp := { w.sp with apxstat := apxStat id rgOff false false u' false } })
        if w.sp.apxtab = 0 ∨ 2 ≤ (s.die (dieOf w.core)).fit.mode ∨ isTrustCore w.core then off false
        else
          let k := s.regionKey w id
          afterJoin (withRegion (.apxbegin f) f.c.toNat k target.toNat (fun r s u w => match r with
            | some r => enterRegion f k target r s u w
            | none => .done (s.setWave u { w with
                region := none, sp := { w.sp with apxstat := apxStat id rgOff false false true false } }))) s u w) s u w
  | a => a) s

/-- The samples of an open region (R356): lanes still live whose outputs are not poisoned. -/
def OpenRegion.samples (o : OpenRegion) (u : Nat) (w : Wave) : List Sample :=
  (o.capture.filter fun c => w.liveBit c.1 && (List.range o.nout).all fun j => !w.regs.vpoison.contains (vkey (o.out + j) c.1)).map
    fun c => { key := o.key, gen := o.gen, core := w.core, wave := u, x := c.2, y := (List.range o.nout).map fun j => w.v (o.out + j) c.1 }

/-- Samples enter the queue of their core, which holds 64 outside lockstep mode; the others are dropped (R372). -/
def State.sendSamples (s : State) (die : Nat) (l : List Sample) : State :=
  l.foldl (fun s x => s.updFit die fun f =>
    if f.mode ≠ 1 ∧ 64 ≤ f.samples.countP fun y => y.core == x.core then { f with drop := (f.drop + 1) % 2 ^ 32 }
    else { f with samples := f.samples ++ [x] }) s

/-- APXEND (R356): in lockstep mode it waits until the engine has applied every consequence of its samples; stage 1 says that they are
sent, with the region's id and table. -/
def execApxend (f : EF) (s : State) := runInstr (.apxend f) (fun s u w =>
  if w.prog.stage = 1 then (if s.samplesDone u w then .done s else .wait s .lockstep)
  else match w.region with
  | none => .done s
  | some o =>
    let die := dieOf w.core
    let l := o.samples u w
    let s := s.setWave u { w with region := none }
    if ((s.region die o.key).map (·.gen)) ≠ some o.gen then
      .done (s.updFit die fun f => { f with drop := (f.drop + l.length) % 2 ^ 32 })
    else
      let s := s.sendSamples die l
      if (s.die die).fit.mode = 1 ∧ !l.isEmpty then
        .wait (s.updWave u fun w => { w with prog := { w.prog with stage := 1, x := o.key.id, y := o.key.tab } }) .lockstep
      else .done s) s

/-- Invalidates regions for a wave on every die, then yields (R369): stage 1 says that the dies have applied it. It is a write of class W,
so it follows the wave's earlier reads (R135, R137). -/
def invalidateFor (p : State → Wave → Region → Bool) : Body := fun s u w =>
  if w.prog.stage = 1 then .done s
  else afterJoin (afterReads fun s u w =>
    .wait ((s.invalidateRegions (p s w)).updWave u fun w => { w with prog := { w.prog with stage := 1 } }) .yielded) s u w

/-- APXINV (R369). -/
def execApxinv (f : EF) (s : State) := runInstr (.apxinv f) (
  if ctlBits f 0 0 = 1 then invalidateFor fun s w r => r.key.world == s.waveWorld w && r.key.asid == s.waveAsid w
  else withRegionId (.apxinv f) f.c fun id => invalidateFor fun s w r => r.key == s.regionKey w id) s

/-- The value of APXQRY (R370). -/
def State.regionQuery (s : State) (w : Wave) (k : RegionKey) : DWord :=
  match s.region (dieOf w.core) k with
  | none => 0
  | some r => BitVec.ofNat 64 (r.st + 2 ^ 3 + 2 ^ 4 * (r.f % 16) +
      2 ^ 8 * b2n ((s.core w.core).surrogate.any fun x => x.1 == k) + 2 ^ 9 * b2n r.slot + 2 ^ 10 * min r.c (2 ^ 22 - 1) + 2 ^ 32 * r.e.toNat)

/-- APXQRY (R370): a late value with L = 0. -/
def execApxqry (f : EF) (s : State) := runInstr (.apxqry f) (withRegionId (.apxqry f) f.c fun id s u w =>
  .done (s.setWave u (w.addAnswer false f.d.toNat 2 [(0, (s.regionQuery w (s.regionKey w id)).toNat)]))) s

end Sys2Proof.Machine
end

