-- ==== Sys2Proof/Machine/Spdm.lean ====
section
/-! DEFINITION. The DOE mailbox and the SPDM responder (R403, R404, R442 to R448). -/

namespace Sys2Proof.Machine

/-! ### The mailbox (R442) -/

/-- Physical addresses of RQ and RS. -/
def Doe.rq (d : Doe) : Nat := fld d.qb.toNat 51 12 * 4096
def Doe.rs (d : Doe) : Nat := fld d.sb.toNat 51 12 * 4096

/-- The mailbox writes a buffer; what lies outside memory is lost (log 72). -/
def State.physWrite (s : State) (pa : Nat) (bs : List Byte) : State := if s.backedMem pa bs.length then s.writeHome pa bs else s

/-- The mailbox puts a request into RQ, padded with zeros to 64 bytes, and sets VALID. -/
def State.passRequest (s : State) (r : List Byte) : Host.Outcome State Fault Refusal :=
  let bs := r ++ List.replicate ((64 - r.length % 64) % 64) 0
  let s := s.physWrite s.doe.rq bs
  .next { s with doe := { s.doe with len := r.length, valid := true, busy := true, taken := r.length } }

/-- What the mailbox itself answers to an object that is too long. -/
def tooLong : List Byte := [0x13, 0x7F, 0x01, 0x00]

/-- A request from the host: refused when longer than 16,384 bytes, else passed on once no other is being answered. -/
def State.doeRequest (s : State) (r : List Byte) : Host.Outcome State Fault Refusal :=
  if 16384 < r.length then .next { s with doe := { s.doe with answers := s.doe.answers ++ [tooLong] } }
  else if s.doe.busy then .next { s with doe := { s.doe with waiting := s.doe.waiting ++ [r] } }
  else s.passRequest r

/-- DOE_REQUEST (R442). -/
def execDoeRequest (request : List Byte) (s : State) : Host.Outcome State Fault Refusal := s.doeRequest request

/-- Extensions of slots 8 to 15 that waited for the response (R444). -/
def State.runExtensions (s : State) : State :=
  let s := s.trust.extensions.foldl (fun s x => s.extendSlot x.1 x.2) s
  { s with trust := { s.trust with extensions := [] } }

/-- A write to DOERSP: RS goes to the host unless it has aborted; then the next request is passed on. Only a read clears DOERQ. -/
def State.respond (s : State) (len : Nat) : Host.Outcome State Fault Refusal :=
  let n := min (len % 65536) 16384
  if !s.doe.busy then .next s
  else
    let rs := s.physBytes s.doe.rs n
    let s := s.physDone s.doe.rs n
    let s := { s with doe := { s.doe with
      busy := false, aborted := false,
      answers := if s.doe.aborted then s.doe.answers else s.doe.answers ++ [rs] } }
    let s := s.runExtensions
    match s.doe.waiting with
    | [] => .next s
    | r :: rest => State.passRequest { s with doe := { s.doe with waiting := rest } } r

/-- DOE_RESPONSE (R442). -/
def execDoeResponse (len : Nat) (s : State) : Host.Outcome State Fault Refusal := s.respond len

/-- DOE_ABORT (R442): the response to the request at hand will be discarded. -/
def execDoeAbort (s : State) : Host.Outcome State Fault Refusal :=
  .next { s with doe := { s.doe with aborted := s.doe.busy } }

/-! ### The responder (R403, R445) -/

/-- Bytes of the request in RQ. -/
def State.rqByte (s : State) (i : Nat) : Nat := s.physRead (s.doe.rq + i) 1
def State.rqBytes (s : State) (i n : Nat) : List Byte := s.physBytes (s.doe.rq + i) n
def State.request (s : State) : List Byte := s.rqBytes 0 s.doe.taken

/-- The responder puts a response into RS and writes DOERSP. -/
def State.reply (s : State) (r : List Byte) : Host.Outcome State Fault Refusal :=
  (s.physWrite s.doe.rs r).respond r.length

/-- An ERROR response. -/
def spdmError (code : Nat) : List Byte := [0x13, 0x7F, BitVec.ofNat 8 code, 0x00]

/-- Request codes of R403. -/
def spdmCodes : List Nat := [0x84, 0xE1, 0xE3, 0x81, 0x82, 0x83, 0xE0]

/-- A read of DOERQ clears it. -/
def State.clearDoerq (s : State) : State := { s with doe := { s.doe with len := 0, valid := false } }

/-- A responder answers the request at hand: the responder's task once it has been placed (R444), or a halted package (R400). -/
def State.answers (s : State) : Bool := s.doe.busy && (s.trust.stage == 3 && s.doe.placed || s.trust.stage == 15)

/-- The responder takes a request of one code, with a read of DOERQ, and answers it: ERROR 0x05 when halted; then the checks of R445 in their order, the
fields being `body`'s. -/
def State.spdm (s : State) (code : Nat) (needs : Nat → Bool) (body : State → Host.Outcome State Fault Refusal) :
    Host.Outcome State Fault Refusal :=
  if !s.answers ∨ s.rqByte 1 ≠ code then .next s
  else
    let s := s.clearDoerq
    if s.trust.stage = 15 then s.reply (spdmError 5)
    else if code ≠ 0x84 ∧ s.rqByte 0 ≠ 0x13 then s.reply (spdmError 0x41)
    else if !needs s.doe.conn then s.reply (spdmError 4)
    else body s

/-- Appends an exchange; a transcript of more than 8 KiB is first cut back to the VCA mark. -/
def Doe.append (d : Doe) (request response : List Byte) : Doe :=
  let t := if 8192 < d.transcript.length then d.transcript.take d.vca else d.transcript
  { d with transcript := t ++ request ++ response }

/-- The responder's records become `d`, whose transcript ends with `n` bytes that are new in TB (R444). -/
def State.keepExchange (s : State) (d : Doe) (n : Nat) : State :=
  let old := d.transcript.length - n
  State.physWrite { s with doe := d } (d.tb + old) (d.transcript.drop old)

/-- The new bytes of an exchange. -/
def State.exchange (s : State) (response : List Byte) : Nat := s.request.length + response.length

/-- Appends the exchange at hand and sends the response. -/
def State.record (s : State) (response : List Byte) : Host.Outcome State Fault Refusal :=
  (s.keepExchange (s.doe.append s.request response) (s.exchange response)).reply response

/-- SPDM_GET_VERSION: resets the connection. -/
def execSpdmGetVersion (s : State) : Host.Outcome State Fault Refusal :=
  s.spdm 0x84 (fun _ => true) fun s =>
    State.record { s with doe := { s.doe with conn := 1, challenged := false, transcript := [] } }
      [0x10, 0x04, 0, 0, 0, 1, 0, 0x13]

/-- SPDM_GET_CAPABILITIES. -/
def execSpdmGetCapabilities (s : State) : Host.Outcome State Fault Refusal :=
  s.spdm 0xE1 (· == 1) fun s =>
    State.record { s with doe := { s.doe with conn := 2 } }
      [0x13, 0x61, 0, 0, 0, 17, 0, 0, 0x16, 0, 0, 0, 0, 0x40, 0, 0, 0, 0x40, 0, 0]

/-- The ALGORITHMS response, with or without the extended entry. -/
def algorithms (asym : Bool) : List Byte :=
  let n := if asym then 1 else 0
  [0x13, 0x63, 0, 0, if asym then 40 else 36, 0, 1, 0, 2, 0, 0, 0, 0, 0, 0, 0, 1, 0, 0, 0] ++ List.replicate 12 0 ++
    [n, 0, 0, 0] ++ (if asym then [3, 0, 1, 0] else [])

/-- SPDM_NEGOTIATE_ALGORITHMS: the algorithm is selected only for the exact first entry; the end of the transcript is the VCA mark. -/
def execSpdmNegotiateAlgorithms (s : State) : Host.Outcome State Fault Refusal :=
  s.spdm 0xE3 (· == 2) fun s =>
    let asym := s.rqByte 28 != 0 && s.rqBytes 32 4 == [3, 0, 1, 0]
    let r := algorithms asym
    let d := { s.doe with conn := if asym then 4 else 3 }.append s.request r
    (s.keepExchange { d with vca := d.transcript.length } (s.exchange r)).reply r

/-- After ALGORITHMS. -/
def negotiated (conn : Nat) : Bool := conn == 3 || conn == 4

/-- The digest of the certificate chain. -/
def State.chainDigest (s : State) : List Byte := sha256 s.doe.chain

/-- SPDM_GET_DIGESTS. -/
def execSpdmGetDigests (s : State) : Host.Outcome State Fault Refusal :=
  s.spdm 0x81 negotiated fun s => s.record ([0x13, 0x01, 0x01, 0x01] ++ s.chainDigest)

/-- SPDM_GET_CERTIFICATE: min(Length, L − Offset) bytes from Offset. -/
def execSpdmGetCertificate (s : State) : Host.Outcome State Fault Refusal :=
  s.spdm 0x82 negotiated fun s =>
    let l := s.doe.chain.length
    let off := leNat (s.rqBytes 4 2)
    let n := min (leNat (s.rqBytes 6 2)) (l - off)
    if s.rqByte 2 ≠ 0 ∨ l ≤ off then s.reply (spdmError 1)
    else s.record ([0x13, 0x02, 0, 0] ++ natLe 2 n ++ natLe 2 (l - off - n) ++ (s.doe.chain.drop off).take n)

/-- DMTF value type of a measurement block (R399, R446). -/
def valueType (j : Nat) : Byte := nth 4 [4, 1, 2, 1, 1, 1, 1, 1, 3] j

/-- Measurement block j, 1 to 16 (R446). -/
def State.measBlock (s : State) (j : Nat) : List Byte :=
  [BitVec.ofNat 8 j, 0x01, 0x23, 0x00, valueType j, 0x20, 0x00] ++ s.slotBytes (j - 1)

/-- Blocks from one number on. -/
def State.measBlocks (s : State) (first n : Nat) : List Byte := (List.range n).flatMap fun i => s.measBlock (first + i)

/-- A nonce of 32 bytes from the entropy source. -/
def State.nonce (s : State) : List Byte × State :=
  ((List.range 4).flatMap (fun i => natLe 8 (Config.entropy (s.free + i)).toNat), { s with free := s.free + 4 })

/-- The signing prefix: "dmtf-spdm-v1.3.*" four times, zeros, and the context, in 100 bytes. -/
def signPrefix (context : List Byte) : List Byte :=
  let tag : List Byte := [0x64, 0x6D, 0x74, 0x66, 0x2D, 0x73, 0x70, 0x64, 0x6D, 0x2D, 0x76, 0x31, 0x2E, 0x33, 0x2E, 0x2A]
  tag ++ tag ++ tag ++ tag ++ List.replicate (36 - context.length) 0 ++ context

/-- "responder-challenge_auth signing". -/
def challengeContext : List Byte :=
  [0x72, 0x65, 0x73, 0x70, 0x6F, 0x6E, 0x64, 0x65, 0x72, 0x2D, 0x63, 0x68, 0x61, 0x6C, 0x6C, 0x65, 0x6E, 0x67, 0x65, 0x5F, 0x61, 0x75,
   0x74, 0x68, 0x20, 0x73, 0x69, 0x67, 0x6E, 0x69, 0x6E, 0x67]

/-- "responder-measurements signing". -/
def measurementContext : List Byte :=
  [0x72, 0x65, 0x73, 0x70, 0x6F, 0x6E, 0x64, 0x65, 0x72, 0x2D, 0x6D, 0x65, 0x61, 0x73, 0x75, 0x72, 0x65, 0x6D, 0x65, 0x6E, 0x74, 0x73,
   0x20, 0x73, 0x69, 0x67, 0x6E, 0x69, 0x6E, 0x67]

/-- The responder copies the slots into MR (R444). -/
def State.writeRecord (s : State) : State := s.physWrite (s.doe.data + 0x200) (s.measBlocks 1 16)

/-- The first bytes of D, by offset: what the listing's data section, the loader and the responder's start put there (R444). -/
def responderData (chain : List Byte) : List (Nat × List Byte) :=
  [(0, List.replicate 8192 0), (0x60, spdmError 0), (0x80, [0x10, 0x04, 0, 0, 0, 1, 0, 0x13]),
    (0xA0, [0x13, 0x61, 0, 0, 0, 17, 0, 0, 0x16, 0, 0, 0, 0, 0x40, 0, 0, 0, 0x40, 0, 0]), (0xC0, algorithms true),
    (0x100, [0x13, 0x01, 0x01, 0x01] ++ sha256 chain), (0x140, (List.range 16).map fun i => valueType (i + 1)),
    (0x800, signPrefix challengeContext), (0x900, signPrefix measurementContext), (0x9C0, natLe 8 chain.length), (0xA00, chain)]

/-- The responder's task, which Tirano has queued, is loaded with its chain of 1 to 5,632 bytes and placed; it copies the slots once as it
starts (R444; log 89). -/
def State.placeResponder (s : State) (user : List DWord) (data tb : Nat) (chain : List Byte) : State :=
  if s.trust.stage = 3 ∧ s.doe.queued ∧ user.length = 5 ∧ 1 ≤ chain.length ∧ chain.length ≤ 5632 then
    let s := { s with doe := { s.doe with
      queued := false, placed := true, user := user, data := data, tb := tb, chain := chain, conn := 0, challenged := false,
      transcript := [], vca := 0 } }
    ((responderData chain).foldl (fun s x => s.physWrite (data + x.1) x.2) s).writeRecord
  else s

/-- Signs the transcript with the exchange at hand, whose response is then sent with its signature, and cuts it back to the VCA mark. -/
def State.signed (s : State) (context response : List Byte) : Host.Outcome State Fault Refusal :=
  let d := s.doe.append s.request response
  let sig := slhSignature ((s.signKey 0).getD []) (signPrefix context ++ sha256 d.transcript)
  let t := s.writeRecord.keepExchange d (s.exchange response)
  State.reply { t with doe := { d with transcript := d.transcript.take d.vca } } (response ++ sig)

/-- SPDM_CHALLENGE. -/
def execSpdmChallenge (s : State) : Host.Outcome State Fault Refusal :=
  s.spdm 0x83 (· == 4) fun s =>
    let t := s.rqByte 3
    if s.rqByte 2 ≠ 0 ∨ (t ≠ 0 ∧ t ≠ 1 ∧ t ≠ 255) then s.writeRecord.reply (spdmError 1)
    else
      let (n, s) := s.nonce
      let summary := if t = 1 then sha256 (s.measBlocks 1 8) else if t = 255 then sha256 (s.measBlocks 1 16) else []
      let r := [0x13, 0x03, 0x00, 0x01] ++ s.chainDigest ++ n ++ summary ++ [0, 0] ++ s.rqBytes 36 8
      State.signed { s with doe := { s.doe with challenged := true } } challengeContext r

/-- SPDM_GET_MEASUREMENTS. -/
def execSpdmGetMeasurements (s : State) : Host.Outcome State Fault Refusal :=
  s.spdm 0xE0 (· == 4) fun s =>
    let i := s.rqByte 3
    if s.rqByte 2 ≠ 1 ∨ s.rqByte 36 ≠ 0 ∨ (16 < i ∧ i ≠ 255) then s.writeRecord.reply (spdmError 1)
    else
      let (n, s) := s.nonce
      let blocks := if i = 0 then [] else if i = 255 then s.measBlocks 1 16 else s.measBlock i
      let count := if i = 0 then 0 else if i = 255 then 16 else 1
      let r := [0x13, 0x60, if i = 0 then 0x10 else 0x00, 0x00, BitVec.ofNat 8 count] ++ natLe 3 blocks.length ++ blocks ++ n ++ [0, 0] ++
        s.rqBytes 37 8
      State.signed { s with doe := { s.doe with transcript := s.doe.transcript.take s.doe.vca } } measurementContext r

/-- A VENDOR_DEFINED_REQUEST of registry 3 stands in RQ (R404; its code and the place of its registry are SPDM 1.3's, log 9). -/
def State.isVendor (s : State) : Bool := s.rqByte 1 == 0xFE && s.rqByte 4 == 3 && s.rqByte 5 == 0

/-- SPDM_UNSUPPORTED_REQUEST: a code that is none of R403's, and no vendor-defined request of R404. -/
def execSpdmUnsupportedRequest (s : State) : Host.Outcome State Fault Refusal :=
  if !s.answers ∨ spdmCodes.contains (s.rqByte 1) ∨ s.isVendor then .next s
  else s.clearDoerq.reply (spdmError (if s.trust.stage = 15 then 5 else 7))

/-! ### Vendor-defined requests (R404) -/

/-- A vendor-defined request stands in RQ; it is accepted after a CHALLENGE has succeeded. `act` gives its effect and the bytes that
follow what the outside standard lays out (log 9). -/
def State.vendor (s : State) (act : List Byte → State → List Byte × State) : Host.Outcome State Fault Refusal :=
  if !s.answers ∨ !s.isVendor then .next s
  else
    let s := s.clearDoerq
    if s.trust.stage = 15 then s.reply (spdmError 5)
    else if s.rqByte 0 ≠ 0x13 then s.reply (spdmError 0x41)
    else if !s.doe.challenged then s.reply (spdmError 4)
    else
    let q := s.request
    let (more, s) := act q s
    s.reply ((Config.vendorResponse q ++ more).take 16384)

/-- The trust core's records changed. -/
def State.updTrust (s : State) (f : Trust → Trust) : State := { s with trust := f s.trust }

/-- IDE_KM_QUERY: nothing changes. -/
def execIdeKmQuery (s : State) : Host.Outcome State Fault Refusal := s.vendor fun _ s => ([], s)
/-- IDE_KM_KEY_PROG: the stream has a key (R411). -/
def execIdeKmKeyProg (s : State) : Host.Outcome State Fault Refusal :=
  s.vendor fun q s => ([], s.updTrust fun t => { t with ideKeys := insNat (Config.vendorStream q) t.ideKeys })
/-- IDE_KM_K_SET_GO: a stream with a key runs. -/
def execIdeKmKSetGo (s : State) : Host.Outcome State Fault Refusal :=
  s.vendor fun q s => ([], s.updTrust fun t =>
    if t.ideKeys.contains (Config.vendorStream q) then { t with ideLive := insNat (Config.vendorStream q) t.ideLive } else t)
/-- IDE_KM_K_SET_STOP: the stream stops. -/
def execIdeKmKSetStop (s : State) : Host.Outcome State Fault Refusal :=
  s.vendor fun q s => ([], s.updTrust fun t => { t with ideLive := t.ideLive.filter (· != Config.vendorStream q) })
/-- TDISP_GET_VERSION. -/
def execTdispGetVersion (s : State) : Host.Outcome State Fault Refusal := s.vendor fun _ s => ([], s)
/-- TDISP_GET_CAPABILITIES. -/
def execTdispGetCapabilities (s : State) : Host.Outcome State Fault Refusal := s.vendor fun _ s => ([], s)

end Sys2Proof.Machine
end

