-- ==== Sys2Proof/Machine/Worlds.lean ====
section
/-! DEFINITION. Confidential worlds and their interfaces (R405 to R407, R414), evicted pages (R413), the scrubber (R408), the host's
snoops (R416), and the fabric ports' training, ciphers and lanes (R411, R420). -/

namespace Sys2Proof.Machine

/-! ### Creating worlds (R405, R407) -/

/-- Worlds bound to an interface that are ACTIVE or CLEARING. -/
def State.boundWorlds (s : State) (iface : Nat) : List Nat :=
  (s.trust.worlds.filter fun x => decide (2 ≤ x.1) && x.2.state != 0 && x.2.iface == iface).map (·.1)

/-- The lowest FREE confidential world. -/
def State.freeWorld (s : State) : Option Nat :=
  ((List.range 254).map (· + 2)).find? fun n => (s.world n).state == 0

/-- A creation record (its layout: log 38). -/
def creationRecord (world iface count : Nat) : List Byte :=
  natLe 8 world ++ natLe 8 iface ++ sha256 (Config.interfaceReport iface) ++ natLe 16 count

/-- An extension of slots 8 to 15 is made between requests (R444). -/
def State.queueExtension (s : State) (slot : Nat) (digest : List Byte) : State :=
  let s := s.updTrust fun t => { t with extensions := t.extensions ++ [(slot, digest)] }
  if s.doe.busy || s.doe.valid then s else s.runExtensions

/-- Creates a world for an interface: the lowest FREE number, a fresh key, and its creation record; an interface holds four. -/
def State.createWorld (s : State) (iface : Nat) : State :=
  match s.freeWorld with
  | none => s
  | some n =>
    if 4 ≤ (s.boundWorlds iface).length then s
    else
      let made := s.trust.worldsMade + 1
      let s := s.setWorld n { state := 1, iface := iface, key := Config.worldKey made, saves := 0, created := made }
      let s := s.updTrust fun t => { t with worldsMade := made }
      s.queueExtension (8 + n % 8) (sha256 (creationRecord n iface made))

/-- The host link offers 64 interfaces (R404). -/
def ifaceOk (iface : Nat) : Bool := decide (iface < 64)

/-- LOCK_INTERFACE (R405): from CONFIG_UNLOCKED to CONFIG_LOCKED (log 9), with a world; not while its worlds are being cleared. -/
def execLockInterface (iface : Nat) (s : State) : Host.Outcome State Fault Refusal :=
  s.vendor fun _ s =>
    if ifaceOk iface && s.iface iface == .unlocked && (mapFind s.trust.resets iface).isNone then ([], (s.setIface iface .locked).createWorld iface) else ([], s)

/-- WORLD_REQUEST (R405): from a bound interface in CONFIG_LOCKED, which one whose worlds are being cleared no more is. -/
def execWorldRequest (iface : Nat) (s : State) : Host.Outcome State Fault Refusal :=
  .next (if s.trust.stage = 3 ∧ ifaceOk iface ∧ s.iface iface = .locked ∧ mapFind s.trust.resets iface = none then s.createWorld iface else s)

/-- START_INTERFACE (R404): from CONFIG_LOCKED to RUN (log 9). -/
def execStartInterface (iface : Nat) (s : State) : Host.Outcome State Fault Refusal :=
  s.vendor fun _ s =>
    if s.iface iface = .locked ∧ mapFind s.trust.resets iface = none then ([], s.setIface iface .run) else ([], s)

/-- GET_DEVICE_INTERFACE_REPORT (R404): nothing changes. -/
def execGetDeviceInterfaceReport (iface : Nat) (s : State) : Host.Outcome State Fault Refusal :=
  s.vendor fun _ s => (Config.interfaceReport iface, s)

/-- Code of an interface's state (log 9). -/
def ifaceCode (x : IfaceState) : Byte :=
  match x with
  | .unlocked => 0
  | .locked => 1
  | .run => 2
  | .error => 3

/-- GET_DEVICE_INTERFACE_STATE (R404): nothing changes. -/
def execGetDeviceInterfaceState (iface : Nat) (s : State) : Host.Outcome State Fault Refusal :=
  s.vendor fun _ s => ([ifaceCode (s.iface iface)], s)

/-! ### Clearing an interface's worlds (R405, R414) -/

/-- The sequence of R414 begins: its worlds are CLEARING, which stops their issue (step 1). A sequence in progress is joined. -/
def State.beginClearing (s : State) (iface : Nat) : State :=
  if (mapFind s.trust.resets iface).isSome then s
  else
    let s := (s.boundWorlds iface).foldl (fun s n => s.setWorld n { s.world n with state := 2 }) s
    s.updTrust fun t => { t with resets := mapInsert t.resets iface 1 }

/-- Cancels tasks but keeps the pool pages of their images taken: step 5 scrubs them. -/
def State.cancelKeepingPages (s : State) (ids : List Nat) (status : Nat) : State :=
  let images := (s.sched.tasks.filter fun t => ids.contains t.id).flatMap fun t => t.saved.map (·.id)
  let held := fun (d : Nat) => (s.die d).poolUsed.filter fun p => images.contains p.2
  let s' := ids.foldl (fun s t => s.cancelTask t status) s
  [0, 1, 2, 3].foldl (fun x d => if (held d).isEmpty then x else x.updDie d fun y => { y with poolUsed := y.poolUsed ++ held d }) s'

/-- The matrix commands of the worlds' cohorts are discarded (R414). -/
def State.dropMatrix (s : State) (ws : List Nat) : State :=
  s.mapCores fun c => { c with queue := c.queue.filter fun m => !((s.cohort m.cohort).any fun k => ws.contains k.world) }

/-- Step 2: matrix queues are discarded, tasks are cancelled with status 5, copy commands, triggers, regions and remote operations of the
worlds end. -/
def State.quiesceWorlds (s : State) (ws : List Nat) : State :=
  let s := s.dropMatrix ws
  let s := { s with sched := { s.sched with copies := s.sched.copies.filter fun c => !ws.contains c.world } }
  let tasks := (s.sched.tasks.filter fun t => ws.contains t.world).map (·.id)
  let s := s.cancelKeepingPages tasks 5
  let s := s.cancelTriggers fun t => ws.contains t.world
  let s := s.invalidateRegions fun r => ws.contains r.key.world
  s.updFabric fun f => { f with ops := f.ops.filter fun o => !ws.contains o.world }

/-- The owner entry of a page whose world is gone: ZERO under world 0. -/
def Owner.revoked (o : Owner) : Owner := { Owner.reset with version := o.version }

/-- The pages of device memory that the worlds own, from the entries that differ from reset. -/
def State.pagesOf (s : State) (ws : List Nat) : List Nat :=
  ((s.mem.filter fun c => inOwnerTable c.1 && c.1 % 16 == 0).map fun c => (c.1 - ownerBase) / 16).filter fun p =>
    s.isDevice (p * 65536) && ws.contains (s.owner (p * 65536)).world

/-- Step 3: every page of the worlds is ZERO under world 0, and reads zero from now on (R408, R410). -/
def State.revokePages (s : State) (ws : List Nat) : State :=
  (s.pagesOf ws).foldl (fun s p => (s.zeroPage p).writeOwner (p * 65536) (s.owner (p * 65536)).revoked) s

/-- Step 4: world keys, save counts and the interface's stream keys are gone (its selective stream: log 9). -/
def State.eraseKeys (s : State) (iface : Nat) (ws : List Nat) : State :=
  let s := ws.foldl (fun s n => s.setWorld n { s.world n with key := 0, saves := 0 }) s
  s.updTrust fun t => { t with ideKeys := t.ideKeys.filter (· != iface + 1), ideLive := t.ideLive.filter (· != iface + 1) }

/-- The pool pages of images that no task holds any more are written with zeros and given back. -/
def State.scrubPool (s : State) : State :=
  let live := s.sched.tasks.flatMap fun t => t.saved.map (·.id)
  [0, 1, 2, 3].foldl (fun s d =>
    let gone := (s.die d).poolUsed.filter fun p => !live.contains p.2
    if gone.isEmpty then s else
    let s := gone.foldl (fun s p => s.zeroPage ((s.die d).poolPa p.1 / 65536)) s
    s.updDie d fun x => { x with poolUsed := x.poolUsed.filter fun p => live.contains p.2 }) s

/-- Step 5: the images of saved cohorts are scrubbed from the pool; L1 lines, regions, surrogate weights and triggers of the worlds go;
their resident cohorts went in step 2, whose storage is cleared under R71. -/
def State.scrubWorlds (s : State) (ws : List Nat) : State :=
  let s := s.scrubPool
  { s with
    cores := (s.cores.map fun (c : Nat × Core) => (c.1, { c.2 with
      l1 := c.2.l1.filter fun x => !ws.contains x.world,
      sb := c.2.sb.filter fun x => !ws.contains x.world,
      surrogate := c.2.surrogate.filter fun k => !ws.contains k.1.world })).filter fun c => c.2 != Core.reset
    dies := (s.dies.map fun (d : Nat × Die) => (d.1, { d.2 with
      fit := { d.2.fit with
        regions := d.2.fit.regions.filter fun r => !ws.contains r.key.world,
        samples := d.2.fit.samples.filter fun x => !ws.contains x.key.world,
        mis := d.2.fit.mis.filter fun x => !ws.contains x.1.world },
      triggers := d.2.triggers.filter fun t => !ws.contains t.world })).filter fun d => d.2 != Die.reset }

/-- Step 6: the interface is CONFIG_UNLOCKED and its worlds FREE. -/
def State.reportCleared (s : State) (iface : Nat) (ws : List Nat) : State :=
  let s := ws.foldl (fun s n => s.setWorld n World.reset) s
  (s.setIface iface .unlocked).updTrust fun t => { t with resets := mapErase t.resets iface }

/-- The next step of a sequence that has done `n` steps; the report waits until the storage of the worlds' cohorts is clear. -/
def State.clearStep (s : State) (iface n : Nat) : State :=
  let ws := s.boundWorlds iface
  let noted := fun (s : State) => s.updTrust fun t => { t with resets := mapInsert t.resets iface (n + 1) }
  match n with
  | 1 => noted (s.quiesceWorlds ws)
  | 2 => noted (s.revokePages ws)
  | 3 => noted (s.eraseKeys iface ws)
  | 4 => noted (s.scrubWorlds ws)
  | _ => if s.sched.tasks.any fun t => ws.contains t.world then s else s.reportCleared iface ws

/-- FUNCTION_LEVEL_RESET (R414): the first begins the sequence, and while one runs each makes its next step (log 39). -/
def execFunctionLevelReset (iface : Nat) (s : State) : Host.Outcome State Fault Refusal :=
  .next (match mapFind s.trust.resets iface with
    | some n => s.clearStep iface n
    | none => if s.iface iface = .unlocked ∧ (s.boundWorlds iface).isEmpty then s else s.beginClearing iface)

/-- STOP_INTERFACE (R405). -/
def execStopInterface (iface : Nat) (s : State) : Host.Outcome State Fault Refusal :=
  s.vendor fun _ s => if s.iface iface = .unlocked then ([], s) else ([], s.beginClearing iface)

/-- TDISP_INTERFACE_ERROR (R405). -/
def execTdispInterfaceError (iface : Nat) (s : State) : Host.Outcome State Fault Refusal :=
  .next (if s.iface iface = .unlocked then s else (s.setIface iface .error).beginClearing iface)

/-! ### Pages (R408, R413) -/

/-- IV of a sealed page: entry index and VERSION. -/
def pageIv (index version : Nat) : Nat := index % 2 ^ 32 + 2 ^ 32 * version

/-- Exactly `n` bytes of a free value. -/
def fitBytes (n : Nat) (bs : List Byte) : List Byte := (bs ++ List.replicate n 0).take n

/-- EVICT_PAGE (R413): EVICTED, VERSION + 1, and the sealed page goes to the host. -/
def execEvictPage (page : Nat) (s : State) : Host.Outcome State Fault Refusal :=
  let pa := page * 65536
  let o := s.owner pa
  if !s.isDevice pa ∨ o.state ≠ 0 ∨ o.world < 2 then .next s
  else
    let v := (o.version + 1) % 2 ^ 64
    let i := ownerIndex pa
    let key := (s.world o.world).key
    let c := fitBytes 65536 (Config.gcmSeal key (pageIv i v) [] (s.bytes pa 65536))
    let blob : Blob := { cipher := c, tag := fitBytes 16 (Config.gcmTag key (pageIv i v) [] c), version := v }
    .next ((s.writeOwner pa { o with state := 1, version := v }).updTrust fun t => { t with evicted := mapInsert t.evicted i blob })

/-- Does a returned blob pass: its tag, and its version? -/
def State.blobPasses (s : State) (pa : Nat) (b : Blob) : Bool :=
  let o := s.owner pa
  b.tag == fitBytes 16 (Config.gcmTag (s.world o.world).key (pageIv (ownerIndex pa) b.version) [] b.cipher) && b.version == o.version

/-- PAGE_RETURN (R384, R413): the page is written and OWNED; or the dispatches parked on the token end with status 5, and the world is
told. -/
def execPageReturn (page : Nat) (blob : Blob) (die token : Nat) (s : State) : Host.Outcome State Fault Refusal :=
  let pa := page * 65536
  let o := s.owner pa
  if !s.isDevice pa ∨ o.state ≠ 1 ∨ o.world < 2 then .next s
  else if s.blobPasses pa blob then
    let plain := fitBytes 65536 (Config.gcmOpen (s.world o.world).key (pageIv (ownerIndex pa) blob.version) [] blob.cipher)
    .next ((s.poke pa plain none).writeOwner pa { o with state := 0 })
  else
    let s := s.updTrust fun t => { t with notices := t.notices ++ [(o.world, 2)] }
    match s.popToken die token with
    | none => .next s
    | some (t, s) =>
      let agents := t.agents.filter fun a => s.stillParked die token a
      .next (((agents.filterMap s.agentDispatch).eraseDups).foldl (fun s d => s.killDispatch d) s)

/-- PAGE_SCRUB (R408): a ZERO page is written with zeros. -/
def execPageScrub (page : Nat) (s : State) : Host.Outcome State Fault Refusal :=
  .next (if s.isDevice (page * 65536) && (s.owner (page * 65536)).state == 2 then s.zeroPage page else s)

/-- Tirano gives a page another owner (R408, R410): the change is in force at once, and a page that changes world, or becomes ZERO,
reads zero. The pages of the table stay its own (log 83). -/
def State.changeOwner (s : State) (page world state : Nat) (shared : Bool) : State :=
  let pa := page * 65536
  if !s.isDevice pa || inOwnerTable pa then s
  else
    let o := s.owner pa
    let s := if o.world = world ∧ o.state ≠ 2 ∧ state ≠ 2 then s else s.zeroPage page
    s.writeOwner pa { o with world := if state = 2 then 0 else world, state := state, shared := shared }

/-! ### Snoops, ports (R411, R416, R420) -/

/-- CXL_SNOOP (R416): under CXL the home slice holds the line no more, so its protection ends (a choice, log 75); memory already has its
bytes. -/
def execCxlSnoop (line : Nat) (s : State) : Host.Outcome State Fault Refusal :=
  .next (if s.power.cxl then s.updL2 (homeDie (line * 64)) fun l => { l with prot := l.prot.filter fun p => p.1 != line } else s)

/-- Changes one of the 16 fabric ports. -/
def State.updPort (s : State) (p : Nat) (f : Port → Port) : State :=
  if 16 ≤ p then s
  else s.updFabric fun x => { x with ports := mapPut Port.reset x.ports p (f (mapGet Port.reset x.ports p)) }

/-- PORT_TRAIN (R399, R411): once the package has booted, a port whose peer has proved itself comes up with its keys. -/
def execPortTrain (port : Nat) (peerProved : Bool) (s : State) : Host.Outcome State Fault Refusal :=
  .next (if s.trust.stage = 3 then s.updPort port fun p => { p with up := peerProved, keyed := peerProved, fails := 0 } else s)

/-- FLIT_TAG_FAIL (R411): the flit is dropped and counted; three in a row take the port down. -/
def execFlitTagFail (port : Nat) (s : State) : Host.Outcome State Fault Refusal :=
  if 16 ≤ port ∨ !(mapGet Port.reset s.fabric.ports port).up then .next s
  else
    let s := s.updTrust fun t => { t with tagfail := (t.tagfail + 1) % 2 ^ 32 }
    .next (s.updPort port fun p => if 3 ≤ p.fails + 1 then { p with up := false, keyed := false, fails := 0 } else { p with fails := p.fails + 1 })

/-- LANE_FAILURE (R420): the port runs on two lanes. -/
def execLaneFailure (port : Nat) (s : State) : Host.Outcome State Fault Refusal :=
  .next (s.updPort port fun p => { p with lanes := 2 })

end Sys2Proof.Machine
end

