-- ==== Sys2Proof/Machine/PowerEvents.lean ====
section
/-! DEFINITION. Power and ageing (R422, R423), and what an upset leaves in a register (R390). -/

namespace Sys2Proof.Machine

def State.updPower (s : State) (f : Power → Power) : State := { s with power := f s.power }

/-- An uncorrectable word of a register (R390). -/
def Regs.spoil (r : Regs) (vec : Bool) (key : Nat) : Regs :=
  if vec then { r with vpoison := insNat key r.vpoison } else { r with spoison := insNat key r.spoison }

/-- A core clock that firmware may set: 1.2 to 2.0 GHz in 100 MHz steps (R422). -/
def clockOk (mhz : Nat) : Bool := decide (1200 ≤ mhz ∧ mhz ≤ 2000) && mhz % 100 == 0

/-- The limit in force (R422). -/
def Power.limit (p : Power) : Nat := min 3600 p.lim

/-- The lowest frequency bin that a core runs under (R423). -/
def State.slowest (s : State) : Nat := s.cores.foldl (fun m c => min m c.2.bin) 2000

/-- POWER_THROTTLE (R422): one step down while power is above the limit, or one step up while it is not and no core's bin forbids it. -/
def execPowerThrottle (mhz watts : Nat) (s : State) : Host.Outcome State Fault Refusal :=
  let p := s.power
  let down := mhz + 100 == p.mhz && decide (p.limit < watts)
  let up := p.mhz + 100 == mhz && decide (watts ≤ p.limit ∧ mhz ≤ s.slowest)
  .next (s.updPower fun p => { p with watts := watts % 4096, mhz := if clockOk mhz && (down || up) then mhz else p.mhz })

/-- THERMAL_TRIP (R422): at 105 °C every core stops issuing, and STAGE is 15. -/
def execThermalTrip (s : State) : Host.Outcome State Fault Refusal :=
  .next (if s.power.temp < 105 then s else
    (s.updPower fun p => { p with stopped := true }).updTrust fun t => { t with stage := 15 })

/-- Nanoseconds of an hour. -/
def nsPerHour : Nat := 3600000000000

/-- AGEPLAN (R422). -/
def Power.agePlan (p : Power) : Nat := p.opNs / nsPerHour % 2 ^ 16 + 2 ^ 16 * (p.guard % 2 ^ 16) + 2 ^ 32 * (p.bins % 2 ^ 16)

/-- A plan names cores of the package, each once, with bins that firmware may set. -/
def planOk (plan : List CorePlan) : Bool :=
  !plan.isEmpty && plan.all (fun p => decide (p.core < 4 * 161) && clockOk p.mhz && decide (p.guard < 2 ^ 16)) &&
    (plan.map (·.core)).eraseDups.length == plan.length

/-- AGEING_REPLAN (R423): after 24 operating hours firmware makes a new plan, which the cores take over one by one. -/
def execAgeingReplan (plan : List CorePlan) (record : Nat) (s : State) : Host.Outcome State Fault Refusal :=
  .next (if s.power.opNs < 24 * nsPerHour ∨ !planOk plan then s
    else s.updPower fun p => { p with opNs := 0, plan := plan, waiting := plan.map (·.core), record := record })

/-- A core stands at an idle clause boundary: no wave of it is inside a clause (R167, R423). -/
def State.idleCore (s : State) (c : Nat) : Bool := !s.waves.any fun x => x.2.core == c && x.2.clause.inside

/-- A guardband one step of at most 5 mV nearer to its plan. -/
def nearer (now plan : Nat) : Nat := if now < plan then min plan (now + 5) else max plan (now - 5)

/-- The plan has been applied to every core: it goes to AGEPLAN and to the record in host memory, whose form the spec does not give
(log 37). -/
def State.planApplied (s : State) : State :=
  let plan := s.power.plan
  let s := s.updPower fun p => { p with
    guard := plan.foldl (fun m x => max m x.guard) 0
    bins := (plan.filter fun x => decide (x.mhz < 2000)).length % 2 ^ 16 }
  s.physWrite s.power.record (Config.ageRecord (s.power.agePlan :: plan.flatMap fun x => [x.core, x.guard, x.mhz]))

/-- The next step of the plan on one core (R423): its guardband, and once that stands its bin, which lowers the package's clock. -/
def State.applyPlan (s : State) (c : Nat) : State :=
  match s.power.plan.find? fun p => p.core == c with
  | none => s
  | some p =>
    if !s.power.waiting.contains c || !s.idleCore c then s
    else
      let g := nearer (s.core c).guard p.guard
      if g ≠ p.guard then s.updCore c fun x => { x with guard := g }
      else
        let s := s.updCore c fun x => { x with guard := g, bin := p.mhz }
        let s := s.updPower fun x => { x with mhz := min x.mhz p.mhz, waiting := x.waiting.filter (· != c) }
        if s.power.waiting.isEmpty then s.planApplied else s

end Sys2Proof.Machine
end

