-- ==== Sys2Proof/Machine/Mmio.lean ====
section
/-! DEFINITION. The registers of the MMIO range (R4, R5, R44, R49, R72, R75, R78, R92, R128, R329, R335, R350, R351, R372, R398, R401,
R419, R421, R422, R442): what a read returns and does, and what a write does. -/

namespace Sys2Proof.Machine

/-! ### Fields -/

/-- The bits of a value from `lo` to `hi` in their place; the others, which are reserved, are dropped (R4). -/
def keep (v hi lo : Nat) : Nat := fld v hi lo * 2 ^ lo

/-- A register holding one field, and one holding a field at the bottom and a base above. -/
def baseReg (v : DWord) (hi lo : Nat) : DWord := BitVec.ofNat 64 (keep v.toNat hi lo)
def sizedBase (v : DWord) (lowHi hi lo : Nat) : DWord := BitVec.ofNat 64 (keep v.toNat lowHi 0 + keep v.toNat hi lo)

/-- A counter that a read clears (R5): its value, and the state in which it is 0. -/
abbrev Counted := Nat × State

/-! ### Counters that a read clears -/

def State.takeStgdrop (s : State) (d : Nat) : Counted := ((s.die d).ts.stgdrop, s.updTs d fun t => { t with stgdrop := 0 })
def State.takeRemflt (s : State) (d : Nat) : Counted := ((s.die d).ts.remflt, s.updTs d fun t => { t with remflt := 0 })
def State.takeL2Stgdrop (s : State) (d : Nat) : Counted := ((s.die d).l2.stgdrop, s.updL2 d fun t => { t with stgdrop := 0 })
def State.takeNack (s : State) (d : Nat) : Counted := ((s.die d).l2.nack, s.updL2 d fun t => { t with nack := 0 })
def State.takeFutdbl (s : State) (d : Nat) : Counted := ((s.die d).l2.futdbl, s.updL2 d fun t => { t with futdbl := 0 })
def State.takePoison (s : State) (d : Nat) : Counted := ((s.die d).l2.poison, s.updL2 d fun t => { t with poison := 0 })
def State.takeRednack (s : State) : Counted := (s.fabric.rednack, s.updFabric fun f => { f with rednack := 0 })
def State.takeDroplate (s : State) : Counted := (s.fabric.droplate, s.updFabric fun f => { f with droplate := 0 })
def State.takeTimeout (s : State) : Counted := (s.fabric.timeout, s.updFabric fun f => { f with timeout := 0 })
def State.takeOrphan (s : State) : Counted := (s.fabric.orphan, s.updFabric fun f => { f with orphan := 0 })
def State.takeBadhdr (s : State) : Counted := (s.fabric.badhdr, s.updFabric fun f => { f with badhdr := 0 })
def State.takePre (s : State) : Counted := (s.sched.pre, { s with sched := { s.sched with pre := 0 } })
def State.takeDem (s : State) : Counted := (s.sched.dem, { s with sched := { s.sched with dem := 0 } })
def State.takeFedrop (s : State) (d : Nat) : Counted := ((s.die d).fit.drop, s.updFit d fun t => { t with drop := 0 })
def State.takeFeinv (s : State) (d : Nat) : Counted := ((s.die d).fit.inv, s.updFit d fun t => { t with inv := 0 })
def State.takeMcce (s : State) (d : Nat) : Counted := ((s.die d).mcce, s.updDie d fun t => { t with mcce := 0 })
def State.takeDeny (s : State) : Counted := (s.trust.deny, s.updTrust fun t => { t with deny := 0 })
def State.takeTagfail (s : State) : Counted := (s.trust.tagfail, s.updTrust fun t => { t with tagfail := 0 })
def State.takeThrot (s : State) : Counted := (s.power.throt, s.updPower fun t => { t with throt := 0 })

/-- DOERQ (R442): LEN and VALID are cleared by the read. -/
def State.takeDoerq (s : State) : Counted :=
  (s.doe.len % 65536 + 2 ^ 32 * b2n s.doe.valid, s.clearDoerq)

/-- TRRNG (R442): 64 fresh bits. -/
def State.takeRng (s : State) : Counted := ((Config.entropy s.free).toNat, { s with free := s.free + 1 })

/-! ### Reads -/

/-- The translation service (R44). -/
def State.readService (s : State) (d r : Nat) : Counted :=
  let t := (s.die d).ts
  match r with
  | 0x00 => (t.asbase.toNat, s)
  | 0x08 => (t.fltbase.toNat, s)
  | 0x10 => (t.flthead, s)
  | 0x18 => (t.flttail, s)
  | 0x28 => (t.invaddr.toNat, s)
  | 0x38 => (b2n (!t.invals.isEmpty) + 2 * b2n (!t.waiting.isEmpty) + 4 * b2n t.badresp + 2 ^ 32 * t.tokens.length, s)
  | 0x40 => s.takeStgdrop d
  | 0x48 => s.takeRemflt d
  | _ => (0, s)

/-- The L2 (R78). -/
def State.readL2 (s : State) (d r : Nat) : Counted :=
  match r with
  | 0x00 => ((s.die d).l2.stgres, s)
  | 0x08 => (((s.die d).l2.prot.map (·.1)).eraseDups.length % 2 ^ 24, s)
  | 0x10 => s.takeL2Stgdrop d
  | 0x18 => s.takeNack d
  | 0x20 => s.takeFutdbl d
  | 0x28 => s.takePoison d
  | _ => (0, s)

/-- The snapshot engine (R92). -/
def Snap.readReg (x : Snap) (r : Nat) : Nat :=
  match r with
  | 0x00 => x.tl.toNat
  | 0x08 => x.val.toNat
  | 0x10 => x.reg.toNat
  | 0x18 => x.pool.toNat
  | 0x20 => x.drain.toNat
  | 0x30 => x.state + 2 ^ 4 * x.err + 2 ^ 8 * (x.skip % 2 ^ 24) + 2 ^ 32 * (x.left % 2 ^ 32)
  | _ => 0

/-- The fabric block (R128). -/
def State.readFabric (s : State) (r : Nat) : Counted :=
  let f := s.fabric
  match r with
  | 0x00 => (f.wintab.toNat, s)
  | 0x08 => (f.rules.toNat, s)
  | 0x10 => (b2n f.en, s)
  | 0x18 => (b2n f.ruleerr, s)
  | 0x20 => (f.redto, s)
  | 0x28 => (f.txto, s)
  | 0x30 => s.takeRednack
  | 0x38 => s.takeDroplate
  | 0x40 => s.takeTimeout
  | 0x48 => s.takeOrphan
  | 0x50 => s.takeBadhdr
  | _ => (0, s)

/-- Code of a segment's role (R46). -/
def roleCode (r : Role) : Nat :=
  match r with
  | .off => 0
  | .cache => 1
  | .scratch => 2
  | .fifo => 3

/-- CSEGSTAT of a core (R49). The trust core has two segments (R19): the fields of the others read 0, and FREEREC counts as on any core (a
choice, log 86). -/
def State.segStat (s : State) (core : Nat) : Nat :=
  let n := (coreHas core).scratch / 131072
  let seg := fun (j : Nat) => mapGet Segment.reset (s.core core).segs j
  let roles := (List.range n).foldl (fun a j => a + 2 ^ (2 * j) * roleCode (seg j).role) 0
  let conv := (List.range n).foldl (fun a j => a + 2 ^ (32 + j) * b2n ((seg j).next.isSome || (seg j).clearing)) 0
  roles + conv + 2 ^ 48 * (64 - s.recordsUsed core [])

/-- A core's number within a register block of 0x40 bytes each; the trust core is 160 of die 0. -/
def blockCore (d r : Nat) (trust : Bool) : Option Nat :=
  let c := r / 0x40
  if c < 160 ∨ (trust ∧ c = 160 ∧ d = 0) then some (d * 161 + c) else none

/-- The service queue and the machine-check queue (R329, R398). -/
def RecordQueue.readReg (q : RecordQueue) (r : Nat) : Nat :=
  match r with
  | 0x00 => q.base.toNat
  | 0x08 => q.head
  | 0x10 => q.tail
  | _ => 0

/-- A task queue (R335). -/
def State.readQueue (s : State) (q r : Nat) : Nat :=
  let x := s.queue q
  let live := s.sched.tasks.countP fun t => t.queue == q
  match r with
  | 0x00 => x.cfg.toNat
  | 0x08 => x.ring.toNat
  | 0x18 => b2n (decide (0 < live)) + 2 * b2n x.err + 4 * b2n x.ringf + 2 ^ 4 * (x.last % 256) + 2 ^ 32 * (live % 65536)
  | _ => 0

/-- A slot table (R351): what was last written. -/
def Core.readSlots (c : Core) (r : Nat) : Nat :=
  if r < 0x20 then (List.range 16).foldl (fun a m => a + 2 ^ (4 * m) * mapGet 0 c.tenantsNext (2 * r + m)) 0
  else if r = 0x20 then c.strictNext else 0

/-- The scheduler (R350). -/
def State.readSched (s : State) (r : Nat) : Counted :=
  let x := s.sched
  match r with
  | 0x00 => (b2n x.en + 2 * b2n x.preempt + 2 ^ 16 * x.stagelim + 2 ^ 32 * x.preemptlim, s)
  | 0x08 => (x.tasks.length % 8192 + 2 ^ 13 * b2n (decide (4096 ≤ x.tasks.length)), s)
  | 0x10 => s.takePre
  | 0x18 => s.takeDem
  | _ => (0, s)

/-- A fitting engine (R372). -/
def State.readFitting (s : State) (d r : Nat) : Counted :=
  let f := (s.die d).fit
  match r with
  | 0x00 => (f.mode, s)
  | 0x08 => (f.regions.length % 512 + 2 ^ 16 * (f.regions.countP (·.slot) % 16), s)
  | 0x10 => s.takeFedrop d
  | 0x18 => s.takeFeinv d
  | _ => (0, s)

/-- Machine checks and saves (R398). -/
def State.readChecks (s : State) (d r : Nat) : Counted :=
  match r with
  | 0x20 => s.takeMcce d
  | 0x28 => ((s.die d).cspool.toNat, s)
  | _ => ((s.die d).mc.readReg r, s)

/-- The trust registers (R401). -/
def State.readTrust (s : State) (r : Nat) : Counted :=
  let t := s.trust
  match r with
  | 0x00 => (t.stage + 2 ^ 4 * t.err + 2 ^ 16 * (t.worlds.countP (fun x => x.2.state != 0) % 256), s)
  | 0x08 => (t.recov.toNat, s)
  | 0x18 => s.takeDeny
  | 0x20 => s.takeTagfail
  | 0x28 => ((s.queue 256).cfg.toNat, s)
  | 0x30 => ((s.queue 256).ring.toNat, s)
  | _ => (0, s)

/-- A system copy channel (R419). -/
def Channel.readReg (c : Channel) (r : Nat) : Nat :=
  if r = 0x08 then b2n c.host.isSome + 2 * b2n c.err + 4 * b2n c.drop + keep c.cur 63 6 else 0

/-- Power (R422). -/
def State.readPower (s : State) (r : Nat) : Counted :=
  let p := s.power
  match r with
  | 0x00 => (p.lim, s)
  | 0x08 => (p.watts % 4096 + 2 ^ 16 * (p.mhz % 4096) + 2 ^ 32 * (p.temp % 256), s)
  | 0x10 => s.takeThrot
  | 0x18 => (p.agePlan, s)
  | _ => (0, s)

/-- The DOE mailbox (R442). -/
def State.readDoe (s : State) (r : Nat) : Counted :=
  match r with
  | 0x00 => s.takeDoerq
  | 0x10 => (s.doe.qb.toNat, s)
  | 0x18 => (s.doe.sb.toNat, s)
  | 0x20 => s.takeRng
  | _ => (0, s)

/-- Die and offset of an MMIO address. -/
def mmioOffset (pa : Nat) : Nat := pa % 0x1000000

/-- Registers that stand on every die. -/
def State.readDieReg (s : State) (d o : Nat) : Counted :=
  let r := o % 0x10000
  match o / 0x10000 with
  | 0x4 => s.readService d r
  | 0x5 => s.readL2 d r
  | 0x8 => match blockCore d r true with
    | some c => (if r % 0x40 = 0 then s.segStat c else 0, s)
    | none => (0, s)
  | 0x9 => if r = 0x18 then ((s.die d).svcres.toNat, s) else ((s.die d).svc.readReg r, s)
  | 0xB => match blockCore d r false with
    | some c => ((s.core c).readSlots (r % 0x40), s)
    | none => (0, s)
  | 0xD => s.readFitting d r
  | 0xE => s.readChecks d r
  | 0x10 => if r / 0x40 < 4 then ((s.channel d (r / 0x40)).readReg (r % 0x40), s) else (0, s)
  | _ => (0, s)

/-- Registers that stand on die 0 alone. -/
def State.readMainReg (s : State) (o : Nat) : Counted :=
  let r := o % 0x10000
  match o / 0x10000 with
  | 0x6 => (s.snap.readReg r, s)
  | 0x7 => s.readFabric r
  | 0xA => if r / 0x40 < 256 then (s.readQueue (r / 0x40) (r % 0x40), s) else (0, s)
  | 0xC => s.readSched r
  | 0xF => s.readTrust r
  | 0x11 => (if r = 0 then s.power.ethpeer.toNat else 0, s)
  | 0x12 => s.readPower r
  | 0x13 => s.readDoe r
  | _ => (0, s)

/-- Blocks that stand on die 0 alone: elsewhere their registers read as zero and ignore writes. -/
def mainBlock (o : Nat) : Bool := [0x6, 0x7, 0xA, 0xC, 0xF, 0x11, 0x12, 0x13].contains (o / 0x10000)

/-- A read of the register that an address names, with its effect; no register reads as zero (R72). -/
def State.readReg (s : State) (pa : Nat) : Counted :=
  match mmioDie pa with
  | none => (0, s)
  | some d =>
    let o := mmioOffset pa / 8 * 8
    if mainBlock o then (if d = 0 then s.readMainReg o else (0, s)) else s.readDieReg d o

/-! ### Writes -/

/-- The translation service. A write to the fault queue's base begins a first pass (R38; log 40). -/
def State.writeServiceReg (s : State) (d r : Nat) (v : DWord) : Host.Outcome State Fault Refusal :=
  let n := v.toNat
  match r with
  | 0x00 => .next (s.updTs d fun t => { t with asbase := sizedBase v 0 51 16 })
  | 0x08 => .next (s.updTs d fun t =>
    let b := sizedBase v 3 51 12
    { t with fltbase := b, flthead := 0, fltphase := true, fltcount := queueUnread b 0 t.flttail })
  | 0x18 => .next (s.updTs d fun t => { t with flttail := n % 65536, fltcount := queueUnread t.fltbase t.flthead (n % 65536) })
  | 0x20 => match fld n 17 16 with
    | 0 => execFaultRetry d (n % 65536) s
    | 1 => execFaultTrap d (n % 65536) s
    | 2 => execFaultKill d (n % 65536) s
    | _ => .next (s.badResponse d)
  | 0x28 => .next (s.updTs d fun t => { t with invaddr := baseReg v 56 16 })
  | 0x30 =>
    let page := fld (s.die d).ts.invaddr.toNat 56 16
    let i : Inval := { id := 0, asid := fld n 11 0, all := bit n 12, pkg := bit n 13, range := bit n 14 && !bit n 12, page := page, count := fld n 47 16 }
    s.writeInval d (bit n 13) i
  | 0x38 => .next (if bit n 2 then s.updTs d fun t => { t with badresp := false } else s)
  | _ => .next s

/-- A write to TSINVCMD that finds the queue full stalls its writer (R44). -/
def State.writeStalls (s : State) (pa : Nat) (v : DWord) : Bool :=
  match mmioDie pa with
  | none => false
  | some d => mmioOffset pa == 0x40030 && !s.invalRoom (invalDies d (v.getLsbD 13))

/-- The snapshot engine: SNAPCTL acts, the others hold. A write while a snapshot runs is in force at once (a choice, log 75). -/
def State.writeSnapReg (s : State) (r : Nat) (v : DWord) : Host.Outcome State Fault Refusal :=
  let put := fun (f : Snap → Snap) => Host.Outcome.next { s with snap := f s.snap }
  match r with
  | 0x00 => put fun x => { x with tl := baseReg v 51 3 }
  | 0x08 => put fun x => { x with val := v }
  | 0x10 => put fun x => { x with reg := sizedBase v 6 51 8 }
  | 0x18 => put fun x => { x with pool := baseReg v 51 0 }
  | 0x20 => put fun x => { x with drain := baseReg v 51 6 }
  | 0x28 =>
    if v.getLsbD 0 then
      match execSnapshotArm s with
      | .next s => if v.getLsbD 1 then execSnapshotCancel s else .next s
      | o => o
    else if v.getLsbD 1 then execSnapshotCancel s else .next s
  | _ => .next s

/-- The fabric block: EN first, then the loads. -/
def State.writeFabricReg (s : State) (r : Nat) (v : DWord) : Host.Outcome State Fault Refusal :=
  let n := v.toNat
  let put := fun (f : Fabric → Fabric) => Host.Outcome.next (s.updFabric f)
  match r with
  | 0x00 => put fun f => { f with wintab := baseReg v 51 13 }
  | 0x08 => put fun f => { f with rules := baseReg v 51 12 }
  | 0x10 =>
    let s := s.updFabric fun f => { f with en := bit n 0 }
    match (if bit n 1 then execWindowTableLoad s else .next s) with
    | .next s => if bit n 2 then execRuleTableLoad s else .next s
    | o => o
  | 0x18 => put fun f => if bit n 0 then { f with ruleerr := false } else f
  | 0x20 => put fun f => { f with redto := n % 65536 }
  | 0x28 => put fun f => { f with txto := n % 65536 }
  | _ => .next s

/-- A record queue after a write to its base, which begins a first pass (R38; log 40), and to its tail (R329, R398). -/
def RecordQueue.setBase (q : RecordQueue) (v : DWord) : RecordQueue :=
  let b := sizedBase v 3 51 12
  { q with base := b, head := 0, phase := true, count := queueUnread b 0 q.tail }
def RecordQueue.setTail (q : RecordQueue) (n : Nat) : RecordQueue := { q with tail := n, count := queueUnread q.base q.head n }

/-- The service queue (R329). -/
def State.writeSvcReg (s : State) (d r : Nat) (v : DWord) : Host.Outcome State Fault Refusal :=
  let put := fun (f : RecordQueue → RecordQueue) => Host.Outcome.next (s.updDie d fun x => { x with svc := f x.svc })
  match r with
  | 0x00 => put fun q => q.setBase v
  | 0x10 => put fun q => q.setTail (v.toNat % 65536)
  | 0x18 => .next (s.updDie d fun x => { x with svcres := v })
  | 0x20 => execServiceResponse d (v.toNat % 65536) s
  | _ => .next s

/-- TQCFG (R335). The trust core alone gives a queue to a confidential world, or takes it from one (R406): another writer's value of WORLD
is dropped then (log 88). -/
def Queue.writeCfg (x : Queue) (agent : RegAgent) (v : DWord) : Queue :=
  let old := fld x.cfg.toNat 35 28
  let new := fld v.toNat 35 28
  let world := if agent = .trust ∨ (new < 2 ∧ old < 2) then new else old
  { x with cfg := BitVec.ofNat 64 (keep v.toNat 4 0 + keep v.toNat 27 16 + 2 ^ 28 * world) }

/-- A task queue (R335). -/
def State.writeQueueReg (s : State) (agent : RegAgent) (q r : Nat) (v : DWord) : Host.Outcome State Fault Refusal :=
  let n := v.toNat
  match r with
  | 0x00 => .next (s.updQueue q fun x => x.writeCfg agent v)
  | 0x08 => .next (s.updQueue q fun x => { x with ring := baseReg v 56 7 })
  | 0x10 => execTaskDoorbell q s
  | 0x18 => .next (s.updQueue q fun x => { x with err := x.err && !bit n 1, ringf := x.ringf && !bit n 2 })
  | 0x20 => if bit n 0 then execTaskQueueCancel q s else .next s
  | _ => .next s

/-- A slot table (R351): it takes effect at the next clock whose index modulo 64 is 0. -/
def Core.writeSlots (c : Core) (r : Nat) (v : DWord) : Core :=
  let put := fun (m : List (Nat × Nat)) (j : Nat) => mapPut 0 m (2 * r + j) (fld v.toNat (4 * j + 3) (4 * j))
  if r < 0x20 then { c with tenantsNext := (List.range 16).foldl put c.tenantsNext }
  else if r = 0x20 then { c with strictNext := v.toNat % 65536 } else c

/-- The scheduler (R350). -/
def State.writeSchedReg (s : State) (r : Nat) (v : DWord) : State :=
  let n := v.toNat
  if r = 0 then { s with sched := { s.sched with
    en := bit n 0, preempt := bit n 1, stagelim := fld n 31 16, preemptlim := fld n 47 32 } }
  else s

/-- Machine checks, saves and debug (R398). DBGSTOP and DBGGO act on die 0. -/
def State.writeCheckReg (s : State) (d r : Nat) (v : DWord) : Host.Outcome State Fault Refusal :=
  let n := v.toNat
  let put := fun (f : RecordQueue → RecordQueue) => Host.Outcome.next (s.updDie d fun x => { x with mc := f x.mc })
  match r with
  | 0x00 => put fun q => q.setBase v
  | 0x10 => put fun q => q.setTail (n % 65536)
  | 0x18 => match fld n 17 16 with
    | 0 => execMcRetry d (n % 65536) s
    | 1 => execMcTrap d (n % 65536) s
    | 2 => execMcKill d (n % 65536) s
    | _ => .next s
  | 0x28 => .next (s.updDie d fun x => { x with cspool := baseReg v 51 0 })
  | 0x30 => if d = 0 then execDebugStop (n % 2 ^ 32) s else .next s
  | 0x38 => if d = 0 then execDebugGo (n % 2 ^ 32) s else .next s
  | _ => .next s

/-- TRUST_QUEUE_DOORBELL (R401, R402). -/
def execTrustQueueDoorbell (s : State) : Host.Outcome State Fault Refusal := .next (s.ringBell 256)
/-- TRUST_QUEUE_CANCEL (R402). -/
def execTrustQueueCancel (s : State) : Host.Outcome State Fault Refusal := .next (s.cancelQueue 256)

/-- The trust registers (R401): the trust queue's take writes from the trust core alone. TRCTL.RETRY asks a
halted package for the boot that BOOT_RETRY then makes. -/
def State.writeTrustReg (s : State) (agent : RegAgent) (r : Nat) (v : DWord) : Host.Outcome State Fault Refusal :=
  let n := v.toNat
  match r with
  | 0x08 => .next (s.updTrust fun t => { t with recov := baseReg v 51 12 })
  | 0x10 => .next (s.updTrust fun t => { t with retry := t.retry || (t.stage == 15 && bit n 0) })
  | 0x28 =>
    if agent ≠ .trust then .next s
    else
      let s := s.updQueue 256 fun x => { x with cfg := BitVec.ofNat 64 (keep n 0 0 + keep n 5 2 + keep n 27 16) }
      if bit n 1 then execTrustQueueCancel s else .next s
  | 0x30 => .next (if agent = .trust then s.updQueue 256 fun x => { x with ring := baseReg v 56 7 } else s)
  | 0x38 => if agent = .trust then execTrustQueueDoorbell s else .next s
  | _ => .next s

/-- A system copy channel (R419). -/
def State.writeChannelReg (s : State) (d ch r : Nat) (v : DWord) : State :=
  if r = 0 then s.writeHead d ch v
  else if r = 8 then s.updChannel d ch fun c => { c with err := c.err && !v.getLsbD 1, drop := c.drop && !v.getLsbD 2 }
  else s

/-- The DOE mailbox (R442). -/
def State.writeDoeReg (s : State) (r : Nat) (v : DWord) : Host.Outcome State Fault Refusal :=
  match r with
  | 0x08 => s.respond (v.toNat % 65536)
  | 0x10 => .next { s with doe := { s.doe with qb := baseReg v 51 12 } }
  | 0x18 => .next { s with doe := { s.doe with sb := baseReg v 51 12 } }
  | _ => .next s

/-- Registers that stand on every die. -/
def State.writeDieReg (s : State) (d o : Nat) (v : DWord) : Host.Outcome State Fault Refusal :=
  let r := o % 0x10000
  match o / 0x10000 with
  | 0x4 => s.writeServiceReg d r v
  | 0x5 => .next (if r = 0 then s.updL2 d fun x => { x with stgres := v.toNat % 8 } else s)
  | 0x9 => s.writeSvcReg d r v
  | 0xB => match blockCore d r false with
    | some c => .next (s.updCore c fun x => x.writeSlots (r % 0x40) v)
    | none => .next s
  | 0xD => .next (if r = 0 then s.updFit d fun x => { x with mode := v.toNat % 4 } else s)
  | 0xE => s.writeCheckReg d r v
  | 0x10 => .next (if r / 0x40 < 4 then s.writeChannelReg d (r / 0x40) (r % 0x40) v else s)
  | _ => .next s

/-- Registers that stand on die 0 alone. -/
def State.writeMainReg (s : State) (agent : RegAgent) (o : Nat) (v : DWord) : Host.Outcome State Fault Refusal :=
  let r := o % 0x10000
  match o / 0x10000 with
  | 0x6 => s.writeSnapReg r v
  | 0x7 => s.writeFabricReg r v
  | 0xA => if r / 0x40 < 256 then s.writeQueueReg agent (r / 0x40) (r % 0x40) v else .next s
  | 0xC => .next (s.writeSchedReg r v)
  | 0xF => s.writeTrustReg agent r v
  | 0x11 => .next (if r = 0 then s.updPower fun p => { p with ethpeer := baseReg v 51 13 } else s)
  | 0x12 => .next (if r = 0 then s.updPower fun p => { p with lim := v.toNat % 4096 } else s)
  | 0x13 => s.writeDoeReg r v
  | _ => .next s

/-- A 64-bit write of an agent that the firewall admits; an address that names no register ignores it (R72). -/
def State.writeReg (s : State) (agent : RegAgent) (pa : Nat) (v : DWord) : Host.Outcome State Fault Refusal :=
  match mmioDie pa with
  | none => .next s
  | some d =>
    let o := mmioOffset pa
    if o % 8 ≠ 0 then .next s
    else if mainBlock o then (if d = 0 then s.writeMainReg agent o v else .next s) else s.writeDieReg d o v

end Sys2Proof.Machine
end

