-- ==== Sys2Proof/Machine/RegEvents.lean ====
section
/-! DEFINITION. Register accesses of the host and of firmware as steps: reads that clear, writes (R5), and the host's accesses to the
package (R409, R415, R416). -/

namespace Sys2Proof.Machine

/-- A read by the host or firmware returns a register. -/
def State.returned (x : Counted) : Host.Outcome State Fault Refusal := .next { x.2 with hostData := natLe 8 x.1 }

/-- DOERQ_READ (R442). -/
def execDoerqRead (s : State) : Host.Outcome State Fault Refusal := State.returned s.takeDoerq
/-- TRRNG_READ (R442). -/
def execTrrngRead (s : State) : Host.Outcome State Fault Refusal := State.returned s.takeRng
/-- TSSTGDROP_READ (R44). -/
def execTsstgdropRead (die : Nat) (s : State) : Host.Outcome State Fault Refusal := State.returned (s.takeStgdrop die)
/-- TSREMFLT_READ (R44). -/
def execTsremfltRead (die : Nat) (s : State) : Host.Outcome State Fault Refusal := State.returned (s.takeRemflt die)
/-- L2STGDROP_READ (R78). -/
def execL2stgdropRead (die : Nat) (s : State) : Host.Outcome State Fault Refusal := State.returned (s.takeL2Stgdrop die)
/-- L2NACK_READ (R78). -/
def execL2nackRead (die : Nat) (s : State) : Host.Outcome State Fault Refusal := State.returned (s.takeNack die)
/-- L2FUTDBL_READ (R78). -/
def execL2futdblRead (die : Nat) (s : State) : Host.Outcome State Fault Refusal := State.returned (s.takeFutdbl die)
/-- L2POISON_READ (R78). -/
def execL2poisonRead (die : Nat) (s : State) : Host.Outcome State Fault Refusal := State.returned (s.takePoison die)
/-- FBREDNACK_READ (R128). -/
def execFbrednackRead (s : State) : Host.Outcome State Fault Refusal := State.returned s.takeRednack
/-- FBDROPLATE_READ (R128). -/
def execFbdroplateRead (s : State) : Host.Outcome State Fault Refusal := State.returned s.takeDroplate
/-- FBTIMEOUT_READ (R128). -/
def execFbtimeoutRead (s : State) : Host.Outcome State Fault Refusal := State.returned s.takeTimeout
/-- FBORPHAN_READ (R128). -/
def execFborphanRead (s : State) : Host.Outcome State Fault Refusal := State.returned s.takeOrphan
/-- FBBADHDR_READ (R128). -/
def execFbbadhdrRead (s : State) : Host.Outcome State Fault Refusal := State.returned s.takeBadhdr
/-- SCHEDPRE_READ (R350). -/
def execSchedpreRead (s : State) : Host.Outcome State Fault Refusal := State.returned s.takePre
/-- SCHEDDEM_READ (R350). -/
def execScheddemRead (s : State) : Host.Outcome State Fault Refusal := State.returned s.takeDem
/-- FEDROP_READ (R372). -/
def execFedropRead (die : Nat) (s : State) : Host.Outcome State Fault Refusal := State.returned (s.takeFedrop die)
/-- FEINV_READ (R372). -/
def execFeinvRead (die : Nat) (s : State) : Host.Outcome State Fault Refusal := State.returned (s.takeFeinv die)
/-- MCCE_READ (R398). -/
def execMcceRead (die : Nat) (s : State) : Host.Outcome State Fault Refusal := State.returned (s.takeMcce die)
/-- TRDENY_READ (R401). -/
def execTrdenyRead (s : State) : Host.Outcome State Fault Refusal := State.returned s.takeDeny
/-- TRTAGFAIL_READ (R401). -/
def execTrtagfailRead (s : State) : Host.Outcome State Fault Refusal := State.returned s.takeTagfail
/-- PWRTHROT_READ (R422). -/
def execPwrthrotRead (s : State) : Host.Outcome State Fault Refusal := State.returned s.takeThrot

/-- Who an agent is to the firewall. -/
def agentWho (a : RegAgent) : Who :=
  match a with
  | .host => .host none
  | .trust => .trust
  | .wave n => .world n

/-- A host access that the firewall refuses (R409). -/
def State.denied (s : State) : State := s.updTrust fun t => { t with deny := (t.deny + 1) % 2 ^ 32 }

/-- REGISTER_WRITE (R5, R409, R442): the firewall first; a refused host write is dropped and counted. A writer that stalls makes its
write again (R44). -/
def execRegisterWrite (agent : RegAgent) (addr : Nat) (value : DWord) (s : State) : Host.Outcome State Fault Refusal :=
  if !s.admits (agentWho agent) addr then .next (if agent = .host then s.denied else s)
  else if s.writeStalls addr value then .next s
  else s.writeReg agent addr value

/-! ### Host accesses (R409, R415, R416) -/

/-- The pages of an access of the host pass the firewall. -/
def State.hostPasses (s : State) (pa n : Nat) (iface : Option Nat) : Bool :=
  (List.range (n / 65536 + 2)).all fun i =>
    let a := if i = 0 then pa else (pa / 65536 + i) * 65536
    decide (pa + n ≤ a) || s.admits (.host iface) a

/-- Does the host reach device memory directly: under CXL alone (R416)? -/
def State.hostReaches (s : State) (pa n : Nat) : Bool := s.power.cxl && n != 0 && s.isDevice pa && s.isDevice (pa + n - 1)

/-- A read that completes with Unsupported Request returns nothing. -/
def State.unsupported (s : State) : State := { s with hostData := [] }

/-- BAR0 of the physical function maps the four register ranges as 64 MiB, die d at offset d × 16 MiB (R415). -/
def barPa (offset : Nat) : Nat := 0x30000000000 + offset

/-- A host read through BAR0 (R409, R415): outside its 64 MiB the device offers nothing; a refusal is counted. -/
def State.barRead (s : State) (offset n : Nat) : State :=
  let pa := barPa offset
  if !isMmio pa then s.unsupported
  else if !s.admits (.host none) pa then s.denied.unsupported
  else
    let r := s.readReg pa
    { r.2 with hostData := ((natLe 8 r.1).drop (pa % 8)).take n }

/-- A host write through BAR0: 64-bit words. -/
def State.barWrite (s : State) (offset : Nat) (bs : List Byte) : Host.Outcome State Fault Refusal :=
  let pa := barPa offset
  let v := BitVec.ofNat 64 (leNat bs)
  if !isMmio pa then .next s
  else if !s.admits (.host none) pa then .next s.denied
  else if bs.length ≠ 8 ∨ s.writeStalls pa v then .next s
  else s.writeReg .host pa v

/-- A host read of device memory, under CXL; an access the device does not offer, or that is refused, returns nothing (Unsupported
Request), and a refusal is counted. -/
def State.hostRead (s : State) (pa n : Nat) (iface : Option Nat) : State :=
  if !s.hostReaches pa n then s.unsupported
  else if !s.hostPasses pa n iface then s.denied.unsupported
  else if s.readHeld pa n none then s
  else { s with hostData := s.bytes pa n }

/-- A host write of device memory, under CXL. -/
def State.hostWrite (s : State) (pa : Nat) (bs : List Byte) (iface : Option Nat) : Host.Outcome State Fault Refusal :=
  let n := bs.length
  if !s.hostReaches pa n then .next s
  else if !s.hostPasses pa n iface then .next s.denied
  else if s.writeHeld pa n then .next s
  else .next (s.writeHome pa bs)

/-- An access of the host to its own memory, in which it is a memory agent as any other (R129): no firewall stands before it (R409); it
waits where the link's accesses wait. -/
def State.hostMemory (s : State) (access : HostOp) : State :=
  match access with
  | .read pa n _ => if isHost pa && isHost (pa + n - 1) && !s.readHeld pa n none then { s with hostData := s.bytes pa n } else s
  | .write pa bs _ => if isHost pa && isHost (pa + bs.length - 1) && !s.writeHeld pa bs.length then s.writeHome pa bs else s
  | .readBar _ _ | .writeBar _ _ => s

/-- HOST_ACCESS (R409). -/
def execHostAccess (access : HostOp) (s : State) : Host.Outcome State Fault Refusal :=
  match access with
  | .read pa n iface => .next (s.hostRead pa n iface)
  | .write pa bytes iface => s.hostWrite pa bytes iface
  | .readBar offset n => .next (s.barRead offset n)
  | .writeBar offset bytes => s.barWrite offset bytes

end Sys2Proof.Machine
end

