-- ==== Sys2Proof/Machine/MemIo.lean ====
section
/-! DEFINITION. The scalar load and store SLD and SST, which also reach the registers (R29, R72, R90, R265, R266). -/

namespace Sys2Proof.Machine

/-- Sizes that an IO page allows (R29): b32 and b64. -/
def ioSize (size : Nat) : Bool := size == 2 || size == 3

/-- Does a scalar access reach a page of registers? Only once its translation is at hand. -/
def scalarIo (s : State) (w : Wave) (size : Nat) (ls : List (Nat × Nat)) : Bool :=
  ioSize size && ls.any fun l => (w.xl ++ (s.core w.core).tlb).any fun t => t.covers (s.waveAsid w) l.2 && t.io

/-- A load of a register: it is read as the instruction issues, in order, and its value is the late result. A group that meets it is
doomed with status 6 and nothing is performed (R90). -/
def loadReg (reg nregs size la : Nat) (ls : List (Nat × Nat)) : Body := fun s u w =>
  if w.group.isSome then .done (s.setWave u (w.doom 6))
  else match checkGlobal s u w 0 true (sizeBytes size) ls with
  | .act a => a
  | .bad a => a
  | .ok accs =>
    match accs with
    | [] => .done s
    | a :: _ =>
      let r := s.readReg a.pa
      let v := if size = 3 then r.1 else r.1 / 2 ^ (8 * (a.pa % 8)) % 2 ^ 32
      .done (r.2.updWave u fun w => w.addLate .global false reg nregs size la
        [{ lane := 0, addr := a.pa, own := [], nocache := true }] [(0, v)])

/-- SLD (R266). -/
def execSld (f : MF) (s : State) := runInstr (.sld f) (afterJoin fun s u w =>
  let n := sizeRegs f.size
  let ls := scalarLane w f
  if f.space = 0 then
    if scalarIo s w f.size.toNat ls then loadReg f.data.toNat n f.size.toNat f.la.toNat ls s u w
    else loadGlobal (.sld f) (fun w => scalarLane w f) false f.data.toNat n f.size.toNat f.la.toNat s u w
  else loadScratch (.sld f) (fun w => scalarLane w f) false f.data.toNat n f.size.toNat f.la.toNat s u w) s

/-- The agent that a wave is to a register. -/
def State.regAgent (s : State) (w : Wave) : RegAgent := if isTrustCore w.core then .trust else .wave (s.waveWorld w)

/-- A store to a register, performed as the instruction issues, after the reads before it (R135) and the stores before it to the
same pages (R72); a b32 store has no effect. -/
def storeReg (size v : Nat) (ls : List (Nat × Nat)) : Body := fun s u w =>
  if w.group.isSome then .done (s.setWave u (w.doom 6))
  else match checkGlobal s u w 1 true (sizeBytes size) ls with
  | .act a => a
  | .bad a => a
  | .ok accs =>
    match accs with
    | [] => .done s
    | a :: _ =>
      if size ≠ 3 then .done s
      else if s.writeStalls a.pa (BitVec.ofNat 64 v) then .wait s .cow
      else match s.writeReg (s.regAgent w) a.pa (BitVec.ofNat 64 v) with
        | .next s => if (s.wave u).isSome then .done s else .gone s
        | .refused _ => .done s

/-- The value that SST stores: its registers, K, or ZERO (R265). K and ZERO of a 64-bit store are those of a 64-bit source. -/
def sstValue (w : Wave) (f : MF) : Nat :=
  if f.data.toNat < 128 then w.sgroup f.data.toNat (sizeRegs f.size) else (w.src64 f.data).toNat % 2 ^ (8 * sizeBytes f.size.toNat)

/-- SST (R266). -/
def execSst (f : MF) (s : State) := runInstr (.sst f) (afterJoin fun s u w =>
  let value := fun (w : Wave) (_ : Nat) => sstValue w f
  let ls := scalarLane w f
  if f.space = 0 then
    if scalarIo s w f.size.toNat ls then afterReads (storeReg f.size.toNat (sstValue w f) ls) s u w
    else storeGlobal (fun w => scalarLane w f) f.size.toNat value s u w
  else if ls.isEmpty ∧ w.group.isNone then .done s
  else storeScratch (fun w => scalarLane w f) f.size.toNat value s u w) s

end Sys2Proof.Machine
end

