-- ==== Sys2Proof/Machine/TaskOps.lean ====
section
/-! DEFINITION. TASKQ and TASKSIG (R324, R325). -/

namespace Sys2Proof.Machine

/-- What an append comes to: the status of R324, and the state. -/
def State.append (s : State) (die q : Nat) (desc : List Byte) : Nat × State :=
  let x := s.queue q
  let at_ := fun (s : State) (va access : Nat) => engineXlate s die x.asid (x.world q) (x.who q) (va % 2 ^ 64) access
  match at_ s x.ringVa 2 with
  | .ok tailPa _ s =>
    match at_ s (x.ringVa + 96) 0 with
    | .ok retPa _ s =>
      let tail := s.read tailPa 8
      if s.poisoned tailPa 8 ∨ s.poisoned retPa 8 then (3, s)
      else if x.slotCount q ≤ (tail + 2 ^ 64 - s.read retPa 8) % 2 ^ 64 then (1, s)
      else match at_ s (x.ringVa + 128 + 128 * (tail % x.slotCount q)) 1 with
        | .ok slotPa _ s => (0, ((s.writeHome slotPa desc).writeHome tailPa (natLe 8 (tail + 1))).ringBell q)
        | r => (3, r.after)
    | r => (3, r.after)
  | r => (3, r.after)

/-- TASKQ (R324): the fence first, then the read of the image, the checks of the queue and the append; the status goes to S[d]. -/
def execTaskq (f : EF) (s : State) := runInstr (.taskq f) (forbiddenInGroup (afterJoin fun s u w =>
  let q := (w.src f.a).toNat
  let va := w.base f.b
  let scope := ctlBits f 2 0
  if 255 < q then .trap s trapIllegalOperand ((encode (.taskq f)).getD 0) 48
  else if va % 128 ≠ 0 then .trap s trapMisaligned (BitVec.ofNat 64 va) 0
  else
    let (s, ok) := s.predecessors u w true (decide (1 ≤ scope)) true
    let s := s.drainWave w.core u
    if !ok then .wait s (.fence 7 2 scope)
    else if !s.drained w.core u then .wait s .cow
    else
      let held := match engineXlate s (dieOf w.core) (s.waveAsid w) (s.waveWorld w) (s.waveWho w) va 0 with
        | .ok pa _ _ => s.readHeld pa 128 (some u)
        | _ => false
      let status := fun (n : Nat) (s : State) => Act.done (s.updWave u fun w => w.setS f.d.toNat (BitVec.ofNat 32 n))
      if held then .wait s .cow
      else match engineRead (dieOf w.core) (s.waveAsid w) (s.waveWorld w) (s.waveWho w) 0 2 s va 128 with
      | .ok desc s =>
        let x := s.queue q
        if !x.enabled || x.world q != s.waveWorld w then status 2 s
        else
          let r := s.append (dieOf w.core) q desc
          status r.1 r.2
      | r => status 3 r.after)) s

/-- TASKSIG (R325): the fence, then the atomic add; every waiting task whose dependences name the word reads it again. -/
def execTasksig (f : EF) (s : State) := runInstr (.tasksig f) (forbiddenInGroup (wordAccess (.tasksig f) f.b f.b.toNat 2
  fun pa s u w =>
    let scope := ctlBits f 2 0
    let (s, ok) := s.predecessors u w true (decide (1 ≤ scope)) true
    if !ok then .wait s (.fence 7 2 scope)
    else if s.timelineHeld pa 8 then .wait s .cow
    else
      let s := (s.dropL1 w.core pa 8).writeHome pa (natLe 8 (s.read pa 8 + (w.src64 f.a).toNat)) (some u)
      .done (((s.sched.tasks.filter fun t => t.stage == .waiting).map (·.id)).foldl (fun s t => s.pollDeps t) s))) s

end Sys2Proof.Machine
end

