-- ==== Sys2Proof/Machine/Dispatch.lean ====
section
/-! DEFINITION. The one match from constructors to meanings: instructions of waves first, then the steps of engines,
links, firmware and the host. -/

namespace Sys2Proof.Machine

/-- The meaning of every constructor of `Instr`. -/
def exec (i : Instr) (s : State) : Host.Outcome State Fault Refusal :=
  match i with
  | .nop f => Sys2Proof.Machine.execNop f s
  | .sadd f => Sys2Proof.Machine.execSadd f s
  | .ssub f => Sys2Proof.Machine.execSsub f s
  | .smul f => Sys2Proof.Machine.execSmul f s
  | .smulh f => Sys2Proof.Machine.execSmulh f s
  | .sdiv f => Sys2Proof.Machine.execSdiv f s
  | .srem f => Sys2Proof.Machine.execSrem f s
  | .sand f => Sys2Proof.Machine.execSand f s
  | .sor f => Sys2Proof.Machine.execSor f s
  | .sxor f => Sys2Proof.Machine.execSxor f s
  | .sandn f => Sys2Proof.Machine.execSandn f s
  | .sshl f => Sys2Proof.Machine.execSshl f s
  | .sshr f => Sys2Proof.Machine.execSshr f s
  | .ssha f => Sys2Proof.Machine.execSsha f s
  | .smin f => Sys2Proof.Machine.execSmin f s
  | .smax f => Sys2Proof.Machine.execSmax f s
  | .scmp f => Sys2Proof.Machine.execScmp f s
  | .ssel f => Sys2Proof.Machine.execSsel f s
  | .smov f => Sys2Proof.Machine.execSmov f s
  | .smovi f => Sys2Proof.Machine.execSmovi f s
  | .sbfe f => Sys2Proof.Machine.execSbfe f s
  | .sbfi f => Sys2Proof.Machine.execSbfi f s
  | .slzc f => Sys2Proof.Machine.execSlzc f s
  | .spopc f => Sys2Proof.Machine.execSpopc f s
  | .sffs f => Sys2Proof.Machine.execSffs f s
  | .sadd64 f => Sys2Proof.Machine.execSadd64 f s
  | .ssub64 f => Sys2Proof.Machine.execSsub64 f s
  | .smad64 f => Sys2Proof.Machine.execSmad64 f s
  | .scvt f => Sys2Proof.Machine.execScvt f s
  | .sfma f => Sys2Proof.Machine.execSfma f s
  | .sfcmp f => Sys2Proof.Machine.execSfcmp f s
  | .gets f => Sys2Proof.Machine.execGets f s
  | .mand f => Sys2Proof.Machine.execMand f s
  | .mor f => Sys2Proof.Machine.execMor f s
  | .mxor f => Sys2Proof.Machine.execMxor f s
  | .mandn f => Sys2Proof.Machine.execMandn f s
  | .mnot f => Sys2Proof.Machine.execMnot f s
  | .mmov f => Sys2Proof.Machine.execMmov f s
  | .mpopc f => Sys2Proof.Machine.execMpopc f s
  | .mffs f => Sys2Proof.Machine.execMffs f s
  | .msave f => Sys2Proof.Machine.execMsave f s
  | .melse f => Sys2Proof.Machine.execMelse f s
  | .mjoin f => Sys2Proof.Machine.execMjoin f s
  | .mlive f => Sys2Proof.Machine.execMlive f s
  | .bra f => Sys2Proof.Machine.execBra f s
  | .brz f => Sys2Proof.Machine.execBrz f s
  | .brnz f => Sys2Proof.Machine.execBrnz f s
  | .bmz f => Sys2Proof.Machine.execBmz f s
  | .bmnz f => Sys2Proof.Machine.execBmnz f s
  | .bmall f => Sys2Proof.Machine.execBmall f s
  | .call f => Sys2Proof.Machine.execCall f s
  | .ret f => Sys2Proof.Machine.execRet f s
  | .jmpi f => Sys2Proof.Machine.execJmpi f s
  | .exit f => Sys2Proof.Machine.execExit f s
  | .bar f => Sys2Proof.Machine.execBar f s
  | .bara f => Sys2Proof.Machine.execBara f s
  | .barw f => Sys2Proof.Machine.execBarw f s
  | .yield f => Sys2Proof.Machine.execYield f s
  | .nap f => Sys2Proof.Machine.execNap f s
  | .trap f => Sys2Proof.Machine.execTrap f s
  | .vadd f => Sys2Proof.Machine.execVadd f s
  | .vsub f => Sys2Proof.Machine.execVsub f s
  | .vmul f => Sys2Proof.Machine.execVmul f s
  | .vmulh f => Sys2Proof.Machine.execVmulh f s
  | .vmad f => Sys2Proof.Machine.execVmad f s
  | .vmin f => Sys2Proof.Machine.execVmin f s
  | .vmax f => Sys2Proof.Machine.execVmax f s
  | .vabsd f => Sys2Proof.Machine.execVabsd f s
  | .vand f => Sys2Proof.Machine.execVand f s
  | .vor f => Sys2Proof.Machine.execVor f s
  | .vxor f => Sys2Proof.Machine.execVxor f s
  | .vlogic f => Sys2Proof.Machine.execVlogic f s
  | .vshl f => Sys2Proof.Machine.execVshl f s
  | .vshr f => Sys2Proof.Machine.execVshr f s
  | .vsha f => Sys2Proof.Machine.execVsha f s
  | .vbfe f => Sys2Proof.Machine.execVbfe f s
  | .vbfi f => Sys2Proof.Machine.execVbfi f s
  | .vpopc f => Sys2Proof.Machine.execVpopc f s
  | .vlzc f => Sys2Proof.Machine.execVlzc f s
  | .vcmp f => Sys2Proof.Machine.execVcmp f s
  | .vsel f => Sys2Proof.Machine.execVsel f s
  | .vmov f => Sys2Proof.Machine.execVmov f s
  | .vmovi f => Sys2Proof.Machine.execVmovi f s
  | .vlane f => Sys2Proof.Machine.execVlane f s
  | .vred f => Sys2Proof.Machine.execVred f s
  | .vscan f => Sys2Proof.Machine.execVscan f s
  | .vrand f => Sys2Proof.Machine.execVrand f s
  | .vplane f => Sys2Proof.Machine.execVplane f s
  | .vunplane f => Sys2Proof.Machine.execVunplane f s
  | .vfadd f => Sys2Proof.Machine.execVfadd f s
  | .vfsub f => Sys2Proof.Machine.execVfsub f s
  | .vfmul f => Sys2Proof.Machine.execVfmul f s
  | .vfma f => Sys2Proof.Machine.execVfma f s
  | .vfmin f => Sys2Proof.Machine.execVfmin f s
  | .vfmax f => Sys2Proof.Machine.execVfmax f s
  | .vfcmp f => Sys2Proof.Machine.execVfcmp f s
  | .vfclass f => Sys2Proof.Machine.execVfclass f s
  | .vfdiv f => Sys2Proof.Machine.execVfdiv f s
  | .vfsqrt f => Sys2Proof.Machine.execVfsqrt f s
  | .vfrcp f => Sys2Proof.Machine.execVfrcp f s
  | .vfrsq f => Sys2Proof.Machine.execVfrsq f s
  | .vfexp2 f => Sys2Proof.Machine.execVfexp2 f s
  | .vflog2 f => Sys2Proof.Machine.execVflog2 f s
  | .vfsin f => Sys2Proof.Machine.execVfsin f s
  | .vfcos f => Sys2Proof.Machine.execVfcos f s
  | .vftanh f => Sys2Proof.Machine.execVftanh f s
  | .vcvt f => Sys2Proof.Machine.execVcvt f s
  | .vpack f => Sys2Proof.Machine.execVpack f s
  | .vunpk f => Sys2Proof.Machine.execVunpk f s
  | .vfred f => Sys2Proof.Machine.execVfred f s
  | .vfdot2 f => Sys2Proof.Machine.execVfdot2 f s
  | .vld f => Sys2Proof.Machine.execVld f s
  | .vst f => Sys2Proof.Machine.execVst f s
  | .sld f => Sys2Proof.Machine.execSld f s
  | .sst f => Sys2Proof.Machine.execSst f s
  | .vatom f => Sys2Proof.Machine.execVatom f s
  | .satom f => Sys2Proof.Machine.execSatom f s
  | .fqpush f => Sys2Proof.Machine.execFqpush f s
  | .fqpop f => Sys2Proof.Machine.execFqpop f s
  | .cpref f => Sys2Proof.Machine.execCpref f s
  | .cflush f => Sys2Proof.Machine.execCflush f s
  | .segcfg f => Sys2Proof.Machine.execSegcfg f s
  | .tcopy f => Sys2Proof.Machine.execTcopy f s
  | .spmark f => Sys2Proof.Machine.execSpmark f s
  | .fload f => Sys2Proof.Machine.execFload f s
  | .fstore f => Sys2Proof.Machine.execFstore f s
  | .freset f => Sys2Proof.Machine.execFreset f s
  | .fence f => Sys2Proof.Machine.execFence f s
  | .batch f => Sys2Proof.Machine.execBatch f s
  | .waitt f => Sys2Proof.Machine.execWaitt f s
  | .waittMemory f => Sys2Proof.Machine.execWaittMemory f s
  | .tlread f => Sys2Proof.Machine.execTlread f s
  | .tlreadDeferred f => Sys2Proof.Machine.execTlreadDeferred f s
  | .cgbegin f => Sys2Proof.Machine.execCgbegin f s
  | .cgcommit f => Sys2Proof.Machine.execCgcommit f s
  | .cgabort f => Sys2Proof.Machine.execCgabort f s
  | .sbset f => Sys2Proof.Machine.execSbset f s
  | .sbclr f => Sys2Proof.Machine.execSbclr f s
  | .sbwait f => Sys2Proof.Machine.execSbwait f s
  | .sbtake f => Sys2Proof.Machine.execSbtake f s
  | .obres f => Sys2Proof.Machine.execObres f s
  | .obrel f => Sys2Proof.Machine.execObrel f s
  | .obwr f => Sys2Proof.Machine.execObwr f s
  | .obrd f => Sys2Proof.Machine.execObrd f s
  | .mplane f => Sys2Proof.Machine.execMplane f s
  | .mlds f => Sys2Proof.Machine.execMlds f s
  | .mswap f => Sys2Proof.Machine.execMswap f s
  | .mma f => Sys2Proof.Machine.execMma f s
  | .macz f => Sys2Proof.Machine.execMacz f s
  | .mshout f => Sys2Proof.Machine.execMshout f s
  | .mshin f => Sys2Proof.Machine.execMshin f s
  | .rstore f => Sys2Proof.Machine.execRstore f s
  | .rload f => Sys2Proof.Machine.execRload f s
  | .rred f => Sys2Proof.Machine.execRred f s
  | .ratom f => Sys2Proof.Machine.execRatom f s
  | .rsig f => Sys2Proof.Machine.execRsig f s
  | .rxfer f => Sys2Proof.Machine.execRxfer f s
  | .trgarm f => Sys2Proof.Machine.execTrgarm f s
  | .trgcan f => Sys2Proof.Machine.execTrgcan f s
  | .apxbegin f => Sys2Proof.Machine.execApxbegin f s
  | .apxend f => Sys2Proof.Machine.execApxend f s
  | .apxinv f => Sys2Proof.Machine.execApxinv f s
  | .apxqry f => Sys2Proof.Machine.execApxqry f s
  | .taskq f => Sys2Proof.Machine.execTaskq f s
  | .tasksig f => Sys2Proof.Machine.execTasksig f s
  | .sets f => Sys2Proof.Machine.execSets f s
  | .eret f => Sys2Proof.Machine.execEret f s
  | .syscall f => Sys2Proof.Machine.execSyscall f s
  | .tlbinv f => Sys2Proof.Machine.execTlbinv f s
  | .hashb f => Sys2Proof.Machine.execHashb f s
  | .signq f => Sys2Proof.Machine.execSignq f s
  | .measxExtend f => Sys2Proof.Machine.execMeasxExtend f s
  | .measxRead f => Sys2Proof.Machine.execMeasxRead f s
  | .clauseHeader h => Sys2Proof.Machine.execClauseHeader h s
  | .waveReady wave => Sys2Proof.Machine.execWaveReady wave s
  | .lateResultLand wave seq lanes => Sys2Proof.Machine.execLateResultLand wave seq lanes s
  | .napExpiry wave => Sys2Proof.Machine.execNapExpiry wave s
  | .storeBufferDrain core entry => Sys2Proof.Machine.execStoreBufferDrain core entry s
  | .l1SectorExpiry core sector => Sys2Proof.Machine.execL1SectorExpiry core sector s
  | .cowPageCopy page => Sys2Proof.Machine.execCowPageCopy page s
  | .floadResend wave seq => Sys2Proof.Machine.execFloadResend wave seq s
  | .translationWalkComplete die walk => Sys2Proof.Machine.execTranslationWalkComplete die walk s
  | .tlbRequestReissue die request => Sys2Proof.Machine.execTlbRequestReissue die request s
  | .faultRecordDeferred die => Sys2Proof.Machine.execFaultRecordDeferred die s
  | .faultRetry die token => Sys2Proof.Machine.execFaultRetry die token s
  | .faultTrap die token => Sys2Proof.Machine.execFaultTrap die token s
  | .faultKill die token => Sys2Proof.Machine.execFaultKill die token s
  | .invalidateAsid die asid pkg => Sys2Proof.Machine.execInvalidateAsid die asid pkg s
  | .invalidateRange die asid va count pkg => Sys2Proof.Machine.execInvalidateRange die asid va count pkg s
  | .invalidateAll die pkg => Sys2Proof.Machine.execInvalidateAll die pkg s
  | .invalidationComplete die => Sys2Proof.Machine.execInvalidationComplete die s
  | .tileCopyPerform cmd elems => Sys2Proof.Machine.execTileCopyPerform cmd elems s
  | .segcfgComplete cmd => Sys2Proof.Machine.execSegcfgComplete cmd s
  | .tlreadPerform cmd => Sys2Proof.Machine.execTlreadPerform cmd s
  | .obrelRelease core cmd => Sys2Proof.Machine.execObrelRelease core cmd s
  | .obwrWrite core cmd => Sys2Proof.Machine.execObwrWrite core cmd s
  | .obrdRead core cmd => Sys2Proof.Machine.execObrdRead core cmd s
  | .mplaneWrite core cmd => Sys2Proof.Machine.execMplaneWrite core cmd s
  | .mldsLoad core cmd => Sys2Proof.Machine.execMldsLoad core cmd s
  | .mswapExchange core cmd => Sys2Proof.Machine.execMswapExchange core cmd s
  | .mmaRowStep core cmd => Sys2Proof.Machine.execMmaRowStep core cmd s
  | .maczClear core cmd => Sys2Proof.Machine.execMaczClear core cmd s
  | .mshoutRow core cmd => Sys2Proof.Machine.execMshoutRow core cmd s
  | .mshinRow core cmd => Sys2Proof.Machine.execMshinRow core cmd s
  | .routerExpand arrival => Sys2Proof.Machine.execRouterExpand arrival s
  | .targetPerform delivery => Sys2Proof.Machine.execTargetPerform delivery s
  | .reductionContribution delivery => Sys2Proof.Machine.execReductionContribution delivery s
  | .reductionSlotTimeout slot => Sys2Proof.Machine.execReductionSlotTimeout slot s
  | .tombstoneExpiry tombstone => Sys2Proof.Machine.execTombstoneExpiry tombstone s
  | .reductionNackResend refusal => Sys2Proof.Machine.execReductionNackResend refusal s
  | .combineAck entry branch ack => Sys2Proof.Machine.execCombineAck entry branch ack s
  | .combineTimeout entry => Sys2Proof.Machine.execCombineTimeout entry s
  | .combineNackResend refusal => Sys2Proof.Machine.execCombineNackResend refusal s
  | .remoteAck op ack => Sys2Proof.Machine.execRemoteAck op ack s
  | .remoteTxTimeout op => Sys2Proof.Machine.execRemoteTxTimeout op s
  | .rxferTransfer cmd => Sys2Proof.Machine.execRxferTransfer cmd s
  | .roceAck source cause => Sys2Proof.Machine.execRoceAck source cause s
  | .triggerFire die entry uncertainty => Sys2Proof.Machine.execTriggerFire die entry uncertainty s
  | .triggerComplete die entry => Sys2Proof.Machine.execTriggerComplete die entry s
  | .snapshotArm => Sys2Proof.Machine.execSnapshotArm s
  | .snapshotCancel => Sys2Proof.Machine.execSnapshotCancel s
  | .snapshotFreeze => Sys2Proof.Machine.execSnapshotFreeze s
  | .snapshotMarkComplete => Sys2Proof.Machine.execSnapshotMarkComplete s
  | .snapshotDrainRecord die => Sys2Proof.Machine.execSnapshotDrainRecord die s
  | .windowTableLoad => Sys2Proof.Machine.execWindowTableLoad s
  | .ruleTableLoad => Sys2Proof.Machine.execRuleTableLoad s
  | .taskDoorbell queue => Sys2Proof.Machine.execTaskDoorbell queue s
  | .taskRead queue => Sys2Proof.Machine.execTaskRead queue s
  | .dependencePoll task => Sys2Proof.Machine.execDependencePoll task s
  | .admissionTest task => Sys2Proof.Machine.execAdmissionTest task s
  | .stagingLanding copy bytes => Sys2Proof.Machine.execStagingLanding copy bytes s
  | .stagingTimeout task => Sys2Proof.Machine.execStagingTimeout task s
  | .cohortPlace task index core => Sys2Proof.Machine.execCohortPlace task index core s
  | .cohortRetire cohort => Sys2Proof.Machine.execCohortRetire cohort s
  | .storageClearComplete core item => Sys2Proof.Machine.execStorageClearComplete core item s
  | .segmentConvert core segment role => Sys2Proof.Machine.execSegmentConvert core segment role s
  | .segmentConversionComplete core segment => Sys2Proof.Machine.execSegmentConversionComplete core segment s
  | .waitTimeout100us wave => Sys2Proof.Machine.execWaitTimeout100us wave s
  | .preemptLimitExpiry task victim => Sys2Proof.Machine.execPreemptLimitExpiry task victim s
  | .cohortRestore saved core => Sys2Proof.Machine.execCohortRestore saved core s
  | .taskQueueCancel queue => Sys2Proof.Machine.execTaskQueueCancel queue s
  | .fittingSample die => Sys2Proof.Machine.execFittingSample die s
  | .replayStep die region => Sys2Proof.Machine.execReplayStep die region s
  | .serviceResponse die token => Sys2Proof.Machine.execServiceResponse die token s
  | .serviceRecordDeferred die => Sys2Proof.Machine.execServiceRecordDeferred die s
  | .mcRetry die token => Sys2Proof.Machine.execMcRetry die token s
  | .mcTrap die token => Sys2Proof.Machine.execMcTrap die token s
  | .mcKill die token => Sys2Proof.Machine.execMcKill die token s
  | .mcRecordDeferred die => Sys2Proof.Machine.execMcRecordDeferred die s
  | .debugStop dispatch => Sys2Proof.Machine.execDebugStop dispatch s
  | .debugGo dispatch => Sys2Proof.Machine.execDebugGo dispatch s
  | .channelHeadWrite die channel value => Sys2Proof.Machine.execChannelHeadWrite die channel value s
  | .channelRecord die channel drain => Sys2Proof.Machine.execChannelRecord die channel drain s
  | .packageReset images => Sys2Proof.Machine.execPackageReset images s
  | .bootRetry images => Sys2Proof.Machine.execBootRetry images s
  | .trustQueueDoorbell => Sys2Proof.Machine.execTrustQueueDoorbell s
  | .trustQueueCancel => Sys2Proof.Machine.execTrustQueueCancel s
  | .doeRequest request => Sys2Proof.Machine.execDoeRequest request s
  | .doeResponse len => Sys2Proof.Machine.execDoeResponse len s
  | .doeAbort => Sys2Proof.Machine.execDoeAbort s
  | .spdmGetVersion => Sys2Proof.Machine.execSpdmGetVersion s
  | .spdmGetCapabilities => Sys2Proof.Machine.execSpdmGetCapabilities s
  | .spdmNegotiateAlgorithms => Sys2Proof.Machine.execSpdmNegotiateAlgorithms s
  | .spdmGetDigests => Sys2Proof.Machine.execSpdmGetDigests s
  | .spdmGetCertificate => Sys2Proof.Machine.execSpdmGetCertificate s
  | .spdmChallenge => Sys2Proof.Machine.execSpdmChallenge s
  | .spdmGetMeasurements => Sys2Proof.Machine.execSpdmGetMeasurements s
  | .spdmUnsupportedRequest => Sys2Proof.Machine.execSpdmUnsupportedRequest s
  | .ideKmQuery => Sys2Proof.Machine.execIdeKmQuery s
  | .ideKmKeyProg => Sys2Proof.Machine.execIdeKmKeyProg s
  | .ideKmKSetGo => Sys2Proof.Machine.execIdeKmKSetGo s
  | .ideKmKSetStop => Sys2Proof.Machine.execIdeKmKSetStop s
  | .tdispGetVersion => Sys2Proof.Machine.execTdispGetVersion s
  | .tdispGetCapabilities => Sys2Proof.Machine.execTdispGetCapabilities s
  | .lockInterface iface => Sys2Proof.Machine.execLockInterface iface s
  | .getDeviceInterfaceReport iface => Sys2Proof.Machine.execGetDeviceInterfaceReport iface s
  | .getDeviceInterfaceState iface => Sys2Proof.Machine.execGetDeviceInterfaceState iface s
  | .startInterface iface => Sys2Proof.Machine.execStartInterface iface s
  | .stopInterface iface => Sys2Proof.Machine.execStopInterface iface s
  | .worldRequest iface => Sys2Proof.Machine.execWorldRequest iface s
  | .functionLevelReset iface => Sys2Proof.Machine.execFunctionLevelReset iface s
  | .evictPage page => Sys2Proof.Machine.execEvictPage page s
  | .pageReturn page blob die token => Sys2Proof.Machine.execPageReturn page blob die token s
  | .pageScrub page => Sys2Proof.Machine.execPageScrub page s
  | .hostAccess access => Sys2Proof.Machine.execHostAccess access s
  | .cxlSnoop line => Sys2Proof.Machine.execCxlSnoop line s
  | .portTrain port peerProved => Sys2Proof.Machine.execPortTrain port peerProved s
  | .flitTagFail port => Sys2Proof.Machine.execFlitTagFail port s
  | .laneFailure port => Sys2Proof.Machine.execLaneFailure port s
  | .powerThrottle mhz watts => Sys2Proof.Machine.execPowerThrottle mhz watts s
  | .thermalTrip => Sys2Proof.Machine.execThermalTrip s
  | .ageingReplan plan record => Sys2Proof.Machine.execAgeingReplan plan record s
  | .doerqRead => Sys2Proof.Machine.execDoerqRead s
  | .trrngRead => Sys2Proof.Machine.execTrrngRead s
  | .tsstgdropRead die => Sys2Proof.Machine.execTsstgdropRead die s
  | .tsremfltRead die => Sys2Proof.Machine.execTsremfltRead die s
  | .l2stgdropRead die => Sys2Proof.Machine.execL2stgdropRead die s
  | .l2nackRead die => Sys2Proof.Machine.execL2nackRead die s
  | .l2futdblRead die => Sys2Proof.Machine.execL2futdblRead die s
  | .l2poisonRead die => Sys2Proof.Machine.execL2poisonRead die s
  | .fbrednackRead => Sys2Proof.Machine.execFbrednackRead s
  | .fbdroplateRead => Sys2Proof.Machine.execFbdroplateRead s
  | .fbtimeoutRead => Sys2Proof.Machine.execFbtimeoutRead s
  | .fborphanRead => Sys2Proof.Machine.execFborphanRead s
  | .fbbadhdrRead => Sys2Proof.Machine.execFbbadhdrRead s
  | .schedpreRead => Sys2Proof.Machine.execSchedpreRead s
  | .scheddemRead => Sys2Proof.Machine.execScheddemRead s
  | .fedropRead die => Sys2Proof.Machine.execFedropRead die s
  | .feinvRead die => Sys2Proof.Machine.execFeinvRead die s
  | .mcceRead die => Sys2Proof.Machine.execMcceRead die s
  | .trdenyRead => Sys2Proof.Machine.execTrdenyRead s
  | .trtagfailRead => Sys2Proof.Machine.execTrtagfailRead s
  | .pwrthrotRead => Sys2Proof.Machine.execPwrthrotRead s
  | .registerWrite agent addr value => Sys2Proof.Machine.execRegisterWrite agent addr value s
  | .l2StagingFill copy line => Sys2Proof.Machine.execL2StagingFill copy line s
  | .tdispInterfaceError iface => Sys2Proof.Machine.execTdispInterfaceError iface s
  | .supplyLoss => Sys2Proof.Machine.execSupplyLoss s

end Sys2Proof.Machine
end

