-- ==== Sys2Proof/Machine/Step.lean ====
section
/-! DEFINITION. One step of the package: the agent at the head of the agenda moves; with an empty agenda the core of the
wave whose turn it is issues. -/

namespace Sys2Proof.Machine

/-- The wave whose turn it is fetches the word at its PC and runs it. -/
def State.runWave (s : State) : Host.Outcome State Fault Refusal :=
  match s.cur with
  | none => .next s
  | some u =>
    match s.wave u with
    | none => .next s
    | some w =>
      match issueGate s u w (!w.clause.inside) with
      | some s => .next s
      | none =>
      match s.nextWord u w with
      | .act a => finishAct u w.pc false false a
      | .word x s =>
        match decode x with
        | .ok (.clauseHeader h) => if w.clause.inside then s.illegalWord x else exec (.clauseHeader h) s
        | .ok i => if w.clause.inside then exec i s else s.illegalHeader x
        | .error _ => if w.clause.inside then s.illegalWord x else s.illegalHeader x

/-- A core issues (R162): at most one instruction in a clock, from the wave that R166 and R352 choose. -/
def State.coreTurn (s : State) (c : Nat) : Host.Outcome State Fault Refusal :=
  if s.power.stopped then .next s
  else
    let s := if (s.core c).lastIssue == some s.clock then s.advance 1 0 else s
    match s.selectWave c with
    | none => .next s
    | some (_, s) => s.runWave

/-- With an empty agenda the core of the wave whose turn it is goes on; if no wave can issue, a clock passes (log 14). -/
def State.idleTurn (s : State) : Host.Outcome State Fault Refusal :=
  match s.cur.bind s.wave with
  | none => .next (s.advance 1 0)
  | some w =>
    if s.power.stopped || (s.selectWave w.core).isNone then .next (s.advance 1 0) else s.coreTurn w.core

/-- A turn of the physical world or of Tirano that is no row of the opcode table. -/
def State.worldTurn (s : State) (t : Turn) : State :=
  match t with
  | .upset u => s.updWave u fun w => { w with upset := true }
  | .upsetMatrix core cmd => s.upsetMatrix core cmd
  | .upsetTraining die region => s.upsetTraining die region
  | .spoilMatrix cohort half store word => s.updCohort cohort fun c => { c with mx := c.mx.modify half fun m => m.spoil store word }
  | .corrected die => s.updDie die fun d => { d with mcce := (d.mcce + 1) % 2 ^ 32 }
  | .spoilRegister u vec key => s.updWave u fun w => { w with regs := w.regs.spoil vec key }
  | .spoilMemory sector =>
    let s := s.updL2 (homeDie (sector * 16)) fun l => { l with poison := (l.poison + 1) % 2 ^ 32 }
    { s with poison := insNat sector s.poison }
  | .sensors watts temp => s.updPower fun p => { p with watts := watts, temp := temp }
  | .owner page world state shared => if s.trust.stage = 15 ∨ 3 ≤ state then s else s.changeOwner page world state shared
  | .straps cxl => s.updPower fun p => { p with strap := cxl }
  | .selfTest passes => s.updTrust fun x => { x with selfTest := passes }
  | .lpddr code => if s.trust.stage = 0 ∧ code < 3 then { s with lpddr := 512 * 2 ^ 30 * 2 ^ code } else s
  | .hostMemory access => if s.power.powered then s.hostMemory access else s
  | .sent i => s.updFabric fun f => { f with outbox := dropAt f.outbox i }
  | .ackSent i => s.updFabric fun f => { f with acksOut := match f.acksOut[i]? with
      | some (.port _ _, _) => dropAt f.acksOut i
      | _ => f.acksOut }
  | .provision slot key => if s.power.powered then s.provision slot key else s
  | .responder user data tb chain => if s.power.powered then s.placeResponder user data tb chain else s
  | .applyPlan core => if s.power.powered then s.applyPlan core else s
  | .roce peer tx => if s.power.powered then s.roceArrival peer tx else s
  | .core _ | .event _ | .advance _ _ => s

/-- Is an instruction the package reset, the one thing that happens to a package without supplies (R423)? -/
def isReset (i : Instr) : Bool :=
  match i with
  | .packageReset _ => true
  | _ => false

/-- What comes of a turn: one that meets a write which its slice holds (R88, R95, R97) leaves the state of a wait, to be made again. -/
def State.settle (wait : State) (r : Host.Outcome State Fault Refusal) : Host.Outcome State Fault Refusal :=
  match r with
  | .next s => .next (if s.blocked then { wait with blocked := false } else s)
  | r => r

/-- One step. Instructions of the encoding are a wave's alone, and are no event. A core that has to wait lets a clock pass. -/
def step (s : State) : Host.Outcome State Fault Refusal :=
  match s.agenda with
  | [] => if s.power.powered then (s.advance 1 0).settle s.idleTurn else .next s
  | t :: rest =>
    let s := { s with agenda := rest }
    match t with
    | .core c => if s.power.powered then (s.advance 1 0).settle (s.coreTurn c) else .next s
    | .event i => if (encode i).isNone && (s.power.powered || isReset i) then s.settle (exec i s) else .next s
    | .advance clocks ns => .next (if s.power.powered then s.advance clocks ns else s)
    | t => s.settle (.next (s.worldTurn t))

/-! ### Placing one instruction -/

/-- Clause class that permits a word (R195). -/
def classFor (w : Nat) : Nat :=
  let op := fld w 63 56
  if 0xA0 ≤ op ∧ op < 0xB0 then 1 else if (0xB0 ≤ op ∧ op < 0xC0) ∨ op = 0xC4 ∨ op = 0xC5 then 2
  else if 0xD0 ≤ op ∧ op < 0xF0 then 3 else 0

/-- Where a placed word stands: virtual and physical address. -/
def placeVa : Nat := 0x10000
def placePa : Nat := 0x20000000000

/-- The translation of the placed page. -/
def placeTr (asid : Nat) : Tr :=
  { asid := asid, page := 1, large := false, base := placePa, leafPa := 0, r := true, w := true, x := true, fut := false,
    cow := false, io := false, dirty := true, adu := false }

/-- Stands for what places and starts a program (log 15): a wave on core 0 of die 0 (the wave whose turn it is, if there is
one) stands at a page of bonded DRAM that holds the word, inside a clause whose class permits it, as its last instruction
(or at a clause boundary, for a header), and the next step fetches and runs that word. -/
def State.withFetchWord (s : State) (_nbits w : Nat) : State :=
  let u := s.cur.getD (s.ids + 1)
  let x := (s.wave u).getD (Wave.placed 0 0 (s.ids + 2) 0 1 128 0 0 0)
  let header := fld w 63 56 == 0xF8
  let x := { x with
    pc := BitVec.ofNat 64 placeVa, wait := .ready, late := [], prog := Progress.none, xl := [placeTr (s.waveAsid x)], xfail := [],
    tr := { x.tr with dbgctl := 0, stepDue := false }, upset := false, lateTrap := none,
    clause := if header then Clause.boundary else
      { inside := true, header := BitVec.ofNat 64 (placeVa - 8), word := BitVec.ofNat 64 (0xF8 * 2 ^ 56 + classFor w * 2 ^ 48),
        left := 1 } }
  let s := ((s.store placePa 8 w).dropCode placePa 8).setOwner placePa { world := s.waveWorld x, state := 0, shared := false, version := 0 }
  let s := { s with
    agenda := [], cur := some u, ids := s.ids + 2, poison := s.poison.filter (· != placePa / 16),
    power := { s.power with stopped := false, powered := true } }
  let s := if (s.cohort x.cohort).isSome then s else
    s.setCohort x.cohort { Cohort.blank 0 0 0 0 0 with nwaves := 1, waves := [u] }
  (s.setWave u x).updCore x.core fun c => { c with holder := some u }

end Sys2Proof.Machine
end

