-- ==== Sys2Proof/Safety.lean ====
section
/-! DEFINITION. What counts as a safe state and a safe run, and the words the statements use: an instruction issues, it
completes, and what it leaves alone. -/

namespace Sys2Proof.Machine

/-! ### Memory and runs -/

/-- The canonical form of physical memory: addresses rise strictly and no listed byte equals what an unlisted one
reads as. -/
abbrev Memory.wf (m : List Host.Cell) : Prop := memWf m = true

/-- A state whose memory is in canonical form. -/
def State.memOk (s : State) : Prop := Memory.wf s.mem

/-- A step that neither faults nor is refused. -/
def State.runs (s : State) : Prop := ∃ t, step s = .next t

/-! ### Issue -/

/-- Wave `u`, which stands as `w`, issues `i` now: it is the wave whose turn it is; no breakpoint, due step or late result comes
first (R169, R381, R395); every check of R197 passes; nothing pending holds an instruction that closes the region (R387); no
mismatch was met (R388); no step trap follows (R396); and no store of the wave is still entering the store buffer (R51). -/
abbrev Issues (s : State) (u : Nat) (w : Wave) (i : Instr) : Prop :=
  s.cur = some u ∧ s.wave u = some w ∧ issueGate s u w false = none ∧ issueCheck s w i = none ∧
  (closesRegion w (Instr.op i) && w.late.any fun l => decide (l.kind = .value)) = false ∧ w.upset = false ∧ w.stepping = false ∧
  w.entering = []

/-- The wave as its instruction's effect finds it. -/
def Wave.readied (w : Wave) : Wave := { w with wait := .ready }

/-- The place in a clause after one of its instructions (R166, R194). -/
def Clause.after (c : Clause) : Clause :=
  if c.left ≤ 1 then { c with inside := false, left := 0, words := [] } else { c with left := c.left - 1, words := c.words.drop 1 }

/-- A wave after an instruction that stood at its PC and that closes no region: the next word follows, one instruction of the
clause is done, lookahead windows have shrunk (R169), and nothing else has changed but the registers and the special
registers given. -/
def Wave.after (w : Wave) (regs : Regs) (sp : Specials) : Wave :=
  { w with
    pc := w.pc + 8, clause := w.clause.after, wait := .ready, late := w.late.map (fun l => { l with window := l.window - 1 }),
    prog := Progress.none, xl := [], xfail := [], tr := { w.tr with bpSkip := false }, regs := regs, sp := sp }

/-! ### Frames -/

/-- The rest of the package: every wave but `u`, every core but for the record of issuing on `core`, and every other part of the
state, memory among them. -/
def OnlyWave (s t : State) (u core : Nat) : Prop :=
  (∀ v, v ≠ u → t.wave v = s.wave v) ∧ (∀ c, c ≠ core → t.core c = s.core c) ∧
  (∃ h l y p q, t.core core = { s.core core with holder := h, lastIssue := l, history := y, lastSpare := p, spare := q }) ∧ (∀ a, t.byte a = s.byte a) ∧
  t = { s with waves := t.waves, cores := t.cores }

/-- Instruction `i` completes for wave `u`: `exec` answers a next state in which the wave stands as `w'`, and beyond the wave
only its core's record of issuing has changed. -/
def Completes (s : State) (u : Nat) (w : Wave) (i : Instr) (w' : Wave) : Prop :=
  ∃ t, exec i s = .next t ∧ t.wave u = some w' ∧ OnlyWave s t u w.core

/-- The scalar registers d to d + n − 1 have taken the values `x`, mask words cut by LIVE (R159), and nothing else among the
registers has changed. -/
def ScalarResult (w w' : Wave) (d n : Nat) (x : Nat → Word) : Prop :=
  (∀ r, r < 128 → w'.s r = if d ≤ r ∧ r < d + n then
      (if 96 ≤ r ∧ r < 96 + w.k then x (r - d) &&& w.liveWord (r - 96) else x (r - d)) else w.s r) ∧
  (∀ r i, w'.v r i = w.v r i) ∧ w'.regs.live = w.regs.live ∧ w'.regs.vpoison = w.regs.vpoison

/-- The vector registers d to d + n − 1 have taken the words of `x` in the active lanes (R161), and nothing else among the
registers has changed. -/
def VectorResult (w w' : Wave) (d n : Nat) (x : Nat → Nat) : Prop :=
  (∀ r i, r < 256 → w'.v r i = if d ≤ r ∧ r < d + n ∧ i ∈ w.activeLanes then BitVec.ofNat 32 (x i / 2 ^ (32 * (r - d))) else w.v r i) ∧
  (∀ r, w'.s r = w.s r) ∧ w'.regs.live = w.regs.live ∧ w'.regs.spoison = w.regs.spoison

/-- An instruction of format S that writes one scalar register completes for every wave that issues it, with the value given. -/
def ScalarOf (c : SF → Instr) (x : SF → Wave → Word) : Prop :=
  ∀ (s : State) (u : Nat) (w : Wave) (f : SF), Issues s u w (c f) →
    ∃ w', Completes s u w (c f) w' ∧ w' = w.after w'.regs w.sp ∧ ScalarResult w w' f.d.toNat 1 fun _ => x f w

/-- The same for an instruction that writes a pair, low word first. -/
def PairOf (c : SF → Instr) (x : SF → Wave → DWord) : Prop :=
  ∀ (s : State) (u : Nat) (w : Wave) (f : SF), Issues s u w (c f) →
    ∃ w', Completes s u w (c f) w' ∧ w' = w.after w'.regs w.sp ∧
      ScalarResult w w' f.d.toNat 2 fun j => (x f w).extractLsb' (32 * j) 32

/-- The same for an instruction whose bit j of S[d] is given. -/
def BitsOf (c : SF → Instr) (bit : SF → Wave → Nat → Bool) : Prop :=
  ∀ (s : State) (u : Nat) (w : Wave) (f : SF), Issues s u w (c f) →
    ∃ w' x, Completes s u w (c f) w' ∧ w' = w.after w'.regs w.sp ∧ (ScalarResult w w' f.d.toNat 1 fun _ => x) ∧
      ∀ j, j < 32 → x.getLsbD j = bit f w j

/-- The same for an instruction that writes the k words of a mask group. -/
def GroupOf (c : SF → Instr) (x : SF → Wave → Nat → Word) : Prop :=
  ∀ (s : State) (u : Nat) (w : Wave) (f : SF), Issues s u w (c f) →
    ∃ w', Completes s u w (c f) w' ∧ w' = w.after w'.regs w.sp ∧ ScalarResult w w' f.d.toNat w.k (x f w)

/-! ### Vector and floating-point results -/

/-- A generator after n steps (R185). -/
def genSteps : Nat → DWord → DWord
  | 0, x => x
  | n + 1, x => genSteps n (genStep x)

/-- The word u with which element e of lane i rounds: under SR the lane's generator steps once an element, in ascending order (R186). -/
def drawWord (w : Wave) (mode e i : Nat) : Nat := if mode = 5 then ((genSteps (e + 1) (w.gen i)) >>> 32).toNat else 0

/-- The special registers after lanes have rounded `n` elements each: FPSTAT has every flag ORed in (R184), under SR the generators
of those lanes have stepped, and nothing else has changed. -/
def FpEffect (w w' : Wave) (mode n : Nat) (lanes : List Nat) (r : Nat → Nat → Nat → FpRes) : Prop :=
  w'.sp = { w.sp with
    fpstat := (lanes.flatMap fun i => (List.range n).map fun e => (r i e (drawWord w mode e i)).2).foldl (fun a x => a ||| x) w.sp.fpstat,
    gens := w'.sp.gens } ∧
  ∀ i, w'.gen i = if mode = 5 ∧ i ∈ lanes then genSteps n (w.gen i) else w.gen i

/-- A vector instruction of format V2 completes for every wave that issues it, with the value given in each active lane. -/
def VectorOf (c : V2F → Instr) (regs : V2F → Nat) (x : V2F → Wave → Nat → Nat) : Prop :=
  ∀ (s : State) (u : Nat) (w : Wave) (f : V2F), Issues s u w (c f) →
    ∃ w', Completes s u w (c f) w' ∧ w' = w.after w'.regs w.sp ∧ VectorResult w w' f.d.toNat (regs f) (x f w)

/-- The same with elements: element e of a lane is `g` of the sources' elements, each n bits wide (R181, R246). -/
def ElementsOf (c : V2F → Instr) (g : V2F → Nat → Nat → Nat → Nat) : Prop :=
  VectorOf c (fun f => tyRegs f.ty) fun f w i => packElems (elemWidth f.ty) ((List.range (elemCount f.ty)).map fun e =>
    g f (elemWidth f.ty) (elemOf (elemWidth f.ty) (srcA w f i) e) (elemOf (elemWidth f.ty) (srcB w f i) e))

/-- The same for a three-source instruction of one register. -/
def Vector3Of (c : V3F → Instr) (x : V3F → Wave → Nat → Nat → Nat → Nat) : Prop :=
  ∀ (s : State) (u : Nat) (w : Wave) (f : V3F), Issues s u w (c f) →
    ∃ w', Completes s u w (c f) w' ∧ w' = w.after w'.regs w.sp ∧ VectorResult w w' f.d.toNat 1 fun i =>
      x f w (route32 w f.a f.ra f.p i).toNat (route32 w f.b f.rb f.p i).toNat (route32 w f.c f.rc f.p i).toNat

/-- A node of the reduction tree of R264, over the 2^m lanes from `l`, with the flags raised in it; an empty child is passed over. -/
def treeNode (g : Nat → Nat → FpRes) (leaf : Nat → Option Nat) : Nat → Nat → Option Nat × Nat
  | 0, l => (leaf l, 0)
  | m + 1, l =>
    match treeNode g leaf m l, treeNode g leaf m (l + 2 ^ m) with
    | (some x, a), (some y, b) => (some (g x y).1, a ||| b ||| (g x y).2)
    | (none, a), (y, b) => (y, a ||| b)
    | (x, a), (none, b) => (x, a ||| b)

/-- A floating-point instruction of format V2 that writes at once: every element is `g` of its format, mode, generator word and
sources; flags and generators follow. -/
def FpOf (c : V2F → Instr) (g : FpFmt → Nat → Nat → Nat → Nat → FpRes) : Prop :=
  ∀ (s : State) (u : Nat) (w : Wave) (f : V2F), Issues s u w (c f) →
    let n := (fpOf f.ty).width
    let r := fun (i e k : Nat) => g (fpOf f.ty) (w.mode f.rnd.toNat) k (elemOf n (srcA w f i) e) (elemOf n (srcB w f i) e)
    ∃ w', Completes s u w (c f) w' ∧ w' = w.after w'.regs w'.sp ∧
      FpEffect w w' (w.mode f.rnd.toNat) (elemCount f.ty) w.activeLanes r ∧
      VectorResult w w' f.d.toNat (tyRegs f.ty) fun i =>
        packElems n ((List.range (elemCount f.ty)).map fun e => (r i e (drawWord w (w.mode f.rnd.toNat) e i)).1)

/-- A floating-point instruction of format V2 that writes late (R169): no register changes now; with an active lane one late result
is pending, with the lookahead given and the values of every active lane. -/
def FpLateOf (c : V2F → Instr) (g : FpFmt → Nat → Nat → Nat → Nat → FpRes) : Prop :=
  ∀ (s : State) (u : Nat) (w : Wave) (f : V2F), Issues s u w (c f) →
    let n := (fpOf f.ty).width
    let r := fun (i e k : Nat) => g (fpOf f.ty) (w.mode f.rnd.toNat) k (elemOf n (srcA w f i) e) (elemOf n (srcB w f i) e)
    ∃ w', Completes s u w (c f) w' ∧ FpEffect w w' (w.mode f.rnd.toNat) (elemCount f.ty) w.activeLanes r ∧
      if w.activeLanes = [] then w' = w.after w.regs w'.sp
      else ∃ l, w' = { w.after w.regs w'.sp with lateSeq := w.lateSeq + 1, late := (w.after w.regs w'.sp).late ++ [l] } ∧
        l.seq = w.lateSeq + 1 ∧ l.kind = .value ∧ l.vec = true ∧ l.reg = f.d.toNat ∧ l.nregs = tyRegs f.ty ∧ l.window = f.la.toNat ∧
        l.vals = w.activeLanes.map fun i => (i, packElems n ((List.range (elemCount f.ty)).map fun e =>
          (r i e (drawWord w (w.mode f.rnd.toNat) e i)).1))

/-! ### Control transfers -/

/-- What a transfer requires of its target (R196, R238): an aligned, canonical address whose translation for execution is known, and
whose word has the top byte of a clause header. A fetch fault there is the target header's, not the transfer's. -/
def HeaderAt (s : State) (w : Wave) (target : DWord) : Prop :=
  target.toNat % 8 = 0 ∧ canonical target.toNat = true ∧
  match waveXlate s w target.toNat 3 false with
  | .ok pa _ => s.byte (pa + 7) = 0xF8
  | .miss => False
  | .fault _ _ | .firewall => True

/-- A control transfer completes for every wave that issues it at the end of its clause and whose target is a header: the PC
becomes the target if it is taken and the next word otherwise, and a taken transfer that links writes the address after itself
to a pair. A target, taken or not, that is not a multiple of 8 traps MISALIGNED, one that is not canonical TRANSLATION_FAULT of kind
NONCANON, and one whose word is no clause header ILLEGAL_CLAUSE; each trap names the target and leaves the registers. -/
def TransferOf (c : CF → Instr) (target : CF → Wave → DWord) (taken : CF → Wave → Bool) (link : CF → Option (BitVec 8)) : Prop :=
  ∀ (s : State) (u : Nat) (w : Wave) (f : CF), Issues s u w (c f) →
    let x := target f w
    let trap := fun (code : Nat) (info1 : DWord) => exec (c f) s = .next ((s.setWave u w.readied).takeTrap u
      { code := code, tpc := w.pc, info0 := x, info1 := info1, after := false, queued := false })
    (HeaderAt s w x → ∃ w', Completes s u w (c f) w' ∧
      w' = { w.after w'.regs w.sp with
        pc := if taken f w then x else w.pc + 8, clause := { w.clause with inside := false, left := 0, words := [] } } ∧
      match link f with
      | some d => ScalarResult w w' d.toNat 2 fun j => (w.pc + 8).extractLsb' (32 * j) 32
      | none => w'.regs = w.regs) ∧
    (x.toNat % 8 ≠ 0 → trap trapMisaligned 0) ∧
    (x.toNat % 8 = 0 → canonical x.toNat = false → trap trapTranslation 0x303) ∧
    (x.toNat % 8 = 0 → canonical x.toNat = true → ∀ pa r, waveXlate s w x.toNat 3 false = .ok pa r → s.byte (pa + 7) ≠ 0xF8 →
      trap trapIllegalClause w.clause.word)

/-! ### Accesses -/

/-- The address that the checks of R24 let an access through to: `va` is aligned to `e` bytes, canonical, translated with
permission, and admitted by the firewall. -/
def Reaches (s : State) (w : Wave) (va access : Nat) (io : Bool) (e pa : Nat) : Prop :=
  va % e = 0 ∧ canonical va = true ∧ ∃ t, waveXlate s w va access io = .ok pa t

/-- The address of the one access that a scalar memory instruction makes. -/
def scalarAddr (w : Wave) (f : MF) : Nat := laneAddr w { f with hasOff := 0 } 0

/-- No commit group holds the locks of its lines (R88). -/
def State.unlocked (s : State) : Bool := s.waves.all fun x => !x.2.group.any (·.locked)

/-- Nothing waits on a word of memory and no trigger is armed: a write changes the bytes it stores and no other. -/
def State.unwatched (s : State) : Bool :=
  (s.dies.all fun d => d.2.triggers.isEmpty) && s.waves.all fun x => match x.2.wait with
    | .memTimeline _ _ | .scoreboard _ _ _ => false
    | _ => true

/-- The same, no region watches a table, no commit group holds a line and no snapshot a page: a write is performed. -/
def State.still (s : State) : Bool :=
  s.unlocked && s.snap.marks.isEmpty && s.snap.state != 1 && (s.dies.all fun d => d.2.fit.regions.all fun r => r.watch.isEmpty) && s.unwatched

/-- A wave after an instruction that leaves one late result (R169). -/
def Wave.afterLate (w : Wave) (l : Late) : Wave :=
  { w.after w.regs w.sp with joined := false, lateSeq := w.lateSeq + 1, late := (w.after w.regs w.sp).late ++ [l] }

/-- A wave after an access that leaves nothing pending. -/
def Wave.afterAccess (w : Wave) : Wave := { w.after w.regs w.sp with joined := false }

/-- The package after the atomics of some lanes at their home slices, in order (R268). -/
def State.afterAtomics (s : State) (fn e : Nat) (args pa : Nat → Nat) (lanes : List Nat) : State :=
  lanes.foldl (fun s i => (s.atomicAt (pa i) fn e (args i) none).1) s

/-- The scratchpad after the atomics of some lanes (R268). -/
def Cohort.afterAtomics (c : Cohort) (fn e : Nat) (args addr : Nat → Nat) (lanes : List Nat) : Cohort :=
  lanes.foldl (fun c i =>
    match (atomicNew fn (8 * e) (c.scratchRead (addr i) e) (args i % 2 ^ (8 * e)) (args i / 2 ^ (8 * e) % 2 ^ (8 * e))).1 with
    | some z => c.scratchWrite (addr i) (natLe e z)
    | none => c) c

/-- Every access of some lanes of wave `u` lies in the scratchpad, aligned, in lines that can be read (R54, R59), and no SPMARK of the
wave is at work (R275). -/
def Cohort.readable (c : Cohort) (u e : Nat) (addr : Nat → Nat) (lanes : List Nat) : Prop :=
  (∀ m ∈ c.marking, m.wave ≠ u) ∧ ∀ i ∈ lanes, addr i % e = 0 ∧ c.scratchOk (addr i) e = true ∧ c.empty.contains (addr i / 128) = false ∧
    mapFind c.failed (addr i / 128) = none ∧ c.scratchSpoiled (addr i) e = false

/-! ### Completion in general -/

/-- An instruction leaves an answer for its wave, which it waits for before the next instruction (R167, R169): one late result with no
lookahead, which no register shows yet. -/
def Wave.answerPends (w w' : Wave) (vec : Bool) (reg n : Nat) (vals : List (Nat × Nat)) : Prop :=
  w'.regs = w.regs ∧ ∃ l ∈ w'.late, l.seq = w.lateSeq + 1 ∧ l.kind = .answer ∧ l.vec = vec ∧ l.reg = (if vec then reg else w.skey reg) ∧
    l.nregs = n ∧ l.window = 0 ∧ l.vals = vals

/-- Instruction `i` completes for wave `u` and the next word follows: `exec` answers a next state, in which the wave stands after the
instruction, and `P` holds of that state and that wave. -/
def Ends (s : State) (u : Nat) (w : Wave) (i : Instr) (P : State → Wave → Prop) : Prop :=
  ∃ t w', exec i s = .next t ∧ t.wave u = some w' ∧ w'.pc = w.pc + 8 ∧ w'.clause = w.clause.after ∧ P t w'

/-- No register, special register or trap register of the wave has changed (but for the note that a breakpoint was passed). -/
def Wave.sameArch (w w' : Wave) : Prop :=
  w'.regs = w.regs ∧ w'.sp = w.sp ∧ { w'.tr with bpSkip := false } = { w.tr with bpSkip := false }

/-- The same but for the scalar registers d to d + n − 1, which have taken the words of `x`. -/
def Wave.onlyScalar (w w' : Wave) (d n : Nat) (x : Nat → Word) : Prop :=
  ScalarResult w w' d n x ∧ w'.sp = w.sp ∧ { w'.tr with bpSkip := false } = { w.tr with bpSkip := false }

/-- No byte of memory has changed. -/
def State.sameMem (s t : State) : Prop := ∀ a, t.byte a = s.byte a

/-- An engine of a die that acts in an address space reaches `pa` through an entry of the die's translation service. -/
def State.engineReaches (s : State) (die asid : Nat) (who : Who) (va access pa : Nat) : Prop :=
  canonical va = true ∧ ∃ t, (s.die die).ts.entries.find? (fun t => t.covers asid va && !t.needsDirty access) = some t ∧
    permFault t access false = none ∧ s.admits who (t.pa va) = true ∧ pa = t.pa va

/-- The mailbox will hand the response at hand to the host and has nothing else to do: a request is being answered and not aborted,
none waits, no extension waits, and RQ and RS are memory. -/
def State.replies (s : State) : Prop :=
  s.doe.busy = true ∧ s.doe.aborted = false ∧ s.doe.waiting = [] ∧ s.trust.extensions = [] ∧ s.still = true ∧
  ∀ n, n ≤ 16384 → s.backedMem s.doe.rs n = true ∧ s.backedMem s.doe.rq n = true

/-- An event completes, and `P` holds of the state after it. -/
def Happens (s : State) (i : Instr) (P : State → Prop) : Prop := ∃ t, exec i s = .next t ∧ P t

end Sys2Proof.Machine
end

