-- ==== Sys2Proof/Certificates/Slice0/Obligations.lean ====
section
/-! DEFINITION. The statements about the model, for the provers. -/

open Sys2Proof Sys2Proof.Machine

/-! ### Scalar instructions -/

/-- R222, R224, R181: the scalar arithmetic instructions complete, write S[d] and nothing else. Division by zero gives all ones, its
remainder the dividend. R224, R227: the scalar logic, shift and bit-field instructions, bit by bit. A shift amount is taken modulo
32; SSHA fills with bit 31; a field of length 0 gives 0. -/
def Obligations.ScalarIntegers : Prop :=
  ((∀ (s : State) (u : Nat) (w : Wave) (f : SF), Issues s u w (.nop f) → Completes s u w (.nop f) (w.after w.regs w.sp)) ∧
  ScalarOf .sadd (fun f w => w.src f.a f.imm + w.src f.b f.imm) ∧
  ScalarOf .ssub (fun f w => w.src f.a f.imm - w.src f.b f.imm) ∧
  ScalarOf .smul (fun f w => w.src f.a f.imm * w.src f.b f.imm) ∧
  ScalarOf .smulh (fun f w =>
    if f.ty = 0 then ((w.src f.a f.imm).signExtend 64 * (w.src f.b f.imm).signExtend 64).extractLsb' 32 32
    else ((w.src f.a f.imm).zeroExtend 64 * (w.src f.b f.imm).zeroExtend 64).extractLsb' 32 32) ∧
  ScalarOf .sdiv (fun f w =>
    if w.src f.b f.imm = 0 then BitVec.allOnes 32
    else if f.ty = 0 then (w.src f.a f.imm).sdiv (w.src f.b f.imm) else w.src f.a f.imm / w.src f.b f.imm) ∧
  ScalarOf .srem (fun f w =>
    if f.ty = 0 then (w.src f.a f.imm).srem (w.src f.b f.imm) else w.src f.a f.imm % w.src f.b f.imm) ∧
  ScalarOf .smin (fun f w =>
    if (if f.ty = 0 then (w.src f.a f.imm).slt (w.src f.b f.imm) else (w.src f.a f.imm).ult (w.src f.b f.imm))
    then w.src f.a f.imm else w.src f.b f.imm) ∧
  ScalarOf .smax (fun f w =>
    if (if f.ty = 0 then (w.src f.a f.imm).slt (w.src f.b f.imm) else (w.src f.a f.imm).ult (w.src f.b f.imm))
    then w.src f.b f.imm else w.src f.a f.imm)) ∧
  (BitsOf .sand (fun f w j => (w.src f.a f.imm).getLsbD j && (w.src f.b f.imm).getLsbD j) ∧
  BitsOf .sor (fun f w j => (w.src f.a f.imm).getLsbD j || (w.src f.b f.imm).getLsbD j) ∧
  BitsOf .sxor (fun f w j => (w.src f.a f.imm).getLsbD j != (w.src f.b f.imm).getLsbD j) ∧
  BitsOf .sandn (fun f w j => (w.src f.a f.imm).getLsbD j && !(w.src f.b f.imm).getLsbD j) ∧
  BitsOf .sshl (fun f w j => decide ((w.src f.b f.imm).toNat % 32 ≤ j) &&
    (w.src f.a f.imm).getLsbD (j - (w.src f.b f.imm).toNat % 32)) ∧
  BitsOf .sshr (fun f w j => (w.src f.a f.imm).getLsbD (j + (w.src f.b f.imm).toNat % 32)) ∧
  BitsOf .ssha (fun f w j => (w.src f.a f.imm).getLsbD (min 31 (j + (w.src f.b f.imm).toNat % 32))) ∧
  BitsOf .sbfe (fun f w j =>
    let pos := (w.src f.b f.imm).toNat % 32
    let top := min 32 (pos + min 32 ((w.src f.b f.imm).toNat / 256 % 64))
    decide ((w.src f.b f.imm).toNat / 256 % 64 ≠ 0) &&
      (if pos + j < top then (w.src f.a f.imm).getLsbD (pos + j) else f.ty == 0 && (w.src f.a f.imm).getLsbD (top - 1))) ∧
  BitsOf .sbfi (fun f w j =>
    let pos := (w.src f.b f.imm).toNat % 32
    let top := min 32 (pos + min 32 ((w.src f.b f.imm).toNat / 256 % 64))
    if pos ≤ j ∧ j < top ∧ (w.src f.b f.imm).toNat / 256 % 64 ≠ 0 then (w.src f.a f.imm).getLsbD (j - pos)
    else (w.s f.d.toNat).getLsbD j))

/-- R224, R225, R226: counts, compares, selects and moves. R229, R230, R231, R184, R186: the scalar floating-point instructions
complete; FPSTAT takes their flags, and under SR lane 0's generator steps once. -/
def Obligations.ScalarMovesAndFloat : Prop :=
  (ScalarOf .spopc (fun f w => BitVec.ofNat 32 ((List.range 32).countP fun j => (w.src f.a f.imm).getLsbD j)) ∧
  (∀ (s : State) (u : Nat) (w : Wave) (f : SF), Issues s u w (.slzc f) →
    ∃ w' n, Completes s u w (.slzc f) w' ∧ w' = w.after w'.regs w.sp ∧ (ScalarResult w w' f.d.toNat 1 fun _ => BitVec.ofNat 32 n) ∧
      n ≤ 32 ∧ (∀ j, j < n → (w.src f.a f.imm).getLsbD (31 - j) = false) ∧ (n < 32 → (w.src f.a f.imm).getLsbD (31 - n) = true)) ∧
  (∀ (s : State) (u : Nat) (w : Wave) (f : SF), Issues s u w (.sffs f) →
    ∃ w' n, Completes s u w (.sffs f) w' ∧ w' = w.after w'.regs w.sp ∧ (ScalarResult w w' f.d.toNat 1 fun _ => BitVec.ofNat 32 n) ∧
      n ≤ 32 ∧ (∀ j, j < n → (w.src f.a f.imm).getLsbD j = false) ∧ (n < 32 → (w.src f.a f.imm).getLsbD n = true)) ∧
  ScalarOf .scmp (fun f w =>
    let v := fun (c : BitVec 8) => if f.ty.toNat < 2 then
        (if f.ty = 0 then (w.src c f.imm).toInt else ((w.src c f.imm).toNat : Int))
      else (if f.ty = 2 then (w.src64 c f.imm).toInt else ((w.src64 c f.imm).toNat : Int))
    if comparePred f.fn.toNat (v f.a) (v f.b) then 1 else 0) ∧
  ScalarOf .ssel (fun f w => if w.s (f.imm.toNat % 128) = 0 then w.src f.b else w.src f.a) ∧
  (∀ (s : State) (u : Nat) (w : Wave) (f : SF), Issues s u w (.smov f) →
    ∃ w', Completes s u w (.smov f) w' ∧ w' = w.after w'.regs w.sp ∧
      if f.ty = 2 then ScalarResult w w' f.d.toNat 2 fun j => (w.src64 f.a f.imm).extractLsb' (32 * j) 32
      else ScalarResult w w' f.d.toNat 1 fun _ => w.src f.a f.imm) ∧
  (∀ (s : State) (u : Nat) (w : Wave) (f : IF), Issues s u w (.smovi f) →
    ∃ w', Completes s u w (.smovi f) w' ∧ w' = w.after w'.regs w.sp ∧
      if f.fn = 0 then ScalarResult w w' f.d.toNat 1 fun _ => f.imm
      else if f.fn = 1 then ScalarResult w w' f.d.toNat 2 fun j => (f.imm.signExtend 64).extractLsb' (32 * j) 32
      else ScalarResult w w' f.d.toNat 2 fun j => if j = 0 then f.imm else 0) ∧
  PairOf .sadd64 (fun f w => w.src64 f.a f.imm + w.src64 f.b f.imm) ∧
  PairOf .ssub64 (fun f w => w.src64 f.a f.imm - w.src64 f.b f.imm) ∧
  PairOf .smad64 (fun f w => w.s64 f.d.toNat +
    (if f.ty = 0 then (w.src f.a f.imm).signExtend 64 * (w.src f.b f.imm).signExtend 64
     else (w.src f.a f.imm).zeroExtend 64 * (w.src f.b f.imm).zeroExtend 64))) ∧
  ((∀ (s : State) (u : Nat) (w : Wave) (f : SF), Issues s u w (.scvt f) →
    let mode := w.mode (f.imm.toNat % 8)
    let src := scvtType f.fn.toNat
    let r := fun (k : Nat) => convert src (scvtType f.ty.toNat) mode k (f.imm.getLsbD 3)
      ((if wideTy f.fn then (w.src64 f.a).toNat else (w.src f.a).toNat) % 2 ^ src.width)
    ∃ w', Completes s u w (.scvt f) w' ∧ w' = w.after w'.regs w'.sp ∧ FpEffect w w' mode 1 [0] (fun _ _ k => r k) ∧
      ScalarResult w w' f.d.toNat (regsOf f.ty) fun j => BitVec.ofNat 32 ((r (drawWord w mode 0 0)).1 / 2 ^ (32 * j))) ∧
  (∀ (s : State) (u : Nat) (w : Wave) (f : SF), Issues s u w (.sfma f) →
    let mode := w.mode (f.imm.toNat % 8)
    let v := fun (c : BitVec 8) => if f.ty = 5 then (w.src64 c).toNat else (w.src c).toNat
    let old := if f.ty = 5 then (w.s64 f.d.toNat).toNat else (w.s f.d.toNat).toNat
    let fmt := if f.ty = 5 then fpF64 else fpF32
    let r := fun (k : Nat) => if f.fn = 0 then fpFma fmt mode k (v f.a) (v f.b) old else if f.fn = 1 then fpMul fmt mode k (v f.a) (v f.b)
      else if f.fn = 2 then fpAdd fmt mode k (v f.a) (v f.b) else fpSub fmt mode k (v f.a) (v f.b)
    ∃ w', Completes s u w (.sfma f) w' ∧ w' = w.after w'.regs w'.sp ∧ FpEffect w w' mode 1 [0] (fun _ _ k => r k) ∧
      ScalarResult w w' f.d.toNat (regsOf f.ty) fun j => BitVec.ofNat 32 ((r (drawWord w mode 0 0)).1 / 2 ^ (32 * j))) ∧
  (∀ (s : State) (u : Nat) (w : Wave) (f : SF), Issues s u w (.sfcmp f) →
    let v := fun (c : BitVec 8) => if f.ty = 5 then (w.src64 c).toNat else (w.src c).toNat
    let r := fpCompare (if f.ty = 5 then fpF64 else fpF32) f.fn.toNat (v f.a) (v f.b)
    ∃ w', Completes s u w (.sfcmp f) w' ∧ w' = w.after w'.regs { w.sp with fpstat := w.sp.fpstat ||| r.2 } ∧
      ScalarResult w w' f.d.toNat 1 fun _ => if r.1 then 1 else 0))

/-- R211, R232: GETS reads a special register into one register or a pair; CLOCK and PTPTIME, sampled at issue, land late. -/
def Obligations.SpecialRegisterRead : Prop :=
  ∀ (s : State) (u : Nat) (w : Wave) (f : SF), Issues s u w (.gets f) →
    let n := f.imm.toNat
    (n ≠ 15 → n ≠ 16 → ∃ w', Completes s u w (.gets f) w' ∧ w' = w.after w'.regs w.sp ∧
      ScalarResult w w' f.d.toNat (specialRegs n) fun j => (special s w n).extractLsb' (32 * j) 32) ∧
    (n = 15 ∨ n = 16 → ∃ w' l, Completes s u w (.gets f) w' ∧
      w' = { w.after w.regs w.sp with lateSeq := w.lateSeq + 1, late := (w.after w.regs w.sp).late ++ [l] } ∧
      l.kind = .answer ∧ l.vec = false ∧ l.reg = w.skey f.d.toNat ∧ l.nregs = 2 ∧ l.window = f.fn.toNat ∧
      l.vals = [(0, (special s w n).toNat)]) ∧
    special s w 15 = BitVec.ofNat 64 s.clock ∧ special s w 16 = BitVec.ofNat 64 s.ptp ∧ special s w 12 = BitVec.ofNat 64 w.sp.fpstat ∧
    special s w 22 = w.tr.tba ∧ special s w 23 = w.tr.tpc ∧ special s w 24 = w.tr.tcause

/-! ### Masks -/

/-- R233, R159: the word-by-word mask instructions write the k words of a group from words read before any is written. R235, R236:
MSAVE saves EXEC and narrows it, MELSE turns to the lanes saved that are not active, MJOIN restores them; EXEC stays within LIVE. -/
def Obligations.Masks : Prop :=
  (GroupOf .mand (fun f w j => w.maskWord f.a j &&& w.maskWord f.b j) ∧
  GroupOf .mor (fun f w j => w.maskWord f.a j ||| w.maskWord f.b j) ∧
  GroupOf .mxor (fun f w j => w.maskWord f.a j ^^^ w.maskWord f.b j) ∧
  GroupOf .mandn (fun f w j => w.maskWord f.a j &&& ~~~(w.maskWord f.b j)) ∧
  GroupOf .mnot (fun f w j => ~~~(w.maskWord f.a j)) ∧
  GroupOf .mmov (fun f w j => w.maskWord f.a j) ∧
  GroupOf .mlive (fun _ w j => w.liveWord j) ∧
  ScalarOf .mpopc (fun f w => BitVec.ofNat 32 ((List.range w.width).countP fun i => (w.maskWord f.a (i / 32)).getLsbD (i % 32))) ∧
  (∀ (s : State) (u : Nat) (w : Wave) (f : SF), Issues s u w (.mffs f) →
    ∃ w' n, Completes s u w (.mffs f) w' ∧ w' = w.after w'.regs w.sp ∧ (ScalarResult w w' f.d.toNat 1 fun _ => BitVec.ofNat 32 n) ∧
      n ≤ w.width ∧ (∀ i, i < n → (w.maskWord f.a (i / 32)).getLsbD (i % 32) = false) ∧
      (n < w.width → (w.maskWord f.a (n / 32)).getLsbD (n % 32) = true))) ∧
  (∀ (s : State) (u : Nat) (w : Wave) (f : SF),
    (Issues s u w (.msave f) → ∃ w', Completes s u w (.msave f) w' ∧ w' = w.after w'.regs w.sp ∧
      (∀ j, j < w.k → w'.s (f.d.toNat + j) = w.s (96 + j)) ∧
      (∀ j, j < w.k → w'.s (96 + j) = w.s (96 + j) &&& w.maskWord f.a j &&& w.liveWord j) ∧
      (∀ r, r < 128 → ¬(f.d.toNat ≤ r ∧ r < f.d.toNat + w.k) → ¬(96 ≤ r ∧ r < 96 + w.k) → w'.s r = w.s r) ∧
      (∀ r i, w'.v r i = w.v r i) ∧ w'.regs.live = w.regs.live) ∧
    (Issues s u w (.melse f) → ∃ w', Completes s u w (.melse f) w' ∧ w' = w.after w'.regs w.sp ∧
      ScalarResult w w' 96 w.k fun j => w.maskWord f.a j &&& ~~~(w.s (96 + j))) ∧
    (Issues s u w (.mjoin f) → ∃ w', Completes s u w (.mjoin f) w' ∧
      w' = { w.after w'.regs w.sp with joined := w.joined || w.late.any (·.accesses) } ∧
      ScalarResult w w' 96 w.k fun j => w.maskWord f.a j))

/-! ### Control -/

/-- R196, R198, R237, R238: the nine control transfers complete at a target that is a clause header, and trap at any other, taken or
not. A direct target is the address of the instruction plus 8 times its offset. -/
def Obligations.Transfers : Prop :=
  let direct := fun (f : CF) (w : Wave) => w.pc + f.off.signExtend 64 * 8
  TransferOf .bra direct (fun _ _ => true) (fun _ => none) ∧
  TransferOf .brz direct (fun f w => decide (w.src f.a = 0)) (fun _ => none) ∧
  TransferOf .brnz direct (fun f w => decide (w.src f.a ≠ 0)) (fun _ => none) ∧
  TransferOf .bmz direct (fun f w => decide (∀ j, j < w.k → w.maskWord f.a j = 0)) (fun _ => none) ∧
  TransferOf .bmnz direct (fun f w => decide (∃ j, j < w.k ∧ w.maskWord f.a j ≠ 0)) (fun _ => none) ∧
  TransferOf .bmall direct (fun f w => decide (∀ j, j < w.k → w.maskWord f.a j = w.liveWord j)) (fun _ => none) ∧
  TransferOf .call direct (fun _ _ => true) (fun f => some f.a) ∧
  TransferOf .ret (fun f w => w.src64 f.a) (fun _ _ => true) (fun _ => none) ∧
  TransferOf .jmpi (fun f w => w.src64 f.a + f.off.signExtend 64 * 8) (fun _ _ => true)
    (fun f => if f.b.toNat < 128 then some f.b else none)

/-- R158, R164: EXIT takes the lanes of EXEC out of LIVE. With lanes left EXEC becomes zero and the wave goes on; with none the wave
ends, and leaves the package once its stores have drained. R242: YIELD and NAP complete and leave the core; a NAP of n clocks ends
n clocks later, NAP 0 at once. -/
def Obligations.ExitYieldNap : Prop :=
  (∀ (s : State) (u : Nat) (w : Wave) (f : CF), Issues s u w (.exit f) →
    (w.anyExec = false → ∃ w', Completes s u w (.exit f) w' ∧ w'.pc = w.pc + 8 ∧ w'.regs = w.regs) ∧
    (w.anyExec = true → (∃ j, j < w.k ∧ w.liveWord j &&& ~~~(w.execWord j) ≠ 0) →
      ∃ w', Completes s u w (.exit f) w' ∧ w'.pc = w.pc + 8 ∧ (∀ j, j < w.k → w'.liveWord j = w.liveWord j &&& ~~~(w.execWord j)) ∧
        (∀ j, j < w.k → w'.execWord j = 0) ∧ (∀ r, r < 96 → w'.s r = w.s r) ∧ (∀ r i, w'.v r i = w.v r i)) ∧
    (w.anyExec = true → (∀ j, j < w.k → w.liveWord j &&& ~~~(w.execWord j) = 0) →
      ∃ t, exec (.exit f) s = .next t ∧ (∀ a, t.byte a = s.byte a) ∧
        if s.drained w.core u then t.wave u = none else ∃ w', t.wave u = some w' ∧ w'.wait = .draining ∧ w'.late = [])) ∧
  (∀ (s : State) (u : Nat) (w : Wave) (f : CF),
    (Issues s u w (.yield f) → Completes s u w (.yield f) { w.after w.regs w.sp with wait := .yielded }) ∧
    (Issues s u w (.nap f) → Completes s u w (.nap f) { w.after w.regs w.sp with
      wait := if w.src f.a = 0 then .yielded else .nap (s.clock + (w.src f.a).toNat), waitSince := s.clock }))

/-- R149, R172, R173, R241: a wave whose stores have drained and whose SPMARKs are done arrives at a barrier. While arrivals are missing BARA goes on and BAR waits
at its word, its arrival recorded; the arrival that completes the phase advances it and releases the waiting waves, and BAR goes on too.
BARW, and a BAR or BARA of a wave that has arrived in the phase, wait at their word; BARW goes on once the phase in which its wave
arrived has passed. -/
def Obligations.Barriers : Prop :=
  ∀ (s : State) (u : Nat) (w : Wave) (f : CF) (c : Cohort),
    let b := f.off.toNat % 16
    let ready := s.cohort w.cohort = some c ∧ w.prog.stage = 0 ∧ w.late.any (·.reads) = false ∧ s.drained w.core u = true ∧
      s.marked u w.cohort = true ∧ u ∉ (c.barrier b).arrived
    let waits := fun (i : Instr) (arrived : List Nat) => ∃ t w' c', exec i s = .next t ∧ t.wave u = some w' ∧ w'.pc = w.pc ∧
      w'.wait = .barrier b (c.barrier b).phase ∧ w'.regs = w.regs ∧ (∀ a, t.byte a = s.byte a) ∧ t.cohort w.cohort = some c' ∧
      c'.barrier b = { c.barrier b with arrived := arrived }
    let last := c.nwaves ≤ (c.barrier b).arrived.length + 1 + (c.ended.filter fun v => v != u && !(c.barrier b).arrived.contains v).length
    (Issues s u w (.bara f) → ready → ∃ t w' c', exec (.bara f) s = .next t ∧ t.wave u = some w' ∧ w'.pc = w.pc + 8 ∧
      w'.regs = w.regs ∧ (∀ a, t.byte a = s.byte a) ∧ t.cohort w.cohort = some c' ∧
      c'.barrier b = if last then { phase := (c.barrier b).phase + 1, arrived := [] }
        else { c.barrier b with arrived := (c.barrier b).arrived ++ [u] }) ∧
    (Issues s u w (.bar f) → ready → last → ∃ t w' c', exec (.bar f) s = .next t ∧ t.wave u = some w' ∧ w'.pc = w.pc + 8 ∧
      w'.regs = w.regs ∧ (∀ a, t.byte a = s.byte a) ∧ t.cohort w.cohort = some c' ∧
      c'.barrier b = { phase := (c.barrier b).phase + 1, arrived := [] } ∧ (t.core w.core).l1 = [] ∧
      ∀ v x n, v ≠ u → s.wave v = some x → x.cohort = w.cohort → x.wait = .barrier b n →
        t.wave v = some { x with wait := .yielded }) ∧
    (Issues s u w (.bar f) → ready → ¬last → waits (.bar f) ((c.barrier b).arrived ++ [u])) ∧
    (s.cohort w.cohort = some c → u ∈ (c.barrier b).arrived →
      (Issues s u w (.bar f) → w.prog.stage ≠ 1 ∨ w.prog.x = (c.barrier b).phase → waits (.bar f) (c.barrier b).arrived) ∧
      (Issues s u w (.bara f) → w.prog.stage ≠ 1 → waits (.bara f) (c.barrier b).arrived) ∧
      (Issues s u w (.barw f) → waits (.barw f) (c.barrier b).arrived)) ∧
    (Issues s u w (.barw f) → s.cohort w.cohort = some c → u ∉ (c.barrier b).arrived →
      ∃ t w', exec (.barw f) s = .next t ∧ t.wave u = some w' ∧ w'.pc = w.pc + 8 ∧ w'.regs = w.regs ∧ (t.core w.core).l1 = [])

/-! ### Vector instructions -/

/-- R246, R249, R250: the two-source integer vector instructions compute each element of each active lane from the routed elements;
under sat the exact result is clamped to the type's range. -/
def Obligations.VectorArithmetic : Prop :=
  let exact := fun (g : Int → Int → Int) (f : V2F) (n x y : Nat) =>
    let r := g (intVal n (elemSigned f.ty) x) (intVal n (elemSigned f.ty) y)
    wrapTo n (if f.sat = 1 then max (intLo n (elemSigned f.ty)) (min (intHi n (elemSigned f.ty)) r) else r)
  ElementsOf .vadd (exact fun x y => x + y) ∧ ElementsOf .vsub (exact fun x y => x - y) ∧
  ElementsOf .vmul (exact fun x y => x * y) ∧
  ElementsOf .vmulh (fun f n x y =>
    wrapTo n ((intVal n (elemSigned f.ty) x * intVal n (elemSigned f.ty) y) / (2 ^ n : Nat))) ∧
  ElementsOf .vmin (fun f n x y => if intVal n (elemSigned f.ty) x ≤ intVal n (elemSigned f.ty) y then x else y) ∧
  ElementsOf .vmax (fun f n x y => if intVal n (elemSigned f.ty) x ≤ intVal n (elemSigned f.ty) y then y else x) ∧
  ElementsOf .vabsd (fun f n x y => (intVal n (elemSigned f.ty) x - intVal n (elemSigned f.ty) y).natAbs) ∧
  ElementsOf .vand (fun _ _ x y => x &&& y) ∧ ElementsOf .vor (fun _ _ x y => x ||| y) ∧ ElementsOf .vxor (fun _ _ x y => x ^^^ y) ∧
  ElementsOf .vshl (fun _ n x y => x * 2 ^ (y % n)) ∧ ElementsOf .vshr (fun _ n x y => x / 2 ^ (y % n)) ∧
  ElementsOf .vsha (fun _ n x y => wrapTo n (Int.fdiv (signedOf n x) (2 ^ (y % n) : Nat))) ∧
  ElementsOf .vpopc (fun _ n x _ => (List.range n).countP fun j => bit x j) ∧
  ElementsOf .vlzc (fun _ n x _ => if x = 0 then n else n - 1 - Nat.log2 x)

/-- R251, R253, R254: the other integer vector instructions that write vector registers. R252, R255, R256: compares write a mask, zero
where a lane is not active; reductions and scans combine the active lanes in ascending order from the operator's identity. -/
def Obligations.VectorLanes : Prop :=
  (Vector3Of .vlogic (fun _ w a b c => packElems 1 ((List.range 32).map fun j =>
    b2n (w.kconst.getLsbD (4 * b2n (bit a j) + 2 * b2n (bit b j) + b2n (bit c j))))) ∧
  Vector3Of .vbfe (fun _ _ a _ c => extractField a c (bit c 15)) ∧
  Vector3Of .vbfi (fun _ _ a b c => insertField a b c) ∧
  (∀ (s : State) (u : Nat) (w : Wave) (f : V3F), Issues s u w (.vmad f) →
    ∃ w', Completes s u w (.vmad f) w' ∧ w' = w.after w'.regs w.sp ∧ VectorResult w w' f.d.toNat (if f.ty = 2 then 2 else 1) fun i =>
      routeN w (f.ty == 2) f.a f.ra f.p i * routeN w (f.ty == 2) f.b f.rb f.p i + routeN w (f.ty == 2) f.c f.rc f.p i) ∧
  (∀ (s : State) (u : Nat) (w : Wave) (f : V3F), Issues s u w (.vsel f) →
    ∃ w', Completes s u w (.vsel f) w' ∧ w' = w.after w'.regs w.sp ∧ VectorResult w w' f.d.toNat 1 fun i =>
      if (w.maskWord f.c (i / 32)).getLsbD (i % 32) then (route32 w f.a f.ra f.p i).toNat else (route32 w f.b f.rb f.p i).toNat) ∧
  VectorOf .vmov (fun f => tyRegs f.ty) (fun f w i => srcA w f i) ∧
  VectorOf .vlane (fun _ => 1) (fun f w i =>
    if f.fn = 0 then i else if f.fn = 1 then i % 32 else if f.fn = 2 then i / 32 else w.waveId * w.width + i) ∧
  (∀ (s : State) (u : Nat) (w : Wave) (f : IF), Issues s u w (.vmovi f) →
    ∃ w', Completes s u w (.vmovi f) w' ∧ w' = w.after w'.regs w.sp ∧ VectorResult w w' f.d.toNat (if f.fn = 0 then 1 else 2) fun _ =>
      if f.fn = 1 then (f.imm.signExtend 64).toNat else f.imm.toNat) ∧
  (∀ (s : State) (u : Nat) (w : Wave) (f : V2F), Issues s u w (.vrand f) →
    ∃ w', Completes s u w (.vrand f) w' ∧ w' = w.after w'.regs { w.sp with gens := w'.sp.gens } ∧
      (∀ i, w'.gen i = if i ∈ w.activeLanes then genStep (w.gen i) else w.gen i) ∧
      VectorResult w w' f.d.toNat (if f.fn = 0 then 1 else 2) fun i =>
        if f.fn = 0 then (genStep (w.gen i) >>> 32).toNat else (genStep (w.gen i)).toNat)) ∧
  ((∀ (s : State) (u : Nat) (w : Wave) (f : V2F), Issues s u w (.vcmp f) →
    ∃ w' m, Completes s u w (.vcmp f) w' ∧ w' = w.after w'.regs w.sp ∧ ScalarResult w w' f.d.toNat w.k m ∧
      ∀ i, i < w.width → (m (i / 32)).getLsbD (i % 32) = (w.active i && comparePred f.fn.toNat
        (intVal (elemWidth f.ty) (elemSigned f.ty) (srcA w f i)) (intVal (elemWidth f.ty) (elemSigned f.ty) (srcB w f i)))) ∧
  (∀ (s : State) (u : Nat) (w : Wave) (f : V2F), Issues s u w (.vred f) →
    ∃ w', Completes s u w (.vred f) w' ∧ w' = w.after w'.regs w.sp ∧ ScalarResult w w' f.d.toNat 2 fun j =>
      if j = 0 then BitVec.ofNat 32 ((w.activeLanes.map (srcA w f)).foldl (reduceOp f.fn.toNat 32 (f.ty == 0)) (reduceId f.fn.toNat 32 (f.ty == 0)))
      else BitVec.ofNat 32 w.activeLanes.length) ∧
  (∀ (s : State) (u : Nat) (w : Wave) (f : V2F), Issues s u w (.vscan f) →
    let op := reduceOp (f.fn.toNat % 8) (elemWidth f.ty) (elemSigned f.ty)
    ∃ w', Completes s u w (.vscan f) w' ∧ w' = w.after w'.regs w.sp ∧ VectorResult w w' f.d.toNat (tyRegs f.ty) fun i =>
      ((w.activeLanes.filter fun j => if f.fn.toNat / 8 = 1 then decide (j < i) else decide (j ≤ i)).map (srcA w f)).foldl op
        (reduceId (f.fn.toNat % 8) (elemWidth f.ty) (elemSigned f.ty))) ∧
  (∀ b x y, x < 2 ^ 32 → y < 2 ^ 32 → reduceOp 1 32 b x (reduceId 1 32 b) = x ∧ reduceOp 2 32 b x (reduceId 2 32 b) = x ∧
    reduceOp 0 32 b x (reduceId 0 32 b) = x ∧ reduceOp 3 32 b x (reduceId 3 32 b) = x ∧ reduceOp 4 32 b x (reduceId 4 32 b) = x ∧
    reduceOp 5 32 b x (reduceId 5 32 b) = x ∧ reduceOp 0 32 b x y = (x + y) % 2 ^ 32))

/-- R191, R257: VPLANE gathers bit 7 − n / (B / 8) of eight codes into byte n of each block of B bytes of a swept pass, and VUNPLANE
undoes it. -/
def Obligations.BitPlanes : Prop :=
  ∀ (s : State) (u : Nat) (w : Wave) (f : V2F),
    let B := 16 * 2 ^ f.fn.toNat
    let byteBit := fun (w : Wave) (r i p k : Nat) => (w.v r (32 * (i / 32) + p / 4)).getLsbD (8 * (p % 4) + k)
    (Issues s u w (.vplane f) → ∃ w' x, Completes s u w (.vplane f) w' ∧ w' = w.after w'.regs w.sp ∧ VectorResult w w' f.d.toNat 1 x ∧
      ∀ i m k, i ∈ w.activeLanes → m < 4 → k < 8 →
        let p := i % 32 * 4 + m
        bit (x i) (8 * m + k) = byteBit w f.a.toNat i (p / B * B + p % B % (B / 8) * 8 + k) (7 - p % B / (B / 8))) ∧
    (Issues s u w (.vunplane f) → ∃ w' x, Completes s u w (.vunplane f) w' ∧ w' = w.after w'.regs w.sp ∧
      VectorResult w w' f.d.toNat 1 x ∧
      ∀ i m j, i ∈ w.activeLanes → m < 4 → j < 8 →
        let p := i % 32 * 4 + m
        bit (x i) (8 * m + j) = byteBit w f.a.toNat i (p / B * B + B / 8 * (7 - j) + p % B / 8) (p % B % 8))

/-- R258, R259, R186: the floating-point vector instructions that write at once, and the three-source ones. R258, R261, R169:
division, square root and the special functions land late; a special function rounds nothing and so steps no generator. -/
def Obligations.VectorFloat : Prop :=
  (FpOf .vfadd fpAdd ∧ FpOf .vfsub fpSub ∧ FpOf .vfmul fpMul ∧
  FpOf .vfmin (fun fmt _ _ x y => fpMinMax fmt false x y) ∧ FpOf .vfmax (fun fmt _ _ x y => fpMinMax fmt true x y) ∧
  (∀ (s : State) (u : Nat) (w : Wave) (f : V3F), Issues s u w (.vfma f) →
    let fmt := fpOf3 f.ty
    let mode := w.mode f.rnd.toNat
    let count := if f.ty = 0 ∨ f.ty = 1 then 1 else 2
    let el := fun (c : BitVec 8) (m : BitVec 3) (i e : Nat) => elemOf fmt.width (routeN w (f.ty == 1) c m f.p i) e
    let r := fun (i e k : Nat) => fpFma fmt mode k (el f.a f.ra i e) (el f.b f.rb i e) (el f.c f.rc i e)
    ∃ w', Completes s u w (.vfma f) w' ∧ w' = w.after w'.regs w'.sp ∧ FpEffect w w' mode count w.activeLanes r ∧
      VectorResult w w' f.d.toNat (if f.ty = 1 then 2 else 1) fun i =>
        packElems fmt.width ((List.range count).map fun e => (r i e (drawWord w mode e i)).1)) ∧
  (∀ (s : State) (u : Nat) (w : Wave) (f : V3F), Issues s u w (.vfdot2 f) →
    let mode := w.mode f.rnd.toNat
    let el := fun (c : BitVec 8) (m : BitVec 3) (i e : Nat) => fpDecode (fpOf3 f.ty) (elemOf 16 (route32 w c m f.p i).toNat e)
    let r := fun (i : Nat) (_ : Nat) (k : Nat) => exactSum fpF32 mode k (fpDecode fpF32 (route32 w f.c f.rc f.p i).toNat)
      [(el f.a f.ra i 0, el f.b f.rb i 0), (el f.a f.ra i 1, el f.b f.rb i 1)] false
    ∃ w', Completes s u w (.vfdot2 f) w' ∧ w' = w.after w'.regs w'.sp ∧ FpEffect w w' mode 1 w.activeLanes r ∧
      VectorResult w w' f.d.toNat 1 fun i => (r i 0 (drawWord w mode 0 i)).1 % 2 ^ 32)) ∧
  (FpLateOf .vfdiv fpDiv ∧ FpLateOf .vfsqrt (fun fmt mode u x _ => fpSqrt fmt mode u x) ∧
  FpLateOf .vfrcp (fun fmt _ _ x _ => fpSpecial fmt 0 x) ∧ FpLateOf .vfrsq (fun fmt _ _ x _ => fpSpecial fmt 1 x) ∧
  FpLateOf .vfexp2 (fun fmt _ _ x _ => fpSpecial fmt 2 x) ∧ FpLateOf .vflog2 (fun fmt _ _ x _ => fpSpecial fmt 3 x) ∧
  FpLateOf .vfsin (fun fmt _ _ x _ => fpSpecial fmt 4 x) ∧ FpLateOf .vfcos (fun fmt _ _ x _ => fpSpecial fmt 5 x) ∧
  FpLateOf .vftanh (fun fmt _ _ x _ => fpSpecial fmt 6 x))

/-- R260, R262, R263, R264: float compares and classes, conversion and packing. VFRED gives the root of the fixed tree over the active
lanes, or the identity, with their count, and every flag raised in the tree; only its generator draws, when DYN selects SR, are left
out. -/
def Obligations.VectorConvert : Prop :=
  (∀ (s : State) (u : Nat) (w : Wave) (f : V2F), Issues s u w (.vfcmp f) →
    let r := fun (i : Nat) => fpCompare (fpOf f.ty) f.fn.toNat (srcA w f i) (srcB w f i)
    ∃ w' m, Completes s u w (.vfcmp f) w' ∧
      w' = w.after w'.regs { w.sp with fpstat := (w.activeLanes.map fun i => (r i).2).foldl (fun a x => a ||| x) w.sp.fpstat } ∧
      ScalarResult w w' f.d.toNat w.k m ∧
      ∀ i, i < w.width → (m (i / 32)).getLsbD (i % 32) = (w.active i && (r i).1)) ∧
  VectorOf .vfclass (fun f => tyRegs f.ty) (fun f w i => packElems (fpOf f.ty).width ((List.range (elemCount f.ty)).map fun e =>
    fpClass (fpOf f.ty) (elemOf (fpOf f.ty).width (srcA w f i) e))) ∧
  (∀ (s : State) (u : Nat) (w : Wave) (f : V2F), Issues s u w (.vcvt f) →
    let mode := w.mode f.rnd.toNat
    let src := cvtType f.fn.toNat
    let r := fun (i : Nat) (_ : Nat) (k : Nat) => convert src (cvtType f.ty.toNat) mode k (f.sat == 1)
      (routeN w (f.fn == 0) f.a f.ra f.p i % 2 ^ src.width)
    ∃ w', Completes s u w (.vcvt f) w' ∧ w' = w.after w'.regs w'.sp ∧ FpEffect w w' mode 1 w.activeLanes r ∧
      VectorResult w w' f.d.toNat (if f.ty = 0 then 2 else 1) fun i => (r i 0 (drawWord w mode 0 i)).1 % 2 ^ 64) ∧
  VectorOf .vpack (fun _ => 1) (fun f w i =>
    let a := (route32 w f.a f.ra f.p i).toNat
    let b := (route32 w f.b f.rb f.p i).toNat
    let d := (w.v f.d.toNat i).toNat
    if f.fn = 0 then a % 2 ^ 16 + 2 ^ 16 * (b % 2 ^ 16)
    else if f.fn = 1 then a % 2 ^ 8 + 2 ^ 8 * (b % 2 ^ 8) + d / 2 ^ 16 * 2 ^ 16
    else d % 2 ^ 16 + 2 ^ 16 * (a % 2 ^ 8 + 2 ^ 8 * (b % 2 ^ 8))) ∧
  VectorOf .vunpk (fun _ => 1) (fun f w i =>
    let a := (route32 w f.a f.ra f.p i).toNat
    if f.fn.toNat < 2 then a / 2 ^ (16 * f.fn.toNat) % 2 ^ 16 else a / 2 ^ (8 * (f.fn.toNat - 2)) % 2 ^ 8) ∧
  (∀ (s : State) (u : Nat) (w : Wave) (f : V2F), Issues s u w (.vfred f) →
    ∃ w' x, Completes s u w (.vfred f) w' ∧ w' = w.after w'.regs w'.sp ∧
      ScalarResult w w' f.d.toNat (if f.ty = 5 then 4 else 2) (fun j =>
        if j < (if f.ty = 5 then 2 else 1) then BitVec.ofNat 32 (x / 2 ^ (32 * j))
        else if j = (if f.ty = 5 then 2 else 1) then BitVec.ofNat 32 w.activeLanes.length else 0) ∧
      (let fmt := fpOf f.ty
       let mode := w.mode f.rnd.toNat
       let g := fun (x y : Nat) => if f.fn = 0 then fpAdd fmt mode 0 x y else fpMinMax fmt (f.fn == 2) x y
       let leaf := fun (i : Nat) => if i < w.width ∧ w.active i then some (srcA w f i) else none
       let root := treeNode g leaf (Nat.log2 (w.width - 1) + 1) 0
       mode ≠ 5 → w'.sp = { w.sp with fpstat := w.sp.fpstat ||| root.2 } ∧ ∀ r, root.1 = some r → x = r) ∧
      (w.activeLanes = [] → x = if f.fn = 0 then 0 else if f.fn = 1 then (fpOf f.ty).inf.getD 0
        else (fpOf f.ty).signed true ((fpOf f.ty).inf.getD 0)) ∧
      (∀ i, w.activeLanes = [i] → x % 2 ^ (32 * regsOf f.ty) = srcA w f i))

/-- R179, R180, R184: an operation on a NaN gives the canonical NaN, with NV if an operand signals. R182: rounding a value that its
format holds exactly gives the value back, in every mode, and raises nothing. -/
def Obligations.FloatValues : Prop :=
  (∀ (f : FpFmt) (mode u a b : Nat), f ∈ [fpF64, fpF32, fpF16, fpBf16] → ((fpDecode f a).isNan || (fpDecode f b).isNan) = true →
    ∀ r ∈ [fpAdd f mode u a b, fpSub f mode u a b, fpMul f mode u a b, fpDiv f mode u a b],
      r = (f.nan, if (fpDecode f a).isSig || (fpDecode f b).isSig then flagNV else 0)) ∧
  (∀ (f : FpFmt) (mode u x : Nat), f ∈ [fpF64, fpF32, fpF16, fpBf16] → mode ≤ 5 → u < 2 ^ 32 → x < 2 ^ f.width →
    (fpDecode f x).isNan = false → roundVal f mode u false (fpDecode f x) = (x, 0))

/-! ### Memory -/

/-- R199: the address of a lane is base + offset × element size + displacement modulo 2^64, offset and displacement signed. R24, R74,
R169, R266, R267: a global load outside a commit group whose accesses pass their checks leaves one late result with a part for each
active lane; with no active lane it does nothing. Only host memory over PCIe is read yet, in issue order, and no register or byte of
memory changes. -/
def Obligations.LoadsPend : Prop :=
  (∀ (w : Wave) (f : MF) (i : Nat), laneAddr w f i =
    (BitVec.ofNat 64 (w.base f.base) + (if f.hasOff = 1 then (w.v f.off.toNat i).signExtend 64 * BitVec.ofNat 64 (sizeBytes f.size.toNat) else 0) +
      f.disp.signExtend 64).toNat) ∧
  (∀ (s : State) (u : Nat) (w : Wave) (f : MF) (pa : Nat → Nat), f.space = 0 → w.joinHolds = false → w.group = none →
    let e := sizeBytes f.size.toNat
    let pending := fun (l : Late) (vec : Bool) (lanes : List Nat) =>
      l.seq = w.lateSeq + 1 ∧ l.kind = .global ∧ l.vec = vec ∧ l.reg = (if vec then f.data.toNat else w.skey f.data.toNat) ∧
      l.nregs = sizeRegs f.size ∧ l.size = f.size.toNat ∧ l.window = f.la.toNat ∧ l.refused = [] ∧
      l.vals = ((lanes.filter fun i => s.atLink (pa i)).map fun i => (i, extendLoad f.size.toNat (s.read (pa i) e))) ∧
      l.lanes.map (fun a => (a.lane, a.addr)) = lanes.map fun i => (i, pa i)
    (Issues s u w (.vld f) →
      (∀ i ∈ w.activeLanes, Reaches s w (laneAddr w f i) 0 false e (pa i) ∧ s.poisoned (pa i) e = false) →
      if w.activeLanes = [] then Completes s u w (.vld f) w.afterAccess
      else ∃ l, Completes s u w (.vld f) (w.afterLate l) ∧ pending l true w.activeLanes) ∧
    (Issues s u w (.sld f) → scalarIo s w f.size.toNat (scalarLane w f) = false →
      (w.anyExec = true → Reaches s w (scalarAddr w f) 0 false e (pa 0) ∧ s.poisoned (pa 0) e = false) →
      if w.anyExec then ∃ l, Completes s u w (.sld f) (w.afterLate l) ∧ pending l false [0]
      else Completes s u w (.sld f) w.afterAccess))

/-- R54, R59, R60, R266, R267: a scratch load whose lines are FULL leaves one late result with a part for each lane, and all its lanes
are read together when its lines are FULL as it lands; a scratch store writes them, the highest lane winning a byte. Global memory is
not touched. R61, R62, R270: FQPUSH appends the values of the lanes in LIVE to a FIFO that is not full, and FQPOP takes the oldest entry
and answers those lanes with it before the next instruction. Memory is not touched. -/
def Obligations.Scratchpad : Prop :=
  (∀ (s : State) (u : Nat) (w : Wave) (f : MF) (c : Cohort), f.space = 1 → s.cohort w.cohort = some c → w.joinHolds = false →
    let e := sizeBytes f.size.toNat
    let pending := fun (l : Late) (vec : Bool) (lanes : List (Nat × Nat)) =>
      l.seq = w.lateSeq + 1 ∧ l.kind = .scratch ∧ l.vec = vec ∧ l.reg = (if vec then f.data.toNat else w.skey f.data.toNat) ∧
      l.nregs = sizeRegs f.size ∧ l.size = f.size.toNat ∧ l.window = f.la.toNat ∧ l.vals = [] ∧
      l.lanes.map (fun a => (a.lane, a.addr)) = lanes
    let stored := fun (c' : Cohort) (addr v : Nat → Nat) (lanes : List Nat) =>
      (∀ i ∈ lanes, ∀ b, b < e → (∀ k ∈ lanes, i < k → ¬(addr k ≤ addr i + b ∧ addr i + b < addr k + e)) →
        mapGet 0 c'.scratch (addr i + b) = BitVec.ofNat 8 (v i / 256 ^ b)) ∧
      (∀ a, (∀ i ∈ lanes, ¬(addr i ≤ a ∧ a < addr i + e)) → mapGet 0 c'.scratch a = mapGet 0 c.scratch a)
    (Issues s u w (.vld f) → c.readable u e (laneAddr w f) w.activeLanes → w.activeLanes ≠ [] →
      ∃ l, Completes s u w (.vld f) (w.afterLate l) ∧ pending l true (w.activeLanes.map fun i => (i, laneAddr w f i))) ∧
    (Issues s u w (.sld f) → c.readable u e (fun _ => scalarAddr w f) [0] → w.anyExec = true →
      ∃ l, Completes s u w (.sld f) (w.afterLate l) ∧ pending l false [(0, scalarAddr w f)]) ∧
    (∀ l, s.wave u = some w → w.wait = .late → w.late = [l] → l.kind = .scratch → l.vals = [] → l.lanes ≠ [] → w.keeper = none →
      c.readable u (sizeBytes l.size) (fun i => i) (l.lanes.map (·.addr)) →
      Happens s (.lateResultLand u l.seq []) fun t => ∃ w', t.wave u = some w' ∧ w'.late = [] ∧ w'.pc = w.pc ∧
        w'.regs = (w.landLate { l with vals := l.lanes.map fun a => (a.lane, extendLoad l.size (c.scratchRead a.addr (sizeBytes l.size))) }).regs) ∧
    (Issues s u w (.vst f) → w.group = none → w.late.any (·.reads) = false → (∀ m ∈ c.marking, m.wave ≠ u) →
      (∀ i ∈ w.activeLanes, laneAddr w f i % e = 0 ∧ c.scratchOk (laneAddr w f i) e = true) →
      ∃ t c', exec (.vst f) s = .next t ∧ t.wave u = some w.afterAccess ∧ t.cohort w.cohort = some c' ∧ (∀ a, t.byte a = s.byte a) ∧
        stored c' (laneAddr w f) (fun i => w.vs f.data.toNat (sizeRegs f.size) i) w.activeLanes) ∧
    (Issues s u w (.sst f) → w.group = none → w.late.any (·.reads) = false → w.anyExec = true → (∀ m ∈ c.marking, m.wave ≠ u) →
      scalarAddr w f % e = 0 → c.scratchOk (scalarAddr w f) e = true →
      ∃ t c', exec (.sst f) s = .next t ∧ t.wave u = some w.afterAccess ∧ t.cohort w.cohort = some c' ∧ (∀ a, t.byte a = s.byte a) ∧
        stored c' (fun _ => scalarAddr w f) (fun _ => sstValue w f) [0])) ∧
  (∀ (s : State) (u : Nat) (w : Wave) (f : MF) (c : Cohort) (x : Fifo), w.joinHolds = false → w.group = none →
    s.cohort w.cohort = some c → c.fifo (f.disp.toNat % 16) = some x →
    (Issues s u w (.fqpush f) → w.late.any (·.reads) = false → x.entries.length < x.depth →
      ∃ t w' c', exec (.fqpush f) s = .next t ∧ t.wave u = some w' ∧ w'.pc = w.pc + 8 ∧ w'.regs = w.regs ∧
        t.cohort w.cohort = some c' ∧ (∀ a, t.byte a = s.byte a) ∧
        c'.fifo (f.disp.toNat % 16) = some { x with
          entries := x.entries ++ [(List.range w.width).map fun i => if w.liveBit i then w.v f.data.toNat i else 0] }) ∧
    (∀ e rest, Issues s u w (.fqpop f) → x.entries = e :: rest →
      ∃ t w' c', exec (.fqpop f) s = .next t ∧ t.wave u = some w' ∧ w'.pc = w.pc + 8 ∧ t.cohort w.cohort = some c' ∧
        (∀ a, t.byte a = s.byte a) ∧ c'.fifo (f.disp.toNat % 16) = some { x with entries := rest } ∧
        w.answerPends w' true f.data.toNat 1 (w.liveLanes.map fun i => (i, (nth 0 e i).toNat))))

/-- R51, R132, R266: a global store outside a commit group with room in the store buffer enters each byte in the wave's entry for its
sector, the highest lane winning a byte. No byte of memory changes until the entry drains. R51, R135, R409: an entry that may
drain is performed at its home slice: its bytes, and no others, change in memory, and it leaves the store buffer. R271: prefetch
and flush change no register and no byte of memory; CFLUSH with fn 1 leaves the lines of its lanes in no L1. -/
def Obligations.Stores : Prop :=
  (∀ (s : State) (u : Nat) (w : Wave) (f : MF) (pa : Nat → Nat), f.space = 0 → w.joinHolds = false → w.group = none →
    let e := sizeBytes f.size.toNat
    let entered := fun (t : State) (lanes : List Nat) (v : Nat → Nat) =>
      ∀ i ∈ lanes, ∀ b, b < e → (∀ k ∈ lanes, i < k → ¬(pa k ≤ pa i + b ∧ pa i + b < pa k + e)) →
        ∃ x ∈ (t.core w.core).sb, x.wave = u ∧ x.sector = (pa i + b) / 16 ∧
          mapFind x.bytes ((pa i + b) % 16) = some (BitVec.ofNat 8 (v i / 256 ^ b))
    (Issues s u w (.vst f) → (s.core w.core).sb.length + w.activeLanes.length ≤ sbSize w.core →
      (∀ i ∈ w.activeLanes, Reaches s w (laneAddr w f i) 1 false e (pa i) ∧ s.atLink (pa i) = false) →
      ∃ t, exec (.vst f) s = .next t ∧ t.wave u = some w.afterAccess ∧ (∀ v, v ≠ u → t.wave v = s.wave v) ∧
        (∀ a, t.byte a = s.byte a) ∧ entered t w.activeLanes fun i => w.vs f.data.toNat (sizeRegs f.size) i) ∧
    (Issues s u w (.sst f) → scalarIo s w f.size.toNat (scalarLane w f) = false → (s.core w.core).sb.length + 1 ≤ sbSize w.core →
      (w.anyExec = true → Reaches s w (scalarAddr w f) 1 false e (pa 0) ∧ s.atLink (pa 0) = false) →
      ∃ t, exec (.sst f) s = .next t ∧ t.wave u = some w.afterAccess ∧ (∀ v, v ≠ u → t.wave v = s.wave v) ∧
        (∀ a, t.byte a = s.byte a) ∧ entered t (if w.anyExec then [0] else []) fun _ => sstValue w f)) ∧
  (∀ (s : State) (core : Nat) (x : SbEntry), (s.core core).sb.find? (fun y => y.id == x.id) = some x → s.canDrain x = true →
    s.still = true → x.bytes.Pairwise (fun a b => a.1 < b.1) → (∀ b ∈ x.bytes, b.1 < 16) →
    (∀ v, s.wave x.wave = some v → v.wait ≠ .draining) →
    s.admits (if isTrustCore core then .trust else .world x.world) (x.sector * 16) = true →
    ∃ t, exec (.storeBufferDrain core x.id) s = .next t ∧
      (∀ a, t.byte a = match (if a / 16 = x.sector then mapFind x.bytes (a % 16) else none) with
        | some b => b
        | none => s.byte a) ∧
      ∀ y ∈ (t.core core).sb, y.id ≠ x.id) ∧
  (∀ (s : State) (u : Nat) (w : Wave) (f : MF) (pa : Nat → Nat), w.joinHolds = false →
    (Issues s u w (.cpref f) → (∀ i ∈ w.activeLanes, canonical (laneAddr w f i) = true → waveXlate s w (laneAddr w f i) 0 false ≠ .miss) →
      ∃ t, exec (.cpref f) s = .next t ∧ t.wave u = some w.afterAccess ∧ ∀ a, t.byte a = s.byte a) ∧
    (Issues s u w (.cflush f) → (∀ x ∈ (s.core w.core).sb, x.wave ≠ u) →
      (∀ i ∈ w.activeLanes, Reaches s w (laneAddr w f i) 1 false 1 (pa i)) →
      ∃ t, exec (.cflush f) s = .next t ∧ t.wave u = some w.afterAccess ∧ (∀ a, t.byte a = s.byte a) ∧
        (f.fn = 1 → ∀ i ∈ w.activeLanes, ∀ k, ∀ y ∈ (t.core k).l1, y.sector / 4 ≠ pa i / 64)))

/-- R132, R167, R268, R269: the lanes of an atomic act in ascending order at their home slices, or at the banks of the scratchpad; the
values that the lanes found answer it before the next instruction, and only the words of the lanes change. R269: an atomic add wraps, the maxima and
minima are signed and unsigned, and a compare-and-swap writes only where it finds its value. -/
def Obligations.Atomics : Prop :=
  (∀ (s : State) (u : Nat) (w : Wave) (f : MF) (pa : Nat → Nat) (c : Cohort), w.joinHolds = false → w.group = none →
    w.late.any (·.reads) = false →
    let e := sizeBytes f.size.toNat
    let fn := f.fn.toNat
    let vargs := fun (i : Nat) => w.vs f.data.toNat (atomRegs f.size.toNat fn) i
    let sargs := fun (_ : Nat) => w.sgroup f.data.toNat (atomRegs f.size.toNat fn)
    let before := fun (i : Nat) => w.activeLanes.filter fun j => decide (j < i)
    (Issues s u w (.vatom f) → f.space = 0 → s.still = true → (s.core w.core).sb = [] →
      (∀ i ∈ w.activeLanes, Reaches s w (laneAddr w f i) 2 false e (pa i) ∧ s.poisoned (pa i) e = false) →
      ∃ t w', exec (.vatom f) s = .next t ∧ t.wave u = some w' ∧ w'.pc = w.pc + 8 ∧
        (∀ a, t.byte a = (s.afterAtomics fn e vargs pa w.activeLanes).byte a) ∧
        (w.activeLanes ≠ [] → w.answerPends w' true f.data.toNat (oldRegs f.size.toNat)
          (w.activeLanes.map fun i => (i, (s.afterAtomics fn e vargs pa (before i)).read (pa i) e)))) ∧
    (Issues s u w (.satom f) → f.space = 0 → w.anyExec = true → s.still = true → (s.core w.core).sb = [] →
      Reaches s w (scalarAddr w f) 2 false e (pa 0) → s.poisoned (pa 0) e = false →
      ∃ t w', exec (.satom f) s = .next t ∧ t.wave u = some w' ∧ w'.pc = w.pc + 8 ∧
        (∀ a, t.byte a = (s.afterAtomics fn e sargs pa [0]).byte a) ∧
        w.answerPends w' false f.data.toNat (oldRegs f.size.toNat) [(0, s.read (pa 0) e)]) ∧
    (Issues s u w (.vatom f) → f.space = 1 → s.cohort w.cohort = some c → c.readable u e (laneAddr w f) w.activeLanes →
      ∃ t w' c', exec (.vatom f) s = .next t ∧ t.wave u = some w' ∧ w'.pc = w.pc + 8 ∧ (∀ a, t.byte a = s.byte a) ∧
        t.cohort w.cohort = some c' ∧ c'.scratch = (c.afterAtomics fn e vargs (laneAddr w f) w.activeLanes).scratch ∧
        (w.activeLanes ≠ [] → w.answerPends w' true f.data.toNat (oldRegs f.size.toNat)
          (w.activeLanes.map fun i => (i, (c.afterAtomics fn e vargs (laneAddr w f) (before i)).scratchRead (laneAddr w f i) e)))) ∧
    (Issues s u w (.satom f) → f.space = 1 → w.anyExec = true → s.cohort w.cohort = some c →
      c.readable u e (fun _ => scalarAddr w f) [0] →
      ∃ t w' c', exec (.satom f) s = .next t ∧ t.wave u = some w' ∧ w'.pc = w.pc + 8 ∧ (∀ a, t.byte a = s.byte a) ∧
        t.cohort w.cohort = some c' ∧ c'.scratch = (c.afterAtomics fn e sargs (fun _ => scalarAddr w f) [0]).scratch ∧
        w.answerPends w' false f.data.toNat (oldRegs f.size.toNat) [(0, c.scratchRead (scalarAddr w f) e)])) ∧
  (∀ (m x y : DWord),
    atomicNew 0 64 m.toNat x.toNat y.toNat = (some (m + x).toNat, 0) ∧
    atomicNew 1 64 m.toNat x.toNat y.toNat = (some (if x.slt m then x else m).toNat, 0) ∧
    atomicNew 2 64 m.toNat x.toNat y.toNat = (some (if m.slt x then x else m).toNat, 0) ∧
    atomicNew 3 64 m.toNat x.toNat y.toNat = (some (if x.ult m then x else m).toNat, 0) ∧
    atomicNew 4 64 m.toNat x.toNat y.toNat = (some (if m.ult x then x else m).toNat, 0) ∧
    atomicNew 5 64 m.toNat x.toNat y.toNat = (some (m &&& x).toNat, 0) ∧
    atomicNew 6 64 m.toNat x.toNat y.toNat = (some (m ||| x).toNat, 0) ∧
    atomicNew 7 64 m.toNat x.toNat y.toNat = (some (m ^^^ x).toNat, 0) ∧
    atomicNew 8 64 m.toNat x.toNat y.toNat = (some x.toNat, 0) ∧
    atomicNew 9 64 m.toNat x.toNat y.toNat = (if m = x then some y.toNat else none, 0))

/-- R81, R82, R276: FLOAD asks the slices and its result is pending until they answer; a FULL word answers at once. FSTORE fills an
EMPTY word, and on a FULL word changes nothing but L2FUTDBL. FRESET makes words EMPTY and keeps their data. -/
def Obligations.Futures : Prop :=
  ∀ (s : State) (u : Nat) (w : Wave) (f : MF) (pa : Nat → Nat), w.joinHolds = false → w.group = none → (s.core w.core).sb = [] →
    s.unlocked = true → s.snap.state ≠ 1 →
    let e := sizeBytes f.size.toNat
    (Issues s u w (.fload f) → (∀ l ∈ w.late, l.seq ≠ w.lateSeq + 1) → w.late.any (·.reads) = false →
      (∀ i ∈ w.activeLanes, Reaches s w (laneAddr w f i) 4 false e (pa i) ∧ s.poisoned (pa i) e = false ∧ s.wordEmpty (pa i) = false) →
      w.activeLanes ≠ [] →
      ∃ t w' l, exec (.fload f) s = .next t ∧ t.wave u = some w' ∧ w'.pc = w.pc + 8 ∧ w'.regs = w.regs ∧ (∀ a, t.byte a = s.byte a) ∧
        l ∈ w'.late ∧ l.seq = w.lateSeq + 1 ∧ l.kind = .future ∧ l.reg = f.data.toNat ∧ l.window = f.la.toNat ∧ l.refused = [] ∧
        l.vals = w.activeLanes.map fun i => (i, s.read (pa i) e)) ∧
    (Issues s u w (.fstore f) → s.still = true → w.late.any (·.reads) = false → s.marked u w.cohort = true →
      (∀ i ∈ w.activeLanes, Reaches s w (laneAddr w f i) 5 false e (pa i)) →
      (∀ i ∈ w.activeLanes, ∀ j ∈ w.activeLanes, pa i / 8 = pa j / 8 → i = j) →
      ∃ t w', exec (.fstore f) s = .next t ∧ t.wave u = some w' ∧ w'.pc = w.pc + 8 ∧ w'.regs = w.regs ∧
        (∀ i ∈ w.activeLanes, t.wordEmpty (pa i) = false ∧ ∀ b, b < e → t.byte (pa i + b) =
          if s.wordEmpty (pa i) then BitVec.ofNat 8 (w.vs f.data.toNat (sizeRegs f.size) i / 256 ^ b) else s.byte (pa i + b)) ∧
        (∀ a, (∀ i ∈ w.activeLanes, ¬(pa i ≤ a ∧ a < pa i + e)) → t.byte a = s.byte a) ∧
        ∀ d, (t.die d).l2.futdbl = ((s.die d).l2.futdbl +
          (w.activeLanes.filter fun i => !s.wordEmpty (pa i) && homeDie (pa i) == d).length) % 2 ^ 32 ∨ w.activeLanes = []) ∧
    (Issues s u w (.freset f) → s.snap.marks = [] → w.late.any (·.reads) = false →
      (∀ i ∈ w.activeLanes, Reaches s w (laneAddr w f i) 5 false e (pa i)) →
      ∃ t w', exec (.freset f) s = .next t ∧ t.wave u = some w' ∧ w'.pc = w.pc + 8 ∧ w'.regs = w.regs ∧ (∀ a, t.byte a = s.byte a) ∧
        (∀ i ∈ w.activeLanes, t.wordEmpty (pa i) = true) ∧
        ∀ x, (∀ i ∈ w.activeLanes, pa i / 8 ≠ x) → (x ∈ t.fempty ↔ x ∈ s.fempty))

/-! ### Encoding -/

/-- R194, R198, R209: decoding the encoding of a well-formed instruction gives the instruction back, with every field. -/
def Obligations.RoundTrip : Prop :=
  ∀ (i : Instr) (w : DWord), i.wellFormed = true → encode i = some w → decode w = .ok i

/-- R198: an instruction keeps every bit of its word: encoding what was decoded gives the word back. R209, R210: the words whose top
byte is unassigned, and no others, are no instruction. -/
def Obligations.DecodingIsExact : Prop :=
  (∀ (w : DWord) (i : Instr), decode w = .ok i → encode i = some w) ∧
  (∀ (w : DWord), let op := w.toNat / 2 ^ 56
    (∃ n, decode w = .error (.unassigned n)) ↔
      (0x2C ≤ op ∧ op ≤ 0x2F) ∨ (0x5D ≤ op ∧ op ≤ 0x5F) ∨ (0x76 ≤ op ∧ op ≤ 0x7F) ∨ (0x9B ≤ op ∧ op ≤ 0x9F) ∨
      (0xAB ≤ op ∧ op ≤ 0xAF) ∨ (0xB8 ≤ op ∧ op ≤ 0xBF) ∨ (0xC6 ≤ op ∧ op ≤ 0xCF) ∨ (0xD7 ≤ op ∧ op ≤ 0xF7) ∨ 0xF9 ≤ op)

/-- R209, R264, R243: words that the spec writes out or that follow bit by bit from its tables decode to what they stand for. -/
def Obligations.DecodeWords : Prop :=
  decode 0x630A_0203_040C_0020 = .ok (.vfma { d := 10, a := 2, b := 3, c := 4, ra := 0, rb := 3, rc := 0, p := 1, ty := 0, rnd := 0 }) ∧
  decode 0x5328_0506_0000_0020 = .ok (.vcmp { d := 40, a := 5, b := 6, ra := 0, rb := 0, p := 0, ty := 0, rnd := 0, sat := 0, fn := 2, la := 0 }) ∧
  decode 0x6A0C_0D00_0000_4003 = .ok (.vfrcp { d := 12, a := 13, b := 0, ra := 0, rb := 0, p := 0, ty := 4, rnd := 0, sat := 0, fn := 0, la := 3 }) ∧
  decode 0xF830_0000_0000_0000 = .ok (.clauseHeader { count := 3, cls := 0, rgn := 0, z := 0, k := 0 }) ∧
  decode 0x1308_0000_FFFF_0000 = .ok (.smovi { d := 8, fn := 0, z := 0, imm := 0xFFFF0000 }) ∧
  decode 0x280C_0800_0000_0000 = .ok (.msave { d := 12, a := 8, b := 0, fn := 0, ty := 0, imm := 0 })

/-! ### The step -/

/-- R16, R162, R194, R197, R210: the core at the head of the agenda issues from the wave that it selects. The wave's next word is
decoded; inside a clause an instruction runs, between clauses a header opens the next clause, and any other word is illegal. The next
word is the one that was fetched with the clause, else the one at the wave's PC, through its translation and the instruction cache. An
event at the head of the agenda happens. What a step meets that its slice holds is met again: the step then leaves a wait (the last
clause; log 14). -/
def Obligations.StepRunsDecoded : Prop :=
  (∀ (s : State) (rest : List Turn), s.power.powered = true →
    let wait := State.advance { s with agenda := rest } 1 0
    (∀ i, s.agenda = .event i :: rest → encode i = none → step s = State.settle { s with agenda := rest } (exec i { s with agenda := rest })) ∧
    ∀ (c u : Nat) (s' s'' : State) (w : Wave) (x : DWord),
      let now := if (s.core c).lastIssue = some s.clock then wait else { s with agenda := rest }
      s.agenda = .core c :: rest → s.power.stopped = false → now.selectWave c = some (u, s') → s'.wave u = some w →
      issueGate s' u w (!w.clause.inside) = none → s'.nextWord u w = .word x s'' →
      (∀ i, decode x = .ok i → (∀ h, i ≠ .clauseHeader h) →
        step s = wait.settle (if w.clause.inside then exec i s'' else s''.illegalHeader x)) ∧
      (∀ h, decode x = .ok (.clauseHeader h) →
        step s = wait.settle (if w.clause.inside then s''.illegalWord x else exec (.clauseHeader h) s'')) ∧
      (∀ e, decode x = .error e → step s = wait.settle (if w.clause.inside then s''.illegalWord x else s''.illegalHeader x))) ∧
  (∀ (s : State) (u : Nat) (w : Wave),
    (∀ x xs, w.clause.inside = true → w.clause.words = x :: xs → s.nextWord u w = .word x s) ∧
    ∀ pa r, (w.clause.inside = false ∨ w.clause.words = []) → waveXlate s w w.pc.toNat 3 false = .ok pa r →
      let line := (s.core (codeCore w.core)).code.find? fun y => y.line == pa / 64 && y.world == s.waveWorld w
      (line = none → s.poisoned pa 8 = false → ∃ t, s.nextWord u w = .word (BitVec.ofNat 64 (s.read pa 8)) t ∧
        t = { s with cores := t.cores }) ∧
      ∀ y, line = some y → s.nextWord u w = .word (BitVec.ofNat 64 (leNat ((y.bytes.drop (pa % 64)).take 8))) s) ∧
  ∀ (wait t : State), (t.blocked = false → wait.settle (.next t) = .next t) ∧
    (t.blocked = true → wait.settle (.next t) = .next { wait with blocked := false })

/-- Every step keeps memory in canonical form: no byte is listed twice, and none that reads as an unlisted one does. -/
def Obligations.MemoryStaysCanonical : Prop := ∀ (s t : State), s.memOk → step s = .next t → t.memOk

/-- Memory is in canonical form at reset, where nothing is listed. R44, R46, R92, R99, R211, R333, R335, R350, R351, R372, R401, R408, R450:
what package reset leaves. -/
def Obligations.ResetState : Prop :=
  (State.reset.memOk ∧ (∀ a, inOwnerTable a = false → State.reset.byte a = 0) ∧
    ∀ a, State.reset.owner a = { world := 0, state := 2, shared := false, version := 0 }) ∧
  (let s := State.reset
  s.clock = 0 ∧ s.waves = [] ∧ s.cohorts = [] ∧ s.sched.nextDisp = 1 ∧
  (∀ n, n < 16 → mapGet 0 s.trust.slots n = 0) ∧ s.trust.stage = 0 ∧ s.trust.err = 0 ∧ s.trust.deny = 0 ∧ s.trust.tagfail = 0 ∧
  s.sched.en = false ∧ s.sched.preempt = true ∧ s.sched.stagelim = 200 ∧ s.sched.preemptlim = 500 ∧ s.sched.pre = 0 ∧ s.sched.dem = 0 ∧
  s.fabric.shape = 1 ∧ s.fabric.pos = 0 ∧ s.snap.state = 0 ∧ s.snap.tl = 0 ∧ s.snap.val = 0 ∧
  (∀ c n, ((mapFind (s.core c).segs n).getD Segment.reset).role = .cache) ∧
  (∀ c n, mapGet 0 (s.core c).tenants n = 0) ∧ (∀ c, (s.core c).strict = 0) ∧
  (∀ q, (s.queue q).cfg = 0 ∧ (s.queue q).ring = 0 ∧ (s.queue q).err = false ∧ (s.queue q).ringf = false ∧ (s.queue q).last = 0) ∧
  ∀ d, (s.die d).ts.asbase = 0 ∧ (s.die d).fit.mode = 0 ∧ (s.die d).fit.drop = 0 ∧ (s.die d).fit.inv = 0)

/-! ### Traps -/

/-- R197, R376: when a check of an instruction fails, the instruction has no effect and its wave traps with the cause, the address of
the instruction and the information of that check. R210, R212, R327, R330: what traps PRIVILEGED when its class allows it: the
trust core's instructions on any other core, ERET and the handler-level registers outside handler level, TLBINV and the privileged
registers outside handler level in world 0. -/
def Obligations.ChecksTrap : Prop :=
  (∀ (s : State) (u : Nat) (w : Wave) (i : Instr) (code : Nat) (i0 i1 : DWord), s.cur = some u → s.wave u = some w →
    issueGate s u w false = none → (encode i).isSome = true → (∀ h, i ≠ .clauseHeader h) → issueCheck s w i = some (code, i0, i1) →
    exec i s = .next (s.takeTrap u { code := code, tpc := w.pc, info0 := i0, info1 := i1, after := false, queued := false })) ∧
  (∀ (s : State) (w : Wave) (f : EF), fld w.clause.word.toNat 51 48 = 3 →
    let traps := fun (i : Instr) => issueCheck s w i = some (trapPrivileged, (encode i).getD 0, 0)
    (isTrustCore w.core = false → traps (.hashb f) ∧ traps (.signq f) ∧ traps (.measxExtend f) ∧ traps (.measxRead f)) ∧
    (w.tr.handler = false → w.clause.left = 1 → traps (.eret f)) ∧
    (w.tr.handler = false → ∀ n, n ∈ [23, 24, 25, 26] → f.ctl.toNat % 256 = n → traps (.sets f)) ∧
    (w.tr.handler = false ∨ s.waveWorld w ≠ 0 → traps (.tlbinv f) ∧ ∀ n, n ∈ [9, 10, 22, 27] → f.ctl.toNat % 256 = n → traps (.sets f)))

/-- R378, R380: a trap taken by a wave below handler level with a handler and nothing pending. TPC, TCAUSE, TINFO0 and TINFO1 are
written, EXEC is saved, and the wave continues at the header at TBA, at handler level; registers, FPSTAT and timelines stand, and
an open commit group is doomed. With late results pending the wave waits for them first. With no handler, or at handler level, the
wave halts and its task is cancelled with status 4. R243, R378: TRAP completes and raises SOFTWARE_TRAP: TPC is the next word,
TCAUSE says that the trap came after the instruction, TINFO0 holds the offset field and TINFO1 S[a]. -/
def Obligations.TrapEntry : Prop :=
  (∀ (s : State) (u : Nat) (w : Wave) (p : PendTrap), s.wave u = some w →
    (w.late = [] → w.tr.handler = false → w.tr.tba ≠ 0 → ∃ w', (s.takeTrap u p).wave u = some w' ∧ OnlyWave s (s.takeTrap u p) u w.core ∧
      w'.pc = w.tr.tba ∧ w'.clause.inside = false ∧ w'.tr.handler = true ∧ w'.wait = .ready ∧ w'.tr.tpc = p.tpc ∧
      w'.tr.tinfo0 = p.info0 ∧ w'.tr.tinfo1 = p.info1 ∧ w'.tr.tba = w.tr.tba ∧ w'.tr.dbgctl = w.tr.dbgctl ∧
      (p.code < 256 → w'.tr.tcause.toNat % 256 = p.code ∧ w'.tr.tcause.getLsbD 8 = p.after) ∧
      (∀ j, j < w.k → mapGet 0 w'.tr.savedExec j = w.execWord j) ∧ w'.regs = w.regs ∧ w'.sp = w.sp ∧ w'.tls = w.tls ∧
      ∀ g, w'.group = some g → g.doom ≠ 0) ∧
    (w.late ≠ [] → ∃ w', (s.takeTrap u p).wave u = some w' ∧ w'.wait = .trapDrain ∧ w'.pend = some p ∧ w'.regs = w.regs ∧
      w'.late = w.late ∧ w'.pc = w.pc) ∧
    (w.late = [] → w.tr.handler = true ∨ w.tr.tba = 0 → ∀ c, s.cohort w.cohort = some c →
      s.takeTrap u p = (s.setWave u { w with wait := .halted, pend := none }).cancelTask c.task 4)) ∧
  (∀ (s : State) (u : Nat) (w : Wave) (f : CF), Issues s u w (.trap f) → w.late = [] → w.tr.handler = false → w.tr.tba ≠ 0 →
    ∃ w', Completes s u w (.trap f) w' ∧ w'.pc = w.tr.tba ∧ w'.tr.handler = true ∧ w'.tr.tpc = w.pc + 8 ∧
      w'.tr.tcause.toNat % 512 = 21 + 256 ∧ w'.tr.tinfo0 = f.off.zeroExtend 64 ∧ w'.tr.tinfo1 = (w.src f.a).zeroExtend 64 ∧
      (∀ j, j < w.k → mapGet 0 w'.tr.savedExec j = w.execWord j) ∧ w'.regs = w.regs ∧ w'.sp = w.sp)

/-- R16, R166, R194, R239, R386: a wave that reaches a header without a defect opens its clause and holds the core: the first of COUNT + 1
instructions follows, and as many of them as can be read are fetched now (log 77); with RGN the header is the restart point. A header with a class above 3 (or of class M on the trust core), or a nonzero reserved field, traps. -/
def Obligations.ClauseHeaders : Prop :=
  ∀ (s : State) (u : Nat) (w : Wave) (h : HF), s.cur = some u → s.wave u = some w → issueGate s u w true = none →
    let word := (encode (.clauseHeader h)).getD 0
    let trap := fun (code : Nat) (i1 : DWord) => exec (.clauseHeader h) s = .next (s.takeTrap u
      { code := code, tpc := w.pc, info0 := word, info1 := i1, after := false, queued := false })
    (h.cls.toNat ≤ 3 → h.z = 0 → ¬(h.cls = 1 ∧ isTrustCore w.core = true) → ∃ t w', exec (.clauseHeader h) s = .next t ∧
      t = { s with waves := t.waves, cores := t.cores } ∧ (∀ v, v ≠ u → t.wave v = s.wave v) ∧ t.wave u = some w' ∧ w'.pc = w.pc + 8 ∧
      w'.clause = { inside := true, header := w.pc, word := word, left := h.count.toNat + 1, words := (State.fetchAhead u w (h.count.toNat + 1) (w.pc + 8) s).1 } ∧
      (t.core w.core).holder = some u ∧ w'.regs = w.regs ∧ w'.sp = w.sp ∧
      (w'.restart, w'.restartClause) = if h.rgn = 1 then (w.pc, Clause.boundary) else (w.restart, w.restartClause)) ∧
    (3 < h.cls.toNat ∨ h.cls = 1 ∧ isTrustCore w.core = true → trap trapIllegalClause word) ∧
    (h.cls.toNat ≤ 3 → h.z ≠ 0 → ¬(h.cls = 1 ∧ isTrustCore w.core = true) → trap trapIllegalOperand 32)

/-- R211, R212, R326: SETS writes the special registers that may be written: the value goes to the register's fields and to nothing
else. A write of FPMODE with bit 4 clears FPSTAT, a write of RNGSEED restarts every generator. GRIDSHAPE and GRIDPOS are the
package's. -/
def Obligations.SpecialRegisterWrites : Prop :=
  ∀ (s : State) (u : Nat) (w : Wave) (f : EF), Issues s u w (.sets f) →
    let v := w.src64 f.a
    let wr := fun (n : Nat) (w' : Wave) => f.ctl.toNat % 256 = n → Completes s u w (.sets f) w'
    let a := w.after w.regs w.sp
    (v.toNat % 8 ≤ 5 → v.getLsbD 3 = false → v.toNat < 32 →
      wr 13 { a with sp := { w.sp with fprm := v.toNat % 8, fpstat := if v.getLsbD 4 then 0 else w.sp.fpstat } }) ∧
    wr 14 { a with sp := { w.sp with rngSeed := v, gens := [] } } ∧
    (v.toNat % 64 = 0 → wr 18 { a with sp := { w.sp with apxtab := v &&& 0x1FFFFFFFFFFFFFF } }) ∧
    wr 20 { a with sp := { w.sp with remerr := 0 } } ∧ wr 21 { a with sp := { w.sp with remtrap := v &&& 1 } } ∧
    (v.toNat % 8 = 0 → wr 22 { a with tr := { a.tr with tba := v } }) ∧
    wr 23 { a with tr := { a.tr with tpc := v } } ∧ wr 24 { a with tr := { a.tr with tcause := v &&& 0x7FF } } ∧
    wr 25 { a with tr := { a.tr with tinfo0 := v } } ∧ wr 26 { a with tr := { a.tr with tinfo1 := v } } ∧
    (f.ctl.toNat % 256 = 27 → ∃ w', Completes s u w (.sets f) w' ∧ w'.regs = w.regs ∧ w'.sp = w.sp ∧
      w'.tr.dbgctl ||| w'.tr.dbgNext = v ∧ w'.tr.dbgctl &&& 7 = w.tr.dbgctl &&& v &&& 7) ∧
    let number := if w.prog.stage = 1 then w.prog.x else s.ids + 1
    (f.ctl.toNat % 256 = 10 → gridShapeOk v.toNat = true → s.gridQuiet number = true →
      (∀ d ∈ s.dies, d.2.triggers = []) → Ends s u w (.sets f) fun t w' => t.fabric.shape = v ∧ w.sameArch w' ∧ s.sameMem t) ∧
    (f.ctl.toNat % 256 = 9 → gridPosOk s.shape v.toNat = true → s.gridQuiet number = true →
      (∀ d ∈ s.dies, d.2.triggers = []) → Ends s u w (.sets f) fun t w' => t.fabric.pos.toNat = v.toNat % 2 ^ 50 ∧ w.sameArch w' ∧ s.sameMem t)

/-- R327, R381: ERET leaves handler level and resumes at TPC under the EXEC saved at entry, cut by LIVE: part-way through the clause
recorded at entry if TPC is what entry wrote, else at a clause header. -/
def Obligations.ReturnFromTrap : Prop :=
  ∀ (s : State) (u : Nat) (w : Wave) (f : EF), Issues s u w (.eret f) →
    (w.tr.tpc ≠ w.tr.tpcEntry → HeaderAt s w w.tr.tpc) →
    ∃ w', Completes s u w (.eret f) w' ∧ w'.pc = w.tr.tpc ∧ w'.tr.handler = false ∧
      w'.clause = (if w.tr.tpc = w.tr.tpcEntry then w.tr.clauseEntry else Clause.boundary) ∧
      (∀ j, j < w.k → w'.execWord j = mapGet 0 w.tr.savedExec j &&& w.liveWord j) ∧
      (∀ r, r < 88 → w'.s r = w.s r) ∧ (∀ r i, w'.v r i = w.v r i) ∧ w'.regs.live = w.regs.live ∧ w'.sp = w.sp ∧
      w'.tr.tba = w.tr.tba ∧ w'.tr.tcause = w.tr.tcause ∧ w'.tr.dbgctl = w.tr.dbgctl ||| w.tr.dbgNext

/-! ### Ordering, timelines and scoreboards -/

/-- R53, R138, R139, R140, R277: a FENCE whose predecessors have completed, or that has an empty class, goes on; its acquire half empties
the L1, and with W in its predecessor set at COHORT scope or wider every scratch store of the wave has been performed (that before it a
command of the wave may read what a store replaced is log 80). While earlier reads are outstanding it waits. No register and no byte of
memory changes. R278, R279, R281: BATCH
closes the open batch of an engine timeline and gives its number, TLREAD gives the timeline's value, and WAITT goes on once the
value has reached n, waits while it has not, and traps when no such batch was closed. -/
def Obligations.FencesAndTimelines : Prop :=
  (∀ (s : State) (u : Nat) (w : Wave) (f : EF), Issues s u w (.fence f) → w.group = none →
    let pred := f.ctl.toNat % 16
    let succ := f.ctl.toNat / 16 % 16
    let scope := f.ctl.toNat / 256 % 8
    (pred = 0 ∨ succ = 0 ∨ (bit pred 0 = true → w.late.any (·.reads) = false) ∧
        (bit pred 1 = true → 1 ≤ scope → s.drained w.core u = true ∧ s.marked u w.cohort = true) ∧ (bit pred 2 = true → s.remoteDone u = true) → Ends s u w (.fence f) fun t w' => w.sameArch w' ∧ s.sameMem t ∧
        (t.core w.core).l1 = (if bit succ 0 = true ∧ 1 ≤ scope then [] else (s.core w.core).l1) ∧
        (pred ≠ 0 → succ ≠ 0 → bit pred 1 = true → 1 ≤ scope → ∀ c, t.cohort w.cohort = some c → ∀ x ∈ c.unfenced, x.wave ≠ u)) ∧
    (pred ≠ 0 → succ ≠ 0 → bit pred 0 = true → w.late.any (·.reads) = true → ∃ t w', exec (.fence f) s = .next t ∧ t.wave u = some w' ∧
      w'.wait = .fence pred succ scope ∧ w'.pc = w.pc ∧ w.sameArch w' ∧ s.sameMem t)) ∧
  (∀ (s : State) (u : Nat) (w : Wave) (f : EF), w.group = none →
    let e := f.e.toNat
    let n := (w.src64 f.a).toNat
    (Issues s u w (.batch f) → ∃ w', Completes s u w (.batch f) w' ∧ w'.pc = w.pc + 8 ∧
      (w'.tl e).batches = (if e < w.tls.length then (w.tl e).batches + 1 else 0) ∧ (w'.tl e).open_ = (w.tl e).open_ ∧
      (∀ k, k ≠ e → w'.tl k = w.tl k) ∧ ((w.tl e).flags = [] → w'.sp = w.sp) ∧
      ScalarResult w w' f.d.toNat 2 fun j => (BitVec.ofNat 64 (w'.tl e).batches).extractLsb' (32 * j) 32) ∧
    (Issues s u w (.tlread f) → ∃ w', Completes s u w (.tlread f) w' ∧ w' = w.after w'.regs w.sp ∧
      ScalarResult w w' f.d.toNat 2 fun j => (BitVec.ofNat 64 (w.tl e).value).extractLsb' (32 * j) 32) ∧
    (Issues s u w (.waitt f) → n ≤ (w.tl e).value → (∀ x ∈ (w.tl e).errs, n < x.batch) → Ends s u w (.waitt f) fun t w' =>
      w.sameArch w' ∧ s.sameMem t ∧ (t.core w.core).l1 = [] ∧ ∀ x ∈ w'.epend, ¬(x.timeline = e ∧ x.batch ≤ n)) ∧
    (Issues s u w (.waitt f) → e = 2 → n ≤ (w.tl 2).value → ∀ x, (w.tl 2).errs = [x] → x.batch ≤ n → w.sp.remtrap.getLsbD 0 = false →
      fld w.sp.remerr.toNat 47 32 = 0 → Ends s u w (.waitt f) fun t w' => w'.regs = w.regs ∧ s.sameMem t ∧ (w'.tl 2).errs = [] ∧
        w'.sp.remerr = BitVec.ofNat 64 (x.cause % 16 + 16 * (x.window % 256) + 4096 * (x.node % 1024) + 2 ^ 32 * min 65535 x.count) ∧
        w'.sp.fpstat = w.sp.fpstat) ∧
    (Issues s u w (.waitt f) → n ≤ (w.tl e).batches → (w.tl e).value < n → ∃ t w', exec (.waitt f) s = .next t ∧ t.wave u = some w' ∧
      w'.wait = .timeline e n ∧ w'.pc = w.pc ∧ w.sameArch w' ∧ s.sameMem t) ∧
    (Issues s u w (.waitt f) → (w.tl e).batches < n → exec (.waitt f) s = .next ((s.setWave u w.readied).takeTrap u
      { code := trapIllegalOperand, tpc := w.pc, info0 := (encode (.waitt f)).getD 0, info1 := 48, after := false, queued := false })))

/-- R145, R147, R279, R284: what a wave does with a word of memory: WAITT and SBWAIT go on once the word satisfies them, with the
acquire half done, and wait while it does not; SBSET and SBCLR set and clear bits of it, and SBTAKE takes the lowest bit it finds, at
the home slice. Only those 8 bytes change. -/
def Obligations.MemoryWords : Prop :=
  ∀ (s : State) (u : Nat) (w : Wave) (f : EF) (pa : Nat), w.group = none → w.joinHolds = false → w.prog = Progress.none →
    (s.core w.core).sb = [] → s.still = true → s.poisoned pa 8 = false → w.late.any (·.reads) = false → s.remoteDone u = true → s.marked u w.cohort = true →
    let x := w.src64 f.a
    let m := BitVec.ofNat 64 (s.read pa 8)
    let any := f.ctl.toNat / 8 % 2 = 1
    let goes := fun (t : State) (w' : Wave) => w.sameArch w' ∧ s.sameMem t ∧ (t.core w.core).l1 = []
    let waits := fun (i : Instr) (wt : Wait) => ∃ t w', exec i s = .next t ∧ t.wave u = some w' ∧ w'.wait = wt ∧ w'.pc = w.pc ∧
      w.sameArch w' ∧ s.sameMem t
    let word := fun (t : State) (v : DWord) => ∀ a, t.byte a =
      if pa ≤ a ∧ a < pa + 8 then BitVec.ofNat 8 (v.toNat / 256 ^ (a - pa)) else s.byte a
    (Reaches s w (w.base f.b) 0 false 8 pa →
      (Issues s u w (.waittMemory f) → if x.toNat ≤ m.toNat then Ends s u w (.waittMemory f) goes
        else waits (.waittMemory f) (.memTimeline pa x.toNat)) ∧
      (Issues s u w (.sbwait f) → ¬(any ∧ x = 0) → if (if any then m &&& x ≠ 0 else m &&& x = x) then Ends s u w (.sbwait f) goes
        else waits (.sbwait f) (.scoreboard pa x.toNat (decide any)))) ∧
    (Reaches s w (w.base f.b) 2 false 8 pa →
      (Issues s u w (.sbset f) → Ends s u w (.sbset f) fun t w' => w.sameArch w' ∧ word t (m ||| x)) ∧
      (Issues s u w (.sbclr f) → Ends s u w (.sbclr f) fun t w' => w.sameArch w' ∧ word t (m &&& ~~~x)) ∧
      (Issues s u w (.sbtake f) → x ≠ 0 →
        (∀ j, j < 64 → (m &&& x).getLsbD j = true → (∀ k, k < j → (m &&& x).getLsbD k = false) → Ends s u w (.sbtake f) fun t w' =>
          w.onlyScalar w' f.d.toNat 1 (fun _ => BitVec.ofNat 32 j) ∧ word t (m &&& ~~~((1 : DWord) <<< j))) ∧
        (m &&& x = 0 → waits (.sbtake f) (.scoreboard pa x.toNat true))))

/-- R86, R88, R89, R90, R282: CGBEGIN opens a commit group, or dooms the open one; CGABORT dooms it; CGCOMMIT closes it, and its status
answers it before the next instruction. A group that is doomed, has a broken watch or stores where the firewall refuses performs no
store; else its stores are performed together and the status is 0. -/
def Obligations.CommitGroups : Prop :=
  ∀ (s : State) (u : Nat) (w : Wave) (f : EF),
    let closed := fun (t : State) (w' : Wave) (status : Nat) (mem : Nat → Byte) =>
      w.sameArch w' ∧ w.answerPends w' false f.d.toNat 1 [(0, status)] ∧ w'.group = none ∧ ∀ a, t.byte a = mem a
    (Issues s u w (.cgbegin f) → w.group = none →
      Completes s u w (.cgbegin f) { w.after w.regs w.sp with group := some { doom := 0, reads := [], writes := [], bytes := [], count := 0, since := 1, first := w.lateSeq } }) ∧
    (Issues s u w (.cgcommit f) → w.group = none → Ends s u w (.cgcommit f) fun t w' => closed t w' 6 s.byte) ∧
    ∀ g, w.group = some g →
      (Issues s u w (.cgbegin f) → ∃ w', Completes s u w (.cgbegin f) w' ∧ w.sameArch w' ∧
        w'.group.map (·.doom) = some (if g.doom = 0 then 6 else g.doom)) ∧
      (Issues s u w (.cgabort f) → ∃ w', Completes s u w (.cgabort f) w' ∧ w.sameArch w' ∧
        w'.group.map (·.doom) = some (if g.doom = 0 then 5 else g.doom)) ∧
      (Issues s u w (.cgcommit f) → g.doom ≠ 0 → Ends s u w (.cgcommit f) fun t w' => closed t w' g.doom s.byte) ∧
      (Issues s u w (.cgcommit f) → g.doom = 0 → g.reads.any (·.2) = true → Ends s u w (.cgcommit f) fun t w' => closed t w' 1 s.byte) ∧
      (Issues s u w (.cgcommit f) → g.doom = 0 → g.reads.any (·.2) = false → w.late.any (·.reads) = false → (s.core w.core).sb = [] →
        s.still = true →
        ((∀ b ∈ g.bytes, s.admits (s.waveWho w) b.1 = true) → g.bytes.Pairwise (fun a b => a.1 < b.1) →
          Ends s u w (.cgcommit f) fun t w' => closed t w' 0 fun a => (mapFind g.bytes a).getD (s.byte a)) ∧
        ((∃ b ∈ g.bytes, s.admits (s.waveWho w) b.1 = false) → Ends s u w (.cgcommit f) fun t w' => closed t w' 3 s.byte))

/-! ### The copy engines -/

/-- R171, R272, R273, R275, R278, R281: SEGCFG, TCOPY and TLREAD of a memory timeline join the open batch of the copy timeline and leave
a command for the engines; a deferred TLREAD leaves its pair pending. SPMARK leaves its range to be marked: in n clocks the first 32 n
lines of it become FULL or EMPTY, and no other line. No register and no byte of memory changes. -/
def Obligations.CopyCommands : Prop :=
  ∀ (s : State) (u : Nat) (w : Wave) (f : EF) (c : Cohort), w.group = none → w.joinHolds = false → s.cohort w.cohort = some c →
    let queued := fun (kind : Nat) (rec_ : List Byte) (args : List Nat) (t : State) (w' : Wave) =>
      w.sameArch w' ∧ s.sameMem t ∧ ∃ x, t.sched.copies = s.sched.copies ++ [x] ∧ x.kind = kind ∧ x.wave = some u ∧ x.cohort = w.cohort ∧
        x.batch = (w.tl 0).batches + 1 ∧ x.rec_ = rec_ ∧ x.args = args ∧ x.pc = w.pc ∧ x.done = [] ∧ x.parked = false ∧
        w'.tls = (w.updTl 0 fun y => { y with open_ := y.open_ ++ [(x.id, y.batches + 1)] }).tls
    let a := (w.src f.a).toNat
    let n := (w.src f.b).toNat
    let role := f.ctl.toNat % 4
    let layout := if role = 3 then w.sgroup f.b.toNat 4 else 0
    (∀ pa, Issues s u w (.tcopy f) → (s.core w.core).sb = [] → s.snap.state ≠ 1 → s.unlocked = true → w.late.any (·.reads) = false →
      Reaches s w (w.base f.b) 0 false 64 pa →
      s.poisoned pa 64 = false → tcopyCheck (.tcopy f) c (s.read pa 64) = none → Ends s u w (.tcopy f) (queued 0 (s.bytes pa 64) [])) ∧
    (∀ core seg, Issues s u w (.segcfg f) → a % 131072 = 0 → c.wholeSegment a = some (core, seg) →
      (s.sched.copies.any fun x => x.kind == 1 && x.cohort == w.cohort && nth 0 x.args 0 == a) = false →
      (role = 3 ∧ c.fifoSegs.contains a = false ∧ layoutOk c (s.pendingFifos w.cohort) layout w.width = true ∨
        role ≠ 3 ∧ c.fifoSegs.contains a = true ∧ c.fifosEmpty a = true) →
      Ends s u w (.segcfg f) (queued 1 [] [a, role, layout, s.clock + 1024, w.width])) ∧
    (Issues s u w (.tlreadDeferred f) → w.base f.b % 8 = 0 → Ends s u w (.tlreadDeferred f) fun t w' =>
      queued 2 [] [w.skey f.d.toNat, w.base f.b] t w' ∧ w'.epend = w.epend ++ (List.range 2).map fun j =>
        { vec := false, reg := w.skey f.d.toNat + j, timeline := 0, batch := (w.tl 0).batches + 1 }) ∧
    (Issues s u w (.spmark f) → w.late.any (·.reads) = false → a % 128 = 0 → n % 128 = 0 → (n ≠ 0 → c.badRow a (n / 128) 128 = none) →
      (∀ m ∈ c.marking, m.wave ≠ u) → Ends s u w (.spmark f) fun t w' => w.sameArch w' ∧ s.sameMem t ∧
        t.cohort w.cohort = some { c with marking := c.marking ++ if n = 0 then [] else
          [{ wave := u, start := s.clock, line := a / 128, count := n / 128, done := 0, full := f.ctl == 1 }] }) ∧
    ∀ (k : Cohort) (m : Marking) (n : Nat), k.marking = [m] → m.done = 0 →
      (k.markLines m.start n).scratch = k.scratch ∧ ∀ l, l ∈ (k.markLines m.start n).empty ↔
        if m.line ≤ l ∧ l < m.line + min m.count (32 * n) then m.full = false else l ∈ k.empty

/-- R47, R59, R63, R144, R272, R274, R281: what the copy engines perform. An element of a tile copy is read at its source and written at
its destination (of a scratch byte that its wave has stored and nobody has seen, the old value may be read, log 80), and the command
completes with the last one. When a segment's new role serves its range reads zero, every line FULL. A
deferred timeline read puts the word into its pair. -/
def Obligations.CopyEngine : Prop :=
  ∀ (s : State) (cmd : Nat) (c : CopyCmd), s.copyCmd cmd = some c → (∀ u, c.wave = some u → (s.wave u).isSome = true) →
    let x := tileOf (leNat c.rec_)
    let moved := fun (t : State) (i : Nat) => if c.done.length + 1 = x.count then t.copyCmd cmd = none
      else (t.copyCmd cmd).map (·.done) = some (insNat i c.done)
    (∀ i k bs, c.kind = 0 → c.parked = false → i < x.count → i ∉ c.done → x.fill = false → s.cohort c.cohort = some k →
      (x.ssp = false → x.dsp = true → engineRead c.die c.asid c.world c.who 0 (x.e / 65536 + 2) s (x.srcAddr i) x.e = .ok bs s →
        s.snap.state ≠ 1 → s.unlocked = true → bs.length = x.e → k.scratchOk (x.dstAddr i) x.e = true →
        Happens s (.tileCopyPerform cmd [i]) fun t => s.sameMem t ∧ moved t i ∧ ∃ k', t.cohort c.cohort = some k' ∧
          ∀ a, mapGet 0 k'.scratch a = if x.dstAddr i ≤ a ∧ a < x.dstAddr i + x.e then nth 0 bs (a - x.dstAddr i) else mapGet 0 k.scratch a) ∧
      (∀ pa r, x.ssp = true → x.dsp = false → x.dstAddr i % 65536 + x.e ≤ 65536 →
        k.scratchOk (x.srcAddr i) x.e = true → (linesOf (x.srcAddr i) x.e).all (fun l => !k.empty.contains l && (mapFind k.failed l).isNone) = true →
        (k.engineRead c.wave c.id (x.srcAddr i) x.e).1.any (·.2) = false → engineXlate s c.die c.asid c.world c.who (x.dstAddr i) 1 = .ok pa r s → s.still = true →
        Happens s (.tileCopyPerform cmd [i]) fun t => moved t i ∧ ∀ a, t.byte a =
          if pa ≤ a ∧ a < pa + x.e then (nth (0, false) (k.engineRead c.wave c.id (x.srcAddr i) x.e).1 (a - pa)).1 else s.byte a) ∧
      ∀ b, (∀ y ∈ k.unfenced, c.wave = some y.wave → y.addr ≠ b) → (k.engineByte c.wave c.id b).1 = mapGet 0 k.scratch b) ∧
    (∀ k, c.kind = 1 → nth 0 c.args 3 ≤ s.clock → s.cohort c.cohort = some k →
      let a := nth 0 c.args 0
      Happens s (.segcfgComplete cmd) fun t => s.sameMem t ∧ t.copyCmd cmd = none ∧ ∃ k', t.cohort c.cohort = some k' ∧
        (∀ b, a ≤ b → b < a + 131072 → mapGet 0 k'.scratch b = 0) ∧ (∀ l, a / 128 ≤ l → l < a / 128 + 1024 → l ∉ k'.empty) ∧
        (a ∈ k'.fifoSegs ↔ nth 0 c.args 1 = 3) ∧
        k'.fifos.map (fun q => (q.num, q.depth, q.entries)) = k.fifos.map (fun q => (q.num, q.depth, q.entries)) ++
          if nth 0 c.args 1 = 3 then (fifoLayout (nth 0 c.args 2)).map fun p => (p.1, p.2 * 4096 / (nth 0 c.args 4 * 4), []) else []) ∧
    (∀ u w pa r, c.kind = 2 → c.wave = some u → s.wave u = some w →
      engineXlate s c.die c.asid c.world c.who (nth 0 c.args 1) 0 = .ok pa r s → s.poisoned pa 8 = false → s.snap.state ≠ 1 →
      s.unlocked = true → Happens s (.tlreadPerform cmd) fun t => s.sameMem t ∧ t.copyCmd cmd = none ∧ ∃ w', t.wave u = some w' ∧
        w'.regs = (w.setKeys (nth 0 c.args 0) 2 (s.read pa 8)).regs)

/-! ### The matrix engine -/

/-- R285, R287, R292, R294 to R300: the matrix instructions whose issue checks pass. OBRES makes its record at once; each other one
joins the open batch of the matrix timeline and its core's queue with the operands read at issue, and leaves the registers that the
engine will write pending. No register and no byte of memory changes. -/
def Obligations.MatrixIssue : Prop :=
  ∀ (s : State) (u : Nat) (w : Wave) (f : EF) (c : Cohort), w.group = none → w.joinHolds = false → s.cohort w.cohort = some c →
    let h := w.half c
    let m := c.mxOf h
    let queued := fun (x : MCmd) (regs : List Nat) (t : State) (w' : Wave) =>
      w.sameArch w' ∧ s.sameMem t ∧ ∃ id, (t.core w.core).queue = (s.core w.core).queue ++
          [{ x with id := id, wave := u, cohort := w.cohort, half := h, batch := (w.tl 1).batches + 1, k := w.k, lanes := w.liveLanes }] ∧
        w'.tls = (w.joinBatch 1 id).tls ∧
        w'.epend = w.epend ++ regs.map fun r => { vec := true, reg := r, timeline := 1, batch := (w.tl 1).batches + 1 }
    let stores := fun (t : State) (g : Matrix → Matrix) => ∃ c', t.cohort w.cohort = some c' ∧ c' = { c with mx := c.mx.modify h g }
    let ends := fun (i : Instr) (x : MCmd) (regs : List Nat) (g : Matrix → Matrix) =>
      Ends s u w i fun t w' => queued x regs t w' ∧ stores t g
    let n := f.ctl.toNat % 16
    let x := (w.src f.a).toNat
    let blocks := f.ctl.toNat / 16 % 256 + 1
    (let r := (w.src64 f.a).toNat
     Issues s u w (.obres f) → recordIllegal r = false → recBase r + recLen r ≤ c.obBytes → mapFind m.records n = none →
      (m.records.all fun y => recOwner y.2.bits == w.slot || !overlaps (recBase r) (recLen r) (recBase y.2.bits) (recLen y.2.bits)) = true →
      Ends s u w (.obres f) fun t w' => w.sameArch w' ∧ s.sameMem t ∧ stores t fun m => { m with
        records := mapInsert m.records n { bits := r + 1 + 2 ^ 56 * w.slot + 2 ^ 64 * c.world, releasing := false } }) ∧
    (∀ r, m.record n = some r →
      (Issues s u w (.obrel f) → recOwner r = w.slot → ends (.obrel f) { MCmd.blank with op := 0xA1, rec_ := n } [] fun m =>
        { m with records := mapInsert m.records n { bits := r, releasing := true } }) ∧
      (Issues s u w (.obwr f) → x % 4 = 0 → x + 4 * w.width * blocks ≤ recLen r → recOwner r = w.slot →
        ∃ vals, ends (.obwr f) { MCmd.blank with op := 0xA2, rec_ := n, x := x, n := 4 * w.width * blocks, vals := vals, recBits := r } [] id ∧
          ∀ j i, j < blocks → i < w.width → mapGet 0 vals (w.width * j + i) = if i ∈ w.liveLanes then w.v (f.d.toNat + j) i else 0) ∧
      (Issues s u w (.obrd f) → x % 4 = 0 → x + 4 * w.width * blocks ≤ recLen r →
        ends (.obrd f) { MCmd.blank with op := 0xA3, rec_ := n, x := x, n := 4 * w.width * blocks, reg := f.d.toNat, pitch := blocks, recBits := r }
          ((List.range blocks).map (f.d.toNat + ·)) id) ∧
      (let slot := f.ctl.toNat / 16 % 4
       (Issues s u w (.mlds f) → slot < c.planes → recFmt r ≤ 6 → 256 * x + blockStored (recFmt r) (recPlanes r) ≤ recEnd r →
        ends (.mlds f) { MCmd.blank with op := 0xA5, rec_ := n, slot := slot, x := 256 * x, recBits := r, plane := (m.slot slot).shadowNo } [] fun m =>
          m.updSlot slot fun y => { y with shadowAhead := aheadTag (recFmt r) (recBlk r) (recPlanes r) (recCenter r) }) ∧
       (let swap := f.ctl.toNat / 64 % 2 = 1
        let tag := if swap then (m.slot slot).shadowAhead else (m.slot slot).activeAhead
        let count := x / 65536 % 2048
        let row := (w.src f.b).toNat % 1024
        Issues s u w (.mma f) → x / 2048 % 32 = 0 → x / 2 ^ 27 = 0 → 1 ≤ count → count ≤ 1024 → slot < c.planes → tag.fmt ≠ 9 →
          legalPair (recFmt r) (recPlanes r) tag.fmt = true → 256 * (x % 2048) + count * aRowBytes tag.fmt tag.planes ≤ recEnd r →
          (tag.fmt = 0 → row % 2 = 0) → row + count * (if tag.fmt = 0 then 2 else 1) ≤ c.accRows →
          ends (.mma f) { MCmd.blank with
            op := 0xA7, rec_ := n, slot := slot, row := row, n := count, x := 256 * (x % 2048), pitch := tag.planes, fmt := tag.fmt,
            f1 := decide swap, f2 := bit f.ctl.toNat 7, f3 := tag.fmt == 0, recBits := r,
            plane := if swap then (m.slot slot).shadowNo else (m.slot slot).activeNo } [] fun m =>
              if swap then m.updSlot slot Slot.swapAhead else m))) ∧
    (let slot := f.ctl.toNat % 4
     slot < c.planes →
      (Issues s u w (.mplane f) → ends (.mplane f)
        { MCmd.blank with op := 0xA4, slot := slot, fmt := f.ctl.toNat / 4 % 16, f1 := bit f.ctl.toNat 6, plane := (m.slot slot).shadowNo } [] fun m =>
          m.updSlot slot fun y => { y with shadowAhead := aheadTag (f.ctl.toNat / 4 % 16) 0 0 false }) ∧
      (Issues s u w (.mswap f) → ends (.mswap f) { MCmd.blank with op := 0xA6, slot := slot } [] fun m => m.updSlot slot Slot.swapAhead)) ∧
    ∀ row k, rowAndCount (w.src f.a) = some (row, k) →
      (Issues s u w (.macz f) → row + k ≤ c.accRows → ends (.macz f) { MCmd.blank with op := 0xA8, row := row, n := k } [] id) ∧
      (let e := shiftBytes n
       let dest := f.ctl.toNat / 256 % 4
       let f64 := bit f.ctl.toNat 10
       let at_ := (w.src f.b).toNat
       let pitch := (w.src f.c).toNat
       let x := { MCmd.blank with
         row := row, n := k, x := at_, pitch := if dest = 0 then shiftBlock w f else pitch, fmt := n, rm := w.mode (f.ctl.toNat / 16 % 8),
         dest := dest, f2 := f64, reg := if dest = 0 then f.d.toNat else 0 }
       (f64 = true → row % 2 = 0) → row + k * (if f64 then 2 else 1) ≤ c.accRows →
       ∀ y : MCmd, (dest = 0 ∧ y = x ∨
        dest = 1 ∧ at_ % e = 0 ∧ (∃ r, m.record f.d.toNat = some r ∧ at_ + 32 * k * e ≤ recLen r ∧ y = { x with rec_ := f.d.toNat, recBits := r }) ∨
        dest = 2 ∧ at_ % e = 0 ∧ pitch % e = 0 ∧ 32 * e ≤ pitch ∧ (∀ j, j < k → c.badRow (at_ + j * pitch) 32 e = none) ∧ y = x) →
        (Issues s u w (.mshout f) → ends (.mshout f) { y with
            op := 0xA9, scale := f.ctl.toNat / 2 ^ 11 % 256, f1 := bit f.ctl.toNat 7, f3 := bit f.ctl.toNat 19 }
          (if dest = 0 then (List.range (shiftBlock w f)).map (f.d.toNat + ·) else []) id) ∧
        (Issues s u w (.mshin f) → ∃ vals, ends (.mshin f) { y with op := 0xAA, f1 := bit f.ctl.toNat 11, vals := vals } [] id ∧
          (dest = 0 → shiftBlock w f ≤ 256 → ∀ j i, j < shiftBlock w f → mapGet 0 vals (vkey j i) = if i ∈ w.liveLanes then w.v (f.d.toNat + j) i else 0)))

/-- R69, R295 to R300: what the matrix engine does for a command that no earlier one of its queue holds back: OBREL frees the record,
OBWR and OBRD move words between registers and the operand buffer, MPLANE, MLDS and MSWAP give a slot its planes, MACZ clears a row,
a row step of an MMA puts the exact sum of the row's products and the accumulator, rounded once, into each column, and MSHOUT and
MSHIN convert a row on its way out and in (the values are stated for the modes other than SR). Memory is not touched. -/
def Obligations.MatrixEngine : Prop :=
  ∀ (s : State) (core cmd : Nat) (c : MCmd) (k : Cohort) (w : Wave), s.cohort c.cohort = some k → s.wave c.wave = some w →
    let m := k.mxOf c.half
    let base := recBase c.recBits + c.x
    let stores := fun (t : State) (P : Matrix → Prop) => ∃ k' m', t.cohort c.cohort = some k' ∧ P m' ∧
      k' = { k with scratch := k'.scratch, spoiled := k'.spoiled, unfenced := k'.unfenced, mx := k.mx.modify c.half fun _ => m' }
    let once := fun (i : Instr) (P : Matrix → Prop) => Happens s i fun t => s.sameMem t ∧ t.mcmd core cmd = none ∧ stores t P
    let row := fun (i : Instr) (P : State → Prop) => Happens s i fun t => s.sameMem t ∧
      (t.mcmd core cmd).map (·.step) = (if c.n ≤ c.step + 1 then none else some (c.step + 1)) ∧ P t
    let rows := fun (f64 : Bool) (r : Nat) (m' : Matrix) (v : Nat → Nat) =>
      (∀ col, col < 32 → m'.accOf f64 r col = v col % 2 ^ (if f64 then 64 else 32)) ∧
      ∀ r' col, col < 32 → r' ≠ r → ¬(f64 = true ∧ r' = r + 1) → m'.accWord r' col = m.accWord r' col
    let r2 := c.row + c.step * (if c.f2 then 2 else 1)
    let e := shiftBytes c.fmt
    let out := fun (col : Nat) => (shiftOut c 0 (m.accOf c.f2 r2 col)).1
    (s.readyCmd core cmd 0xA1 = some c → once (.obrelRelease core cmd) fun m' => mapFind m'.records c.rec_ = none) ∧
    (s.readyCmd core cmd 0xA2 = some c → once (.obwrWrite core cmd) fun m' => ∀ a, mapGet 0 m'.ob a =
      if base ≤ a ∧ a < base + 4 * (c.n / 4) then BitVec.ofNat 8 ((mapGet 0 c.vals ((a - base) / 4)).toNat / 256 ^ ((a - base) % 4))
      else mapGet 0 m.ob a) ∧
    (s.readyCmd core cmd 0xA3 = some c → c.reg + c.pitch ≤ 256 → Happens s (.obrdRead core cmd) fun t => s.sameMem t ∧ t.mcmd core cmd = none ∧
      ∃ w', t.wave c.wave = some w' ∧ (∀ r, w'.s r = w.s r) ∧ ∀ r i, r < 256 → w'.v r i =
        if c.reg ≤ r ∧ r < c.reg + c.pitch ∧ i ∈ w.liveLanes then BitVec.ofNat 32 (m.obRead (base + 4 * w.width * (r - c.reg) + 4 * i) 4)
        else w.v r i) ∧
    (s.readyCmd core cmd 0xA4 = some c → c.plane < 2 → once (.mplaneWrite core cmd) fun m' =>
      let p := (m'.slot c.slot).plane c.plane
      p.tag.fmt = c.fmt ∧ (∀ q, q < 2 → q ≠ c.plane → (m'.slot c.slot).plane q = (m.slot c.slot).plane q) ∧
      (∀ a, mapGet 0 p.bytes a = if c.f1 = true ∧ a < 8192 ∧ a / 256 = a % 256 / elemBytes c.fmt % 32
        then BitVec.ofNat 8 (oneCode c.fmt / 256 ^ (a % elemBytes c.fmt)) else 0) ∧
      ∀ y, (c.fmt = 4 ∨ c.fmt = 5) → y ∈ p.tag.scales → y = 0x7F) ∧
    (s.readyCmd core cmd 0xA5 = some c → c.plane < 2 → once (.mldsLoad core cmd) fun m' =>
      let p := (m'.slot c.slot).plane c.plane
      let from_ := planeSources (recFmt c.recBits) (recBlk c.recBits) (recPlanes c.recBits)
      p.tag.fmt = recFmt c.recBits ∧ (∀ q, q < 2 → q ≠ c.plane → (m'.slot c.slot).plane q = (m.slot c.slot).plane q) ∧
      (recFmt c.recBits ≠ 6 → from_ = List.range 8192) ∧
      ∀ a, mapGet 0 p.bytes a = match from_[a]? with
        | some x => mapGet 0 m.ob (base + x)
        | none => 0) ∧
    (s.readyCmd core cmd 0xA6 = some c → once (.mswapExchange core cmd) fun m' =>
      (m'.slot c.slot).active = (m.slot c.slot).shadow ∧ (m'.slot c.slot).shadow = (m.slot c.slot).active) ∧
    (s.readyCmd core cmd 0xA7 = some c → row (.mmaRowStep core cmd) fun t => stores t fun m' =>
      let m0 := if c.f1 = true ∧ c.step = 0 then m.updSlot c.slot Slot.swap else m
      let p := (m0.slot c.slot).plane c.plane
      let f := if c.f3 then fpF64 else fpF32
      let r := c.row + c.step * (if c.f3 then 2 else 1)
      rows c.f3 r m' fun col => (exactSum f 0 0 (fpDecode f (if c.f2 then 0 else m.accOf c.f3 r col))
        ((List.range (planeK p.tag.fmt p.tag.planes)).map fun kk =>
          (aElem m c.recBits (c.x + c.step * aRowBytes p.tag.fmt p.tag.planes) kk, bElem p kk col)) false).1) ∧
    (s.readyCmd core cmd 0xA8 = some c → row (.maczClear core cmd) fun t => stores t fun m' => rows false (c.row + c.step) m' fun _ => 0) ∧
    (s.readyCmd core cmd 0xA9 = some c → c.lostRow k = none → row (.mshoutRow core cmd) fun _ => True) ∧
    (s.readyCmd core cmd 0xA9 = some c → c.lostRow k = none → c.rm ≠ 5 →
      (let n := if c.fmt = 0 then 2 else 1
       c.dest = 0 → c.reg + n * (c.step / w.k) + n ≤ 256 → row (.mshoutRow core cmd) fun t => ∃ w', t.wave c.wave = some w' ∧
        ∀ col h, col < 32 → h < n → w.liveBit (32 * (c.step % w.k) + col) = true →
          w'.v (c.reg + n * (c.step / w.k) + h) (32 * (c.step % w.k) + col) = BitVec.ofNat 32 (out col / 2 ^ (32 * h))) ∧
      (c.dest = 1 → row (.mshoutRow core cmd) fun t => stores t fun m' => ∀ a, mapGet 0 m'.ob a =
        if base + 32 * c.step * e ≤ a ∧ a < base + 32 * (c.step + 1) * e
        then BitVec.ofNat 8 (out ((a - base) / e % 32) / 256 ^ ((a - base) % e)) else mapGet 0 m.ob a) ∧
      (c.dest = 2 → row (.mshoutRow core cmd) fun t => ∃ k', t.cohort c.cohort = some k' ∧ ∀ a,
        let from_ := c.x + c.step * c.pitch
        mapGet 0 k'.scratch a = if from_ ≤ a ∧ a < from_ + 32 * e
          then BitVec.ofNat 8 (out ((a - from_) / e) / 256 ^ ((a - from_) % e)) else mapGet 0 k.scratch a)) ∧
    (s.readyCmd core cmd 0xAA = some c → c.lostRow k = none →
      (c.dest = 2 → ∀ l ∈ linesOf (c.x + c.step * c.pitch) (32 * e), l ∉ k.empty ∧ mapFind k.failed l = none) →
      row (.mshinRow core cmd) fun t => c.rm ≠ 5 → stores t fun m' => rows c.f2 r2 m' fun col =>
        (shiftAcc c 0 (m.accOf c.f2 r2 col) (shiftIn k (c.scratchRow k).1 c c.step col).1).1)

/-! ### Remote memory -/

/-- R119, R304 to R314: a remote instruction that passes the checks of R305 starts an operation, which joins the open batch of the
remote timeline and expects an acknowledgement for every delivery, and hands its transactions to the router: RSTORE the packed block
of its active lanes in pieces of 4,096 bytes, RSIG a landing alone, RRED one contribution (without data when only its own window
refused it). RLOAD, and RATOM with one target, leave a late result; RATOM with several gives zeros. RXFER leaves the copy engine a
command. Memory is not touched. -/
def Obligations.RemoteIssue : Prop :=
  ∀ (s : State) (u : Nat) (w : Wave) (f : EF), w.group = none → w.joinHolds = false →
    let p := w.sgroup f.a.toNat 4
    let g := w.sgroup f.b.toNat 4
    let card := s.effCard p
    let size := f.ctl.toNat % 8
    let e := sizeBytes size
    let n := w.activeLanes.length
    let fn := f.ctl.toNat / 16 % 16
    let check := fun (i : Instr) (o : OpSpec) => checkOp s ((encode i).getD 0) (s.waveWorld w) p g o
    let starts := fun (t : State) (w' : Wave) (id kind expected : Nat) =>
      w.sp = w'.sp ∧ s.sameMem t ∧ t.fabric.ops.map (·.id) = s.fabric.ops.map (·.id) ++ [id] ∧ w'.tls = (w.joinBatch 2 id).tls ∧
      t.fabric.ops.getLast?.map (fun o => (o.wave, o.kind, o.expected, o.gathered, o.errs, o.window, o.world)) =
        some (some u, kind, expected, 0, 0, ogWindow g, s.waveWorld w)
    let sends := fun (t : State) (xs : List (Nat × Nat × Nat × List Byte)) =>
      t.fabric.inbox.map (fun x => (x.port, x.tx.op.toNat, x.tx.offset.toNat, x.tx.payload)) =
        s.fabric.inbox.map (fun x => (x.port, x.tx.op.toNat, x.tx.offset.toNat, x.tx.payload)) ++ xs
    let late := fun (w' : Wave) (id nregs window : Nat) => ∃ l ∈ w'.late, l.seq = w.lateSeq + 1 ∧ l.kind = .remote id ∧ l.vec = true ∧
      l.reg = f.c.toNat ∧ l.nregs = nregs ∧ l.window = window ∧ l.vals = [] ∧ l.lanes.map (·.lane) = w.activeLanes
    (let bs := w.packed f.c.toNat (sizeRegs (BitVec.ofNat 4 size)) e
     let blocks := (bs.length + 4095) / 4096
     Issues s u w (.rstore f) → check (.rstore f) { op := 1, e := e, len := n * e, tooLong := false } = .ok → card * blocks ≠ 0 →
      Ends s u w (.rstore f) fun t w' => w'.regs = w.regs ∧
        (∃ id, starts t w' id 1 (card * blocks + if ogLand g ≠ 0 ∧ 1 < blocks then card else 0)) ∧
        sends t ((List.range blocks).map fun k => (0, 1, (ogOffset g + 4096 * k) % 2 ^ 36, (bs.drop (4096 * k)).take 4096))) ∧
    (Issues s u w (.rload f) → check (.rload f) { op := 2, e := e, len := n * e, tooLong := decide (4096 < n * e) } = .ok → n ≠ 0 →
      Ends s u w (.rload f) fun t w' => w'.regs = w.regs ∧
        (∃ id, starts t w' id 2 1 ∧ late w' id (sizeRegs (BitVec.ofNat 4 size)) f.e.toNat) ∧ sends t [(0, 2, ogOffset g, [])]) ∧
    (let bytes := if fn = 9 then 2 * e else e
     let bs := w.packed f.c.toNat (atomRegs size fn) bytes
     Issues s u w (.ratom f) → check (.ratom f) { op := 3, e := e, len := n * e, tooLong := decide (4096 < n * bytes) } = .ok → bs ≠ [] →
      (card = 1 → Ends s u w (.ratom f) fun t w' => w'.regs = w.regs ∧ (∃ id, starts t w' id 3 1 ∧ late w' id (oldRegs size) 0) ∧
        sends t [(0, 3, ogOffset g, bs)]) ∧
      (1 < card → Ends s u w (.ratom f) fun t w' => VectorResult w w' f.c.toNat (oldRegs size) (fun _ => 0) ∧
        (∃ id, starts t w' id 3 card) ∧ sends t [(0, 3, ogOffset g, bs)])) ∧
    (Issues s u w (.rsig f) → check (.rsig f) { op := 5, e := 1, len := 0, tooLong := false } = .ok → card ≠ 0 →
      Ends s u w (.rsig f) fun t w' => w'.regs = w.regs ∧ (∃ id, starts t w' id 5 card) ∧ sends t [(0, 5, 0, [])]) ∧
    (let rop := f.ctl.toNat % 16
     let eb := redBytes fn
     let word := redWord rop fn (ogTag g)
     let lanes := (List.range w.width).flatMap fun i => natLe eb (if w.active i then w.vs f.c.toNat (eb / 4) i else 0)
     let got := check (.rred f) { op := 4, e := eb, len := w.width * eb, tooLong := decide (2048 < w.width * eb) }
     Issues s u w (.rred f) →
      (got = .ok → Ends s u w (.rred f) fun t w' => w'.regs = w.regs ∧ (∃ id, starts t w' id 4 1) ∧
        sends t [(0, 4, ogOffset g, word ++ (w.presence ++ lanes))]) ∧
      (∀ cause, cause ≠ 0 → got = .void cause → Ends s u w (.rred f) fun t w' => w'.regs = w.regs ∧ (∃ id, starts t w' id 4 1) ∧
        sends t [(0, 4, ogOffset g, word)])) ∧
    ∀ pa, Issues s u w (.rxfer f) → (s.core w.core).sb = [] → s.snap.state ≠ 1 → s.unlocked = true → w.late.any (·.reads) = false →
      Reaches s w (w.base f.b) 0 false 128 pa →
      s.poisoned pa 128 = false → rxferCheck s (.rxfer f) (s.waveWorld w) (s.cohort w.cohort) (s.read pa 128) = none →
      Ends s u w (.rxfer f) fun t w' => w'.regs = w.regs ∧ s.sameMem t ∧
        (rxForeign (s.read pa 128) = true → rxPlan (s.withGrid s.grid) (s.read pa 128) ≠ [] → ∃ x, t.sched.copies = s.sched.copies ++ [x] ∧ x.kind = 3 ∧ x.wave = some u ∧
          x.rec_ = s.bytes pa 128 ∧ x.done = [] ∧ x.parked = false) ∧
        (t.sched.copies = s.sched.copies ∨ ∃ x, t.sched.copies = s.sched.copies ++ [x] ∧ x.kind = 3 ∧ x.rec_ = s.bytes pa 128)

/-- R118, R119, R314, R318, R421: the remote engine gathers acknowledgements until an operation has its count and then completes it, gives up
after FBTXTO, sends a refused contribution again after its backoff, and sends the rows of a collective transfer as they are read. A
transfer to a foreign peer goes out on Ethernet, to the queue pair, with the key and to the address of the peer's table entry, and its
landing when the peer has acknowledged the writes; a refusal of the peer completes the count as an error. -/
def Obligations.RemoteEngine : Prop :=
  ∀ (s : State) (op : Nat) (o : RemoteOp), s.remoteOp op = some o →
    let write := fun (peer world window dst : Nat) (add : Bool) (data : List Byte) =>
      let e := s.read (s.power.ethpeer.toNat / 2 ^ 13 % 2 ^ 39 * 8192 + 32 * peer) 32
      ({ peer := peer, ports := e / 2 % 2 ^ 8, qp := (e / 2 ^ 16 % 2 ^ 24 + s.targetOf op) % 2 ^ 24,
         rkey := e / 2 ^ 40 % 2 ^ 16 * 2 ^ 16 + world * 2 ^ 8 + window, addr := (e / 2 ^ 64 % 2 ^ 128 + s.targetOf op) % 2 ^ 128,
         dst := dst, add := add, data := data } : Roce)
    let gathers := fun (i : Instr) (count errs : Nat) =>
      (o.gathered + count < o.expected → Happens s i fun t => s.sameMem t ∧
        (t.remoteOp op).map (fun x => (x.gathered, x.errs)) = some (o.gathered + count, o.errs + errs)) ∧
      (o.expected ≤ o.gathered + count → ∀ u w, o.wave = some u → s.wave u = some w → Happens s i fun t => s.sameMem t ∧
        t.remoteOp op = none ∧ ∃ w', t.wave u = some w' ∧ w'.regs = w.regs ∧
          (w'.tl 2).open_ = (w.tl 2).open_.filter fun x => x.1 != op)
    (∀ ack k, (Upstream.op op k, ack) ∈ s.fabric.acksOut → o.landing = none → o.void = 0 → ack.count ≠ 0 →
      gathers (.remoteAck op ack) ack.count ack.errs) ∧
    (∀ cause, o.foreign = true → o.landing = none → o.void = 0 →
      (s.sched.copies.any fun c => c.kind == 3 && nth 0 c.args 0 == op) = false →
      gathers (.roceAck (.op op) cause) 1 (if cause = 0 then 0 else 1)) ∧
    (∀ l, o.foreign = true → o.landing = some l → (s.sched.copies.any fun c => c.kind == 3 && nth 0 c.args 0 == op) = false →
      s.peerValid o.peer = true → Happens s (.roceAck (.op op) 0) fun t => s.sameMem t ∧
        t.power.foreign = s.power.foreign ++ [write o.peer o.world o.window (8 * l.tx.loff.toNat) true (natLe 8 1)] ∧
        (t.remoteOp op).map (fun x => (x.gathered, x.landing)) = some (o.gathered, none)) ∧
    (o.issued + s.txTimeout ≤ s.clock → (∀ u, o.wave = some u → (s.wave u).isSome = true) → Happens s (.remoteTxTimeout op) fun t =>
      s.sameMem t ∧ t.remoteOp op = none ∧ t.fabric.timeout = (s.fabric.timeout + (o.expected - o.gathered)) % 2 ^ 32) ∧
    (s.clock < o.issued + s.txTimeout → exec (.remoteTxTimeout op) s = .next s) ∧
    (∀ r, s.fabric.refused.find? (fun x => x.id == r.id) = some r → r.until_ ≤ s.clock → r.anchor = true → ∀ k, r.up = .op op k →
      Happens s (.reductionNackResend r.id) fun t => s.sameMem t ∧ (∀ x ∈ t.fabric.refused, x.id ≠ r.id) ∧
        t.fabric.inbox = s.fabric.inbox ++ [{ tx := r.tx, port := 0, up := r.up, grid := r.grid }]) ∧
    ∀ cmd c, s.copyCmd cmd = some c → c.kind = 3 → c.parked = false → c.args = [op] →
      let n := leNat c.rec_
      let word := natLe 8 (rxRop n - 1 + 2 ^ 4 * rxFmt n + 2 ^ 16 * (n / 2 ^ 688 % 2 ^ 16))
      (rxForeign n = true → s.peerValid (n / 2 ^ 704 % 2 ^ 8) = false → Happens s (.rxferTransfer cmd) fun t => s.sameMem t ∧ t.copyCmd cmd = none) ∧
      ∀ x data, c.done = [] → (rxForeign n = true → s.peerValid (n / 2 ^ 704 % 2 ^ 8) = true) → rxPlan (s.withGrid o.grid) n = [x] →
        getRows s c (tileOf n).ssp x.rowBytes x.rows = .bytes data s →
        let payload := (if rxRop n = 0 then [] else word) ++
          (natLe 16 (x.rowBytes + 2 ^ 16 * x.rows.length + 2 ^ 64 * wrapTo 64 (nth 0 (tileOf n).dstep 1)) ++ data)
        Happens s (.rxferTransfer cmd) fun t => s.sameMem t ∧ t.copyCmd cmd = none ∧
          if rxForeign n then t.power.foreign = s.power.foreign ++ [write (n / 2 ^ 704 % 2 ^ 8) c.world (rxWindow n) x.off false payload]
          else ∃ y, t.fabric.inbox = s.fabric.inbox ++ [y] ∧ y.port = 0 ∧ y.tx.toAnchor = (rxRop n != 0) ∧
            y.tx.op = (if rxRop n = 0 then 6 else 7) ∧ y.tx.offset.toNat = x.off % 2 ^ 36 ∧ y.tx.payload = payload

/-- R111, R113, R123, R124, R126: the router splits a copy into branches under one combine entry, or drops a bad operation code and
counts it; a target performs a checked transaction, data first and then its landing, or refuses it with none of its effect; a combine
entry answers upstream when its last branch has answered or FBTXTO has passed, and a refused copy goes out again. -/
def Obligations.FabricTransactions : Prop :=
  ∀ (s : State),
    (∀ i x n, s.fabric.inbox[i]? = some x → s.freeCombine = some n →
      let e := (s.asIssued x).expand x.tx x.port
      e.branches ≠ [] → Happens s (.routerExpand (.here i)) fun t => s.sameMem t ∧ t.fabric.inbox = dropAt s.fabric.inbox i ∧
        ∃ c, t.fabric.combines = s.fabric.combines ++ [c] ∧ c.id = n ∧ c.up = x.up ∧ c.ack = e.ack ∧
          c.branches.map (fun b => (b.num, b.port, b.count, b.node)) = e.branches.map (fun b => (b.num, b.port, b.count, b.node)) ∧
          t.fabric.deliveries.length = s.fabric.deliveries.length + c.branches.countP (fun b => b.port == 0) ∧
          t.fabric.outbox.length = s.fabric.outbox.length + c.branches.countP (fun b => b.port != 0)) ∧
    (∀ p tx, p < 16 → (mapGet Port.reset s.fabric.ports p).up = true → (tx.op = 0 ∨ 7 < tx.op.toNat) →
      Happens s (.routerExpand (.port p tx)) fun t => s.sameMem t ∧
        t.fabric.badhdr = (if tx.op = 8 then s.fabric.badhdr else (s.fabric.badhdr + 1) % 2 ^ 32) ∧
        t.fabric.combines = s.fabric.combines ∧ t.fabric.outbox = s.fabric.outbox) ∧
    (∀ d, s.fabric.deliveries.find? (fun x => x.id == d.id) = some d → s.fabric.en = true →
      let tx := d.tx
      let win := s.window tx.window.toNat
      let done := fun (P : State → Prop) => Happens s (.targetPerform d.id) fun t =>
        (t.fabric.deliveries = s.fabric.deliveries.filter fun x => x.id != d.id) ∧ P t
      (∀ cause, tx.op ≠ 4 → tx.op ≠ 7 → winRefuses win tx.world.toNat tx.op.toNat
          (txRanges tx ++ landRanges tx.land.toNat tx.loff.toNat false) = some cause → done fun t => s.sameMem t) ∧
      (winRefuses win tx.world.toNat tx.op.toNat (txRanges tx ++ landRanges tx.land.toNat tx.loff.toNat false) = none → s.still = true →
        (∀ pa, tx.op = 1 → tx.land = 0 → reachAll s win 1 (txRanges tx) = .ok [(pa, tx.payload.length)] s →
          done fun t => ∀ a, t.byte a = if pa ≤ a ∧ a < pa + tx.payload.length then nth 0 tx.payload (a - pa) else s.byte a) ∧
        (∀ pa, tx.op = 5 → tx.land = 1 → reachAll s win 2 (landRanges 1 tx.loff.toNat false) = .ok [(pa, 8)] s →
          done fun t => t.read pa 8 = (s.read pa 8 + 1) % 2 ^ 64 ∧ ∀ a, ¬(pa ≤ a ∧ a < pa + 8) → t.byte a = s.byte a) ∧
        (∀ data land, (tx.op = 1 ∨ tx.op = 5 ∨ tx.op = 6) → reachAll s win 1 (txRanges tx) = .ok data s →
          reachAll s win 2 (landRanges tx.land.toNat tx.loff.toNat false) = .ok land s → done fun t => ∀ a, t.byte a =
            (land.foldl (fun s p => s.land tx.land.toNat tx.lbit.toNat p.1)
              (s.writePieces (if tx.op = 6 then tx.payload.drop 16 else tx.payload) data)).byte a) ∧
        (let size := sizeBytes tx.asize.toNat
         ∀ pa r, tx.op = 3 → tx.land = 0 → tx.payload.length = (if tx.aop = 9 then 2 * size else size) →
          engineXlate s 0 (winAsid win) (winWorld win) (.world (winWorld win)) (winVa win tx.offset.toNat) 2 = .ok pa r s →
          winVa win tx.offset.toNat % 65536 + size ≤ 65536 → s.poisoned pa size = false →
          done fun t => ∀ a, t.byte a = ((s.atomicAt pa tx.aop.toNat size (leNat tx.payload) none).1).byte a) ∧
        (∀ l, tx.op = 2 → tx.land = 0 → reachAll s win 0 (txRanges tx) = .ok l s → done fun t => s.sameMem t))) ∧
    (∀ c b ack, s.fabric.combines.find? (fun x => x.id == c.id) = some c → c.branches.find? (fun x => x.num == b.num) = some b →
      b.port ≠ 0 → ack.count ≠ 0 → Happens s (.combineAck c.id b.num ack) fun t => s.sameMem t ∧
        if c.branches.length = 1 then (∀ x ∈ t.fabric.combines, x.id ≠ c.id) ∧
          (∀ op k, c.up = .op op k → t.fabric.acksOut = s.fabric.acksOut ++ [(Upstream.op op k, addAck c.ack ack)]) ∧
          (∀ p q, c.up = .port p q → t.fabric.acksOut = s.fabric.acksOut ++ [(Upstream.port p q, addAck c.ack ack)])
        else t.fabric.acksOut = s.fabric.acksOut ∧ (t.fabric.combines.find? fun x => x.id == c.id) =
          some { c with branches := dropFirst (fun x => x.num == b.num) c.branches, ack := addAck c.ack ack }) ∧
    (∀ c, s.fabric.combines.find? (fun x => x.id == c.id) = some c → c.made + s.txTimeout ≤ s.clock →
      Happens s (.combineTimeout c.id) fun t => s.sameMem t ∧ (∀ x ∈ t.fabric.combines, x.id ≠ c.id) ∧
        t.fabric.timeout = (s.fabric.timeout + (c.branches.map (·.count)).sum) % 2 ^ 32) ∧
    (∀ r e b, s.fabric.refused.find? (fun x => x.id == r.id) = some r → r.until_ ≤ s.clock → r.up = .branch e b → r.anchor = false →
      (2 ≤ r.tx.world.toNat → (mapGet Port.reset s.fabric.ports (r.port - 1)).keyed = true) → Happens s (.combineNackResend r.id) fun t => s.sameMem t ∧ (∀ x ∈ t.fabric.refused, x.id ≠ r.id) ∧
        t.fabric.outbox = s.fabric.outbox ++ [(r.port, r.tx)])

/-- R114 to R118: a contribution joins its slot or opens one and is counted; a tombstone turns it away as late, and a slice whose slots
are full refuses it. A slot leaves by its flush; a tombstone leaves twice FBREDTO after it was made. -/
def Obligations.Reductions : Prop :=
  ∀ (s : State),
    (∀ d, s.fabric.deliveries.find? (fun x => x.id == d.id) = some d → s.fabric.en = true → (d.tx.op = 4 ∨ d.tx.op = 7) →
      let tx := d.tx
      let win := s.window tx.window.toNat
      let c := contributionOf tx
      let same := fun (x : RedSlot) => x.window == tx.window.toNat && x.offset == tx.offset.toNat && x.pattern == tx.pattern && x.tag == c.tag
      let buried := fun (x : Tomb) => x.window == tx.window.toNat && x.offset == tx.offset.toNat && x.pattern == tx.pattern && x.tag == c.tag
      let card := ivCard (patIntervals s.shape tx.pattern.toNat)
      let slice := s.redSlice win tx.offset.toNat
      (c.rows = [] ∨ winRefuses win tx.world.toNat 4 c.rows = none ∧ ∃ l, reachAll s win 1 c.rows = .ok l s) →
      (∀ x, s.fabric.slots.find? same = some x → s.fabric.slots.find? (fun y => y.id == x.id) = some x → x.count + 1 < card →
        Happens s (.reductionContribution d.id) fun t => s.sameMem t ∧
          (t.fabric.slots.find? fun y => y.id == x.id) = some (x.take c).1 ∧ (x.take c).1.count = x.count + 1 ∧
          ∀ y ∈ t.fabric.deliveries, y.id ≠ d.id) ∧
      (s.fabric.slots.find? same = none → (∃ x, s.fabric.tombs.find? buried = some x ∧ x.status = none) →
        Happens s (.reductionContribution d.id) fun t => s.sameMem t ∧ t.fabric.droplate = (s.fabric.droplate + 1) % 2 ^ 32 ∧
          t.fabric.slots = s.fabric.slots) ∧
      (s.fabric.slots.find? same = none → s.fabric.tombs.find? buried = none → s.redWalk win tx.offset.toNat = s →
        (64 ≤ (s.fabric.slots.countP fun x => x.slice == slice) → Happens s (.reductionContribution d.id) fun t => s.sameMem t ∧
          t.fabric.rednack = (s.fabric.rednack + 1) % 2 ^ 32 ∧ t.fabric.slots = s.fabric.slots) ∧
        ((s.fabric.slots.countP fun x => x.slice == slice) < 64 → 1 < card →
          Happens s (.reductionContribution d.id) fun t => s.sameMem t ∧ ∃ x, t.fabric.slots = s.fabric.slots ++ [x] ∧ x.count = 1 ∧
            x.window = tx.window.toNat ∧ x.offset = tx.offset.toNat ∧ x.pattern = tx.pattern ∧ x.tag = c.tag ∧
            x.voids = if c.rows = [] then 1 else 0))) ∧
    (∀ x t, s.fabric.slots.find? (fun y => y.id == x.id) = some x →
      let short := decide (x.count < ivCard (patIntervals s.shape x.pattern.toNat))
      (short = true → x.opened + s.redTimeout ≤ s.clock) → s.flushSlot x short = some t →
      exec (.reductionSlotTimeout x.id) s = .next t ∧ (∀ y ∈ t.fabric.slots, y.id ≠ x.id) ∧ ∃ y ∈ t.fabric.tombs, y.tag = x.tag ∧
        y.window = x.window ∧ y.offset = x.offset ∧ y.pattern = x.pattern ∧ y.made = s.clock) ∧
    (∀ n, Happens s (.tombstoneExpiry n) fun t => s.sameMem t ∧ ∀ y, y ∈ t.fabric.tombs ↔
      y ∈ s.fabric.tombs ∧ ¬(y.id = n ∧ y.made + 2 * s.redTimeout ≤ s.clock))

/-! ### Triggers, tables, channels and snapshots -/

/-- R102, R122, R319 to R323: TRGARM stores a trigger and gives its handle, or 0 with no free entry; TRGCAN takes an armed trigger away
and says whether it found one. A trigger whose condition and time hold fires and its command starts; when the command has completed
the status word and the completion timeline are written and the entry is free. The fabric's tables load from pages of world 0 (that
from no others is log 26; that RULEERR stays after a good load is log 85, what a table outside memory reads as log 72, and that a trigger
which the firewall refuses stays armed log 87). -/
def Obligations.TriggersAndTables : Prop :=
  (∀ (s : State) (u : Nat) (w : Wave) (f : EF), w.group = none → w.joinHolds = false →
    (∀ pa sbPa cmdPa cplPa, Issues s u w (.trgarm f) → w.src64 f.a ≠ 0 → (s.core w.core).sb = [] → s.snap.state ≠ 1 → s.unlocked = true →
      w.late.any (·.reads) = false →
      let n := s.read pa 64
      let die := dieOf w.core
      let bytes := trCmdBytes (trKind n)
      let entry := freshNumber ((s.die die).triggers.map (·.entry))
      Reaches s w (w.base f.b) 0 false 64 pa → s.poisoned pa 64 = false → trOk n = true →
      Reaches s w (trSb n) (if bit n 291 then 2 else 0) false 8 sbPa → (trCpl n = 0 ∨ Reaches s w (trCpl n) 2 false 8 cplPa) →
      Reaches s w (trCmd n) 0 false bytes cmdPa → s.poisoned cmdPa bytes = false → trCheck s (.trgarm f) w (trKind n) (s.read cmdPa bytes) = none →
      Ends s u w (.trgarm f) fun t w' => if 256 ≤ entry then w.onlyScalar w' f.d.toNat 1 (fun _ => 0) ∧ s.sameMem t else
        w.onlyScalar w' f.d.toNat 1 (fun _ => BitVec.ofNat 32 (entry + 2 ^ 8 * die + 2 ^ 10 * (s.die die).trigGen)) ∧
        (t.die die).triggers.map (·.entry) = (s.die die).triggers.map (·.entry) ++ [entry] ∧
        (t.die die).trigGen = nextGen (s.die die).trigGen) ∧
    (Issues s u w (.trgcan f) →
      let h := (w.src f.a).toNat
      let die := h / 256 % 4
      let hit := (s.die die).triggers.find? fun t => t.entry == h % 256 && t.gen == h / 1024 % 2 ^ 22 && t.world == s.waveWorld w && !t.fired
      (hit = none → Ends s u w (.trgcan f) fun t w' => w.onlyScalar w' f.d.toNat 1 (fun _ => 0) ∧ s.sameMem t ∧ ∀ d, t.die d = s.die d) ∧
      ∀ x, hit = some x → x.cpl = 0 → Ends s u w (.trgcan f) fun t w' => w.onlyScalar w' f.d.toNat 1 (fun _ => 1) ∧ s.sameMem t ∧
        (t.die die).triggers = (s.die die).triggers.filter fun y => y.entry != x.entry)) ∧
  (∀ (s : State) (die unc : Nat) (x : Trigger), (s.die die).triggers.find? (fun y => y.entry == x.entry) = some x →
    let m := s.read x.sbPa 8
    let starts := fun (t : State) => (x.kind = 0 → ∃ c, t.sched.copies = s.sched.copies ++ [c] ∧ c.kind = 0 ∧ c.trigger = some x.entry ∧
        c.rec_ = x.cmd ∧ c.world = x.world ∧ c.asid = x.asid) ∧
      (x.kind = 2 → (s.withGrid x.grid).effCard (sigPattern (leNat x.cmd)) ≠ 0 → ∃ y, t.fabric.inbox = s.fabric.inbox ++ [y] ∧ y.tx.op = 5 ∧ y.tx.payload = [])
    (x.fired = true → x.done = false → x.cmdId = 0 → x.kind = 0 ∨ x.kind = 2 →
      Happens s (.triggerFire die x.entry unc) fun t => starts t ∧ s.sameMem t) ∧
    (x.fired = false → x.done = false → x.cmdId = 0 → x.kind = 0 ∨ x.kind = 2 → m &&& x.mask = x.mask → (x.timed = true → x.nbt ≤ s.ptp) →
      s.admits (.world x.world) x.sbPa = true → s.snap.state ≠ 1 → s.unlocked = true → s.snap.marks = [] → Happens s (.triggerFire die x.entry unc) fun t => starts t ∧
        (∃ y ∈ (t.die die).triggers, y.entry = x.entry ∧ y.fired = true ∧ y.time = s.ptp ∧ y.unsync = decide (x.tol < unc)) ∧
        if x.consume then t.read x.sbPa 8 = m - (m &&& x.mask) ∧ ∀ a, ¬(x.sbPa ≤ a ∧ a < x.sbPa + 8) → t.byte a = s.byte a else s.sameMem t) ∧
    (x.done = true →
      let word := 1 + 2 * b2n x.late + 4 * b2n x.unsync + 16 * (x.cause % 16) + 2 ^ 32 * (x.time % 2 ^ 32)
      let free := fun (t : State) => ∀ y ∈ (t.die die).triggers, y.entry ≠ x.entry
      (x.cpl = 0 → Happens s (.triggerComplete die x.entry) fun t => free t ∧ s.sameMem t) ∧
      (∀ pa1 pa2 r1 r2, x.cpl ≠ 0 →
        let s1 := s.writeHome pa2 (natLe 8 word)
        engineXlate s die x.asid x.world (.world x.world) ((x.cpl.toNat + 8) % 2 ^ 64) 1 = .ok pa2 r2 s →
        engineXlate s1 die x.asid x.world (.world x.world) x.cpl.toNat 1 = .ok pa1 r1 s1 →
        Happens s (.triggerComplete die x.entry) fun t => free t ∧ ∀ a, t.byte a = (s1.writeHome pa1 (natLe 8 (s1.read pa1 8 + 1))).byte a))) ∧
  (∀ (s : State),
    (let base := s.fabric.wintab.toNat / 8192 % 2 ^ 39 * 8192
     Happens s .windowTableLoad fun t => s.sameMem t ∧ t.fabric.windows =
        if s.tableOk base 8192 then (List.range 256).map fun i => BitVec.ofNat 256 (s.physRead (base + 32 * i) 32) else []) ∧
    (let base := s.fabric.rules.toNat / 4096 % 2 ^ 40 * 4096
     let rules := (List.range 256).map fun i => s.physRead (base + 16 * i) 16
     let valid := rules.filter fun r => bit r 0
     let good := s.tableOk base 4096 = true ∧ (∀ r ∈ valid, ruleOk r = true) ∧
       ∀ i j, i < j → j < valid.length → rulesOverlap (gridAxes s.shape) (nth 0 valid i) (nth 0 valid j) = false
     Happens s .ruleTableLoad fun t => s.sameMem t ∧
       (good → t.fabric.ruleTab = rules.map (BitVec.ofNat 128) ∧ t.fabric.ruleerr = s.fabric.ruleerr) ∧
       (¬good → t.fabric.ruleerr = true ∧ t.fabric.ruleTab = s.fabric.ruleTab)))

/-- R92 to R98, R344, R417 to R419: a system copy channel starts at the record whose address is written to it and walks its chain, in turn
with its drain chain: a record that is not owned ends it, a malformed one halts it with status 1, and a good one is copied, closed and
followed. The snapshot engine arms, freezes at the cut value by marking the pages of its regions, drains through the channels of each die
in the turns of the staging class, and cancels; a marked page that a write waits for is copied first. The world of a host chain and what
an unreadable record does are log 32 (DEDUCED), which channel drains a page log 31, that CANCEL leaves ERR 0 log 64 (DEDUCED), and that
a record's pieces move in one event log 66. -/
def Obligations.ChannelsAndSnapshots : Prop :=
  ∀ (s : State),
    (∀ die ch v, die < 4 → ch < 4 → s.trust.stage = 3 → Happens s (.channelHeadWrite die ch v) fun t => s.sameMem t ∧
      if (s.channel die ch).host.isSome then t.channel die ch = { s.channel die ch with drop := true }
      else (t.channel die ch).cur = v.toNat / 64 % 2 ^ 46 * 64 ∧
        (t.channel die ch).host = some { cur := v.toNat / 64 % 2 ^ 46 * 64, done := 0, parked := false, trapped := false, host := true }) ∧
    (∀ die ch k, (s.channel die ch).host = some k → k.rec_ = none → (s.channel die ch).turn false = false →
      exec (.channelRecord die ch false) s = .next s) ∧
    (∀ die ch k l, (s.channel die ch).host = some k → k.parked = false → k.trapped = false → k.rec_ = none → k.sent = false →
      s.trust.stage = 3 → (s.channel die ch).turn false = true → s.linkAt (.host none) k.cur = some l →
      (l.own = false → Happens s (.channelRecord die ch false) fun t => s.sameMem t ∧ (t.channel die ch).host = none ∧
        (t.channel die ch).err = (s.channel die ch).err) ∧
      (l.own = true → l.malformed = true → s.still = true → Happens s (.channelRecord die ch false) fun t =>
        (t.channel die ch).host = none ∧ (t.channel die ch).err = true ∧
        (∀ a, ¬(k.cur + 28 ≤ a ∧ a < k.cur + 32) → t.byte a = s.byte a) ∧ t.read (k.cur + 28) 4 / 2 ^ 26 % 16 = 1 ∧ t.read (k.cur + 28) 4 % 2 = 0) ∧
      (l.own = true → l.malformed = false → s.still = true → k.done = 0 → l.skind = 0 → l.dkind = 0 → l.src % 65536 + l.len ≤ 65536 →
        l.dst % 65536 + l.len ≤ 65536 → s.backedMem l.src l.len = true → s.backedMem l.dst l.len = true → s.admits (.host none) l.src = true →
        s.admits (.host none) l.dst = true → s.poisoned l.src l.len = false → l.src < 2 ^ 64 → l.dst < 2 ^ 64 →
        overlaps l.dst l.len (k.cur + 28) 4 = false → Happens s (.channelRecord die ch false) fun t =>
          (∀ a, ¬(k.cur + 28 ≤ a ∧ a < k.cur + 32) → t.byte a = if l.dst ≤ a ∧ a < l.dst + l.len then s.byte (l.src + (a - l.dst)) else s.byte a) ∧
          t.read (k.cur + 28) 4 / 2 ^ 26 % 16 = 0 ∧ t.read (k.cur + 28) 4 % 2 = 0 ∧
          (t.channel die ch).host = if l.next = 0 then none else some { cur := l.next, done := 0, parked := false, trapped := false, host := true })) ∧
    (∀ die ch k n cause, (s.channel die ch).host = some k → k.rec_ = some n → k.sent = true → (linkOf n).len ≤ k.done → s.still = true →
      Happens s (.roceAck (.channel die ch false) cause) fun t => (∀ a, ¬(k.cur + 28 ≤ a ∧ a < k.cur + 32) → t.byte a = s.byte a) ∧
        t.read (k.cur + 28) 4 / 2 ^ 26 % 16 = (if cause = 0 then 0 else 5) ∧ t.read (k.cur + 28) 4 % 2 = 0 ∧
        if cause = 0 then (t.channel die ch).err = (s.channel die ch).err else (t.channel die ch).host = none ∧ (t.channel die ch).err = true) ∧
    (let x := s.snap
     let region := fun (i : Nat) => snapRegion (s.physRead (x.tablePa + 16 * i) 16)
     (x.state = 0 ∨ x.state = 4 → s.trust.stage = 3 → Happens s .snapshotArm fun t =>
        ((∀ i, i < x.count → s.armWalk (region i) = s) → s.sameMem t) ∧
          if s.armError = 0 then t.snap.state = 1 ∧ t.snap.err = 0 ∧ t.snap.skip = 0 ∧ t.snap.regions = (List.range x.count).map region
          else t.snap.state = 5 ∧ t.snap.err = s.armError) ∧
     (x.state ≠ 0 → x.state ≠ 4 → exec .snapshotArm s = .next s ∧ Happens s .snapshotCancel fun t =>
        t.snap.state = 0 ∧ t.snap.err = 0 ∧ t.snap.marks = [] ∧ t.snap.copies = [] ∧ t.snap.regions = []) ∧
     (x.state = 1 → s.physRead x.timelinePa 8 < x.val.toNat → exec .snapshotFreeze s = .next (s.physDone x.timelinePa 8)) ∧
     (x.state = 1 → x.val.toNat ≤ s.physRead x.timelinePa 8 → Happens s .snapshotFreeze fun t =>
        let pages := x.regions.flatMap fun r => (List.range r.2.2).map fun i => (r.1, r.2.1 + i)
        let m := pages.foldl (fun t p => State.markPage t p.1 p.2) { (s.physDone x.timelinePa 8) with snap := { x with copies := [] } }
        t.snap = { m.snap with state := 2 } ∧ (s.unwatched = true → m.sameMem t)) ∧
     (∀ asid page,
        let t := s.markPage asid page
        let skips := t = { s with snap := { x with skip := (x.skip + 1) % 2 ^ 24 } }
        (s.snapLeaf asid page = none → skips) ∧
        ∀ leaf, s.snapLeaf asid page = some leaf →
          (s.isDevice leaf.base = true → 2 ≤ (s.owner leaf.base).world → skips) ∧
          (¬(s.isDevice leaf.base = true ∧ 2 ≤ (s.owner leaf.base).world) → t.snap.skip = x.skip ∧
            (∃ l, mapFind t.snap.marks (leaf.base / 65536) = some l ∧ leaf.leafPa ∈ l) ∧ bit (t.read leaf.leafPa 8) 6 = true ∧
            (∀ p, p ≠ leaf.base / 65536 → mapFind t.snap.marks p = mapFind x.marks p) ∧
            ∀ a, ¬(leaf.leafPa ≤ a ∧ a < leaf.leafPa + 8) → t.byte a = s.byte a)) ∧
     (x.state = 2 → Happens s .snapshotMarkComplete fun t => s.sameMem t ∧ t.snap.marks = x.marks ∧
        if x.drain.toNat / 64 % 2 ^ 46 = 0 then t.snap.state = 4 else t.snap.state = 3 ∧ ∀ d c, d < 4 → c < 4 →
          (t.channel d c).drain = some { cur := x.drain.toNat / 64 % 2 ^ 46 * 64, done := 0, parked := false, trapped := false, host := false }) ∧
     (∀ page i, 3 ≤ x.state → (mapFind x.marks page).isSome = true → x.sending.contains page = false → x.freePage = some i → Happens s (.cowPageCopy page) fun t =>
        mapFind t.snap.marks page = none ∧ mapFind t.snap.copies page = some i)) ∧
    (∀ die, (s.snap.state ≠ 3 ∨ s.trust.stage ≠ 3 ∨ s.groupTurn die true = false → exec (.snapshotDrainRecord die) s = .next s) ∧
      ∃ x : Nat → State, x 0 = s ∧ (∀ i, i < 4 → exec (.channelRecord die i true) (x i) = .next (x (i + 1))) ∧
        exec (.snapshotDrainRecord die) s = .next (x 4)) ∧
    ∀ die ch k l, s.snap.state = 3 → s.trust.stage = 3 → s.groupTurn die true = true → (s.channel die ch).drain = some k → k.parked = false →
      k.trapped = false → k.rec_ = none → (s.channel die ch).turn true = true → s.linkAt (.world 0) k.cur = some l → l.own = true →
      (s.snap.drainable l = false →
        let fails := fun (i : Instr) => Happens s i fun t => t.snap.state = 5 ∧ t.snap.err = 4 ∧
          ((s.snap.marks.any fun m => overlaps (k.cur + 28) 4 (m.1 * 65536) 65536) = false → t.snap.marks = s.snap.marks)
        fails (.channelRecord die ch true) ∧ (ch = 0 → fails (.snapshotDrainRecord die))) ∧
      (∀ t d c k2, s.snap.drainable l = true → k.done < l.len →
        sendPieces (drainMover die ch l.asid) l k.cur (2 * (l.len / 65536) + 4)
          ((s.noteTurn die true).updChannel die ch fun c => { c with last := some true }) k.done = .all t →
        (t.channel die ch).drain = some k →
        d < 4 → c < 4 → (d, c) ≠ (die, ch) → (t.channel d c).drain = some k2 → k2.done < l.len → Happens s (.channelRecord die ch true) fun t' =>
          t.sameMem t' ∧ t'.snap = t.snap ∧ (t'.channel die ch).drain = some { k with
            done := l.len, rec_ := some (s.read k.cur 64), sent := k.sent || decide (s.power.foreign.length < t.power.foreign.length) })

/-! ### Approximable regions -/

/-- R19, R353 to R356, R361, R362, R367, R369 to R371: APXBEGIN. With no active lane control goes on at the end of the region; with no
table, in reproducible mode or on the trust core true code runs; a region that observes, trains or falls back runs true code and is sampled; an armed one is
computed by its network, on all invocations but one in 2^S, and control goes on at the end with the outputs in the active lanes. -/
def Obligations.RegionBegins : Prop :=
  ∀ (s : State) (u : Nat) (w : Wave) (f : EF), Issues s u w (.apxbegin f) →
    let target := w.pc + f.ctl.signExtend 64 * 8
    let id := (w.src f.c).toNat
    let k := s.regionKey w id
    let die := dieOf w.core
    let stat := fun (st surr sampled : Nat) => BitVec.ofNat 64 (id + 2 ^ 16 * st + 2 ^ 19 * surr + 2 ^ 20 * sampled)
    let runs := fun (x : DWord) (P : Wave → Prop) => Ends s u w (.apxbegin f) fun t w' =>
      w'.regs = w.regs ∧ w'.sp = { w.sp with apxstat := x } ∧ s.sameMem t ∧ P w'
    (w.prog.stage = 1 → ∃ w', Completes s u w (.apxbegin f) w' ∧ w'.pc = target ∧ w'.sp.apxstat = BitVec.ofNat 64 w.prog.x ∧
      (∀ r, w'.s r = w.s r) ∧ ((w.prog.data.map (·.1)).Nodup →
        ∀ r i x, r < 256 → (vkey r i, x) ∈ w.prog.data → w'.v r i = BitVec.ofNat 32 x)) ∧
    (w.prog.stage ≠ 1 → HeaderAt s w target → id < 65536 →
      (w.activeLanes = [] → ∃ w', Completes s u w (.apxbegin f) w' ∧ w'.pc = target ∧ w'.regs = w.regs ∧ w'.sp = w.sp) ∧
      (w.activeLanes ≠ [] → (w.sp.apxtab = 0 ∨ 2 ≤ (s.die die).fit.mode ∨ isTrustCore w.core = true) →
        runs (stat 0 0 0) fun w' => w'.region = none) ∧
      (w.activeLanes ≠ [] → w.sp.apxtab ≠ 0 → (s.die die).fit.mode < 2 → isTrustCore w.core = false → w.joinHolds = false →
        ∀ r, s.region die k = some r → r.stale = false →
        f.d.toNat % 16 + 1 = r.nin → f.d.toNat / 16 % 8 + 1 = r.nout →
        let sampled := runs (stat r.st 0 1) fun w' => w'.region.map (fun o => (o.key, o.gen, o.capture)) =
          some (k, r.gen, (w.activeLanes.take 32).map fun i => (i, (List.range r.nin).map fun j => w.v (f.a.toNat + j) i))
        (r.st = 1 ∨ r.st = 2 ∨ r.st = 4 → sampled) ∧ (r.st = 0 ∨ r.st = 5 → runs (stat r.st 0 0) fun w' => w'.region = none) ∧
        (r.st = 3 → (r.n + 1) % 2 ^ r.s = 2 ^ r.s - 1 → sampled) ∧
        (r.st = 3 → (r.n + 1) % 2 ^ r.s ≠ 2 ^ r.s - 1 → ∃ t w' miss, exec (.apxbegin f) s = .next t ∧ t.wave u = some w' ∧ w'.pc = w.pc ∧
          w'.regs = w.regs ∧ w'.wait = .surrogate (s.clock + surrogateClocks r w miss) ∧ w'.prog.stage = 1 ∧
          w'.prog.data = w.activeLanes.flatMap fun i =>
            (netOut r.shape r.vals ((List.range r.nin).map fun j => (w.v (f.a.toNat + j) i).toNat)).zipIdx.map fun o =>
              (vkey (f.b.toNat + o.2) i, o.1))))

/-- R356, R363 to R367, R369, R370, R372: APXEND sends the samples of the lanes still live and in lockstep mode waits until the engine has
consumed them; APXINV makes regions on every die begin anew, and the wave yields; APXQRY reads a region's state. The fitting engine takes a sample: an observing
region counts it, an armed one whose average error rises above its threshold falls back (and is disabled the eighth time), and a slot trains on samples of the ring in ring order. -/
def Obligations.FittingEngine : Prop :=
  (∀ (s : State) (u : Nat) (w : Wave) (f : EF),
    let die := dieOf w.core
    let id := (w.src f.c).toNat
    (Issues s u w (.apxend f) → w.prog.stage ≠ 1 → w.region = none → Ends s u w (.apxend f) fun t w' => w.sameArch w' ∧ s.sameMem t ∧ ∀ d, t.die d = s.die d) ∧
    (Issues s u w (.apxend f) → w.prog.stage = 1 →
      (s.samplesDone u w = true → Ends s u w (.apxend f) fun t w' => w.sameArch w' ∧ s.sameMem t ∧ ∀ d, t.die d = s.die d) ∧
      (s.samplesDone u w = false → ∃ t w', exec (.apxend f) s = .next t ∧ t.wave u = some w' ∧ w'.pc = w.pc ∧ w'.wait = .lockstep ∧
        w.sameArch w')) ∧
    (∀ o, Issues s u w (.apxend f) → w.prog.stage ≠ 1 → w.region = some o →
      let l := o.samples u w
      ((s.region die o.key).map (·.gen) = some o.gen → (s.die die).fit.mode = 1 → l ≠ [] → ∃ t w', exec (.apxend f) s = .next t ∧
        t.wave u = some w' ∧ w'.pc = w.pc ∧ w'.wait = .lockstep ∧ w'.prog.stage = 1 ∧ w'.region = none ∧ w.sameArch w' ∧
        (t.die die).fit.samples = (s.die die).fit.samples ++ l) ∧
      ((s.die die).fit.mode ≠ 1 ∨ l = [] ∨ (s.region die o.key).map (·.gen) ≠ some o.gen →
        Ends s u w (.apxend f) fun _ w' => w.sameArch w' ∧ w'.region = none) ∧
      ((s.region die o.key).map (·.gen) ≠ some o.gen → Ends s u w (.apxend f) fun t _ =>
        (t.die die).fit.drop = ((s.die die).fit.drop + l.length) % 2 ^ 32 ∧ (t.die die).fit.samples = (s.die die).fit.samples) ∧
      ((s.region die o.key).map (·.gen) = some o.gen → (s.die die).fit.mode ≠ 1 →
        ((s.die die).fit.samples.countP fun y => y.core == w.core) + l.length ≤ 64 → Ends s u w (.apxend f) fun t _ =>
          (t.die die).fit.samples = (s.die die).fit.samples ++ l)) ∧
    (Issues s u w (.apxinv f) → w.prog.stage = 1 → f.ctl.toNat % 2 = 1 ∨ id < 65536 →
      Ends s u w (.apxinv f) fun t w' => w.sameArch w' ∧ s.sameMem t ∧ ∀ d, t.die d = s.die d) ∧
    (Issues s u w (.apxinv f) → w.prog.stage ≠ 1 → w.late.any (·.reads) = false → w.joinHolds = false → f.ctl.toNat % 2 = 1 ∨ id < 65536 →
      let hit := fun (k : RegionKey) => if f.ctl.toNat % 2 = 1 then k.world = s.waveWorld w ∧ k.asid = s.waveAsid w else k = s.regionKey w id
      ∃ t w', exec (.apxinv f) s = .next t ∧ t.wave u = some w' ∧ w'.pc = w.pc ∧ w'.wait = .yielded ∧ w'.prog.stage = 1 ∧
        w.sameArch w' ∧ s.sameMem t ∧ ∀ d k r, s.region d k = some r →
        (hit k → (t.region d k).map (fun x => (x.gen, x.stale, x.seen, x.weights)) = some (r.gen + 1, true, 0, [])) ∧
        (¬hit k → (t.region d k).map (·.gen) = some r.gen)) ∧
    (Issues s u w (.apxqry f) → id < 65536 → Ends s u w (.apxqry f) fun t w' => s.sameMem t ∧ w.sameArch w' ∧
      w.answerPends w' false f.d.toNat 2 [(0, (s.regionQuery w (s.regionKey w id)).toNat)])) ∧
  (∀ (s : State) (die : Nat) (x : Sample) (rest : List Sample) (r : Region), (s.die die).fit.samples = x :: rest →
    s.region die x.key = some r →
    let e := averageError r.e.toNat (sampleError (netOut r.shape r.vals (toNats x.x)) (toNats x.y)) % 2 ^ 32
    let takes := fun (P : Region → Prop) => Happens s (.fittingSample die) fun t => s.sameMem t ∧ (t.die die).fit.samples = rest ∧
      ∃ r', t.region die x.key = some r' ∧ P r'
    (r.gen ≠ x.gen → takes fun r' => r' = r) ∧
    (r.gen = x.gen → r.st = 1 → r.seen + 1 < 256 → takes fun r' => r'.seen = r.seen + 1 ∧ (r.ring.length < 4096 → r'.ring = r.ring ++ [(x.x, x.y)])) ∧
    (r.gen = x.gen → r.st = 3 → r.eset = true → (fpCompare fpF32 5 e r.thresh.toNat).1 = true →
      takes fun r' => r'.f = r.f + 1 ∧ r'.c = 0 ∧ r'.st = if r.f + 1 = 8 then 5 else 4) ∧
    (r.gen = x.gen → r.st = 3 → r.eset = true → (fpCompare fpF32 5 e r.thresh.toNat).1 = false →
      takes fun r' => r'.st = 3 ∧ r'.f = r.f ∧ r'.e = BitVec.ofNat 32 e ∧ r'.weights = r.weights)) ∧
  ∀ (s : State) (die i : Nat) (r : Region), (s.die die).fit.regions[i]? = some r → s.region die r.key = some r → (s.die die).fit.mode = 0 →
    r.slot = true → r.batch.length < 32 → 32 ≤ r.ring.length →
    (∀ x ∈ (s.die die).fit.regions, x.slot = true ∨ x.st ≠ 2 ∧ x.st ≠ 4) →
    let batch := ((r.ring ++ r.ring).drop (r.replay % r.ring.length)).take 32
    let spreads := (r.hi.zip r.lo).map fun x => spread (x.1.map (·.toNat)) (x.2.map (·.toNat))
    Happens s (.replayStep die i) fun t => s.sameMem t ∧ ∃ r', t.region die r.key = some r' ∧ r'.ring = r.ring ∧
      r'.replay = (r.replay % r.ring.length + 32) % r.ring.length ∧
      match sgdStep r.shape r.vals spreads r.lrate.toNat (batch.map fun x => (toNats x.1, toNats x.2)) with
      | some v => r'.weights = toWords v ∧ r'.st = r.st
      | none => r'.st = 5 ∧ r'.weights = []

/-! ### The trust core's instructions -/

/-- R331 to R333: HASHB hashes the bytes of a range, 80 clocks a block, into eight registers; SIGNQ signs one and stores the signature;
MEASX extends a measurement slot with the 32 bytes of a buffer, 160 clocks later, or copies the slot to it. -/
def Obligations.TrustInstructions : Prop :=
  ∀ (s : State) (u : Nat) (w : Wave) (f : EF), w.group = none → w.joinHolds = false →
    let slot := f.ctl.toNat % 16
    let work := fun (i : Instr) (clocks : Nat) (data : List (Nat × Nat)) => ∃ t w', exec i s = .next t ∧ t.wave u = some w' ∧ w'.pc = w.pc ∧
      w.sameArch w' ∧ s.sameMem t ∧ w'.wait = .nap (s.clock + clocks) ∧ w'.prog.stage = 1 ∧ w'.prog.data = data
    let stores := fun (i : Instr) (va : Nat) (bs : List Byte) (pa : Nat) => va % 65536 + bs.length ≤ 65536 → bs ≠ [] →
      Reaches s w va 1 false 1 pa → s.atLink pa = false →
      sbCount (s.core w.core).sb + ((pa + bs.length - 1) / 16 + 1 - pa / 16) ≤ sbSize w.core →
      Ends s u w i fun t w' => w.sameArch w' ∧ s.sameMem t ∧ ∀ b, b < bs.length → ∃ x ∈ (t.core w.core).sb,
        x.wave = u ∧ x.sector = (pa + b) / 16 ∧ mapFind x.bytes ((pa + b) % 16) = bs[b]?
    let reads := fun (va n pa : Nat) => va % 65536 + n ≤ 65536 ∧ n ≠ 0 ∧ Reaches s w va 0 false 1 pa ∧ s.poisoned pa n = false ∧
      (s.core w.core).sb = [] ∧ s.snap.state ≠ 1 ∧ s.unlocked = true ∧ w.late.any (·.reads) = false
    (∀ pa, Issues s u w (.hashb f) →
      let n := (w.src f.b).toNat
      let final := bit f.ctl.toNat 1
      let h := if bit f.ctl.toNat 0 then shaInit else (List.range 8).map fun j => w.s (f.d.toNat + j)
      let m := s.bytes pa n ++ if final then shaPad n (w.base f.c + n) else []
      (w.prog.stage ≠ 1 → (final = true ∨ n % 64 = 0) → reads (w.base f.a) n pa →
        work (.hashb f) (80 * (m.length / 64)) ((List.range 8).map fun j => (j, (nth 0 (shaRun h m) j).toNat))) ∧
      (w.prog.stage = 1 → Ends s u w (.hashb f) fun t w' => s.sameMem t ∧
        w.onlyScalar w' f.d.toNat 8 fun j => BitVec.ofNat 32 ((mapFind w.prog.data j).getD 0))) ∧
    (∀ pa, Issues s u w (.signq f) →
      let n := (w.src f.b).toNat
      (∀ key, w.prog.stage ≠ 1 → n ≤ 65536 → s.signKey (f.ctl.toNat % 4) = some key → reads (w.base f.a) n pa →
        work (.signq f) 0 ((slhSignature key (s.bytes pa n)).zipIdx.map fun x => (x.2, x.1.toNat))) ∧
      (w.prog.stage = 1 → stores (.signq f) (w.base f.c) (w.prog.data.map fun x => BitVec.ofNat 8 x.2) pa)) ∧
    (∀ pa, Issues s u w (.measxExtend f) →
      (w.prog.stage ≠ 1 → reads (w.base f.a) 32 pa → work (.measxExtend f) 160 ((s.bytes pa 32).zipIdx.map fun x => (x.2, x.1.toNat))) ∧
      (w.prog.stage = 1 → Ends s u w (.measxExtend f) fun t w' => w.sameArch w' ∧ s.sameMem t ∧ ∀ n, mapGet 0 t.trust.slots n =
        if n = slot then BitVec.ofNat 256 (leNat (sha256 (natLe 32 (mapGet 0 s.trust.slots slot).toNat ++
          w.prog.data.map fun x => BitVec.ofNat 8 x.2))) else mapGet 0 s.trust.slots n)) ∧
    ∀ pa, Issues s u w (.measxRead f) →
      stores (.measxRead f) (w.base f.a) (natLe 32 (mapGet 0 s.trust.slots slot).toNat) pa

/-! ### Waits, late results, translation, faults and services -/

/-- R50, R84, R131, R147, R167, R169, R242, R284, R409: a wave at a yield point becomes ready when its condition has cleared, and not before; one
that waits on a word whose page the firewall no longer admits goes back to its instruction; a NAP ends at its clock; a late result whose lanes have all been answered is written to its registers, and a load whose page has come to another
owner or whose sector to poison raises its trap at the load (R80, R409); an L1 sector leaves the L1; a refused
FLOAD lane is sent again after its backoff, and a FULL word answers it. -/
def Obligations.WaveEvents : Prop :=
  (∀ (s : State) (u : Nat) (w : Wave), s.wave u = some w →
    let cleared := fun (i : Instr) (p : Prop) =>
      (p → Happens s i fun t => t = s.setWave u { w with wait := .ready }) ∧ (¬p → exec i s = .next s)
    (∀ e n, w.wait = .timeline e n → cleared (.waveReady u) (n ≤ (w.tl e).value)) ∧
    (w.wait = .late → cleared (.waveReady u) (w.late = [])) ∧
    (w.wait = .yielded → cleared (.waveReady u) True) ∧
    (∀ f c x, w.wait = .fifoFull f → s.cohort w.cohort = some c → c.fifo f = some x → cleared (.waveReady u) (x.entries.length < x.depth)) ∧
    (∀ f c x, w.wait = .fifoEmpty f → s.cohort w.cohort = some c → c.fifo f = some x → cleared (.waveReady u) (x.entries ≠ [])) ∧
    (∀ ls c, w.wait = .scratchLine ls → s.cohort w.cohort = some c →
      cleared (.waveReady u) ((∀ l ∈ ls, l ∉ c.empty) ∨ ∃ l ∈ ls, mapFind c.failed l ≠ none)) ∧
    (∀ n, w.wait = .nap n → cleared (.napExpiry u) (n ≤ s.clock)) ∧
    (∀ pa, ((∃ v, w.wait = .memTimeline pa v) ∨ ∃ mask any, w.wait = .scoreboard pa mask any) → s.admits (s.waveWho w) pa = false →
      Happens s (.waveReady u) fun t => s.sameMem t ∧ ∃ w', t.wave u = some w' ∧ w'.wait = .ready ∧ w'.prog.stage = 0 ∧ w'.pc = w.pc ∧
        w.sameArch w') ∧
    (∀ pa v, w.wait = .memTimeline pa v → s.admits (s.waveWho w) pa = true → s.snap.state ≠ 1 → s.unlocked = true → (s.read pa 8 < v → exec (.waveReady u) s = .next s) ∧
      (v ≤ s.read pa 8 → Happens s (.waveReady u) fun t => s.sameMem t ∧ ∃ w', t.wave u = some w' ∧ w'.wait = .ready ∧ w.sameArch w')) ∧
    (∀ pa mask any, w.wait = .scoreboard pa mask any → s.admits (s.waveWho w) pa = true → s.snap.state ≠ 1 → s.unlocked = true → s.snap.marks = [] → s.poisonedWord pa = false →
      let m := s.read pa 8
      let holds := if any then m &&& mask ≠ 0 else m &&& mask = mask
      (¬holds → exec (.waveReady u) s = .next s) ∧
      (holds → Happens s (.waveReady u) fun t => (∃ w', t.wave u = some w' ∧ w'.wait = .ready ∧ w.sameArch w') ∧
        if w.prog.stage = 1 ∧ m &&& mask ≠ 0 then t.read pa 8 = m - 2 ^ lowestBit (m &&& mask) ∧
          ∀ a, ¬(pa ≤ a ∧ a < pa + 8) → t.byte a = s.byte a
        else w.prog.stage ≠ 1 → s.sameMem t))) ∧
  (∀ (s : State) (u : Nat) (w : Wave) (l : Late) (lanes : List Nat), s.wave u = some w → w.late.find? (fun x => x.seq == l.seq) = some l →
    l.kind = .value ∨ l.kind = .answer ∨ l.kind = .scratch → (∀ a ∈ l.lanes, ∃ x ∈ l.vals, x.1 = a.lane) → l.vals ≠ [] → w.keeper = none → w.pend = none →
    Happens s (.lateResultLand u l.seq lanes) fun t => s.sameMem t ∧ ∃ w', t.wave u = some w' ∧ w'.sp = w.sp ∧ w'.tr = w.tr ∧ w'.pc = w.pc ∧
      w'.late = w.late.filter (fun x => x.seq != l.seq) ∧ w'.regs.live = w.regs.live ∧
      (l.vec = false → ∀ x, l.vals = [(0, x)] → w'.regs.v = w.regs.v ∧ ∀ r, mapGet 0 w'.regs.s r = if l.reg ≤ r ∧ r < l.reg + l.nregs then
        (let y := BitVec.ofNat 32 (x / 2 ^ (32 * (r - l.reg)))
         if 96 ≤ r ∧ r < 96 + w.k then y &&& w.liveWord (r - 96) else y) else mapGet 0 w.regs.s r) ∧
      (l.vec = true → l.reg + l.nregs ≤ 256 → (l.vals.map (·.1)).Nodup → w'.regs.s = w.regs.s ∧ ∀ r i, r < 256 →
        w'.v r i = match l.vals.find? fun x => x.1 == i with
          | some x => if l.reg ≤ r ∧ r < l.reg + l.nregs then BitVec.ofNat 32 (x.2 / 2 ^ (32 * (r - l.reg))) else w.v r i
          | none => w.v r i)) ∧
  (∀ (s : State) (u : Nat) (w : Wave) (l : Late) (a : LaneAcc), s.wave u = some w → w.late = [l] → l.kind = .global → l.lanes = [a] → l.vals = [] →
    l.nregs = 1 → l.vec = true → l.reg < 256 → a.nocache = true → a.own = [] → w.keeper = none → w.pend = none →
    (s.core w.core).sb = [] → s.snap.state ≠ 1 → s.unlocked = true →
    let lands := fun (P : Wave → Prop) => Happens s (.lateResultLand u l.seq []) fun t => s.sameMem t ∧ ∃ w', t.wave u = some w' ∧ w'.late = [] ∧
      w'.regs.s = w.regs.s ∧ P w'
    let fails := fun (code : Nat) => lands fun w' => w'.regs = w.regs ∧ w'.lateTrap.map (fun x => (x.trap.code, x.trap.tpc)) = some (code, l.pc)
    (s.admits (s.waveWho w) a.addr = true → s.poisoned a.addr (sizeBytes l.size) = false → lands fun w' => ∀ r i, r < 256 →
      w'.v r i = if r = l.reg ∧ i = a.lane then BitVec.ofNat 32 (extendLoad l.size (s.read a.addr (sizeBytes l.size))) else w.v r i) ∧
    (s.admits (s.waveWho w) a.addr = false → l.grouped = false → w.lateTrap = none → fails trapFirewall) ∧
    (s.admits (s.waveWho w) a.addr = true → s.poisoned a.addr (sizeBytes l.size) = true → l.grouped = false → w.lateTrap = none →
      fails trapPoison)) ∧
  (∀ (s : State) (core sector : Nat), Happens s (.l1SectorExpiry core sector) fun t =>
    t.core core = { s.core core with l1 := (s.core core).l1.filter fun x => x.id != sector } ∧ (∀ c, c ≠ core → t.core c = s.core c) ∧
    t = { s with cores := t.cores }) ∧
  ∀ (s : State) (u : Nat) (w : Wave) (l : Late), s.wave u = some w → w.late.find? (fun x => x.seq == l.seq && x.kind == .future) = some l →
    w.late.find? (fun x => x.seq == l.seq) = some l → l.refused ≠ [] → l.stale = [] →
    (s.clock < l.until_ → exec (.floadResend u l.seq) s = .next s) ∧
    (∀ a, l.until_ ≤ s.clock → l.lanes = [a] → l.refused = [a.lane] → l.vals = [] → s.wordEmpty a.addr = false → s.snap.state ≠ 1 →
      s.unlocked = true → s.admits (s.waveWho w) a.addr = true → s.poisoned a.addr (sizeBytes l.size) = false →
      Happens s (.floadResend u l.seq) fun t => s.sameMem t ∧ ∃ w' l', t.wave u = some w' ∧ w.sameArch w' ∧
        w'.late.find? (fun x => x.seq == l.seq) = some l' ∧ l'.refused = [] ∧ l'.vals = [(a.lane, s.read a.addr (sizeBytes l.size))])

/-- R30, R33, R38 to R40: a completed walk gives its translation, or its fault, to the wave that asked, with ACC and DIRTY set in a leaf
that asks for it, and the next waiting request takes the walker; a refused request is made again after 64 clocks. A deferred fault
is recorded when there is room. RETRY lets an agent translate afresh, TRAP delivers the trap of the fault, KILL cancels its dispatch; a
response to no token sets BADRESP. -/
def Obligations.WalksAndFaults : Prop :=
  ∀ (s : State) (die u : Nat) (w : Wave), s.wave u = some w → dieOf w.core = die →
    let ts := (s.die die).ts
    (∀ x access va, ts.walks = [x] → x.reqs = [(u, access, va)] → ts.refused = [] → ts.entries = [] →
      let ask := fun (P : State → Wave → Prop) => Happens s (.translationWalkComplete die x.id) fun t =>
        (t.die die).ts.walks = ts.missq.take 1 ∧ (t.die die).ts.missq = ts.missq.drop 1 ∧ ∃ w', t.wave u = some w' ∧ w.sameArch w' ∧
          w'.pc = w.pc ∧ (w.wait = .walk → ts.missq = [] → w'.wait = .yielded) ∧ P t w'
      (∀ tr, (walk s die x.asid x.world va.toNat).1 = .leaf tr →
        (tr.adu = false → ask fun t w' => s.sameMem t ∧ w'.xl = tr :: w.xl ∧ (t.core w.core).tlb.head? = some tr ∧ (t.die die).ts.entries = [tr]) ∧
        (tr.adu = true → s.still = true → permFault tr access true = none →
          let e := s.read tr.leafPa 8
          let dirty := isWrite access && tr.w || bit e 10
          ask fun t w' => w'.xl = { tr with dirty := dirty } :: w.xl ∧
            t.read tr.leafPa 8 = e + (if bit e 9 then 0 else 2 ^ 9) + (if dirty && !bit e 10 then 2 ^ 10 else 0) ∧
            ∀ a, ¬(tr.leafPa ≤ a ∧ a < tr.leafPa + 8) → t.byte a = s.byte a)) ∧
      (∀ k l, (walk s die x.asid x.world va.toNat).1 = .fault k l → ask fun t w' => s.sameMem t ∧ w'.xl = w.xl ∧
        w'.xfail = { va := va.toNat, kind := k, access := access, level := l } :: w.xfail)) ∧
    (∀ at_ x access va, ts.refused = [(at_, x)] → x.reqs = [(u, access, va)] →
      (s.clock < at_ → exec (.tlbRequestReissue die x.id) s = .next s) ∧
      (at_ ≤ s.clock → (∀ y ∈ ts.walks ++ ts.missq, ¬(y.asid = s.waveAsid w ∧ y.page = va.toNat / 65536 % 2 ^ 41)) → ts.walks.length < 256 →
        Happens s (.tlbRequestReissue die x.id) fun t => s.sameMem t ∧ (t.die die).ts.refused = [] ∧ ∃ y, (t.die die).ts.walks = ts.walks ++ [y] ∧
          y.reqs = [(u, access, va)] ∧ y.asid = s.waveAsid w ∧ y.page = va.toNat / 65536 % 2 ^ 41)) ∧
    (∀ f asid fetch rest, ts.waiting = (f, asid, .wave u fetch) :: rest → w.wait = .faultQueue die →
      let num := freshNumber (ts.tokens.map (·.num))
      let at_ := queueAddr ts.fltbase ts.flthead
      (∀ x, ts.tokens.find? (fun x => x.asid == asid && x.page == f.va / 65536 % 2 ^ 41 && x.access == f.access) = some x →
        Happens s (.faultRecordDeferred die) fun t => s.sameMem t ∧ (t.die die).ts.waiting = rest ∧ (t.die die).ts.flthead = ts.flthead ∧
          ∃ w', t.wave u = some w' ∧ w'.wait = .fault die x.num) ∧
      ((∀ x ∈ ts.tokens, ¬(x.asid = asid ∧ x.page = f.va / 65536 % 2 ^ 41 ∧ x.access = f.access)) →
        (recordRoom ts = false → exec (.faultRecordDeferred die) s = .next s) ∧
        (recordRoom ts = true → s.still = true → Happens s (.faultRecordDeferred die) fun t => (t.die die).ts.waiting = rest ∧
          (∃ w', t.wave u = some w' ∧ w'.wait = .fault die num) ∧
          t.read at_ 32 = faultRecord f (agentInfo s asid (.wave u fetch)) num ts.fltphase ∧
          (∀ a, ¬(at_ ≤ a ∧ a < at_ + 32) → t.byte a = s.byte a) ∧
          ((t.die die).ts.flthead, (t.die die).ts.fltphase) = queueAdvance ts.fltbase ts.flthead ts.fltphase))) ∧
    ∀ token, (ts.tokens.find? (fun x => x.num == token) = none → ∀ i, i = Instr.faultRetry die token ∨ i = .faultTrap die token ∨
        i = .faultKill die token → Happens s i fun t => t.die die = { s.die die with ts := { ts with badresp := true } } ∧
          t = { s with dies := t.dies }) ∧
      ∀ x fetch, ts.tokens.find? (fun x => x.num == token) = some x → x.agents = [.wave u fetch] → w.wait = .fault die token →
        let left := ts.tokens.filter fun y => y.num != token
        (Happens s (.faultRetry die token) fun t => s.sameMem t ∧ (t.die die).ts.tokens = left ∧
          t.wave u = some { w with wait := .yielded, pend := none, xl := [], xfail := [] }) ∧
        (∀ p, w.pend = some p → w.late = [] → w.tr.handler = false → w.tr.tba ≠ 0 → Happens s (.faultTrap die token) fun t => s.sameMem t ∧
          (t.die die).ts.tokens = left ∧ ∃ w', t.wave u = some w' ∧ w'.pc = w.tr.tba ∧ w'.wait = .ready ∧ w'.tr.handler = true ∧ w'.tr.tpc = p.tpc ∧
            w'.tr.tcause.toNat % 256 = p.code % 256 ∧ w'.tr.tinfo0 = p.info0 ∧ w'.tr.tinfo1 = p.info1 ∧
            w'.tr.savedExec = w.execWords ∧ w'.regs = w.regs ∧ w'.sp = w.sp) ∧
        ∀ d, (s.sched.tasks.map (·.id)).Nodup → s.agentDispatch (.wave u fetch) = some d →
          (∀ y ∈ s.sched.tasks, y.disp = d → s.tooLate y = false) → Happens s (.faultKill die token) fun t =>
          (t.die die).ts.tokens = left ∧ ∀ y ∈ t.sched.tasks, y.disp = d → y.stage = .cancelled

/-- R35, R36, R44, R330: an invalidation that finds none in progress drops what it covers from the caches at once; a range that meets a
large page drops it whole; it is complete when no access that used a dropped translation is in flight, and the waves that wait for
it go on. A full queue takes no further command. -/
def Obligations.Invalidations : Prop :=
  (∀ (s : State) (die asid va count : Nat) (pkg : Bool),
    let dies := if pkg then [0, 1, 2, 3] else [die]
    let first := va / 65536 % 2 ^ 41
    let meets := fun (a n : Nat) => first < a + n ∧ a < first + max 1 count
    let began := fun (i : Instr) (kept : Tr → Prop) => (∀ d ∈ dies, (s.die d).ts.invals = []) →
      (∀ y ∈ s.dies, y.2.triggers = []) → Happens s i fun t => s.sameMem t ∧
      ∀ d ∈ dies, (t.die d).ts.invals.length = 1 ∧ (∀ x, x ∈ (t.die d).ts.entries ↔ x ∈ (s.die d).ts.entries ∧ kept x) ∧
        ((∀ y ∈ s.dies, y.2.fit.regions = []) → ∀ c, dieOf c = d → ∀ x, x ∈ (t.core c).tlb ↔ x ∈ (s.core c).tlb ∧ kept x)
    began (.invalidateAll die pkg) (fun _ => False) ∧
    began (.invalidateAsid die asid pkg) (fun x => x.asid ≠ asid) ∧
    began (.invalidateRange die asid va count pkg) (fun x => ¬(x.asid = asid ∧
      if x.large then meets (x.page / 8192 * 8192) 8192 else meets x.page 1)) ∧
    ((∃ d ∈ dies, 17 ≤ (s.die d).ts.invals.length) → exec (.invalidateAll die pkg) s = .next s ∧ exec (.invalidateAsid die asid pkg) s = .next s ∧
      exec (.invalidateRange die asid va count pkg) s = .next s)) ∧
  (∀ (s : State) (die : Nat) (i : Inval), (s.die die).ts.invals = [i] →
    (∀ c e, c ∈ s.cores → dieOf c.1 = die → e ∈ c.2.sb → i.covers e.asid e.page e.large = true → exec (.invalidationComplete die) s = .next s) ∧
    ((∀ c ∈ s.cores, c.2.sb = []) → (∀ x ∈ s.waves, x.2.late = [] ∧ x.2.entering = []) → (∀ d, d ≠ die → (s.die d).ts.invals = []) →
      Happens s (.invalidationComplete die) fun t => s.sameMem t ∧ (t.die die).ts.invals = [] ∧ ∀ v w, s.wave v = some w →
        t.wave v = some (if w.wait = .invalidation i.id then { w with wait := .yielded } else w))) ∧
  ∀ (s : State) (u : Nat) (w : Wave) (f : EF), Issues s u w (.tlbinv f) →
    let c := f.ctl.toNat
    (w.prog.stage ≠ 1 → w.core < 644 → (∀ d, (s.die d).ts.invals = []) → (∀ y ∈ s.dies, y.2.triggers = []) → ∃ t w' i, exec (.tlbinv f) s = .next t ∧ t.wave u = some w' ∧ w'.pc = w.pc ∧
      w.sameArch w' ∧ s.sameMem t ∧ w'.prog.stage = 1 ∧ w'.prog.x = i.id ∧ w'.wait = .invalidation i.id ∧
      (t.die (dieOf w.core)).ts.invals = [i] ∧ i.asid = c % 4096 ∧ i.all = bit c 12 ∧ i.pkg = bit c 13 ∧ i.range = (bit c 14 && !bit c 12) ∧
      i.page = (w.src64 f.a).toNat / 65536 % 2 ^ 41 ∧ i.count = (w.src f.b).toNat) ∧
    (w.prog.stage = 1 → (∀ d, d < 4 → ∀ i ∈ (s.die d).ts.invals, i.id ≠ w.prog.x) →
      Ends s u w (.tlbinv f) fun t w' => w.sameArch w' ∧ s.sameMem t)

/-- R328, R329: SYSCALL writes a service record and parks the wave; the answer to its token is its result, and it continues at the next
clause. With the queue full the record waits for room. -/
def Obligations.Services : Prop :=
  ∀ (s : State) (u : Nat) (w : Wave),
    let die := dieOf w.core
    let q := (s.die die).svc
    let num := freshNumber (q.tokens.map (·.1))
    let at_ := queueAddr q.base q.head
    let writes := fun (i : Instr) (code arg : Nat) => Happens s i fun t =>
      (∃ w', t.wave u = some w' ∧ w'.pc = w.pc ∧ w.sameArch w' ∧ w'.wait = .service die num ∧ w'.prog.stage = 1 ∧ w'.prog.x = num) ∧
      (t.die die).svc.tokens = q.tokens ++ [(num, u)] ∧ ((t.die die).svc.head, (t.die die).svc.phase) = queueAdvance q.base q.head q.phase ∧
      t.read at_ 32 = serviceRecord s w code arg num q.phase ∧ ∀ a, ¬(at_ ≤ a ∧ a < at_ + 32) → t.byte a = s.byte a
    (∀ f, Issues s u w (.syscall f) →
      (w.prog.stage = 0 → HeaderAt s w (w.pc + 8) → s.still = true → q.waiting = [] → queueFull q.base q.count = false →
        writes (.syscall f) (w.src f.a).toNat (w.src64 f.b).toNat) ∧
      (w.prog.stage = 0 → HeaderAt s w (w.pc + 8) → q.waiting = [] → queueFull q.base q.count = true →
        Happens s (.syscall f) fun t => s.sameMem t ∧ (t.die die).svc.waiting = [u] ∧ ∃ w', t.wave u = some w' ∧ w'.wait = .serviceQueue die ∧
          w'.prog.data = [(0, (w.src f.a).toNat), (1, (w.src64 f.b).toNat)]) ∧
      (w.prog.stage = 2 → Happens s (.syscall f) fun t => s.sameMem t ∧ ∃ w', t.wave u = some w' ∧ w'.pc = w.pc + 8 ∧ w'.clause.inside = false ∧
        w.onlyScalar w' f.d.toNat 2 fun j => (BitVec.ofNat 64 w.prog.y).extractLsb' (32 * j) 32)) ∧
    (s.wave u = some w →
      (∀ token, q.tokens.find? (fun t => t.1 == token) = none → exec (.serviceResponse die token) s = .next s) ∧
      (∀ token, q.tokens.find? (fun t => t.1 == token) = some (token, u) → w.prog.stage = 1 → w.wait = .service die token →
        Happens s (.serviceResponse die token) fun t => s.sameMem t ∧ (t.die die).svc.tokens = q.tokens.filter (fun x => x.1 != token) ∧
          t.wave u = some { w with wait := .yielded, prog := { w.prog with stage := 2, y := (s.die die).svcres.toNat } }) ∧
      ∀ rest, q.waiting = u :: rest → w.wait = .serviceQueue die →
        (queueFull q.base q.count = true → exec (.serviceRecordDeferred die) s = .next s) ∧
        ∀ code arg, queueFull q.base q.count = false → s.still = true → w.prog.data = [(0, code), (1, arg)] →
          writes (.serviceRecordDeferred die) code arg)

/-! ### The scheduler -/

/-- R324, R325: TASKQ, after its fence, appends the image to the ring of a queue of its world and rings it, or gives the status that says
why not: 1 a full ring, 2 a queue that is disabled or another world's. TASKSIG, after its fence, adds to a word of memory. Both
change no register but TASKQ's status. -/
def Obligations.TaskInstructions : Prop :=
  ∀ (s : State) (u : Nat) (w : Wave) (f : EF), w.group = none → w.joinHolds = false → w.late.any (·.reads) = false → s.remoteDone u = true →
    (s.core w.core).sb = [] → s.marked u w.cohort = true →
    (Issues s u w (.taskq f) → ∀ pa,
      let n := (w.src f.a).toNat
      let q := s.queue n
      let die := dieOf w.core
      let reach := fun (va access pa : Nat) => s.engineReaches die q.asid (q.who n) (va % 2 ^ 64) access pa
      let status := fun (x : Nat) (P : State → Prop) => Ends s u w (.taskq f) fun t w' =>
        w.onlyScalar w' f.d.toNat 1 (fun _ => BitVec.ofNat 32 x) ∧ P t
      n < 256 → w.base f.b % 128 = 0 → s.engineReaches die (s.waveAsid w) (s.waveWho w) (w.base f.b) 0 pa → s.poisoned pa 128 = false → s.readHeld pa 128 (some u) = false →
      (q.enabled = false ∨ q.world n ≠ s.waveWorld w → status 2 s.sameMem) ∧
      (∀ tailPa retPa, q.enabled = true → q.world n = s.waveWorld w → reach q.ringVa 2 tailPa → reach (q.ringVa + 96) 0 retPa →
        s.poisoned tailPa 8 = false → s.poisoned retPa 8 = false →
        let tail := s.read tailPa 8
        let used := (tail + 2 ^ 64 - s.read retPa 8) % 2 ^ 64
        (q.slotCount n ≤ used → status 1 s.sameMem) ∧
        (∀ slotPa, used < q.slotCount n → reach (q.ringVa + 128 + 128 * (tail % q.slotCount n)) 1 slotPa → s.still = true → status 0 fun t =>
          t.read tailPa 8 = (tail + 1) % 2 ^ 64 ∧ (t.queue n).bell = true ∧ ∀ a, ¬(tailPa ≤ a ∧ a < tailPa + 8) →
            t.byte a = if slotPa ≤ a ∧ a < slotPa + 128 then s.byte (pa + (a - slotPa)) else s.byte a))) ∧
    (Issues s u w (.tasksig f) → ∀ pa, Reaches s w (w.base f.b) 2 false 8 pa → s.poisoned pa 8 = false → s.still = true →
      (∀ x ∈ s.sched.tasks, x.stage ≠ .waiting) → Ends s u w (.tasksig f) fun t w' => w.sameArch w' ∧
        t.read pa 8 = (s.read pa 8 + (w.src64 f.a).toNat) % 2 ^ 64 ∧ ∀ a, ¬(pa ≤ a ∧ a < pa + 8) → t.byte a = s.byte a)

/-- R26, R335, R336, R339 to R341, R343, R344, R349, R450: a doorbell makes the front end read its ring, and it reads one slot at a time: the
descriptor becomes a task with the next dispatch number and HEAD moves on; reads of one clock go by ascending die. A dependence word is
read again until it reaches its value; a task whose dependences hold and whose need fits is admitted, in demand mode where the
reserve has no room, and its L2 ranges are then staged by every die; one whose address space no die serves is cancelled with status 2;
a STAGING task is READY at the latest after STAGELIM; a cancel cancels every task of a queue, but one whose last cohort retires in this
clock (log 61), and those that hold no storage are gone at once. -/
def Obligations.TaskAdmission : Prop :=
  (∀ (s : State) (n : Nat),
    let q := s.queue n
    let die := queueDie n
    let reach := fun (va access pa : Nat) => s.engineReaches die q.asid (q.who n) (va % 2 ^ 64) access pa
    (256 ≤ n → exec (.taskDoorbell n) s = .next s ∧ exec (.taskQueueCancel n) s = .next s) ∧
    (n < 256 → (s.sched.tasks.map (·.id)).Nodup → (∀ x ∈ s.sched.tasks, x.queue = n → s.tooLate x = true) →
      exec (.taskQueueCancel n) s = .next s) ∧
    (n < 256 → (s.sched.tasks.map (·.id)).Nodup → (∀ x ∈ s.sched.tasks, x.queue = n → s.tooLate x = false) → Happens s (.taskQueueCancel n) fun t =>
      (∀ x ∈ t.sched.tasks, x.queue = n → x.stage = .cancelled) ∧
      ((∀ x ∈ s.sched.tasks, x.queue = n → x.stage ≠ .cancelled) → s.cohorts = [] → (∀ c ∈ s.cores, c.2.clearing = []) →
        ∀ x ∈ t.sched.tasks, x.queue ≠ n)) ∧
    (q.enabled = false → exec (.taskDoorbell n) s = .next s ∧ exec (.taskRead n) s = .next s) ∧
    (n < 256 → q.enabled = true → Happens s (.taskDoorbell n) fun t => t.queue n = { q with bell := true }) ∧
    (∀ tailPa headPa, n ≤ 256 → q.bell = true → q.enabled = true → s.schedules = true → s.worldStopped (q.world n) = false →
      s.sched.tasks.length < 4096 → reach q.ringVa 0 tailPa → reach (q.ringVa + 64) 0 headPa → s.poisoned tailPa 8 = false →
      s.poisoned headPa 8 = false →
      (s.readOutOfTurn die = true → exec (.taskRead n) s = .next s) ∧ (s.readOutOfTurn die = false →
      let head := s.read headPa 8
      (s.read tailPa 8 ≤ head → Happens s (.taskRead n) fun t => s.sameMem t ∧ t.queue n = { q with bell := false } ∧
        t.sched.tasks = s.sched.tasks) ∧
      (∀ slotPa, head < s.read tailPa 8 → reach (q.ringVa + 128 + 128 * (head % q.slotCount n)) 0 slotPa → s.poisoned slotPa 128 = false →
        reach (q.ringVa + 64) 1 headPa → s.still = true →
        let d := s.read slotPa 128
        let home := if n = 256 then 160 else 0
        descMalformed d (q.world n) (n == 256) = false → (needOf d).within (coreHas home) = true →
        overlaps headPa 8 ((s.die 0).ts.asbase.toNat / 65536 % 2 ^ 36 * 65536) 65536 = false → s.dieServes 0 q.asid (q.world n) = true →
        descNdep d = 0 → descNws d = 0 → s.task (s.ids + 1) = none → Happens s (.taskRead n) fun t =>
          t.read headPa 8 = (head + 1) % 2 ^ 64 ∧ (∀ a, ¬(headPa ≤ a ∧ a < headPa + 8) → t.byte a = s.byte a) ∧
          (t.task (s.ids + 1)).map (fun x => (x.stage, x.deps, x.wset)) = some (.waiting, [], []) ∧
          t.sched.tasks.map (fun x => (x.desc, x.disp, x.queue, x.slotN)) =
            s.sched.tasks.map (fun x => (x.desc, x.disp, x.queue, x.slotN)) ++ [(d, s.sched.nextDisp, n, head)] ∧
          t.sched.nextDisp = if s.sched.nextDisp = 2 ^ 32 - 1 then 1 else s.sched.nextDisp + 1)))) ∧
  ∀ (s : State) (id : Nat) (x : Task), s.task id = some x →
    (x.stage ≠ .waiting → exec (.dependencePoll id) s = .next s ∧ exec (.admissionTest id) s = .next s) ∧
    (∀ e pa, x.stage = .waiting → x.deps = [e] → x.depsOk = [] → e / 2 ^ 64 % 2 ^ 64 ≠ 0 →
      s.engineReaches (queueDie x.queue) x.asid x.who (e % 2 ^ 64) 0 pa → s.poisoned pa 8 = false → s.snap.state ≠ 1 →
      s.unlocked = true → Happens s (.dependencePoll id) fun t => s.sameMem t ∧ t.task id = some { x with
        depsOk := if e / 2 ^ 64 % 2 ^ 64 ≤ s.read pa 8 then [0] else [] }) ∧
    (s.eligible x = true → s.worldStopped x.world = false → s.served x = false → Happens s (.admissionTest id) fun t =>
      ∀ y, t.task id = some y → y.stage = .cancelled ∧ y.status = 2) ∧
    (s.eligible x = true → s.worldStopped x.world = false → s.served x = true → s.fitHolds x = false → Happens s (.admissionTest id) fun t => s.sameMem t ∧
      t.task id = some { x with fitHeld := some (x.fitHeld.getD s.clock) }) ∧
    (∀ needs, s.eligible x = true → s.worldStopped x.world = false → s.served x = true → s.fitHolds x = true →
      (∀ y ∈ s.sched.tasks, descPrio y.desc < descPrio x.desc ∨ descPrio y.desc = descPrio x.desc ∧ x.order ≤ y.order) →
      s.l2Needs x = (needs, s) →
      let room := ∀ h ∈ needs, (s.die h.1).promised + h.2 ≤ s.reserve h.1
      Happens s (.admissionTest id) fun t => s.sameMem t ∧ ∃ y, t.task id = some y ∧ y.fitHeld = none ∧ (y.demand = true ↔ ¬room) ∧
        y.admitted = s.sched.order ∧ t.sched.order = s.sched.order + 1 ∧
        y.stage = (if x.l2Ranges = [] ∨ y.demand = true then .ready else .staging) ∧
        (y.stage = .staging → t.sched.staging.map (fun c => (c.task, c.range, c.cohort, c.die)) =
          s.sched.staging.map (fun c => (c.task, c.range, c.cohort, c.die)) ++
            x.l2Ranges.flatMap fun r => [0, 1, 2, 3].map fun d => (id, r, none, d)) ∧
        (¬room → t.sched.dem = (s.sched.dem + 1) % 2 ^ 32)) ∧
    (let due := x.stage = .staging ∧ x.entered + 2000 * max 1 s.sched.stagelim ≤ s.clock
     (¬due → exec (.stagingTimeout id) s = .next s) ∧
     (due → Happens s (.stagingTimeout id) fun t => s.sameMem t ∧ t.task id = some { x with stage := .ready, entered := s.clock }))

/-- R42, R59, R76, R77, R344, R346, R348: a staging copy, when its turn has come (and for an L2 range its group's), protects those of its L2 lines that its die homes, one
after another, and counts those for which protected lines hold every reserve way of the set; bytes of a SCRATCH range land in its
lines, but for those that a restored range passes over, and a line becomes FULL when the bytes of it that the range covers have landed
(log 62); a range that
faults is dropped and counted. -/
def Obligations.StagingCopies : Prop :=
  ∀ (s : State) (x : Staging) (y : Task), s.sched.staging.find? (fun z => z.id == x.id) = some x → s.task x.task = some y →
    s.worldStopped y.world = false →
    let va := (x.va + x.done) % 2 ^ 64
    let reach := fun (pa : Nat) => s.engineReaches x.die y.asid y.who va 0 pa
    (s.stagingTurn x = false → ∀ n, exec (.l2StagingFill x.id n) s = .next s ∧ exec (.stagingLanding x.id n) s = .next s) ∧
    (s.stagingTurn x = true →
    (x.cohort = none → s.groupTurn x.die false = false → ∀ n, exec (.l2StagingFill x.id n) s = .next s) ∧
    let left := fun (t : State) (n : Nat) => if x.done + n < x.len then t.sched.staging.find? (fun z => z.id == x.id) = some { x with done := x.done + n }
      else ∀ z ∈ t.sched.staging, z.id ≠ x.id
    (∀ line, x.cohort = none → s.groupTurn x.die false = true → x.done = (if line = 0 then 0 else 64 * line - x.va % 64) →
      let n := min (x.len - x.done) (64 - va % 64)
      (∀ pa, reach pa →
        let l2 := (s.die x.die).l2
        let full := min 4 (l2.stgres % 8) ≤ s.protectedBeside pa ∧ ∀ p ∈ l2.prot, p.1 ≠ pa / 64
        Happens s (.l2StagingFill x.id line) fun t => s.sameMem t ∧ left t n ∧ (∀ d, d ≠ x.die → (t.die d).l2 = (s.die d).l2) ∧
          (homeDie pa ≠ x.die → (t.die x.die).l2 = l2) ∧
          (homeDie pa = x.die → full → (t.die x.die).l2 = { l2 with stgdrop := (l2.stgdrop + 1) % 2 ^ 32 }) ∧
          (homeDie pa = x.die → ¬full → y.protects = true → (pa / 64, y.id) ∈ (t.die x.die).l2.prot)) ∧
      (canonical va = false → Happens s (.l2StagingFill x.id line) fun t => s.sameMem t ∧
        (∀ z ∈ t.sched.staging, ¬(z.task = x.task ∧ z.range = x.range ∧ z.cohort = none)) ∧
        (t.die x.die).ts.stgdrop = ((s.die x.die).ts.stgdrop + 1) % 2 ^ 32)) ∧
    ∀ cid k bytes, x.cohort = some cid → s.cohort cid = some k → x.parked = false →
      let n := min (min bytes (x.len - x.done)) (65536 - va % 65536)
      let a := x.soff + x.done
      0 < n →
      (∀ pa, reach pa → s.poisoned pa n = false → s.snap.state ≠ 1 → s.unlocked = true → Happens s (.stagingLanding x.id bytes) fun t => s.sameMem t ∧ left t n ∧
        ∃ k', t.cohort cid = some k' ∧
          (∀ b, mapGet 0 k'.scratch b = if a ≤ b ∧ b < a + n ∧ b / 128 ∉ x.skip then s.byte (pa + (b - a)) else mapGet 0 k.scratch b) ∧
          (∀ l, l ∈ k'.empty → l ∈ k.empty) ∧
          ∀ l, l ∉ x.skip → (∃ b, a ≤ b ∧ b < a + n ∧ b / 128 = l) → min (x.soff + x.len) (128 * l + 128) ≤ a + n →
            l ∉ k'.empty ∧ l ∉ k'.stagePend) ∧
      (canonical va = false → x.demandClass = false → Happens s (.stagingLanding x.id bytes) fun t => s.sameMem t ∧
        (t.die x.die).ts.stgdrop = ((s.die x.die).ts.stgdrop + 1) % 2 ^ 32 ∧
        t.sched.staging.find? (fun z => z.id == x.id) = some { x with demandClass := true }) ∧
      (canonical va = false → x.demandClass = true → Happens s (.stagingLanding x.id bytes) fun t => s.sameMem t ∧
        (∀ z ∈ t.sched.staging, z.id ≠ x.id) ∧ ∃ k', t.cohort cid = some k' ∧ k'.scratch = k.scratch ∧ k'.empty = k.empty))

/-- R26, R46 to R48, R58, R71, R155, R157, R340, R342, R347 to R349: the cohort of a task that comes next is placed whole on cores that have its storage, on the die
chosen for it, every wave at the code address with its registers as placement gives them; it retires when all its waves have ended and
no copy command uses its scratchpad (one of a cancelled task when its stores have drained and its operations are done), and its task
ends with the last one: the status word and the completion timeline are written; a task that is being saved is admitted again. What a
cohort held is cleared before it is free, and a cancelled task ends when that is done; a segment changes its role only when its old
role allows, loses its way's lines, and serves as CACHE or OFF at once; converted to SCRATCH or FIFO it keeps its old role until a
cohort takes it (log 65, DESIGN CHOICE). Which lines of a cohort's sources count as present, and the core within the die, are log 61. -/
def Obligations.Placement : Prop :=
  (∀ (s : State) (id index core : Nat) (x : Task) (cs : List Nat), s.task id = some x → s.canPlace x core = some cs → x.saved = [] →
    s.served x = true → s.chosenDie x index = (some (dieOf core), s) →
    (∀ next, s.nextCohort x = (next, s) → next ≠ some index → exec (.cohortPlace id index core) s = .next s) ∧
    (s.nextCohort x = (some index, s) → Happens s (.cohortPlace id index core) fun t => s.sameMem t ∧
      (t.task id).map (·.placed) = some (insNat index x.placed) ∧
      (t.task id).map (·.stage) = some (if descTotal x.desc ≤ (insNat index x.placed).length then .running else .placing) ∧
      ∃ k, t.cohort (s.ids + 1) = some k ∧ k.task = id ∧ k.index = index ∧ k.world = x.world ∧
        k.asid = x.asid ∧ k.waves.length = (needOf x.desc).waves * cs.length ∧ k.ended = [] ∧ k.empty = x.stagedLines ∧ k.stagePend = x.stagedLines ∧
        k.scratch = [] ∧ k.cx + (descDims x.desc).1 * (k.cy + (descDims x.desc).2.1 * k.cz) = index ∧
        ∀ u ∈ k.waves, ∃ w, t.wave u = some w ∧ w.cohort = s.ids + 1 ∧ w.core ∈ cs ∧ w.pc.toNat = descCode x.desc ∧ w.tr.tba.toNat = descTrap x.desc / 8 * 8 ∧
          w.s64 0 = x.slotVa ∧ w.k = descK x.desc ∧ w.nv = descVr x.desc ∧ (∀ j, j < w.k → w.execWord j = 0xFFFFFFFF ∧ w.liveWord j = 0xFFFFFFFF) ∧
          (∀ r, 2 ≤ r → r < 96 → w.s r = 0) ∧ (∀ r i, w.v r i = 0) ∧ w.wait = .ready)) ∧
  (∀ (s : State) (id index core : Nat) (x : Task), s.task id = some x → x.stage = .ready ∨ x.stage = .placing → s.served x = false →
    Happens s (.cohortPlace id index core) fun t => ∀ y, t.task id = some y → y.stage = .cancelled ∧ y.status = 2) ∧
  (∀ (s : State) (cid : Nat) (c : Cohort) (x : Task), s.cohort cid = some c → s.task c.task = some x →
    (x.stage = .cancelled → (s.cohortOver cid c = false ∨ s.storageHeld cid c = true → exec (.cohortRetire cid) s = .next s) ∧
      (s.cohortOver cid c = true → s.storageHeld cid c = false → Happens s (.cohortRetire cid) fun t => t.cohort cid = none ∧
        ∀ y, t.task c.task = some y → y.retired = x.retired + 1)) ∧
    (x.stage ≠ .cancelled → c.ended.length < c.nwaves → exec (.cohortRetire cid) s = .next s) ∧
    (x.stage ≠ .cancelled → ∀ y ∈ s.sched.copies, y.cohort = cid → y.usesScratch = true → exec (.cohortRetire cid) s = .next s) ∧
    (x.stage ≠ .cancelled → (∀ y ∈ s.sched.copies, y.cohort = cid → y.usesScratch = false) →
    (c.nwaves ≤ c.ended.length → x.retired + 1 < descTotal x.desc → x.saving = false → Happens s (.cohortRetire cid) fun t => s.sameMem t ∧
      t.cohort cid = none ∧ (t.task c.task).map (·.retired) = some (x.retired + 1)) ∧
    (c.nwaves ≤ c.ended.length → x.retired + 1 < descTotal x.desc → x.saving = true → (∀ k ∈ s.cohorts, k.2.task = c.task → k.1 = cid) →
      Happens s (.cohortRetire cid) fun t => s.sameMem t ∧ t.cohort cid = none ∧ ∃ y, t.task c.task = some y ∧ y.saving = false ∧
        (y.stage = .ready ∨ y.stage = .staging)) ∧
    (c.nwaves ≤ c.ended.length → descTotal x.desc ≤ x.retired + 1 → x.saved = [] → x.id = c.task → (s.queue x.queue).slots = [] →
      let tl := x.desc / 2 ^ 448 % 2 ^ 64
      let ends := fun (t : State) => t.cohort cid = none ∧ (∀ y ∈ t.sched.tasks, y.id ≠ c.task) ∧ (t.queue x.queue).last = 0
      (tl = 0 → Happens s (.cohortRetire cid) fun t => ends t ∧ s.sameMem t) ∧
      (∀ pa1 pa2, tl ≠ 0 → tl % 16 = 0 → s.engineReaches (queueDie x.queue) x.asid x.who ((tl + 8) % 2 ^ 64) 1 pa2 →
        s.engineReaches (queueDie x.queue) x.asid x.who tl 1 pa1 → overlaps pa1 8 pa2 8 = false → s.poisoned pa1 8 = false →
        s.poisoned pa2 8 = false → s.still = true →
        Happens s (.cohortRetire cid) fun t => ends t ∧ t.read pa2 8 = 0 ∧
          t.read pa1 8 = (s.read pa1 8 + x.desc / 2 ^ 512 % 2 ^ 64) % 2 ^ 64 ∧
          ∀ a, ¬(pa1 ≤ a ∧ a < pa1 + 8) → ¬(pa2 ≤ a ∧ a < pa2 + 8) → t.byte a = s.byte a)))) ∧
  (∀ (s : State) (core item : Nat) (x : Clearing), (s.core core).clearing.find? (fun y => y.id == item) = some x →
    (s.clock < x.ready → exec (.storageClearComplete core item) s = .next s) ∧
    (∀ y, x.ready ≤ s.clock → s.task x.task = some y → y.stage = .cancelled → (∀ c ∈ s.cohorts, c.2.task ≠ x.task) →
      s.cores.Pairwise (fun a b => a.1 < b.1) → (∀ c ∈ s.cores, ∀ z ∈ c.2.clearing, z.task = x.task → c.1 = core ∧ z.id = item) →
      y.desc / 2 ^ 448 % 2 ^ 64 = 0 → Happens s (.storageClearComplete core item) fun t => t.task x.task = none ∧
        (t.queue y.queue).last = y.status) ∧
    (x.ready ≤ s.clock → (∀ y, s.task x.task = some y → y.stage ≠ .cancelled) → Happens s (.storageClearComplete core item) fun t => s.sameMem t ∧
      (t.core core).clearing = (s.core core).clearing.filter (fun y => y.id != item) ∧ ∀ c, c ≠ core → t.core c = s.core c)) ∧
  ∀ (s : State) (core j : Nat) (role : Role),
    let g := fun (t : State) => mapGet Segment.reset (t.core core).segs j
    let old := (g s).role
    let free := ((g s).next = none ∨ (g s).converted = true) ∧ (g s).clearing = false ∧ (old ≠ role ∨ (g s).converted = true) ∧
      (old = .scratch ∨ old = .fifo → (g s).blocks = [] ∧ (role = .cache ∨ role = .off))
    (core ≠ 160 → j < 16 → free → Happens s (.segmentConvert core j role) fun t => s.sameMem t ∧ (g t).role = old ∧ (g t).next = some role ∧
      (g t).converted = false ∧ (t.core core).l1 = (s.core core).l1 ∧ (g t).ready = if old = .off then s.clock + 2000 else s.clock) ∧
    (¬free → exec (.segmentConvert core j role) s = .next s) ∧
    ((g s).next = some role → (g s).blocks = [] → ((g s).ready ≤ s.clock → Happens s (.segmentConversionComplete core j) fun t => s.sameMem t ∧
        (∀ x ∈ (t.core core).l1, x.way ≠ j) ∧ (role = .cache ∨ role = .off → (g t).role = role ∧ (g t).next = none) ∧
        (role = .scratch ∨ role = .fifo → (g t).role = old ∧ (g t).next = some role ∧ (g t).converted = true)) ∧ (s.clock < (g s).ready → exec (.segmentConversionComplete core j) s = .next s))

/-- R176, R348, R349, R389, R391 to R394, R398: a wave that has waited 100 µs may be pre-empted; a task that storage keeps waiting has one
of lower priority pre-empted, whose cohort is saved and leaves its core; a saved cohort comes back with its waves' registers. DBGSTOP
holds a dispatch that is not confidential until DBGGO. A machine check is answered by a retry at the restart point, by
PIPELINE_ERROR there, or by the cancel of the dispatch; a deferred record is written when there is room. -/
def Obligations.Preemption : Prop :=
  (∀ (s : State) (u : Nat) (w : Wave), s.wave u = some w → s.beingSaved w = false →
    let long := w.counts100 (s.cohort w.cohort) = true ∧ w.waitSince + 200000 < s.clock
    (¬long → exec (.waitTimeout100us u) s = .next s) ∧
    (long → w.preemptible = false → Happens s (.waitTimeout100us u) fun t => t = s.setWave u { w with preemptible := true })) ∧
  (∀ (s : State) (a b c : Nat) (x v : Task), s.task a = some x → s.task b = some v → v.saving = false →
    let due := s.sched.preempt = true ∧ x.stage = .waiting ∧ descPrio v.desc < descPrio x.desc ∧ v.queue ≠ 256 ∧
      ∃ at_, x.fitHeld = some at_ ∧ at_ + 2000 * s.sched.preemptlim ≤ s.clock
    (¬due → exec (.preemptLimitExpiry a b) s = .next s) ∧
    (due → s.cohortsOf b = [] ∨ s.poolRoom b = false → exec (.preemptLimitExpiry a b) s = .next s) ∧
    (due → s.cohortsOf b = [c] → s.poolRoom b = true →
      let s1 := ({ s with sched := { s.sched with staging := s.sched.staging.filter fun y => y.task != b } }.endProtection v).updTask b
        fun y => { y with saving := true }
      (s1.saveCohort c).isSome = true → (s.cohort c).map (·.task) = some b → Happens s (.preemptLimitExpiry a b) fun t => t.cohort c = none ∧
        t.sched.pre = (s.sched.pre + 1) % 2 ^ 32 ∧ ∃ y, t.task b = some y ∧ y.saving = false ∧ y.saved.length = v.saved.length + 1 ∧
          (y.stage = .ready ∨ y.stage = .staging) ∧ ∀ z ∈ t.sched.staging, z.task = b → z.cohort = none)) ∧
  (∀ (s : State) (x : Task) (i core : Nat) (y : Saved) (cs : List Nat), s.sched.tasks.find? (fun t => t.saved.any fun z => z.id == i) = some x →
    x.saved.find? (fun z => z.id == i) = some y → s.canPlace x core = some cs → s.task x.id = some x →
    s.nextCohort x = (some y.cohort.index, s) → s.chosenDie x y.cohort.index = (some (dieOf core), s) →
    (s.imageVerifies y x.disp = false → Happens s (.cohortRestore i core) fun t => (∀ z, t.task x.id = some z → z.stage = .cancelled ∧ z.status = 5) ∧
      (y.cohort.world, 1) ∈ t.trust.notices) ∧
    (s.imageVerifies y x.disp = true → (∀ w ∈ y.waves ++ s.waves, w.2.pend = none ∧ ∀ l ∈ w.2.late, l.kind ≠ .future) → Happens s (.cohortRestore i core) fun t => s.sameMem t ∧
      (∃ z, t.task x.id = some z ∧ z.saved = x.saved.filter (fun z => z.id != i) ∧ (z.stage = .running ∨ z.stage = .placing)) ∧
      (∀ p ∈ (t.die y.die).poolUsed, p.2 ≠ i) ∧ ∃ k, t.cohort i = some k ∧ k.task = y.cohort.task ∧ k.core ∈ cs)) ∧
  (∀ (s : State) (d : Nat) (x : Task), s.sched.tasks.find? (fun t => t.disp == d) = some x → s.task x.id = some x →
    (2 ≤ x.world → exec (.debugStop d) s = .next s) ∧
    (x.world < 2 → Happens s (.debugStop d) fun t => (t.task x.id).map (·.held) = some true) ∧
    Happens s (.debugGo d) fun t => t.task x.id = some { x with held := false } ∧ s.sameMem t) ∧
  ∀ (s : State) (die token u : Nat) (w : Wave),
    let q := (s.die die).mc
    let num := freshNumber (q.tokens.map (·.1))
    let at_ := queueAddr q.base q.head
    (q.tokens.find? (fun t => t.1 == token) = none →
      ∀ i, i = Instr.mcRetry die token ∨ i = .mcTrap die token ∨ i = .mcKill die token → exec i s = .next s) ∧
    (q.tokens.find? (fun t => t.1 == token) = some (token, u) → u ≠ 0 → s.wave u = some w → w.wait = .machineCheck die token →
      let left := fun (t : State) => (t.die die).mc.tokens = q.tokens.filter fun x => x.1 != token
      (Happens s (.mcRetry die token) fun t => left t ∧ t.wave u = some { w with wait := .yielded, retry := 0, prog := Progress.none }) ∧
      (w.prog.y = 0 → w.late = [] → w.tr.handler = false → w.tr.tba ≠ 0 → Happens s (.mcTrap die token) fun t => left t ∧
        ∃ w', t.wave u = some w' ∧ w'.pc = w.tr.tba ∧ w'.tr.handler = true ∧ w'.tr.tpc = w.restart ∧ w'.tr.tcause.toNat % 256 = 19 ∧
          w'.tr.tinfo0 = BitVec.ofNat 64 w.prog.x ∧ w'.regs = w.regs) ∧
      ∀ d, (s.sched.tasks.map (·.id)).Nodup → s.agentDispatch (.wave u false) = some d →
        (∀ y ∈ s.sched.tasks, y.disp = d → s.tooLate y = false) → Happens s (.mcKill die token) fun t => left t ∧
        ∀ y ∈ t.sched.tasks, y.disp = d → y.stage = .cancelled) ∧
    ∀ rest, q.waiting = u :: rest → u ≠ 0 → s.wave u = some w → w.wait = .machineCheckQueue die →
      (queueFull q.base q.count = true → exec (.mcRecordDeferred die) s = .next s) ∧
      (queueFull q.base q.count = false → s.still = true → Happens s (.mcRecordDeferred die) fun t =>
        (t.die die).mc.waiting = rest ∧ (t.die die).mc.tokens = q.tokens ++ [(num, u)] ∧
        t.read at_ 32 = machineCheckRecord s u w.prog.x num w.restart q.phase ∧ (∀ a, ¬(at_ ≤ a ∧ a < at_ + 32) → t.byte a = s.byte a) ∧
        ∃ w', t.wave u = some w' ∧ w'.wait = .machineCheck die num ∧ w.sameArch w')

/-! ### Boot, attestation and worlds -/

/-- R10, R399 to R402, R416, R423, R446: a reset clears the package but for host memory and what is built into it, and boots it: the images are verified in order, each
extends its slot before it starts, slot 1 has the fuse and strap summary and slot 7 the list of SVNs; the first that fails halts the
boot with its error. A halted package boots again when TRCTL.RETRY has asked for it and the recovery image stands at TRRECOV. A loss of
supplies leaves nothing. The trust queue has its own doorbell and cancel. What a reset keeps and does not keep beside the spec's values is
log 46 (DEDUCED), as is that device memory then reads zero (with log 3); the LPDDR population is log 2 (DESIGN CHOICE), how images come to
a boot log 36, and which cancels come too late log 61. -/
def Obligations.Boot : Prop :=
  ∀ (s : State),
    let cleared := fun (t : State) => t.waves = [] ∧ t.cohorts = [] ∧ t.cores = [] ∧ t.dies = [] ∧ t.fabric = Fabric.reset ∧ t.sched = Sched.reset ∧
      t.snap = Snap.reset ∧ t.poison = [] ∧ t.fempty = [] ∧ t.trust.worlds = [] ∧ t.trust.ifaces = [] ∧
      t.trust.keys = [] ∧ t.power.temp = 0 ∧ t.lpddr = s.lpddr ∧ (∀ a, isHost a = false → t.byte a = memReset a) ∧ (s.memOk → ∀ a, isHost a = true → t.byte a = s.byte a)
    let ext := fun (x : BitVec 256) (d : List Byte) => BitVec.ofNat 256 (leNat (sha256 (natLe 32 x.toNat ++ d)))
    let booted := fun (images : List BootImage) (t : State) => t.trust.stage = 3 ∧ t.trust.err = 0 ∧ t.doe.queued = true ∧
      (∀ k i, k < 6 → images[k]? = some i → mapGet 0 t.trust.slots (if k = 0 then 0 else k + 1) = ext 0 (sha256 (i.header ++ i.body))) ∧
      mapGet 0 t.trust.slots 1 = ext 0 (sha256 (s.trust.straps.take 64)) ∧ mapGet 0 t.trust.slots 7 = ext 0 (sha256 (svnList images)) ∧
      ∀ n, 8 ≤ n → mapGet 0 t.trust.slots n = 0
    let verified := fun (images : List BootImage) => images.length = 6 ∧ ∀ i ∈ images, s.imageError i = 0
    (∀ images, Happens s (.packageReset images) fun t => cleared t ∧ t.power.cxl = s.power.strap ∧
      (s.trust.selfTest = false → t.trust.stage = 15 ∧ t.trust.err = 4) ∧
      (s.trust.selfTest = true → verified images → booted images t) ∧
      ∀ n i, s.trust.selfTest = true → n < 6 → images[n]? = some i → (∀ k j, k < n → images[k]? = some j → s.imageError j = 0) →
        s.imageError i ≠ 0 → t.trust.stage = 15 ∧ t.trust.err = s.imageError i) ∧
    (∀ images, s.trust.stage ≠ 15 ∨ s.trust.retry = false ∨ (∀ i ∈ images.take 6, i.header.length = 64 → s.holdsImage s.trust.recov.toNat i = false) →
      exec (.bootRetry images) s = .next s) ∧
    (∀ images, s.trust.stage = 15 → s.trust.retry = true → (∃ i ∈ images.take 6, i.header.length = 64 ∧ s.holdsImage s.trust.recov.toNat i = true) →
      s.trust.selfTest = true → verified images → Happens s (.bootRetry images) fun t => s.sameMem t ∧ booted images t) ∧
    (Happens s .supplyLoss fun t => cleared t ∧ t.power.powered = false) ∧
    ((s.queue 256).enabled = false → exec .trustQueueDoorbell s = .next s) ∧
    ((s.queue 256).enabled = true → Happens s .trustQueueDoorbell fun t => t.queue 256 = { s.queue 256 with bell := true }) ∧
    ((s.sched.tasks.map (·.id)).Nodup → (∀ x ∈ s.sched.tasks, x.queue = 256 → s.tooLate x = false) → Happens s .trustQueueCancel fun t => ∀ x ∈ t.sched.tasks, x.queue = 256 → x.stage = .cancelled)

/-- R403, R442: a request reaches RQ padded to 64 bytes when no other is being answered, waits when one is, and is answered by the
mailbox itself when it is too long. A response is handed to the host, unless the host has aborted. R403, R445 to R448: the
responder checks code, version, state and fields in this order and answers the first that fails with its ERROR, which changes
neither the state nor the transcript; a request that passes gets its response, its new state, and its place in the transcript,
which is cut back after a signature. That a transcript of more than 8 KiB is cut back before a CHALLENGE too is log 43 (DEDUCED); that a
buffer outside memory takes no request is log 72, and how the responder comes to answer log 89. -/
def Obligations.Attestation : Prop :=
  (∀ (s : State),
    let d := s.doe
    (∀ r, 16384 < r.length → Happens s (.doeRequest r) fun t => t = { s with doe := { d with answers := d.answers ++ [[0x13, 0x7F, 0x01, 0x00]] } }) ∧
    (∀ r, r.length ≤ 16384 → d.busy = true → Happens s (.doeRequest r) fun t => t = { s with doe := { d with waiting := d.waiting ++ [r] } }) ∧
    (∀ r, r.length ≤ 16384 → d.busy = false →
      let n := (r.length + 63) / 64 * 64
      let passed : Doe := { d with len := r.length, valid := true, busy := true, taken := r.length }
      (s.backedMem d.rq n = false → exec (.doeRequest r) s = .next { s with doe := passed }) ∧
      (s.backedMem d.rq n = true → s.still = true → Happens s (.doeRequest r) fun t => t.doe = passed ∧
        ∀ a, t.byte a = if d.rq ≤ a ∧ a < d.rq + n then nth 0 r (a - d.rq) else s.byte a)) ∧
    (Happens s .doeAbort fun t => t = { s with doe := { d with aborted := d.busy } }) ∧
    (d.busy = false → ∀ n, exec (.doeResponse n) s = .next s) ∧
    ∀ n, d.busy = true → d.waiting = [] → s.trust.extensions = [] → n ≤ 16384 → s.backedMem d.rs n = true → Happens s (.doeResponse n) fun t =>
      s.sameMem t ∧ t.doe.answers = (if d.aborted then d.answers else d.answers ++ [s.bytes d.rs n]) ∧ t.doe.busy = false ∧ t.doe.aborted = false ∧
        t.doe.len = d.len ∧ t.doe.valid = d.valid) ∧
  (∀ (s : State), s.replies → s.answers = true →
    let d := s.doe
    let q := s.request
    let answers := fun (i : Instr) (r : List Byte) (P : State → Prop) => Happens s i fun t => t.doe.answers = d.answers ++ [r] ∧ t.doe.busy = false ∧ t.doe.valid = false ∧
      t.doe.len = 0 ∧ P t
    let error := fun (i : Instr) (code : Byte) => answers i [0x13, 0x7F, code, 0] fun t => t.doe.conn = d.conn ∧ t.doe.transcript = d.transcript ∧
      t.doe.challenged = d.challenged
    let noted := fun (r : List Byte) => (if 8192 < d.transcript.length then d.transcript.take d.vca else d.transcript) ++ q ++ r
    let adds := fun (i : Instr) (r : List Byte) (conn : Nat) => answers i r fun t => t.doe.conn = conn ∧ t.doe.transcript = noted r
    let table : List (Instr × Nat × List Nat) := [(.spdmGetVersion, 0x84, []), (.spdmGetCapabilities, 0xE1, [1]), (.spdmNegotiateAlgorithms, 0xE3, [2]),
      (.spdmGetDigests, 0x81, [3, 4]), (.spdmGetCertificate, 0x82, [3, 4]), (.spdmChallenge, 0x83, [4]), (.spdmGetMeasurements, 0xE0, [4])]
    (∀ x ∈ table, s.rqByte 1 = x.2.1 → (s.trust.stage = 15 → error x.1 5) ∧
      (s.trust.stage = 3 → x.2.1 ≠ 0x84 → (s.rqByte 0 ≠ 0x13 → error x.1 0x41) ∧ (s.rqByte 0 = 0x13 → d.conn ∉ x.2.2 → error x.1 4))) ∧
    ((∀ x ∈ table, s.rqByte 1 ≠ x.2.1) → s.isVendor = false → (s.trust.stage = 3 → error .spdmUnsupportedRequest 7) ∧
      (s.trust.stage = 15 → error .spdmUnsupportedRequest 5)) ∧
    (s.trust.stage = 3 → s.rqByte 1 = 0x84 → answers .spdmGetVersion [0x10, 0x04, 0, 0, 0, 1, 0, 0x13] fun t => t.doe.conn = 1 ∧
      t.doe.transcript = q ++ [0x10, 0x04, 0, 0, 0, 1, 0, 0x13] ∧ t.doe.challenged = false) ∧
    (s.trust.stage = 3 → s.rqByte 0 = 0x13 →
      let code := s.rqByte 1
      (code = 0xE1 → d.conn = 1 → adds .spdmGetCapabilities [0x13, 0x61, 0, 0, 0, 17, 0, 0, 0x16, 0, 0, 0, 0, 0x40, 0, 0, 0, 0x40, 0, 0] 2) ∧
      (code = 0xE3 → d.conn = 2 → let asym := s.rqByte 28 != 0 && s.rqBytes 32 4 == [3, 0, 1, 0]
        answers .spdmNegotiateAlgorithms (algorithms asym) fun t => t.doe.conn = (if asym then 4 else 3) ∧
          t.doe.transcript = noted (algorithms asym) ∧ t.doe.vca = t.doe.transcript.length) ∧
      (code = 0x81 → d.conn = 3 ∨ d.conn = 4 → adds .spdmGetDigests ([0x13, 1, 1, 1] ++ sha256 d.chain) d.conn) ∧
      (code = 0x82 → d.conn = 3 ∨ d.conn = 4 →
        let off := leNat (s.rqBytes 4 2)
        let n := min (leNat (s.rqBytes 6 2)) (d.chain.length - off)
        (s.rqByte 2 ≠ 0 ∨ d.chain.length ≤ off → error .spdmGetCertificate 1) ∧
        (s.rqByte 2 = 0 → off < d.chain.length → n ≤ 16376 → adds .spdmGetCertificate ([0x13, 2, 0, 0] ++ natLe 2 n ++
          natLe 2 (d.chain.length - off - n) ++ (d.chain.drop off).take n) d.conn)) ∧
      (code = 0x83 → d.conn = 4 → let x := s.rqByte 3
        (s.rqByte 2 ≠ 0 ∨ x ≠ 0 ∧ x ≠ 1 ∧ x ≠ 255 → error .spdmChallenge 1) ∧
        (s.rqByte 2 = 0 → x = 0 ∨ x = 1 ∨ x = 255 → ∃ nonce : List Byte, nonce.length = 32 ∧
          let r := [0x13, 3, 0, 1] ++ sha256 d.chain ++ nonce ++ (if x = 1 then sha256 (s.measBlocks 1 8) else if x = 255 then sha256 (s.measBlocks 1 16) else []) ++
            [0, 0] ++ s.rqBytes 36 8
          answers .spdmChallenge (r ++ slhSignature ((s.signKey 0).getD []) (signPrefix challengeContext ++ sha256 (noted r))) fun t =>
            t.doe.conn = 4 ∧ t.doe.challenged = true ∧ t.doe.transcript = (noted r).take d.vca)) ∧
      (code = 0xE0 → d.conn = 4 → let x := s.rqByte 3
        (s.rqByte 2 ≠ 1 ∨ s.rqByte 36 ≠ 0 ∨ 16 < x ∧ x ≠ 255 → error .spdmGetMeasurements 1) ∧
        (s.rqByte 2 = 1 → s.rqByte 36 = 0 → x ≤ 16 ∨ x = 255 → ∃ nonce : List Byte, nonce.length = 32 ∧
          let blocks := if x = 0 then [] else if x = 255 then s.measBlocks 1 16 else s.measBlock x
          let r := [0x13, 0x60, if x = 0 then 0x10 else 0, 0, if x = 0 then 0 else if x = 255 then 16 else 1] ++ natLe 3 blocks.length ++ blocks ++ nonce ++
            [0, 0] ++ s.rqBytes 37 8
          let cut := d.transcript.take d.vca
          let log := (if 8192 < cut.length then cut.take d.vca else cut) ++ q ++ r
          answers .spdmGetMeasurements (r ++ slhSignature ((s.signKey 0).getD []) (signPrefix measurementContext ++ sha256 log)) fun t =>
            t.doe.conn = 4 ∧ t.doe.transcript = log.take d.vca))))

/-- R404, R405, R407, R411, R414: a vendor-defined request before a CHALLENGE is refused with UnexpectedRequest and has no effect. After it,
key requests program, start and stop a stream; an unlocked interface locks and is given a world, a locked one starts, and a stopped one
has its worlds cleared, while which no request changes it; the others read. The code and registry place of the requests are the family's,
and the layout of the answers is the model's free value (log 9). -/
def Obligations.InterfaceRequests : Prop :=
  ∀ (s : State) (n : Nat), s.replies → s.answers = true → s.trust.stage = 3 → s.rqByte 0 = 0x13 →
    s.isVendor = true →
    let q := s.request
    let x := Config.vendorStream q
    let all := [Instr.ideKmQuery, .ideKmKeyProg, .ideKmKSetGo, .ideKmKSetStop, .tdispGetVersion, .tdispGetCapabilities, .lockInterface n,
      .getDeviceInterfaceReport n, .getDeviceInterfaceState n, .startInterface n, .stopInterface n]
    let does := fun (i : Instr) (more : List Byte) (P : State → Prop) => s.doe.challenged = true → Happens s i fun t =>
      t.doe.answers = s.doe.answers ++ [(Config.vendorResponse q ++ more).take 16384] ∧ t.doe.busy = false ∧ P t
    let keeps := fun (t : State) => t.trust = s.trust
    (∀ i ∈ all, s.doe.challenged = false → Happens s i fun t => t.doe.answers = s.doe.answers ++ [[0x13, 0x7F, 4, 0]] ∧ t.trust = s.trust) ∧
    does .ideKmQuery [] keeps ∧ does .tdispGetVersion [] keeps ∧ does .tdispGetCapabilities [] keeps ∧
    does (.getDeviceInterfaceReport n) (Config.interfaceReport n) keeps ∧
    does (.getDeviceInterfaceState n) [match s.iface n with
      | .unlocked => 0
      | .locked => 1
      | .run => 2
      | .error => 3] keeps ∧
    does .ideKmKeyProg [] (fun t => t.trust = { s.trust with ideKeys := insNat x s.trust.ideKeys }) ∧
    does .ideKmKSetGo [] (fun t => t.trust = { s.trust with ideLive := if x ∈ s.trust.ideKeys then insNat x s.trust.ideLive else s.trust.ideLive }) ∧
    does .ideKmKSetStop [] (fun t => x ∉ t.trust.ideLive ∧ t.trust.ideKeys = s.trust.ideKeys) ∧
    (s.iface n ≠ .unlocked ∨ 64 ≤ n ∨ mapFind s.trust.resets n ≠ none → does (.lockInterface n) [] keeps) ∧
    (∀ m, s.iface n = .unlocked → n < 64 → mapFind s.trust.resets n = none → s.freeWorld = some m → (s.boundWorlds n).length < 4 → does (.lockInterface n) [] fun t =>
      t.iface n = .locked ∧ t.world m = { state := 1, iface := n, key := Config.worldKey (s.trust.worldsMade + 1), saves := 0, created := s.trust.worldsMade + 1 } ∧
      (∀ k, k ≠ m → t.world k = s.world k) ∧ mapGet 0 t.trust.slots (8 + m % 8) = BitVec.ofNat 256 (leNat (sha256 (s.slotBytes (8 + m % 8) ++
        sha256 (creationRecord m n (s.trust.worldsMade + 1)))))) ∧
    (s.iface n = .locked → mapFind s.trust.resets n = none → does (.startInterface n) [] fun t => t.iface n = .run ∧ t.trust.worlds = s.trust.worlds) ∧
    (s.iface n ≠ .locked ∨ mapFind s.trust.resets n ≠ none → does (.startInterface n) [] keeps) ∧
    (s.iface n = .unlocked ∨ mapFind s.trust.resets n ≠ none → does (.stopInterface n) [] keeps) ∧
    (s.iface n ≠ .unlocked → mapFind s.trust.resets n = none → does (.stopInterface n) [] fun t => mapFind t.trust.resets n = some 1 ∧
      ∀ m ∈ s.boundWorlds n, (t.world m).state = 2)

/-- R384, R405, R407, R408, R410, R413, R414: a locked interface may ask for further worlds, up to four. An interface that is reset goes through
its sequence: its worlds stop, their tasks are cancelled, their pages read zero under world 0, their keys go, what cores and dies and the
save pools hold of them goes, and when the last task is gone they are FREE. A page is evicted as a sealed blob and comes back only as it was last evicted; a ZERO page is scrubbed. The sequence's steps are log 39, a world's creation record
log 38, that interface n has selective stream n + 1 log 9 (PRESUMED), the owner table's place and what writes it log 83, and which cancels
come too late log 61. -/
def Obligations.WorldsAndPages : Prop :=
  ∀ (s : State) (n : Nat),
    let ws := s.boundWorlds n
    (∀ m, s.trust.stage = 3 → n < 64 → s.iface n = .locked → mapFind s.trust.resets n = none → s.freeWorld = some m →
      (ws.length < 4 → s.doe.busy = false → s.doe.valid = false → s.trust.extensions = [] → Happens s (.worldRequest n) fun t => s.sameMem t ∧
        t.world m = { state := 1, iface := n, key := Config.worldKey (s.trust.worldsMade + 1), saves := 0, created := s.trust.worldsMade + 1 } ∧
        (∀ k, k ≠ m → t.world k = s.world k) ∧ mapGet 0 t.trust.slots (8 + m % 8) = BitVec.ofNat 256 (leNat (sha256 (s.slotBytes (8 + m % 8) ++
          sha256 (creationRecord m n (s.trust.worldsMade + 1)))))) ∧
      (4 ≤ ws.length → exec (.worldRequest n) s = .next s)) ∧
    (s.trust.stage ≠ 3 ∨ 64 ≤ n ∨ s.iface n ≠ .locked ∨ mapFind s.trust.resets n ≠ none → exec (.worldRequest n) s = .next s) ∧
    (let begins := fun (t : State) => mapFind t.trust.resets n = some 1 ∧ (∀ m ∈ ws, (t.world m).state = 2) ∧ s.sameMem t
     (mapFind s.trust.resets n = none → (s.iface n = .unlocked → ws = [] → exec (.functionLevelReset n) s = .next s) ∧
       (s.iface n ≠ .unlocked ∨ ws ≠ [] → Happens s (.functionLevelReset n) begins)) ∧
     (s.iface n = .unlocked → exec (.tdispInterfaceError n) s = .next s) ∧
     (s.iface n ≠ .unlocked → mapFind s.trust.resets n = none → Happens s (.tdispInterfaceError n) fun t => t.iface n = .error ∧ begins t)) ∧
    (∀ k, mapFind s.trust.resets n = some k →
      let step := fun (P : State → Prop) => Happens s (.functionLevelReset n) fun t => P t ∧
        mapFind t.trust.resets n = if k < 5 then some (k + 1) else none
      let held := fun (p : Nat × Nat) => ∃ x ∈ s.sched.tasks, ∃ y ∈ x.saved, y.id = p.2
      let stopped := { s with sched := { s.sched with copies := s.sched.copies.filter fun c => !ws.contains c.world } }
      (k = 1 → (s.sched.tasks.map (·.id)).Nodup → (∀ x ∈ s.sched.tasks, x.world ∈ ws → stopped.tooLate x = false) → step fun t => (∀ x ∈ t.sched.tasks, x.world ∈ ws → x.stage = .cancelled) ∧
        (∀ c ∈ t.sched.copies, c.world ∉ ws) ∧ (∀ o ∈ t.fabric.ops, o.world ∉ ws)) ∧
      (k = 2 → s.still = true → s.memOk → step fun t => ∀ a, s.isDevice a = true → inOwnerTable a = false →
        if (s.owner a).world ∈ ws then t.byte a = 0 ∧ t.owner a = { s.owner a with world := 0, state := 2, shared := false }
        else t.byte a = s.byte a ∧ t.owner a = s.owner a) ∧
      (k = 3 → step fun t => s.sameMem t ∧ (∀ m ∈ ws, (t.world m).key = 0) ∧ n + 1 ∉ t.trust.ideKeys ∧ n + 1 ∉ t.trust.ideLive) ∧
      (k = 4 → s.still = true → step fun t => (∀ d p, d < 4 → (p ∈ (t.die d).poolUsed ↔ p ∈ (s.die d).poolUsed ∧ held p)) ∧
        (∀ d p b, d < 4 → p ∈ (s.die d).poolUsed → ¬held p → b < 65536 → inOwnerTable ((s.die d).poolPa p.1) = false → t.byte ((s.die d).poolPa p.1 + b) = 0) ∧ (∀ d ∈ t.dies, (∀ r ∈ d.2.fit.regions, r.key.world ∉ ws) ∧ ∀ r ∈ d.2.triggers, r.world ∉ ws) ∧
        ∀ c ∈ t.cores, ∀ x ∈ c.2.l1, x.world ∉ ws) ∧
      (k = 5 → (∃ x ∈ s.sched.tasks, x.world ∈ ws) → exec (.functionLevelReset n) s = .next s) ∧
      (k = 5 → (∀ x ∈ s.sched.tasks, x.world ∉ ws) → step fun t => s.sameMem t ∧ t.iface n = .unlocked ∧ ∀ m ∈ ws, t.world m = World.reset)) ∧
    let pa := n * 65536
    let o := s.owner pa
    let iv := fun (v : Nat) => ownerIndex pa % 2 ^ 32 + 2 ^ 32 * v
    let key := (s.world o.world).key
    let e := ownerPa pa
    let v := (o.version + 1) % 2 ^ 64
    (s.isDevice pa = true → o.state = 0 → 2 ≤ o.world → Happens s (.evictPage n) fun t => (∀ a, ¬(e ≤ a ∧ a < e + 16) → t.byte a = s.byte a) ∧
      t.owner pa = { o with state := 1, version := v } ∧ ∃ b, mapFind t.trust.evicted (ownerIndex pa) = some b ∧ b.version = v ∧
        b.cipher = fitBytes 65536 (Config.gcmSeal key (iv v) [] (s.bytes pa 65536)) ∧
        b.tag = fitBytes 16 (Config.gcmTag key (iv v) [] b.cipher)) ∧
    (s.isDevice pa = false ∨ o.state ≠ 0 ∨ o.world < 2 → exec (.evictPage n) s = .next s) ∧
    (∀ b die token, s.isDevice pa = true → o.state = 1 → 2 ≤ o.world →
      let ok := b.version = o.version ∧ b.tag = fitBytes 16 (Config.gcmTag key (iv b.version) [] b.cipher)
      (ok → Happens s (.pageReturn n b die token) fun t => t.owner pa = { o with state := 0 } ∧
        ∀ a, ¬(e ≤ a ∧ a < e + 16) → t.byte a = if pa ≤ a ∧ a < pa + 65536 then nth 0 (fitBytes 65536 (Config.gcmOpen key (iv b.version) [] b.cipher)) (a - pa) else s.byte a) ∧
      (¬ok → Happens s (.pageReturn n b die token) fun t => (o.world, 2) ∈ t.trust.notices ∧ (s.sched.tasks = [] → s.sameMem t) ∧
        ∀ x u f d, (s.die die).ts.tokens.find? (fun x => x.num == token) = some x → x.agents = [.wave u f] →
          s.stillParked die token (.wave u f) = true → s.agentDispatch (.wave u f) = some d → (s.sched.tasks.map (·.id)).Nodup →
          (∀ y ∈ s.sched.tasks, y.disp = d → s.tooLate y = false) → ∀ y ∈ t.sched.tasks, y.disp = d → y.stage = .cancelled)) ∧
    (s.isDevice pa = true → o.state = 2 → inOwnerTable pa = false → s.still = true → s.memOk → Happens s (.pageScrub n) fun t => t.owner pa = o ∧
      ∀ a, t.byte a = if a / 65536 = n then 0 else s.byte a) ∧
    (s.isDevice pa = false ∨ o.state ≠ 2 ∨ inOwnerTable pa = true → exec (.pageScrub n) s = .next s)

/-! ### The host, power and the registers -/

/-- R74, R409, R411, R415, R416, R420, R422, R423: the host reaches memory only under CXL and only where the firewall lets it; a refusal returns
nothing, changes nothing and is counted. BAR0 of the physical function alone maps the registers. Ports train, drop flits that fail their tags and go down with the third in a row, and run on
two lanes after a failure. The clock steps down while power is above its limit; at 105 °C the cores stop; the ageing plan is made
after 24 hours of operation. That a host snoop ends the protection of a staged line is log 75 (DESIGN CHOICE); how host accesses come is
log 44, that one throttle event moves the clock one step log 47, and how a plan is made and applied log 37. -/
def Obligations.HostPortsPower : Prop :=
  ∀ (s : State),
    let denied := fun (t : State) => t.trust = { s.trust with deny := (s.trust.deny + 1) % 2 ^ 32 } ∧ s.sameMem t
    (∀ pa n i,
      let reach := s.power.cxl = true ∧ n ≠ 0 ∧ s.isDevice pa = true ∧ s.isDevice (pa + n - 1) = true
      (¬reach → Happens s (.hostAccess (.read pa n i)) fun t => t = { s with hostData := [] }) ∧
      (reach → s.hostPasses pa n i = false → Happens s (.hostAccess (.read pa n i)) fun t => t.hostData = [] ∧ denied t) ∧
      (reach → s.hostPasses pa n i = true → s.snap.state ≠ 1 → s.unlocked = true →
        Happens s (.hostAccess (.read pa n i)) fun t => t = { s with hostData := s.bytes pa n }) ∧
      ∀ bs, bs.length = n →
        (¬reach → exec (.hostAccess (.write pa bs i)) s = .next s) ∧
        (reach → s.hostPasses pa n i = false → Happens s (.hostAccess (.write pa bs i)) fun t => t = { s with trust := t.trust } ∧ denied t) ∧
        (reach → s.hostPasses pa n i = true → s.still = true → Happens s (.hostAccess (.write pa bs i)) fun t =>
          ∀ a, t.byte a = if pa ≤ a ∧ a < pa + n then nth 0 bs (a - pa) else s.byte a)) ∧
    (∀ offset n,
      let pa := 0x30000000000 + offset
      let r := s.readReg pa
      (isMmio pa = false → Happens s (.hostAccess (.readBar offset n)) fun t => t = { s with hostData := [] }) ∧
      (isMmio pa = true → isDoe pa = true → Happens s (.hostAccess (.readBar offset n)) fun t => t.hostData = [] ∧ denied t) ∧
      (isMmio pa = true → isDoe pa = false → Happens s (.hostAccess (.readBar offset n)) fun t =>
        t = { r.2 with hostData := ((natLe 8 r.1).drop (pa % 8)).take n }) ∧
      ∀ bs : List Byte,
        (isMmio pa = false ∨ isDoe pa = false ∧ bs.length ≠ 8 → exec (.hostAccess (.writeBar offset bs)) s = .next s) ∧
        (isMmio pa = true → isDoe pa = true → Happens s (.hostAccess (.writeBar offset bs)) fun t => t = { s with trust := t.trust } ∧ denied t) ∧
        (isMmio pa = true → bs.length = 8 →
          exec (.hostAccess (.writeBar offset bs)) s = exec (.registerWrite .host pa (BitVec.ofNat 64 (leNat bs))) s)) ∧
    (∀ line, Happens s (.cxlSnoop line) fun t => s.sameMem t ∧ if s.power.cxl then ∀ p ∈ (t.die (homeDie (line * 64))).l2.prot, p.1 ≠ line else t = s) ∧
    (∀ p,
      let x := mapGet Port.reset s.fabric.ports p
      let becomes := fun (i : Instr) (y : Port) => Happens s i fun t => mapGet Port.reset t.fabric.ports p = y ∧ s.sameMem t
      (p < 16 → s.trust.stage = 3 → ∀ ok, becomes (.portTrain p ok) { x with up := ok, keyed := ok, fails := 0 }) ∧
      (s.trust.stage ≠ 3 → ∀ ok, exec (.portTrain p ok) s = .next s) ∧
      (16 ≤ p ∨ x.up = false → exec (.flitTagFail p) s = .next s) ∧
      (p < 16 → x.up = true → becomes (.flitTagFail p) (if 2 ≤ x.fails then { x with up := false, keyed := false, fails := 0 }
          else { x with fails := x.fails + 1 }) ∧
        Happens s (.flitTagFail p) fun t => t.trust = { s.trust with tagfail := (s.trust.tagfail + 1) % 2 ^ 32 }) ∧
      (p < 16 → becomes (.laneFailure p) { x with lanes := 2 }) ∧ (16 ≤ p → exec (.laneFailure p) s = .next s)) ∧
    (∀ mhz watts, Happens s (.powerThrottle mhz watts) fun t => t = { s with power := t.power } ∧ t.power.watts = watts % 4096 ∧
      let lim := min 3600 s.power.lim
      let steps := 1200 ≤ mhz ∧ mhz ≤ 2000 ∧ mhz % 100 = 0 ∧ (mhz + 100 = s.power.mhz ∧ lim < watts ∨
        s.power.mhz + 100 = mhz ∧ watts ≤ lim ∧ mhz ≤ s.slowest)
      (steps → t.power.mhz = mhz) ∧ (¬steps → t.power.mhz = s.power.mhz)) ∧
    (s.power.temp < 105 → exec .thermalTrip s = .next s) ∧
    (105 ≤ s.power.temp → Happens s .thermalTrip fun t => t.power.stopped = true ∧ t.trust.stage = 15 ∧ s.sameMem t) ∧
    ∀ plan record, (s.power.opNs < 86400000000000 ∨ planOk plan = false → exec (.ageingReplan plan record) s = .next s) ∧
      (86400000000000 ≤ s.power.opNs → planOk plan = true → exec (.ageingReplan plan record) s =
        .next { s with power := { s.power with opNs := 0, plan := plan, waiting := plan.map (·.core), record := record } })

/-- R5, R44, R78, R128, R350, R372, R398, R401, R422, R442: a read of a counter returns it and clears it, and changes nothing else;
DOERQ gives its fields and clears them. R4, R5, R38, R44, R78, R329, R335, R350, R351, R401, R409, R422, R442: a 64-bit write sets
the fields of the register that its address names and drops reserved bits; a read-only register and an address with no register
ignore it; an agent that the firewall refuses changes nothing, and the host's refusal is counted; the trust queue's registers take
writes from the trust core alone. -/
def Obligations.Registers : Prop :=
  (∀ (s : State) (d : Nat),
    let takes := fun (i : Instr) (n : Nat) (after : State) => exec i s = .next { after with hostData := natLe 8 n }
    let die := fun (f : Die → Die) => s.setDie d (f (s.die d))
    let x := s.die d
    let fab := fun (f : Fabric) => { s with fabric := f }
    takes (.tsstgdropRead d) x.ts.stgdrop (die fun y => { y with ts := { y.ts with stgdrop := 0 } }) ∧
    takes (.tsremfltRead d) x.ts.remflt (die fun y => { y with ts := { y.ts with remflt := 0 } }) ∧
    takes (.l2stgdropRead d) x.l2.stgdrop (die fun y => { y with l2 := { y.l2 with stgdrop := 0 } }) ∧
    takes (.l2nackRead d) x.l2.nack (die fun y => { y with l2 := { y.l2 with nack := 0 } }) ∧
    takes (.l2futdblRead d) x.l2.futdbl (die fun y => { y with l2 := { y.l2 with futdbl := 0 } }) ∧
    takes (.l2poisonRead d) x.l2.poison (die fun y => { y with l2 := { y.l2 with poison := 0 } }) ∧
    takes (.fedropRead d) x.fit.drop (die fun y => { y with fit := { y.fit with drop := 0 } }) ∧
    takes (.feinvRead d) x.fit.inv (die fun y => { y with fit := { y.fit with inv := 0 } }) ∧
    takes (.mcceRead d) x.mcce (die fun y => { y with mcce := 0 }) ∧
    takes .fbrednackRead s.fabric.rednack (fab { s.fabric with rednack := 0 }) ∧
    takes .fbdroplateRead s.fabric.droplate (fab { s.fabric with droplate := 0 }) ∧
    takes .fbtimeoutRead s.fabric.timeout (fab { s.fabric with timeout := 0 }) ∧
    takes .fborphanRead s.fabric.orphan (fab { s.fabric with orphan := 0 }) ∧
    takes .fbbadhdrRead s.fabric.badhdr (fab { s.fabric with badhdr := 0 }) ∧
    takes .schedpreRead s.sched.pre { s with sched := { s.sched with pre := 0 } } ∧
    takes .scheddemRead s.sched.dem { s with sched := { s.sched with dem := 0 } } ∧
    takes .trdenyRead s.trust.deny { s with trust := { s.trust with deny := 0 } } ∧
    takes .trtagfailRead s.trust.tagfail { s with trust := { s.trust with tagfail := 0 } } ∧
    takes .pwrthrotRead s.power.throt { s with power := { s.power with throt := 0 } } ∧
    takes .doerqRead (s.doe.len % 65536 + 2 ^ 32 * b2n s.doe.valid) { s with doe := { s.doe with len := 0, valid := false } } ∧
    Happens s .trrngRead fun t => ∃ x : DWord, t = { s with hostData := natLe 8 x.toNat, free := s.free + 1 }) ∧
  (∀ (s : State) (g : RegAgent) (d off : Nat) (v : DWord), d < 4 →
    let at_ := fun (o : Nat) => 0x30000000000 + d * 0x1000000 + o
    let free := match g with
      | .wave n => n = 0
      | _ => True
    let writes := fun (o : Nat) (t : State) => free → exec (.registerWrite g (at_ o) v) s = .next t
    let base := fun (lo : Nat) => BitVec.ofNat 64 (v.toNat / 2 ^ lo % 2 ^ (52 - lo) * 2 ^ lo)
    let sized := BitVec.ofNat 64 (v.toNat % 16 + v.toNat / 2 ^ 12 % 2 ^ 40 * 2 ^ 12)
    let die := fun (f : Die → Die) => s.setDie d (f (s.die d))
    writes 0x40000 (die fun x => { x with ts := { x.ts with asbase := base 16 ||| (v &&& 1) } }) ∧
    writes 0x40008 (die fun x => { x with ts := { x.ts with fltbase := sized, flthead := 0, fltphase := true, fltcount := queueUnread sized 0 x.ts.flttail } }) ∧
    writes 0x40018 (die fun x => { x with ts := { x.ts with
      flttail := v.toNat % 65536, fltcount := queueUnread x.ts.fltbase x.ts.flthead (v.toNat % 65536) } }) ∧
    writes 0x40010 s ∧
    writes 0x40028 (die fun x => { x with ts := { x.ts with invaddr := BitVec.ofNat 64 (v.toNat / 2 ^ 16 % 2 ^ 41 * 2 ^ 16) } }) ∧
    writes 0x50000 (die fun x => { x with l2 := { x.l2 with stgres := v.toNat % 8 } }) ∧
    writes 0x90000 (die fun x => { x with svc := { x.svc with base := sized, head := 0, phase := true, count := queueUnread sized 0 x.svc.tail } }) ∧
    writes 0x90018 (die fun x => { x with svcres := v }) ∧
    writes 0xE0028 (die fun x => { x with cspool := base 0 }) ∧
    writes 0xD0000 (die fun x => { x with fit := { x.fit with mode := v.toNat % 4 } }) ∧
    (off < 0x60 → writes (0x50008 + 8 * off) s) ∧
    (∀ o, o ∈ [0x60000, 0x70000, 0xA0000, 0xC0000, 0xF0008, 0x120000] → d ≠ 0 → writes o s) ∧
    (d = 0 → writes 0x60008 { s with snap := { s.snap with val := v } } ∧
      (let lims := (v.toNat / 2 ^ 16 % 2 ^ 16, v.toNat / 2 ^ 32 % 2 ^ 16)
       let sched := { s.sched with en := v.getLsbD 0, preempt := v.getLsbD 1, stagelim := lims.1, preemptlim := lims.2 }
       writes 0xC0000 { s with sched := sched }) ∧
      writes 0x120000 { s with power := { s.power with lim := v.toNat % 4096 } } ∧
      (∀ q, q < 256 → writes (0xA0008 + 64 * q) (s.updQueue q fun x => { x with ring := BitVec.ofNat 64 (v.toNat / 2 ^ 7 % 2 ^ 50 * 2 ^ 7) })) ∧
      writes 0xF0010 { s with trust := { s.trust with retry := s.trust.retry || (s.trust.stage == 15 && v.getLsbD 0) } } ∧
      (g ≠ .trust → writes 0xF0028 s ∧ writes 0xF0030 s ∧ writes 0xF0038 s) ∧
      (g = .trust → writes 0xF0030 (s.updQueue 256 fun x => { x with ring := BitVec.ofNat 64 (v.toNat / 2 ^ 7 % 2 ^ 50 * 2 ^ 7) })) ∧
      (g = .trust → writes 0x130010 { s with doe := { s.doe with qb := base 12 } }) ∧
      (g = .host → exec (.registerWrite g 0x30000130010 v) s = .next { s with trust := { s.trust with deny := (s.trust.deny + 1) % 2 ^ 32 } }) ∧
      ∀ n, g = .wave n → exec (.registerWrite g 0x30000130010 v) s = .next s) ∧
    ∀ n o, g = .wave n → n ≠ 0 → o < 0x1000000 → exec (.registerWrite g (at_ o) v) s = .next s)
end

