-- ==== Sys2Proof/Laws/Decode.lean ====
section
/-! SUPPORT. The encoder against the decoder: every field of every format comes back from the word, and so does the opcode. -/

namespace Sys2Proof

/-- A field above the lowest part of a concatenation. -/
theorem extract_hi {n m : Nat} (x : BitVec n) (y : BitVec m) (s l : Nat) :
    (x ++ y).extractLsb' (m + s) l = x.extractLsb' s l := by
  ext i hi
  simp only [BitVec.getElem_extractLsb', BitVec.getLsbD_append]
  have : ¬ m + s + i < m := by omega
  simp [this, show m + s + i - m = s + i by omega]

/-- The lowest part of a concatenation. -/
theorem extract_lo {n m : Nat} (x : BitVec n) (y : BitVec m) : (x ++ y).extractLsb' 0 m = y := by
  ext i hi
  simp only [BitVec.getElem_extractLsb', BitVec.getLsbD_append]
  simp [hi]

/-- All of a word. -/
theorem extract_all {n : Nat} (x : BitVec n) : x.extractLsb' 0 n = x := by
  ext i hi
  simp

theorem opcodeOf_encS (op : BitVec 8) (f : SF) : opcodeOf (encS op f) = op.toNat := by
  obtain ⟨d, a, b, fn, ty, imm⟩ := f
  exact congrArg BitVec.toNat ((extract_hi _ imm 32 8).trans ((extract_hi _ ty 28 8).trans ((extract_hi _ fn 24 8).trans ((extract_hi _ b 16 8).trans ((extract_hi _ a 8 8).trans ((extract_hi _ d 0 8).trans (extract_all _)))))))

theorem fieldsS_encS (op : BitVec 8) (f : SF) : fieldsS (encS op f) = f := by
  obtain ⟨d, a, b, fn, ty, imm⟩ := f
  simp only [fieldsS, encS, SF.mk.injEq]
  refine ⟨?_, ?_, ?_, ?_, ?_, ?_⟩
  · exact (extract_hi _ imm 24 8).trans ((extract_hi _ ty 20 8).trans ((extract_hi _ fn 16 8).trans ((extract_hi _ b 8 8).trans ((extract_hi _ a 0 8).trans (extract_lo _ d)))))
  · exact (extract_hi _ imm 16 8).trans ((extract_hi _ ty 12 8).trans ((extract_hi _ fn 8 8).trans ((extract_hi _ b 0 8).trans (extract_lo _ a))))
  · exact (extract_hi _ imm 8 8).trans ((extract_hi _ ty 4 8).trans ((extract_hi _ fn 0 8).trans (extract_lo _ b)))
  · exact (extract_hi _ imm 4 4).trans ((extract_hi _ ty 0 4).trans (extract_lo _ fn))
  · exact (extract_hi _ imm 0 4).trans (extract_lo _ ty)
  · exact extract_lo _ imm

theorem opcodeOf_encI (op : BitVec 8) (f : IF) : opcodeOf (encI op f) = op.toNat := by
  obtain ⟨d, fn, z, imm⟩ := f
  exact congrArg BitVec.toNat ((extract_hi _ imm 24 8).trans ((extract_hi _ z 16 8).trans ((extract_hi _ fn 8 8).trans ((extract_hi _ d 0 8).trans (extract_all _)))))

theorem fieldsI_encI (op : BitVec 8) (f : IF) : fieldsI (encI op f) = f := by
  obtain ⟨d, fn, z, imm⟩ := f
  simp only [fieldsI, encI, IF.mk.injEq]
  refine ⟨?_, ?_, ?_, ?_⟩
  · exact (extract_hi _ imm 16 8).trans ((extract_hi _ z 8 8).trans ((extract_hi _ fn 0 8).trans (extract_lo _ d)))
  · exact (extract_hi _ imm 8 8).trans ((extract_hi _ z 0 8).trans (extract_lo _ fn))
  · exact (extract_hi _ imm 0 8).trans (extract_lo _ z)
  · exact extract_lo _ imm

theorem opcodeOf_encC (op : BitVec 8) (f : CF) : opcodeOf (encC op f) = op.toNat := by
  obtain ⟨a, b, z, off⟩ := f
  exact congrArg BitVec.toNat ((extract_hi _ off 24 8).trans ((extract_hi _ z 16 8).trans ((extract_hi _ b 8 8).trans ((extract_hi _ a 0 8).trans (extract_all _)))))

theorem fieldsC_encC (op : BitVec 8) (f : CF) : fieldsC (encC op f) = f := by
  obtain ⟨a, b, z, off⟩ := f
  simp only [fieldsC, encC, CF.mk.injEq]
  refine ⟨?_, ?_, ?_, ?_⟩
  · exact (extract_hi _ off 16 8).trans ((extract_hi _ z 8 8).trans ((extract_hi _ b 0 8).trans (extract_lo _ a)))
  · exact (extract_hi _ off 8 8).trans ((extract_hi _ z 0 8).trans (extract_lo _ b))
  · exact (extract_hi _ off 0 8).trans (extract_lo _ z)
  · exact extract_lo _ off

theorem opcodeOf_encV2 (op : BitVec 8) (f : V2F) : opcodeOf (encV2 op f) = op.toNat := by
  obtain ⟨d, a, b, ra, rb, p, ty, rnd, sat, fn, la⟩ := f
  exact congrArg BitVec.toNat ((extract_hi _ la 52 8).trans ((extract_hi _ fn 48 8).trans ((extract_hi _ sat 47 8).trans ((extract_hi _ rnd 44 8).trans ((extract_hi _ ty 40 8).trans ((extract_hi _ p 30 8).trans ((extract_hi _ rb 27 8).trans ((extract_hi _ ra 24 8).trans ((extract_hi _ b 16 8).trans ((extract_hi _ a 8 8).trans ((extract_hi _ d 0 8).trans (extract_all _))))))))))))

theorem fieldsV2_encV2 (op : BitVec 8) (f : V2F) : fieldsV2 (encV2 op f) = f := by
  obtain ⟨d, a, b, ra, rb, p, ty, rnd, sat, fn, la⟩ := f
  simp only [fieldsV2, encV2, V2F.mk.injEq]
  refine ⟨?_, ?_, ?_, ?_, ?_, ?_, ?_, ?_, ?_, ?_, ?_⟩
  · exact (extract_hi _ la 44 8).trans ((extract_hi _ fn 40 8).trans ((extract_hi _ sat 39 8).trans ((extract_hi _ rnd 36 8).trans ((extract_hi _ ty 32 8).trans ((extract_hi _ p 22 8).trans ((extract_hi _ rb 19 8).trans ((extract_hi _ ra 16 8).trans ((extract_hi _ b 8 8).trans ((extract_hi _ a 0 8).trans (extract_lo _ d))))))))))
  · exact (extract_hi _ la 36 8).trans ((extract_hi _ fn 32 8).trans ((extract_hi _ sat 31 8).trans ((extract_hi _ rnd 28 8).trans ((extract_hi _ ty 24 8).trans ((extract_hi _ p 14 8).trans ((extract_hi _ rb 11 8).trans ((extract_hi _ ra 8 8).trans ((extract_hi _ b 0 8).trans (extract_lo _ a)))))))))
  · exact (extract_hi _ la 28 8).trans ((extract_hi _ fn 24 8).trans ((extract_hi _ sat 23 8).trans ((extract_hi _ rnd 20 8).trans ((extract_hi _ ty 16 8).trans ((extract_hi _ p 6 8).trans ((extract_hi _ rb 3 8).trans ((extract_hi _ ra 0 8).trans (extract_lo _ b))))))))
  · exact (extract_hi _ la 25 3).trans ((extract_hi _ fn 21 3).trans ((extract_hi _ sat 20 3).trans ((extract_hi _ rnd 17 3).trans ((extract_hi _ ty 13 3).trans ((extract_hi _ p 3 3).trans ((extract_hi _ rb 0 3).trans (extract_lo _ ra)))))))
  · exact (extract_hi _ la 22 3).trans ((extract_hi _ fn 18 3).trans ((extract_hi _ sat 17 3).trans ((extract_hi _ rnd 14 3).trans ((extract_hi _ ty 10 3).trans ((extract_hi _ p 0 3).trans (extract_lo _ rb))))))
  · exact (extract_hi _ la 12 10).trans ((extract_hi _ fn 8 10).trans ((extract_hi _ sat 7 10).trans ((extract_hi _ rnd 4 10).trans ((extract_hi _ ty 0 10).trans (extract_lo _ p)))))
  · exact (extract_hi _ la 8 4).trans ((extract_hi _ fn 4 4).trans ((extract_hi _ sat 3 4).trans ((extract_hi _ rnd 0 4).trans (extract_lo _ ty))))
  · exact (extract_hi _ la 5 3).trans ((extract_hi _ fn 1 3).trans ((extract_hi _ sat 0 3).trans (extract_lo _ rnd)))
  · exact (extract_hi _ la 4 1).trans ((extract_hi _ fn 0 1).trans (extract_lo _ sat))
  · exact (extract_hi _ la 0 4).trans (extract_lo _ fn)
  · exact extract_lo _ la

theorem opcodeOf_encV3 (op : BitVec 8) (f : V3F) : opcodeOf (encV3 op f) = op.toNat := by
  obtain ⟨d, a, b, c, ra, rb, rc, p, ty, rnd⟩ := f
  exact congrArg BitVec.toNat ((extract_hi _ rnd 53 8).trans ((extract_hi _ ty 51 8).trans ((extract_hi _ p 41 8).trans ((extract_hi _ rc 38 8).trans ((extract_hi _ rb 35 8).trans ((extract_hi _ ra 32 8).trans ((extract_hi _ c 24 8).trans ((extract_hi _ b 16 8).trans ((extract_hi _ a 8 8).trans ((extract_hi _ d 0 8).trans (extract_all _)))))))))))

theorem fieldsV3_encV3 (op : BitVec 8) (f : V3F) : fieldsV3 (encV3 op f) = f := by
  obtain ⟨d, a, b, c, ra, rb, rc, p, ty, rnd⟩ := f
  simp only [fieldsV3, encV3, V3F.mk.injEq]
  refine ⟨?_, ?_, ?_, ?_, ?_, ?_, ?_, ?_, ?_, ?_⟩
  · exact (extract_hi _ rnd 45 8).trans ((extract_hi _ ty 43 8).trans ((extract_hi _ p 33 8).trans ((extract_hi _ rc 30 8).trans ((extract_hi _ rb 27 8).trans ((extract_hi _ ra 24 8).trans ((extract_hi _ c 16 8).trans ((extract_hi _ b 8 8).trans ((extract_hi _ a 0 8).trans (extract_lo _ d)))))))))
  · exact (extract_hi _ rnd 37 8).trans ((extract_hi _ ty 35 8).trans ((extract_hi _ p 25 8).trans ((extract_hi _ rc 22 8).trans ((extract_hi _ rb 19 8).trans ((extract_hi _ ra 16 8).trans ((extract_hi _ c 8 8).trans ((extract_hi _ b 0 8).trans (extract_lo _ a))))))))
  · exact (extract_hi _ rnd 29 8).trans ((extract_hi _ ty 27 8).trans ((extract_hi _ p 17 8).trans ((extract_hi _ rc 14 8).trans ((extract_hi _ rb 11 8).trans ((extract_hi _ ra 8 8).trans ((extract_hi _ c 0 8).trans (extract_lo _ b)))))))
  · exact (extract_hi _ rnd 21 8).trans ((extract_hi _ ty 19 8).trans ((extract_hi _ p 9 8).trans ((extract_hi _ rc 6 8).trans ((extract_hi _ rb 3 8).trans ((extract_hi _ ra 0 8).trans (extract_lo _ c))))))
  · exact (extract_hi _ rnd 18 3).trans ((extract_hi _ ty 16 3).trans ((extract_hi _ p 6 3).trans ((extract_hi _ rc 3 3).trans ((extract_hi _ rb 0 3).trans (extract_lo _ ra)))))
  · exact (extract_hi _ rnd 15 3).trans ((extract_hi _ ty 13 3).trans ((extract_hi _ p 3 3).trans ((extract_hi _ rc 0 3).trans (extract_lo _ rb))))
  · exact (extract_hi _ rnd 12 3).trans ((extract_hi _ ty 10 3).trans ((extract_hi _ p 0 3).trans (extract_lo _ rc)))
  · exact (extract_hi _ rnd 2 10).trans ((extract_hi _ ty 0 10).trans (extract_lo _ p))
  · exact (extract_hi _ rnd 0 2).trans (extract_lo _ ty)
  · exact extract_lo _ rnd

theorem opcodeOf_encM (op : BitVec 8) (f : MF) : opcodeOf (encM op f) = op.toNat := by
  obtain ⟨data, base, off, size, space, hasOff, la, fn, disp⟩ := f
  exact congrArg BitVec.toNat ((extract_hi _ disp 40 8).trans ((extract_hi _ fn 36 8).trans ((extract_hi _ la 32 8).trans ((extract_hi _ hasOff 31 8).trans ((extract_hi _ space 28 8).trans ((extract_hi _ size 24 8).trans ((extract_hi _ off 16 8).trans ((extract_hi _ base 8 8).trans ((extract_hi _ data 0 8).trans (extract_all _))))))))))

theorem fieldsM_encM (op : BitVec 8) (f : MF) : fieldsM (encM op f) = f := by
  obtain ⟨data, base, off, size, space, hasOff, la, fn, disp⟩ := f
  simp only [fieldsM, encM, MF.mk.injEq]
  refine ⟨?_, ?_, ?_, ?_, ?_, ?_, ?_, ?_, ?_⟩
  · exact (extract_hi _ disp 32 8).trans ((extract_hi _ fn 28 8).trans ((extract_hi _ la 24 8).trans ((extract_hi _ hasOff 23 8).trans ((extract_hi _ space 20 8).trans ((extract_hi _ size 16 8).trans ((extract_hi _ off 8 8).trans ((extract_hi _ base 0 8).trans (extract_lo _ data))))))))
  · exact (extract_hi _ disp 24 8).trans ((extract_hi _ fn 20 8).trans ((extract_hi _ la 16 8).trans ((extract_hi _ hasOff 15 8).trans ((extract_hi _ space 12 8).trans ((extract_hi _ size 8 8).trans ((extract_hi _ off 0 8).trans (extract_lo _ base)))))))
  · exact (extract_hi _ disp 16 8).trans ((extract_hi _ fn 12 8).trans ((extract_hi _ la 8 8).trans ((extract_hi _ hasOff 7 8).trans ((extract_hi _ space 4 8).trans ((extract_hi _ size 0 8).trans (extract_lo _ off))))))
  · exact (extract_hi _ disp 12 4).trans ((extract_hi _ fn 8 4).trans ((extract_hi _ la 4 4).trans ((extract_hi _ hasOff 3 4).trans ((extract_hi _ space 0 4).trans (extract_lo _ size)))))
  · exact (extract_hi _ disp 9 3).trans ((extract_hi _ fn 5 3).trans ((extract_hi _ la 1 3).trans ((extract_hi _ hasOff 0 3).trans (extract_lo _ space))))
  · exact (extract_hi _ disp 8 1).trans ((extract_hi _ fn 4 1).trans ((extract_hi _ la 0 1).trans (extract_lo _ hasOff)))
  · exact (extract_hi _ disp 4 4).trans ((extract_hi _ fn 0 4).trans (extract_lo _ la))
  · exact (extract_hi _ disp 0 4).trans (extract_lo _ fn)
  · exact extract_lo _ disp

theorem opcodeOf_encE (op : BitVec 8) (f : EF) : opcodeOf (encE op f) = op.toNat := by
  obtain ⟨a, b, c, d, e, ctl⟩ := f
  exact congrArg BitVec.toNat ((extract_hi _ ctl 36 8).trans ((extract_hi _ e 32 8).trans ((extract_hi _ d 24 8).trans ((extract_hi _ c 16 8).trans ((extract_hi _ b 8 8).trans ((extract_hi _ a 0 8).trans (extract_all _)))))))

theorem fieldsE_encE (op : BitVec 8) (f : EF) : fieldsE (encE op f) = f := by
  obtain ⟨a, b, c, d, e, ctl⟩ := f
  simp only [fieldsE, encE, EF.mk.injEq]
  refine ⟨?_, ?_, ?_, ?_, ?_, ?_⟩
  · exact (extract_hi _ ctl 28 8).trans ((extract_hi _ e 24 8).trans ((extract_hi _ d 16 8).trans ((extract_hi _ c 8 8).trans ((extract_hi _ b 0 8).trans (extract_lo _ a)))))
  · exact (extract_hi _ ctl 20 8).trans ((extract_hi _ e 16 8).trans ((extract_hi _ d 8 8).trans ((extract_hi _ c 0 8).trans (extract_lo _ b))))
  · exact (extract_hi _ ctl 12 8).trans ((extract_hi _ e 8 8).trans ((extract_hi _ d 0 8).trans (extract_lo _ c)))
  · exact (extract_hi _ ctl 4 8).trans ((extract_hi _ e 0 8).trans (extract_lo _ d))
  · exact (extract_hi _ ctl 0 4).trans (extract_lo _ e)
  · exact extract_lo _ ctl

theorem opcodeOf_encH (f : HF) : opcodeOf (encH f) = 0xF8 := by
  obtain ⟨count, cls, rgn, z, k⟩ := f
  exact congrArg BitVec.toNat ((extract_hi _ k 24 8).trans ((extract_hi _ z 9 8).trans ((extract_hi _ rgn 8 8).trans ((extract_hi _ cls 4 8).trans ((extract_hi _ count 0 8).trans (extract_all _))))))

theorem fieldsH_encH (f : HF) : fieldsH (encH f) = f := by
  obtain ⟨count, cls, rgn, z, k⟩ := f
  simp only [fieldsH, encH, HF.mk.injEq]
  refine ⟨?_, ?_, ?_, ?_, ?_⟩
  · exact (extract_hi _ k 20 4).trans ((extract_hi _ z 5 4).trans ((extract_hi _ rgn 4 4).trans ((extract_hi _ cls 0 4).trans (extract_lo _ count))))
  · exact (extract_hi _ k 16 4).trans ((extract_hi _ z 1 4).trans ((extract_hi _ rgn 0 4).trans (extract_lo _ cls)))
  · exact (extract_hi _ k 15 1).trans ((extract_hi _ z 0 1).trans (extract_lo _ rgn))
  · exact (extract_hi _ k 0 15).trans (extract_lo _ z)
  · exact extract_lo _ k

/-- A word of format S decodes to its row's instruction. -/
theorem decode_encS {op : BitVec 8} {c : SF → Instr} (f : SF) (h : op.toNat ≠ 0xF8) 
    (hc : rowOf sTable op.toNat = some c) : decode (encS op f) = .ok (c f) := by
  simp only [decode, opcodeOf_encS, fieldsS_encS, hc, if_neg h]

/-- A word of format I decodes to its row's instruction. -/
theorem decode_encI {op : BitVec 8} {c : IF → Instr} (f : IF) (h : op.toNat ≠ 0xF8) (h0 : rowOf sTable op.toNat = none)
    (hc : rowOf iTable op.toNat = some c) : decode (encI op f) = .ok (c f) := by
  simp only [decode, opcodeOf_encI, fieldsI_encI, h0, hc, if_neg h]

/-- A word of format C decodes to its row's instruction. -/
theorem decode_encC {op : BitVec 8} {c : CF → Instr} (f : CF) (h : op.toNat ≠ 0xF8) (h0 : rowOf sTable op.toNat = none) (h1 : rowOf iTable op.toNat = none)
    (hc : rowOf cTable op.toNat = some c) : decode (encC op f) = .ok (c f) := by
  simp only [decode, opcodeOf_encC, fieldsC_encC, h0, h1, hc, if_neg h]

/-- A word of format V2 decodes to its row's instruction. -/
theorem decode_encV2 {op : BitVec 8} {c : V2F → Instr} (f : V2F) (h : op.toNat ≠ 0xF8) (h0 : rowOf sTable op.toNat = none) (h1 : rowOf iTable op.toNat = none) (h2 : rowOf cTable op.toNat = none)
    (hc : rowOf v2Table op.toNat = some c) : decode (encV2 op f) = .ok (c f) := by
  simp only [decode, opcodeOf_encV2, fieldsV2_encV2, h0, h1, h2, hc, if_neg h]

/-- A word of format V3 decodes to its row's instruction. -/
theorem decode_encV3 {op : BitVec 8} {c : V3F → Instr} (f : V3F) (h : op.toNat ≠ 0xF8) (h0 : rowOf sTable op.toNat = none) (h1 : rowOf iTable op.toNat = none) (h2 : rowOf cTable op.toNat = none) (h3 : rowOf v2Table op.toNat = none)
    (hc : rowOf v3Table op.toNat = some c) : decode (encV3 op f) = .ok (c f) := by
  simp only [decode, opcodeOf_encV3, fieldsV3_encV3, h0, h1, h2, h3, hc, if_neg h]

/-- A word of format M decodes to its row's instruction. -/
theorem decode_encM {op : BitVec 8} {c : MF → Instr} (f : MF) (h : op.toNat ≠ 0xF8) (h0 : rowOf sTable op.toNat = none) (h1 : rowOf iTable op.toNat = none) (h2 : rowOf cTable op.toNat = none) (h3 : rowOf v2Table op.toNat = none) (h4 : rowOf v3Table op.toNat = none)
    (hc : rowOf mTable op.toNat = some c) : decode (encM op f) = .ok (c f) := by
  simp only [decode, opcodeOf_encM, fieldsM_encM, h0, h1, h2, h3, h4, hc, if_neg h]

/-- A word of format E decodes to its row's instruction. -/
theorem decode_encE {op : BitVec 8} {c : EF → Instr} (f : EF) (h : op.toNat ≠ 0xF8) (h0 : rowOf sTable op.toNat = none) (h1 : rowOf iTable op.toNat = none) (h2 : rowOf cTable op.toNat = none) (h3 : rowOf v2Table op.toNat = none) (h4 : rowOf v3Table op.toNat = none) (h5 : rowOf mTable op.toNat = none)
    (hc : rowOf eTable op.toNat = some c) : decode (encE op f) = .ok (c f) := by
  simp only [decode, opcodeOf_encE, fieldsE_encE, h0, h1, h2, h3, h4, h5, hc, if_neg h]

/-- Every check of a list that reports nothing passed. -/
theorem of_lowestBad_none {l : List Check} (h : lowestBad l = none) {c : Check} (hc : c ∈ l) : c.2 = true := by
  induction l with
  | nil => cases hc
  | cons x l ih =>
    obtain ⟨lo, ok⟩ := x
    simp only [lowestBad] at h
    split at h
    · rename_i hn
      cases ok with
      | false => simp at h
      | true => rcases List.mem_cons.1 hc with rfl | hc
                · rfl
                · exact ih hn hc
    · split at h <;> cases h

/-- Every field check of a well-formed instruction passes. -/
theorem of_wellFormed {i : Instr} (h : i.wellFormed = true) {c : Check} (hc : c ∈ i.must) : c.2 = true :=
  of_lowestBad_none (Option.isNone_iff_eq_none.1 h) hc

theorem decode_encH (h : HF) : decode (encH h) = .ok (.clauseHeader h) := by
  simp [decode, opcodeOf_encH, fieldsH_encH]

end Sys2Proof
end

