-- ==== Sys2Proof/Laws/Maps.lean ====
section
/-! SUPPORT. Laws of the sparse maps: reading after writing, for any list, and the canonical form. -/

namespace Sys2Proof.Machine

theorem mapGet_mapAbove {α : Type} (d : α) (m : List (Nat × α)) (a b : Nat) :
    mapGet d (mapAbove a m) b = if a < b then mapGet d m b else d := by
  induction m with
  | nil => simp [mapAbove, mapGet]
  | cons e m ih =>
    obtain ⟨k, v⟩ := e
    simp only [mapAbove]
    split
    · rw [ih]
      by_cases h : a < b
      · have h1 : b ≠ k := by omega
        have h2 : ¬ b < k := by omega
        simp [h, mapGet, h1, h2]
      · simp [h]
    · by_cases h : a < b
      · simp [h]
      · have h1 : b ≠ k := by omega
        have h2 : b < k := by omega
        simp [h, mapGet, h1, h2]

/-- Reading after writing, whatever the list. -/
theorem mapGet_mapPut {α : Type} [DecidableEq α] (d : α) (m : List (Nat × α)) (a : Nat) (x : α) (b : Nat) :
    mapGet d (mapPut d m a x) b = if b = a then x else mapGet d m b := by
  induction m with
  | nil =>
    by_cases hx : x = d <;> by_cases hb : b = a <;> simp [mapPut, mapGet, hx, hb]
  | cons e m ih =>
    obtain ⟨k, v⟩ := e
    simp only [mapPut]
    split
    · subst_vars
      split
      · subst_vars
        rw [mapGet_mapAbove]
        by_cases hb : b = k
        · simp [hb]
        · by_cases h : k < b
          · have : ¬ b < k := by omega
            simp [h, hb, mapGet, this]
          · have : b < k := by omega
            simp [h, hb, mapGet, this]
      · by_cases hb : b = k <;> simp [mapGet, hb]
    · split
      · split
        · subst_vars
          by_cases hb : b = a
          · subst hb; simp_all [mapGet]
          · simp [hb]
        · by_cases hb : b = a
          · simp [mapGet, hb]
          · by_cases h : b < a
            · have h1 : b ≠ k := by omega
              have h2 : b < k := by omega
              simp [mapGet, hb, h, h1, h2]
            · simp [mapGet, hb, h]
      · by_cases hk : b = k
        · have : b ≠ a := by omega
          simp [mapGet, hk]; omega
        · by_cases h : b < k
          · have : b ≠ a := by omega
            simp [mapGet, hk, h, this]
          · simp [mapGet, hk, h, ih]

theorem mapGet_mapPut_self {α : Type} [DecidableEq α] (d : α) (m : List (Nat × α)) (a : Nat) (x : α) :
    mapGet d (mapPut d m a x) a = x := by simp [mapGet_mapPut]

theorem mapGet_mapPut_ne {α : Type} [DecidableEq α] (d : α) (m : List (Nat × α)) {a b : Nat} (x : α) (h : b ≠ a) :
    mapGet d (mapPut d m a x) b = mapGet d m b := by simp [mapGet_mapPut, h]

/-- Another key reads as before, whatever it reads as where it is not listed. -/
theorem mapGet_mapPut_other {α : Type} [DecidableEq α] (d d' : α) (m : List (Nat × α)) {a : Nat} (x : α) {b : Nat} (hb : b ≠ a) :
    mapGet d' (mapPut d m a x) b = mapGet d' m b := by
  induction m with
  | nil => by_cases hx : x = d <;> simp [mapPut, mapGet, hx, hb]
  | cons e m ih =>
    obtain ⟨k, v⟩ := e
    simp only [mapPut]
    split
    · subst_vars
      split
      · rw [mapGet_mapAbove]
        by_cases h : k < b
        · have : ¬ b < k := by omega
          simp [h, hb, mapGet, this]
        · have : b < k := by omega
          simp [h, hb, mapGet, this]
      · simp [mapGet, hb]
    · split
      · split
        · rfl
        · by_cases h : b < a
          · have h1 : b ≠ k := by omega
            have h2 : b < k := by omega
            simp [mapGet, hb, h, h1, h2]
          · simp [mapGet, hb, h]
      · simp only [mapGet, ih]

theorem mapWfFrom_mono {α : Type} [DecidableEq α] (d : α) (m : List (Nat × α)) {a b : Nat} (h : b ≤ a)
    (w : mapWfFrom d a m = true) : mapWfFrom d b m = true := by
  cases m with
  | nil => rfl
  | cons e m =>
    simp only [mapWfFrom, Bool.and_eq_true, decide_eq_true_eq] at w ⊢
    exact ⟨⟨by omega, w.1.2⟩, w.2⟩

theorem mapAbove_wf {α : Type} [DecidableEq α] (d : α) (m : List (Nat × α)) {a : Nat}
    (w : mapWfFrom d (a + 1) m = true) : mapAbove a m = m := by
  cases m with
  | nil => rfl
  | cons e m =>
    simp only [mapWfFrom, Bool.and_eq_true, decide_eq_true_eq] at w
    have : ¬ e.1 ≤ a := by omega
    simp [mapAbove, this]

theorem mapPut_wfFrom {α : Type} [DecidableEq α] (d : α) (m : List (Nat × α)) (a : Nat) (x : α) {b : Nat} (h : b ≤ a)
    (w : mapWfFrom d b m = true) : mapWfFrom d b (mapPut d m a x) = true := by
  induction m generalizing b with
  | nil => by_cases hx : x = d <;> simp [mapPut, hx, mapWfFrom, h]
  | cons e m ih =>
    obtain ⟨k, v⟩ := e
    have w' := w
    simp only [mapWfFrom, Bool.and_eq_true, decide_eq_true_eq] at w
    simp only [mapPut]
    split
    · subst_vars
      split
      · rw [mapAbove_wf d m w.2]
        exact mapWfFrom_mono d m (by omega) w.2
      · simp_all [mapWfFrom]
    · split
      · split
        · exact w'
        · simp only [mapWfFrom, Bool.and_eq_true, decide_eq_true_eq]
          exact ⟨⟨h, by assumption⟩, ⟨⟨by omega, w.1.2⟩, w.2⟩⟩
      · simp only [mapWfFrom, Bool.and_eq_true, decide_eq_true_eq]
        exact ⟨w.1, ih (by omega) w.2⟩

/-- A write keeps the canonical form. -/
theorem mapPut_wf {α : Type} [DecidableEq α] (d : α) (m : List (Nat × α)) (a : Nat) (x : α) (w : mapWf d m = true) :
    mapWf d (mapPut d m a x) = true := mapPut_wfFrom d m a x (Nat.zero_le a) w

/-- Finding after inserting, whatever the list. -/
theorem mapFind_mapInsert {α : Type} (m : List (Nat × α)) (a : Nat) (x : α) (b : Nat) :
    mapFind (mapInsert m a x) b = if b = a then some x else mapFind m b := by
  induction m with
  | nil => by_cases hb : b = a <;> simp [mapInsert, mapFind, hb]
  | cons e m ih =>
    obtain ⟨k, v⟩ := e
    simp only [mapInsert]
    split
    · subst_vars
      by_cases hb : b = k <;> simp [mapFind, hb]
    · split
      · by_cases hb : b = a
        · simp [mapFind, hb]
        · by_cases h : b < a
          · have h1 : b ≠ k := by omega
            have h2 : b < k := by omega
            simp [mapFind, hb, h, h1, h2]
          · simp [mapFind, hb, h]
      · by_cases hk : b = k
        · have : b ≠ a := by omega
          simp [mapFind, hk]; omega
        · by_cases h : b < k
          · have : b ≠ a := by omega
            simp [mapFind, hk, h, this]
          · simp [mapFind, hk, h, ih]

theorem mapFind_mapAbove {α : Type} (m : List (Nat × α)) (a b : Nat) :
    mapFind (mapAbove a m) b = if a < b then mapFind m b else none := by
  induction m with
  | nil => simp [mapAbove, mapFind]
  | cons e m ih =>
    obtain ⟨k, v⟩ := e
    simp only [mapAbove]
    split
    · rw [ih]
      by_cases h : a < b
      · have h1 : b ≠ k := by omega
        have h2 : ¬ b < k := by omega
        simp [h, mapFind, h1, h2]
      · simp [h]
    · by_cases h : a < b
      · simp [h]
      · have h1 : b ≠ k := by omega
        have h2 : b < k := by omega
        simp [h, mapFind, h1, h2]

/-- Finding after erasing, whatever the list. -/
theorem mapFind_mapErase {α : Type} (m : List (Nat × α)) (a b : Nat) :
    mapFind (mapErase m a) b = if b = a then none else mapFind m b := by
  induction m with
  | nil => simp [mapErase, mapFind]
  | cons e m ih =>
    obtain ⟨k, v⟩ := e
    simp only [mapErase]
    split
    · subst_vars
      rw [mapFind_mapAbove]
      by_cases hb : b = k
      · simp [hb]
      · by_cases h : k < b
        · have : ¬ b < k := by omega
          simp [h, hb, mapFind, this]
        · have : b < k := by omega
          simp [h, hb, mapFind, this]
    · by_cases hk : b = k
      · have : b ≠ a := by omega
        simp [mapFind, hk]; omega
      · by_cases h : b < k
        · simp [mapFind, hk, h]
        · simp [mapFind, hk, h, ih]

end Sys2Proof.Machine
end

