-- ==== Sys2Proof/Laws/State.lean ====
section
/-! SUPPORT. What each update of the state leaves: one lemma per field per update, so that no proof unfolds a record
update; and what the accessors read after an update. -/

namespace Sys2Proof.Machine

/-! ### setDie -/

@[simp] theorem State.setDie_mem (s : State) (d : Nat) (x : Die) : (s.setDie d x).mem = s.mem := rfl
@[simp] theorem State.setDie_poison (s : State) (d : Nat) (x : Die) : (s.setDie d x).poison = s.poison := rfl
@[simp] theorem State.setDie_fempty (s : State) (d : Nat) (x : Die) : (s.setDie d x).fempty = s.fempty := rfl
@[simp] theorem State.setDie_waves (s : State) (d : Nat) (x : Die) : (s.setDie d x).waves = s.waves := rfl
@[simp] theorem State.setDie_cohorts (s : State) (d : Nat) (x : Die) : (s.setDie d x).cohorts = s.cohorts := rfl
@[simp] theorem State.setDie_cores (s : State) (d : Nat) (x : Die) : (s.setDie d x).cores = s.cores := rfl
@[simp] theorem State.setDie_fabric (s : State) (d : Nat) (x : Die) : (s.setDie d x).fabric = s.fabric := rfl
@[simp] theorem State.setDie_sched (s : State) (d : Nat) (x : Die) : (s.setDie d x).sched = s.sched := rfl
@[simp] theorem State.setDie_snap (s : State) (d : Nat) (x : Die) : (s.setDie d x).snap = s.snap := rfl
@[simp] theorem State.setDie_trust (s : State) (d : Nat) (x : Die) : (s.setDie d x).trust = s.trust := rfl
@[simp] theorem State.setDie_doe (s : State) (d : Nat) (x : Die) : (s.setDie d x).doe = s.doe := rfl
@[simp] theorem State.setDie_power (s : State) (d : Nat) (x : Die) : (s.setDie d x).power = s.power := rfl
@[simp] theorem State.setDie_agenda (s : State) (d : Nat) (x : Die) : (s.setDie d x).agenda = s.agenda := rfl
@[simp] theorem State.setDie_cur (s : State) (d : Nat) (x : Die) : (s.setDie d x).cur = s.cur := rfl
@[simp] theorem State.setDie_clock (s : State) (d : Nat) (x : Die) : (s.setDie d x).clock = s.clock := rfl
@[simp] theorem State.setDie_ptp (s : State) (d : Nat) (x : Die) : (s.setDie d x).ptp = s.ptp := rfl
@[simp] theorem State.setDie_ids (s : State) (d : Nat) (x : Die) : (s.setDie d x).ids = s.ids := rfl
@[simp] theorem State.setDie_free (s : State) (d : Nat) (x : Die) : (s.setDie d x).free = s.free := rfl
@[simp] theorem State.setDie_hostData (s : State) (d : Nat) (x : Die) : (s.setDie d x).hostData = s.hostData := rfl
@[simp] theorem State.setDie_lpddr (s : State) (d : Nat) (x : Die) : (s.setDie d x).lpddr = s.lpddr := rfl
@[simp] theorem State.setDie_blocked (s : State) (d : Nat) (x : Die) : (s.setDie d x).blocked = s.blocked := rfl

/-! ### updDie -/

@[simp] theorem State.updDie_mem (s : State) (d : Nat) (f : Die → Die) : (s.updDie d f).mem = s.mem := rfl
@[simp] theorem State.updDie_poison (s : State) (d : Nat) (f : Die → Die) : (s.updDie d f).poison = s.poison := rfl
@[simp] theorem State.updDie_fempty (s : State) (d : Nat) (f : Die → Die) : (s.updDie d f).fempty = s.fempty := rfl
@[simp] theorem State.updDie_waves (s : State) (d : Nat) (f : Die → Die) : (s.updDie d f).waves = s.waves := rfl
@[simp] theorem State.updDie_cohorts (s : State) (d : Nat) (f : Die → Die) : (s.updDie d f).cohorts = s.cohorts := rfl
@[simp] theorem State.updDie_cores (s : State) (d : Nat) (f : Die → Die) : (s.updDie d f).cores = s.cores := rfl
@[simp] theorem State.updDie_fabric (s : State) (d : Nat) (f : Die → Die) : (s.updDie d f).fabric = s.fabric := rfl
@[simp] theorem State.updDie_sched (s : State) (d : Nat) (f : Die → Die) : (s.updDie d f).sched = s.sched := rfl
@[simp] theorem State.updDie_snap (s : State) (d : Nat) (f : Die → Die) : (s.updDie d f).snap = s.snap := rfl
@[simp] theorem State.updDie_trust (s : State) (d : Nat) (f : Die → Die) : (s.updDie d f).trust = s.trust := rfl
@[simp] theorem State.updDie_doe (s : State) (d : Nat) (f : Die → Die) : (s.updDie d f).doe = s.doe := rfl
@[simp] theorem State.updDie_power (s : State) (d : Nat) (f : Die → Die) : (s.updDie d f).power = s.power := rfl
@[simp] theorem State.updDie_agenda (s : State) (d : Nat) (f : Die → Die) : (s.updDie d f).agenda = s.agenda := rfl
@[simp] theorem State.updDie_cur (s : State) (d : Nat) (f : Die → Die) : (s.updDie d f).cur = s.cur := rfl
@[simp] theorem State.updDie_clock (s : State) (d : Nat) (f : Die → Die) : (s.updDie d f).clock = s.clock := rfl
@[simp] theorem State.updDie_ptp (s : State) (d : Nat) (f : Die → Die) : (s.updDie d f).ptp = s.ptp := rfl
@[simp] theorem State.updDie_ids (s : State) (d : Nat) (f : Die → Die) : (s.updDie d f).ids = s.ids := rfl
@[simp] theorem State.updDie_free (s : State) (d : Nat) (f : Die → Die) : (s.updDie d f).free = s.free := rfl
@[simp] theorem State.updDie_hostData (s : State) (d : Nat) (f : Die → Die) : (s.updDie d f).hostData = s.hostData := rfl
@[simp] theorem State.updDie_lpddr (s : State) (d : Nat) (f : Die → Die) : (s.updDie d f).lpddr = s.lpddr := rfl
@[simp] theorem State.updDie_blocked (s : State) (d : Nat) (f : Die → Die) : (s.updDie d f).blocked = s.blocked := rfl

/-! ### updTs -/

@[simp] theorem State.updTs_mem (s : State) (d : Nat) (f : Service → Service) : (s.updTs d f).mem = s.mem := rfl
@[simp] theorem State.updTs_poison (s : State) (d : Nat) (f : Service → Service) : (s.updTs d f).poison = s.poison := rfl
@[simp] theorem State.updTs_fempty (s : State) (d : Nat) (f : Service → Service) : (s.updTs d f).fempty = s.fempty := rfl
@[simp] theorem State.updTs_waves (s : State) (d : Nat) (f : Service → Service) : (s.updTs d f).waves = s.waves := rfl
@[simp] theorem State.updTs_cohorts (s : State) (d : Nat) (f : Service → Service) : (s.updTs d f).cohorts = s.cohorts := rfl
@[simp] theorem State.updTs_cores (s : State) (d : Nat) (f : Service → Service) : (s.updTs d f).cores = s.cores := rfl
@[simp] theorem State.updTs_fabric (s : State) (d : Nat) (f : Service → Service) : (s.updTs d f).fabric = s.fabric := rfl
@[simp] theorem State.updTs_sched (s : State) (d : Nat) (f : Service → Service) : (s.updTs d f).sched = s.sched := rfl
@[simp] theorem State.updTs_snap (s : State) (d : Nat) (f : Service → Service) : (s.updTs d f).snap = s.snap := rfl
@[simp] theorem State.updTs_trust (s : State) (d : Nat) (f : Service → Service) : (s.updTs d f).trust = s.trust := rfl
@[simp] theorem State.updTs_doe (s : State) (d : Nat) (f : Service → Service) : (s.updTs d f).doe = s.doe := rfl
@[simp] theorem State.updTs_power (s : State) (d : Nat) (f : Service → Service) : (s.updTs d f).power = s.power := rfl
@[simp] theorem State.updTs_agenda (s : State) (d : Nat) (f : Service → Service) : (s.updTs d f).agenda = s.agenda := rfl
@[simp] theorem State.updTs_cur (s : State) (d : Nat) (f : Service → Service) : (s.updTs d f).cur = s.cur := rfl
@[simp] theorem State.updTs_clock (s : State) (d : Nat) (f : Service → Service) : (s.updTs d f).clock = s.clock := rfl
@[simp] theorem State.updTs_ptp (s : State) (d : Nat) (f : Service → Service) : (s.updTs d f).ptp = s.ptp := rfl
@[simp] theorem State.updTs_ids (s : State) (d : Nat) (f : Service → Service) : (s.updTs d f).ids = s.ids := rfl
@[simp] theorem State.updTs_free (s : State) (d : Nat) (f : Service → Service) : (s.updTs d f).free = s.free := rfl
@[simp] theorem State.updTs_hostData (s : State) (d : Nat) (f : Service → Service) : (s.updTs d f).hostData = s.hostData := rfl
@[simp] theorem State.updTs_lpddr (s : State) (d : Nat) (f : Service → Service) : (s.updTs d f).lpddr = s.lpddr := rfl
@[simp] theorem State.updTs_blocked (s : State) (d : Nat) (f : Service → Service) : (s.updTs d f).blocked = s.blocked := rfl

/-! ### updL2 -/

@[simp] theorem State.updL2_mem (s : State) (d : Nat) (f : L2 → L2) : (s.updL2 d f).mem = s.mem := rfl
@[simp] theorem State.updL2_poison (s : State) (d : Nat) (f : L2 → L2) : (s.updL2 d f).poison = s.poison := rfl
@[simp] theorem State.updL2_fempty (s : State) (d : Nat) (f : L2 → L2) : (s.updL2 d f).fempty = s.fempty := rfl
@[simp] theorem State.updL2_waves (s : State) (d : Nat) (f : L2 → L2) : (s.updL2 d f).waves = s.waves := rfl
@[simp] theorem State.updL2_cohorts (s : State) (d : Nat) (f : L2 → L2) : (s.updL2 d f).cohorts = s.cohorts := rfl
@[simp] theorem State.updL2_cores (s : State) (d : Nat) (f : L2 → L2) : (s.updL2 d f).cores = s.cores := rfl
@[simp] theorem State.updL2_fabric (s : State) (d : Nat) (f : L2 → L2) : (s.updL2 d f).fabric = s.fabric := rfl
@[simp] theorem State.updL2_sched (s : State) (d : Nat) (f : L2 → L2) : (s.updL2 d f).sched = s.sched := rfl
@[simp] theorem State.updL2_snap (s : State) (d : Nat) (f : L2 → L2) : (s.updL2 d f).snap = s.snap := rfl
@[simp] theorem State.updL2_trust (s : State) (d : Nat) (f : L2 → L2) : (s.updL2 d f).trust = s.trust := rfl
@[simp] theorem State.updL2_doe (s : State) (d : Nat) (f : L2 → L2) : (s.updL2 d f).doe = s.doe := rfl
@[simp] theorem State.updL2_power (s : State) (d : Nat) (f : L2 → L2) : (s.updL2 d f).power = s.power := rfl
@[simp] theorem State.updL2_agenda (s : State) (d : Nat) (f : L2 → L2) : (s.updL2 d f).agenda = s.agenda := rfl
@[simp] theorem State.updL2_cur (s : State) (d : Nat) (f : L2 → L2) : (s.updL2 d f).cur = s.cur := rfl
@[simp] theorem State.updL2_clock (s : State) (d : Nat) (f : L2 → L2) : (s.updL2 d f).clock = s.clock := rfl
@[simp] theorem State.updL2_ptp (s : State) (d : Nat) (f : L2 → L2) : (s.updL2 d f).ptp = s.ptp := rfl
@[simp] theorem State.updL2_ids (s : State) (d : Nat) (f : L2 → L2) : (s.updL2 d f).ids = s.ids := rfl
@[simp] theorem State.updL2_free (s : State) (d : Nat) (f : L2 → L2) : (s.updL2 d f).free = s.free := rfl
@[simp] theorem State.updL2_hostData (s : State) (d : Nat) (f : L2 → L2) : (s.updL2 d f).hostData = s.hostData := rfl
@[simp] theorem State.updL2_lpddr (s : State) (d : Nat) (f : L2 → L2) : (s.updL2 d f).lpddr = s.lpddr := rfl
@[simp] theorem State.updL2_blocked (s : State) (d : Nat) (f : L2 → L2) : (s.updL2 d f).blocked = s.blocked := rfl

/-! ### updFit -/

@[simp] theorem State.updFit_mem (s : State) (d : Nat) (f : Fitting → Fitting) : (s.updFit d f).mem = s.mem := rfl
@[simp] theorem State.updFit_poison (s : State) (d : Nat) (f : Fitting → Fitting) : (s.updFit d f).poison = s.poison := rfl
@[simp] theorem State.updFit_fempty (s : State) (d : Nat) (f : Fitting → Fitting) : (s.updFit d f).fempty = s.fempty := rfl
@[simp] theorem State.updFit_waves (s : State) (d : Nat) (f : Fitting → Fitting) : (s.updFit d f).waves = s.waves := rfl
@[simp] theorem State.updFit_cohorts (s : State) (d : Nat) (f : Fitting → Fitting) : (s.updFit d f).cohorts = s.cohorts := rfl
@[simp] theorem State.updFit_cores (s : State) (d : Nat) (f : Fitting → Fitting) : (s.updFit d f).cores = s.cores := rfl
@[simp] theorem State.updFit_fabric (s : State) (d : Nat) (f : Fitting → Fitting) : (s.updFit d f).fabric = s.fabric := rfl
@[simp] theorem State.updFit_sched (s : State) (d : Nat) (f : Fitting → Fitting) : (s.updFit d f).sched = s.sched := rfl
@[simp] theorem State.updFit_snap (s : State) (d : Nat) (f : Fitting → Fitting) : (s.updFit d f).snap = s.snap := rfl
@[simp] theorem State.updFit_trust (s : State) (d : Nat) (f : Fitting → Fitting) : (s.updFit d f).trust = s.trust := rfl
@[simp] theorem State.updFit_doe (s : State) (d : Nat) (f : Fitting → Fitting) : (s.updFit d f).doe = s.doe := rfl
@[simp] theorem State.updFit_power (s : State) (d : Nat) (f : Fitting → Fitting) : (s.updFit d f).power = s.power := rfl
@[simp] theorem State.updFit_agenda (s : State) (d : Nat) (f : Fitting → Fitting) : (s.updFit d f).agenda = s.agenda := rfl
@[simp] theorem State.updFit_cur (s : State) (d : Nat) (f : Fitting → Fitting) : (s.updFit d f).cur = s.cur := rfl
@[simp] theorem State.updFit_clock (s : State) (d : Nat) (f : Fitting → Fitting) : (s.updFit d f).clock = s.clock := rfl
@[simp] theorem State.updFit_ptp (s : State) (d : Nat) (f : Fitting → Fitting) : (s.updFit d f).ptp = s.ptp := rfl
@[simp] theorem State.updFit_ids (s : State) (d : Nat) (f : Fitting → Fitting) : (s.updFit d f).ids = s.ids := rfl
@[simp] theorem State.updFit_free (s : State) (d : Nat) (f : Fitting → Fitting) : (s.updFit d f).free = s.free := rfl
@[simp] theorem State.updFit_hostData (s : State) (d : Nat) (f : Fitting → Fitting) : (s.updFit d f).hostData = s.hostData := rfl
@[simp] theorem State.updFit_lpddr (s : State) (d : Nat) (f : Fitting → Fitting) : (s.updFit d f).lpddr = s.lpddr := rfl
@[simp] theorem State.updFit_blocked (s : State) (d : Nat) (f : Fitting → Fitting) : (s.updFit d f).blocked = s.blocked := rfl

/-! ### setCore -/

@[simp] theorem State.setCore_mem (s : State) (c : Nat) (x : Core) : (s.setCore c x).mem = s.mem := rfl
@[simp] theorem State.setCore_poison (s : State) (c : Nat) (x : Core) : (s.setCore c x).poison = s.poison := rfl
@[simp] theorem State.setCore_fempty (s : State) (c : Nat) (x : Core) : (s.setCore c x).fempty = s.fempty := rfl
@[simp] theorem State.setCore_waves (s : State) (c : Nat) (x : Core) : (s.setCore c x).waves = s.waves := rfl
@[simp] theorem State.setCore_cohorts (s : State) (c : Nat) (x : Core) : (s.setCore c x).cohorts = s.cohorts := rfl
@[simp] theorem State.setCore_dies (s : State) (c : Nat) (x : Core) : (s.setCore c x).dies = s.dies := rfl
@[simp] theorem State.setCore_fabric (s : State) (c : Nat) (x : Core) : (s.setCore c x).fabric = s.fabric := rfl
@[simp] theorem State.setCore_sched (s : State) (c : Nat) (x : Core) : (s.setCore c x).sched = s.sched := rfl
@[simp] theorem State.setCore_snap (s : State) (c : Nat) (x : Core) : (s.setCore c x).snap = s.snap := rfl
@[simp] theorem State.setCore_trust (s : State) (c : Nat) (x : Core) : (s.setCore c x).trust = s.trust := rfl
@[simp] theorem State.setCore_doe (s : State) (c : Nat) (x : Core) : (s.setCore c x).doe = s.doe := rfl
@[simp] theorem State.setCore_power (s : State) (c : Nat) (x : Core) : (s.setCore c x).power = s.power := rfl
@[simp] theorem State.setCore_agenda (s : State) (c : Nat) (x : Core) : (s.setCore c x).agenda = s.agenda := rfl
@[simp] theorem State.setCore_cur (s : State) (c : Nat) (x : Core) : (s.setCore c x).cur = s.cur := rfl
@[simp] theorem State.setCore_clock (s : State) (c : Nat) (x : Core) : (s.setCore c x).clock = s.clock := rfl
@[simp] theorem State.setCore_ptp (s : State) (c : Nat) (x : Core) : (s.setCore c x).ptp = s.ptp := rfl
@[simp] theorem State.setCore_ids (s : State) (c : Nat) (x : Core) : (s.setCore c x).ids = s.ids := rfl
@[simp] theorem State.setCore_free (s : State) (c : Nat) (x : Core) : (s.setCore c x).free = s.free := rfl
@[simp] theorem State.setCore_hostData (s : State) (c : Nat) (x : Core) : (s.setCore c x).hostData = s.hostData := rfl
@[simp] theorem State.setCore_lpddr (s : State) (c : Nat) (x : Core) : (s.setCore c x).lpddr = s.lpddr := rfl
@[simp] theorem State.setCore_blocked (s : State) (c : Nat) (x : Core) : (s.setCore c x).blocked = s.blocked := rfl

/-! ### updCore -/

@[simp] theorem State.updCore_mem (s : State) (c : Nat) (f : Core → Core) : (s.updCore c f).mem = s.mem := rfl
@[simp] theorem State.updCore_poison (s : State) (c : Nat) (f : Core → Core) : (s.updCore c f).poison = s.poison := rfl
@[simp] theorem State.updCore_fempty (s : State) (c : Nat) (f : Core → Core) : (s.updCore c f).fempty = s.fempty := rfl
@[simp] theorem State.updCore_waves (s : State) (c : Nat) (f : Core → Core) : (s.updCore c f).waves = s.waves := rfl
@[simp] theorem State.updCore_cohorts (s : State) (c : Nat) (f : Core → Core) : (s.updCore c f).cohorts = s.cohorts := rfl
@[simp] theorem State.updCore_dies (s : State) (c : Nat) (f : Core → Core) : (s.updCore c f).dies = s.dies := rfl
@[simp] theorem State.updCore_fabric (s : State) (c : Nat) (f : Core → Core) : (s.updCore c f).fabric = s.fabric := rfl
@[simp] theorem State.updCore_sched (s : State) (c : Nat) (f : Core → Core) : (s.updCore c f).sched = s.sched := rfl
@[simp] theorem State.updCore_snap (s : State) (c : Nat) (f : Core → Core) : (s.updCore c f).snap = s.snap := rfl
@[simp] theorem State.updCore_trust (s : State) (c : Nat) (f : Core → Core) : (s.updCore c f).trust = s.trust := rfl
@[simp] theorem State.updCore_doe (s : State) (c : Nat) (f : Core → Core) : (s.updCore c f).doe = s.doe := rfl
@[simp] theorem State.updCore_power (s : State) (c : Nat) (f : Core → Core) : (s.updCore c f).power = s.power := rfl
@[simp] theorem State.updCore_agenda (s : State) (c : Nat) (f : Core → Core) : (s.updCore c f).agenda = s.agenda := rfl
@[simp] theorem State.updCore_cur (s : State) (c : Nat) (f : Core → Core) : (s.updCore c f).cur = s.cur := rfl
@[simp] theorem State.updCore_clock (s : State) (c : Nat) (f : Core → Core) : (s.updCore c f).clock = s.clock := rfl
@[simp] theorem State.updCore_ptp (s : State) (c : Nat) (f : Core → Core) : (s.updCore c f).ptp = s.ptp := rfl
@[simp] theorem State.updCore_ids (s : State) (c : Nat) (f : Core → Core) : (s.updCore c f).ids = s.ids := rfl
@[simp] theorem State.updCore_free (s : State) (c : Nat) (f : Core → Core) : (s.updCore c f).free = s.free := rfl
@[simp] theorem State.updCore_hostData (s : State) (c : Nat) (f : Core → Core) : (s.updCore c f).hostData = s.hostData := rfl
@[simp] theorem State.updCore_lpddr (s : State) (c : Nat) (f : Core → Core) : (s.updCore c f).lpddr = s.lpddr := rfl
@[simp] theorem State.updCore_blocked (s : State) (c : Nat) (f : Core → Core) : (s.updCore c f).blocked = s.blocked := rfl

/-! ### setWave -/

@[simp] theorem State.setWave_mem (s : State) (u : Nat) (w : Wave) : (s.setWave u w).mem = s.mem := rfl
@[simp] theorem State.setWave_poison (s : State) (u : Nat) (w : Wave) : (s.setWave u w).poison = s.poison := rfl
@[simp] theorem State.setWave_fempty (s : State) (u : Nat) (w : Wave) : (s.setWave u w).fempty = s.fempty := rfl
@[simp] theorem State.setWave_cohorts (s : State) (u : Nat) (w : Wave) : (s.setWave u w).cohorts = s.cohorts := rfl
@[simp] theorem State.setWave_cores (s : State) (u : Nat) (w : Wave) : (s.setWave u w).cores = s.cores := rfl
@[simp] theorem State.setWave_dies (s : State) (u : Nat) (w : Wave) : (s.setWave u w).dies = s.dies := rfl
@[simp] theorem State.setWave_fabric (s : State) (u : Nat) (w : Wave) : (s.setWave u w).fabric = s.fabric := rfl
@[simp] theorem State.setWave_sched (s : State) (u : Nat) (w : Wave) : (s.setWave u w).sched = s.sched := rfl
@[simp] theorem State.setWave_snap (s : State) (u : Nat) (w : Wave) : (s.setWave u w).snap = s.snap := rfl
@[simp] theorem State.setWave_trust (s : State) (u : Nat) (w : Wave) : (s.setWave u w).trust = s.trust := rfl
@[simp] theorem State.setWave_doe (s : State) (u : Nat) (w : Wave) : (s.setWave u w).doe = s.doe := rfl
@[simp] theorem State.setWave_power (s : State) (u : Nat) (w : Wave) : (s.setWave u w).power = s.power := rfl
@[simp] theorem State.setWave_agenda (s : State) (u : Nat) (w : Wave) : (s.setWave u w).agenda = s.agenda := rfl
@[simp] theorem State.setWave_cur (s : State) (u : Nat) (w : Wave) : (s.setWave u w).cur = s.cur := rfl
@[simp] theorem State.setWave_clock (s : State) (u : Nat) (w : Wave) : (s.setWave u w).clock = s.clock := rfl
@[simp] theorem State.setWave_ptp (s : State) (u : Nat) (w : Wave) : (s.setWave u w).ptp = s.ptp := rfl
@[simp] theorem State.setWave_ids (s : State) (u : Nat) (w : Wave) : (s.setWave u w).ids = s.ids := rfl
@[simp] theorem State.setWave_free (s : State) (u : Nat) (w : Wave) : (s.setWave u w).free = s.free := rfl
@[simp] theorem State.setWave_hostData (s : State) (u : Nat) (w : Wave) : (s.setWave u w).hostData = s.hostData := rfl
@[simp] theorem State.setWave_lpddr (s : State) (u : Nat) (w : Wave) : (s.setWave u w).lpddr = s.lpddr := rfl
@[simp] theorem State.setWave_blocked (s : State) (u : Nat) (w : Wave) : (s.setWave u w).blocked = s.blocked := rfl

/-! ### updWave -/

@[simp] theorem State.updWave_mem (s : State) (u : Nat) (f : Wave → Wave) : (s.updWave u f).mem = s.mem := by unfold State.updWave; split <;> rfl
@[simp] theorem State.updWave_poison (s : State) (u : Nat) (f : Wave → Wave) : (s.updWave u f).poison = s.poison := by unfold State.updWave; split <;> rfl
@[simp] theorem State.updWave_fempty (s : State) (u : Nat) (f : Wave → Wave) : (s.updWave u f).fempty = s.fempty := by unfold State.updWave; split <;> rfl
@[simp] theorem State.updWave_cohorts (s : State) (u : Nat) (f : Wave → Wave) : (s.updWave u f).cohorts = s.cohorts := by unfold State.updWave; split <;> rfl
@[simp] theorem State.updWave_cores (s : State) (u : Nat) (f : Wave → Wave) : (s.updWave u f).cores = s.cores := by unfold State.updWave; split <;> rfl
@[simp] theorem State.updWave_dies (s : State) (u : Nat) (f : Wave → Wave) : (s.updWave u f).dies = s.dies := by unfold State.updWave; split <;> rfl
@[simp] theorem State.updWave_fabric (s : State) (u : Nat) (f : Wave → Wave) : (s.updWave u f).fabric = s.fabric := by unfold State.updWave; split <;> rfl
@[simp] theorem State.updWave_sched (s : State) (u : Nat) (f : Wave → Wave) : (s.updWave u f).sched = s.sched := by unfold State.updWave; split <;> rfl
@[simp] theorem State.updWave_snap (s : State) (u : Nat) (f : Wave → Wave) : (s.updWave u f).snap = s.snap := by unfold State.updWave; split <;> rfl
@[simp] theorem State.updWave_trust (s : State) (u : Nat) (f : Wave → Wave) : (s.updWave u f).trust = s.trust := by unfold State.updWave; split <;> rfl
@[simp] theorem State.updWave_doe (s : State) (u : Nat) (f : Wave → Wave) : (s.updWave u f).doe = s.doe := by unfold State.updWave; split <;> rfl
@[simp] theorem State.updWave_power (s : State) (u : Nat) (f : Wave → Wave) : (s.updWave u f).power = s.power := by unfold State.updWave; split <;> rfl
@[simp] theorem State.updWave_agenda (s : State) (u : Nat) (f : Wave → Wave) : (s.updWave u f).agenda = s.agenda := by unfold State.updWave; split <;> rfl
@[simp] theorem State.updWave_cur (s : State) (u : Nat) (f : Wave → Wave) : (s.updWave u f).cur = s.cur := by unfold State.updWave; split <;> rfl
@[simp] theorem State.updWave_clock (s : State) (u : Nat) (f : Wave → Wave) : (s.updWave u f).clock = s.clock := by unfold State.updWave; split <;> rfl
@[simp] theorem State.updWave_ptp (s : State) (u : Nat) (f : Wave → Wave) : (s.updWave u f).ptp = s.ptp := by unfold State.updWave; split <;> rfl
@[simp] theorem State.updWave_ids (s : State) (u : Nat) (f : Wave → Wave) : (s.updWave u f).ids = s.ids := by unfold State.updWave; split <;> rfl
@[simp] theorem State.updWave_free (s : State) (u : Nat) (f : Wave → Wave) : (s.updWave u f).free = s.free := by unfold State.updWave; split <;> rfl
@[simp] theorem State.updWave_hostData (s : State) (u : Nat) (f : Wave → Wave) : (s.updWave u f).hostData = s.hostData := by unfold State.updWave; split <;> rfl
@[simp] theorem State.updWave_lpddr (s : State) (u : Nat) (f : Wave → Wave) : (s.updWave u f).lpddr = s.lpddr := by unfold State.updWave; split <;> rfl
@[simp] theorem State.updWave_blocked (s : State) (u : Nat) (f : Wave → Wave) : (s.updWave u f).blocked = s.blocked := by unfold State.updWave; split <;> rfl

/-! ### setCohort -/

@[simp] theorem State.setCohort_mem (s : State) (c : Nat) (x : Cohort) : (s.setCohort c x).mem = s.mem := rfl
@[simp] theorem State.setCohort_poison (s : State) (c : Nat) (x : Cohort) : (s.setCohort c x).poison = s.poison := rfl
@[simp] theorem State.setCohort_fempty (s : State) (c : Nat) (x : Cohort) : (s.setCohort c x).fempty = s.fempty := rfl
@[simp] theorem State.setCohort_waves (s : State) (c : Nat) (x : Cohort) : (s.setCohort c x).waves = s.waves := rfl
@[simp] theorem State.setCohort_cores (s : State) (c : Nat) (x : Cohort) : (s.setCohort c x).cores = s.cores := rfl
@[simp] theorem State.setCohort_dies (s : State) (c : Nat) (x : Cohort) : (s.setCohort c x).dies = s.dies := rfl
@[simp] theorem State.setCohort_fabric (s : State) (c : Nat) (x : Cohort) : (s.setCohort c x).fabric = s.fabric := rfl
@[simp] theorem State.setCohort_sched (s : State) (c : Nat) (x : Cohort) : (s.setCohort c x).sched = s.sched := rfl
@[simp] theorem State.setCohort_snap (s : State) (c : Nat) (x : Cohort) : (s.setCohort c x).snap = s.snap := rfl
@[simp] theorem State.setCohort_trust (s : State) (c : Nat) (x : Cohort) : (s.setCohort c x).trust = s.trust := rfl
@[simp] theorem State.setCohort_doe (s : State) (c : Nat) (x : Cohort) : (s.setCohort c x).doe = s.doe := rfl
@[simp] theorem State.setCohort_power (s : State) (c : Nat) (x : Cohort) : (s.setCohort c x).power = s.power := rfl
@[simp] theorem State.setCohort_agenda (s : State) (c : Nat) (x : Cohort) : (s.setCohort c x).agenda = s.agenda := rfl
@[simp] theorem State.setCohort_cur (s : State) (c : Nat) (x : Cohort) : (s.setCohort c x).cur = s.cur := rfl
@[simp] theorem State.setCohort_clock (s : State) (c : Nat) (x : Cohort) : (s.setCohort c x).clock = s.clock := rfl
@[simp] theorem State.setCohort_ptp (s : State) (c : Nat) (x : Cohort) : (s.setCohort c x).ptp = s.ptp := rfl
@[simp] theorem State.setCohort_ids (s : State) (c : Nat) (x : Cohort) : (s.setCohort c x).ids = s.ids := rfl
@[simp] theorem State.setCohort_free (s : State) (c : Nat) (x : Cohort) : (s.setCohort c x).free = s.free := rfl
@[simp] theorem State.setCohort_hostData (s : State) (c : Nat) (x : Cohort) : (s.setCohort c x).hostData = s.hostData := rfl
@[simp] theorem State.setCohort_lpddr (s : State) (c : Nat) (x : Cohort) : (s.setCohort c x).lpddr = s.lpddr := rfl
@[simp] theorem State.setCohort_blocked (s : State) (c : Nat) (x : Cohort) : (s.setCohort c x).blocked = s.blocked := rfl

/-! ### updCohort -/

@[simp] theorem State.updCohort_mem (s : State) (c : Nat) (f : Cohort → Cohort) : (s.updCohort c f).mem = s.mem := by unfold State.updCohort; split <;> rfl
@[simp] theorem State.updCohort_poison (s : State) (c : Nat) (f : Cohort → Cohort) : (s.updCohort c f).poison = s.poison := by unfold State.updCohort; split <;> rfl
@[simp] theorem State.updCohort_fempty (s : State) (c : Nat) (f : Cohort → Cohort) : (s.updCohort c f).fempty = s.fempty := by unfold State.updCohort; split <;> rfl
@[simp] theorem State.updCohort_waves (s : State) (c : Nat) (f : Cohort → Cohort) : (s.updCohort c f).waves = s.waves := by unfold State.updCohort; split <;> rfl
@[simp] theorem State.updCohort_cores (s : State) (c : Nat) (f : Cohort → Cohort) : (s.updCohort c f).cores = s.cores := by unfold State.updCohort; split <;> rfl
@[simp] theorem State.updCohort_dies (s : State) (c : Nat) (f : Cohort → Cohort) : (s.updCohort c f).dies = s.dies := by unfold State.updCohort; split <;> rfl
@[simp] theorem State.updCohort_fabric (s : State) (c : Nat) (f : Cohort → Cohort) : (s.updCohort c f).fabric = s.fabric := by unfold State.updCohort; split <;> rfl
@[simp] theorem State.updCohort_sched (s : State) (c : Nat) (f : Cohort → Cohort) : (s.updCohort c f).sched = s.sched := by unfold State.updCohort; split <;> rfl
@[simp] theorem State.updCohort_snap (s : State) (c : Nat) (f : Cohort → Cohort) : (s.updCohort c f).snap = s.snap := by unfold State.updCohort; split <;> rfl
@[simp] theorem State.updCohort_trust (s : State) (c : Nat) (f : Cohort → Cohort) : (s.updCohort c f).trust = s.trust := by unfold State.updCohort; split <;> rfl
@[simp] theorem State.updCohort_doe (s : State) (c : Nat) (f : Cohort → Cohort) : (s.updCohort c f).doe = s.doe := by unfold State.updCohort; split <;> rfl
@[simp] theorem State.updCohort_power (s : State) (c : Nat) (f : Cohort → Cohort) : (s.updCohort c f).power = s.power := by unfold State.updCohort; split <;> rfl
@[simp] theorem State.updCohort_agenda (s : State) (c : Nat) (f : Cohort → Cohort) : (s.updCohort c f).agenda = s.agenda := by unfold State.updCohort; split <;> rfl
@[simp] theorem State.updCohort_cur (s : State) (c : Nat) (f : Cohort → Cohort) : (s.updCohort c f).cur = s.cur := by unfold State.updCohort; split <;> rfl
@[simp] theorem State.updCohort_clock (s : State) (c : Nat) (f : Cohort → Cohort) : (s.updCohort c f).clock = s.clock := by unfold State.updCohort; split <;> rfl
@[simp] theorem State.updCohort_ptp (s : State) (c : Nat) (f : Cohort → Cohort) : (s.updCohort c f).ptp = s.ptp := by unfold State.updCohort; split <;> rfl
@[simp] theorem State.updCohort_ids (s : State) (c : Nat) (f : Cohort → Cohort) : (s.updCohort c f).ids = s.ids := by unfold State.updCohort; split <;> rfl
@[simp] theorem State.updCohort_free (s : State) (c : Nat) (f : Cohort → Cohort) : (s.updCohort c f).free = s.free := by unfold State.updCohort; split <;> rfl
@[simp] theorem State.updCohort_hostData (s : State) (c : Nat) (f : Cohort → Cohort) : (s.updCohort c f).hostData = s.hostData := by unfold State.updCohort; split <;> rfl
@[simp] theorem State.updCohort_lpddr (s : State) (c : Nat) (f : Cohort → Cohort) : (s.updCohort c f).lpddr = s.lpddr := by unfold State.updCohort; split <;> rfl
@[simp] theorem State.updCohort_blocked (s : State) (c : Nat) (f : Cohort → Cohort) : (s.updCohort c f).blocked = s.blocked := by unfold State.updCohort; split <;> rfl

/-! ### updTask -/

@[simp] theorem State.updTask_mem (s : State) (t : Nat) (f : Task → Task) : (s.updTask t f).mem = s.mem := rfl
@[simp] theorem State.updTask_poison (s : State) (t : Nat) (f : Task → Task) : (s.updTask t f).poison = s.poison := rfl
@[simp] theorem State.updTask_fempty (s : State) (t : Nat) (f : Task → Task) : (s.updTask t f).fempty = s.fempty := rfl
@[simp] theorem State.updTask_waves (s : State) (t : Nat) (f : Task → Task) : (s.updTask t f).waves = s.waves := rfl
@[simp] theorem State.updTask_cohorts (s : State) (t : Nat) (f : Task → Task) : (s.updTask t f).cohorts = s.cohorts := rfl
@[simp] theorem State.updTask_cores (s : State) (t : Nat) (f : Task → Task) : (s.updTask t f).cores = s.cores := rfl
@[simp] theorem State.updTask_dies (s : State) (t : Nat) (f : Task → Task) : (s.updTask t f).dies = s.dies := rfl
@[simp] theorem State.updTask_fabric (s : State) (t : Nat) (f : Task → Task) : (s.updTask t f).fabric = s.fabric := rfl
@[simp] theorem State.updTask_snap (s : State) (t : Nat) (f : Task → Task) : (s.updTask t f).snap = s.snap := rfl
@[simp] theorem State.updTask_trust (s : State) (t : Nat) (f : Task → Task) : (s.updTask t f).trust = s.trust := rfl
@[simp] theorem State.updTask_doe (s : State) (t : Nat) (f : Task → Task) : (s.updTask t f).doe = s.doe := rfl
@[simp] theorem State.updTask_power (s : State) (t : Nat) (f : Task → Task) : (s.updTask t f).power = s.power := rfl
@[simp] theorem State.updTask_agenda (s : State) (t : Nat) (f : Task → Task) : (s.updTask t f).agenda = s.agenda := rfl
@[simp] theorem State.updTask_cur (s : State) (t : Nat) (f : Task → Task) : (s.updTask t f).cur = s.cur := rfl
@[simp] theorem State.updTask_clock (s : State) (t : Nat) (f : Task → Task) : (s.updTask t f).clock = s.clock := rfl
@[simp] theorem State.updTask_ptp (s : State) (t : Nat) (f : Task → Task) : (s.updTask t f).ptp = s.ptp := rfl
@[simp] theorem State.updTask_ids (s : State) (t : Nat) (f : Task → Task) : (s.updTask t f).ids = s.ids := rfl
@[simp] theorem State.updTask_free (s : State) (t : Nat) (f : Task → Task) : (s.updTask t f).free = s.free := rfl
@[simp] theorem State.updTask_hostData (s : State) (t : Nat) (f : Task → Task) : (s.updTask t f).hostData = s.hostData := rfl
@[simp] theorem State.updTask_lpddr (s : State) (t : Nat) (f : Task → Task) : (s.updTask t f).lpddr = s.lpddr := rfl
@[simp] theorem State.updTask_blocked (s : State) (t : Nat) (f : Task → Task) : (s.updTask t f).blocked = s.blocked := rfl

/-! ### updFabric -/

@[simp] theorem State.updFabric_mem (s : State) (f : Fabric → Fabric) : (s.updFabric f).mem = s.mem := rfl
@[simp] theorem State.updFabric_poison (s : State) (f : Fabric → Fabric) : (s.updFabric f).poison = s.poison := rfl
@[simp] theorem State.updFabric_fempty (s : State) (f : Fabric → Fabric) : (s.updFabric f).fempty = s.fempty := rfl
@[simp] theorem State.updFabric_waves (s : State) (f : Fabric → Fabric) : (s.updFabric f).waves = s.waves := rfl
@[simp] theorem State.updFabric_cohorts (s : State) (f : Fabric → Fabric) : (s.updFabric f).cohorts = s.cohorts := rfl
@[simp] theorem State.updFabric_cores (s : State) (f : Fabric → Fabric) : (s.updFabric f).cores = s.cores := rfl
@[simp] theorem State.updFabric_dies (s : State) (f : Fabric → Fabric) : (s.updFabric f).dies = s.dies := rfl
@[simp] theorem State.updFabric_sched (s : State) (f : Fabric → Fabric) : (s.updFabric f).sched = s.sched := rfl
@[simp] theorem State.updFabric_snap (s : State) (f : Fabric → Fabric) : (s.updFabric f).snap = s.snap := rfl
@[simp] theorem State.updFabric_trust (s : State) (f : Fabric → Fabric) : (s.updFabric f).trust = s.trust := rfl
@[simp] theorem State.updFabric_doe (s : State) (f : Fabric → Fabric) : (s.updFabric f).doe = s.doe := rfl
@[simp] theorem State.updFabric_power (s : State) (f : Fabric → Fabric) : (s.updFabric f).power = s.power := rfl
@[simp] theorem State.updFabric_agenda (s : State) (f : Fabric → Fabric) : (s.updFabric f).agenda = s.agenda := rfl
@[simp] theorem State.updFabric_cur (s : State) (f : Fabric → Fabric) : (s.updFabric f).cur = s.cur := rfl
@[simp] theorem State.updFabric_clock (s : State) (f : Fabric → Fabric) : (s.updFabric f).clock = s.clock := rfl
@[simp] theorem State.updFabric_ptp (s : State) (f : Fabric → Fabric) : (s.updFabric f).ptp = s.ptp := rfl
@[simp] theorem State.updFabric_ids (s : State) (f : Fabric → Fabric) : (s.updFabric f).ids = s.ids := rfl
@[simp] theorem State.updFabric_free (s : State) (f : Fabric → Fabric) : (s.updFabric f).free = s.free := rfl
@[simp] theorem State.updFabric_hostData (s : State) (f : Fabric → Fabric) : (s.updFabric f).hostData = s.hostData := rfl
@[simp] theorem State.updFabric_lpddr (s : State) (f : Fabric → Fabric) : (s.updFabric f).lpddr = s.lpddr := rfl
@[simp] theorem State.updFabric_blocked (s : State) (f : Fabric → Fabric) : (s.updFabric f).blocked = s.blocked := rfl

/-! ### updQueue -/

@[simp] theorem State.updQueue_mem (s : State) (q : Nat) (f : Queue → Queue) : (s.updQueue q f).mem = s.mem := rfl
@[simp] theorem State.updQueue_poison (s : State) (q : Nat) (f : Queue → Queue) : (s.updQueue q f).poison = s.poison := rfl
@[simp] theorem State.updQueue_fempty (s : State) (q : Nat) (f : Queue → Queue) : (s.updQueue q f).fempty = s.fempty := rfl
@[simp] theorem State.updQueue_waves (s : State) (q : Nat) (f : Queue → Queue) : (s.updQueue q f).waves = s.waves := rfl
@[simp] theorem State.updQueue_cohorts (s : State) (q : Nat) (f : Queue → Queue) : (s.updQueue q f).cohorts = s.cohorts := rfl
@[simp] theorem State.updQueue_cores (s : State) (q : Nat) (f : Queue → Queue) : (s.updQueue q f).cores = s.cores := rfl
@[simp] theorem State.updQueue_dies (s : State) (q : Nat) (f : Queue → Queue) : (s.updQueue q f).dies = s.dies := rfl
@[simp] theorem State.updQueue_fabric (s : State) (q : Nat) (f : Queue → Queue) : (s.updQueue q f).fabric = s.fabric := rfl
@[simp] theorem State.updQueue_snap (s : State) (q : Nat) (f : Queue → Queue) : (s.updQueue q f).snap = s.snap := rfl
@[simp] theorem State.updQueue_trust (s : State) (q : Nat) (f : Queue → Queue) : (s.updQueue q f).trust = s.trust := rfl
@[simp] theorem State.updQueue_doe (s : State) (q : Nat) (f : Queue → Queue) : (s.updQueue q f).doe = s.doe := rfl
@[simp] theorem State.updQueue_power (s : State) (q : Nat) (f : Queue → Queue) : (s.updQueue q f).power = s.power := rfl
@[simp] theorem State.updQueue_agenda (s : State) (q : Nat) (f : Queue → Queue) : (s.updQueue q f).agenda = s.agenda := rfl
@[simp] theorem State.updQueue_cur (s : State) (q : Nat) (f : Queue → Queue) : (s.updQueue q f).cur = s.cur := rfl
@[simp] theorem State.updQueue_clock (s : State) (q : Nat) (f : Queue → Queue) : (s.updQueue q f).clock = s.clock := rfl
@[simp] theorem State.updQueue_ptp (s : State) (q : Nat) (f : Queue → Queue) : (s.updQueue q f).ptp = s.ptp := rfl
@[simp] theorem State.updQueue_ids (s : State) (q : Nat) (f : Queue → Queue) : (s.updQueue q f).ids = s.ids := rfl
@[simp] theorem State.updQueue_free (s : State) (q : Nat) (f : Queue → Queue) : (s.updQueue q f).free = s.free := rfl
@[simp] theorem State.updQueue_hostData (s : State) (q : Nat) (f : Queue → Queue) : (s.updQueue q f).hostData = s.hostData := rfl
@[simp] theorem State.updQueue_lpddr (s : State) (q : Nat) (f : Queue → Queue) : (s.updQueue q f).lpddr = s.lpddr := rfl
@[simp] theorem State.updQueue_blocked (s : State) (q : Nat) (f : Queue → Queue) : (s.updQueue q f).blocked = s.blocked := rfl

/-! ### setWorld -/

@[simp] theorem State.setWorld_mem (s : State) (n : Nat) (x : World) : (s.setWorld n x).mem = s.mem := rfl
@[simp] theorem State.setWorld_poison (s : State) (n : Nat) (x : World) : (s.setWorld n x).poison = s.poison := rfl
@[simp] theorem State.setWorld_fempty (s : State) (n : Nat) (x : World) : (s.setWorld n x).fempty = s.fempty := rfl
@[simp] theorem State.setWorld_waves (s : State) (n : Nat) (x : World) : (s.setWorld n x).waves = s.waves := rfl
@[simp] theorem State.setWorld_cohorts (s : State) (n : Nat) (x : World) : (s.setWorld n x).cohorts = s.cohorts := rfl
@[simp] theorem State.setWorld_cores (s : State) (n : Nat) (x : World) : (s.setWorld n x).cores = s.cores := rfl
@[simp] theorem State.setWorld_dies (s : State) (n : Nat) (x : World) : (s.setWorld n x).dies = s.dies := rfl
@[simp] theorem State.setWorld_fabric (s : State) (n : Nat) (x : World) : (s.setWorld n x).fabric = s.fabric := rfl
@[simp] theorem State.setWorld_sched (s : State) (n : Nat) (x : World) : (s.setWorld n x).sched = s.sched := rfl
@[simp] theorem State.setWorld_snap (s : State) (n : Nat) (x : World) : (s.setWorld n x).snap = s.snap := rfl
@[simp] theorem State.setWorld_doe (s : State) (n : Nat) (x : World) : (s.setWorld n x).doe = s.doe := rfl
@[simp] theorem State.setWorld_power (s : State) (n : Nat) (x : World) : (s.setWorld n x).power = s.power := rfl
@[simp] theorem State.setWorld_agenda (s : State) (n : Nat) (x : World) : (s.setWorld n x).agenda = s.agenda := rfl
@[simp] theorem State.setWorld_cur (s : State) (n : Nat) (x : World) : (s.setWorld n x).cur = s.cur := rfl
@[simp] theorem State.setWorld_clock (s : State) (n : Nat) (x : World) : (s.setWorld n x).clock = s.clock := rfl
@[simp] theorem State.setWorld_ptp (s : State) (n : Nat) (x : World) : (s.setWorld n x).ptp = s.ptp := rfl
@[simp] theorem State.setWorld_ids (s : State) (n : Nat) (x : World) : (s.setWorld n x).ids = s.ids := rfl
@[simp] theorem State.setWorld_free (s : State) (n : Nat) (x : World) : (s.setWorld n x).free = s.free := rfl
@[simp] theorem State.setWorld_hostData (s : State) (n : Nat) (x : World) : (s.setWorld n x).hostData = s.hostData := rfl
@[simp] theorem State.setWorld_lpddr (s : State) (n : Nat) (x : World) : (s.setWorld n x).lpddr = s.lpddr := rfl
@[simp] theorem State.setWorld_blocked (s : State) (n : Nat) (x : World) : (s.setWorld n x).blocked = s.blocked := rfl

/-! ### setIface -/

@[simp] theorem State.setIface_mem (s : State) (n : Nat) (x : IfaceState) : (s.setIface n x).mem = s.mem := rfl
@[simp] theorem State.setIface_poison (s : State) (n : Nat) (x : IfaceState) : (s.setIface n x).poison = s.poison := rfl
@[simp] theorem State.setIface_fempty (s : State) (n : Nat) (x : IfaceState) : (s.setIface n x).fempty = s.fempty := rfl
@[simp] theorem State.setIface_waves (s : State) (n : Nat) (x : IfaceState) : (s.setIface n x).waves = s.waves := rfl
@[simp] theorem State.setIface_cohorts (s : State) (n : Nat) (x : IfaceState) : (s.setIface n x).cohorts = s.cohorts := rfl
@[simp] theorem State.setIface_cores (s : State) (n : Nat) (x : IfaceState) : (s.setIface n x).cores = s.cores := rfl
@[simp] theorem State.setIface_dies (s : State) (n : Nat) (x : IfaceState) : (s.setIface n x).dies = s.dies := rfl
@[simp] theorem State.setIface_fabric (s : State) (n : Nat) (x : IfaceState) : (s.setIface n x).fabric = s.fabric := rfl
@[simp] theorem State.setIface_sched (s : State) (n : Nat) (x : IfaceState) : (s.setIface n x).sched = s.sched := rfl
@[simp] theorem State.setIface_snap (s : State) (n : Nat) (x : IfaceState) : (s.setIface n x).snap = s.snap := rfl
@[simp] theorem State.setIface_doe (s : State) (n : Nat) (x : IfaceState) : (s.setIface n x).doe = s.doe := rfl
@[simp] theorem State.setIface_power (s : State) (n : Nat) (x : IfaceState) : (s.setIface n x).power = s.power := rfl
@[simp] theorem State.setIface_agenda (s : State) (n : Nat) (x : IfaceState) : (s.setIface n x).agenda = s.agenda := rfl
@[simp] theorem State.setIface_cur (s : State) (n : Nat) (x : IfaceState) : (s.setIface n x).cur = s.cur := rfl
@[simp] theorem State.setIface_clock (s : State) (n : Nat) (x : IfaceState) : (s.setIface n x).clock = s.clock := rfl
@[simp] theorem State.setIface_ptp (s : State) (n : Nat) (x : IfaceState) : (s.setIface n x).ptp = s.ptp := rfl
@[simp] theorem State.setIface_ids (s : State) (n : Nat) (x : IfaceState) : (s.setIface n x).ids = s.ids := rfl
@[simp] theorem State.setIface_free (s : State) (n : Nat) (x : IfaceState) : (s.setIface n x).free = s.free := rfl
@[simp] theorem State.setIface_hostData (s : State) (n : Nat) (x : IfaceState) : (s.setIface n x).hostData = s.hostData := rfl
@[simp] theorem State.setIface_lpddr (s : State) (n : Nat) (x : IfaceState) : (s.setIface n x).lpddr = s.lpddr := rfl
@[simp] theorem State.setIface_blocked (s : State) (n : Nat) (x : IfaceState) : (s.setIface n x).blocked = s.blocked := rfl

/-! ### setByte -/

@[simp] theorem State.setByte_poison (s : State) (pa : Nat) (b : Byte) : (s.setByte pa b).poison = s.poison := rfl
@[simp] theorem State.setByte_fempty (s : State) (pa : Nat) (b : Byte) : (s.setByte pa b).fempty = s.fempty := rfl
@[simp] theorem State.setByte_waves (s : State) (pa : Nat) (b : Byte) : (s.setByte pa b).waves = s.waves := rfl
@[simp] theorem State.setByte_cohorts (s : State) (pa : Nat) (b : Byte) : (s.setByte pa b).cohorts = s.cohorts := rfl
@[simp] theorem State.setByte_cores (s : State) (pa : Nat) (b : Byte) : (s.setByte pa b).cores = s.cores := rfl
@[simp] theorem State.setByte_dies (s : State) (pa : Nat) (b : Byte) : (s.setByte pa b).dies = s.dies := rfl
@[simp] theorem State.setByte_fabric (s : State) (pa : Nat) (b : Byte) : (s.setByte pa b).fabric = s.fabric := rfl
@[simp] theorem State.setByte_sched (s : State) (pa : Nat) (b : Byte) : (s.setByte pa b).sched = s.sched := rfl
@[simp] theorem State.setByte_snap (s : State) (pa : Nat) (b : Byte) : (s.setByte pa b).snap = s.snap := rfl
@[simp] theorem State.setByte_trust (s : State) (pa : Nat) (b : Byte) : (s.setByte pa b).trust = s.trust := rfl
@[simp] theorem State.setByte_doe (s : State) (pa : Nat) (b : Byte) : (s.setByte pa b).doe = s.doe := rfl
@[simp] theorem State.setByte_power (s : State) (pa : Nat) (b : Byte) : (s.setByte pa b).power = s.power := rfl
@[simp] theorem State.setByte_agenda (s : State) (pa : Nat) (b : Byte) : (s.setByte pa b).agenda = s.agenda := rfl
@[simp] theorem State.setByte_cur (s : State) (pa : Nat) (b : Byte) : (s.setByte pa b).cur = s.cur := rfl
@[simp] theorem State.setByte_clock (s : State) (pa : Nat) (b : Byte) : (s.setByte pa b).clock = s.clock := rfl
@[simp] theorem State.setByte_ptp (s : State) (pa : Nat) (b : Byte) : (s.setByte pa b).ptp = s.ptp := rfl
@[simp] theorem State.setByte_ids (s : State) (pa : Nat) (b : Byte) : (s.setByte pa b).ids = s.ids := rfl
@[simp] theorem State.setByte_free (s : State) (pa : Nat) (b : Byte) : (s.setByte pa b).free = s.free := rfl
@[simp] theorem State.setByte_hostData (s : State) (pa : Nat) (b : Byte) : (s.setByte pa b).hostData = s.hostData := rfl
@[simp] theorem State.setByte_lpddr (s : State) (pa : Nat) (b : Byte) : (s.setByte pa b).lpddr = s.lpddr := rfl
@[simp] theorem State.setByte_blocked (s : State) (pa : Nat) (b : Byte) : (s.setByte pa b).blocked = s.blocked := rfl

/-! ### releaseHolder -/

@[simp] theorem State.releaseHolder_mem (s : State) (u core : Nat) : (s.releaseHolder u core).mem = s.mem := by unfold State.releaseHolder; split <;> rfl
@[simp] theorem State.releaseHolder_poison (s : State) (u core : Nat) : (s.releaseHolder u core).poison = s.poison := by unfold State.releaseHolder; split <;> rfl
@[simp] theorem State.releaseHolder_fempty (s : State) (u core : Nat) : (s.releaseHolder u core).fempty = s.fempty := by unfold State.releaseHolder; split <;> rfl
@[simp] theorem State.releaseHolder_waves (s : State) (u core : Nat) : (s.releaseHolder u core).waves = s.waves := by unfold State.releaseHolder; split <;> rfl
@[simp] theorem State.releaseHolder_cohorts (s : State) (u core : Nat) : (s.releaseHolder u core).cohorts = s.cohorts := by unfold State.releaseHolder; split <;> rfl
@[simp] theorem State.releaseHolder_dies (s : State) (u core : Nat) : (s.releaseHolder u core).dies = s.dies := by unfold State.releaseHolder; split <;> rfl
@[simp] theorem State.releaseHolder_fabric (s : State) (u core : Nat) : (s.releaseHolder u core).fabric = s.fabric := by unfold State.releaseHolder; split <;> rfl
@[simp] theorem State.releaseHolder_sched (s : State) (u core : Nat) : (s.releaseHolder u core).sched = s.sched := by unfold State.releaseHolder; split <;> rfl
@[simp] theorem State.releaseHolder_snap (s : State) (u core : Nat) : (s.releaseHolder u core).snap = s.snap := by unfold State.releaseHolder; split <;> rfl
@[simp] theorem State.releaseHolder_trust (s : State) (u core : Nat) : (s.releaseHolder u core).trust = s.trust := by unfold State.releaseHolder; split <;> rfl
@[simp] theorem State.releaseHolder_doe (s : State) (u core : Nat) : (s.releaseHolder u core).doe = s.doe := by unfold State.releaseHolder; split <;> rfl
@[simp] theorem State.releaseHolder_power (s : State) (u core : Nat) : (s.releaseHolder u core).power = s.power := by unfold State.releaseHolder; split <;> rfl
@[simp] theorem State.releaseHolder_agenda (s : State) (u core : Nat) : (s.releaseHolder u core).agenda = s.agenda := by unfold State.releaseHolder; split <;> rfl
@[simp] theorem State.releaseHolder_cur (s : State) (u core : Nat) : (s.releaseHolder u core).cur = s.cur := by unfold State.releaseHolder; split <;> rfl
@[simp] theorem State.releaseHolder_clock (s : State) (u core : Nat) : (s.releaseHolder u core).clock = s.clock := by unfold State.releaseHolder; split <;> rfl
@[simp] theorem State.releaseHolder_ptp (s : State) (u core : Nat) : (s.releaseHolder u core).ptp = s.ptp := by unfold State.releaseHolder; split <;> rfl
@[simp] theorem State.releaseHolder_ids (s : State) (u core : Nat) : (s.releaseHolder u core).ids = s.ids := by unfold State.releaseHolder; split <;> rfl
@[simp] theorem State.releaseHolder_free (s : State) (u core : Nat) : (s.releaseHolder u core).free = s.free := by unfold State.releaseHolder; split <;> rfl
@[simp] theorem State.releaseHolder_hostData (s : State) (u core : Nat) : (s.releaseHolder u core).hostData = s.hostData := by unfold State.releaseHolder; split <;> rfl
@[simp] theorem State.releaseHolder_lpddr (s : State) (u core : Nat) : (s.releaseHolder u core).lpddr = s.lpddr := by unfold State.releaseHolder; split <;> rfl
@[simp] theorem State.releaseHolder_blocked (s : State) (u core : Nat) : (s.releaseHolder u core).blocked = s.blocked := by unfold State.releaseHolder; split <;> rfl

/-! ### yieldCore -/

@[simp] theorem State.yieldCore_mem (s : State) (u core : Nat) (wt : Wait) : (s.yieldCore u core wt).mem = s.mem := by unfold State.yieldCore; split <;> simp
@[simp] theorem State.yieldCore_poison (s : State) (u core : Nat) (wt : Wait) : (s.yieldCore u core wt).poison = s.poison := by unfold State.yieldCore; split <;> simp
@[simp] theorem State.yieldCore_fempty (s : State) (u core : Nat) (wt : Wait) : (s.yieldCore u core wt).fempty = s.fempty := by unfold State.yieldCore; split <;> simp
@[simp] theorem State.yieldCore_waves (s : State) (u core : Nat) (wt : Wait) : (s.yieldCore u core wt).waves = s.waves := by unfold State.yieldCore; split <;> simp
@[simp] theorem State.yieldCore_cohorts (s : State) (u core : Nat) (wt : Wait) : (s.yieldCore u core wt).cohorts = s.cohorts := by unfold State.yieldCore; split <;> simp
@[simp] theorem State.yieldCore_dies (s : State) (u core : Nat) (wt : Wait) : (s.yieldCore u core wt).dies = s.dies := by unfold State.yieldCore; split <;> simp
@[simp] theorem State.yieldCore_fabric (s : State) (u core : Nat) (wt : Wait) : (s.yieldCore u core wt).fabric = s.fabric := by unfold State.yieldCore; split <;> simp
@[simp] theorem State.yieldCore_sched (s : State) (u core : Nat) (wt : Wait) : (s.yieldCore u core wt).sched = s.sched := by unfold State.yieldCore; split <;> simp
@[simp] theorem State.yieldCore_snap (s : State) (u core : Nat) (wt : Wait) : (s.yieldCore u core wt).snap = s.snap := by unfold State.yieldCore; split <;> simp
@[simp] theorem State.yieldCore_trust (s : State) (u core : Nat) (wt : Wait) : (s.yieldCore u core wt).trust = s.trust := by unfold State.yieldCore; split <;> simp
@[simp] theorem State.yieldCore_doe (s : State) (u core : Nat) (wt : Wait) : (s.yieldCore u core wt).doe = s.doe := by unfold State.yieldCore; split <;> simp
@[simp] theorem State.yieldCore_power (s : State) (u core : Nat) (wt : Wait) : (s.yieldCore u core wt).power = s.power := by unfold State.yieldCore; split <;> simp
@[simp] theorem State.yieldCore_agenda (s : State) (u core : Nat) (wt : Wait) : (s.yieldCore u core wt).agenda = s.agenda := by unfold State.yieldCore; split <;> simp
@[simp] theorem State.yieldCore_cur (s : State) (u core : Nat) (wt : Wait) : (s.yieldCore u core wt).cur = s.cur := by unfold State.yieldCore; split <;> simp
@[simp] theorem State.yieldCore_clock (s : State) (u core : Nat) (wt : Wait) : (s.yieldCore u core wt).clock = s.clock := by unfold State.yieldCore; split <;> simp
@[simp] theorem State.yieldCore_ptp (s : State) (u core : Nat) (wt : Wait) : (s.yieldCore u core wt).ptp = s.ptp := by unfold State.yieldCore; split <;> simp
@[simp] theorem State.yieldCore_ids (s : State) (u core : Nat) (wt : Wait) : (s.yieldCore u core wt).ids = s.ids := by unfold State.yieldCore; split <;> simp
@[simp] theorem State.yieldCore_free (s : State) (u core : Nat) (wt : Wait) : (s.yieldCore u core wt).free = s.free := by unfold State.yieldCore; split <;> simp
@[simp] theorem State.yieldCore_hostData (s : State) (u core : Nat) (wt : Wait) : (s.yieldCore u core wt).hostData = s.hostData := by unfold State.yieldCore; split <;> simp
@[simp] theorem State.yieldCore_lpddr (s : State) (u core : Nat) (wt : Wait) : (s.yieldCore u core wt).lpddr = s.lpddr := by unfold State.yieldCore; split <;> simp
@[simp] theorem State.yieldCore_blocked (s : State) (u core : Nat) (wt : Wait) : (s.yieldCore u core wt).blocked = s.blocked := by unfold State.yieldCore; split <;> simp

/-! ### noteIssue -/

@[simp] theorem State.noteIssue_mem (s : State) (core tenant : Nat) : (s.noteIssue core tenant).mem = s.mem := rfl
@[simp] theorem State.noteIssue_poison (s : State) (core tenant : Nat) : (s.noteIssue core tenant).poison = s.poison := rfl
@[simp] theorem State.noteIssue_fempty (s : State) (core tenant : Nat) : (s.noteIssue core tenant).fempty = s.fempty := rfl
@[simp] theorem State.noteIssue_waves (s : State) (core tenant : Nat) : (s.noteIssue core tenant).waves = s.waves := rfl
@[simp] theorem State.noteIssue_cohorts (s : State) (core tenant : Nat) : (s.noteIssue core tenant).cohorts = s.cohorts := rfl
@[simp] theorem State.noteIssue_dies (s : State) (core tenant : Nat) : (s.noteIssue core tenant).dies = s.dies := rfl
@[simp] theorem State.noteIssue_fabric (s : State) (core tenant : Nat) : (s.noteIssue core tenant).fabric = s.fabric := rfl
@[simp] theorem State.noteIssue_sched (s : State) (core tenant : Nat) : (s.noteIssue core tenant).sched = s.sched := rfl
@[simp] theorem State.noteIssue_snap (s : State) (core tenant : Nat) : (s.noteIssue core tenant).snap = s.snap := rfl
@[simp] theorem State.noteIssue_trust (s : State) (core tenant : Nat) : (s.noteIssue core tenant).trust = s.trust := rfl
@[simp] theorem State.noteIssue_doe (s : State) (core tenant : Nat) : (s.noteIssue core tenant).doe = s.doe := rfl
@[simp] theorem State.noteIssue_power (s : State) (core tenant : Nat) : (s.noteIssue core tenant).power = s.power := rfl
@[simp] theorem State.noteIssue_agenda (s : State) (core tenant : Nat) : (s.noteIssue core tenant).agenda = s.agenda := rfl
@[simp] theorem State.noteIssue_cur (s : State) (core tenant : Nat) : (s.noteIssue core tenant).cur = s.cur := rfl
@[simp] theorem State.noteIssue_clock (s : State) (core tenant : Nat) : (s.noteIssue core tenant).clock = s.clock := rfl
@[simp] theorem State.noteIssue_ptp (s : State) (core tenant : Nat) : (s.noteIssue core tenant).ptp = s.ptp := rfl
@[simp] theorem State.noteIssue_ids (s : State) (core tenant : Nat) : (s.noteIssue core tenant).ids = s.ids := rfl
@[simp] theorem State.noteIssue_free (s : State) (core tenant : Nat) : (s.noteIssue core tenant).free = s.free := rfl
@[simp] theorem State.noteIssue_hostData (s : State) (core tenant : Nat) : (s.noteIssue core tenant).hostData = s.hostData := rfl
@[simp] theorem State.noteIssue_lpddr (s : State) (core tenant : Nat) : (s.noteIssue core tenant).lpddr = s.lpddr := rfl
@[simp] theorem State.noteIssue_blocked (s : State) (core tenant : Nat) : (s.noteIssue core tenant).blocked = s.blocked := rfl

/-! ### acquire -/

@[simp] theorem State.acquire_mem (s : State) (core : Nat) : (s.acquire core).mem = s.mem := by unfold State.acquire; split <;> rfl
@[simp] theorem State.acquire_poison (s : State) (core : Nat) : (s.acquire core).poison = s.poison := by unfold State.acquire; split <;> rfl
@[simp] theorem State.acquire_fempty (s : State) (core : Nat) : (s.acquire core).fempty = s.fempty := by unfold State.acquire; split <;> rfl
@[simp] theorem State.acquire_waves (s : State) (core : Nat) : (s.acquire core).waves = s.waves := by unfold State.acquire; split <;> rfl
@[simp] theorem State.acquire_cohorts (s : State) (core : Nat) : (s.acquire core).cohorts = s.cohorts := by unfold State.acquire; split <;> rfl
@[simp] theorem State.acquire_dies (s : State) (core : Nat) : (s.acquire core).dies = s.dies := by unfold State.acquire; split <;> rfl
@[simp] theorem State.acquire_fabric (s : State) (core : Nat) : (s.acquire core).fabric = s.fabric := by unfold State.acquire; split <;> rfl
@[simp] theorem State.acquire_sched (s : State) (core : Nat) : (s.acquire core).sched = s.sched := by unfold State.acquire; split <;> rfl
@[simp] theorem State.acquire_snap (s : State) (core : Nat) : (s.acquire core).snap = s.snap := by unfold State.acquire; split <;> rfl
@[simp] theorem State.acquire_trust (s : State) (core : Nat) : (s.acquire core).trust = s.trust := by unfold State.acquire; split <;> rfl
@[simp] theorem State.acquire_doe (s : State) (core : Nat) : (s.acquire core).doe = s.doe := by unfold State.acquire; split <;> rfl
@[simp] theorem State.acquire_power (s : State) (core : Nat) : (s.acquire core).power = s.power := by unfold State.acquire; split <;> rfl
@[simp] theorem State.acquire_agenda (s : State) (core : Nat) : (s.acquire core).agenda = s.agenda := by unfold State.acquire; split <;> rfl
@[simp] theorem State.acquire_cur (s : State) (core : Nat) : (s.acquire core).cur = s.cur := by unfold State.acquire; split <;> rfl
@[simp] theorem State.acquire_clock (s : State) (core : Nat) : (s.acquire core).clock = s.clock := by unfold State.acquire; split <;> rfl
@[simp] theorem State.acquire_ptp (s : State) (core : Nat) : (s.acquire core).ptp = s.ptp := by unfold State.acquire; split <;> rfl
@[simp] theorem State.acquire_ids (s : State) (core : Nat) : (s.acquire core).ids = s.ids := by unfold State.acquire; split <;> rfl
@[simp] theorem State.acquire_free (s : State) (core : Nat) : (s.acquire core).free = s.free := by unfold State.acquire; split <;> rfl
@[simp] theorem State.acquire_hostData (s : State) (core : Nat) : (s.acquire core).hostData = s.hostData := by unfold State.acquire; split <;> rfl
@[simp] theorem State.acquire_lpddr (s : State) (core : Nat) : (s.acquire core).lpddr = s.lpddr := by unfold State.acquire; split <;> rfl
@[simp] theorem State.acquire_blocked (s : State) (core : Nat) : (s.acquire core).blocked = s.blocked := by unfold State.acquire; split <;> rfl

/-! ### dropL1 -/

@[simp] theorem State.dropL1_mem (s : State) (core pa n : Nat) : (s.dropL1 core pa n).mem = s.mem := by unfold State.dropL1; split <;> rfl
@[simp] theorem State.dropL1_poison (s : State) (core pa n : Nat) : (s.dropL1 core pa n).poison = s.poison := by unfold State.dropL1; split <;> rfl
@[simp] theorem State.dropL1_fempty (s : State) (core pa n : Nat) : (s.dropL1 core pa n).fempty = s.fempty := by unfold State.dropL1; split <;> rfl
@[simp] theorem State.dropL1_waves (s : State) (core pa n : Nat) : (s.dropL1 core pa n).waves = s.waves := by unfold State.dropL1; split <;> rfl
@[simp] theorem State.dropL1_cohorts (s : State) (core pa n : Nat) : (s.dropL1 core pa n).cohorts = s.cohorts := by unfold State.dropL1; split <;> rfl
@[simp] theorem State.dropL1_dies (s : State) (core pa n : Nat) : (s.dropL1 core pa n).dies = s.dies := by unfold State.dropL1; split <;> rfl
@[simp] theorem State.dropL1_fabric (s : State) (core pa n : Nat) : (s.dropL1 core pa n).fabric = s.fabric := by unfold State.dropL1; split <;> rfl
@[simp] theorem State.dropL1_sched (s : State) (core pa n : Nat) : (s.dropL1 core pa n).sched = s.sched := by unfold State.dropL1; split <;> rfl
@[simp] theorem State.dropL1_snap (s : State) (core pa n : Nat) : (s.dropL1 core pa n).snap = s.snap := by unfold State.dropL1; split <;> rfl
@[simp] theorem State.dropL1_trust (s : State) (core pa n : Nat) : (s.dropL1 core pa n).trust = s.trust := by unfold State.dropL1; split <;> rfl
@[simp] theorem State.dropL1_doe (s : State) (core pa n : Nat) : (s.dropL1 core pa n).doe = s.doe := by unfold State.dropL1; split <;> rfl
@[simp] theorem State.dropL1_power (s : State) (core pa n : Nat) : (s.dropL1 core pa n).power = s.power := by unfold State.dropL1; split <;> rfl
@[simp] theorem State.dropL1_agenda (s : State) (core pa n : Nat) : (s.dropL1 core pa n).agenda = s.agenda := by unfold State.dropL1; split <;> rfl
@[simp] theorem State.dropL1_cur (s : State) (core pa n : Nat) : (s.dropL1 core pa n).cur = s.cur := by unfold State.dropL1; split <;> rfl
@[simp] theorem State.dropL1_clock (s : State) (core pa n : Nat) : (s.dropL1 core pa n).clock = s.clock := by unfold State.dropL1; split <;> rfl
@[simp] theorem State.dropL1_ptp (s : State) (core pa n : Nat) : (s.dropL1 core pa n).ptp = s.ptp := by unfold State.dropL1; split <;> rfl
@[simp] theorem State.dropL1_ids (s : State) (core pa n : Nat) : (s.dropL1 core pa n).ids = s.ids := by unfold State.dropL1; split <;> rfl
@[simp] theorem State.dropL1_free (s : State) (core pa n : Nat) : (s.dropL1 core pa n).free = s.free := by unfold State.dropL1; split <;> rfl
@[simp] theorem State.dropL1_hostData (s : State) (core pa n : Nat) : (s.dropL1 core pa n).hostData = s.hostData := by unfold State.dropL1; split <;> rfl
@[simp] theorem State.dropL1_lpddr (s : State) (core pa n : Nat) : (s.dropL1 core pa n).lpddr = s.lpddr := by unfold State.dropL1; split <;> rfl
@[simp] theorem State.dropL1_blocked (s : State) (core pa n : Nat) : (s.dropL1 core pa n).blocked = s.blocked := by unfold State.dropL1; split <;> rfl

@[simp] theorem State.setBytes_poison (s : State) (pa : Nat) (bs : List Byte) : (s.setBytes pa bs).poison = s.poison := by
  induction bs generalizing s pa with
  | nil => rfl
  | cons b bs ih => exact (ih (s.setByte pa b) (pa + 1)).trans (State.setByte_poison s pa b)
@[simp] theorem State.setBytes_fempty (s : State) (pa : Nat) (bs : List Byte) : (s.setBytes pa bs).fempty = s.fempty := by
  induction bs generalizing s pa with
  | nil => rfl
  | cons b bs ih => exact (ih (s.setByte pa b) (pa + 1)).trans (State.setByte_fempty s pa b)
@[simp] theorem State.setBytes_waves (s : State) (pa : Nat) (bs : List Byte) : (s.setBytes pa bs).waves = s.waves := by
  induction bs generalizing s pa with
  | nil => rfl
  | cons b bs ih => exact (ih (s.setByte pa b) (pa + 1)).trans (State.setByte_waves s pa b)
@[simp] theorem State.setBytes_cohorts (s : State) (pa : Nat) (bs : List Byte) : (s.setBytes pa bs).cohorts = s.cohorts := by
  induction bs generalizing s pa with
  | nil => rfl
  | cons b bs ih => exact (ih (s.setByte pa b) (pa + 1)).trans (State.setByte_cohorts s pa b)
@[simp] theorem State.setBytes_cores (s : State) (pa : Nat) (bs : List Byte) : (s.setBytes pa bs).cores = s.cores := by
  induction bs generalizing s pa with
  | nil => rfl
  | cons b bs ih => exact (ih (s.setByte pa b) (pa + 1)).trans (State.setByte_cores s pa b)
@[simp] theorem State.setBytes_dies (s : State) (pa : Nat) (bs : List Byte) : (s.setBytes pa bs).dies = s.dies := by
  induction bs generalizing s pa with
  | nil => rfl
  | cons b bs ih => exact (ih (s.setByte pa b) (pa + 1)).trans (State.setByte_dies s pa b)
@[simp] theorem State.setBytes_fabric (s : State) (pa : Nat) (bs : List Byte) : (s.setBytes pa bs).fabric = s.fabric := by
  induction bs generalizing s pa with
  | nil => rfl
  | cons b bs ih => exact (ih (s.setByte pa b) (pa + 1)).trans (State.setByte_fabric s pa b)
@[simp] theorem State.setBytes_sched (s : State) (pa : Nat) (bs : List Byte) : (s.setBytes pa bs).sched = s.sched := by
  induction bs generalizing s pa with
  | nil => rfl
  | cons b bs ih => exact (ih (s.setByte pa b) (pa + 1)).trans (State.setByte_sched s pa b)
@[simp] theorem State.setBytes_snap (s : State) (pa : Nat) (bs : List Byte) : (s.setBytes pa bs).snap = s.snap := by
  induction bs generalizing s pa with
  | nil => rfl
  | cons b bs ih => exact (ih (s.setByte pa b) (pa + 1)).trans (State.setByte_snap s pa b)
@[simp] theorem State.setBytes_trust (s : State) (pa : Nat) (bs : List Byte) : (s.setBytes pa bs).trust = s.trust := by
  induction bs generalizing s pa with
  | nil => rfl
  | cons b bs ih => exact (ih (s.setByte pa b) (pa + 1)).trans (State.setByte_trust s pa b)
@[simp] theorem State.setBytes_doe (s : State) (pa : Nat) (bs : List Byte) : (s.setBytes pa bs).doe = s.doe := by
  induction bs generalizing s pa with
  | nil => rfl
  | cons b bs ih => exact (ih (s.setByte pa b) (pa + 1)).trans (State.setByte_doe s pa b)
@[simp] theorem State.setBytes_power (s : State) (pa : Nat) (bs : List Byte) : (s.setBytes pa bs).power = s.power := by
  induction bs generalizing s pa with
  | nil => rfl
  | cons b bs ih => exact (ih (s.setByte pa b) (pa + 1)).trans (State.setByte_power s pa b)
@[simp] theorem State.setBytes_agenda (s : State) (pa : Nat) (bs : List Byte) : (s.setBytes pa bs).agenda = s.agenda := by
  induction bs generalizing s pa with
  | nil => rfl
  | cons b bs ih => exact (ih (s.setByte pa b) (pa + 1)).trans (State.setByte_agenda s pa b)
@[simp] theorem State.setBytes_cur (s : State) (pa : Nat) (bs : List Byte) : (s.setBytes pa bs).cur = s.cur := by
  induction bs generalizing s pa with
  | nil => rfl
  | cons b bs ih => exact (ih (s.setByte pa b) (pa + 1)).trans (State.setByte_cur s pa b)
@[simp] theorem State.setBytes_clock (s : State) (pa : Nat) (bs : List Byte) : (s.setBytes pa bs).clock = s.clock := by
  induction bs generalizing s pa with
  | nil => rfl
  | cons b bs ih => exact (ih (s.setByte pa b) (pa + 1)).trans (State.setByte_clock s pa b)
@[simp] theorem State.setBytes_ptp (s : State) (pa : Nat) (bs : List Byte) : (s.setBytes pa bs).ptp = s.ptp := by
  induction bs generalizing s pa with
  | nil => rfl
  | cons b bs ih => exact (ih (s.setByte pa b) (pa + 1)).trans (State.setByte_ptp s pa b)
@[simp] theorem State.setBytes_ids (s : State) (pa : Nat) (bs : List Byte) : (s.setBytes pa bs).ids = s.ids := by
  induction bs generalizing s pa with
  | nil => rfl
  | cons b bs ih => exact (ih (s.setByte pa b) (pa + 1)).trans (State.setByte_ids s pa b)
@[simp] theorem State.setBytes_free (s : State) (pa : Nat) (bs : List Byte) : (s.setBytes pa bs).free = s.free := by
  induction bs generalizing s pa with
  | nil => rfl
  | cons b bs ih => exact (ih (s.setByte pa b) (pa + 1)).trans (State.setByte_free s pa b)
@[simp] theorem State.setBytes_hostData (s : State) (pa : Nat) (bs : List Byte) : (s.setBytes pa bs).hostData = s.hostData := by
  induction bs generalizing s pa with
  | nil => rfl
  | cons b bs ih => exact (ih (s.setByte pa b) (pa + 1)).trans (State.setByte_hostData s pa b)
@[simp] theorem State.setBytes_lpddr (s : State) (pa : Nat) (bs : List Byte) : (s.setBytes pa bs).lpddr = s.lpddr := by
  induction bs generalizing s pa with
  | nil => rfl
  | cons b bs ih => exact (ih (s.setByte pa b) (pa + 1)).trans (State.setByte_lpddr s pa b)
@[simp] theorem State.setBytes_blocked (s : State) (pa : Nat) (bs : List Byte) : (s.setBytes pa bs).blocked = s.blocked := by
  induction bs generalizing s pa with
  | nil => rfl
  | cons b bs ih => exact (ih (s.setByte pa b) (pa + 1)).trans (State.setByte_blocked s pa b)

/-! ### setOwner -/

@[simp] theorem State.setOwner_poison (s : State) (pa : Nat) (o : Owner) : (s.setOwner pa o).poison = s.poison := State.setBytes_poison ..
@[simp] theorem State.setOwner_fempty (s : State) (pa : Nat) (o : Owner) : (s.setOwner pa o).fempty = s.fempty := State.setBytes_fempty ..
@[simp] theorem State.setOwner_waves (s : State) (pa : Nat) (o : Owner) : (s.setOwner pa o).waves = s.waves := State.setBytes_waves ..
@[simp] theorem State.setOwner_cohorts (s : State) (pa : Nat) (o : Owner) : (s.setOwner pa o).cohorts = s.cohorts := State.setBytes_cohorts ..
@[simp] theorem State.setOwner_cores (s : State) (pa : Nat) (o : Owner) : (s.setOwner pa o).cores = s.cores := State.setBytes_cores ..
@[simp] theorem State.setOwner_dies (s : State) (pa : Nat) (o : Owner) : (s.setOwner pa o).dies = s.dies := State.setBytes_dies ..
@[simp] theorem State.setOwner_fabric (s : State) (pa : Nat) (o : Owner) : (s.setOwner pa o).fabric = s.fabric := State.setBytes_fabric ..
@[simp] theorem State.setOwner_sched (s : State) (pa : Nat) (o : Owner) : (s.setOwner pa o).sched = s.sched := State.setBytes_sched ..
@[simp] theorem State.setOwner_snap (s : State) (pa : Nat) (o : Owner) : (s.setOwner pa o).snap = s.snap := State.setBytes_snap ..
@[simp] theorem State.setOwner_trust (s : State) (pa : Nat) (o : Owner) : (s.setOwner pa o).trust = s.trust := State.setBytes_trust ..
@[simp] theorem State.setOwner_doe (s : State) (pa : Nat) (o : Owner) : (s.setOwner pa o).doe = s.doe := State.setBytes_doe ..
@[simp] theorem State.setOwner_power (s : State) (pa : Nat) (o : Owner) : (s.setOwner pa o).power = s.power := State.setBytes_power ..
@[simp] theorem State.setOwner_agenda (s : State) (pa : Nat) (o : Owner) : (s.setOwner pa o).agenda = s.agenda := State.setBytes_agenda ..
@[simp] theorem State.setOwner_cur (s : State) (pa : Nat) (o : Owner) : (s.setOwner pa o).cur = s.cur := State.setBytes_cur ..
@[simp] theorem State.setOwner_clock (s : State) (pa : Nat) (o : Owner) : (s.setOwner pa o).clock = s.clock := State.setBytes_clock ..
@[simp] theorem State.setOwner_ptp (s : State) (pa : Nat) (o : Owner) : (s.setOwner pa o).ptp = s.ptp := State.setBytes_ptp ..
@[simp] theorem State.setOwner_ids (s : State) (pa : Nat) (o : Owner) : (s.setOwner pa o).ids = s.ids := State.setBytes_ids ..
@[simp] theorem State.setOwner_free (s : State) (pa : Nat) (o : Owner) : (s.setOwner pa o).free = s.free := State.setBytes_free ..
@[simp] theorem State.setOwner_hostData (s : State) (pa : Nat) (o : Owner) : (s.setOwner pa o).hostData = s.hostData := State.setBytes_hostData ..
@[simp] theorem State.setOwner_lpddr (s : State) (pa : Nat) (o : Owner) : (s.setOwner pa o).lpddr = s.lpddr := State.setBytes_lpddr ..
@[simp] theorem State.setOwner_blocked (s : State) (pa : Nat) (o : Owner) : (s.setOwner pa o).blocked = s.blocked := State.setBytes_blocked ..

/-! ### Reading after an update -/

@[simp] theorem State.die_setDie (s : State) (d : Nat) (x : Die) (e : Nat) :
    (s.setDie d x).die e = if e = d then x else s.die e := mapGet_mapPut ..
@[simp] theorem State.die_updDie (s : State) (d : Nat) (f : Die → Die) (e : Nat) :
    (s.updDie d f).die e = if e = d then f (s.die d) else s.die e := mapGet_mapPut ..
@[simp] theorem State.core_setCore (s : State) (c : Nat) (x : Core) (k : Nat) :
    (s.setCore c x).core k = if k = c then x else s.core k := mapGet_mapPut ..
@[simp] theorem State.core_updCore (s : State) (c : Nat) (f : Core → Core) (k : Nat) :
    (s.updCore c f).core k = if k = c then f (s.core c) else s.core k := mapGet_mapPut ..
@[simp] theorem State.wave_setWave (s : State) (u : Nat) (w : Wave) (v : Nat) :
    (s.setWave u w).wave v = if v = u then some w else s.wave v := mapFind_mapInsert ..
@[simp] theorem State.cohort_setCohort (s : State) (c : Nat) (x : Cohort) (k : Nat) :
    (s.setCohort c x).cohort k = if k = c then some x else s.cohort k := mapFind_mapInsert ..
@[simp] theorem State.byte_setByte (s : State) (pa : Nat) (b : Byte) (a : Nat) :
    (s.setByte pa b).byte a = if a = pa then b else s.byte a := by
  unfold State.byte State.setByte
  split
  · subst_vars; exact mapGet_mapPut_self ..
  · rename_i h; exact mapGet_mapPut_other _ _ _ _ h
@[simp] theorem State.queue_updQueue (s : State) (q : Nat) (f : Queue → Queue) (r : Nat) :
    (s.updQueue q f).queue r = if r = q then f (s.queue q) else s.queue r := mapGet_mapPut ..
@[simp] theorem State.world_setWorld (s : State) (n : Nat) (x : World) (m : Nat) :
    (s.setWorld n x).world m = if m = n then x else s.world m := mapGet_mapPut ..
@[simp] theorem State.iface_setIface (s : State) (n : Nat) (x : IfaceState) (m : Nat) :
    (s.setIface n x).iface m = if m = n then x else s.iface m := mapGet_mapPut ..
theorem State.wave_updWave (s : State) (u : Nat) (f : Wave → Wave) (v : Nat) :
    (s.updWave u f).wave v = if v = u then (s.wave u).map f else s.wave v := by
  unfold State.updWave
  split
  · rename_i w h; simp [h]
  · rename_i h
    by_cases hv : v = u
    · subst hv; simp [h]
    · simp [hv]

/-- Writing consecutive bytes changes those bytes and no other. -/
theorem State.byte_setBytes (s : State) (pa : Nat) (bs : List Byte) (a : Nat) :
    (s.setBytes pa bs).byte a = if pa ≤ a ∧ a < pa + bs.length then nth 0 bs (a - pa) else s.byte a := by
  induction bs generalizing s pa with
  | nil => simp only [State.setBytes, List.length_nil]; rw [if_neg (by omega)]
  | cons b bs ih =>
    simp only [State.setBytes, List.length_cons]
    rw [ih, State.byte_setByte]
    by_cases h : a = pa
    · subst h
      rw [if_neg (by omega), if_pos rfl, if_pos (by omega)]
      simp [nth]
    · by_cases h2 : pa + 1 ≤ a ∧ a < pa + 1 + bs.length
      · rw [if_pos h2, if_pos (by omega)]
        have : a - pa = (a - (pa + 1)) + 1 := by omega
        rw [this]; simp [nth]
      · rw [if_neg h2, if_neg h, if_neg (by omega)]

/-! ### The canonical form of memory -/

theorem memWfFrom_mono (m : List Host.Cell) {a b : Nat} (h : b ≤ a) (w : memWfFrom a m = true) : memWfFrom b m = true := by
  cases m with
  | nil => rfl
  | cons e m =>
    simp only [memWfFrom, Bool.and_eq_true, decide_eq_true_eq] at w ⊢
    exact ⟨⟨by omega, w.1.2⟩, w.2⟩

theorem mapAbove_memWf (m : List Host.Cell) {a : Nat} (w : memWfFrom (a + 1) m = true) : mapAbove a m = m := by
  cases m with
  | nil => rfl
  | cons e m =>
    simp only [memWfFrom, Bool.and_eq_true, decide_eq_true_eq] at w
    have : ¬ e.1 ≤ a := by omega
    simp [mapAbove, this]

/-- Setting a byte keeps the canonical form. -/
theorem mapPut_memWf (m : List Host.Cell) (a : Nat) (x : Byte) {b : Nat} (h : b ≤ a) (w : memWfFrom b m = true) :
    memWfFrom b (mapPut (memReset a) m a x) = true := by
  induction m generalizing b with
  | nil => by_cases hx : x = memReset a <;> simp [mapPut, hx, memWfFrom, h]
  | cons e m ih =>
    obtain ⟨k, v⟩ := e
    have w' := w
    simp only [memWfFrom, Bool.and_eq_true, decide_eq_true_eq] at w
    simp only [mapPut]
    split
    · subst_vars
      split
      · rw [mapAbove_memWf m w.2]
        exact memWfFrom_mono m (by omega) w.2
      · simp_all [memWfFrom]
    · split
      · split
        · exact w'
        · simp_all [memWfFrom]
      · simp only [memWfFrom, Bool.and_eq_true, decide_eq_true_eq]
        exact ⟨w.1, ih (by omega) w.2⟩

theorem State.setByte_wf (s : State) (pa : Nat) (b : Byte) (h : memWf s.mem = true) : memWf (s.setByte pa b).mem = true :=
  mapPut_memWf _ _ _ (Nat.zero_le _) h

theorem State.setBytes_wf (s : State) (pa : Nat) (bs : List Byte) (h : memWf s.mem = true) : memWf (s.setBytes pa bs).mem = true := by
  induction bs generalizing s pa with
  | nil => exact h
  | cons b bs ih => exact ih _ _ (s.setByte_wf pa b h)

theorem State.store_wf (s : State) (pa n v : Nat) (h : memWf s.mem = true) : memWf (s.store pa n v).mem = true := s.setBytes_wf _ _ h

/-! ### Registers of a wave -/

/-- A scalar register after a write: the mask words are cut by LIVE (R159). -/
theorem Wave.s_setS (w : Wave) (r : Nat) (x : Word) (q : Nat) :
    (w.setS r x).s q = if w.skey q = w.skey r then (if 96 ≤ r ∧ r < 96 + w.k then x &&& w.liveWord (r - 96) else x)
      else w.s q := mapGet_mapPut ..

/-- Scalar codes below 128 name distinct registers at either level (R379). -/
theorem Wave.skey_inj (w : Wave) {q r : Nat} (hq : q < 128) (hr : r < 128) : w.skey q = w.skey r ↔ q = r := by
  unfold Wave.skey
  constructor
  · intro h
    split at h <;> split at h <;> simp_all <;> omega
  · rintro rfl; rfl

/-- Writing a scalar register leaves the vector registers and LIVE. -/
@[simp] theorem Wave.v_setS (w : Wave) (r : Nat) (x : Word) (q i : Nat) : (w.setS r x).v q i = w.v q i := rfl
@[simp] theorem Wave.liveWord_setS (w : Wave) (r : Nat) (x : Word) (j : Nat) : (w.setS r x).liveWord j = w.liveWord j := rfl

/-- A vector register after a write. -/
theorem Wave.v_setV (w : Wave) (r i : Nat) (x : Word) (q j : Nat) :
    (w.setV r i x).v q j = if vkey q j = vkey r i then x else w.v q j := mapGet_mapPut ..

/-- A key names one register of one lane. -/
theorem vkey_inj {q j r i : Nat} (hq : q < 256) (hr : r < 256) : vkey q j = vkey r i ↔ q = r ∧ j = i := by
  unfold vkey; omega

@[simp] theorem Wave.s_setV (w : Wave) (r i : Nat) (x : Word) (q : Nat) : (w.setV r i x).s q = w.s q := rfl

/-! ### storesPerformed -/

@[simp] theorem State.storesPerformed_mem (s : State) (u cid : Nat) : (s.storesPerformed u cid).mem = s.mem := State.updCohort_mem s cid _
@[simp] theorem State.storesPerformed_poison (s : State) (u cid : Nat) : (s.storesPerformed u cid).poison = s.poison := State.updCohort_poison s cid _
@[simp] theorem State.storesPerformed_fempty (s : State) (u cid : Nat) : (s.storesPerformed u cid).fempty = s.fempty := State.updCohort_fempty s cid _
@[simp] theorem State.storesPerformed_waves (s : State) (u cid : Nat) : (s.storesPerformed u cid).waves = s.waves := State.updCohort_waves s cid _
@[simp] theorem State.storesPerformed_cores (s : State) (u cid : Nat) : (s.storesPerformed u cid).cores = s.cores := State.updCohort_cores s cid _
@[simp] theorem State.storesPerformed_dies (s : State) (u cid : Nat) : (s.storesPerformed u cid).dies = s.dies := State.updCohort_dies s cid _
@[simp] theorem State.storesPerformed_fabric (s : State) (u cid : Nat) : (s.storesPerformed u cid).fabric = s.fabric := State.updCohort_fabric s cid _
@[simp] theorem State.storesPerformed_sched (s : State) (u cid : Nat) : (s.storesPerformed u cid).sched = s.sched := State.updCohort_sched s cid _
@[simp] theorem State.storesPerformed_snap (s : State) (u cid : Nat) : (s.storesPerformed u cid).snap = s.snap := State.updCohort_snap s cid _
@[simp] theorem State.storesPerformed_trust (s : State) (u cid : Nat) : (s.storesPerformed u cid).trust = s.trust := State.updCohort_trust s cid _
@[simp] theorem State.storesPerformed_doe (s : State) (u cid : Nat) : (s.storesPerformed u cid).doe = s.doe := State.updCohort_doe s cid _
@[simp] theorem State.storesPerformed_power (s : State) (u cid : Nat) : (s.storesPerformed u cid).power = s.power := State.updCohort_power s cid _
@[simp] theorem State.storesPerformed_agenda (s : State) (u cid : Nat) : (s.storesPerformed u cid).agenda = s.agenda := State.updCohort_agenda s cid _
@[simp] theorem State.storesPerformed_cur (s : State) (u cid : Nat) : (s.storesPerformed u cid).cur = s.cur := State.updCohort_cur s cid _
@[simp] theorem State.storesPerformed_clock (s : State) (u cid : Nat) : (s.storesPerformed u cid).clock = s.clock := State.updCohort_clock s cid _
@[simp] theorem State.storesPerformed_ptp (s : State) (u cid : Nat) : (s.storesPerformed u cid).ptp = s.ptp := State.updCohort_ptp s cid _
@[simp] theorem State.storesPerformed_ids (s : State) (u cid : Nat) : (s.storesPerformed u cid).ids = s.ids := State.updCohort_ids s cid _
@[simp] theorem State.storesPerformed_free (s : State) (u cid : Nat) : (s.storesPerformed u cid).free = s.free := State.updCohort_free s cid _
@[simp] theorem State.storesPerformed_hostData (s : State) (u cid : Nat) : (s.storesPerformed u cid).hostData = s.hostData := State.updCohort_hostData s cid _
@[simp] theorem State.storesPerformed_lpddr (s : State) (u cid : Nat) : (s.storesPerformed u cid).lpddr = s.lpddr := State.updCohort_lpddr s cid _
@[simp] theorem State.storesPerformed_blocked (s : State) (u cid : Nat) : (s.storesPerformed u cid).blocked = s.blocked := State.updCohort_blocked s cid _

end Sys2Proof.Machine
end

