-- ==== Sys2Proof/Laws/Issue.lean ====
section
/-! SUPPORT. What issuing and completing an instruction do, once for every instruction. -/

namespace Sys2Proof.Machine

/-! ### Completing -/

/-- The wave after an instruction that closes no region and leaves no clause. -/
theorem Wave.completed_eq (w : Wave) (pc : DWord) :
    w.completed pc false false = { w with
      pc := pc, clause := w.clause.after, late := w.late.map (fun l => { l with window := l.window - 1 }), prog := Progress.none,
      xl := [], xfail := [], tr := { w.tr with bpSkip := false } } := by
  simp [Wave.completed, Clause.after]

/-- Retiring an unstepped instruction: the state. -/
theorem State.retire_eq {s : State} {u : Nat} {w : Wave} (h : s.wave u = some w) (pc next : DWord) (leaves closes : Bool) :
    s.retire u pc next leaves closes false =
      ((s.setWave u (w.completed next leaves closes)).noteIssue (w.completed next leaves closes).core
        (s.tenantOf (w.completed next leaves closes))).updCore (w.completed next leaves closes).core fun c => { c with
          holder := if (w.completed next leaves closes).clause.inside && (w.completed next leaves closes).wait == .ready then some u
            else if c.holder == some u then none else c.holder } := by
  simp [State.retire, h]

theorem Wave.completed_core (w : Wave) (pc : DWord) (leaves closes : Bool) : (w.completed pc leaves closes).core = w.core := by
  cases closes <;> rfl

/-- Retiring leaves the wave as `Wave.completed` says. -/
theorem State.retire_wave {s : State} {u : Nat} {w : Wave} (h : s.wave u = some w) (pc next : DWord) (leaves closes : Bool) :
    (s.retire u pc next leaves closes false).wave u = some (w.completed next leaves closes) := by
  rw [State.retire_eq h]
  show (s.setWave u _).wave u = _
  simp

theorem State.retire_wave_ne {s : State} {u : Nat} {w : Wave} (h : s.wave u = some w) (pc next : DWord) (leaves closes : Bool)
    {v : Nat} (hv : v ≠ u) : (s.retire u pc next leaves closes false).wave v = s.wave v := by
  rw [State.retire_eq h]
  show (s.setWave u _).wave v = _
  simp [hv]

/-- Retiring changes only the wave and the core's record of issuing. -/
theorem State.retire_onlyWave {s : State} {u : Nat} {w : Wave} (h : s.wave u = some w) (pc next : DWord) (leaves closes : Bool) :
    OnlyWave s (s.retire u pc next leaves closes false) u w.core := by
  refine ⟨fun v hv => s.retire_wave_ne h pc next leaves closes hv, fun c hc => ?_, ?_, fun a => ?_, ?_⟩
  · rw [State.retire_eq h]
    simp [State.noteIssue, Wave.completed_core, hc]
    rfl
  · rw [State.retire_eq h]
    simp only [State.noteIssue, Wave.completed_core, State.core_updCore, if_pos]
    exact ⟨_, _, _, _, _, rfl⟩
  · rw [State.retire_eq h]; rfl
  · rw [State.retire_eq h]; rfl

/-! ### Issuing -/

/-- An instruction that issues comes to its body's act. -/
theorem runInstr_issues {s : State} {u : Nat} {w : Wave} {i : Instr} (h : Issues s u w i) (body : Body) :
    runInstr i body s = finishAct u w.pc (closesRegion w (Instr.op i)) false
      (body (s.setWave u w.readied) u w.readied) := by
  obtain ⟨hc, hw, hg, hk, hl, hu, hs, he⟩ := h
  have hp : w.readied.stepping = false := hs
  simp only [runInstr, hc, hw]
  rw [if_neg (by simp [he])]
  simp only [hg, hk, hl]
  rw [if_neg (by simp), if_neg (by simp [hu])]
  exact congrArg (fun b => finishAct u w.pc (closesRegion w (Instr.op i)) b (body (s.setWave u w.readied) u w.readied)) hp

/-- An instruction whose body is done completes. -/
theorem runInstr_done {s t : State} {u : Nat} {w : Wave} {i : Instr} (h : Issues s u w i) (body : Body)
    (hb : body (s.setWave u w.readied) u w.readied = .done t) :
    runInstr i body s = .next (t.retire u w.pc (w.pc + 8) false (closesRegion w (Instr.op i)) false) := by
  rw [runInstr_issues h, hb]; rfl

/-- Setting a wave twice is setting it once. -/
theorem mapInsert_mapInsert {α : Type} (m : List (Nat × α)) (a : Nat) (x y : α) :
    mapInsert (mapInsert m a x) a y = mapInsert m a y := by
  induction m with
  | nil => simp [mapInsert]
  | cons e m ih =>
    obtain ⟨k, v⟩ := e
    by_cases h : a = k
    · simp [mapInsert, h]
    · by_cases h2 : a < k
      · simp [mapInsert, h, h2]
      · simp [mapInsert, h, h2, ih]

@[simp] theorem State.setWave_setWave (s : State) (u : Nat) (w x : Wave) : (s.setWave u w).setWave u x = s.setWave u x := by
  simp [State.setWave, mapInsert_mapInsert]

theorem OnlyWave.of_setWave {s t : State} {u core : Nat} {w : Wave} (h : OnlyWave (s.setWave u w) t u core) : OnlyWave s t u core := by
  obtain ⟨h1, h2, h3, h4, h5⟩ := h
  refine ⟨fun v hv => ?_, h2, h3, h4, ?_⟩
  · rw [h1 v hv]; simp [hv]
  · rw [h5]; rfl

/-- An instruction that changes only its wave and closes no region completes with that change. -/
theorem completes_onWave {s : State} {u : Nat} {w : Wave} {i : Instr} (h : Issues s u w i) (g : Wave → Wave)
    (hx : exec i s = runInstr i (onWave g) s) (hc : closesRegion w (Instr.op i) = false)
    (hcore : (g w.readied).core = w.core) :
    Completes s u w i ((g w.readied).completed (w.pc + 8) false false) := by
  refine ⟨_, hx.trans (runInstr_done h (onWave g) rfl), ?_, ?_⟩
  · rw [hc, State.setWave_setWave]
    exact State.retire_wave (by simp) ..
  · rw [hc, State.setWave_setWave, ← hcore]
    exact OnlyWave.of_setWave (State.retire_onlyWave (s := s.setWave u (g w.readied)) (by simp) ..)

/-! ### What the checks of R197 give -/

/-- An instruction that passes the checks passes every field check. -/
theorem of_issueCheck {s : State} {w : Wave} {i : Instr} (h : issueCheck s w i = none) :
    (lowestBad (i.must ++ Instr.mustWave w i) = none) ∧ badRegister w (Instr.uses w i) = none ∧
      pendingRegister w (Instr.uses w i) = none := by
  unfold issueCheck at h
  dsimp only at h
  split at h
  · cases h
  · split at h
    · cases h
    · split at h
      · cases h
      · rename_i hb
        split at h
        · cases h
        · rename_i hr
          split at h
          · cases h
          · rename_i hp
            exact ⟨hb, hr, hp⟩

/-- A field check of an instruction that issues. -/
theorem Issues.must {s : State} {u : Nat} {w : Wave} {i : Instr} (h : Issues s u w i) {c : Check} (hc : c ∈ i.must) : c.2 = true :=
  of_lowestBad_none (of_issueCheck h.2.2.2.1).1 (List.mem_append_left _ hc)

/-- A block of registers of an instruction that issues is allocated and aligned. -/
theorem Issues.use {s : State} {u : Nat} {w : Wave} {i : Instr} (h : Issues s u w i) {x : RegUse} (hx : x ∈ Instr.uses w i) :
    x.reg + x.n ≤ (if x.vec then w.nv else 128) ∧ (x.align = 0 ∨ x.reg % x.align = 0) := by
  have h1 := (of_issueCheck h.2.2.2.1).2.1
  simp only [badRegister, Option.map_eq_none_iff, List.find?_eq_none] at h1
  have h2 := h1 x hx
  simp only [Bool.or_eq_true, decide_eq_true_eq, Bool.and_eq_true, bne_iff_ne, not_or, not_and, not_not, not_lt] at h2
  refine ⟨h2.1, ?_⟩
  by_cases ha : x.align = 0
  · exact .inl ha
  · exact .inr (h2.2 ha)

end Sys2Proof.Machine
end

