-- ==== Sys2Proof/Laws/Memory.lean ====
section
/-! SUPPORT. Every operation that writes physical memory keeps its canonical form, and what a fold over such operations keeps. -/

namespace Sys2Proof.Machine

/-- Leaving cells out keeps the canonical form. -/
theorem memFilter_wfFrom (m : List Host.Cell) (p : Host.Cell → Bool) {b : Nat} (w : memWfFrom b m = true) :
    memWfFrom b (m.filter p) = true := by
  induction m generalizing b with
  | nil => rfl
  | cons e m ih =>
    obtain ⟨k, v⟩ := e
    simp only [memWfFrom, Bool.and_eq_true, decide_eq_true_eq] at w
    by_cases hp : p (k, v) = true
    · simp only [List.filter_cons, hp, if_true, memWfFrom, Bool.and_eq_true, decide_eq_true_eq]
      exact ⟨w.1, ih w.2⟩
    · simp only [List.filter_cons, hp, Bool.false_eq_true, if_false]
      exact memWfFrom_mono _ (by omega) (ih w.2)

theorem memFilter_wf (m : List Host.Cell) (p : Host.Cell → Bool) (w : memWf m = true) : memWf (m.filter p) = true :=
  memFilter_wfFrom m p w

/-- What every function of a fold keeps, the fold keeps. -/
theorem foldl_keeps {α β : Type} (P : β → Prop) (f : β → α → β) (h : ∀ b a, P b → P (f b a)) (l : List α) :
    ∀ b, P b → P (l.foldl f b) := by
  induction l with
  | nil => intro b hb; exact hb
  | cons a l ih => intro b hb; exact ih _ (h b a hb)

/-- Equal memories are both canonical or both not. -/
theorem State.memOk_of_eq {s t : State} (h : t.mem = s.mem) (w : s.memOk) : t.memOk := by
  unfold State.memOk
  rw [h]
  exact w

theorem State.reset_memOk : State.reset.memOk := rfl

theorem State.setByte_memOk {s : State} (w : s.memOk) (pa : Nat) (b : Byte) : (s.setByte pa b).memOk := s.setByte_wf pa b w

theorem State.setBytes_memOk {s : State} (w : s.memOk) (pa : Nat) (bs : List Byte) : (s.setBytes pa bs).memOk :=
  s.setBytes_wf pa bs w

theorem State.store_memOk {s : State} (w : s.memOk) (pa n v : Nat) : (s.store pa n v).memOk := s.store_wf pa n v w

theorem State.cleared_memOk {s : State} (w : s.memOk) : s.cleared.memOk := memFilter_wf _ _ w

/-! ### Writes at the home slice -/

theorem State.invalidateRegionsOn_mem (s : State) (on : Nat → Bool) (p : Region → Bool) :
    (s.invalidateRegionsOn on p).mem = s.mem := by
  unfold State.invalidateRegionsOn
  dsimp only
  split <;> rfl

theorem State.invalidateRegions_mem (s : State) (p : Region → Bool) : (s.invalidateRegions p).mem = s.mem :=
  s.invalidateRegionsOn_mem _ p

theorem State.breakWatches_mem (s : State) (pa n : Nat) (writer : Option Nat) : (s.breakWatches pa n writer).mem = s.mem := rfl

theorem State.dropCode_mem (s : State) (pa n : Nat) : (s.dropCode pa n).mem = s.mem := by
  unfold State.dropCode
  split <;> rfl

theorem State.touched_mem (s : State) (pa n : Nat) (writer : Option Nat) : (s.touched pa n writer).mem = s.mem := by
  unfold State.touched
  rw [State.invalidateRegions_mem, State.breakWatches_mem, State.dropCode_mem]

theorem State.poke_memOk {s : State} (w : s.memOk) (pa : Nat) (bs : List Byte) (writer : Option Nat) :
    (s.poke pa bs writer).memOk := by
  unfold State.poke
  dsimp only
  split
  · exact w
  · refine State.memOk_of_eq (State.touched_mem _ _ _ _) ?_
    exact State.setBytes_memOk w pa bs

theorem State.recheckWave_memOk {s : State} (w : s.memOk) (u : Nat) : (s.recheckWave u).memOk := by
  unfold State.recheckWave
  dsimp only
  repeat' split
  all_goals first | exact w | exact State.memOk_of_eq (State.updWave_mem ..) (State.poke_memOk w _ _ _)

theorem State.recheckTrigger_memOk {s : State} (w : s.memOk) (d : Nat) (t : Trigger) : (s.recheckTrigger d t).memOk := by
  unfold State.recheckTrigger
  dsimp only
  split
  · split
    · exact State.poke_memOk w _ _ _
    · exact w
  · exact w

theorem State.recheck_memOk {s : State} (w : s.memOk) (pa n : Nat) : (s.recheck pa n).memOk := by
  unfold State.recheck
  exact foldl_keeps State.memOk _ (fun _ _ h => State.recheckTrigger_memOk h _ _) _ _
    (foldl_keeps State.memOk _ (fun _ _ h => State.recheckWave_memOk h _) _ _ w)

theorem State.unmark_memOk {s : State} (w : s.memOk) (page : Nat) : (s.unmark page).memOk := by
  unfold State.unmark
  refine State.memOk_of_eq rfl (foldl_keeps State.memOk _ (fun s a h => ?_) _ _ w)
  split
  · exact State.poke_memOk h _ _ _
  · exact h

theorem State.copyInto_memOk {s : State} (w : s.memOk) (page i : Nat) (bs : List Byte) : (s.copyInto page i bs).memOk := by
  unfold State.copyInto
  refine State.unmark_memOk ?_ page
  exact State.memOk_of_eq (s := s.poke (s.snap.poolPa i) bs none) rfl (State.poke_memOk w _ _ _)

theorem State.copyMarked_memOk {s t : State} (w : s.memOk) (page : Nat) (h : s.copyMarked page = some t) : t.memOk := by
  unfold State.copyMarked at h
  split at h
  · cases h
  · obtain ⟨i, -, h⟩ := Option.map_eq_some_iff.mp h
    exact h ▸ State.copyInto_memOk w _ _ _

/-- Copying the marked pages of a range keeps the canonical form, where they can be copied. -/
theorem State.copyFirst_memOk {s t : State} (w : s.memOk) (pa n : Nat) (h : s.copyFirst pa n = some t) : t.memOk := by
  unfold State.copyFirst at h
  split at h
  · cases h; exact w
  · refine foldl_keeps (fun o : Option State => ∀ t, o = some t → t.memOk) _ (fun o p ho t ht => ?_) _ (some s)
      (fun t ht => by cases ht; exact w) t h
    obtain ⟨r, hr, ht⟩ := Option.bind_eq_some_iff.mp ht
    split at ht
    · cases ht
    · exact State.copyMarked_memOk (ho r hr) p ht

/-- Zeros in a page keep the canonical form, whether they are written or held. -/
theorem State.zeroPage_memOk {s : State} (w : s.memOk) (page : Nat) : (s.zeroPage page).memOk := by
  unfold State.zeroPage
  dsimp only
  split
  · exact w
  · split
    · exact w
    · cases hc : s.copyFirst (page * 65536) 65536 with
      | none => exact w
      | some t =>
        refine State.memOk_of_eq (State.touched_mem _ _ _ _) ?_
        exact memFilter_wf _ _ (State.copyFirst_memOk w _ _ hc)

theorem State.writeOwner_memOk {s : State} (w : s.memOk) (pa : Nat) (o : Owner) : (s.writeOwner pa o).memOk := State.poke_memOk w _ _ _

theorem State.reowned_memOk {s t : State} (w : t.memOk) (pa n : Nat) : (s.reowned t pa n).memOk :=
  foldl_keeps State.memOk _ (fun _ _ h => State.zeroPage_memOk h _) _ _ w

theorem State.revokePages_memOk {s : State} (w : s.memOk) (ws : List Nat) : (s.revokePages ws).memOk :=
  foldl_keeps State.memOk _ (fun _ _ h => State.writeOwner_memOk (State.zeroPage_memOk h _) _ _) _ _ w

/-- A write at a home slice keeps the canonical form, whether it is performed or held. -/
theorem State.applyHome_memOk {s : State} (w : s.memOk) (pa : Nat) (bs : List Byte) (writer : Option Nat) {after : State → State}
    (ha : ∀ t : State, t.memOk → (after t).memOk) : (s.applyHome pa bs writer after).memOk := by
  unfold State.applyHome
  split
  · exact w
  · cases hc : s.copyFirst pa bs.length with
    | none => exact w
    | some t => exact ha _ (State.poke_memOk (State.copyFirst_memOk w _ _ hc) _ _ _)

theorem State.writeHome_memOk {s : State} (w : s.memOk) (pa : Nat) (bs : List Byte) (writer : Option Nat) :
    (s.writeHome pa bs writer).memOk := State.applyHome_memOk w pa bs writer fun _ h => State.recheck_memOk h _ _

theorem State.writeQuiet_memOk {s : State} (w : s.memOk) (pa : Nat) (bs : List Byte) (writer : Option Nat) :
    (s.writeQuiet pa bs writer).memOk := State.applyHome_memOk w pa bs writer fun _ h => h

end Sys2Proof.Machine
end

