-- ==== Sys2Proof/Laws/Package.lean ====
section
/-! SUPPORT. What the updates of the trust core's records, of the power records and of what leaves on Ethernet ports leave unchanged: one
lemma per field per update. -/

namespace Sys2Proof.Machine

/-! ### updTrust -/

@[simp] theorem State.updTrust_mem (s : State) (f : Trust → Trust) : (s.updTrust f).mem = s.mem := rfl
@[simp] theorem State.updTrust_poison (s : State) (f : Trust → Trust) : (s.updTrust f).poison = s.poison := rfl
@[simp] theorem State.updTrust_fempty (s : State) (f : Trust → Trust) : (s.updTrust f).fempty = s.fempty := rfl
@[simp] theorem State.updTrust_waves (s : State) (f : Trust → Trust) : (s.updTrust f).waves = s.waves := rfl
@[simp] theorem State.updTrust_cohorts (s : State) (f : Trust → Trust) : (s.updTrust f).cohorts = s.cohorts := rfl
@[simp] theorem State.updTrust_cores (s : State) (f : Trust → Trust) : (s.updTrust f).cores = s.cores := rfl
@[simp] theorem State.updTrust_dies (s : State) (f : Trust → Trust) : (s.updTrust f).dies = s.dies := rfl
@[simp] theorem State.updTrust_fabric (s : State) (f : Trust → Trust) : (s.updTrust f).fabric = s.fabric := rfl
@[simp] theorem State.updTrust_sched (s : State) (f : Trust → Trust) : (s.updTrust f).sched = s.sched := rfl
@[simp] theorem State.updTrust_snap (s : State) (f : Trust → Trust) : (s.updTrust f).snap = s.snap := rfl
@[simp] theorem State.updTrust_doe (s : State) (f : Trust → Trust) : (s.updTrust f).doe = s.doe := rfl
@[simp] theorem State.updTrust_power (s : State) (f : Trust → Trust) : (s.updTrust f).power = s.power := rfl
@[simp] theorem State.updTrust_agenda (s : State) (f : Trust → Trust) : (s.updTrust f).agenda = s.agenda := rfl
@[simp] theorem State.updTrust_cur (s : State) (f : Trust → Trust) : (s.updTrust f).cur = s.cur := rfl
@[simp] theorem State.updTrust_clock (s : State) (f : Trust → Trust) : (s.updTrust f).clock = s.clock := rfl
@[simp] theorem State.updTrust_ptp (s : State) (f : Trust → Trust) : (s.updTrust f).ptp = s.ptp := rfl
@[simp] theorem State.updTrust_ids (s : State) (f : Trust → Trust) : (s.updTrust f).ids = s.ids := rfl
@[simp] theorem State.updTrust_free (s : State) (f : Trust → Trust) : (s.updTrust f).free = s.free := rfl
@[simp] theorem State.updTrust_hostData (s : State) (f : Trust → Trust) : (s.updTrust f).hostData = s.hostData := rfl
@[simp] theorem State.updTrust_lpddr (s : State) (f : Trust → Trust) : (s.updTrust f).lpddr = s.lpddr := rfl
@[simp] theorem State.updTrust_blocked (s : State) (f : Trust → Trust) : (s.updTrust f).blocked = s.blocked := rfl

/-! ### updPower -/

@[simp] theorem State.updPower_mem (s : State) (f : Power → Power) : (s.updPower f).mem = s.mem := rfl
@[simp] theorem State.updPower_poison (s : State) (f : Power → Power) : (s.updPower f).poison = s.poison := rfl
@[simp] theorem State.updPower_fempty (s : State) (f : Power → Power) : (s.updPower f).fempty = s.fempty := rfl
@[simp] theorem State.updPower_waves (s : State) (f : Power → Power) : (s.updPower f).waves = s.waves := rfl
@[simp] theorem State.updPower_cohorts (s : State) (f : Power → Power) : (s.updPower f).cohorts = s.cohorts := rfl
@[simp] theorem State.updPower_cores (s : State) (f : Power → Power) : (s.updPower f).cores = s.cores := rfl
@[simp] theorem State.updPower_dies (s : State) (f : Power → Power) : (s.updPower f).dies = s.dies := rfl
@[simp] theorem State.updPower_fabric (s : State) (f : Power → Power) : (s.updPower f).fabric = s.fabric := rfl
@[simp] theorem State.updPower_sched (s : State) (f : Power → Power) : (s.updPower f).sched = s.sched := rfl
@[simp] theorem State.updPower_snap (s : State) (f : Power → Power) : (s.updPower f).snap = s.snap := rfl
@[simp] theorem State.updPower_trust (s : State) (f : Power → Power) : (s.updPower f).trust = s.trust := rfl
@[simp] theorem State.updPower_doe (s : State) (f : Power → Power) : (s.updPower f).doe = s.doe := rfl
@[simp] theorem State.updPower_agenda (s : State) (f : Power → Power) : (s.updPower f).agenda = s.agenda := rfl
@[simp] theorem State.updPower_cur (s : State) (f : Power → Power) : (s.updPower f).cur = s.cur := rfl
@[simp] theorem State.updPower_clock (s : State) (f : Power → Power) : (s.updPower f).clock = s.clock := rfl
@[simp] theorem State.updPower_ptp (s : State) (f : Power → Power) : (s.updPower f).ptp = s.ptp := rfl
@[simp] theorem State.updPower_ids (s : State) (f : Power → Power) : (s.updPower f).ids = s.ids := rfl
@[simp] theorem State.updPower_free (s : State) (f : Power → Power) : (s.updPower f).free = s.free := rfl
@[simp] theorem State.updPower_hostData (s : State) (f : Power → Power) : (s.updPower f).hostData = s.hostData := rfl
@[simp] theorem State.updPower_lpddr (s : State) (f : Power → Power) : (s.updPower f).lpddr = s.lpddr := rfl
@[simp] theorem State.updPower_blocked (s : State) (f : Power → Power) : (s.updPower f).blocked = s.blocked := rfl

/-! ### sendRoce -/

@[simp] theorem State.sendRoce_mem (s : State) (x : Roce) : (s.sendRoce x).mem = s.mem := rfl
@[simp] theorem State.sendRoce_poison (s : State) (x : Roce) : (s.sendRoce x).poison = s.poison := rfl
@[simp] theorem State.sendRoce_fempty (s : State) (x : Roce) : (s.sendRoce x).fempty = s.fempty := rfl
@[simp] theorem State.sendRoce_waves (s : State) (x : Roce) : (s.sendRoce x).waves = s.waves := rfl
@[simp] theorem State.sendRoce_cohorts (s : State) (x : Roce) : (s.sendRoce x).cohorts = s.cohorts := rfl
@[simp] theorem State.sendRoce_cores (s : State) (x : Roce) : (s.sendRoce x).cores = s.cores := rfl
@[simp] theorem State.sendRoce_dies (s : State) (x : Roce) : (s.sendRoce x).dies = s.dies := rfl
@[simp] theorem State.sendRoce_fabric (s : State) (x : Roce) : (s.sendRoce x).fabric = s.fabric := rfl
@[simp] theorem State.sendRoce_sched (s : State) (x : Roce) : (s.sendRoce x).sched = s.sched := rfl
@[simp] theorem State.sendRoce_snap (s : State) (x : Roce) : (s.sendRoce x).snap = s.snap := rfl
@[simp] theorem State.sendRoce_trust (s : State) (x : Roce) : (s.sendRoce x).trust = s.trust := rfl
@[simp] theorem State.sendRoce_doe (s : State) (x : Roce) : (s.sendRoce x).doe = s.doe := rfl
@[simp] theorem State.sendRoce_agenda (s : State) (x : Roce) : (s.sendRoce x).agenda = s.agenda := rfl
@[simp] theorem State.sendRoce_cur (s : State) (x : Roce) : (s.sendRoce x).cur = s.cur := rfl
@[simp] theorem State.sendRoce_clock (s : State) (x : Roce) : (s.sendRoce x).clock = s.clock := rfl
@[simp] theorem State.sendRoce_ptp (s : State) (x : Roce) : (s.sendRoce x).ptp = s.ptp := rfl
@[simp] theorem State.sendRoce_ids (s : State) (x : Roce) : (s.sendRoce x).ids = s.ids := rfl
@[simp] theorem State.sendRoce_free (s : State) (x : Roce) : (s.sendRoce x).free = s.free := rfl
@[simp] theorem State.sendRoce_hostData (s : State) (x : Roce) : (s.sendRoce x).hostData = s.hostData := rfl
@[simp] theorem State.sendRoce_lpddr (s : State) (x : Roce) : (s.sendRoce x).lpddr = s.lpddr := rfl
@[simp] theorem State.sendRoce_blocked (s : State) (x : Roce) : (s.sendRoce x).blocked = s.blocked := rfl

/-! ### clearDoerq -/

@[simp] theorem State.clearDoerq_mem (s : State) : s.clearDoerq.mem = s.mem := rfl
@[simp] theorem State.clearDoerq_poison (s : State) : s.clearDoerq.poison = s.poison := rfl
@[simp] theorem State.clearDoerq_fempty (s : State) : s.clearDoerq.fempty = s.fempty := rfl
@[simp] theorem State.clearDoerq_waves (s : State) : s.clearDoerq.waves = s.waves := rfl
@[simp] theorem State.clearDoerq_cohorts (s : State) : s.clearDoerq.cohorts = s.cohorts := rfl
@[simp] theorem State.clearDoerq_cores (s : State) : s.clearDoerq.cores = s.cores := rfl
@[simp] theorem State.clearDoerq_dies (s : State) : s.clearDoerq.dies = s.dies := rfl
@[simp] theorem State.clearDoerq_fabric (s : State) : s.clearDoerq.fabric = s.fabric := rfl
@[simp] theorem State.clearDoerq_sched (s : State) : s.clearDoerq.sched = s.sched := rfl
@[simp] theorem State.clearDoerq_snap (s : State) : s.clearDoerq.snap = s.snap := rfl
@[simp] theorem State.clearDoerq_trust (s : State) : s.clearDoerq.trust = s.trust := rfl
@[simp] theorem State.clearDoerq_power (s : State) : s.clearDoerq.power = s.power := rfl
@[simp] theorem State.clearDoerq_agenda (s : State) : s.clearDoerq.agenda = s.agenda := rfl
@[simp] theorem State.clearDoerq_cur (s : State) : s.clearDoerq.cur = s.cur := rfl
@[simp] theorem State.clearDoerq_clock (s : State) : s.clearDoerq.clock = s.clock := rfl
@[simp] theorem State.clearDoerq_ptp (s : State) : s.clearDoerq.ptp = s.ptp := rfl
@[simp] theorem State.clearDoerq_ids (s : State) : s.clearDoerq.ids = s.ids := rfl
@[simp] theorem State.clearDoerq_free (s : State) : s.clearDoerq.free = s.free := rfl
@[simp] theorem State.clearDoerq_hostData (s : State) : s.clearDoerq.hostData = s.hostData := rfl
@[simp] theorem State.clearDoerq_lpddr (s : State) : s.clearDoerq.lpddr = s.lpddr := rfl
@[simp] theorem State.clearDoerq_blocked (s : State) : s.clearDoerq.blocked = s.blocked := rfl

@[simp] theorem State.sendRoce_foreign (s : State) (x : Roce) : (s.sendRoce x).power.foreign = s.power.foreign ++ [x] := rfl
@[simp] theorem State.clearDoerq_valid (s : State) : s.clearDoerq.doe.valid = false := rfl
@[simp] theorem State.clearDoerq_len (s : State) : s.clearDoerq.doe.len = 0 := rfl

end Sys2Proof.Machine
end

