-- ==== Sys2Proof/Laws/PerInstr.lean ====
section
/-! SUPPORT. Statements about every instruction, one lemma per constructor. `RoundTrip`: the decoder reads back what the
encoder writes. -/

namespace Sys2Proof.Laws.RoundTrip

/-- The word of a well-formed instruction decodes to it; a step of another agent has no word. -/
def Statement (i : Instr) : Prop := i.wellFormed = true → ∀ w, encode i = some w → decode w = .ok i

theorem nop (f : SF) : Statement (.nop f) := by
  intro _ w hw
  cases hw
  exact decode_encS f (by decide)  rfl
theorem sadd (f : SF) : Statement (.sadd f) := by
  intro _ w hw
  cases hw
  exact decode_encS f (by decide)  rfl
theorem ssub (f : SF) : Statement (.ssub f) := by
  intro _ w hw
  cases hw
  exact decode_encS f (by decide)  rfl
theorem smul (f : SF) : Statement (.smul f) := by
  intro _ w hw
  cases hw
  exact decode_encS f (by decide)  rfl
theorem smulh (f : SF) : Statement (.smulh f) := by
  intro _ w hw
  cases hw
  exact decode_encS f (by decide)  rfl
theorem sdiv (f : SF) : Statement (.sdiv f) := by
  intro _ w hw
  cases hw
  exact decode_encS f (by decide)  rfl
theorem srem (f : SF) : Statement (.srem f) := by
  intro _ w hw
  cases hw
  exact decode_encS f (by decide)  rfl
theorem sand (f : SF) : Statement (.sand f) := by
  intro _ w hw
  cases hw
  exact decode_encS f (by decide)  rfl
theorem sor (f : SF) : Statement (.sor f) := by
  intro _ w hw
  cases hw
  exact decode_encS f (by decide)  rfl
theorem sxor (f : SF) : Statement (.sxor f) := by
  intro _ w hw
  cases hw
  exact decode_encS f (by decide)  rfl
theorem sandn (f : SF) : Statement (.sandn f) := by
  intro _ w hw
  cases hw
  exact decode_encS f (by decide)  rfl
theorem sshl (f : SF) : Statement (.sshl f) := by
  intro _ w hw
  cases hw
  exact decode_encS f (by decide)  rfl
theorem sshr (f : SF) : Statement (.sshr f) := by
  intro _ w hw
  cases hw
  exact decode_encS f (by decide)  rfl
theorem ssha (f : SF) : Statement (.ssha f) := by
  intro _ w hw
  cases hw
  exact decode_encS f (by decide)  rfl
theorem smin (f : SF) : Statement (.smin f) := by
  intro _ w hw
  cases hw
  exact decode_encS f (by decide)  rfl
theorem smax (f : SF) : Statement (.smax f) := by
  intro _ w hw
  cases hw
  exact decode_encS f (by decide)  rfl
theorem scmp (f : SF) : Statement (.scmp f) := by
  intro _ w hw
  cases hw
  exact decode_encS f (by decide)  rfl
theorem ssel (f : SF) : Statement (.ssel f) := by
  intro _ w hw
  cases hw
  exact decode_encS f (by decide)  rfl
theorem smov (f : SF) : Statement (.smov f) := by
  intro _ w hw
  cases hw
  exact decode_encS f (by decide)  rfl
theorem smovi (f : IF) : Statement (.smovi f) := by
  intro _ w hw
  cases hw
  exact decode_encI f (by decide) rfl rfl
theorem sbfe (f : SF) : Statement (.sbfe f) := by
  intro _ w hw
  cases hw
  exact decode_encS f (by decide)  rfl
theorem sbfi (f : SF) : Statement (.sbfi f) := by
  intro _ w hw
  cases hw
  exact decode_encS f (by decide)  rfl
theorem slzc (f : SF) : Statement (.slzc f) := by
  intro _ w hw
  cases hw
  exact decode_encS f (by decide)  rfl
theorem spopc (f : SF) : Statement (.spopc f) := by
  intro _ w hw
  cases hw
  exact decode_encS f (by decide)  rfl
theorem sffs (f : SF) : Statement (.sffs f) := by
  intro _ w hw
  cases hw
  exact decode_encS f (by decide)  rfl
theorem sadd64 (f : SF) : Statement (.sadd64 f) := by
  intro _ w hw
  cases hw
  exact decode_encS f (by decide)  rfl
theorem ssub64 (f : SF) : Statement (.ssub64 f) := by
  intro _ w hw
  cases hw
  exact decode_encS f (by decide)  rfl
theorem smad64 (f : SF) : Statement (.smad64 f) := by
  intro _ w hw
  cases hw
  exact decode_encS f (by decide)  rfl
theorem scvt (f : SF) : Statement (.scvt f) := by
  intro _ w hw
  cases hw
  exact decode_encS f (by decide)  rfl
theorem sfma (f : SF) : Statement (.sfma f) := by
  intro _ w hw
  cases hw
  exact decode_encS f (by decide)  rfl
theorem sfcmp (f : SF) : Statement (.sfcmp f) := by
  intro _ w hw
  cases hw
  exact decode_encS f (by decide)  rfl
theorem gets (f : SF) : Statement (.gets f) := by
  intro _ w hw
  cases hw
  exact decode_encS f (by decide)  rfl
theorem mand (f : SF) : Statement (.mand f) := by
  intro _ w hw
  cases hw
  exact decode_encS f (by decide)  rfl
theorem mor (f : SF) : Statement (.mor f) := by
  intro _ w hw
  cases hw
  exact decode_encS f (by decide)  rfl
theorem mxor (f : SF) : Statement (.mxor f) := by
  intro _ w hw
  cases hw
  exact decode_encS f (by decide)  rfl
theorem mandn (f : SF) : Statement (.mandn f) := by
  intro _ w hw
  cases hw
  exact decode_encS f (by decide)  rfl
theorem mnot (f : SF) : Statement (.mnot f) := by
  intro _ w hw
  cases hw
  exact decode_encS f (by decide)  rfl
theorem mmov (f : SF) : Statement (.mmov f) := by
  intro _ w hw
  cases hw
  exact decode_encS f (by decide)  rfl
theorem mpopc (f : SF) : Statement (.mpopc f) := by
  intro _ w hw
  cases hw
  exact decode_encS f (by decide)  rfl
theorem mffs (f : SF) : Statement (.mffs f) := by
  intro _ w hw
  cases hw
  exact decode_encS f (by decide)  rfl
theorem msave (f : SF) : Statement (.msave f) := by
  intro _ w hw
  cases hw
  exact decode_encS f (by decide)  rfl
theorem melse (f : SF) : Statement (.melse f) := by
  intro _ w hw
  cases hw
  exact decode_encS f (by decide)  rfl
theorem mjoin (f : SF) : Statement (.mjoin f) := by
  intro _ w hw
  cases hw
  exact decode_encS f (by decide)  rfl
theorem mlive (f : SF) : Statement (.mlive f) := by
  intro _ w hw
  cases hw
  exact decode_encS f (by decide)  rfl
theorem bra (f : CF) : Statement (.bra f) := by
  intro _ w hw
  cases hw
  exact decode_encC f (by decide) rfl rfl rfl
theorem brz (f : CF) : Statement (.brz f) := by
  intro _ w hw
  cases hw
  exact decode_encC f (by decide) rfl rfl rfl
theorem brnz (f : CF) : Statement (.brnz f) := by
  intro _ w hw
  cases hw
  exact decode_encC f (by decide) rfl rfl rfl
theorem bmz (f : CF) : Statement (.bmz f) := by
  intro _ w hw
  cases hw
  exact decode_encC f (by decide) rfl rfl rfl
theorem bmnz (f : CF) : Statement (.bmnz f) := by
  intro _ w hw
  cases hw
  exact decode_encC f (by decide) rfl rfl rfl
theorem bmall (f : CF) : Statement (.bmall f) := by
  intro _ w hw
  cases hw
  exact decode_encC f (by decide) rfl rfl rfl
theorem call (f : CF) : Statement (.call f) := by
  intro _ w hw
  cases hw
  exact decode_encC f (by decide) rfl rfl rfl
theorem ret (f : CF) : Statement (.ret f) := by
  intro _ w hw
  cases hw
  exact decode_encC f (by decide) rfl rfl rfl
theorem jmpi (f : CF) : Statement (.jmpi f) := by
  intro _ w hw
  cases hw
  exact decode_encC f (by decide) rfl rfl rfl
theorem exit (f : CF) : Statement (.exit f) := by
  intro _ w hw
  cases hw
  exact decode_encC f (by decide) rfl rfl rfl
theorem bar (f : CF) : Statement (.bar f) := by
  intro _ w hw
  cases hw
  exact decode_encC f (by decide) rfl rfl rfl
theorem bara (f : CF) : Statement (.bara f) := by
  intro _ w hw
  cases hw
  exact decode_encC f (by decide) rfl rfl rfl
theorem barw (f : CF) : Statement (.barw f) := by
  intro _ w hw
  cases hw
  exact decode_encC f (by decide) rfl rfl rfl
theorem yield (f : CF) : Statement (.yield f) := by
  intro _ w hw
  cases hw
  exact decode_encC f (by decide) rfl rfl rfl
theorem nap (f : CF) : Statement (.nap f) := by
  intro _ w hw
  cases hw
  exact decode_encC f (by decide) rfl rfl rfl
theorem trap (f : CF) : Statement (.trap f) := by
  intro _ w hw
  cases hw
  exact decode_encC f (by decide) rfl rfl rfl
theorem vadd (f : V2F) : Statement (.vadd f) := by
  intro _ w hw
  cases hw
  exact decode_encV2 f (by decide) rfl rfl rfl rfl
theorem vsub (f : V2F) : Statement (.vsub f) := by
  intro _ w hw
  cases hw
  exact decode_encV2 f (by decide) rfl rfl rfl rfl
theorem vmul (f : V2F) : Statement (.vmul f) := by
  intro _ w hw
  cases hw
  exact decode_encV2 f (by decide) rfl rfl rfl rfl
theorem vmulh (f : V2F) : Statement (.vmulh f) := by
  intro _ w hw
  cases hw
  exact decode_encV2 f (by decide) rfl rfl rfl rfl
theorem vmad (f : V3F) : Statement (.vmad f) := by
  intro _ w hw
  cases hw
  exact decode_encV3 f (by decide) rfl rfl rfl rfl rfl
theorem vmin (f : V2F) : Statement (.vmin f) := by
  intro _ w hw
  cases hw
  exact decode_encV2 f (by decide) rfl rfl rfl rfl
theorem vmax (f : V2F) : Statement (.vmax f) := by
  intro _ w hw
  cases hw
  exact decode_encV2 f (by decide) rfl rfl rfl rfl
theorem vabsd (f : V2F) : Statement (.vabsd f) := by
  intro _ w hw
  cases hw
  exact decode_encV2 f (by decide) rfl rfl rfl rfl
theorem vand (f : V2F) : Statement (.vand f) := by
  intro _ w hw
  cases hw
  exact decode_encV2 f (by decide) rfl rfl rfl rfl
theorem vor (f : V2F) : Statement (.vor f) := by
  intro _ w hw
  cases hw
  exact decode_encV2 f (by decide) rfl rfl rfl rfl
theorem vxor (f : V2F) : Statement (.vxor f) := by
  intro _ w hw
  cases hw
  exact decode_encV2 f (by decide) rfl rfl rfl rfl
theorem vlogic (f : V3F) : Statement (.vlogic f) := by
  intro _ w hw
  cases hw
  exact decode_encV3 f (by decide) rfl rfl rfl rfl rfl
theorem vshl (f : V2F) : Statement (.vshl f) := by
  intro _ w hw
  cases hw
  exact decode_encV2 f (by decide) rfl rfl rfl rfl
theorem vshr (f : V2F) : Statement (.vshr f) := by
  intro _ w hw
  cases hw
  exact decode_encV2 f (by decide) rfl rfl rfl rfl
theorem vsha (f : V2F) : Statement (.vsha f) := by
  intro _ w hw
  cases hw
  exact decode_encV2 f (by decide) rfl rfl rfl rfl
theorem vbfe (f : V3F) : Statement (.vbfe f) := by
  intro _ w hw
  cases hw
  exact decode_encV3 f (by decide) rfl rfl rfl rfl rfl
theorem vbfi (f : V3F) : Statement (.vbfi f) := by
  intro _ w hw
  cases hw
  exact decode_encV3 f (by decide) rfl rfl rfl rfl rfl
theorem vpopc (f : V2F) : Statement (.vpopc f) := by
  intro _ w hw
  cases hw
  exact decode_encV2 f (by decide) rfl rfl rfl rfl
theorem vlzc (f : V2F) : Statement (.vlzc f) := by
  intro _ w hw
  cases hw
  exact decode_encV2 f (by decide) rfl rfl rfl rfl
theorem vcmp (f : V2F) : Statement (.vcmp f) := by
  intro _ w hw
  cases hw
  exact decode_encV2 f (by decide) rfl rfl rfl rfl
theorem vsel (f : V3F) : Statement (.vsel f) := by
  intro _ w hw
  cases hw
  exact decode_encV3 f (by decide) rfl rfl rfl rfl rfl
theorem vmov (f : V2F) : Statement (.vmov f) := by
  intro _ w hw
  cases hw
  exact decode_encV2 f (by decide) rfl rfl rfl rfl
theorem vmovi (f : IF) : Statement (.vmovi f) := by
  intro _ w hw
  cases hw
  exact decode_encI f (by decide) rfl rfl
theorem vlane (f : V2F) : Statement (.vlane f) := by
  intro _ w hw
  cases hw
  exact decode_encV2 f (by decide) rfl rfl rfl rfl
theorem vred (f : V2F) : Statement (.vred f) := by
  intro _ w hw
  cases hw
  exact decode_encV2 f (by decide) rfl rfl rfl rfl
theorem vscan (f : V2F) : Statement (.vscan f) := by
  intro _ w hw
  cases hw
  exact decode_encV2 f (by decide) rfl rfl rfl rfl
theorem vrand (f : V2F) : Statement (.vrand f) := by
  intro _ w hw
  cases hw
  exact decode_encV2 f (by decide) rfl rfl rfl rfl
theorem vplane (f : V2F) : Statement (.vplane f) := by
  intro _ w hw
  cases hw
  exact decode_encV2 f (by decide) rfl rfl rfl rfl
theorem vunplane (f : V2F) : Statement (.vunplane f) := by
  intro _ w hw
  cases hw
  exact decode_encV2 f (by decide) rfl rfl rfl rfl
theorem vfadd (f : V2F) : Statement (.vfadd f) := by
  intro _ w hw
  cases hw
  exact decode_encV2 f (by decide) rfl rfl rfl rfl
theorem vfsub (f : V2F) : Statement (.vfsub f) := by
  intro _ w hw
  cases hw
  exact decode_encV2 f (by decide) rfl rfl rfl rfl
theorem vfmul (f : V2F) : Statement (.vfmul f) := by
  intro _ w hw
  cases hw
  exact decode_encV2 f (by decide) rfl rfl rfl rfl
theorem vfma (f : V3F) : Statement (.vfma f) := by
  intro _ w hw
  cases hw
  exact decode_encV3 f (by decide) rfl rfl rfl rfl rfl
theorem vfmin (f : V2F) : Statement (.vfmin f) := by
  intro _ w hw
  cases hw
  exact decode_encV2 f (by decide) rfl rfl rfl rfl
theorem vfmax (f : V2F) : Statement (.vfmax f) := by
  intro _ w hw
  cases hw
  exact decode_encV2 f (by decide) rfl rfl rfl rfl
theorem vfcmp (f : V2F) : Statement (.vfcmp f) := by
  intro _ w hw
  cases hw
  exact decode_encV2 f (by decide) rfl rfl rfl rfl
theorem vfclass (f : V2F) : Statement (.vfclass f) := by
  intro _ w hw
  cases hw
  exact decode_encV2 f (by decide) rfl rfl rfl rfl
theorem vfdiv (f : V2F) : Statement (.vfdiv f) := by
  intro _ w hw
  cases hw
  exact decode_encV2 f (by decide) rfl rfl rfl rfl
theorem vfsqrt (f : V2F) : Statement (.vfsqrt f) := by
  intro _ w hw
  cases hw
  exact decode_encV2 f (by decide) rfl rfl rfl rfl
theorem vfrcp (f : V2F) : Statement (.vfrcp f) := by
  intro _ w hw
  cases hw
  exact decode_encV2 f (by decide) rfl rfl rfl rfl
theorem vfrsq (f : V2F) : Statement (.vfrsq f) := by
  intro _ w hw
  cases hw
  exact decode_encV2 f (by decide) rfl rfl rfl rfl
theorem vfexp2 (f : V2F) : Statement (.vfexp2 f) := by
  intro _ w hw
  cases hw
  exact decode_encV2 f (by decide) rfl rfl rfl rfl
theorem vflog2 (f : V2F) : Statement (.vflog2 f) := by
  intro _ w hw
  cases hw
  exact decode_encV2 f (by decide) rfl rfl rfl rfl
theorem vfsin (f : V2F) : Statement (.vfsin f) := by
  intro _ w hw
  cases hw
  exact decode_encV2 f (by decide) rfl rfl rfl rfl
theorem vfcos (f : V2F) : Statement (.vfcos f) := by
  intro _ w hw
  cases hw
  exact decode_encV2 f (by decide) rfl rfl rfl rfl
theorem vftanh (f : V2F) : Statement (.vftanh f) := by
  intro _ w hw
  cases hw
  exact decode_encV2 f (by decide) rfl rfl rfl rfl
theorem vcvt (f : V2F) : Statement (.vcvt f) := by
  intro _ w hw
  cases hw
  exact decode_encV2 f (by decide) rfl rfl rfl rfl
theorem vpack (f : V2F) : Statement (.vpack f) := by
  intro _ w hw
  cases hw
  exact decode_encV2 f (by decide) rfl rfl rfl rfl
theorem vunpk (f : V2F) : Statement (.vunpk f) := by
  intro _ w hw
  cases hw
  exact decode_encV2 f (by decide) rfl rfl rfl rfl
theorem vfred (f : V2F) : Statement (.vfred f) := by
  intro _ w hw
  cases hw
  exact decode_encV2 f (by decide) rfl rfl rfl rfl
theorem vfdot2 (f : V3F) : Statement (.vfdot2 f) := by
  intro _ w hw
  cases hw
  exact decode_encV3 f (by decide) rfl rfl rfl rfl rfl
theorem vld (f : MF) : Statement (.vld f) := by
  intro _ w hw
  cases hw
  exact decode_encM f (by decide) rfl rfl rfl rfl rfl rfl
theorem vst (f : MF) : Statement (.vst f) := by
  intro _ w hw
  cases hw
  exact decode_encM f (by decide) rfl rfl rfl rfl rfl rfl
theorem sld (f : MF) : Statement (.sld f) := by
  intro _ w hw
  cases hw
  exact decode_encM f (by decide) rfl rfl rfl rfl rfl rfl
theorem sst (f : MF) : Statement (.sst f) := by
  intro _ w hw
  cases hw
  exact decode_encM f (by decide) rfl rfl rfl rfl rfl rfl
theorem vatom (f : MF) : Statement (.vatom f) := by
  intro _ w hw
  cases hw
  exact decode_encM f (by decide) rfl rfl rfl rfl rfl rfl
theorem satom (f : MF) : Statement (.satom f) := by
  intro _ w hw
  cases hw
  exact decode_encM f (by decide) rfl rfl rfl rfl rfl rfl
theorem fqpush (f : MF) : Statement (.fqpush f) := by
  intro _ w hw
  cases hw
  exact decode_encM f (by decide) rfl rfl rfl rfl rfl rfl
theorem fqpop (f : MF) : Statement (.fqpop f) := by
  intro _ w hw
  cases hw
  exact decode_encM f (by decide) rfl rfl rfl rfl rfl rfl
theorem cpref (f : MF) : Statement (.cpref f) := by
  intro _ w hw
  cases hw
  exact decode_encM f (by decide) rfl rfl rfl rfl rfl rfl
theorem cflush (f : MF) : Statement (.cflush f) := by
  intro _ w hw
  cases hw
  exact decode_encM f (by decide) rfl rfl rfl rfl rfl rfl
theorem segcfg (f : EF) : Statement (.segcfg f) := by
  intro _ w hw
  cases hw
  exact decode_encE f (by decide) rfl rfl rfl rfl rfl rfl rfl
theorem tcopy (f : EF) : Statement (.tcopy f) := by
  intro _ w hw
  cases hw
  exact decode_encE f (by decide) rfl rfl rfl rfl rfl rfl rfl
theorem spmark (f : EF) : Statement (.spmark f) := by
  intro _ w hw
  cases hw
  exact decode_encE f (by decide) rfl rfl rfl rfl rfl rfl rfl
theorem fload (f : MF) : Statement (.fload f) := by
  intro _ w hw
  cases hw
  exact decode_encM f (by decide) rfl rfl rfl rfl rfl rfl
theorem fstore (f : MF) : Statement (.fstore f) := by
  intro _ w hw
  cases hw
  exact decode_encM f (by decide) rfl rfl rfl rfl rfl rfl
theorem freset (f : MF) : Statement (.freset f) := by
  intro _ w hw
  cases hw
  exact decode_encM f (by decide) rfl rfl rfl rfl rfl rfl
theorem fence (f : EF) : Statement (.fence f) := by
  intro _ w hw
  cases hw
  exact decode_encE f (by decide) rfl rfl rfl rfl rfl rfl rfl
theorem batch (f : EF) : Statement (.batch f) := by
  intro _ w hw
  cases hw
  exact decode_encE f (by decide) rfl rfl rfl rfl rfl rfl rfl
theorem waitt (f : EF) : Statement (.waitt f) := by
  intro h w hw
  cases hw
  refine (decode_encE f (by decide) rfl rfl rfl rfl rfl rfl rfl).trans ?_
  have h1 := of_wellFormed h (c := mustLe 20 f.e 2) (by simp [Instr.must, mustE])
  have h2 : f.e ≠ 3 := by
    intro h3; simp [mustLe, h3] at h1
  rw [if_neg h2]
theorem waittMemory (f : EF) : Statement (.waittMemory f) := by
  intro h w hw
  cases hw
  refine (decode_encE f (by decide) rfl rfl rfl rfl rfl rfl rfl).trans ?_
  have h1 := of_wellFormed h (c := mustIn 20 f.e [3]) (by simp [Instr.must, mustE])
  have h2 : f.e = 3 := by
    simp [mustIn] at h1; exact BitVec.eq_of_toNat_eq h1
  rw [if_pos h2]
theorem tlread (f : EF) : Statement (.tlread f) := by
  intro h w hw
  cases hw
  refine (decode_encE f (by decide) rfl rfl rfl rfl rfl rfl rfl).trans ?_
  have h1 := of_wellFormed h (c := mustLe 20 f.e 2) (by simp [Instr.must, mustE])
  have h2 : f.e ≠ 3 := by
    intro h3; simp [mustLe, h3] at h1
  rw [if_neg h2]
theorem tlreadDeferred (f : EF) : Statement (.tlreadDeferred f) := by
  intro h w hw
  cases hw
  refine (decode_encE f (by decide) rfl rfl rfl rfl rfl rfl rfl).trans ?_
  have h1 := of_wellFormed h (c := mustIn 20 f.e [3]) (by simp [Instr.must, mustE])
  have h2 : f.e = 3 := by
    simp [mustIn] at h1; exact BitVec.eq_of_toNat_eq h1
  rw [if_pos h2]
theorem cgbegin (f : EF) : Statement (.cgbegin f) := by
  intro _ w hw
  cases hw
  exact decode_encE f (by decide) rfl rfl rfl rfl rfl rfl rfl
theorem cgcommit (f : EF) : Statement (.cgcommit f) := by
  intro _ w hw
  cases hw
  exact decode_encE f (by decide) rfl rfl rfl rfl rfl rfl rfl
theorem cgabort (f : EF) : Statement (.cgabort f) := by
  intro _ w hw
  cases hw
  exact decode_encE f (by decide) rfl rfl rfl rfl rfl rfl rfl
theorem sbset (f : EF) : Statement (.sbset f) := by
  intro _ w hw
  cases hw
  exact decode_encE f (by decide) rfl rfl rfl rfl rfl rfl rfl
theorem sbclr (f : EF) : Statement (.sbclr f) := by
  intro _ w hw
  cases hw
  exact decode_encE f (by decide) rfl rfl rfl rfl rfl rfl rfl
theorem sbwait (f : EF) : Statement (.sbwait f) := by
  intro _ w hw
  cases hw
  exact decode_encE f (by decide) rfl rfl rfl rfl rfl rfl rfl
theorem sbtake (f : EF) : Statement (.sbtake f) := by
  intro _ w hw
  cases hw
  exact decode_encE f (by decide) rfl rfl rfl rfl rfl rfl rfl
theorem obres (f : EF) : Statement (.obres f) := by
  intro _ w hw
  cases hw
  exact decode_encE f (by decide) rfl rfl rfl rfl rfl rfl rfl
theorem obrel (f : EF) : Statement (.obrel f) := by
  intro _ w hw
  cases hw
  exact decode_encE f (by decide) rfl rfl rfl rfl rfl rfl rfl
theorem obwr (f : EF) : Statement (.obwr f) := by
  intro _ w hw
  cases hw
  exact decode_encE f (by decide) rfl rfl rfl rfl rfl rfl rfl
theorem obrd (f : EF) : Statement (.obrd f) := by
  intro _ w hw
  cases hw
  exact decode_encE f (by decide) rfl rfl rfl rfl rfl rfl rfl
theorem mplane (f : EF) : Statement (.mplane f) := by
  intro _ w hw
  cases hw
  exact decode_encE f (by decide) rfl rfl rfl rfl rfl rfl rfl
theorem mlds (f : EF) : Statement (.mlds f) := by
  intro _ w hw
  cases hw
  exact decode_encE f (by decide) rfl rfl rfl rfl rfl rfl rfl
theorem mswap (f : EF) : Statement (.mswap f) := by
  intro _ w hw
  cases hw
  exact decode_encE f (by decide) rfl rfl rfl rfl rfl rfl rfl
theorem mma (f : EF) : Statement (.mma f) := by
  intro _ w hw
  cases hw
  exact decode_encE f (by decide) rfl rfl rfl rfl rfl rfl rfl
theorem macz (f : EF) : Statement (.macz f) := by
  intro _ w hw
  cases hw
  exact decode_encE f (by decide) rfl rfl rfl rfl rfl rfl rfl
theorem mshout (f : EF) : Statement (.mshout f) := by
  intro _ w hw
  cases hw
  exact decode_encE f (by decide) rfl rfl rfl rfl rfl rfl rfl
theorem mshin (f : EF) : Statement (.mshin f) := by
  intro _ w hw
  cases hw
  exact decode_encE f (by decide) rfl rfl rfl rfl rfl rfl rfl
theorem rstore (f : EF) : Statement (.rstore f) := by
  intro _ w hw
  cases hw
  exact decode_encE f (by decide) rfl rfl rfl rfl rfl rfl rfl
theorem rload (f : EF) : Statement (.rload f) := by
  intro _ w hw
  cases hw
  exact decode_encE f (by decide) rfl rfl rfl rfl rfl rfl rfl
theorem rred (f : EF) : Statement (.rred f) := by
  intro _ w hw
  cases hw
  exact decode_encE f (by decide) rfl rfl rfl rfl rfl rfl rfl
theorem ratom (f : EF) : Statement (.ratom f) := by
  intro _ w hw
  cases hw
  exact decode_encE f (by decide) rfl rfl rfl rfl rfl rfl rfl
theorem rsig (f : EF) : Statement (.rsig f) := by
  intro _ w hw
  cases hw
  exact decode_encE f (by decide) rfl rfl rfl rfl rfl rfl rfl
theorem rxfer (f : EF) : Statement (.rxfer f) := by
  intro _ w hw
  cases hw
  exact decode_encE f (by decide) rfl rfl rfl rfl rfl rfl rfl
theorem trgarm (f : EF) : Statement (.trgarm f) := by
  intro _ w hw
  cases hw
  exact decode_encE f (by decide) rfl rfl rfl rfl rfl rfl rfl
theorem trgcan (f : EF) : Statement (.trgcan f) := by
  intro _ w hw
  cases hw
  exact decode_encE f (by decide) rfl rfl rfl rfl rfl rfl rfl
theorem apxbegin (f : EF) : Statement (.apxbegin f) := by
  intro _ w hw
  cases hw
  exact decode_encE f (by decide) rfl rfl rfl rfl rfl rfl rfl
theorem apxend (f : EF) : Statement (.apxend f) := by
  intro _ w hw
  cases hw
  exact decode_encE f (by decide) rfl rfl rfl rfl rfl rfl rfl
theorem apxinv (f : EF) : Statement (.apxinv f) := by
  intro _ w hw
  cases hw
  exact decode_encE f (by decide) rfl rfl rfl rfl rfl rfl rfl
theorem apxqry (f : EF) : Statement (.apxqry f) := by
  intro _ w hw
  cases hw
  exact decode_encE f (by decide) rfl rfl rfl rfl rfl rfl rfl
theorem taskq (f : EF) : Statement (.taskq f) := by
  intro _ w hw
  cases hw
  exact decode_encE f (by decide) rfl rfl rfl rfl rfl rfl rfl
theorem tasksig (f : EF) : Statement (.tasksig f) := by
  intro _ w hw
  cases hw
  exact decode_encE f (by decide) rfl rfl rfl rfl rfl rfl rfl
theorem sets (f : EF) : Statement (.sets f) := by
  intro _ w hw
  cases hw
  exact decode_encE f (by decide) rfl rfl rfl rfl rfl rfl rfl
theorem eret (f : EF) : Statement (.eret f) := by
  intro _ w hw
  cases hw
  exact decode_encE f (by decide) rfl rfl rfl rfl rfl rfl rfl
theorem syscall (f : EF) : Statement (.syscall f) := by
  intro _ w hw
  cases hw
  exact decode_encE f (by decide) rfl rfl rfl rfl rfl rfl rfl
theorem tlbinv (f : EF) : Statement (.tlbinv f) := by
  intro _ w hw
  cases hw
  exact decode_encE f (by decide) rfl rfl rfl rfl rfl rfl rfl
theorem hashb (f : EF) : Statement (.hashb f) := by
  intro _ w hw
  cases hw
  exact decode_encE f (by decide) rfl rfl rfl rfl rfl rfl rfl
theorem signq (f : EF) : Statement (.signq f) := by
  intro _ w hw
  cases hw
  exact decode_encE f (by decide) rfl rfl rfl rfl rfl rfl rfl
theorem measxExtend (f : EF) : Statement (.measxExtend f) := by
  intro h w hw
  cases hw
  refine (decode_encE f (by decide) rfl rfl rfl rfl rfl rfl rfl).trans ?_
  have h1 := of_wellFormed h (c := (4, ctlBits f 4 4 == 0)) (by simp [Instr.must, mustE])
  have h2 : f.ctl.getLsbD 4 = false := by
    simpa [ctlBits, BitVec.getLsbD, Nat.testBit, Nat.shiftRight_eq_div_pow, Nat.and_one_is_mod] using h1
  rw [h2]; rfl
theorem measxRead (f : EF) : Statement (.measxRead f) := by
  intro h w hw
  cases hw
  refine (decode_encE f (by decide) rfl rfl rfl rfl rfl rfl rfl).trans ?_
  have h1 := of_wellFormed h (c := (4, ctlBits f 4 4 == 1)) (by simp [Instr.must, mustE])
  have h2 : f.ctl.getLsbD 4 = true := by
    simpa [ctlBits, BitVec.getLsbD, Nat.testBit, Nat.shiftRight_eq_div_pow, Nat.and_one_is_mod] using h1
  rw [h2]; rfl
theorem clauseHeader (h : HF) : Statement (.clauseHeader h) := by
  intro _ w hw
  cases hw
  exact decode_encH h
theorem waveReady (wave : Nat) : Statement (.waveReady wave) := by
  intro _ w hw
  cases hw
theorem lateResultLand (wave seq : Nat) (lanes : List Nat) : Statement (.lateResultLand wave seq lanes) := by
  intro _ w hw
  cases hw
theorem napExpiry (wave : Nat) : Statement (.napExpiry wave) := by
  intro _ w hw
  cases hw
theorem storeBufferDrain (core entry : Nat) : Statement (.storeBufferDrain core entry) := by
  intro _ w hw
  cases hw
theorem l1SectorExpiry (core sector : Nat) : Statement (.l1SectorExpiry core sector) := by
  intro _ w hw
  cases hw
theorem cowPageCopy (page : Nat) : Statement (.cowPageCopy page) := by
  intro _ w hw
  cases hw
theorem floadResend (wave seq : Nat) : Statement (.floadResend wave seq) := by
  intro _ w hw
  cases hw
theorem translationWalkComplete (die walk : Nat) : Statement (.translationWalkComplete die walk) := by
  intro _ w hw
  cases hw
theorem tlbRequestReissue (die request : Nat) : Statement (.tlbRequestReissue die request) := by
  intro _ w hw
  cases hw
theorem faultRecordDeferred (die : Nat) : Statement (.faultRecordDeferred die) := by
  intro _ w hw
  cases hw
theorem faultRetry (die token : Nat) : Statement (.faultRetry die token) := by
  intro _ w hw
  cases hw
theorem faultTrap (die token : Nat) : Statement (.faultTrap die token) := by
  intro _ w hw
  cases hw
theorem faultKill (die token : Nat) : Statement (.faultKill die token) := by
  intro _ w hw
  cases hw
theorem invalidateAsid (die asid : Nat) (pkg : Bool) : Statement (.invalidateAsid die asid pkg) := by
  intro _ w hw
  cases hw
theorem invalidateRange (die asid va count : Nat) (pkg : Bool) : Statement (.invalidateRange die asid va count pkg) := by
  intro _ w hw
  cases hw
theorem invalidateAll (die : Nat) (pkg : Bool) : Statement (.invalidateAll die pkg) := by
  intro _ w hw
  cases hw
theorem invalidationComplete (die : Nat) : Statement (.invalidationComplete die) := by
  intro _ w hw
  cases hw
theorem tileCopyPerform (cmd : Nat) (elems : List Nat) : Statement (.tileCopyPerform cmd elems) := by
  intro _ w hw
  cases hw
theorem segcfgComplete (cmd : Nat) : Statement (.segcfgComplete cmd) := by
  intro _ w hw
  cases hw
theorem tlreadPerform (cmd : Nat) : Statement (.tlreadPerform cmd) := by
  intro _ w hw
  cases hw
theorem obrelRelease (core cmd : Nat) : Statement (.obrelRelease core cmd) := by
  intro _ w hw
  cases hw
theorem obwrWrite (core cmd : Nat) : Statement (.obwrWrite core cmd) := by
  intro _ w hw
  cases hw
theorem obrdRead (core cmd : Nat) : Statement (.obrdRead core cmd) := by
  intro _ w hw
  cases hw
theorem mplaneWrite (core cmd : Nat) : Statement (.mplaneWrite core cmd) := by
  intro _ w hw
  cases hw
theorem mldsLoad (core cmd : Nat) : Statement (.mldsLoad core cmd) := by
  intro _ w hw
  cases hw
theorem mswapExchange (core cmd : Nat) : Statement (.mswapExchange core cmd) := by
  intro _ w hw
  cases hw
theorem mmaRowStep (core cmd : Nat) : Statement (.mmaRowStep core cmd) := by
  intro _ w hw
  cases hw
theorem maczClear (core cmd : Nat) : Statement (.maczClear core cmd) := by
  intro _ w hw
  cases hw
theorem mshoutRow (core cmd : Nat) : Statement (.mshoutRow core cmd) := by
  intro _ w hw
  cases hw
theorem mshinRow (core cmd : Nat) : Statement (.mshinRow core cmd) := by
  intro _ w hw
  cases hw
theorem routerExpand (arrival : Arrival) : Statement (.routerExpand arrival) := by
  intro _ w hw
  cases hw
theorem targetPerform (delivery : Nat) : Statement (.targetPerform delivery) := by
  intro _ w hw
  cases hw
theorem reductionContribution (delivery : Nat) : Statement (.reductionContribution delivery) := by
  intro _ w hw
  cases hw
theorem reductionSlotTimeout (slot : Nat) : Statement (.reductionSlotTimeout slot) := by
  intro _ w hw
  cases hw
theorem tombstoneExpiry (tombstone : Nat) : Statement (.tombstoneExpiry tombstone) := by
  intro _ w hw
  cases hw
theorem reductionNackResend (refusal : Nat) : Statement (.reductionNackResend refusal) := by
  intro _ w hw
  cases hw
theorem combineAck (entry branch : Nat) (ack : Ack) : Statement (.combineAck entry branch ack) := by
  intro _ w hw
  cases hw
theorem combineTimeout (entry : Nat) : Statement (.combineTimeout entry) := by
  intro _ w hw
  cases hw
theorem combineNackResend (refusal : Nat) : Statement (.combineNackResend refusal) := by
  intro _ w hw
  cases hw
theorem remoteAck (op : Nat) (ack : Ack) : Statement (.remoteAck op ack) := by
  intro _ w hw
  cases hw
theorem remoteTxTimeout (op : Nat) : Statement (.remoteTxTimeout op) := by
  intro _ w hw
  cases hw
theorem rxferTransfer (cmd : Nat) : Statement (.rxferTransfer cmd) := by
  intro _ w hw
  cases hw
theorem roceAck (source : RoceSource) (cause : Nat) : Statement (.roceAck source cause) := by
  intro _ w hw
  cases hw
theorem triggerFire (die entry uncertainty : Nat) : Statement (.triggerFire die entry uncertainty) := by
  intro _ w hw
  cases hw
theorem triggerComplete (die entry : Nat) : Statement (.triggerComplete die entry) := by
  intro _ w hw
  cases hw
theorem snapshotArm : Statement (.snapshotArm) := by
  intro _ w hw
  cases hw
theorem snapshotCancel : Statement (.snapshotCancel) := by
  intro _ w hw
  cases hw
theorem snapshotFreeze : Statement (.snapshotFreeze) := by
  intro _ w hw
  cases hw
theorem snapshotMarkComplete : Statement (.snapshotMarkComplete) := by
  intro _ w hw
  cases hw
theorem snapshotDrainRecord (die : Nat) : Statement (.snapshotDrainRecord die) := by
  intro _ w hw
  cases hw
theorem windowTableLoad : Statement (.windowTableLoad) := by
  intro _ w hw
  cases hw
theorem ruleTableLoad : Statement (.ruleTableLoad) := by
  intro _ w hw
  cases hw
theorem taskDoorbell (queue : Nat) : Statement (.taskDoorbell queue) := by
  intro _ w hw
  cases hw
theorem taskRead (queue : Nat) : Statement (.taskRead queue) := by
  intro _ w hw
  cases hw
theorem dependencePoll (task : Nat) : Statement (.dependencePoll task) := by
  intro _ w hw
  cases hw
theorem admissionTest (task : Nat) : Statement (.admissionTest task) := by
  intro _ w hw
  cases hw
theorem stagingLanding (copy : Nat) (bytes : Nat) : Statement (.stagingLanding copy bytes) := by
  intro _ w hw
  cases hw
theorem stagingTimeout (task : Nat) : Statement (.stagingTimeout task) := by
  intro _ w hw
  cases hw
theorem cohortPlace (task index core : Nat) : Statement (.cohortPlace task index core) := by
  intro _ w hw
  cases hw
theorem cohortRetire (cohort : Nat) : Statement (.cohortRetire cohort) := by
  intro _ w hw
  cases hw
theorem storageClearComplete (core item : Nat) : Statement (.storageClearComplete core item) := by
  intro _ w hw
  cases hw
theorem segmentConvert (core segment : Nat) (role : Role) : Statement (.segmentConvert core segment role) := by
  intro _ w hw
  cases hw
theorem segmentConversionComplete (core segment : Nat) : Statement (.segmentConversionComplete core segment) := by
  intro _ w hw
  cases hw
theorem waitTimeout100us (wave : Nat) : Statement (.waitTimeout100us wave) := by
  intro _ w hw
  cases hw
theorem preemptLimitExpiry (task victim : Nat) : Statement (.preemptLimitExpiry task victim) := by
  intro _ w hw
  cases hw
theorem cohortRestore (saved core : Nat) : Statement (.cohortRestore saved core) := by
  intro _ w hw
  cases hw
theorem taskQueueCancel (queue : Nat) : Statement (.taskQueueCancel queue) := by
  intro _ w hw
  cases hw
theorem fittingSample (die : Nat) : Statement (.fittingSample die) := by
  intro _ w hw
  cases hw
theorem replayStep (die region : Nat) : Statement (.replayStep die region) := by
  intro _ w hw
  cases hw
theorem serviceResponse (die token : Nat) : Statement (.serviceResponse die token) := by
  intro _ w hw
  cases hw
theorem serviceRecordDeferred (die : Nat) : Statement (.serviceRecordDeferred die) := by
  intro _ w hw
  cases hw
theorem mcRetry (die token : Nat) : Statement (.mcRetry die token) := by
  intro _ w hw
  cases hw
theorem mcTrap (die token : Nat) : Statement (.mcTrap die token) := by
  intro _ w hw
  cases hw
theorem mcKill (die token : Nat) : Statement (.mcKill die token) := by
  intro _ w hw
  cases hw
theorem mcRecordDeferred (die : Nat) : Statement (.mcRecordDeferred die) := by
  intro _ w hw
  cases hw
theorem debugStop (dispatch : Nat) : Statement (.debugStop dispatch) := by
  intro _ w hw
  cases hw
theorem debugGo (dispatch : Nat) : Statement (.debugGo dispatch) := by
  intro _ w hw
  cases hw
theorem channelHeadWrite (die channel : Nat) (value : DWord) : Statement (.channelHeadWrite die channel value) := by
  intro _ w hw
  cases hw
theorem channelRecord (die channel : Nat) (drain : Bool) : Statement (.channelRecord die channel drain) := by
  intro _ w hw
  cases hw
theorem packageReset (images : List BootImage) : Statement (.packageReset images) := by
  intro _ w hw
  cases hw
theorem bootRetry (images : List BootImage) : Statement (.bootRetry images) := by
  intro _ w hw
  cases hw
theorem trustQueueDoorbell : Statement (.trustQueueDoorbell) := by
  intro _ w hw
  cases hw
theorem trustQueueCancel : Statement (.trustQueueCancel) := by
  intro _ w hw
  cases hw
theorem doeRequest (request : List Byte) : Statement (.doeRequest request) := by
  intro _ w hw
  cases hw
theorem doeResponse (len : Nat) : Statement (.doeResponse len) := by
  intro _ w hw
  cases hw
theorem doeAbort : Statement (.doeAbort) := by
  intro _ w hw
  cases hw
theorem spdmGetVersion : Statement (.spdmGetVersion) := by
  intro _ w hw
  cases hw
theorem spdmGetCapabilities : Statement (.spdmGetCapabilities) := by
  intro _ w hw
  cases hw
theorem spdmNegotiateAlgorithms : Statement (.spdmNegotiateAlgorithms) := by
  intro _ w hw
  cases hw
theorem spdmGetDigests : Statement (.spdmGetDigests) := by
  intro _ w hw
  cases hw
theorem spdmGetCertificate : Statement (.spdmGetCertificate) := by
  intro _ w hw
  cases hw
theorem spdmChallenge : Statement (.spdmChallenge) := by
  intro _ w hw
  cases hw
theorem spdmGetMeasurements : Statement (.spdmGetMeasurements) := by
  intro _ w hw
  cases hw
theorem spdmUnsupportedRequest : Statement (.spdmUnsupportedRequest) := by
  intro _ w hw
  cases hw
theorem ideKmQuery : Statement (.ideKmQuery) := by
  intro _ w hw
  cases hw
theorem ideKmKeyProg : Statement (.ideKmKeyProg) := by
  intro _ w hw
  cases hw
theorem ideKmKSetGo : Statement (.ideKmKSetGo) := by
  intro _ w hw
  cases hw
theorem ideKmKSetStop : Statement (.ideKmKSetStop) := by
  intro _ w hw
  cases hw
theorem tdispGetVersion : Statement (.tdispGetVersion) := by
  intro _ w hw
  cases hw
theorem tdispGetCapabilities : Statement (.tdispGetCapabilities) := by
  intro _ w hw
  cases hw
theorem lockInterface (iface : Nat) : Statement (.lockInterface iface) := by
  intro _ w hw
  cases hw
theorem getDeviceInterfaceReport (iface : Nat) : Statement (.getDeviceInterfaceReport iface) := by
  intro _ w hw
  cases hw
theorem getDeviceInterfaceState (iface : Nat) : Statement (.getDeviceInterfaceState iface) := by
  intro _ w hw
  cases hw
theorem startInterface (iface : Nat) : Statement (.startInterface iface) := by
  intro _ w hw
  cases hw
theorem stopInterface (iface : Nat) : Statement (.stopInterface iface) := by
  intro _ w hw
  cases hw
theorem worldRequest (iface : Nat) : Statement (.worldRequest iface) := by
  intro _ w hw
  cases hw
theorem functionLevelReset (iface : Nat) : Statement (.functionLevelReset iface) := by
  intro _ w hw
  cases hw
theorem evictPage (page : Nat) : Statement (.evictPage page) := by
  intro _ w hw
  cases hw
theorem pageReturn (page : Nat) (blob : Blob) (die token : Nat) : Statement (.pageReturn page blob die token) := by
  intro _ w hw
  cases hw
theorem pageScrub (page : Nat) : Statement (.pageScrub page) := by
  intro _ w hw
  cases hw
theorem hostAccess (access : HostOp) : Statement (.hostAccess access) := by
  intro _ w hw
  cases hw
theorem cxlSnoop (line : Nat) : Statement (.cxlSnoop line) := by
  intro _ w hw
  cases hw
theorem portTrain (port : Nat) (peerProved : Bool) : Statement (.portTrain port peerProved) := by
  intro _ w hw
  cases hw
theorem flitTagFail (port : Nat) : Statement (.flitTagFail port) := by
  intro _ w hw
  cases hw
theorem laneFailure (port : Nat) : Statement (.laneFailure port) := by
  intro _ w hw
  cases hw
theorem powerThrottle (mhz watts : Nat) : Statement (.powerThrottle mhz watts) := by
  intro _ w hw
  cases hw
theorem thermalTrip : Statement (.thermalTrip) := by
  intro _ w hw
  cases hw
theorem ageingReplan (plan : List CorePlan) (record : Nat) : Statement (.ageingReplan plan record) := by
  intro _ w hw
  cases hw
theorem doerqRead : Statement (.doerqRead) := by
  intro _ w hw
  cases hw
theorem trrngRead : Statement (.trrngRead) := by
  intro _ w hw
  cases hw
theorem tsstgdropRead (die : Nat) : Statement (.tsstgdropRead die) := by
  intro _ w hw
  cases hw
theorem tsremfltRead (die : Nat) : Statement (.tsremfltRead die) := by
  intro _ w hw
  cases hw
theorem l2stgdropRead (die : Nat) : Statement (.l2stgdropRead die) := by
  intro _ w hw
  cases hw
theorem l2nackRead (die : Nat) : Statement (.l2nackRead die) := by
  intro _ w hw
  cases hw
theorem l2futdblRead (die : Nat) : Statement (.l2futdblRead die) := by
  intro _ w hw
  cases hw
theorem l2poisonRead (die : Nat) : Statement (.l2poisonRead die) := by
  intro _ w hw
  cases hw
theorem fbrednackRead : Statement (.fbrednackRead) := by
  intro _ w hw
  cases hw
theorem fbdroplateRead : Statement (.fbdroplateRead) := by
  intro _ w hw
  cases hw
theorem fbtimeoutRead : Statement (.fbtimeoutRead) := by
  intro _ w hw
  cases hw
theorem fborphanRead : Statement (.fborphanRead) := by
  intro _ w hw
  cases hw
theorem fbbadhdrRead : Statement (.fbbadhdrRead) := by
  intro _ w hw
  cases hw
theorem schedpreRead : Statement (.schedpreRead) := by
  intro _ w hw
  cases hw
theorem scheddemRead : Statement (.scheddemRead) := by
  intro _ w hw
  cases hw
theorem fedropRead (die : Nat) : Statement (.fedropRead die) := by
  intro _ w hw
  cases hw
theorem feinvRead (die : Nat) : Statement (.feinvRead die) := by
  intro _ w hw
  cases hw
theorem mcceRead (die : Nat) : Statement (.mcceRead die) := by
  intro _ w hw
  cases hw
theorem trdenyRead : Statement (.trdenyRead) := by
  intro _ w hw
  cases hw
theorem trtagfailRead : Statement (.trtagfailRead) := by
  intro _ w hw
  cases hw
theorem pwrthrotRead : Statement (.pwrthrotRead) := by
  intro _ w hw
  cases hw
theorem registerWrite (agent : RegAgent) (addr : Nat) (value : DWord) : Statement (.registerWrite agent addr value) := by
  intro _ w hw
  cases hw
theorem l2StagingFill (copy line : Nat) : Statement (.l2StagingFill copy line) := by
  intro _ w hw
  cases hw
theorem tdispInterfaceError (iface : Nat) : Statement (.tdispInterfaceError iface) := by
  intro _ w hw
  cases hw
theorem supplyLoss : Statement (.supplyLoss) := by
  intro _ w hw
  cases hw

end Sys2Proof.Laws.RoundTrip
end

