-- ==== Sys2Proof/Tests/Slice0.lean ====
section
/-! SUPPORT. Tests of the model, and for every statement a state and operands that meet its hypotheses. Words are written from the
layouts of R198 and the opcodes of R209; expected results come from the rules' words and examples, worked by hand. -/

namespace Sys2Proof.Tests
open Sys2Proof.Machine

set_option Elab.async false

/-! ### Words and what they decode to (R198, R209) -/

def scalarWords : List (DWord × Instr) :=

  [(0x0000000000000000, .nop { d := 0, a := 0, b := 0, fn := 0, ty := 0, imm := 0 }),
   (0x0106058101923456, .sadd { d := 6, a := 5, b := 129, fn := 0, ty := 1, imm := 0x923456 }),
   (0x0207828000000000, .ssub { d := 7, a := 130, b := 128, fn := 0, ty := 0, imm := 0 }),
   (0x0306058100923456, .smul { d := 6, a := 5, b := 129, fn := 0, ty := 0, imm := 0x923456 }),
   (0x0406058101923456, .smulh { d := 6, a := 5, b := 129, fn := 0, ty := 1, imm := 0x923456 }),
   (0x0506050400000000, .sdiv { d := 6, a := 5, b := 4, fn := 0, ty := 0, imm := 0 }),
   (0x0606050401000000, .srem { d := 6, a := 5, b := 4, fn := 0, ty := 1, imm := 0 }),
   (0x0E06058100923456, .smin { d := 6, a := 5, b := 129, fn := 0, ty := 0, imm := 0x923456 }),
   (0x0F06058101923456, .smax { d := 6, a := 5, b := 129, fn := 0, ty := 1, imm := 0x923456 }),
   (0x0706058100923456, .sand { d := 6, a := 5, b := 129, fn := 0, ty := 0, imm := 0x923456 }),
   (0x0806058100923456, .sor { d := 6, a := 5, b := 129, fn := 0, ty := 0, imm := 0x923456 }),
   (0x0906058100923456, .sxor { d := 6, a := 5, b := 129, fn := 0, ty := 0, imm := 0x923456 }),
   (0x0A06058100923456, .sandn { d := 6, a := 5, b := 129, fn := 0, ty := 0, imm := 0x923456 }),
   (0x0B06058100923456, .sshl { d := 6, a := 5, b := 129, fn := 0, ty := 0, imm := 0x923456 }),
   (0x0C06058100923456, .sshr { d := 6, a := 5, b := 129, fn := 0, ty := 0, imm := 0x923456 }),
   (0x0D06058100923456, .ssha { d := 6, a := 5, b := 129, fn := 0, ty := 0, imm := 0x923456 }),
   (0x1406050401000000, .sbfe { d := 6, a := 5, b := 4, fn := 0, ty := 1, imm := 0 }),
   (0x1506050400000000, .sbfi { d := 6, a := 5, b := 4, fn := 0, ty := 0, imm := 0 }),
   (0x1606050000000000, .slzc { d := 6, a := 5, b := 0, fn := 0, ty := 0, imm := 0 }),
   (0x1706810000FFFFFF, .spopc { d := 6, a := 129, b := 0, fn := 0, ty := 0, imm := 0xffffff }),
   (0x1806050000000000, .sffs { d := 6, a := 5, b := 0, fn := 0, ty := 0, imm := 0 })]

def scalarWords2 : List (DWord × Instr) :=

  [(0x1006050451000000, .scmp { d := 6, a := 5, b := 4, fn := 5, ty := 1, imm := 0 }),
   (0x110605040000007F, .ssel { d := 6, a := 5, b := 4, fn := 0, ty := 0, imm := 127 }),
   (0x120A080002000000, .smov { d := 10, a := 8, b := 0, fn := 0, ty := 2, imm := 0 }),
   (0x13080200FFFF0001, .smovi { d := 8, fn := 2, z := 0, imm := 0xffff0001 }),
   (0x190A080C00000000, .sadd64 { d := 10, a := 8, b := 12, fn := 0, ty := 0, imm := 0 }),
   (0x1A0A088100800000, .ssub64 { d := 10, a := 8, b := 129, fn := 0, ty := 0, imm := 0x800000 }),
   (0x1B0A050401000000, .smad64 { d := 10, a := 5, b := 4, fn := 0, ty := 1, imm := 0 }),
   (0x1C0A08005500000E, .scvt { d := 10, a := 8, b := 0, fn := 5, ty := 5, imm := 14 }),
   (0x1D0A080C35000004, .sfma { d := 10, a := 8, b := 12, fn := 3, ty := 5, imm := 4 }),
   (0x1E06080C75000000, .sfcmp { d := 6, a := 8, b := 12, fn := 7, ty := 5, imm := 0 }),
   (0x1F0A00001000000F, .gets { d := 10, a := 0, b := 0, fn := 1, ty := 0, imm := 15 })]

def maskWords : List (DWord × Instr) :=

  [(0x2009618200000000, .mand { d := 9, a := 97, b := 130, fn := 0, ty := 0, imm := 0 }),
   (0x2109056100000000, .mor { d := 9, a := 5, b := 97, fn := 0, ty := 0, imm := 0 }),
   (0x2262050600000000, .mxor { d := 98, a := 5, b := 6, fn := 0, ty := 0, imm := 0 }),
   (0x2309050600000000, .mandn { d := 9, a := 5, b := 6, fn := 0, ty := 0, imm := 0 }),
   (0x2409050000000000, .mnot { d := 9, a := 5, b := 0, fn := 0, ty := 0, imm := 0 }),
   (0x2509820000000000, .mmov { d := 9, a := 130, b := 0, fn := 0, ty := 0, imm := 0 }),
   (0x2609600000000000, .mpopc { d := 9, a := 96, b := 0, fn := 0, ty := 0, imm := 0 }),
   (0x2709600000000000, .mffs { d := 9, a := 96, b := 0, fn := 0, ty := 0, imm := 0 }),
   (0x280C080000000000, .msave { d := 12, a := 8, b := 0, fn := 0, ty := 0, imm := 0 }),
   (0x2900080000000000, .melse { d := 0, a := 8, b := 0, fn := 0, ty := 0, imm := 0 }),
   (0x2A000C0000000000, .mjoin { d := 0, a := 12, b := 0, fn := 0, ty := 0, imm := 0 }),
   (0x2B09000000000000, .mlive { d := 9, a := 0, b := 0, fn := 0, ty := 0, imm := 0 })]

def controlWords : List (DWord × Instr) :=

  [(0x30000000FFFFFFFE, .bra { a := 0, b := 0, z := 0, off := 0xfffffffe }),
   (0x3105000000000003, .brz { a := 5, b := 0, z := 0, off := 3 }),
   (0x3280000000000003, .brnz { a := 128, b := 0, z := 0, off := 3 }),
   (0x3360000000000003, .bmz { a := 96, b := 0, z := 0, off := 3 }),
   (0x3482000000000003, .bmnz { a := 130, b := 0, z := 0, off := 3 }),
   (0x3560000000000003, .bmall { a := 96, b := 0, z := 0, off := 3 }),
   (0x3614000000000005, .call { a := 20, b := 0, z := 0, off := 5 }),
   (0x3714000000000000, .ret { a := 20, b := 0, z := 0, off := 0 }),
   (0x3814160000000001, .jmpi { a := 20, b := 22, z := 0, off := 1 }),
   (0x3900000000000000, .exit { a := 0, b := 0, z := 0, off := 0 }),
   (0x3A0000000000000F, .bar { a := 0, b := 0, z := 0, off := 15 }),
   (0x3B00000000000001, .bara { a := 0, b := 0, z := 0, off := 1 }),
   (0x3C00000000000001, .barw { a := 0, b := 0, z := 0, off := 1 }),
   (0x3D00000000000000, .yield { a := 0, b := 0, z := 0, off := 0 }),
   (0x3E05000000000000, .nap { a := 5, b := 0, z := 0, off := 0 }),
   (0x3F05000012345678, .trap { a := 5, b := 0, z := 0, off := 0x12345678 })]

def vectorWords : List (DWord × Instr) :=

  [(0x400A0B0C28118100, .vadd { d := 10, a := 11, b := 12, ra := 1, rb := 2, p := 17, ty := 8, rnd := 0, sat := 1, fn := 0, la := 0 }),
   (0x410A0B0C00009000, .vsub { d := 10, a := 11, b := 12, ra := 0, rb := 0, p := 0, ty := 9, rnd := 0, sat := 0, fn := 0, la := 0 }),
   (0x420A0B0C00001000, .vmul { d := 10, a := 11, b := 12, ra := 0, rb := 0, p := 0, ty := 1, rnd := 0, sat := 0, fn := 0, la := 0 }),
   (0x430A0B0C00001000, .vmulh { d := 10, a := 11, b := 12, ra := 0, rb := 0, p := 0, ty := 1, rnd := 0, sat := 0, fn := 0, la := 0 }),
   (0x450A0B0C0000A000, .vmin { d := 10, a := 11, b := 12, ra := 0, rb := 0, p := 0, ty := 10, rnd := 0, sat := 0, fn := 0, la := 0 }),
   (0x460A0B0C0000B000, .vmax { d := 10, a := 11, b := 12, ra := 0, rb := 0, p := 0, ty := 11, rnd := 0, sat := 0, fn := 0, la := 0 }),
   (0x470A0B0C00000000, .vabsd { d := 10, a := 11, b := 12, ra := 0, rb := 0, p := 0, ty := 0, rnd := 0, sat := 0, fn := 0, la := 0 }),
   (0x480A0C0E00003000, .vand { d := 10, a := 12, b := 14, ra := 0, rb := 0, p := 0, ty := 3, rnd := 0, sat := 0, fn := 0, la := 0 }),
   (0x490A0B0C00000000, .vor { d := 10, a := 11, b := 12, ra := 0, rb := 0, p := 0, ty := 0, rnd := 0, sat := 0, fn := 0, la := 0 }),
   (0x4A0A0B0C00000000, .vxor { d := 10, a := 11, b := 12, ra := 0, rb := 0, p := 0, ty := 0, rnd := 0, sat := 0, fn := 0, la := 0 }),
   (0x4C0A0C0E00003000, .vshl { d := 10, a := 12, b := 14, ra := 0, rb := 0, p := 0, ty := 3, rnd := 0, sat := 0, fn := 0, la := 0 }),
   (0x4D0A0B0C00000000, .vshr { d := 10, a := 11, b := 12, ra := 0, rb := 0, p := 0, ty := 0, rnd := 0, sat := 0, fn := 0, la := 0 }),
   (0x4E0A0B0C00000000, .vsha { d := 10, a := 11, b := 12, ra := 0, rb := 0, p := 0, ty := 0, rnd := 0, sat := 0, fn := 0, la := 0 }),
   (0x510A0500E0000000, .vpopc { d := 10, a := 5, b := 0, ra := 7, rb := 0, p := 0, ty := 0, rnd := 0, sat := 0, fn := 0, la := 0 }),
   (0x520A0B0000000000, .vlzc { d := 10, a := 11, b := 0, ra := 0, rb := 0, p := 0, ty := 0, rnd := 0, sat := 0, fn := 0, la := 0 }),
   (0x5328050600000020, .vcmp { d := 40, a := 5, b := 6, ra := 0, rb := 0, p := 0, ty := 0, rnd := 0, sat := 0, fn := 2, la := 0 }),
   (0x550A0C0000002000, .vmov { d := 10, a := 12, b := 0, ra := 0, rb := 0, p := 0, ty := 2, rnd := 0, sat := 0, fn := 0, la := 0 }),
   (0x570A000000000030, .vlane { d := 10, a := 0, b := 0, ra := 0, rb := 0, p := 0, ty := 0, rnd := 0, sat := 0, fn := 3, la := 0 }),
   (0x5A0A000000000010, .vrand { d := 10, a := 0, b := 0, ra := 0, rb := 0, p := 0, ty := 0, rnd := 0, sat := 0, fn := 1, la := 0 }),
   (0x5814090000000020, .vred { d := 20, a := 9, b := 0, ra := 0, rb := 0, p := 0, ty := 0, rnd := 0, sat := 0, fn := 2, la := 0 }),
   (0x590A0C0000002080, .vscan { d := 10, a := 12, b := 0, ra := 0, rb := 0, p := 0, ty := 2, rnd := 0, sat := 0, fn := 8, la := 0 }),
   (0x5B0A0B000000A030, .vplane { d := 10, a := 11, b := 0, ra := 0, rb := 0, p := 0, ty := 10, rnd := 0, sat := 0, fn := 3, la := 0 }),
   (0x5C0A0B000000A000, .vunplane { d := 10, a := 11, b := 0, ra := 0, rb := 0, p := 0, ty := 10, rnd := 0, sat := 0, fn := 0, la := 0 })]

def vectorWords2 : List (DWord × Instr) :=

  [(0x440A0C0E10000010, .vmad { d := 10, a := 12, b := 14, c := 16, ra := 0, rb := 0, rc := 0, p := 0, ty := 2, rnd := 0 }),
   (0x4B04050607000000, .vlogic { d := 4, a := 5, b := 6, c := 7, ra := 0, rb := 0, rc := 0, p := 0, ty := 0, rnd := 0 }),
   (0x4F04050007000000, .vbfe { d := 4, a := 5, b := 0, c := 7, ra := 0, rb := 0, rc := 0, p := 0, ty := 0, rnd := 0 }),
   (0x5004050607000000, .vbfi { d := 4, a := 5, b := 6, c := 7, ra := 0, rb := 0, rc := 0, p := 0, ty := 0, rnd := 0 }),
   (0x5404050661000000, .vsel { d := 4, a := 5, b := 6, c := 97, ra := 0, rb := 0, rc := 0, p := 0, ty := 0, rnd := 0 }),
   (0x5608010089ABCDEF, .vmovi { d := 8, fn := 1, z := 0, imm := 0x89abcdef }),
   (0x630A0203040C0025, .vfma { d := 10, a := 2, b := 3, c := 4, ra := 0, rb := 3, rc := 0, p := 1, ty := 0, rnd := 5 }),
   (0x750A0B0C0D00001E, .vfdot2 { d := 10, a := 11, b := 12, c := 13, ra := 0, rb := 0, rc := 0, p := 0, ty := 3, rnd := 6 })]

def floatWords : List (DWord × Instr) :=

  [(0x600A0B0C00004200, .vfadd { d := 10, a := 11, b := 12, ra := 0, rb := 0, p := 0, ty := 4, rnd := 1, sat := 0, fn := 0, la := 0 }),
   (0x610A0C0E00005000, .vfsub { d := 10, a := 12, b := 14, ra := 0, rb := 0, p := 0, ty := 5, rnd := 0, sat := 0, fn := 0, la := 0 }),
   (0x620A0B0C00006A00, .vfmul { d := 10, a := 11, b := 12, ra := 0, rb := 0, p := 0, ty := 6, rnd := 5, sat := 0, fn := 0, la := 0 }),
   (0x640A0B0C00007000, .vfmin { d := 10, a := 11, b := 12, ra := 0, rb := 0, p := 0, ty := 7, rnd := 0, sat := 0, fn := 0, la := 0 }),
   (0x650A0B0C00004000, .vfmax { d := 10, a := 11, b := 12, ra := 0, rb := 0, p := 0, ty := 4, rnd := 0, sat := 0, fn := 0, la := 0 }),
   (0x6628050600004070, .vfcmp { d := 40, a := 5, b := 6, ra := 0, rb := 0, p := 0, ty := 4, rnd := 0, sat := 0, fn := 7, la := 0 }),
   (0x670A0B0000006000, .vfclass { d := 10, a := 11, b := 0, ra := 0, rb := 0, p := 0, ty := 6, rnd := 0, sat := 0, fn := 0, la := 0 }),
   (0x680A0B0C0000400F, .vfdiv { d := 10, a := 11, b := 12, ra := 0, rb := 0, p := 0, ty := 4, rnd := 0, sat := 0, fn := 0, la := 15 }),
   (0x690A0C0000005001, .vfsqrt { d := 10, a := 12, b := 0, ra := 0, rb := 0, p := 0, ty := 5, rnd := 0, sat := 0, fn := 0, la := 1 }),
   (0x6A0C0D0000004003, .vfrcp { d := 12, a := 13, b := 0, ra := 0, rb := 0, p := 0, ty := 4, rnd := 0, sat := 0, fn := 0, la := 3 }),
   (0x6B0C0D0000004000, .vfrsq { d := 12, a := 13, b := 0, ra := 0, rb := 0, p := 0, ty := 4, rnd := 0, sat := 0, fn := 0, la := 0 }),
   (0x6C0C0D0000006000, .vfexp2 { d := 12, a := 13, b := 0, ra := 0, rb := 0, p := 0, ty := 6, rnd := 0, sat := 0, fn := 0, la := 0 }),
   (0x6D0C0D0000007000, .vflog2 { d := 12, a := 13, b := 0, ra := 0, rb := 0, p := 0, ty := 7, rnd := 0, sat := 0, fn := 0, la := 0 }),
   (0x6E0C0D0000004000, .vfsin { d := 12, a := 13, b := 0, ra := 0, rb := 0, p := 0, ty := 4, rnd := 0, sat := 0, fn := 0, la := 0 }),
   (0x6F0C0D0000004000, .vfcos { d := 12, a := 13, b := 0, ra := 0, rb := 0, p := 0, ty := 4, rnd := 0, sat := 0, fn := 0, la := 0 }),
   (0x700C0D0000004000, .vftanh { d := 12, a := 13, b := 0, ra := 0, rb := 0, p := 0, ty := 4, rnd := 0, sat := 0, fn := 0, la := 0 }),
   (0x710A0C0000000750, .vcvt { d := 10, a := 12, b := 0, ra := 0, rb := 0, p := 0, ty := 0, rnd := 3, sat := 1, fn := 5, la := 0 }),
   (0x720A0B0C00000020, .vpack { d := 10, a := 11, b := 12, ra := 0, rb := 0, p := 0, ty := 0, rnd := 0, sat := 0, fn := 2, la := 0 }),
   (0x730A0B0000000050, .vunpk { d := 10, a := 11, b := 0, ra := 0, rb := 0, p := 0, ty := 0, rnd := 0, sat := 0, fn := 5, la := 0 }),
   (0x74140C0000005010, .vfred { d := 20, a := 12, b := 0, ra := 0, rb := 0, p := 0, ty := 5, rnd := 0, sat := 0, fn := 1, la := 0 })]

def memoryWords : List (DWord × Instr) :=

  [(0x800914076150FFF8, .vld { data := 9, base := 20, off := 7, size := 6, space := 0, hasOff := 1, la := 5, fn := 0, disp := 0xfff8 }),
   (0x8109820002000004, .vst { data := 9, base := 130, off := 0, size := 0, space := 1, hasOff := 0, la := 0, fn := 0, disp := 4 }),
   (0x8210140030000000, .sld { data := 16, base := 20, off := 0, size := 3, space := 0, hasOff := 0, la := 0, fn := 0, disp := 0 }),
   (0x8380140020000004, .sst { data := 128, base := 20, off := 0, size := 2, space := 0, hasOff := 0, la := 0, fn := 0, disp := 4 }),
   (0x840A1400200A0000, .vatom { data := 10, base := 20, off := 0, size := 2, space := 0, hasOff := 0, la := 0, fn := 10, disp := 0 }),
   (0x850C140030090000, .satom { data := 12, base := 20, off := 0, size := 3, space := 0, hasOff := 0, la := 0, fn := 9, disp := 0 }),
   (0x860982002000000F, .fqpush { data := 9, base := 130, off := 0, size := 2, space := 0, hasOff := 0, la := 0, fn := 0, disp := 15 }),
   (0x8709820020000000, .fqpop { data := 9, base := 130, off := 0, size := 2, space := 0, hasOff := 0, la := 0, fn := 0, disp := 0 }),
   (0x8800140000010000, .cpref { data := 0, base := 20, off := 0, size := 0, space := 0, hasOff := 0, la := 0, fn := 1, disp := 0 }),
   (0x8900140301010000, .cflush { data := 0, base := 20, off := 3, size := 0, space := 0, hasOff := 1, la := 0, fn := 1, disp := 0 }),
   (0x8D09140020200000, .fload { data := 9, base := 20, off := 0, size := 2, space := 0, hasOff := 0, la := 2, fn := 0, disp := 0 }),
   (0x8E0A140030000000, .fstore { data := 10, base := 20, off := 0, size := 3, space := 0, hasOff := 0, la := 0, fn := 0, disp := 0 }),
   (0x8F00140020000000, .freset { data := 0, base := 20, off := 0, size := 2, space := 0, hasOff := 0, la := 0, fn := 0, disp := 0 })]

def copyWords : List (DWord × Instr) :=

  [(0x8A05180000000003, .segcfg { a := 5, b := 24, c := 0, d := 0, e := 0, ctl := 3 }),
   (0x8B00140000000000, .tcopy { a := 0, b := 20, c := 0, d := 0, e := 0, ctl := 0 }),
   (0x8C05060000000001, .spmark { a := 5, b := 6, c := 0, d := 0, e := 0, ctl := 1 }),
   (0x90000000000005FF, .fence { a := 0, b := 0, c := 0, d := 0, e := 0, ctl := 0x5ff }),
   (0x9100000014200000, .batch { a := 0, b := 0, c := 0, d := 20, e := 2, ctl := 0 }),
   (0x9214000000100000, .waitt { a := 20, b := 0, c := 0, d := 0, e := 1, ctl := 0 }),
   (0x9214160000300004, .waittMemory { a := 20, b := 22, c := 0, d := 0, e := 3, ctl := 4 }),
   (0x9300000014000000, .tlread { a := 0, b := 0, c := 0, d := 20, e := 0, ctl := 0 }),
   (0x9300160014300000, .tlreadDeferred { a := 0, b := 22, c := 0, d := 20, e := 3, ctl := 0 }),
   (0x9400000000000000, .cgbegin { a := 0, b := 0, c := 0, d := 0, e := 0, ctl := 0 }),
   (0x9500000009000000, .cgcommit { a := 0, b := 0, c := 0, d := 9, e := 0, ctl := 0 }),
   (0x9600000000000000, .cgabort { a := 0, b := 0, c := 0, d := 0, e := 0, ctl := 0 }),
   (0x9714160000000003, .sbset { a := 20, b := 22, c := 0, d := 0, e := 0, ctl := 3 }),
   (0x9814160000000000, .sbclr { a := 20, b := 22, c := 0, d := 0, e := 0, ctl := 0 }),
   (0x991416000000000D, .sbwait { a := 20, b := 22, c := 0, d := 0, e := 0, ctl := 13 }),
   (0x9A14160009000000, .sbtake { a := 20, b := 22, c := 0, d := 9, e := 0, ctl := 0 })]

def matrixWords : List (DWord × Instr) :=

  [(0xA014000000000002, .obres { a := 20, b := 0, c := 0, d := 0, e := 0, ctl := 2 }),
   (0xA100000000000003, .obrel { a := 0, b := 0, c := 0, d := 0, e := 0, ctl := 3 }),
   (0xA205000009000012, .obwr { a := 5, b := 0, c := 0, d := 9, e := 0, ctl := 18 }),
   (0xA305000009000012, .obrd { a := 5, b := 0, c := 0, d := 9, e := 0, ctl := 18 }),
   (0xA400000000000051, .mplane { a := 0, b := 0, c := 0, d := 0, e := 0, ctl := 81 }),
   (0xA505000000000013, .mlds { a := 5, b := 0, c := 0, d := 0, e := 0, ctl := 19 }),
   (0xA600000000000003, .mswap { a := 0, b := 0, c := 0, d := 0, e := 0, ctl := 3 }),
   (0xA7050600000000E2, .mma { a := 5, b := 6, c := 0, d := 0, e := 0, ctl := 226 }),
   (0xA805000000000000, .macz { a := 5, b := 0, c := 0, d := 0, e := 0, ctl := 0 }),
   (0xA9050607000BFAD2, .mshout { a := 5, b := 6, c := 7, d := 0, e := 0, ctl := 0xbfad2 }),
   (0xAA05000009000801, .mshin { a := 5, b := 0, c := 0, d := 9, e := 0, ctl := 0x801 })]

def remoteWords : List (DWord × Instr) :=

  [(0xB014180900000002, .rstore { a := 20, b := 24, c := 9, d := 0, e := 0, ctl := 2 }),
   (0xB114180900300002, .rload { a := 20, b := 24, c := 9, d := 0, e := 3, ctl := 2 }),
   (0xB214180900000010, .rred { a := 20, b := 24, c := 9, d := 0, e := 0, ctl := 16 }),
   (0xB314180900000002, .ratom { a := 20, b := 24, c := 9, d := 0, e := 0, ctl := 2 }),
   (0xB414180000000000, .rsig { a := 20, b := 24, c := 0, d := 0, e := 0, ctl := 0 }),
   (0xB500140000000000, .rxfer { a := 0, b := 20, c := 0, d := 0, e := 0, ctl := 0 }),
   (0xB600140009000000, .trgarm { a := 0, b := 20, c := 0, d := 9, e := 0, ctl := 0 }),
   (0xB705000009000000, .trgcan { a := 5, b := 0, c := 0, d := 9, e := 0, ctl := 0 })]

def systemWords : List (DWord × Instr) :=

  [(0xC0080C0521000005, .apxbegin { a := 8, b := 12, c := 5, d := 33, e := 0, ctl := 5 }),
   (0xC100000000000000, .apxend { a := 0, b := 0, c := 0, d := 0, e := 0, ctl := 0 }),
   (0xC200000500000000, .apxinv { a := 0, b := 0, c := 5, d := 0, e := 0, ctl := 0 }),
   (0xC300000514000000, .apxqry { a := 0, b := 0, c := 5, d := 20, e := 0, ctl := 0 }),
   (0xC405140009000003, .taskq { a := 5, b := 20, c := 0, d := 9, e := 0, ctl := 3 }),
   (0xC514160000000003, .tasksig { a := 20, b := 22, c := 0, d := 0, e := 0, ctl := 3 }),
   (0xD01400000000000E, .sets { a := 20, b := 0, c := 0, d := 0, e := 0, ctl := 14 }),
   (0xD100000000000000, .eret { a := 0, b := 0, c := 0, d := 0, e := 0, ctl := 0 }),
   (0xD205140016000000, .syscall { a := 5, b := 20, c := 0, d := 22, e := 0, ctl := 0 }),
   (0xD314050000007FFF, .tlbinv { a := 20, b := 5, c := 0, d := 0, e := 0, ctl := 0x7fff }),
   (0xD414051618000003, .hashb { a := 20, b := 5, c := 22, d := 24, e := 0, ctl := 3 }),
   (0xD514051600000003, .signq { a := 20, b := 5, c := 22, d := 0, e := 0, ctl := 3 }),
   (0xD61400000000000F, .measxExtend { a := 20, b := 0, c := 0, d := 0, e := 0, ctl := 15 }),
   (0xD61400000000001F, .measxRead { a := 20, b := 0, c := 0, d := 0, e := 0, ctl := 31 })]

/-- Every row of R209 that has an encoding. -/
def words : List (DWord × Instr) :=
  scalarWords ++ scalarWords2 ++ maskWords ++ controlWords ++ vectorWords ++ vectorWords2 ++ floatWords ++ memoryWords ++ copyWords ++
    matrixWords ++ remoteWords ++ systemWords ++ [(0xF8308000AAAA5555, .clauseHeader { count := 3, cls := 0, rgn := 1, z := 0, k := 0xAAAA5555 })]

theorem test_decode_words : ∀ p ∈ words, decode p.1 = .ok p.2 := by decide +kernel
theorem test_encode_words : ∀ p ∈ words, p.2.wellFormed = true ∧ encode p.2 = some p.1 := by decide +kernel

/-! ### A wave that issues one instruction -/

/-- The page at 0x10000, which holds the word, with every permission. -/
def page : Tr := { placeTr 0 with fut := true }

/-- A wave that stands at `i` on a core that may run it: k = 1, 128 vector registers, S[20:21] = 0x10100, S[22:23] = 0x10200. -/
def ready (i : Instr) : State :=
  let core := if [0xD4, 0xD5, 0xD6].contains (Instr.op i) then 160 else 0
  let w := Wave.placed core 0 2 0 1 128 0 0 0
  let s := ({ State.reset with cur := some 1, ids := 2 }.setWave 1 w).withFetchWord 64 ((encode i).getD 0).toNat
  s.updWave 1 fun w => { (((w.setS 20 0x10100).setS 22 0x10200).setS 24 0x10300) with xl := [page], tr := { w.tr with handler := [0xD1, 0xD3].contains (Instr.op i) } }

/-- The wave. -/
def wave (s : State) : Wave := (s.wave 1).getD (Wave.placed 0 0 0 0 1 0 0 0 0)

abbrev issues (s : State) (i : Instr) : Prop := Issues s 1 (wave s) i

/-- Every instruction is issued by some wave: the hypotheses of the statements about its result can be met. -/
theorem test_issues : ∀ p ∈ words.filter (fun p => Instr.op p.2 != 0xF8), issues (ready p.2) p.2 := by decide +kernel

/-! ### Ill-formed words

Each word breaks one field rule of its instruction; beside it stands the lowest bit of the field that the trap names (R197). -/

def bad1 : List (DWord × Nat) :=
  [(0x0001000000000000, 48), (0x0000010000000000, 40), (0x0000000100000000, 32), (0x0000000010000000, 28), (0x0000000001000000, 24),
   (0x0000000000000001, 0), (0x0180058101923456, 48), (0x0106838101923456, 40), (0x0106058401000000, 32), (0x0106058111923456, 28),
   (0x0106058102923456, 24), (0x0106050401000001, 0), (0x0E80058100923456, 48), (0x0E06838100923456, 40), (0x0E06058400000000, 32),
   (0x0E06058110923456, 28), (0x0E06058102923456, 24), (0x0E06050400000001, 0), (0x0780058100923456, 48), (0x0706838100923456, 40),
   (0x0706058400000000, 32), (0x0706058110923456, 28), (0x0706058102923456, 24), (0x0706050400000001, 0), (0x0B80058100923456, 48),
   (0x0B06838100923456, 40), (0x0B06058400000000, 32), (0x0B06058110923456, 28), (0x0B06058102923456, 24), (0x0B06050400000001, 0),
   (0x1006050461000000, 28), (0x1006050454000000, 24), (0x110681040000007F, 40), (0x110605810000007F, 32), (0x110605041000007F, 28),
   (0x110605040100007F, 24), (0x1106050400000080, 7), (0x120A080001000000, 24), (0x120A080102000000, 32), (0x13080300FFFF0001, 40),
   (0x13080201FFFF0001, 32), (0x13800200FFFF0001, 48), (0x1406050402000000, 24), (0x1506050401000000, 24), (0x1606050001000000, 24),
   (0x190A080C01000000, 24), (0x1B0A050402000000, 24), (0x1C0A81005500000E, 40), (0x1C0A08008500000E, 28), (0x1C0A08005800000E, 24),
   (0x1C0A080055000007, 0), (0x1C0A080055000010, 4), (0x1D0A080C45000004, 28), (0x1D0A080C36000004, 24), (0x1D0A080C35000007, 0),
   (0x1D0A080C35000008, 3), (0x1E06080C85000000, 28), (0x1E06080C76000000, 24), (0x1E06080C75000001, 0), (0x1F0A01001000000F, 40)]

def bad2 : List (DWord × Nat) :=
  [(0x1F0A00011000000F, 32), (0x1F0A00001000000C, 28), (0x1F0A00001100000F, 24), (0x1F0A00000000001C, 0), (0x1F0A00000000010C, 8),
   (0x2080618200000000, 48), (0x2009808200000000, 40), (0x2009618100000000, 32), (0x2009618210000000, 28), (0x2009618201000000, 24),
   (0x2009618200000001, 0), (0x2409050100000000, 32), (0x2901080000000000, 48), (0x2A010C0000000000, 48), (0x2B09010000000000, 40),
   (0x280C810000000000, 40), (0x30010000FFFFFFFE, 48), (0x30000100FFFFFFFE, 40), (0x30000001FFFFFFFE, 32), (0x3181000000000003, 48),
   (0x3380000000000003, 48), (0x3680000000000005, 48), (0x3714000000000001, 0), (0x3814800000000001, 40), (0x3900000000000001, 0),
   (0x3A00000000000010, 4), (0x3E05000000000001, 0), (0x3F05010012345678, 40), (0x400A810CE8118100, 40), (0x400A0B813C118100, 32),
   (0x420A0B0C00011000, 16), (0x420A0B0C81001000, 16), (0x420A0B0CA0011000, 16), (0x400A0B0C28114100, 12), (0x400A0B0C28118300, 9),
   (0x400A0B0C28118110, 4), (0x400A0B0C28118101, 0), (0x430A0B0C00001100, 8), (0x480A0C0E00008000, 12), (0x510A0501E0000000, 32),
   (0x510A0500E4000000, 26), (0x5380050600000020, 48), (0x5328050600008020, 12), (0x5328050600000060, 4), (0x550A0C0000001000, 12),
   (0x570A010000000030, 40), (0x570A000000000040, 4), (0x5A0A000000000020, 4), (0x5814090000002020, 12), (0x5814090000000060, 4),
   (0x590A0C0000002060, 4), (0x5B0A0B00E000A030, 29), (0x5B0A0B0000000030, 12), (0x5B0A0B000000A040, 4), (0x440A0C0E10000018, 3),
   (0x440A0C0E10000011, 0), (0x4B04050607000008, 3), (0x4F04050107000000, 32), (0x4F04050007040000, 18), (0x5404050680000000, 24)]

def bad3 : List (DWord × Nat) :=
  [(0x5404050661008000, 15), (0x5404050661000008, 3), (0x5608030089ABCDEF, 40), (0x5608010189ABCDEF, 32), (0x600A0B0C00000200, 12),
   (0x600A0B0C00004E00, 9), (0x640A0B0C00007200, 9), (0x6628050600006070, 12), (0x6628050600004080, 4), (0x680A0B0C0000410F, 8),
   (0x690A0C0100005001, 32), (0x6A0C0D0000005003, 12), (0x710A0C0000006750, 12), (0x710A0C0000000790, 4), (0x720A0B0C00000030, 4),
   (0x730A0B0000000060, 4), (0x74140C0000005030, 4), (0x74140C0000005210, 9), (0x74140C0000005A00, 9), (0x630A0203040C0027, 0),
   (0x750A0B0C0D00000E, 3), (0x800980076150FFF8, 40), (0x800914077150FFF8, 28), (0x800914076550FFF8, 25), (0x800914076151FFF8, 16),
   (0x8109820102000004, 32), (0x8109820002100004, 20), (0x8280140030000000, 48), (0x8210140031000000, 24), (0x8381140020000004, 48),
   (0x840A1400100A0000, 28), (0x840A1400200B0000, 16), (0x840A1400300A0000, 16), (0x850C140030190000, 20), (0x860914002000000F, 40),
   (0x860982003000000F, 28), (0x860982002200000F, 25), (0x8609820020000010, 4), (0x8801140000010000, 48), (0x8800140010010000, 28),
   (0x8800140000020000, 16), (0x8800140002010000, 25), (0x8D09140010200000, 28), (0x8D09140022200000, 25), (0x8E0A140030100000, 20),
   (0x8F01140020000000, 48), (0x8A05180000000001, 0), (0x8A05180000000007, 2), (0x8A05800000000003, 40), (0x8A05180000000002, 40),
   (0x8B00140000000001, 0), (0x8B00800000000000, 40), (0x8C05060000000002, 1), (0x8C05060000100001, 20), (0x9000000000000600, 8),
   (0x9000000000000800, 11), (0x9100000014300000, 20), (0x9100000080200000, 24), (0x9214000000400000, 20), (0x9214010000100000, 40)]

def bad4 : List (DWord × Nat) :=
  [(0x9214160000300006, 0), (0x9214160000300008, 3), (0x9301000014000000, 48), (0x9300800014300000, 40), (0x9401000000000000, 48),
   (0x9500000080000000, 24), (0x9714160000000006, 0), (0x9914160000000010, 4), (0x9A14160080000000, 24), (0xA080000000000002, 48),
   (0xA014000000000010, 4), (0xA101000000000003, 48), (0xA205000009001000, 12), (0xA400000000000018, 2), (0xA400000000000080, 7),
   (0xA505000000000040, 6), (0xA600000000000004, 2), (0xA705060000000100, 8), (0xA7050601000000E2, 32), (0xA805000000000001, 0),
   (0xA905060700000206, 0), (0xA905060700000270, 4), (0xA905060700000300, 8), (0xA90506070007FA00, 11), (0xA9050607010BFAD2, 24),
   (0xAA05000009000081, 7), (0xAA05000009001001, 12), (0xAA05000109000801, 32), (0xB080180900000002, 48), (0xB014180900000001, 0),
   (0xB01418090000000A, 3), (0xB114180900300005, 0), (0xB214180900000016, 0), (0xB214180900000110, 8), (0xB314180900000004, 0),
   (0xB31418090000000A, 3), (0xB3141809000000B2, 4), (0xB414180100000000, 32), (0xB500800000000000, 40), (0xB600140080000000, 24),
   (0xB705010009000000, 40), (0xC0080C8121000005, 32), (0xC0080C0580000005, 31), (0xC0080C0521100005, 20), (0xC101000000000000, 48),
   (0xC200000500000001, 32), (0xC200000500000002, 1), (0xC300000580000000, 24), (0xC405140009000006, 0), (0xC514160000000008, 3),
   (0xD01400000000001C, 0), (0xD014000000000100, 8), (0xD101000000000000, 48), (0xD205140080000000, 24), (0xD314050000008000, 15),
   (0xD414051618000004, 2), (0xD514051601000003, 24), (0xD514051600000004, 2), (0xD614000000000020, 5), (0xD68000000000001F, 48)]

def bad5 : List (DWord × Nat) :=
  [(0xF830000100000000, 32)]

/-- The lowest bit at which a decoded word breaks its format. -/
def defect (w : DWord) : Option Nat := match decode w with
  | .ok i => lowestBad i.must
  | .error _ => none

theorem test_refused_1 : ∀ p ∈ bad1, defect p.1 = some p.2 ∧ (match decode p.1 with | .ok i => i.wellFormed | _ => true) = false := by decide +kernel
theorem test_refused_2 : ∀ p ∈ bad2, defect p.1 = some p.2 ∧ (match decode p.1 with | .ok i => i.wellFormed | _ => true) = false := by decide +kernel
theorem test_refused_3 : ∀ p ∈ bad3, defect p.1 = some p.2 ∧ (match decode p.1 with | .ok i => i.wellFormed | _ => true) = false := by decide +kernel
theorem test_refused_4 : ∀ p ∈ bad4, defect p.1 = some p.2 ∧ (match decode p.1 with | .ok i => i.wellFormed | _ => true) = false := by decide +kernel
theorem test_refused_5 : ∀ p ∈ bad5, defect p.1 = some p.2 ∧ (match decode p.1 with | .ok i => i.wellFormed | _ => true) = false := by decide +kernel

/-! ### Hypotheses met

For each statement, states and operands that meet its hypotheses, clause by clause. Where a statement asks only that an instruction
issues, `test_issues` is its witness. -/

/-- The state in which `i` is ready, with the wave, its cohort and the rest changed. -/
def with_ (i : Instr) (f : Wave → Wave) (g : Cohort → Cohort) (h : State → State) : State :=
  h (((ready i).updWave 1 f).updCohort 2 g)

/-- A wave at a NOP. -/
def idle : State := ready (.nop { d := 0, a := 0, b := 0, fn := 0, ty := 0, imm := 0 })

/-- A physical address that `Reaches` names, from a translation that succeeds. -/
theorem reaches_of {s : State} {w : Wave} {va access e pa : Nat} {io : Bool} (h : va % e = 0 ∧ canonical va = true ∧
    (match waveXlate s w va access io with | .ok p _ => p == pa | _ => false) = true) : Reaches s w va access io e pa := by
  obtain ⟨h1, h2, h3⟩ := h
  refine ⟨h1, h2, ?_⟩
  split at h3
  · rename_i t hx; exact ⟨t, by rw [hx, beq_iff_eq.mp h3]⟩
  · cases h3

theorem headerAt_of {s : State} {w : Wave} {t : DWord} (h : t.toNat % 8 = 0 ∧ canonical t.toNat = true ∧
    (match waveXlate s w t.toNat 3 false with | .ok p _ => s.byte (p + 7) == 0xF8 | _ => false) = true) : HeaderAt s w t := by
  obtain ⟨h1, h2, h3⟩ := h
  refine ⟨h1, h2, ?_⟩
  split at h3
  · rename_i p r hx; rw [hx]; exact beq_iff_eq.mp h3
  · cases h3

/-- The translation of address va, in the placed page. -/
def pa (va : Nat) : Nat := placePa + (va - 0x10000)

/-! #### Special registers, transfers, ends, barriers -/

theorem test_meets_SpecialRegisterRead :
    let i := Instr.gets { d := 12, a := 0, b := 0, fn := 0, ty := 0, imm := 14 }
    let j := Instr.gets { d := 10, a := 0, b := 0, fn := 15, ty := 0, imm := 16 }
    issues (ready i) i ∧ issues (ready j) j := by decide +kernel

/-- Transfers with targets in the placed page, each target a clause header. -/
def transfers : List (Instr × DWord) :=
  [(.bra { a := 0, b := 0, z := 0, off := 3 }, 0x10018), (.brz { a := 5, b := 0, z := 0, off := 3 }, 0x10018),
   (.brnz { a := 5, b := 0, z := 0, off := 0x1FFF }, 0x1FFF8), (.bmz { a := 96, b := 0, z := 0, off := 3 }, 0x10018),
   (.bmnz { a := 96, b := 0, z := 0, off := 3 }, 0x10018), (.bmall { a := 96, b := 0, z := 0, off := 3 }, 0x10018),
   (.call { a := 30, b := 0, z := 0, off := 3 }, 0x10018), (.ret { a := 20, b := 0, z := 0, off := 0 }, 0x10100),
   (.jmpi { a := 20, b := 30, z := 0, off := 0xFFFFFFFF }, 0x100F8)]

def headers (s : State) : State := [0x10018, 0x1FFF8, 0x10100, 0x100F8].foldl (fun s a => s.store (pa a + 7) 1 0xF8) s

theorem test_meets_Transfers : ∀ p ∈ transfers,
    issues (with_ p.1 id id headers) p.1 ∧ HeaderAt (with_ p.1 id id headers) (wave (with_ p.1 id id headers)) p.2 := by
  intro p hp
  have h : ∀ p ∈ transfers, let s := with_ p.1 id id headers
    issues s p.1 ∧ p.2.toNat % 8 = 0 ∧ canonical p.2.toNat = true ∧
      (match waveXlate s (wave s) p.2.toNat 3 false with | .ok q _ => s.byte (q + 7) == 0xF8 | _ => false) = true := by decide +kernel
  exact ⟨(h p hp).1, headerAt_of (h p hp).2⟩

theorem test_meets_Transfers_traps :
    let i := Instr.ret { a := 20, b := 0, z := 0, off := 0 }
    let s := with_ i (fun w => w.setS 20 0x10004) id id
    let far := with_ i (fun w => w.setS64 20 (BitVec.ofNat 64 (2 ^ 60))) id id
    let t := ready i
    (issues s i ∧ ((wave s).src64 20).toNat % 8 ≠ 0) ∧
    (issues far i ∧ ((wave far).src64 20).toNat % 8 = 0 ∧ canonical ((wave far).src64 20).toNat = false) ∧
    issues t i ∧ ((wave t).src64 20).toNat % 8 = 0 ∧ canonical ((wave t).src64 20).toNat = true ∧
      (∃ p r, waveXlate t (wave t) ((wave t).src64 20).toNat 3 false = .ok p r ∧ t.byte (p + 7) ≠ 0xF8) := by
  refine ⟨by decide +kernel, by decide +kernel, by decide +kernel, by decide +kernel, by decide +kernel, pa 0x10100, page, by decide +kernel⟩

theorem test_meets_ExitYieldNap :
    let i := Instr.exit { a := 0, b := 0, z := 0, off := 0 }
    let none_ := with_ i (fun w => w.setS 96 0) id id
    let some_ := with_ i (fun w => w.setS 96 0x80000000) id id
    let all := ready i
    (issues none_ i ∧ (wave none_).anyExec = false) ∧
    (issues some_ i ∧ (wave some_).anyExec = true ∧ (wave some_).liveWord 0 &&& ~~~((wave some_).execWord 0) ≠ 0) ∧
    (issues all i ∧ (wave all).anyExec = true ∧ ∀ j, j < (wave all).k → (wave all).liveWord j &&& ~~~((wave all).execWord j) = 0) := by
  decide +kernel

theorem test_meets_Barriers :
    let f : CF := { a := 0, b := 0, z := 0, off := 15 }
    let two := fun (c : Cohort) => { c with nwaves := 2, waves := [1, 9] }
    let there := fun (c : Cohort) => { two c with barriers := [(15, { phase := 3, arrived := [9] })] }
    ∀ p ∈ [(Instr.bara f, false), (.bara f, true), (.bar f, true), (.bar f, false), (.barw f, false)],
      let i := p.1
      let s := with_ i id (if p.2 then there else two) id
      issues s i ∧ (wave s).prog.stage = 0 ∧ (wave s).late.any (·.reads) = false ∧ s.drained (wave s).core 1 = true ∧
      s.marked 1 (wave s).cohort = true ∧ (s.cohort (wave s).cohort).any (fun c => !(c.barrier 15).arrived.contains 1 &&
        (decide (c.nwaves ≤ (c.barrier 15).arrived.length + 1 + (c.ended.filter fun v => v != 1 && !(c.barrier 15).arrived.contains v).length)) == p.2) = true := by
  decide +kernel

/-- A wave that has arrived at a barrier and waits there. -/
theorem test_meets_Barriers_waits :
    let f : CF := { a := 0, b := 0, z := 0, off := 15 }
    ∀ i ∈ [Instr.bar f, .bara f, .barw f],
      let s := with_ i (fun w => { w with prog := { w.prog with stage := if i = .bar f then 1 else 0, x := 3 } })
        (fun c => { c with nwaves := 2, waves := [1, 9], barriers := [(15, { phase := 3, arrived := [1] })] }) id
      issues s i ∧ (s.cohort (wave s).cohort).any (fun c => (c.barrier 15).arrived.contains 1 && (c.barrier 15).phase == 3) = true ∧ (wave s).prog.x = 3 ∧
      ((wave s).prog.stage = 1 ↔ i = .bar f) := by decide +kernel

/-! #### Values and memory -/

theorem test_meets_FloatValues :
    fpF32 ∈ [fpF64, fpF32, fpF16, fpBf16] ∧ ((fpDecode fpF32 0x7F800001).isNan || (fpDecode fpF32 0).isNan) = true ∧
    ((fpDecode fpF32 0).isNan || (fpDecode fpF32 0xFFC00000).isNan) = true ∧
    (fpDecode fpF32 0xFF800000).isNan = false ∧ (fpDecode fpF16 1).isNan = false := by decide +kernel

/-- A memory instruction at S[20:21] + 0x10, on data register 12. -/
def mem (size space la fn : Nat) : MF :=
  { data := 12, base := 20, off := 0, size := BitVec.ofNat 4 size, space := BitVec.ofNat 3 space, hasOff := 0, la := BitVec.ofNat 4 la,
    fn := BitVec.ofNat 4 fn, disp := 0x10 }

/-- Every active lane reaches the byte of the placed page that its address names. -/
def lanesReach (s : State) (f : MF) (access : Nat) : Bool :=
  let w := wave s
  w.activeLanes.all fun i => laneAddr w f i % sizeBytes f.size.toNat == 0 && canonical (laneAddr w f i) &&
    match waveXlate s w (laneAddr w f i) access false with | .ok p _ => p == pa (laneAddr w f i) | _ => false

theorem lanesReach_ok {s : State} {f : MF} {access : Nat} (h : lanesReach s f access = true) :
    ∀ i ∈ (wave s).activeLanes, Reaches s (wave s) (laneAddr (wave s) f i) access false (sizeBytes f.size.toNat) (pa (laneAddr (wave s) f i)) := by
  intro i hi
  have := List.all_eq_true.mp h i hi
  simp only [Bool.and_eq_true, beq_iff_eq] at this
  exact reaches_of ⟨this.1.1, this.1.2, this.2⟩

/-- The one access of a scalar memory instruction reaches its byte. -/
theorem scalarReach_ok {s : State} {f : MF} {access : Nat} (h : scalarAddr (wave s) f % sizeBytes f.size.toNat = 0 ∧
    canonical (scalarAddr (wave s) f) = true ∧
    (match waveXlate s (wave s) (scalarAddr (wave s) f) access false with | .ok p _ => p == pa (scalarAddr (wave s) f) | _ => false) = true) :
    Reaches s (wave s) (scalarAddr (wave s) f) access false (sizeBytes f.size.toNat) (pa (scalarAddr (wave s) f)) := reaches_of h

theorem test_meets_LoadsPend :
    let i := Instr.vld (mem 6 0 15 0)
    let j := Instr.sld (mem 3 0 0 0)
    let none_ := with_ i (fun w => w.setS 96 0) id id
    let s := ready i
    let t := ready j
    (∀ x ∈ (wave s).activeLanes, Reaches s (wave s) (laneAddr (wave s) (mem 6 0 15 0) x) 0 false 2 (pa (laneAddr (wave s) (mem 6 0 15 0) x))) ∧
    (issues s i ∧ (wave s).joinHolds = false ∧ (wave s).group = none ∧ (wave s).activeLanes ≠ [] ∧
      ∀ x ∈ (wave s).activeLanes, s.poisoned (pa (laneAddr (wave s) (mem 6 0 15 0) x)) 2 = false ∧ s.atLink (pa (laneAddr (wave s) (mem 6 0 15 0) x)) = false) ∧
    (issues none_ i ∧ (wave none_).activeLanes = []) ∧
    Reaches t (wave t) (scalarAddr (wave t) (mem 3 0 0 0)) 0 false 8 (pa (scalarAddr (wave t) (mem 3 0 0 0))) ∧
    (issues t j ∧ scalarIo t (wave t) 3 (scalarLane (wave t) (mem 3 0 0 0)) = false ∧ (wave t).anyExec = true ∧
      t.poisoned (pa (scalarAddr (wave t) (mem 3 0 0 0))) 8 = false ∧ t.atLink (pa (scalarAddr (wave t) (mem 3 0 0 0))) = false) := by
  refine ⟨lanesReach_ok (f := mem 6 0 15 0) (by decide +kernel), by decide +kernel, by decide +kernel, scalarReach_ok (f := mem 3 0 0 0) (by decide +kernel), by decide +kernel⟩

/-- A wave whose S[20:21] is 0x100 and whose cohort has 64 KiB of scratchpad, all FULL, and FIFO 15 with one of two entries. -/
def scratch (i : Instr) (f : Wave → Wave) : State :=
  with_ i (fun w => f (w.setS 20 0x100)) (fun c => { c with scratchSize := 65536, fifos := [{ num := 15, seg := 0, cap := 2, depth := 2, entries := [[7]] }] }) id

/-- The accesses of some lanes lie in the wave's scratchpad, in lines that can be read. -/
def inScratch (s : State) (e : Nat) (addr : Nat → Nat) (lanes : List Nat) : Bool :=
  match s.cohort (wave s).cohort with
  | some c => !lanes.isEmpty && (c.marking.all fun m => m.wave != 1) && lanes.all fun i => addr i % e == 0 && c.scratchOk (addr i) e && !c.empty.contains (addr i / 128) &&
      decide (mapFind c.failed (addr i / 128) = none) && !c.scratchSpoiled (addr i) e
  | none => false

theorem inScratch_ok {s : State} {e : Nat} {addr : Nat → Nat} {lanes : List Nat} (h : inScratch s e addr lanes = true) :
    lanes ≠ [] ∧ ∃ c, s.cohort (wave s).cohort = some c ∧ c.readable 1 e addr lanes := by
  unfold inScratch at h
  split at h
  · rename_i c hc
    simp only [Bool.and_eq_true, List.all_eq_true, Bool.not_eq_true', beq_iff_eq, decide_eq_true_eq, bne_iff_ne] at h
    refine ⟨by intro e; simp [e] at h, c, hc, h.1.2, fun i hi => ?_⟩
    obtain ⟨⟨⟨⟨h1, h2⟩, h3⟩, h4⟩, h5⟩ := h.2 i hi
    exact ⟨h1, h2, h3, h4, h5⟩
  · cases h

/-- An instruction issues, nothing that its wave read is outstanding, no group is open and lanes are active. -/
abbrev plain (s : State) (i : Instr) : Prop :=
  issues s i ∧ (wave s).joinHolds = false ∧ (wave s).group = none ∧ (wave s).late.any (·.reads) = false ∧ (wave s).anyExec = true

theorem test_meets_Scratchpad :
    let s := fun (i : Instr) => scratch i id
    (let t := s (.vld (mem 2 1 3 0)); plain t (.vld (mem 2 1 3 0)) ∧ inScratch t 4 (laneAddr (wave t) (mem 2 1 3 0)) (wave t).activeLanes = true) ∧
    (let t := s (.sld (mem 3 1 0 0)); plain t (.sld (mem 3 1 0 0)) ∧ inScratch t 8 (fun _ => scalarAddr (wave t) (mem 3 1 0 0)) [0] = true) ∧
    (let t := s (.vst (mem 0 1 0 0)); plain t (.vst (mem 0 1 0 0)) ∧ inScratch t 1 (laneAddr (wave t) (mem 0 1 0 0)) (wave t).activeLanes = true) ∧
    (let t := s (.sst (mem 1 1 0 0)); plain t (.sst (mem 1 1 0 0)) ∧ inScratch t 2 (fun _ => scalarAddr (wave t) (mem 1 1 0 0)) [0] = true) := by
  decide +kernel

/-- A late result: register 40 is to be 7 in lane 0. -/
def aLate : Late :=
  { seq := 1, kind := .value, vec := true, reg := 40, nregs := 1, size := 2, window := 3, lanes := [], vals := [(0, 7)], asid := 0, pages := [], refused := [],
    refusals := 0, until_ := 0 }

/-- A scratch load that waits to be read: lane 3, the word at 0x104 of the scratchpad. -/
theorem test_meets_Scratchpad_landing :
    let l : Late := { aLate with kind := .scratch, reg := 9, vals := [], lanes := [{ lane := 3, addr := 0x104, own := [], nocache := false }] }
    let s := scratch (.nop { d := 0, a := 0, b := 0, fn := 0, ty := 0, imm := 0 }) fun w => { w with wait := .late, late := [l] }
    s.wave 1 = some (wave s) ∧ (wave s).wait = .late ∧ (wave s).late = [l] ∧ l.vals = [] ∧ l.lanes ≠ [] ∧ (wave s).keeper = none ∧ (wave s).joinHolds = false ∧
      inScratch s (sizeBytes l.size) (fun i => i) (l.lanes.map (·.addr)) = true := by decide +kernel

theorem test_meets_Scratchpad_fifos :
    let f : MF := { data := 12, base := 130, off := 0, size := 2, space := 0, hasOff := 0, la := 0, fn := 0, disp := 15 }
    let ok := fun (i : Instr) =>
      let s := scratch i id
      issues s i ∧ (wave s).joinHolds = false ∧ (wave s).group = none ∧ (wave s).late.any (·.reads) = false ∧
      ((s.cohort (wave s).cohort).bind (·.fifo 15)) = some { num := 15, seg := 0, cap := 2, depth := 2, entries := [[7]] }
    ok (.fqpush f) ∧ ok (.fqpop f) := by decide +kernel

/-- Core 0's store buffer holds one entry of wave 1: byte 15 of the sector at 0x10100. -/
def buffered (s : State) : State :=
  s.updCore 0 fun c => { c with sb := [{ id := 40, wave := 1, sector := pa 0x10100 / 16, bytes := [(15, 0xAB)], merged := 0, afterSeq := 0, asid := 0, page := 1, world := 0, cow := false }] }

theorem test_meets_Stores :
    let i := Instr.vst (mem 3 0 0 0)
    let j := Instr.sst (mem 0 0 0 0)
    let s := ready i
    let t := ready j
    (issues s i ∧ (wave s).joinHolds = false ∧ (wave s).group = none ∧ (wave s).prog = Progress.none ∧
      (s.core 0).sb.length + (wave s).activeLanes.length ≤ sbSize 0 ∧ ∀ x ∈ (wave s).activeLanes, s.atLink (pa (laneAddr (wave s) (mem 3 0 0 0) x)) = false) ∧
    (∀ x ∈ (wave s).activeLanes, Reaches s (wave s) (laneAddr (wave s) (mem 3 0 0 0) x) 1 false 8 (pa (laneAddr (wave s) (mem 3 0 0 0) x))) ∧
    (issues t j ∧ scalarIo t (wave t) 0 (scalarLane (wave t) (mem 0 0 0 0)) = false ∧ (t.core 0).sb.length + 1 ≤ sbSize 0 ∧
      (wave t).anyExec = true ∧ t.atLink (pa (scalarAddr (wave t) (mem 0 0 0 0))) = false) ∧
    Reaches t (wave t) (scalarAddr (wave t) (mem 0 0 0 0)) 1 false 1 (pa (scalarAddr (wave t) (mem 0 0 0 0))) := by
  refine ⟨by decide +kernel, lanesReach_ok (f := mem 3 0 0 0) (by decide +kernel), by decide +kernel, scalarReach_ok (f := mem 0 0 0 0) (by decide +kernel)⟩

theorem test_meets_Stores_drain :
    let s := buffered (ready (.nop { d := 0, a := 0, b := 0, fn := 0, ty := 0, imm := 0 }))
    ∃ x ∈ (s.core 0).sb, (s.core 0).sb.find? (fun y => y.id == x.id) = some x ∧ s.canDrain x = true ∧ s.still = true ∧
      x.bytes.Pairwise (fun a b => a.1 < b.1) ∧ (∀ b ∈ x.bytes, b.1 < 16) ∧ (wave s).wait ≠ .draining ∧
      s.admits (.world x.world) (x.sector * 16) = true := by decide +kernel

theorem test_meets_Stores_prefetch :
    let f : MF := { data := 0, base := 20, off := 0, size := 0, space := 0, hasOff := 0, la := 0, fn := 1, disp := 0x3F }
    let s := ready (.cpref f)
    let t := ready (.cflush f)
    (issues s (.cpref f) ∧ (wave s).joinHolds = false ∧ ∀ x ∈ (wave s).activeLanes, waveXlate s (wave s) (laneAddr (wave s) f x) 0 false ≠ .miss) ∧
    (issues t (.cflush f) ∧ (wave t).joinHolds = false ∧ ∀ x ∈ (t.core 0).sb, x.wave ≠ 1) ∧
    ∀ x ∈ (wave t).activeLanes, Reaches t (wave t) (laneAddr (wave t) f x) 1 false 1 (pa (laneAddr (wave t) f x)) := by
  refine ⟨by decide +kernel, by decide +kernel, lanesReach_ok (by decide +kernel)⟩

theorem test_meets_Atomics :
    let i := Instr.vatom (mem 2 0 0 10)
    let j := Instr.satom (mem 3 0 0 9)
    let s := ready i
    let t := ready j
    let x := scratch (.vatom (mem 2 1 0 0)) id
    let y := scratch (.satom (mem 2 1 0 9)) id
    (issues s i ∧ (wave s).joinHolds = false ∧ (wave s).group = none ∧ (wave s).late.any (·.reads) = false ∧ s.still = true ∧ (s.core 0).sb = [] ∧
      ∀ l ∈ (wave s).activeLanes, s.poisoned (pa (laneAddr (wave s) (mem 2 0 0 10) l)) 4 = false) ∧
    (∀ l ∈ (wave s).activeLanes, Reaches s (wave s) (laneAddr (wave s) (mem 2 0 0 10) l) 2 false 4 (pa (laneAddr (wave s) (mem 2 0 0 10) l))) ∧
    (issues t j ∧ (wave t).anyExec = true ∧ t.still = true ∧ (t.core 0).sb = [] ∧ t.poisoned (pa (scalarAddr (wave t) (mem 3 0 0 9))) 8 = false) ∧
    Reaches t (wave t) (scalarAddr (wave t) (mem 3 0 0 9)) 2 false 8 (pa (scalarAddr (wave t) (mem 3 0 0 9))) ∧
    (plain x (.vatom (mem 2 1 0 0)) ∧ inScratch x 4 (laneAddr (wave x) (mem 2 1 0 0)) (wave x).activeLanes = true) ∧
    (plain y (.satom (mem 2 1 0 9)) ∧ inScratch y 4 (fun _ => scalarAddr (wave y) (mem 2 1 0 9)) [0] = true) := by
  refine ⟨by decide +kernel, lanesReach_ok (f := mem 2 0 0 10) (by decide +kernel), by decide +kernel, scalarReach_ok (f := mem 3 0 0 9) (by decide +kernel),
    by decide +kernel, by decide +kernel⟩

theorem test_meets_Futures :
    let f := mem 2 0 15 0
    let g := mem 3 0 0 0
    let r : MF := { mem 3 0 0 0 with data := 0 }
    let one := fun (w : Wave) => w.setS 96 0x80000000
    let s := ready (.fload f)
    let t := with_ (.fstore g) one id id
    let u := ready (.freset r)
    (issues s (.fload f) ∧ (wave s).joinHolds = false ∧ (wave s).group = none ∧ (s.core 0).sb = [] ∧ s.snap.state ≠ 1 ∧
      (∀ l ∈ (wave s).late, l.seq ≠ (wave s).lateSeq + 1) ∧ (wave s).activeLanes ≠ [] ∧
      ∀ l ∈ (wave s).activeLanes, s.poisoned (pa (laneAddr (wave s) f l)) 4 = false ∧ s.wordEmpty (pa (laneAddr (wave s) f l)) = false) ∧
    (∀ l ∈ (wave s).activeLanes, Reaches s (wave s) (laneAddr (wave s) f l) 4 false 4 (pa (laneAddr (wave s) f l))) ∧
    (issues t (.fstore g) ∧ t.still = true ∧ (wave t).late.any (·.reads) = false ∧ (wave t).activeLanes ≠ [] ∧
      ∀ l ∈ (wave t).activeLanes, ∀ k ∈ (wave t).activeLanes, pa (laneAddr (wave t) g l) / 8 = pa (laneAddr (wave t) g k) / 8 → l = k) ∧
    (∀ l ∈ (wave t).activeLanes, Reaches t (wave t) (laneAddr (wave t) g l) 5 false 8 (pa (laneAddr (wave t) g l))) ∧
    (∀ x ∈ [s, t, u], (wave x).joinHolds = false ∧ (wave x).group = none ∧ (x.core 0).sb = [] ∧ x.unlocked = true ∧ x.snap.state ≠ 1 ∧
      (wave x).late.any (·.reads) = false) ∧
    (issues u (.freset r) ∧ u.snap.marks = [] ∧ (wave u).late.any (·.reads) = false) ∧
    (∀ l ∈ (wave u).activeLanes, Reaches u (wave u) (laneAddr (wave u) r l) 5 false 8 (pa (laneAddr (wave u) r l))) := by
  refine ⟨by decide +kernel, lanesReach_ok (f := mem 2 0 15 0) (by decide +kernel), by decide +kernel, lanesReach_ok (f := mem 3 0 0 0) (by decide +kernel),
    by decide +kernel, by decide +kernel, lanesReach_ok (f := { mem 3 0 0 0 with data := 0 }) (by decide +kernel)⟩

/-! #### Encoding, the step, traps -/

theorem test_meets_DecodingIsExact : (∀ p ∈ words, decode p.1 = .ok p.2) ∧
    ∀ op ∈ [0x2C, 0x2F, 0x5D, 0x5F, 0x76, 0x7F, 0x9B, 0x9F, 0xAB, 0xAF, 0xB8, 0xBF, 0xC6, 0xCF, 0xD7, 0xF7, 0xF9, 0xFF],
      (match decode (BitVec.ofNat 64 (op * 2 ^ 56)) with | .error (.unassigned n) => n == op | _ => false) = true :=
  ⟨test_decode_words, by decide +kernel⟩

/-- The step of a core whose wave is ready: the word at its PC is fetched, and is an instruction in a clause, a header or no instruction. -/
def turned (word : Nat) (inside : Bool) : State :=
  let s := (State.reset.withFetchWord 64 word).updWave 1 fun w => { w with clause := if inside then { inside := true, header := 0xFFF8, word := 0xF800000000000000, left := 1 } else Clause.boundary }
  { s with agenda := [.core 0] }

/-- Core 0 selects wave 1, which passes what comes before a fetch and fetches `word`. -/
def fetches (word : Nat) (inside : Bool) : Bool :=
  let s := turned word inside
  s.power.powered && !s.power.stopped && (s.core 0).lastIssue != some s.clock &&
  match ({ s with agenda := [] } : State).selectWave 0 with
  | some (u, t) => u == 1 && (wave t).clause.inside == inside && t.wave 1 == some (wave t) && (issueGate t 1 (wave t) (!inside)).isNone &&
      !t.poisoned placePa 8 && t.read placePa 8 == word && (match waveXlate t (wave t) (wave t).pc.toNat 3 false with | .ok p _ => p == placePa | _ => false)
  | none => false

theorem test_meets_StepRunsDecoded :
    (∀ w ∈ [0x0106058101923456, 0xF830800000000000, 0xFFFFFFFFFFFFFFFF], fetches w true = true ∧ fetches w false = true) ∧
    encode .thermalTrip = none ∧ State.reset.power.powered = true := by
  decide +kernel

theorem test_meets_MemoryStaysCanonical :
    let s := turned 0x0106058101923456 true
    memWf s.mem = true ∧ s.mem ≠ [] ∧ (match step s with | .next t => memWf t.mem | _ => false) = true := by decide +kernel

/-- A check that fails in each of the steps of R197, and what it gives. -/
theorem test_meets_ChecksTrap :
    let bad := fun (i : Instr) (f : Wave → Wave) (code : Nat) =>
      let s := with_ i f id id
      s.cur = some 1 ∧ (wave s).cohort = 2 ∧ issueGate s 1 (wave s) false = none ∧ (encode i).isSome = true ∧ (issueCheck s (wave s) i).map (·.1) = some code
    bad (.obrel { a := 0, b := 0, c := 0, d := 0, e := 0, ctl := 0 }) (fun w => { w with clause := { w.clause with word := 0xF800000000000000 } }) trapIllegalClause ∧
    bad (.bra { a := 0, b := 0, z := 0, off := 1 }) (fun w => { w with clause := { w.clause with left := 2 } }) trapIllegalClause ∧
    bad (.eret { a := 0, b := 0, c := 0, d := 0, e := 0, ctl := 0 }) (fun w => { w with tr := { w.tr with handler := false } }) trapPrivileged ∧
    bad (.sadd { d := 6, a := 131, b := 4, fn := 0, ty := 0, imm := 0 }) id trapIllegalOperand ∧
    bad (.sadd64 { d := 11, a := 8, b := 4, fn := 0, ty := 0, imm := 0 }) id trapIllegalRegister ∧
    bad (.sadd { d := 6, a := 5, b := 4, fn := 0, ty := 0, imm := 0 })
      (fun w => { w with late := [{ seq := 1, kind := .value, vec := false, reg := 5, nregs := 1, size := 2, window := 3, lanes := [], vals := [(0, 7)], asid := 0, pages := [], refused := [], refusals := 0, until_ := 0 }] }) trapLookahead ∧
    bad (.sadd { d := 6, a := 5, b := 4, fn := 0, ty := 0, imm := 0 }) (fun w => { w with epend := [{ vec := false, reg := 4, timeline := 1, batch := 1 }] }) trapEngineHazard ∧
    bad (.obrel { a := 0, b := 0, c := 0, d := 0, e := 0, ctl := 0 }) (fun w => w.setS 96 1) trapConvergence ∧
    bad (.sadd { d := 6, a := 5, b := 4, fn := 0, ty := 0, imm := 0 }) (fun w => { w with regs := w.regs.spoil false 4 }) trapPoison := by decide +kernel

theorem test_meets_ChecksTrap_privilege :
    let f : EF := { a := 20, b := 22, c := 22, d := 24, e := 0, ctl := 10 }
    let w := wave (ready (.sets f))
    let three := { w with clause := { w.clause with word := 0xF803000000000000 } }
    fld three.clause.word.toNat 51 48 = 3 ∧ isTrustCore three.core = false ∧ three.tr.handler = false ∧ three.clause.left = 1 ∧
      ∀ n ∈ [23, 24, 25, 26, 9, 10, 22, 27], ({ f with ctl := BitVec.ofNat 20 n } : EF).ctl.toNat % 256 = n := by decide +kernel

/-- A wave with a handler at 0x11000. -/
def handled (w : Wave) : Wave := { w with tr := { w.tr with tba := 0x11000 } }

theorem test_meets_TrapEntry :
    let i := Instr.trap { a := 5, b := 0, z := 0, off := 0x80000000 }
    let s := with_ i handled id id
    let t := with_ i (fun w => { w with late := [aLate] }) id id
    let h := with_ i (fun w => { handled w with tr := { (handled w).tr with handler := true } }) id id
    (issues s i ∧ (wave s).late = [] ∧ (wave s).tr.handler = false ∧ (wave s).tr.tba ≠ 0) ∧ (s.wave 1 = some (wave s)) ∧
    (t.wave 1 = some (wave t) ∧ (wave t).late ≠ []) ∧
    ((ready i).wave 1 = some (wave (ready i)) ∧ (wave (ready i)).late = [] ∧ (wave (ready i)).tr.tba = 0 ∧ ((ready i).cohort (wave (ready i)).cohort).isSome) ∧
    (h.wave 1 = some (wave h) ∧ (wave h).late = [] ∧ (wave h).tr.handler = true ∧ (h.cohort (wave h).cohort).isSome) := by decide +kernel

theorem test_meets_ClauseHeaders :
    let good := fun (h : HF) (core : Nat) (P : Prop) =>
      let s := (({ State.reset with cur := some 1, ids := 2 } : State).setWave 1 (Wave.placed core 0 2 0 1 128 0 0 0)).withFetchWord 64 ((encode (.clauseHeader h)).getD 0).toNat
      s.cur = some 1 ∧ s.wave 1 = some (wave s) ∧ (wave s).core = core ∧ issueGate s 1 (wave s) true = none ∧ P
    good { count := 15, cls := 3, rgn := 1, z := 0, k := 0 } 0 True ∧ good { count := 0, cls := 0, rgn := 0, z := 0, k := 1 } 160 True ∧
    good { count := 0, cls := 4, rgn := 0, z := 0, k := 0 } 0 True ∧ good { count := 0, cls := 1, rgn := 0, z := 0, k := 0 } 160 (isTrustCore 160 = true) ∧
    good { count := 0, cls := 3, rgn := 0, z := 1, k := 0 } 0 True := by decide +kernel

/-- A wave at handler level that writes `v` to special register `n`. -/
def setting (n v : Nat) : State :=
  with_ (.sets { a := 20, b := 0, c := 0, d := 0, e := 0, ctl := BitVec.ofNat 20 n })
    (fun w => { w.setS64 20 (BitVec.ofNat 64 v) with tr := { w.tr with handler := true } }) id id

theorem test_meets_SpecialRegisterWrites : ∀ p ∈ [(13, 5), (13, 21), (14, 2 ^ 64 - 1), (18, 64), (20, 1), (21, 3), (22, 8), (23, 4), (24, 2 ^ 64 - 1), (25, 0),
    (26, 1), (27, 15), (10, 1), (9, 0)],
    let s := setting p.1 p.2
    issues s (.sets { a := 20, b := 0, c := 0, d := 0, e := 0, ctl := BitVec.ofNat 20 p.1 }) ∧ ((wave s).src64 20).toNat = p.2 ∧
    (wave s).prog.stage ≠ 1 ∧ s.gridQuiet (s.ids + 1) = true ∧ (∀ d ∈ s.dies, d.2.triggers = []) ∧ gridShapeOk 1 = true ∧ gridPosOk s.shape 0 = true := by
  decide +kernel

theorem test_meets_ReturnFromTrap :
    let i := Instr.eret { a := 0, b := 0, c := 0, d := 0, e := 0, ctl := 0 }
    let s := with_ i (fun w => { w with tr := { w.tr with tpc := 0x10104, tpcEntry := 0x10104 } }) id id
    let t := with_ i (fun w => { w with tr := { w.tr with tpc := 0x10100, tpcEntry := 0x10104 } }) id headers
    (issues s i ∧ (wave s).tr.tpc = (wave s).tr.tpcEntry) ∧ (issues t i ∧ (wave t).tr.tpc ≠ (wave t).tr.tpcEntry) ∧ HeaderAt t (wave t) (wave t).tr.tpc :=
  ⟨by decide +kernel, by decide +kernel, headerAt_of (by decide +kernel)⟩

/-! #### Timelines, words of memory, groups, the copy engines -/

/-- A format E operand record. -/
def ef (a b c d e ctl : Nat) : EF :=
  { a := BitVec.ofNat 8 a, b := BitVec.ofNat 8 b, c := BitVec.ofNat 8 c, d := BitVec.ofNat 8 d, e := BitVec.ofNat 4 e, ctl := BitVec.ofNat 20 ctl }

/-- The wave with its timeline `e` set. -/
def withTl (e : Nat) (t : Timeline) (w : Wave) : Wave := w.updTl e fun _ => t

/-- A read that is outstanding. -/
def aRead : Late := { aLate with kind := .global, vals := [], lanes := [{ lane := 0, addr := placePa, own := [], nocache := false }] }

theorem test_meets_FencesAndTimelines_fence :
    let nop := ready (.fence (ef 0 0 0 0 0 0x0F0))
    let full := ready (.fence (ef 0 0 0 0 0 0x5FF))
    let waits := with_ (.fence (ef 0 0 0 0 0 0x5FF)) (fun w => { w with late := [aRead] }) id id
    (issues nop (.fence (ef 0 0 0 0 0 0x0F0)) ∧ (wave nop).group = none) ∧
    (issues full (.fence (ef 0 0 0 0 0 0x5FF)) ∧ (wave full).group = none ∧ (wave full).late.any (·.reads) = false ∧
      full.drained (wave full).core 1 = true ∧ full.marked 1 (wave full).cohort = true ∧ full.remoteDone 1 = true) ∧
    (issues waits (.fence (ef 0 0 0 0 0 0x5FF)) ∧ (wave waits).group = none ∧ (wave waits).late.any (·.reads) = true) := by decide +kernel

/-- The state in which a wave waits for batch `n` of timeline `e`, which stands as `t`. -/
def waiting (e n : Nat) (t : Timeline) : State :=
  with_ (.waitt (ef 20 0 0 0 e 0)) (fun w => { withTl e t (w.setS64 20 (BitVec.ofNat 64 n)) with sp := { w.sp with remtrap := 0 } }) id id

theorem test_meets_FencesAndTimelines_waitt :
    let err : TlErr := { batch := 1, order := 1, code := 0, info := 0, cause := 3, window := 255, node := 1023, count := 70000 }
    let reached := waiting 1 2 { batches := 2, open_ := [], errs := [{ err with batch := 3 }], flags := [] }
    let remote := waiting 2 1 { batches := 1, open_ := [], errs := [err], flags := [] }
    let open_ := waiting 0 2 { batches := 2, open_ := [(7, 2)], errs := [], flags := [] }
    let none_ := waiting 0 1 { batches := 0, open_ := [], errs := [], flags := [] }
    (issues reached (.waitt (ef 20 0 0 0 1 0)) ∧ ((wave reached).src64 20).toNat = ((wave reached).tl 1).value ∧
      (∀ x ∈ ((wave reached).tl 1).errs, ((wave reached).src64 20).toNat < x.batch)) ∧
    (issues remote (.waitt (ef 20 0 0 0 2 0)) ∧ ((wave remote).src64 20).toNat ≤ ((wave remote).tl 2).value ∧ ((wave remote).tl 2).errs = [err] ∧
      err.batch ≤ ((wave remote).src64 20).toNat ∧ (wave remote).sp.remtrap.getLsbD 0 = false ∧ fld (wave remote).sp.remerr.toNat 47 32 = 0) ∧
    (issues open_ (.waitt (ef 20 0 0 0 0 0)) ∧ ((wave open_).src64 20).toNat ≤ ((wave open_).tl 0).batches ∧ ((wave open_).tl 0).value < ((wave open_).src64 20).toNat) ∧
    (issues none_ (.waitt (ef 20 0 0 0 0 0)) ∧ ((wave none_).tl 0).batches < ((wave none_).src64 20).toNat) := by decide +kernel

/-- A word of memory at S[22:23] + nothing, S[20:21] the operand. -/
def wordAt (i : Instr) (x m : Nat) : State :=
  with_ i (fun w => w.setS64 20 (BitVec.ofNat 64 x)) id fun s => s.store (pa 0x10200) 8 m

/-- What the statements about words of memory ask of the state. -/
abbrev wordReady (s : State) (i : Instr) : Prop :=
  plain s i ∧ (wave s).prog = Progress.none ∧ (s.core 0).sb = [] ∧ s.still = true ∧ s.poisoned (pa 0x10200) 8 = false ∧ s.remoteDone 1 = true ∧ (wave s).base 22 = 0x10200

theorem wordReach {s : State} (access : Nat) (h : (match waveXlate s (wave s) ((wave s).base 22) access false with | .ok p _ => p == pa 0x10200 | _ => false) = true)
    (hb : (wave s).base 22 = 0x10200) : Reaches s (wave s) ((wave s).base 22) access false 8 (pa 0x10200) :=
  reaches_of ⟨by rw [hb], by rw [hb]; decide +kernel, h⟩

theorem test_meets_MemoryWords :
    (∀ p ∈ [(Instr.waittMemory (ef 20 22 0 0 3 4), 5, 5), (.waittMemory (ef 20 22 0 0 3 0), 6, 5), (.sbwait (ef 20 22 0 0 0 0xD), 6, 2), (.sbwait (ef 20 22 0 0 0 0), 6, 2),
        (.sbset (ef 20 22 0 0 0 0), 2 ^ 63, 1), (.sbclr (ef 20 22 0 0 0 5), 1, 1), (.sbtake (ef 20 22 0 9 0 0), 0xC, 0xF0A), (.sbtake (ef 20 22 0 9 0 0), 1, 2)],
      let s := wordAt p.1 p.2.1 p.2.2
      wordReady s p.1 ∧ s.read (pa 0x10200) 8 = p.2.2 ∧ (wave s).src64 20 = BitVec.ofNat 64 p.2.1) ∧
    (let s := wordAt (.sbwait (ef 20 22 0 0 0 0xD)) 6 2
     Reaches s (wave s) ((wave s).base 22) 0 false 8 (pa 0x10200)) ∧
    (let s := wordAt (.sbtake (ef 20 22 0 9 0 0)) 0xC 0xF0A
     Reaches s (wave s) ((wave s).base 22) 2 false 8 (pa 0x10200)) :=
  ⟨by decide +kernel, wordReach 0 (by decide +kernel) (by decide +kernel), wordReach 2 (by decide +kernel) (by decide +kernel)⟩

/-- An open commit group that watches one line and holds one byte. -/
def group (doom : Nat) (broken : Bool) : Group :=
  { doom := doom, reads := [(pa 0x10200 / 64, broken)], writes := [pa 0x10200 / 64], bytes := [(pa 0x10200, 0x5A), (pa 0x10201, 0)], count := 2, since := 1 }

def grouped (i : Instr) (g : Option Group) : State := with_ i (fun w => { w with group := g }) id id

theorem test_meets_CommitGroups :
    (∀ p ∈ [(Instr.cgbegin (ef 0 0 0 0 0 0), none), (.cgcommit (ef 0 0 0 9 0 0), none), (.cgbegin (ef 0 0 0 0 0 0), some (group 0 false)),
        (.cgbegin (ef 0 0 0 0 0 0), some (group 1 false)), (.cgabort (ef 0 0 0 0 0 0), some (group 0 true)), (.cgabort (ef 0 0 0 0 0 0), some (group 6 false)),
        (.cgcommit (ef 0 0 0 9 0 0), some (group 3 false)), (.cgcommit (ef 0 0 0 9 0 0), some (group 0 true)), (.cgcommit (ef 0 0 0 9 0 0), some (group 0 false))],
      issues (grouped p.1 p.2) p.1 ∧ (wave (grouped p.1 p.2)).group = p.2) ∧
    (let t := grouped (.cgcommit (ef 0 0 0 9 0 0)) (some (group 0 false))
     let u := t.setOwner placePa { world := 7, state := 0, shared := false, version := 0 }
     (wave t).late.any (·.reads) = false ∧ (t.core 0).sb = [] ∧ t.still = true ∧ (group 0 false).bytes.Pairwise (fun a b => a.1 < b.1) ∧
     (∀ b ∈ (group 0 false).bytes, t.admits (t.waveWho (wave t)) b.1 = true) ∧
     (issues u (.cgcommit (ef 0 0 0 9 0 0)) ∧ u.still = true ∧ ∃ b ∈ (group 0 false).bytes, u.admits (u.waveWho (wave u)) b.1 = false)) := by
  decide +kernel

/-- A tile of two elements of 16 bytes from 0x10200 to scratch address 0x80 (R273): element size code 4, DSTSPACE 1. -/
def tileRecord (toScratch : Bool) : Nat :=
  (if toScratch then 0x10200 + 2 ^ 64 * 0x80 else 0x80 + 2 ^ 64 * 0x10200) + 2 ^ 128 * (4 + if toScratch then 16 else 8) + 2 ^ 160 * 2

/-- A cohort with a segment and a half of scratchpad. -/
def roomy (c : Cohort) : Cohort := { c with scratchSize := 196608, segs := [3, 4] }

theorem test_meets_CopyCommands :
    let i := Instr.tcopy (ef 0 22 0 0 0 0)
    let s := with_ i id roomy fun s => s.store (pa 0x10200) 64 (tileRecord true)
    let d := Instr.tlreadDeferred (ef 0 22 0 20 3 0)
    (plain s i ∧ (wave s).base 22 = 0x10200 ∧ (s.core 0).sb = [] ∧ s.snap.state ≠ 1 ∧ s.unlocked = true ∧ (wave s).late.any (·.reads) = false ∧
      s.poisoned (pa 0x10200) 64 = false ∧ (s.cohort 2).any (fun c => decide (tcopyCheck i c (s.read (pa 0x10200) 64) = none)) = true) ∧
    (match waveXlate s (wave s) 0x10200 0 false with | .ok p _ => p == pa 0x10200 | _ => false) = true ∧
    (plain (ready d) d ∧ (wave (ready d)).base 22 % 8 = 0) := by decide +kernel

theorem test_meets_CopyCommands_spmark :
    let m := Instr.spmark (ef 5 6 0 0 0 1)
    let t := with_ m (fun w => (w.setS 5 0x100).setS 6 0x80) roomy id
    (plain t m ∧ (wave t).late.any (·.reads) = false ∧ ((wave t).src 5).toNat % 128 = 0 ∧ ((wave t).src 6).toNat % 128 = 0 ∧ ((wave t).src 6).toNat ≠ 0 ∧
      (t.cohort 2).any (fun c => decide (c.badRow ((wave t).src 5).toNat (((wave t).src 6).toNat / 128) 128 = none) && c.marking.isEmpty) = true) ∧
    (let z := with_ m (fun w => (w.setS 5 0x100).setS 6 0) roomy id
     plain z m ∧ ((wave z).src 6).toNat = 0) := by decide +kernel

/-- R275: an SPMARK of lines 2 to 41 at work since clock 9; a clock marks 32 lines. -/
def marking (full : Bool) : Cohort :=
  { Cohort.blank 0 0 0 0 0 with empty := [1, 2], marking := [{ wave := 1, start := 9, line := 2, count := 40, done := 0, full := full }] }

theorem test_meets_CopyCommands_marking :
    ((marking false).markLines 9 1).empty = (List.range 33).map (· + 1) ∧ ((marking false).markLines 9 2).empty = (List.range 41).map (· + 1) ∧
    ((marking true).markLines 9 1).empty = [1] := by decide +kernel

theorem test_meets_CopyCommands_segcfg :
    let f := ef 5 24 0 0 0 3
    let g := ef 5 130 0 0 0 2
    let fifo := fun (w : Wave) => ((((w.setS 5 0).setS 24 0x112).setS 25 0).setS 26 0).setS 27 0
    let s := with_ (.segcfg f) fifo (fun c => { c with scratchSize := 131072, segs := [3] }) id
    let empty : Fifo := { num := 2, seg := 0, cap := 2, depth := 2, entries := [] }
    let t := with_ (.segcfg g) fifo (fun c => { c with scratchSize := 131072, segs := [3], fifoSegs := [0], fifos := [empty] }) id
    (plain s (.segcfg f) ∧ (wave s).src 5 = 0 ∧ (s.cohort 2).any (fun c => decide (c.wholeSegment 0 = some (0, 3)) && !c.fifoSegs.contains 0 &&
      layoutOk c (s.pendingFifos 2) ((wave s).sgroup 24 4) (wave s).width) = true ∧
      (s.sched.copies.any fun x => x.kind == 1 && x.cohort == 2 && nth 0 x.args 0 == 0) = false) ∧
    (plain t (.segcfg g) ∧ (t.cohort 2).any (fun c => decide (c.wholeSegment 0 = some (0, 3)) && c.fifoSegs.contains 0 && c.fifosEmpty 0) = true) := by decide +kernel

/-- R130, R144: wave 1 stores 5 and then 6 where 0 was: its engine commands may read 0, 5 or 6, those of wave 2 read 6, and once one has,
nobody reads an older byte. -/
theorem test_unfenced_stores :
    let c := ((Cohort.blank 0 0 0 0 0).scratchStore 1 [(64, [5])]).scratchStore 1 [(64, [6])]
    let x := c.engineByte (some 2) 50 64
    c.scratchRead 64 1 = 6 ∧ (c.unfenced.map fun x => (x.wave, x.addr, x.old)) = [(1, 64, 0), (1, 64, 5)] ∧
    x.1 = 6 ∧ x.2.2.unfenced = [] := by decide +kernel

/-- A copy command of wave 1, the translation service holding the placed page. -/
def command (kind : Nat) (rec_ : Nat) (args done : List Nat) : CopyCmd :=
  { id := 50, kind := kind, die := 0, core := 0, wave := some 1, cohort := 2, trigger := none, batch := 1, world := 0, asid := 0, disp := 0, pc := 0,
    recVa := 0, rec_ := natLe 64 rec_, args := args, done := done, parked := false, stopped := none }

def commanded (kind : Nat) (rec_ : Nat) (args done : List Nat) : State :=
  let s := with_ (.nop { d := 0, a := 0, b := 0, fn := 0, ty := 0, imm := 0 }) id roomy fun s => s.store (pa 0x10200) 8 0x1122334455667788
  { s with sched := { s.sched with copies := [command kind rec_ args done] } }.updTs 0 fun ts => { ts with entries := [page] }

/-- What an engine finds at an address through the service, having changed nothing. -/
def engineOk (s : State) (va access : Nat) : Bool :=
  match engineXlate s 0 0 0 (.world 0) va access with
  | .ok p _ t => p == pa va && t == s
  | _ => false

theorem engineOk_ok {s : State} {va access : Nat} (h : engineOk s va access = true) : ∃ p r, engineXlate s 0 0 0 (.world 0) va access = .ok p r s := by
  unfold engineOk at h
  split at h
  · rename_i p r t hx
    simp only [Bool.and_eq_true, beq_iff_eq] at h
    exact ⟨p, r, by rw [hx, h.2]⟩
  · cases h

theorem test_meets_CopyEngine :
    let a := commanded 0 (tileRecord true) [] []
    let b := commanded 0 (tileRecord false) [] [0]
    let c := commanded 1 0 [0, 3, 0x112, 0, 64] []
    let d := commanded 2 0 [20, 0x10200] []
    let x := tileOf (tileRecord true)
    let y := tileOf (tileRecord false)
    ((a.copyCmd 50).map (fun c => (c.kind, c.parked, c.done)) = some (0, false, []) ∧ x.count = 2 ∧ x.fill = false ∧ x.ssp = false ∧ x.dsp = true ∧ a.snap.state ≠ 1 ∧ a.unlocked = true ∧
      (a.cohort 2).any (fun k => k.scratchOk (x.dstAddr 1) x.e) = true ∧
      (match engineRead 0 0 0 (.world 0) 0 (x.e / 65536 + 2) a (x.srcAddr 1) x.e with | .ok bs t => bs.length == x.e && t == a | _ => false) = true) ∧
    ((b.copyCmd 50).map (·.done) = some [0] ∧ y.ssp = true ∧ y.dsp = false ∧ y.dstAddr 1 % 65536 + y.e ≤ 65536 ∧ b.still = true ∧
      (b.cohort 2).any (fun k => k.scratchOk (y.srcAddr 1) y.e && (linesOf (y.srcAddr 1) y.e).all (fun l => !k.empty.contains l && (mapFind k.failed l).isNone) &&
        !(k.engineRead (some 1) 50 (y.srcAddr 1) y.e).1.any (·.2) && k.unfenced.isEmpty) = true ∧ engineOk b (y.dstAddr 1) 1 = true) ∧
    ((c.copyCmd 50).any (fun k => decide (nth 0 k.args 3 ≤ c.clock)) = true ∧ (c.cohort 2).isSome) ∧
    ((d.copyCmd 50).map (·.wave) = some (some 1) ∧ (d.wave 1).isSome ∧ engineOk d 0x10200 0 = true ∧ d.poisoned (pa 0x10200) 8 = false ∧ d.snap.state ≠ 1 ∧ d.unlocked = true) := by decide +kernel

/-! #### The matrix engine -/

/-- Record 2 of a cohort: f32, 16 KiB from the start of its operand buffer, owned by slot 0, valid (R65). -/
def aRecord : Nat := 1 + 2 ^ 12 * 64 + 2 ^ 24

/-- A cohort with operand buffer, accumulators and plane slots, record 2, and f32 planes in slot 2. -/
def matrixRoom (c : Cohort) : Cohort :=
  let tag := aheadTag 1 0 0 false
  let slot := { Slot.clear with active := { Plane.clear with tag := tag }, activeAhead := tag, shadowAhead := tag }
  let m := { Matrix.clear with records := [(2, { bits := aRecord, releasing := false })], slots := [(2, slot)] }
  { c with obBytes := 65536, accRows := 1024, planes := 4, scratchSize := 65536, mx := [m] }

/-- A wave at a matrix instruction, with three scalar operands. -/
def matrix (i : Instr) (x y z : Nat) : State :=
  with_ i (fun w => ((w.setS 5 (BitVec.ofNat 32 x)).setS 6 (BitVec.ofNat 32 y)).setS 7 (BitVec.ofNat 32 z)) matrixRoom id

def matrixCases : List (Instr × Nat × Nat × Nat) :=
  [(.obrel (ef 0 0 0 0 0 2), 0, 0, 0), (.obwr (ef 5 0 0 9 0 0x12), 16384 - 256, 0, 0), (.obrd (ef 5 0 0 9 0 0x12), 0, 0, 0), (.mlds (ef 5 0 0 0 0 0x32), 32, 0, 0),
   (.mma (ef 5 6 0 0 0 0x22), 65536 * 64, 960, 0), (.mma (ef 5 6 0 0 0 0xE2), 65536, 1023, 0), (.mplane (ef 0 0 0 0 0 0x53), 0, 0, 0), (.mswap (ef 0 0 0 0 0 3), 0, 0, 0),
   (.macz (ef 5 0 0 0 0 0), 1023 + 65536, 0, 0), (.mshout (ef 5 0 0 9 0 0x0001), 65536 * 119, 0, 0), (.mshout (ef 5 6 0 2 0 0x3F901), 65536 * 128, 0, 0),
   (.mshout (ef 5 6 7 0 0 0xBFA01), 65536 * 2, 0, 128), (.mshin (ef 5 0 0 9 0 0x801), 65536, 0, 0), (.mshin (ef 5 6 0 2 0 0x101), 65536, 4, 0),
   (.mshin (ef 5 6 7 0 0 0x201), 65536, 4, 132)]

theorem test_meets_MatrixIssue : ∀ p ∈ matrixCases,
    let s := matrix p.1 p.2.1 p.2.2.1 p.2.2.2
    plain s p.1 ∧ (wave s).converged = true ∧ (s.cohort 2).any (fun c => (wave s).half c == 0 && (c.mxOf 0).record 2 == some aRecord) = true := by decide +kernel

theorem test_meets_MatrixIssue_bounds :
    recOwner aRecord = 0 ∧ 16384 - 256 + 4 * 32 * 2 = recLen aRecord ∧ recFmt aRecord ≤ 6 ∧ 256 * 32 + blockStored 1 0 = recEnd aRecord ∧
    legalPair (recFmt aRecord) (recPlanes aRecord) 1 = true ∧ 256 * 0 + 64 * aRowBytes 1 0 = recEnd aRecord ∧
    rowAndCount (BitVec.ofNat 32 (1023 + 65536)) = some (1023, 1) ∧ rowAndCount (BitVec.ofNat 32 (65536 * 128)) = some (0, 128) ∧
    32 * 128 * shiftBytes 1 = recLen aRecord ∧ 32 * shiftBytes 1 = 128 ∧
    ∀ j, j < 2 → (matrixRoom (Cohort.blank 0 0 0 0 0)).badRow (0 + j * 128) 32 4 = none := by decide +kernel

theorem test_meets_MatrixIssue_obres :
    let i := Instr.obres (ef 20 0 0 0 0 15)
    let r := 2 ^ 1 * 64 + 2 ^ 12 * 192 + 2 ^ 24
    let s := with_ i (fun w => w.setS64 20 (BitVec.ofNat 64 r)) matrixRoom id
    plain s i ∧ ((wave s).src64 20).toNat = r ∧ recordIllegal r = false ∧ recBase r + recLen r = 65536 ∧
    (s.cohort 2).any (fun c => (mapFind (c.mxOf 0).records 15).isNone && (c.mxOf 0).records.all fun y =>
      recOwner y.2.bits == (wave s).slot || !overlaps (recBase r) (recLen r) (recBase y.2.bits) (recLen y.2.bits)) = true := by decide +kernel

/-- Core 0's engine holds one command of wave 1. -/
def engine (c : MCmd) : State :=
  (with_ (.nop { d := 0, a := 0, b := 0, fn := 0, ty := 0, imm := 0 }) id matrixRoom id).updCore 0 fun k => { k with
    queue := [{ c with id := 60, wave := 1, cohort := 2, half := 0, batch := 1, recBits := aRecord, rec_ := 2 }] }

theorem test_meets_MatrixEngine : ∀ c ∈ [{ MCmd.blank with op := 0xA1 }, { MCmd.blank with op := 0xA2, n := 256 }, { MCmd.blank with op := 0xA3, reg := 254, pitch := 2, n := 256 },
      { MCmd.blank with op := 0xA4, fmt := 4 }, { MCmd.blank with op := 0xA4, f1 := true }, { MCmd.blank with op := 0xA5 }, { MCmd.blank with op := 0xA6, slot := 2 },
      { MCmd.blank with op := 0xA7, slot := 2, n := 2, step := 1 }, { MCmd.blank with op := 0xA7, slot := 2, n := 1, f1 := true }, { MCmd.blank with op := 0xA8, n := 1 },
      { MCmd.blank with op := 0xA9, n := 2, step := 1, reg := 254, fmt := 1, dest := 0 }, { MCmd.blank with op := 0xA9, n := 2, step := 1, fmt := 1, dest := 1 },
      { MCmd.blank with op := 0xA9, n := 2, step := 1, fmt := 0, dest := 2, pitch := 256 }, { MCmd.blank with op := 0xAA, n := 1, fmt := 1, dest := 2, pitch := 128 }],
    let s := engine c
    ((s.readyCmd 0 60 c.op).isSome ∧ (s.cohort 2).isSome ∧ (s.wave 1).isSome ∧ c.rm ≠ 5 ∧ c.plane < 2) ∧ (c.op = 0xA5 → recFmt aRecord ≠ 6) ∧
    (c.op = 0xA3 → c.reg + c.pitch ≤ 256) ∧ (c.op = 0xA9 → c.dest = 0 → c.fmt ≠ 0 ∧ c.reg + c.step / (wave s).k < 256) ∧
    (s.cohort 2).any (fun k => (linesOf (c.x + c.step * c.pitch) (32 * shiftBytes c.fmt)).all fun l => !k.empty.contains l && (mapFind k.failed l).isNone) = true := by
  decide +kernel

/-! #### Remote memory -/

/-- A grid of one axis of four packages, this one at 0; window 7 is the placed page with every permission (R102). -/
def gridded (s : State) : State :=
  ({ s with fabric := { s.fabric with
    shape := 0x301, en := true, windows := List.replicate 7 0 ++ [BitVec.ofNat 256 (31 + 2 ^ 64 * 0x10000 + 2 ^ 128 * 65535)] } }).updTs 0 fun ts =>
      { ts with entries := [page] }

/-- Patterns (R105): every package, and package 1 alone. -/
def everyNode : Nat := 2 ^ 125 + 2 ^ 22
def nodeOne : Nat := 2 ^ 125 + 2 ^ 10

/-- Puts a 128-bit group into four scalar registers. -/
def group4 (r n : Nat) (w : Wave) : Wave := (w.setS64 r (BitVec.ofNat 64 n)).setS64 (r + 2) (BitVec.ofNat 64 (n / 2 ^ 64))

/-- A wave at a remote instruction with pattern `p` in S[20:23] and operand group `g` in S[24:27]. -/
def remote (i : Instr) (p g : Nat) : State := with_ i (fun w => group4 24 g (group4 20 p w)) id gridded

/-- What the checks of a remote instruction come to: none passed, else a void's cause or 16 for a trap. -/
def checked (s : State) (i : Instr) (o : OpSpec) : Option Nat :=
  match checkOp s ((encode i).getD 0) (s.waveWorld (wave s)) ((wave s).sgroup 20 4) ((wave s).sgroup 24 4) o with
  | .ok => none
  | .void c => some c
  | .trap _ => some 16

def remoteCases : List (Instr × Nat × Nat × OpSpec × Option Nat) :=
  let f := fun (ctl : Nat) => ef 20 24 8 0 0 ctl
  let spec := fun (op e len : Nat) => ({ op := op, e := e, len := len, tooLong := false } : OpSpec)
  [(.rstore (f 2), everyNode, 2 ^ 40 * 7 + 2 ^ 48 + 2 ^ 64, spec 1 4 128, none), (.rstore (f 4), nodeOne, 65536 - 512 + 2 ^ 40 * 7, spec 1 16 512, none),
   (.rload (f 3), nodeOne, 2 ^ 40 * 7 + 8, spec 2 8 256, none), (.ratom (f 2), nodeOne, 2 ^ 40 * 7 + 4, spec 3 4 128, none), (.ratom (f 0x93), everyNode, 2 ^ 40 * 7, spec 3 8 256, none),
   (.rsig (ef 20 24 0 0 0 0), everyNode, 2 ^ 40 * 7 + 2 ^ 48 * 2 + 2 ^ 50 * 63, spec 5 1 0, none), (.rred (f 0), everyNode, 2 ^ 40 * 7 + 2 ^ 112 * 9, spec 4 4 128, none),
   (.rred (f 0x30), everyNode, 2 ^ 40 * 6, spec 4 8 256, some 1)]

theorem test_meets_RemoteIssue : ∀ c ∈ remoteCases, let s := remote c.1 c.2.1 c.2.2.1
    plain s c.1 ∧ checked s c.1 c.2.2.2.1 = c.2.2.2.2 ∧ (wave s).activeLanes ≠ [] ∧
    s.effCard ((wave s).sgroup 20 4) = (if c.2.1 = everyNode then 4 else 1) := by decide +kernel

/-- An RXFER record (R314): 128 bytes from 0x10200 to window offset 0, to every package by replication, or one foreign row. -/
def transferRecord (foreign : Bool) : Nat :=
  0x10200 + 2 ^ 128 * 4 + 2 ^ 160 * 8 + 2 ^ 288 * 7 + 2 ^ 296 + (if foreign then 2 ^ 315 else 0) + 2 ^ 512 * (if foreign then nodeOne else everyNode)

theorem test_meets_RemoteIssue_rxfer : ∀ foreign ∈ [false, true], let i := Instr.rxfer (ef 0 22 0 0 0 0)
    let s := with_ i id id fun s => (gridded s).store (pa 0x10200) 128 (transferRecord foreign)
    plain s i ∧ (s.core 0).sb = [] ∧ s.snap.state ≠ 1 ∧ s.unlocked = true ∧ (wave s).base 22 = 0x10200 ∧ s.poisoned (pa 0x10200) 128 = false ∧ s.read (pa 0x10200) 128 = transferRecord foreign ∧
    rxferCheck s i (s.waveWorld (wave s)) (s.cohort 2) (transferRecord foreign) = none := by decide +kernel

/-- A remote operation of wave 1 that expects four deliveries and has gathered `n`. -/
def operation (n : Nat) (foreign : Bool) : State :=
  let s := gridded idle
  let o := { RemoteOp.blank with id := 70, wave := some 1, kind := 1, pattern := BitVec.ofNat 128 everyNode, window := 7, expected := 4, gathered := n, foreign := foreign, grid := (0x301, 0) }
  s.updFabric fun f => { f with ops := [o], acksOut := [(.op 70 1, { count := 1, errs := 1, cause := 3, node := 2, data := [] })] }

theorem test_meets_RemoteEngine :
    let some_ := operation 2 false
    let last := operation 3 false
    let far := operation 3 true
    ((some_.remoteOp 70).any (fun o => o.landing.isNone && o.void == 0 && decide (o.gathered + 1 < o.expected)) = true ∧
      (Upstream.op 70 1, ({ count := 1, errs := 1, cause := 3, node := 2, data := [] } : Ack)) ∈ some_.fabric.acksOut) ∧
    ((last.remoteOp 70).any (fun o => decide (o.expected = o.gathered + 1) && o.wave == some 1) = true ∧ (last.wave 1).isSome) ∧
    (∀ s ∈ [far, ({ far with fabric := { far.fabric with ops := far.fabric.ops.map fun o => { o with landing := some { tx := txBlank, count := 1 } } } } : State)],
      (s.remoteOp 70).any (fun o => o.foreign && o.void == 0) = true ∧ (s.sched.copies.any fun c => c.kind == 3 && nth 0 c.args 0 == 70) = false) ∧
    (last.clock < 0 + last.txTimeout ∧ 0 + last.txTimeout ≤ ({ last with clock := last.txTimeout } : State).clock) := by decide +kernel

/-- A refused contribution, and a refused copy of a combine entry. -/
def refusal (anchor : Bool) : Refused :=
  { id := 80, tx := { txBlank with op := 4, toAnchor := anchor }, port := if anchor then 0 else 5, up := if anchor then .op 70 1 else .branch 3 1, times := 1, until_ := 9, anchor := anchor }

theorem test_meets_RemoteEngine_refused : ∀ a ∈ [true, false],
    let s := { (operation 0 false) with clock := 9 }.updFabric fun f => { f with refused := [refusal a] }
    s.fabric.refused.find? (fun x => x.id == (refusal a).id) = some (refusal a) ∧ (refusal a).until_ ≤ s.clock ∧ (refusal a).anchor = a ∧
      ((refusal a).up == .op 70 1) = a := by decide +kernel

/-- A transfer of the operation, with the foreign peer table at the page's end, whose entry 0 is `entry`. -/
theorem test_meets_RemoteEngine_transfer : ∀ p ∈ [(false, 0), (true, 3), (true, 0)],
    let c := { command 3 0 [70] [] with rec_ := natLe 128 (transferRecord p.1) }
    let s := (((operation 0 p.1).updTs 0 fun ts => { ts with entries := [page] }).store (placePa + 0xE000) 32 p.2).updPower fun x => { x with ethpeer := BitVec.ofNat 64 (placePa + 0xE000) }
    let t := { s with sched := { s.sched with copies := [c] } }
    t.copyCmd 50 = some c ∧ c.kind = 3 ∧ c.parked = false ∧ c.args = [70] ∧ c.done = [] ∧ rxForeign (leNat c.rec_) = p.1 ∧ rxRop (leNat c.rec_) = 0 ∧
    t.peerValid (leNat c.rec_ / 2 ^ 704 % 2 ^ 8) = (p.2 == 3) ∧ (t.remoteOp 70).map (·.grid) = some (0x301, 0) ∧
    (match rxPlan (t.withGrid (0x301, 0)) (leNat c.rec_) with
     | [x] => (match getRows t c (tileOf (leNat c.rec_)).ssp x.rowBytes x.rows with | .bytes data t' => data.length == 128 && t' == t | _ => false)
     | _ => false) = true := by decide +kernel

/-- A transaction of world 0 to window 7. -/
def carry (op off n : Nat) : Tx :=
  { txBlank with pattern := BitVec.ofNat 128 everyNode, op := BitVec.ofNat 6 op, window := 7, offset := BitVec.ofNat 36 off, payload := natLe n 0x1234 }

/-- A package with a rule that sends coordinates 1 to 3 out of port 5, and transactions waiting at its router and its local port. -/
def routed (tx : Tx) : State :=
  (gridded idle).updFabric fun f => { f with
    ruleTab := [BitVec.ofNat 128 (1 + 2 ^ 5 + 2 ^ 20)], ports := [(5, { up := true, keyed := true, fails := 0, lanes := 4 })],
    inbox := [{ tx := tx, port := 0, up := .op 70 0 }], deliveries := [{ id := 81, tx := tx, up := .op 70 0, here := true }] }

theorem test_meets_FabricTransactions_router :
    let s := routed (carry 1 0 8)
    s.freeCombine.isSome ∧ (s.fabric.inbox[0]?).any (fun x => !((s.asIssued x).expand x.tx x.port).branches.isEmpty) = true ∧
    (s.fabric.inbox[0]?).isSome ∧ (mapGet Port.reset s.fabric.ports 5).up = true ∧ (carry 8 0 0).op.toNat = 8 ∧ (carry 0 0 0).op = 0 := by decide +kernel

/-- What a list of window ranges comes to: its pieces, if it is reached without a change. -/
def reached (s : State) (access : Nat) (l : List (Nat × Nat)) : Option (List (Nat × Nat)) :=
  match reachAll s (s.window 7) access l with
  | .ok x t => if t = s then some x else none
  | .bad _ _ => none

theorem test_meets_FabricTransactions_target :
    let bad := carry 1 65532 8
    let store := routed (carry 1 0x200 8)
    let signal := routed { carry 5 0 0 with land := 1, loff := 0x40 }
    let load := routed { carry 2 65535 0 with lenm1 := 0 }
    let atom := routed { carry 3 0x204 4 with asize := 2 }
    let rows := routed { carry 6 0x300 0 with payload := natLe 16 (8 + 2 ^ 16 * 2 + 2 ^ 64 * 32) ++ natLe 16 0x77, land := 2, lbit := 5, loff := 0x40 }
    ((routed bad).fabric.en = true ∧ (winRefuses ((routed bad).window 7) 0 1 (txRanges bad ++ landRanges 0 0 false)).isSome) ∧
    (store.still = true ∧ winRefuses (store.window 7) 0 1 (txRanges (carry 1 0x200 8) ++ landRanges 0 0 false) = none ∧
      reached store 1 (txRanges (carry 1 0x200 8)) = some [(pa 0x10200, 8)]) ∧
    (signal.still = true ∧ winRefuses (signal.window 7) 0 5 (landRanges 1 0x40 false) = none ∧ reached signal 2 (landRanges 1 0x40 false) = some [(pa 0x10200, 8)]) ∧
    (winRefuses (load.window 7) 0 2 (txRanges { carry 2 65535 0 with lenm1 := 0 }) = none ∧ (reached load 0 (txRanges { carry 2 65535 0 with lenm1 := 0 })).isSome) ∧
    (∀ x ∈ atom.fabric.deliveries, let w := atom.window 7
      atom.still = true ∧ atom.fabric.en = true ∧ x.tx.op = 3 ∧ x.tx.land = 0 ∧ winRefuses w 0 3 (txRanges x.tx ++ landRanges 0 0 false) = none ∧
      x.tx.payload.length = 4 ∧ winVa w 0x204 % 65536 + 4 ≤ 65536 ∧ atom.poisoned (pa 0x10204) 4 = false ∧
      (match engineXlate atom 0 (winAsid w) (winWorld w) (.world (winWorld w)) (winVa w 0x204) 2 with | .ok p _ t => p == pa (winVa w 0x204) && t == atom | _ => false) = true) ∧
    ∀ x ∈ rows.fabric.deliveries, rows.still = true ∧ x.tx.op = 6 ∧
      winRefuses (rows.window 7) 0 6 (txRanges x.tx ++ landRanges 2 0x40 false) = none ∧
      (reached rows 1 (txRanges x.tx)).any (fun l => l.map (·.2) == [8, 8]) = true ∧ (reached rows 2 (landRanges 2 0x40 false)).isSome := by
  decide +kernel

/-- A combine entry with two branches, made at clock 0. -/
def combine (branches : List Nat) : Combine :=
  { id := 3, up := .op 70 0, made := 0, branches := branches.zipIdx.map fun (p, n) => ({ num := n, port := p, count := 2, node := 1, tx := carry 1 0 8, times := 0 } : Branch),
    ack := { count := 1, errs := 0, cause := 0, node := 0, data := [] } }

theorem test_meets_FabricTransactions_combine : ∀ b ∈ [[5], [5, 6]],
    let s := (gridded idle).updFabric fun f => { f with combines := [combine b] }
    s.fabric.combines.find? (fun x => x.id == 3) = some (combine b) ∧ ((combine b).branches.find? (fun x => x.num == 0)).any (fun x => x.port == 5) = true ∧
    (combine b).made + s.txTimeout ≤ ({ s with clock := s.txTimeout } : State).clock := by decide +kernel

/-- A contribution of width 32 with one f32 element present and tag 9, to offset 0 of window 7, and its void. -/
def contribution (void : Bool) : Tx :=
  { carry 4 0 0 with payload := redWord 0 0 9 ++ if void then [] else natLe 8 1 ++ natLe 128 0x3F800000 }

/-- A slot that the contribution belongs to, with `n` counted. -/
def slotWith (n : Nat) : RedSlot :=
  { id := 82, slice := 0, window := 7, offset := 0, pattern := BitVec.ofNat 128 everyNode, tag := 9, world := 0, op := 15, fmt := 0, len := 0, ebytes := 0, rows := [],
    elems := [], count := n, voids := n, land_ := 0, lbit := 0, loff := 0, opened := 0 }

def reducing (void : Bool) (slots : List RedSlot) (tombs : List Tomb) : State :=
  (routed (contribution void)).updFabric fun f => { f with slots := slots, tombs := tombs }

def aTomb : Tomb := { id := 83, slice := 0, window := 7, offset := 0, pattern := BitVec.ofNat 128 everyNode, tag := 9, status := none, made := 0 }

theorem test_meets_Reductions :
    let tx := contribution false
    let joins := reducing false [slotWith 2] []
    let full := reducing true (List.replicate 64 { slotWith 1 with tag := 10, slice := (State.redSlice (reducing true [] []) ((reducing true [] []).window 7) 0) }) []
    let fresh := reducing true [] []
    let done := { reducing true [slotWith 1] [] with clock := State.reset.redTimeout }
    ((contributionOf tx).rows = [(0, 128)] ∧ (contributionOf tx).tag = 9 ∧ winRefuses (joins.window 7) 0 4 (contributionOf tx).rows = none ∧
      (reached joins 1 (contributionOf tx).rows).isSome ∧ (slotWith 2).count + 1 < ivCard (patIntervals joins.shape everyNode) ∧
      joins.fabric.slots.find? (fun x => x.window == 7 && x.offset == 0 && x.pattern == tx.pattern && x.tag == 9) = some (slotWith 2)) ∧
    ((contributionOf (contribution true)).rows = [] ∧ fresh.fabric.tombs = [] ∧ 1 < ivCard (patIntervals fresh.shape everyNode)) ∧
    (aTomb ∈ (reducing true [] [aTomb]).fabric.tombs ∧ aTomb.status = none) ∧
    (full.fabric.slots.countP (fun x => x.slice == full.redSlice (full.window 7) 0) = 64 ∧ full.fabric.slots.find? (fun x => x.tag == 9) = none) ∧
    (done.fabric.slots.find? (fun x => x.id == 82) = some (slotWith 1) ∧ (slotWith 1).opened + done.redTimeout ≤ done.clock ∧ (done.flushSlot (slotWith 1) true).isSome) := by
  decide +kernel

/-! #### Triggers, tables, channels, snapshots -/

/-- A trigger record (R319): scoreboard word 0x10300, TCOPY record 0x10240, completion timeline 0x10400. -/
def trigRecord (consume : Bool) (cpl : Nat) : Nat := 0x10300 + 2 ^ 64 * 0x10240 + 2 ^ 128 * cpl + 2 ^ 288 * 0 + (if consume then 2 ^ 291 else 0)

def arming (consume : Bool) (cpl : Nat) : State :=
  with_ (.trgarm (ef 20 22 0 9 0 0)) id roomy fun s => (s.store (pa 0x10200) 64 (trigRecord consume cpl)).store (pa 0x10240) 64 (tileRecord true)

theorem test_meets_TriggersAndTables_arm : ∀ p ∈ [(true, 0x10400), (false, 0)],
    let s := arming p.1 p.2
    let n := trigRecord p.1 p.2
    let at_ := fun (va access : Nat) => (match waveXlate s (wave s) va access false with | .ok q _ => q == pa va | _ => false) = true
    plain s (.trgarm (ef 20 22 0 9 0 0)) ∧ (wave s).src64 20 ≠ 0 ∧ (s.core 0).sb = [] ∧ s.snap.state ≠ 1 ∧ (wave s).base 22 = 0x10200 ∧ at_ 0x10200 0 ∧
    s.read (pa 0x10200) 64 = n ∧ s.poisoned (pa 0x10200) 64 = false ∧ trOk n = true ∧ trSb n % 8 = 0 ∧ at_ (trSb n) (if bit n 291 then 2 else 0) ∧
    (trCpl n = 0 ∨ at_ (trCpl n) 2) ∧ trCmd n % 64 = 0 ∧ at_ (trCmd n) 0 ∧ s.poisoned (pa 0x10240) 64 = false ∧
    trCheck s (.trgarm (ef 20 22 0 9 0 0)) (wave s) 0 (s.read (pa 0x10240) 64) = none := by decide +kernel

/-- A trigger in entry 255 of die 0, on the word at 0x10300. -/
def trigger (fired done : Bool) (kind : Nat) (cpl : DWord) : Trigger :=
  { entry := 255, gen := 3, world := 0, asid := 0, disp := 0, task := 0, cohort := 2, core := 0, mask := 6, sb := 0x10300, cpl := cpl, sbPa := pa 0x10300, nbt := 50, tol := 10,
    kind := kind, timed := true, consume := true, late := false, grid := (0x301, 0), fireNo := 0, cmdVa := 0x10240, cmd := if kind = 2 then natLe 16 everyNode ++ natLe 16 (2 ^ 40 * 7 + 2 ^ 48) else natLe 64 (tileRecord true),
    fired := fired, unsync := false, time := 50, cause := 0, done := done, cmdId := 0 }

def armed (t : Trigger) : State :=
  { ((gridded idle).store (pa 0x10300) 8 7).updDie 0 (fun d => { d with triggers := [t], trigGen := 4 }) with ptp := 50 }

theorem test_meets_TriggersAndTables_fire : ∀ t ∈ [trigger false false 0 0, trigger false false 2 0x10400, trigger true false 0 0, trigger true false 2 0, trigger true true 0 0,
      trigger true true 2 0x10400],
    let s := armed t
    let m := s.read t.sbPa 8
    (s.die 0).triggers.find? (fun y => y.entry == t.entry) = some t ∧ t.cmdId = 0 ∧ (t.kind = 0 ∨ t.kind = 2) ∧ m &&& t.mask = t.mask ∧ t.nbt ≤ s.ptp ∧ s.snap.state ≠ 1 ∧
    (t.kind = 2 → s.effCard (sigPattern (leNat t.cmd)) ≠ 0) ∧ (t.cpl ≠ 0 → engineOk s 0x10408 1 = true ∧ engineOk (s.writeHome (pa 0x10408) (natLe 8 1)) 0x10400 1 = true) := by
  decide +kernel

theorem test_meets_TriggersAndTables_cancel :
    let i := Instr.trgcan (ef 5 0 0 9 0 0)
    let s := fun (h : Nat) => with_ i (fun w => w.setS 5 (BitVec.ofNat 32 h)) id fun s => s.updDie 0 fun d => { d with triggers := [trigger false false 0 0] }
    let hit := fun (h : Nat) => ((s h).die 0).triggers.find? fun t => t.entry == h % 256 && t.gen == h / 1024 % 2 ^ 22 && t.world == (s h).waveWorld (wave (s h)) && !t.fired
    (plain (s (255 + 1024 * 3)) i ∧ hit (255 + 1024 * 3) = some (trigger false false 0 0) ∧ (trigger false false 0 0).cpl = 0) ∧
    (plain (s (255 + 1024 * 4)) i ∧ hit (255 + 1024 * 4) = none) := by decide +kernel

theorem test_meets_TriggersAndTables_tables :
    (let at_ := fun (x : DWord) => x.toNat / 8192 % 2 ^ 39 * 8192
     idle.backedMem (at_ 0x30000000000) 8192 = false ∧ idle.backedMem (at_ 0x20000000000) 8192 = true) ∧
    (let good := [1 + 2 + 2 ^ 30 * 10 + 2 ^ 20, 1 + 4 + 2 ^ 30 * 10 + 2 ^ 20 * 2]
     (∀ r ∈ good, ruleOk r = true) ∧ rulesOverlap 1 (nth 0 good 0) (nth 0 good 1) = false ∧ ruleOk 1 = false ∧ rulesOverlap 1 (nth 0 good 0) (nth 0 good 0) = true) := by
  decide +kernel

/-- A linked transfer record (R417): `len` bytes from physical 0x10400 to 0x10500 in the placed page's DRAM. -/
def linkRecord (own : Bool) (len next : Nat) : Nat :=
  (if next = 0 then 0 else pa next) + 2 ^ 64 * pa 0x10400 + 2 ^ 128 * pa 0x10500 + 2 ^ 192 * len + (if own then 2 ^ 224 else 0)

/-- Channel 3 of die 2 stands at the record at 0x10200. -/
def chained (own : Bool) (len next : Nat) : State :=
  let k : Chain := { cur := pa 0x10200, done := 0, parked := false, trapped := false, host := true }
  ((idle.store (pa 0x10200) 64 (linkRecord own len next)).setOwner placePa { world := 1, state := 0, shared := false, version := 0 }).updDie 2 fun d => { d with channels := [(3, { Channel.reset with host := some k })] }

theorem test_meets_ChannelsAndSnapshots_chain : ∀ p ∈ [(false, 8, 0), (true, 0, 0), (true, 256, 0x10300), (true, 8, 0)],
    let s := chained p.1 p.2.1 p.2.2
    (s.channel 2 3).host.isSome ∧ s.still = true ∧ (s.channel 2 2).host.isSome = false ∧
    (match s.linkAt (.host none) (pa 0x10200) with
     | some l => l.own == p.1 && l.malformed == (p.2.1 == 0) && (p.2.1 == 0 || (l.skind == 0 && l.dkind == 0 && decide (l.src % 65536 + l.len ≤ 65536) &&
         decide (l.dst % 65536 + l.len ≤ 65536) && s.backedMem l.src l.len && s.backedMem l.dst l.len && s.admits (.host none) l.src && s.admits (.host none) l.dst &&
         !s.poisoned l.src l.len && !overlaps l.dst l.len (pa 0x10200 + 28) 4))
     | none => false) = true := by decide +kernel

/-- A snapshot of one region, pages 1 and 2 of ASID 0, with its timeline word at 0x10600 and two pool pages. -/
def snapping (state val : Nat) (n : Nat) : State :=
  { (idle.store (pa 0x10700) 16 (0x10000 + 2 ^ 64 * 2)).store (pa 0x10600) 8 n with trust := { Trust.reset with stage := 3 }, snap := { Snap.reset with
    tl := BitVec.ofNat 64 (pa 0x10600), val := BitVec.ofNat 64 val, reg := BitVec.ofNat 64 (pa 0x10700 + 1), pool := BitVec.ofNat 64 2, state := state,
    drain := BitVec.ofNat 64 (pa 0x10800), marks := if state < 2 then [] else [(placePa / 65536, [])], regions := if state < 1 then [] else [(0, 1, 2)] } }

theorem test_meets_ChannelsAndSnapshots_snapshot :
    let idle_ := snapping 0 1 0
    let done := snapping 4 1 0
    let before := snapping 1 5 4
    let at_ := snapping 1 5 5
    let frozen := snapping 2 1 1
    let copying := snapping 3 1 1
    (∀ s ∈ [idle_, done], (s.snap.state = 0 ∨ s.snap.state = 4) ∧ s.trust.stage = 3 ∧ s.backedMem s.snap.tablePa (16 * s.snap.count) = true ∧ s.backedMem s.snap.timelinePa 8 = true ∧ s.armError = 0) ∧
    (before.snap.state = 1 ∧ before.read before.snap.timelinePa 8 < before.snap.val.toNat) ∧ (at_.snap.state = 1 ∧ at_.snap.val.toNat ≤ at_.read at_.snap.timelinePa 8) ∧
    (frozen.snap.state = 2 ∧ frozen.snap.drain.toNat / 64 % 2 ^ 46 ≠ 0) ∧
    (3 ≤ copying.snap.state ∧ (mapFind copying.snap.marks (placePa / 65536)).isSome ∧ copying.snap.sending.contains (placePa / 65536) = false ∧ copying.snap.freePage.isSome) := by decide +kernel

/-- A channel with no chain, and one with a chain, of a package that has booted; a die whose channels have nothing to drain. -/
theorem test_meets_ChannelsAndSnapshots_heads : (snapping 0 1 0).trust.stage = 3 ∧ ((snapping 0 1 0).channel 2 3).host.isSome = false ∧
    ((chained true 8 0).channel 2 3).host.isSome = true ∧
    (∀ i ∈ [0, 1, 2, 3], (match exec (.channelRecord 0 i true) (snapping 0 1 0) with | .next t => t == snapping 0 1 0 | _ => false) = true) := by decide +kernel

/-- A snapshot drains: every channel of every die stands at the record at 0x10800. -/
def draining (asid : Nat) : State :=
  let k : Chain := { cur := pa 0x10800, done := 0, parked := false, trapped := false, host := false }
  let rec_ := 0 + 2 ^ 64 * 0x10000 + 2 ^ 128 * (placePa + 0x20000) + 2 ^ 192 * 64 + 2 ^ 224 + 2 ^ 226 + 2 ^ 238 * asid
  let s := (((snapping 3 1 1).store (pa 0x10800) 64 rec_).setOwner (placePa + 0x20000) { world := 0, state := 0, shared := false, version := 0 }).updTs 0 fun ts => { ts with entries := [page] }
  [0, 1, 2, 3].foldl (fun s d => s.updDie d fun x => { x with channels := (List.range 4).map fun c => (c, { Channel.reset with drain := some k }) }) s

theorem test_meets_ChannelsAndSnapshots_drain : ∀ asid ∈ [0, 1],
    let s := draining asid
    s.snap.state = 3 ∧ (s.channel 0 0).drain.isSome ∧
    (match s.linkAt (.world 0) (pa 0x10800) with
     | some l => l.own && s.snap.drainable l == (asid == 0) && (asid != 0 ||
        (match sendPieces (drainMover 0 0 l.asid) l (pa 0x10800) (2 * (l.len / 65536) + 4) s 0 with
         | .all t => (t.channel 0 0).drain == (s.channel 0 0).drain && (t.channel 0 0).drain.any (fun k => decide (k.done < l.len)) &&
             (t.channel 1 3).drain.any fun k => decide (k.done < l.len)
         | _ => false))
     | none => false) = true := by decide +kernel

/-! #### Approximable regions -/

/-- A region of two inputs and one output without hidden layers, of the table at `tab`: weights 1.0 and 1.0, bias 0. -/
def region (tab id st : Nat) : Region :=
  { key := { world := 0, asid := 0, tab := tab, id := id }, nin := 2, nout := 1, h1 := 0, h2 := 0, s := 2, flags := 0,
    thresh := 0x3F000000, lrate := 0x3C23D70A, seed := 0, depVa := [], codeVa := [], watch := [], st := st, n := 0, e := 0, eset := false,
    c := 0, f := 0, gen := 5, hi := [none], lo := [none], weights := if st = 0 ∨ st = 1 ∨ st = 5 then [] else [0x3F800000, 0x3F800000, 0],
    ring := [], seen := 0, batch := [], slot := false, queued := 0, replay := 0, entered := 0, stale := false }

/-- Control goes on 2 words after the APXBEGIN, at a header. -/
def apxI : Instr := .apxbegin (ef 40 50 30 1 0 2)

/-- A die with one region of identifier 6, whose table the wave names. -/
def approx (i : Instr) (r : Region) (mode tab : Nat) (f : Wave → Wave) : State :=
  with_ i (fun w => f { (w.setS 30 6) with sp := { w.sp with apxtab := BitVec.ofNat 64 tab } }) id fun s =>
    (s.store (pa 0x10010 + 7) 1 0xF8).updFit 0 fun x => { x with mode := mode, regions := [r] }

/-- APXBEGIN issues, before its surrogate's wait, with a header where control goes on. -/
abbrev begins (s : State) : Prop :=
  issues s apxI ∧ (wave s).prog.stage ≠ 1 ∧ ((wave s).pc + 16#64).toNat % 8 = 0 ∧ canonical ((wave s).pc + 16#64).toNat = true ∧
    (match waveXlate s (wave s) ((wave s).pc + 16#64).toNat 3 false with | .ok p _ => s.byte (p + 7) == 0xF8 | _ => false) = true ∧ ((wave s).src 30).toNat < 65536

theorem test_meets_RegionBegins_true_code :
    (let s := approx apxI (region 0x10400 6 3) 0 0x10400 fun w => w.setS 96 0
     begins s ∧ (wave s).activeLanes = []) ∧
    ∀ p ∈ [(0, 0), (2, 0x10400)], let s := approx apxI (region 0x10400 6 3) p.1 p.2 id
      begins s ∧ (wave s).activeLanes ≠ [] ∧ ((wave s).sp.apxtab = 0 ∨ 2 ≤ (s.die 0).fit.mode) := by decide +kernel

theorem test_meets_RegionBegins_states : ∀ r ∈ [region 0x10400 6 0, region 0x10400 6 1, region 0x10400 6 2, region 0x10400 6 3, region 0x10400 6 4, region 0x10400 6 5,
      { region 0x10400 6 3 with n := 2 }, { region 0x10400 6 3 with s := 0 }],
    let s := approx apxI r 0 0x10400 id
    begins s ∧ (wave s).activeLanes ≠ [] ∧ (wave s).sp.apxtab ≠ 0 ∧ (s.die 0).fit.mode < 2 ∧ isTrustCore (wave s).core = false ∧ (wave s).joinHolds = false ∧ s.region 0 (s.regionKey (wave s) 6) = some r ∧ r.stale = false ∧
    1 % 16 + 1 = r.nin ∧ 1 / 16 % 8 + 1 = r.nout ∧ ((r.st = 3 ∧ (r.n + 1) % 2 ^ r.s ≠ 2 ^ r.s - 1) ↔ r = region 0x10400 6 3) := by decide +kernel

theorem test_meets_RegionBegins_surrogate :
    let s := approx apxI (region 0x10400 6 3) 0 0x10400 fun w => { w with prog := { stage := 1, x := 6 + 2 ^ 16 * 3, y := 0, data := [(vkey 50 0, 7), (vkey 50 31, 8)] } }
    issues s apxI ∧ (wave s).prog.stage = 1 ∧ ((wave s).prog.data.map (·.1)).Nodup := by decide +kernel

/-- A region left open with a captured lane. -/
def opened (gen : Nat) : OpenRegion := { key := { world := 0, asid := 0, tab := 0x10400, id := 6 }, gen := gen, out := 50, nout := 1, since := 1, capture := [(0, [1, 2]), (31, [3, 4])] }

/-- A sample of the region. -/
def sample (gen : Nat) : Sample := { key := { world := 0, asid := 0, tab := 0x10400, id := 6 }, gen := gen, core := 0, wave := 1, x := [0x3F800000, 0x40000000], y := [0x40400000] }

theorem test_meets_FittingEngine_instructions :
    let e := Instr.apxend (ef 0 0 0 0 0 0)
    let open_ := fun (gen : Nat) => approx e (region 0x10400 6 3) 0 0x10400 fun w => { w with region := some (opened gen) }
    let plainly := approx e (region 0x10400 6 3) 0 0x10400 id
    (issues plainly e ∧ (wave plainly).prog.stage ≠ 1 ∧ (wave plainly).region = none) ∧
    (issues (open_ 4) e ∧ (wave (open_ 4)).prog.stage ≠ 1 ∧ (wave (open_ 4)).region = some (opened 4) ∧ ((open_ 4).region 0 (opened 4).key).map (·.gen) ≠ some 4) ∧
    (issues (open_ 5) e ∧ (wave (open_ 5)).region = some (opened 5) ∧ ((open_ 5).region 0 (opened 5).key).map (·.gen) = some 5 ∧ ((open_ 5).die 0).fit.mode ≠ 1 ∧
      (((open_ 5).die 0).fit.samples.countP fun y => y.core == (wave (open_ 5)).core) + ((opened 5).samples 1 (wave (open_ 5))).length ≤ 64) := by decide +kernel

/-- APXEND in lockstep mode: with samples to send, and waiting for them to be consumed. -/
theorem test_meets_FittingEngine_lockstep :
    let e := Instr.apxend (ef 0 0 0 0 0 0)
    let open_ := approx e (region 0x10400 6 3) 1 0x10400 fun w => { w with region := some (opened 5) }
    let sent := approx e (region 0x10400 6 3) 1 0x10400 fun w => { w with prog := { w.prog with stage := 1 } }
    let waits := sent.updFit 0 fun x => { x with samples := [sample 5] }
    (issues open_ e ∧ (open_.region 0 (opened 5).key).map (·.gen) = some 5 ∧ (open_.die 0).fit.mode = 1 ∧ ((opened 5).samples 1 (wave open_)).isEmpty = false) ∧
    (issues sent e ∧ (wave sent).prog.stage = 1 ∧ sent.samplesDone 1 (wave sent) = true) ∧
    (issues waits e ∧ (wave waits).prog.stage = 1 ∧ waits.samplesDone 1 (wave waits) = false) := by decide +kernel

theorem test_meets_FittingEngine_regions :
    let v := fun (all : Nat) => Instr.apxinv (ef 0 0 (30 - 30 * all) 0 0 all)
    let q := Instr.apxqry (ef 0 0 30 12 0 0)
    (∀ p ∈ [(0, 0), (1, 0), (0, 1), (1, 1)], let all := p.1
      let s := approx (v all) (region 0x10400 6 3) 0 0x10400 fun w => { w with prog := { w.prog with stage := p.2 } }
      issues s (v all) ∧ (wave s).prog.stage = p.2 ∧ (wave s).late.any (·.reads) = false ∧ (wave s).joinHolds = false ∧ (all % 2 = 1 ∨ ((wave s).src 30).toNat < 65536) ∧ s.region 0 (s.regionKey (wave s) 6) = some (region 0x10400 6 3)) ∧
    (let s := approx q (region 0x10400 6 3) 0 0x10400 id
     issues s q ∧ ((wave s).src 30).toNat < 65536) := by decide +kernel

/-- The error of the sample at hand, averaged. -/
def erring (r : Region) (x : Sample) : Nat := averageError r.e.toNat (sampleError (netOut r.shape r.vals (toNats x.x)) (toNats x.y)) % 2 ^ 32

theorem test_meets_FittingEngine_samples :
    let with1 := fun (r : Region) (x : Sample) => State.reset.updFit 3 fun f => { f with regions := [r], samples := [x, sample 9] }
    let ok := fun (r : Region) (x : Sample) => ((with1 r x).die 3).fit.samples = [x, sample 9] ∧ (with1 r x).region 3 x.key = some r
    let good := { region 0x10400 6 3 with eset := true, e := 0 }
    let bad := { region 0x10400 6 3 with eset := true, e := 0x42C80000, f := 7 }
    (ok (region 0x10400 6 1) (sample 4) ∧ (region 0x10400 6 1).gen ≠ (sample 4).gen) ∧
    (ok { region 0x10400 6 1 with seen := 254 } (sample 5) ∧ 254 + 1 < 256) ∧
    (ok bad (sample 5) ∧ (fpCompare fpF32 5 (erring bad (sample 5)) bad.thresh.toNat).1 = true) ∧
    (ok good (sample 5) ∧ (fpCompare fpF32 5 (erring good (sample 5)) good.thresh.toNat).1 = false) := by decide +kernel

theorem test_meets_FittingEngine_replay :
    let r := { region 0x10400 6 2 with slot := true, ring := List.replicate 32 ([0x3F800000, 0x40000000], [0x40400000]), hi := [some 0x40400000], lo := [some 0x3F800000] }
    let s := State.reset.updFit 2 fun f => { f with regions := [region 0x10400 7 3, r] }
    (s.die 2).fit.regions[1]? = some r ∧ s.region 2 r.key = some r ∧ (s.die 2).fit.mode = 0 ∧ r.slot = true ∧ r.batch.length < 32 ∧ 32 ≤ r.ring.length ∧
    (∀ x ∈ (s.die 2).fit.regions, x.slot = true ∨ x.st ≠ 2 ∧ x.st ≠ 4) := by decide +kernel

/-! #### The trust core's instructions -/

/-- A wave at a trust instruction with 0x10100 in S[20:21], `n` in s24, 0x1FFF0 in S[22:23]; slot 1 holds a key; `done` says that its work is done. -/
def trusted (i : Instr) (n : Nat) (done : List (Nat × Nat)) (out : Nat) : State :=
  with_ i (fun w => { ((w.setS 24 (BitVec.ofNat 32 n)).setS 22 (BitVec.ofNat 32 out)) with prog := { Progress.none with stage := if done.isEmpty then 0 else 1, data := done } }) id fun s =>
    { s with trust := { s.trust with keys := [(1, [1, 2])] } }

/-- An address of the placed page, physically. -/
def at_ (s : State) (va access : Nat) : Bool := match waveXlate s (wave s) va access false with | .ok q _ => q == pa va | _ => false

/-- The instruction issues and reads `n` bytes at `va`. -/
abbrev readable (s : State) (i : Instr) (va n : Nat) : Prop :=
  issues s i ∧ (wave s).group = none ∧ (wave s).joinHolds = false ∧ (wave s).prog.stage ≠ 1 ∧ va % 65536 + n ≤ 65536 ∧ n ≠ 0 ∧ va % 1 = 0 ∧ canonical va = true ∧
    at_ s va 0 = true ∧ s.poisoned (pa va) n = false ∧ (s.core (wave s).core).sb = [] ∧ s.snap.state ≠ 1 ∧ s.unlocked = true ∧ (wave s).late.any (·.reads) = false

theorem test_meets_TrustInstructions_reads : ∀ p ∈ [(Instr.hashb (ef 20 24 22 40 0 3), 55), (.hashb (ef 20 24 22 40 0 1), 128), (.signq (ef 20 24 22 0 0 1), 300),
      (.measxExtend (ef 20 0 0 0 0 15), 32)],
    readable (trusted p.1 p.2 [] 0x10200) p.1 0x10100 p.2 := by decide +kernel

/-- The instruction issues and stores `n` bytes at `va`. -/
abbrev writable (s : State) (i : Instr) (va n : Nat) : Prop :=
  issues s i ∧ (wave s).group = none ∧ (wave s).joinHolds = false ∧ va % 65536 + n ≤ 65536 ∧ n ≠ 0 ∧ canonical va = true ∧ at_ s va 1 = true ∧ s.atLink (pa va) = false ∧
    sbCount (s.core (wave s).core).sb + ((pa va + n - 1) / 16 + 1 - pa va / 16) ≤ sbSize (wave s).core

/-- 32 bytes of work done. -/
def worked : List (Nat × Nat) := (List.range 32).map fun j => (j, j)

theorem test_meets_TrustInstructions_done : ∀ i ∈ [Instr.hashb (ef 20 24 22 40 0 3), .measxExtend (ef 20 0 0 0 0 15)],
    let s := trusted i 0 worked 0x10200
    issues s i ∧ (wave s).group = none ∧ (wave s).joinHolds = false ∧ (wave s).prog.stage = 1 := by decide +kernel

theorem test_meets_TrustInstructions_writes :
    (writable (trusted (.signq (ef 20 24 22 0 0 1)) 0 worked 0x1FFE0) (.signq (ef 20 24 22 0 0 1)) 0x1FFE0 32 ∧
      (wave (trusted (.signq (ef 20 24 22 0 0 1)) 0 worked 0x1FFE0)).prog.stage = 1) ∧
    writable (trusted (.measxRead (ef 22 0 0 0 0 31)) 0 [] 0x10201) (.measxRead (ef 22 0 0 0 0 31)) 0x10201 32 ∧
      (wave (trusted (.measxRead (ef 22 0 0 0 0 31)) 0 [] 0x10201)).prog = Progress.none := by decide +kernel

/-! #### Waits, late results, translation, services -/

/-- The wave at the NOP, changed. -/
def waits (f : Wave → Wave) : State := idle.updWave 1 f

/-- Conditions of waits, before and after they clear, as R167 counts them. -/
def cleared (s : State) (w : Wave) : Option Bool :=
  match w.wait with
  | .timeline e n => some (decide (n ≤ (w.tl e).value))
  | .late => some w.late.isEmpty
  | .yielded => some true
  | .fifoFull f => (s.cohort w.cohort).bind fun c => (c.fifo f).map fun x => decide (x.entries.length < x.depth)
  | .fifoEmpty f => (s.cohort w.cohort).bind fun c => (c.fifo f).map fun x => !x.entries.isEmpty
  | .scratchLine ls => (s.cohort w.cohort).map fun c => ls.all (fun l => !c.empty.contains l) || ls.any fun l => (mapFind c.failed l).isSome
  | .nap n => some (decide (n ≤ s.clock))
  | .memTimeline pa v => if s.snap.state = 1 ∨ s.unlocked = false ∨ s.admits (s.waveWho w) pa = false then none else some (decide (v ≤ s.read pa 8))
  | .scoreboard pa mask any => if s.snap.state = 1 ∨ s.admits (s.waveWho w) pa = false ∨ s.unlocked = false ∨ s.snap.marks ≠ [] ∨ s.poisonedWord pa = true then none else some (if any then s.read pa 8 &&& mask != 0 else s.read pa 8 &&& mask == mask)
  | _ => none

/-- A late result of register 9 of lane 3, with the value given. -/
def lateVec (kind : LateKind) (lanes : List LaneAcc) (vals : List (Nat × Nat)) (refused : List Nat) : Late :=
  { seq := 4, kind := kind, vec := true, reg := 9, nregs := 1, size := 2, window := 2, lanes := lanes, vals := vals, asid := 0, pages := [1], refused := refused, refusals := 1, until_ := 64 }

/-- A lane's access to the word at 0x10104. -/
def laneAcc : LaneAcc := { lane := 3, addr := pa 0x10104, own := [], nocache := true }

theorem test_meets_WaveEvents_waits :
    let s := fun (x : Wait) (fifo : List (List Word)) (lines : List Nat) =>
      ({ (waits fun w => { w with wait := x }).store (pa 0x10300) 8 6 with clock := 100 }).updCohort 2 fun c => { c with
        scratchSize := 65536, empty := lines, fifos := [{ num := 15, seg := 0, cap := 2, depth := 2, entries := fifo }] }
    (∀ p ∈ [(Wait.timeline 2 1, false), (.timeline 0 0, true), (.late, true), (.yielded, true), (.nap 101, false), (.nap 100, true), (.memTimeline (pa 0x10300) 7, false),
        (.memTimeline (pa 0x10300) 6, true), (.scoreboard (pa 0x10300) 3 false, false), (.scoreboard (pa 0x10300) 3 true, true), (.scoreboard (pa 0x10300) 6 false, true),
        (.fifoFull 15, false), (.fifoEmpty 15, true), (.scratchLine [4], false), (.scratchLine [5], true)],
      cleared (s p.1 [[1], [2]] [4]) (wave (s p.1 [[1], [2]] [4])) = some p.2) ∧
    cleared (s (.fifoFull 15) [] []) (wave (s (.fifoFull 15) [] [])) = some true ∧ cleared (s (.fifoEmpty 15) [] []) (wave (s (.fifoEmpty 15) [] [])) = some false ∧
    (let t := waits fun w => { w with wait := .late, late := [lateVec .value [] [(0, 1)] []] }; cleared t (wave t) = some false) ∧
    (let t := waits fun w => { w with wait := .scoreboard (pa 0x10300) 6 true, prog := { w.prog with stage := 1 } }; cleared (t.store (pa 0x10300) 8 4) (wave t) = some true) := by
  decide +kernel

theorem test_meets_WaveEvents_late :
    let lands := fun (l : Late) => let s := waits fun w => { w with late := [l] }
      s.wave 1 = some (wave s) ∧ (wave s).late.find? (fun x => x.seq == l.seq) = some l ∧ (wave s).late = [l] ∧ (wave s).keeper = none ∧ (wave s).pend = none ∧
      (s.core (wave s).core).sb = [] ∧ s.snap.state ≠ 1 ∧ s.unlocked = true ∧ (wave s).lateTrap = none
    (lands (lateVec .scratch [laneAcc] [(3, 77)] []) ∧ ([(3, 77)].map (·.1)).Nodup ∧ [laneAcc].all (fun a => [(3, 77)].any fun x => x.1 == a.lane) = true) ∧
    lands { lateVec .value [] [(0, 2 ^ 32 + 5)] [] with vec := false, reg := 95, nregs := 2 } ∧
    (lands (lateVec .answer [] [(3, 77), (4, 78)] []) ∧ ([(3, 77), (4, 78)].map (·.1)).Nodup) ∧
    (lands (lateVec .global [laneAcc] [] []) ∧ laneAcc.nocache = true ∧ laneAcc.own = [] ∧ (lateVec .global [laneAcc] [] []).grouped = false) := by decide +kernel

/-- The load's page under another owner, or its sector poisoned, or neither. -/
theorem test_meets_WaveEvents_failing :
    let s := waits fun w => { w with late := [lateVec .global [laneAcc] [] []] }
    let owned := s.setOwner placePa { world := 7, state := 0, shared := false, version := 0 }
    let spoiled := { s with poison := [laneAcc.addr / 16] }
    (∀ x ∈ [Wait.memTimeline (pa 0x10300) 7, .scoreboard (pa 0x10300) 3 false],
      let t := (waits fun w => { w with wait := x }).setOwner placePa { world := 7, state := 0, shared := false, version := 0 }
      (wave t).wait = x ∧ t.admits (t.waveWho (wave t)) (pa 0x10300) = false) ∧
    (s.admits (s.waveWho (wave s)) laneAcc.addr = true ∧ s.poisoned laneAcc.addr 4 = false) ∧
    (owned.admits (owned.waveWho (wave owned)) laneAcc.addr = false ∧ owned.snap.state ≠ 1 ∧ owned.unlocked = true) ∧
    (spoiled.admits (spoiled.waveWho (wave spoiled)) laneAcc.addr = true ∧ spoiled.poisoned laneAcc.addr 4 = true) := by decide +kernel

theorem test_meets_WaveEvents_fload :
    let l := lateVec .future [laneAcc] [] [3]
    ∀ clock ∈ [63, 64], let s := { waits fun w => { w with late := [l] } with clock := clock }
      s.wave 1 = some (wave s) ∧ (wave s).late.find? (fun x => x.seq == l.seq && x.kind == .future) = some l ∧ (wave s).late.find? (fun x => x.seq == l.seq) = some l ∧
      l.refused ≠ [] ∧ l.stale = [] ∧ (s.clock < l.until_ ↔ clock = 63) ∧ l.lanes = [laneAcc] ∧ l.refused = [laneAcc.lane] ∧ l.vals = [] ∧ s.wordEmpty laneAcc.addr = false ∧
      s.snap.state ≠ 1 ∧ s.unlocked = true ∧ s.admits (s.waveWho (wave s)) laneAcc.addr = true ∧ s.poisoned laneAcc.addr (sizeBytes l.size) = false := by decide +kernel

/-- Tables for ASID 5: the entry table at `asBase`, one table page that is its own next level, and page 1's leaf with `bits`. -/
def asBase : Nat := placePa + 0x30000
def tables (adu : Bool) (bits : Nat) (s : State) : State :=
  let t := placePa + 0x20000
  ((((s.store (asBase + 16 * 5) 16 (1 + (if adu then 2 else 0) + t)).store t 8 (1 + t)).store (t + 8) 8 (bits + placePa)).setOwner t { world := 0, state := 0, shared := false, version := 0 }).updTs 0
    fun ts => { ts with asbase := BitVec.ofNat 64 (asBase + 1), fltbase := BitVec.ofNat 64 (placePa + 0x40000) }

/-- Wave 1 waits for a walk of page 1 of ASID 5. -/
def walking (access : Nat) (adu : Bool) (bits : Nat) : State :=
  (tables adu bits (waits fun w => { w with wait := .walk })).updTs 0 fun ts => { ts with
    walks := [{ id := 9, asid := 5, page := 1, world := 0, reqs := [(1, access, 0x10100)] }] }

/-- What the walk gives: the leaf's ADU and what its permissions forbid, or the fault. -/
def walked (s : State) (access : Nat) : Option (Bool × Option Nat) × Nat :=
  match (walk s 0 5 0 0x10100).1 with
  | .leaf t => (some (t.adu, permFault t access true), 0)
  | .fault k l => (none, 10 * k + l + 1)
  | .firewall => (none, 0)

theorem test_meets_WalksAndFaults_walks :
    (∀ p ∈ [((0, false, 0x1F), (some (false, none), 0)), ((1, true, 0x1F), (some (true, none), 0)), ((0, true, 0x61F), (some (true, none), 0)), ((0, false, 0), (none, 4)), ((3, false, 5), (none, 14))],
      let s := walking p.1.1 p.1.2.1 p.1.2.2
      walked s p.1.1 = p.2 ∧ s.still = true ∧ (s.die 0).ts.refused = [] ∧ (s.die 0).ts.entries = [] ∧ (wave s).wait = .walk) ∧
    (∀ clock ∈ [63, 64], let s := { (waits id).updTs 0 fun ts => { ts with refused := [(64, { id := 9, asid := 0, page := 1, world := 0, reqs := [(1, 0, 0x10100)] })] } with clock := clock }
      (s.clock < 64 ↔ clock = 63) ∧ (s.die 0).ts.walks = [] ∧ (s.die 0).ts.missq = []) := by decide +kernel

/-- Wave 1 waits for a fault record of page 1; `known` says that its page has a token, `full` that the queue has no room. -/
def faulting (known full : Bool) : State :=
  let f : TrFault := { va := 0x10100, kind := 5, access := 1, level := 3 }
  (tables false 0 (waits fun w => { w with wait := .faultQueue 0 })).updTs 0 fun ts => { ts with
    waiting := [(f, 5, .wave 1 false)], flthead := 63, flttail := if full then 63 else 3, fltcount := if full then 64 else 60, fltphase := true,
    tokens := if known then [{ num := 2, asid := 5, page := 1, access := 1, fault := f, agents := [] }] else [] }

/-- Wave 1 parked on token 2, with its trap. -/
def parked : State :=
  let f : TrFault := { va := 0x10100, kind := 5, access := 1, level := 3 }
  (waits fun w => { w with wait := .fault 0 2, tr := { w.tr with tba := 0x10000 }, pend := some { code := 6, tpc := 0x10008, info0 := 0x10100, info1 := 5, after := false, queued := true } }).updTs 0 fun ts =>
    { ts with tokens := [{ num := 2, asid := 5, page := 1, access := 1, fault := f, agents := [.wave 1 false] }] }

theorem test_meets_WalksAndFaults_faults :
    (∀ p ∈ [(true, false), (false, true), (false, false)], let s := faulting p.1 p.2
      (wave s).wait = .faultQueue 0 ∧ ((s.die 0).ts.tokens.find? (fun x => x.asid == 5 && x.page == 0x10100 / 65536 % 2 ^ 41 && x.access == 1)).isSome = p.1 ∧
      recordRoom (s.die 0).ts = !p.2 ∧ s.still = true) ∧
    ((parked.die 0).ts.tokens.find? (fun x => x.num == 3) = none ∧
      ((parked.die 0).ts.tokens.find? (fun x => x.num == 2)).any (fun x => x.agents == [.wave 1 false]) = true ∧ (wave parked).wait = .fault 0 2 ∧
      (wave parked).pend.isSome ∧ (wave parked).late = [] ∧ (wave parked).tr.handler = false ∧ (wave parked).tr.tba ≠ 0 ∧ (parked.anyWave 1).isSome = true ∧
      (parked.agentDispatch (.wave 1 false)).isSome ∧ (parked.sched.tasks.map (·.id)).Nodup) := by decide +kernel

/-- An invalidation of the page of ASID 5 on die 0. -/
def inval (id : Nat) : Inval := { id := id, asid := 5, all := false, pkg := false, range := true, page := 1, count := 0 }

theorem test_meets_Invalidations_events :
    ((∀ d ∈ [0, 1, 2, 3], (idle.die d).ts.invals = []) ∧ ∀ y ∈ idle.dies, y.2.fit.regions = [] ∧ y.2.triggers = []) ∧
    (let s := idle.updTs 3 fun ts => { ts with invals := (List.range 17).map inval }
     ∃ d ∈ [0, 1, 2, 3], 17 ≤ (s.die d).ts.invals.length) ∧
    (let e : SbEntry := { id := 8, wave := 1, sector := 0, bytes := [], merged := 0, afterSeq := 0, asid := 5, page := 1, world := 0, cow := false }
     let s := (idle.updTs 0 fun ts => { ts with invals := [inval 6] }).updCore 0 fun x => { x with sb := [e] }
     (s.die 0).ts.invals = [inval 6] ∧ (s.cores.any fun x => dieOf x.1 == 0 && x.2.sb.contains e) = true ∧ (inval 6).covers e.asid e.page e.large = true) ∧
    (let s := (waits fun w => { w with wait := .invalidation 6 }).updTs 0 fun ts => { ts with invals := [inval 6] }
     (s.die 0).ts.invals = [inval 6] ∧ (∀ x ∈ s.cores, x.2.sb = []) ∧ (∀ x ∈ s.waves, x.2.late = [] ∧ x.2.entering = []) ∧ (∀ d ∈ [1, 2, 3], (s.die d).ts.invals = []) ∧
       (wave s).wait = .invalidation (inval 6).id) := by decide +kernel

theorem test_meets_Invalidations_tlbinv : ∀ p ∈ [(0x0005, 0), (0x3FFF, 0), (0x7FFF, 1)],
    let i := Instr.tlbinv (ef 20 5 0 0 0 p.1)
    let s := with_ i (fun w => { (w.setS 5 3) with prog := { w.prog with stage := p.2, x := 6 } }) id id
    issues s i ∧ (wave s).prog.stage = p.2 ∧ (wave s).core < 644 ∧ (∀ d ∈ [0, 1, 2, 3], (s.die d).ts.invals = []) ∧ ∀ y ∈ s.dies, y.2.triggers = [] := by decide +kernel

/-- A wave at a SYSCALL with the service queue of 64 records in memory, HEAD at its last record. -/
def calls (stage : Nat) (full : Bool) (f : Wave → Wave) : State :=
  with_ (.syscall (ef 5 20 0 22 0 0)) (fun w => f { w with prog := { w.prog with stage := stage, y := 77 } }) id fun s => (s.store (pa (0x10008 + 7)) 1 0xF8).updDie 0 fun d => { d with
    svc := { d.svc with base := BitVec.ofNat 64 (placePa + 0x40000), head := 63, tail := if full then 63 else 0, count := if full then 64 else 63, tokens := [(0, 40)] } }

/-- The next word is a header that the wave can fetch. -/
def nextHeader (s : State) : Bool :=
  match waveXlate s (wave s) ((wave s).pc + 8).toNat 3 false with
  | .ok p _ => s.byte (p + 7) == 0xF8 && ((wave s).pc + 8).toNat % 8 == 0 && canonical ((wave s).pc + 8).toNat
  | _ => false

/-- The service queue of die 0 is full. -/
def svcFull (s : State) : Bool := queueFull (s.die 0).svc.base (s.die 0).svc.count

theorem test_meets_Services_syscall :
    (∀ full ∈ [false, true], let s := calls 0 full id
      issues s (.syscall (ef 5 20 0 22 0 0)) ∧ (wave s).prog.stage = 0 ∧ nextHeader s = true ∧ s.still = true ∧ (s.die 0).svc.waiting = [] ∧ svcFull s = full) ∧
    (let s := calls 2 false id
     issues s (.syscall (ef 5 20 0 22 0 0)) ∧ (wave s).prog.stage = 2) := by decide +kernel

theorem test_meets_Services_events :
    (let s := (calls 1 false fun w => { w with wait := .service 0 5 }).updDie 0 fun d => { d with svc := { d.svc with tokens := [(0, 40), (5, 1)] } }
     (s.die 0).svc.tokens.find? (fun t => t.1 == 6) = none ∧ (s.die 0).svc.tokens.find? (fun t => t.1 == 5) = some (5, 1) ∧ (wave s).prog.stage = 1 ∧ (wave s).wait = .service 0 5) ∧
    ∀ full ∈ [false, true], let s := (calls 0 full fun w => { w with wait := .serviceQueue 0, prog := { Progress.none with data := [(0, 3), (1, 4)] } }).updDie 0 fun d => { d with
      svc := { d.svc with waiting := [1, 7] } }
      (s.die 0).svc.waiting = 1 :: [7] ∧ (wave s).wait = .serviceQueue 0 ∧ svcFull s = full ∧ s.still = true ∧ (wave s).prog.data = [(0, 3), (1, 4)] := by decide +kernel

/-! #### The scheduler -/

/-- The page for an address space, at the service of a die. -/
def served (die asid : Nat) (s : State) : State := s.updTs die fun ts => { ts with entries := [placeTr asid] }

/-- What an engine finds at an address through an entry of a die's service. -/
def serves (s : State) (die asid : Nat) (who : Who) (va access : Nat) : Bool :=
  canonical va && ((s.die die).ts.entries.find? fun t => t.covers asid va && !t.needsDirty access).any fun t =>
    (permFault t access false).isNone && s.admits who (t.pa va) && t.pa va == pa va

theorem serves_ok {s : State} {die asid : Nat} {who : Who} {va access : Nat} (h : serves s die asid who va access = true) :
    s.engineReaches die asid who va access (pa va) := by
  simp only [serves, Bool.and_eq_true, Option.any_eq_true, beq_iff_eq, Option.isNone_iff_eq_none] at h
  obtain ⟨hc, t, ht, ⟨hp, ha⟩, he⟩ := h
  exact ⟨hc, t, ht, hp, ha, he.symm⟩

/-- A wave at a TASKQ for queue 7, whose ring lies at 0x10400, with TAIL `tail` and RETIRED 0. -/
def taskq : Instr := .taskq (ef 5 20 0 9 0 3)
def appending (enabled : Bool) (world tail : Nat) : State :=
  with_ taskq (fun w => w.setS 5 7) id fun s => ((served 0 0 s).store (pa 0x10400) 8 tail).updQueue 7 fun q => { q with
    cfg := BitVec.ofNat 64 ((if enabled then 1 else 0) + 2 ^ 28 * world), ring := 0x10400 }

theorem test_meets_TaskInstructions_taskq : ∀ p ∈ [(false, 0, 0), (true, 3, 0), (true, 0, 16), (true, 0, 15)],
    let s := appending p.1 p.2.1 p.2.2
    let q := s.queue 7
    plain s taskq ∧ s.remoteDone 1 = true ∧ (s.core 0).sb = [] ∧ s.marked 1 2 = true ∧ (wave s).cohort = 2 ∧ (wave s).late.any (·.reads) = false ∧
    s.readHeld (pa ((wave s).base 20)) 128 (some 1) = false ∧ ((wave s).src 5).toNat = 7 ∧ (wave s).base 20 % 128 = 0 ∧
    serves s 0 (s.waveAsid (wave s)) (s.waveWho (wave s)) ((wave s).base 20) 0 = true ∧ s.poisoned (pa ((wave s).base 20)) 128 = false ∧
    (q.enabled = p.1 ∧ q.world 7 = p.2.1) ∧ (p.2.1 = 0 → serves s 0 q.asid (q.who 7) q.ringVa 2 = true ∧ serves s 0 q.asid (q.who 7) (q.ringVa + 96) 0 = true ∧
      s.poisoned (pa q.ringVa) 8 = false ∧ s.poisoned (pa (q.ringVa + 96)) 8 = false ∧
      (q.slotCount 7 ≤ (s.read (pa q.ringVa) 8 + 2 ^ 64 - s.read (pa (q.ringVa + 96)) 8) % 2 ^ 64 ↔ p.2.2 = 16) ∧
      serves s 0 q.asid (q.who 7) (q.ringVa + 128 + 128 * (p.2.2 % q.slotCount 7)) 1 = true ∧ s.still = true) := by decide +kernel

theorem test_meets_TaskInstructions_tasksig :
    let i := Instr.tasksig (ef 20 22 0 0 0 3)
    let s := with_ i id id id
    plain s i ∧ s.remoteDone 1 = true ∧ (s.core 0).sb = [] ∧ s.marked 1 (wave s).cohort = true ∧ (wave s).base 22 % 8 = 0 ∧ at_ s ((wave s).base 22) 2 = true ∧ s.poisoned (pa ((wave s).base 22)) 8 = false ∧
    s.still = true ∧ (∀ x ∈ s.sched.tasks, x.stage ≠ .waiting) := by decide +kernel

/-- A descriptor (R337) of one wave of 32 lanes and 128 registers at 0x10000, with a priority and further fields. -/
def descr (prio extra : Nat) : Nat := 0x10000 + 2 ^ 198 + 2 ^ 205 * 16 + 2 ^ 276 * prio + extra

/-- Queue `n` of ASID 5 with HEAD and TAIL in its ring, its bell rung, and a descriptor in slot HEAD. -/
def ringing (n head tail : Nat) : State :=
  let s := served (queueDie n) 5 (tables false 0x1F idle)
  let s := ((s.store (pa 0x10400) 8 tail).store (pa 0x10440) 8 head).store (pa (0x10480 + 128 * (head % 16))) 128 (descr 0 0)
  let s := s.updQueue n fun q => { q with cfg := BitVec.ofNat 64 (1 + 2 ^ 16 * 5), ring := 0x10400, bell := true }
  { s with sched := { s.sched with en := true }, trust := { s.trust with stage := 3 } }

theorem test_meets_TaskAdmission_ring : ∀ p ∈ [(9, 2 ^ 63, 2 ^ 63), (9, 17, 18), (256, 0, 1)],
    let n := p.1
    let s := ringing n p.2.1 p.2.2
    let q := s.queue n
    let die := queueDie n
    let home := if n = 256 then 160 else 0
    let slot := q.ringVa + 128 + 128 * (p.2.1 % q.slotCount n)
    n ≤ 256 ∧ q.bell = true ∧ q.enabled = true ∧ s.schedules = true ∧ s.worldStopped (q.world n) = false ∧ s.sched.tasks.length < 4096 ∧
    serves s die q.asid (q.who n) q.ringVa 0 = true ∧ serves s die q.asid (q.who n) (q.ringVa + 64) 1 = true ∧ serves s die q.asid (q.who n) (q.ringVa + 64) 0 = true ∧
    s.poisoned (pa q.ringVa) 8 = false ∧ s.poisoned (pa (q.ringVa + 64)) 8 = false ∧ s.read (pa (q.ringVa + 64)) 8 = p.2.1 ∧ s.read (pa q.ringVa) 8 = p.2.2 ∧
    serves s die q.asid (q.who n) slot 0 = true ∧ s.poisoned (pa slot) 128 = false ∧ s.still = true ∧
    descMalformed (s.read (pa slot) 128) (q.world n) (n == 256) = false ∧ (needOf (s.read (pa slot) 128)).within (coreHas home) = true ∧
    overlaps (pa (q.ringVa + 64)) 8 ((s.die 0).ts.asbase.toNat / 65536 % 2 ^ 36 * 65536) 65536 = false ∧ s.dieServes 0 q.asid (q.world n) = true ∧
    descNdep (s.read (pa slot) 128) = 0 ∧ descNws (s.read (pa slot) 128) = 0 ∧ s.readOutOfTurn die = false ∧ s.task (s.ids + 1) = none := by decide +kernel

theorem test_meets_TaskAdmission_turns : (State.reset.queue 9).enabled = false ∧
    (let s := ringing 9 17 18
     ({ s with sched := { s.sched with lastRead := some (s.clock, 3) } } : State).readOutOfTurn (queueDie 9) = true) := by decide +kernel

/-- A task of queue 9 and ASID 5. -/
def task (id : Nat) (stage : Stage) (desc : Nat) : Task := { Task.arrived id 9 4 0x10480 desc 5 0 (100 + id) id 1000 0 with stage := stage }

/-- The tasks in the store of a working scheduler, at clock 3000, with the tables and the page of ASID 5. -/
def scheduling (ts : List Task) : State :=
  let s := served 1 5 (tables false 0x1F idle)
  { s with sched := { s.sched with en := true, tasks := ts }, trust := { s.trust with stage := 3 }, clock := 3000 }

/-- Storage of core 3 or 160 that is being cleared, until clock 50, for task 3. -/
def aClearing : Clearing :=
  { id := 4, regBytes := 0, waveSlots := [0], segBlocks := [], obUnits := 0, obBase := 0, accRows := 0, accBase := 0, planes := 0, ready := 50, task := 3 }

/-- An L2 range of 64 bytes at 0x10400, and a SCRATCH range of 256 bytes from 0x10400 to scratch 0x80 (R338). -/
def wsL2 : Nat := 0x10400 + 2 ^ 128 * 64
def wsScratch_ : Nat := 0x10400 + 2 ^ 128 * 256 + 2 ^ 160 + 2 ^ 164 * 0x80

theorem test_meets_TaskAdmission_tasks :
    (∀ v ∈ [5, 6], let x := { task 3 .waiting (descr 0 0) with deps := [0x10500 + 2 ^ 64 * 5] }
      let s := (scheduling [x]).store (pa 0x10500) 8 v
      s.task 3 = some x ∧ (0x10500 + 2 ^ 64 * 5) / 2 ^ 64 % 2 ^ 64 ≠ 0 ∧ serves s (queueDie x.queue) x.asid x.who ((0x10500 + 2 ^ 64 * 5) % 2 ^ 64) 0 = true ∧
      x.depsOk = [] ∧ s.poisoned (pa 0x10500) 8 = false ∧ s.snap.state ≠ 1 ∧ s.unlocked = true) ∧
    (∀ p ∈ [(5, 9, 0), (6, 256, 0), (5, 256, 20000)], let x := { task 3 .waiting (descr 0 0) with asid := p.1, queue := p.2.1 }
      let s := (scheduling [x]).updCore 160 fun c => { c with clearing := [{ aClearing with regBytes := p.2.2 }] }
      s.task 3 = some x ∧ s.eligible x = true ∧ s.worldStopped x.world = false ∧ s.served x = (p.1 == 5) ∧ s.fitHolds x = (p == (5, 9, 0))) ∧
    (∀ p ∈ [([], 0), ([wsL2], 0), ([wsL2], 1)], let x := { task 3 .waiting (descr 2 0) with wset := p.1 }
      let s := (scheduling [task 4 .waiting (descr 1 0), x, task 5 .waiting (descr 2 0)]).updL2 (homeDie placePa) fun l => { l with stgres := p.2 }
      s.task 3 = some x ∧ s.eligible x = true ∧ s.worldStopped x.world = false ∧ s.served x = true ∧ s.fitHolds x = true ∧ (∀ y ∈ s.sched.tasks, descPrio y.desc < descPrio x.desc ∨ descPrio y.desc = descPrio x.desc ∧ x.order ≤ y.order) ∧
      (s.l2Needs x).2 = s ∧ ((∀ h ∈ (s.l2Needs x).1, (s.die h.1).promised + h.2 ≤ s.reserve h.1) ↔ p ≠ ([wsL2], 0))) ∧
    ∀ clock ∈ [2999, 3000], let s := { scheduling [task 3 .staging (descr 0 0)] with clock := clock, sched := { (scheduling [task 3 .staging (descr 0 0)]).sched with stagelim := 0 } }
      s.task 3 = some (task 3 .staging (descr 0 0)) ∧ (1000 + 2000 * max 1 s.sched.stagelim ≤ s.clock ↔ clock = 3000) := by decide +kernel

/-- A staging copy of task 3 on a die. -/
def staging (cohort : Option Nat) (va len done die : Nat) (again : Bool) : Staging :=
  { id := 30, task := 3, cohort := cohort, range := 0, va := va, len := len, soff := 0x80, done := done, die := die, parked := false, demandClass := again }

def stages (x : Staging) (res : Nat) : State :=
  let s := (served x.die 5 (scheduling [task 3 .staging (descr 0 0)])).updL2 (homeDie placePa) fun l => { l with stgres := res }
  { s with sched := { s.sched with staging := [x] } }.updCohort 2 fun k => { k with scratchSize := 65536, empty := [1, 2], stagePend := [1, 2] }

theorem test_meets_StagingCopies :
    (∀ p ∈ [(0x10400, 128, 0, 0, 0, 0), (0x10420, 128, 32, 1, 1, 0), (0x1FFC0, 64, 0, 0, 4, 1)],
      let x := staging none p.1 p.2.1 p.2.2.1 p.2.2.2.2.2 false
      let s := stages x p.2.2.2.2.1
      let a := pa (x.va + x.done)
      s.sched.staging.find? (fun z => z.id == x.id) = some x ∧ (s.task 3).any (fun y => y.protects && !s.worldStopped y.world) = true ∧ s.stagingTurn x = true ∧
      x.done = (if p.2.2.2.1 = 0 then 0 else 64 * p.2.2.2.1 - x.va % 64) ∧ serves s x.die 5 (.world 0) (x.va + x.done) 0 = true ∧ homeDie a = 0 ∧
      (min 4 ((s.die (homeDie a)).l2.stgres % 8) ≤ s.protectedBeside a ↔ p.2.2.2.2.1 = 0) ∧ ∀ q ∈ (s.die x.die).l2.prot, q.1 ≠ a / 64) ∧
    (let x := staging none 0x10400 128 0 0 false
     let s := stages x 1
     ({ s with sched := { s.sched with staging := s.sched.staging ++ [{ staging (some 2) 0x10400 64 0 0 false with id := 31 }] } } : State).stagingTurn x = false) ∧
    (∀ p ∈ [(0x10400, 256, 0, 256), (0x10400, 256, 64, 64)], let x := staging (some 2) p.1 p.2.1 p.2.2.1 1 false
      let s := stages x 0
      (s.cohort 2).isSome ∧ s.stagingTurn x = true ∧ s.unlocked = true ∧ x.parked = false ∧ 0 < min (min p.2.2.2 (x.len - x.done)) (65536 - (x.va + x.done) % 65536) ∧ serves s 1 5 (.world 0) (x.va + x.done) 0 = true ∧
      s.poisoned (pa (x.va + x.done)) 256 = false ∧ s.snap.state ≠ 1) ∧
    ∀ again ∈ [false, true], let x := staging (some 2) (2 ^ 60) 256 0 1 again
      (stages x 0).stagingTurn x = true ∧ canonical ((x.va + x.done) % 2 ^ 64) = false ∧ ((stages x 0).cohort 2).isSome ∧ 0 < min (min 64 (x.len - x.done)) (65536 - (x.va + x.done) % 2 ^ 64 % 65536) := by decide +kernel

/-- A core with SCRATCH segments for placement. -/
def scratchCore (n : Nat) (s : State) : State := s.updCore n fun x => { x with segs := (List.range 2).map fun j => (j, { Segment.reset with role := .scratch }) }

theorem test_meets_Placement_place : ∀ p ∈ [(descr 0 0, 5, [5], 0), (descr 0 (2 ^ 128), 5, [5], 0), (descr 0 (2 ^ 197 + 2 ^ 198 + 2 ^ 224 * 200000), 6, [6, 7], 0)],
    let x := { task 3 .ready p.1 with wset := if p.1 = descr 0 0 then [wsScratch_] else [] }
    let s := scratchCore 6 (scratchCore 7 (scheduling [x]))
    s.task 3 = some x ∧ s.canPlace x p.2.1 = some p.2.2.1 ∧ x.saved = [] ∧ s.served x = true ∧ (s.nextCohort x).1 = some p.2.2.2 ∧
    (s.nextCohort x).2 = s := by decide +kernel

/-- The die is chosen by the source's home, of the dies that fit: die 0 alone serves ASID 5. -/
theorem test_meets_Placement_die : let x := { task 3 .ready (descr 0 0) with wset := [wsScratch_] }
    let s := scheduling [x]
    (s.chosenDie x 0).1 = some 0 ∧ (s.chosenDie x 0).2 = s ∧ dieOf 5 = 0 := by decide +kernel

theorem test_meets_Placement_unserved : let x := { task 3 .placing (descr 0 0) with asid := 6 }
    (scheduling [x]).task 3 = some x ∧ (scheduling [x]).served x = false := by decide +kernel

/-- Cohort 2 belongs to task 3, with `ended` of its waves ended. -/
def retiring (desc : Nat) (ended : List Nat) : State :=
  (served 1 5 (scheduling [task 3 .running desc])).updCohort 2 fun k => { k with task := 3, nwaves := 1, waves := [1], ended := ended }

theorem test_meets_Placement_retire : ∀ p ∈ [(descr 0 0, []), (descr 0 (2 ^ 128), [1]), (descr 0 0, [1]), (descr 0 (2 ^ 448 * 0x10500 + 2 ^ 512 * 9), [1])],
    let s := retiring p.1 p.2
    let x := task 3 .running p.1
    let tl := x.desc / 2 ^ 448 % 2 ^ 64
    (s.cohort 2).any (fun k => k.task == 3 && k.nwaves == 1 && k.ended == p.2) = true ∧ s.task 3 = some x ∧ x.saved = [] ∧ (s.queue x.queue).slots = [] ∧ tl % 16 = 0 ∧
    (tl ≠ 0 → serves s (queueDie x.queue) x.asid x.who ((tl + 8) % 2 ^ 64) 1 = true ∧ serves s (queueDie x.queue) x.asid x.who tl 1 = true ∧ s.still = true) := by decide +kernel

/-- A cohort of a cancelled task, while its wave's store drains and when it has drained; one of a task that is being saved. -/
theorem test_meets_Placement_cancelled :
    (∀ left ∈ [false, true], let s0 := (scheduling [task 3 .cancelled (descr 0 0)]).updCohort 2 fun k => { k with task := 3, nwaves := 1, waves := [1], ended := [] }
      let s := { (if left then buffered s0 else s0) with waves := [] }
      (s.task 3).map (·.stage) = some .cancelled ∧ (s.cohort 2).any (fun k => s.cohortOver 2 k == !left && !s.storageHeld 2 k) = true) ∧
    (let s := ((retiring (descr 0 (2 ^ 128)) [1]).updTask 3 fun y => { y with saving := true })
     (s.task 3).any (fun y => y.saving && decide (y.retired + 1 < descTotal y.desc) && decide (y.stage ≠ .cancelled)) = true ∧
      (s.cohort 2).any (fun k => decide (k.nwaves ≤ k.ended.length)) = true ∧ (∀ k ∈ s.cohorts, k.2.task = 3 → k.1 = 2) ∧ s.sched.copies = []) ∧
    (let s := retiring (descr 0 0) [1]
     let t := { s with sched := { s.sched with copies := [command 0 (tileRecord true) [] []] } }
     ∃ y ∈ t.sched.copies, y.cohort = 2 ∧ y.usesScratch = true) := by decide +kernel

theorem test_meets_Placement_storage :
    (let s := (scheduling [task 3 .cancelled (descr 0 0)]).updCore 3 fun c => { c with clearing := [aClearing] }
     let t := { s with cohorts := [] }
     (s.core 3).clearing.find? (fun y => y.id == 4) = some aClearing ∧ { s with clock := 49 }.clock < aClearing.ready ∧ aClearing.ready ≤ s.clock ∧
       ((scheduling [task 3 .running (descr 0 0)]).task 3).map (·.stage) = some .running ∧
       t.task 3 = some (task 3 .cancelled (descr 0 0)) ∧ (∀ c ∈ t.cohorts, c.2.task ≠ 3) ∧ t.cores.Pairwise (fun a b => a.1 < b.1) ∧
       (∀ c ∈ t.cores, ∀ z ∈ c.2.clearing, z.task = 3 → c.1 = 3 ∧ z.id = 4) ∧ descr 0 0 / 2 ^ 448 % 2 ^ 64 = 0) ∧
    (∀ p ∈ [((.cache : Role), (.scratch : Role)), (.off, .fifo), (.scratch, .off), (.fifo, .cache)],
      let s := State.reset.updCore 3 fun c => { c with segs := [(15, { Segment.reset with role := p.1 })] }
      let g := mapGet Segment.reset (s.core 3).segs 15
      g.role = p.1 ∧ g.next = none ∧ g.clearing = false ∧ p.1 ≠ p.2 ∧ (p.1 = .scratch ∨ p.1 = .fifo → g.blocks = [] ∧ (p.2 = .cache ∨ p.2 = .off))) ∧
    (let s := State.reset.updCore 3 fun c => { c with segs := [(15, { Segment.reset with next := some .scratch, ready := 2000 })] }
     (mapGet Segment.reset ((s.updCore 3 fun c => { c with segs := [(15, { Segment.reset with next := some .scratch, converted := true })] }).core 3).segs 15).converted = true ∧
       (mapGet Segment.reset (s.core 3).segs 15).next = some .scratch ∧ (mapGet Segment.reset (s.core 3).segs 15).blocks = [] ∧
       s.clock < (mapGet Segment.reset (s.core 3).segs 15).ready) := by decide +kernel

/-- Task 4 is to make room for task 3; cohort 2 belongs to it, and the save pool of die 0 has `pool` pages. -/
def preempting (pool : Nat) (prio : Nat) : State :=
  let s := scheduling [{ task 3 .waiting (descr prio 0) with fitHeld := some 1000 }, { task 4 .running (descr 1 0) with world := 1 }]
  let s := { s with sched := { s.sched with preempt := true, preemptlim := 1 } }.updDie 0 fun d => { d with cspool := BitVec.ofNat 64 (pool + 2 ^ 32 * 512) }
  ((s.updCohort 2 fun k => { k with task := 4, nwaves := 1, waves := [1], ended := [] }).updWave 1 fun w => { w with wait := .yielded })

theorem test_meets_Preemption_preempt :
    (∀ p ∈ [(200000, false), (200001, true)], let s := { waits (fun w => { w with wait := .scratchLine [3] }) with clock := p.1 }
      s.beingSaved (wave s) = false ∧ (wave s).counts100 (s.cohort (wave s).cohort) = true ∧ (wave s).waitSince = 0 ∧ (wave s).preemptible = false) ∧
    (∀ p ∈ [(0, 2), (8, 1), (8, 2)], let s := preempting p.1 p.2
      s.sched.preempt = true ∧ 1000 + 2000 * s.sched.preemptlim ≤ s.clock ∧ s.cohortsOf 4 = [2] ∧ s.poolRoom 4 = decide (p.1 = 8) ∧ (s.cohort 2).map (·.task) = some 4) ∧
    (let s := preempting 8 2
     let v := { task 4 .running (descr 1 0) with world := 1 }
     let s1 := ({ s with sched := { s.sched with staging := s.sched.staging.filter fun y => y.task != 4 } }.endProtection v).updTask 4 fun y => { y with saving := true }
     (s1.saveCohort 2).isSome = true) := by decide +kernel

/-- A saved cohort of one wave of a world; its image's page is empty. -/
def saved (world : Nat) : Saved :=
  { id := 2, cohort := { (idle.cohort 2).getD (Cohort.blank 3 0 0 5 0) with task := 3, world := world, nwaves := 1, waves := [1], ended := [] }, waves := [(1, wave idle)], die := 0, pages := [placePa + 0x50000],
    bytes := 20000, count := 1 }

theorem test_meets_Preemption_restore : ∀ world ∈ [0, 2],
    let x := { task 3 .ready (descr 0 0) with saved := [saved world] }
    let s := { scheduling [x] with waves := [] }
    s.sched.tasks.find? (fun t => t.saved.any fun z => z.id == 2) = some x ∧ x.saved.find? (fun z => z.id == 2) = some (saved world) ∧ s.canPlace x 5 = some [5] ∧ s.task 3 = some x ∧
    (s.nextCohort x).1 = some (saved world).cohort.index ∧ (s.nextCohort x).2 = s ∧ (s.chosenDie x (saved world).cohort.index).1 = some (dieOf 5) ∧
    (s.chosenDie x (saved world).cohort.index).2 = s ∧ s.imageVerifies (saved world) x.disp = (world == 0) ∧ (∀ w ∈ (saved world).waves ++ s.waves, w.2.pend = none ∧ ∀ l ∈ w.2.late, l.kind ≠ .future) := by decide +kernel

/-- A wave that waits for the answer to a machine-check record, or for room for one. -/
def checking (x : Wait) (full : Bool) : State :=
  (waits fun w => { w with wait := x, tr := { w.tr with tba := 0x10000 } }).updDie 0 fun d => { d with
    mc := { d.mc with base := BitVec.ofNat 64 (placePa + 0x40000), head := 63, tail := if full then 63 else 0, count := if full then 64 else 63, tokens := [(4, 1)], waiting := [1, 7] } }

theorem test_meets_Preemption_checks :
    (let s := scheduling [task 3 .running (descr 0 0), { task 4 .running (descr 0 0) with world := 2 }]
     (s.sched.tasks.find? (fun t => t.disp == 103)).map (·.world) = some 0 ∧ (s.sched.tasks.find? (fun t => t.disp == 104)).map (·.world) = some 2) ∧
    (let s := checking (.machineCheck 0 4) false
     (s.die 0).mc.tokens.find? (fun t => t.1 == 5) = none ∧ (s.die 0).mc.tokens.find? (fun t => t.1 == 4) = some (4, 1) ∧ (wave s).wait = .machineCheck 0 4 ∧
       (wave s).prog.y = 0 ∧ (wave s).late = [] ∧ (wave s).tr.handler = false ∧ (wave s).tr.tba ≠ 0 ∧ (s.agentDispatch (.wave 1 false)).isSome ∧ (s.sched.tasks.map (·.id)).Nodup) ∧
    ∀ full ∈ [false, true], let s := checking (.machineCheckQueue 0) full
      (s.die 0).mc.waiting = 1 :: [7] ∧ (wave s).wait = .machineCheckQueue 0 ∧ queueFull (s.die 0).mc.base (s.die 0).mc.count = full ∧ s.still = true := by decide +kernel

/-! #### Boot, attestation and worlds -/

/-- A header with the magic, a kind, an SVN of 2, a body's length and SHA-256, and a key (log 36). -/
def bootHeader (kind key : Nat) (body : List Byte) : List Byte :=
  natLe 4 imageMagicWord ++ natLe 4 kind ++ natLe 4 2 ++ natLe 4 body.length ++ sha256 body ++ natLe 16 key

/-- An image of 32 bytes of body, signed (as far as the model can tell) with key 3. -/
def image (kind : Nat) : BootImage :=
  let body := List.replicate 32 (BitVec.ofNat 8 kind)
  { header := bootHeader kind 3 body, signature := List.replicate 7856 0, publicKey := List.replicate 32 7, body := body }

/-- A package whose fuse 3 holds the key's digest, with SVN fuses that the images meet. -/
def fused : State :=
  { State.reset with trust := { State.reset.trust with fuseKeys := [(3, BitVec.ofNat 256 (leNat (sha256 (List.replicate 32 7))))], fuseSvn := [(1, 2)] } }

/-- Six copies of an image pass all that is not the signature scheme's own; where their signatures verify, the boot's hypotheses are met. -/
theorem test_meets_Boot_verified : (∀ k ∈ [1], imageFormed (image k) = true ∧
      sha256 (image k).publicKey = natLe 32 (mapGet 0 fused.trust.fuseKeys (imageKey (image k))).toNat ∧ ¬imageSvn (image k) < mapGet 0 fused.trust.fuseSvn (imageKind (image k))) ∧
    fused.trust.selfTest = true ∧ (List.replicate 6 (image 1)).length = 6 := by decide +kernel

theorem test_meets_Boot_signature (h : Config.slhVerify (image 1).publicKey (image 1).signature (0 :: 0 :: (image 1).header) = true) :
    ∀ i ∈ List.replicate 6 (image 1), fused.imageError i = 0 := by
  intro i hi
  have h1 := test_meets_Boot_verified.1 1 (by simp)
  rw [List.eq_of_mem_replicate hi]
  simp only [State.imageError, State.imageSigned, h1.1, h1.2.1, h]
  simp [h1.2.2]

/-- Bytes one after the other from an address, in canonical form. -/
def listed (a : Nat) : List Byte → List (Nat × Byte)
  | [] => []
  | b :: l => if b = 0 then listed (a + 1) l else (a, b) :: listed (a + 1) l

theorem listed_get (l : List Byte) (a x : Nat) (d : Byte) (h : d = 0) : mapGet d (listed a l) x = if a ≤ x then l.getD (x - a) 0 else 0 := by
  subst h
  induction l generalizing a with
  | nil => simp [listed, mapGet]
  | cons b l ih =>
    have hx : a + 1 ≤ x → (b :: l).getD (x - a) 0 = l.getD (x - (a + 1)) 0 := fun h => by
      rw [show x - a = x - (a + 1) + 1 by omega, List.getD_cons_succ]
    unfold listed
    split
    · rename_i hb
      rw [ih]; split
      · rw [if_pos (by omega), hx ‹_›]
      · split
        · rw [show x - a = 0 by omega]; simp [hb]
        · rfl
    · rw [mapGet]; split
      · rw [if_pos (by omega), show x - a = 0 by omega]; simp
      · split
        · rw [if_neg (by omega)]
        · rw [ih, if_pos (by omega), if_pos (by omega), hx (by omega)]

theorem listed_held (s : State) (i : BootImage) (pa : Nat) (hp : pa + i.header.length + i.signature.length + i.publicKey.length + i.body.length ≤ ownerBase) (h : s.mem = listed pa (i.header ++ i.signature ++ i.publicKey ++ i.body)) :
    s.holdsImage pa i = true := by
  simp only [State.holdsImage, beq_iff_eq, State.bytes, State.byte, h]
  generalize hl : i.header ++ i.signature ++ i.publicKey ++ i.body = l
  have hn : pa + l.length ≤ ownerBase := by simp [← hl]; omega
  refine List.ext_getElem (by simp) fun n h1 h2 => ?_
  have hm : memReset (pa + n) = 0 := by
    have : inOwnerTable (pa + n) = false := by simp [inOwnerTable]; omega
    simp [memReset, this]
  rw [List.getElem_map, List.getElem_range, listed_get _ _ _ _ hm, if_pos (by omega), Nat.add_sub_cancel_left, List.getD_eq_getElem _ _ h2]

/-- The halted package with an image at TRRECOV. -/
def halted (retry : Bool) (i : BootImage) (pa : Nat) : State :=
  { fused with mem := listed pa (i.header ++ i.signature ++ i.publicKey ++ i.body), trust := { fused.trust with stage := 15, retry := retry, recov := BitVec.ofNat 64 pa } }

theorem test_meets_Boot_held : (image 1).header.length = 64 ∧ (halted true (image 1) 0x40000).holdsImage 0x40000 (image 1) = true :=
  ⟨by decide +kernel, listed_held _ _ _ (by decide +kernel) rfl⟩

theorem test_meets_Boot_retry : ∀ r ∈ [false, true], let x := (halted r (image 1) 0x40000).trust
    x.stage = 15 ∧ x.retry = r ∧ x.recov.toNat = 0x40000 ∧ x.selfTest = true ∧ x.fuseKeys = fused.trust.fuseKeys ∧ x.fuseSvn = fused.trust.fuseSvn := by
  decide +kernel

theorem test_meets_Boot_others :
    (fused.imageError { image 0 with body := [] } = 3) ∧ ({ fused with trust := { fused.trust with selfTest := false } }.trust.selfTest = false) ∧
    ({ fused with trust := { fused.trust with stage := 15 } }.trust.stage = 15 ∧ fused.trust.stage ≠ 15) ∧
    (fused.sched.tasks.map (·.id)).Nodup ∧ ((fused.queue 256).enabled = false ∧ ((fused.updQueue 256 fun q => { q with cfg := 1 }).queue 256).enabled = true) := by decide +kernel

/-- The responder with a request in RQ (at 0x100000; RS at 0x200000), in a stage and a connection state. -/
def asked (stage conn : Nat) (challenged : Bool) (request : List Nat) : State :=
  let doe := { Doe.reset with len := request.length, taken := request.length, valid := true, busy := true, placed := true, qb := 0x100000, sb := 0x200000, conn := conn, challenged := challenged, chain := [1, 2, 3, 4, 5], transcript := [9, 8], vca := 1 }
  { State.reset with mem := (State.reset.setBytes 0x100000 (request.map (BitVec.ofNat 8))).mem, trust := { Trust.reset with stage := stage }, doe := doe }

theorem asked_replies (stage conn : Nat) (ch : Bool) (request : List Nat) (h : (asked stage conn ch request).still = true) : (asked stage conn ch request).replies := by
  refine ⟨rfl, rfl, rfl, rfl, h, fun n hn => ?_⟩
  have : (asked stage conn ch request).doe.rs = 0x200000 := by show fld (0x200000 : DWord).toNat 51 12 * 4096 = 0x200000; decide
  have hq : (asked stage conn ch request).doe.rq = 0x100000 := by show fld (0x100000 : DWord).toNat 51 12 * 4096 = 0x100000; decide
  rw [this, hq]
  have hl : ∀ a, a < 0x300000 → (asked stage conn ch request).isDevice a = true := fun a ha => by
    have : a < (asked stage conn ch request).lpddr := Nat.lt_of_lt_of_le ha (show 0x300000 ≤ 512 * 2 ^ 30 by decide)
    simp [State.isDevice, this]
  simp only [State.backedMem, hl 0x200000 (by decide), hl (0x200000 + n - 1) (by omega), hl 0x100000 (by decide), hl (0x100000 + n - 1) (by omega)]
  simp

/-- A request of 48 bytes beginning with `l`. -/
def req (l : List Nat) : List Nat := l ++ List.replicate (48 - l.length) 0

/-- Stage, connection, request: every request in a state that takes it, and those that are refused. -/
def requests : List (Nat × Nat × List Nat) :=
  [(3, 0, req [0x10, 0x84]), (3, 1, req [0x13, 0xE1]), (3, 2, req [0x13, 0xE3]), (3, 3, req [0x13, 0x81]), (3, 4, req [0x13, 0x81]), (3, 3, req [0x13, 0x82, 0, 0, 4, 0, 16]),
   (3, 4, req [0x13, 0x82, 0, 0, 5]), (3, 4, req [0x13, 0x82, 1]), (3, 4, req [0x13, 0x83, 0, 0]), (3, 4, req [0x13, 0x83, 0, 1]), (3, 4, req [0x13, 0x83, 0, 255]), (3, 4, req [0x13, 0x83, 0, 2]),
   (3, 4, req [0x13, 0xE0, 1, 0]), (3, 4, req [0x13, 0xE0, 1, 16]), (3, 4, req [0x13, 0xE0, 1, 255]), (3, 4, req [0x13, 0xE0, 1, 17]), (3, 4, req [0x13, 0xE0, 0, 1]),
   (3, 0, req [0x12, 0xE1]), (3, 0, req [0x13, 0xE1]), (15, 0, req [0x13, 0x84]), (3, 0, req [0x13, 0xFE]), (15, 0, req [0x13, 0xFE])]

theorem test_meets_Attestation_requests : ∀ p ∈ requests, (asked p.1 p.2.1 false p.2.2).replies := by
  intro p hp
  have h : ∀ p ∈ requests, (asked p.1 p.2.1 false p.2.2).still = true := by decide +kernel
  exact asked_replies _ _ _ _ (h p hp)

theorem test_meets_Attestation_fields : ∀ p ∈ requests, let s := asked p.1 p.2.1 false p.2.2
    s.answers = true ∧ s.trust.stage = p.1 ∧ s.doe.conn = p.2.1 ∧ s.request = p.2.2.map (BitVec.ofNat 8) ∧ s.rqByte 0 = nth 0 p.2.2 0 ∧ s.rqByte 1 = nth 0 p.2.2 1 ∧
    s.rqByte 3 = nth 0 p.2.2 3 ∧ leNat (s.rqBytes 4 2) = nth 0 p.2.2 4 ∧ s.isVendor = false := by decide +kernel

theorem test_meets_Attestation_mailbox :
    (∀ b ∈ [false, true], ({ State.reset with doe := { State.reset.doe with busy := b } } : State).doe.busy = b) ∧
    State.reset.backedMem State.reset.doe.rq 64 = true ∧ State.reset.backedMem ({ State.reset with doe := { State.reset.doe with qb := 0x30000000000 } } : State).doe.rq 64 = false ∧
    State.reset.still = true ∧ State.reset.doe.waiting = [] ∧ State.reset.trust.extensions = [] ∧ State.reset.backedMem State.reset.doe.rs 16384 = true := by decide +kernel

/-- A vendor-defined request of registry 3. -/
def vendor : List Nat := req [0x13, 0xFE, 0, 0, 3, 0]

theorem test_meets_InterfaceRequests_replies : ∀ ch ∈ [false, true], (asked 3 4 ch vendor).replies := by
  intro ch hc
  have h : ∀ ch ∈ [false, true], (asked 3 4 ch vendor).still = true := by decide +kernel
  exact asked_replies _ _ _ _ (h ch hc)

/-- Interface 63 in a state, with `bound` worlds. -/
def bound (i : IfaceState) (n : Nat) (s : State) : State :=
  let ifaces := if i = .unlocked then [] else [(63, i)]
  let worlds := (List.range n).map fun k => (k + 2, { World.reset with state := 1, iface := 63, key := 5 })
  { s with trust := { s.trust with ifaces := ifaces, worlds := worlds } }

theorem test_meets_InterfaceRequests :
    (∀ ch ∈ [false, true], let s := asked 3 4 ch vendor
      s.still = true ∧ s.answers = true ∧ s.doe.challenged = ch ∧ s.trust.stage = 3 ∧ s.rqByte 0 = 0x13 ∧ s.isVendor = true) ∧
    (∀ i ∈ [IfaceState.unlocked, .locked, .run, .error], (bound i 1 (asked 3 4 true vendor)).iface 63 = i ∧ mapFind (bound i 1 (asked 3 4 true vendor)).trust.resets 63 = none) ∧
    (let s := bound .unlocked 3 (asked 3 4 true vendor)
     s.iface 63 = .unlocked ∧ mapFind s.trust.resets 63 = none ∧ s.freeWorld = some 5 ∧ (s.boundWorlds 63).length < 4) ∧
    (let s := bound .run 2 (asked 3 4 true vendor)
     s.iface 63 ≠ .unlocked ∧ mapFind s.trust.resets 63 = none ∧ s.boundWorlds 63 = [2, 3]) := by decide +kernel

/-- The reset of interface 63 at a stage of R414's sequence. -/
def resetting (k : Nat) : State :=
  let s := bound .run 2 (idle.setOwner placePa { world := 2, state := 0, shared := false, version := 4 })
  { s with trust := { s.trust with resets := [(63, k)] } }

/-- The page of the placed word, owned by a world. -/
def owned (world state : Nat) : State := idle.setOwner placePa { world := world, state := state, shared := false, version := 4 }

theorem test_meets_WorldsAndPages :
    (∀ n ∈ [3, 4], let s := bound .locked n { State.reset with trust := { State.reset.trust with stage := 3 } }
      s.trust.stage = 3 ∧ s.iface 63 = .locked ∧ mapFind s.trust.resets 63 = none ∧ s.freeWorld.isSome ∧ s.doe.busy = false ∧ s.doe.valid = false ∧ s.trust.extensions = [] ∧ (s.boundWorlds 63).length = n) ∧
    (State.reset.iface 63 = .unlocked ∧ State.reset.boundWorlds 63 = [] ∧ mapFind State.reset.trust.resets 63 = none) ∧
    (∀ k ∈ [1, 2, 3, 4, 5], mapFind (resetting k).trust.resets 63 = some k ∧ (resetting k).boundWorlds 63 = [2, 3] ∧ ((resetting k).sched.tasks.map (·.id)).Nodup ∧
      (resetting k).still = true ∧ memWf (resetting k).mem = true ∧ ((resetting k).owner placePa).world = 2 ∧
      ∀ x ∈ (resetting k).sched.tasks, x.world ∉ (resetting k).boundWorlds 63) ∧
    (idle.isDevice placePa = true ∧ placePa / 65536 * 65536 = placePa ∧ (∀ p ∈ [(2, 0), (2, 1), (0, 2), (1, 0)], ((owned p.1 p.2).owner placePa).world = p.1 ∧ ((owned p.1 p.2).owner placePa).state = p.2) ∧
      memWf (owned 0 2).mem = true ∧ (owned 0 2).still = true ∧ inOwnerTable placePa = false ∧ inOwnerTable 0x20FDC000000 = true ∧ idle.isDevice 0x8000000000000 = false) ∧
    (let x : Token := { num := 2, asid := 0, page := 1, access := 1, fault := { va := 0x10100, kind := 9, access := 1, level := 3 }, agents := [.wave 1 false] }
     let s := ((owned 2 1).updTs 0 fun ts => { ts with tokens := [x] }).updWave 1 fun w => { w with wait := .fault 0 2 }
     (s.die 0).ts.tokens.find? (fun x => x.num == 2) = some x ∧ s.stillParked 0 2 (.wave 1 false) = true ∧ (s.agentDispatch (.wave 1 false)).isSome ∧
       (s.sched.tasks.map (·.id)).Nodup) := by decide +kernel

/-- A blob that comes back as it was evicted. -/
theorem test_meets_WorldsAndPages_blob : let o := (owned 2 1).owner placePa
    let key := ((owned 2 1).world o.world).key
    let iv := ownerIndex placePa % 2 ^ 32 + 2 ^ 32 * 4
    let b : Blob := { cipher := [1], tag := fitBytes 16 (Config.gcmTag key iv [] [1]), version := 4 }
    b.version = o.version ∧ b.tag = fitBytes 16 (Config.gcmTag key (ownerIndex placePa % 2 ^ 32 + 2 ^ 32 * b.version) [] b.cipher) := by
  refine ⟨by decide +kernel, rfl⟩

theorem test_meets_HostPortsPower :
    (∀ p ∈ [(false, 1), (true, 0), (true, 1)], let s := { owned p.2 0 with power := { (owned p.2 0).power with cxl := p.1 } }
      s.power.cxl = p.1 ∧ isMmio placePa = false ∧ s.isDevice placePa = true ∧ s.isDevice (placePa + 8 - 1) = true ∧ s.hostPasses placePa 8 none = (p.2 == 1) ∧ s.snap.state ≠ 1 ∧ s.still = true) ∧
    (∀ stage ∈ [0, 3], ({ State.reset with trust := { State.reset.trust with stage := stage } } : State).trust.stage = stage) ∧
    (∀ fails ∈ [0, 2], let s := State.reset.updFabric fun f => { f with ports := [(15, { Port.reset with up := true, fails := fails })] }
      (mapGet Port.reset s.fabric.ports 15).up = true ∧ (mapGet Port.reset s.fabric.ports 15).fails = fails) ∧
    (∀ t ∈ [104, 105], ({ State.reset with power := { State.reset.power with temp := t } } : State).power.temp = t) ∧
    (∀ t ∈ [86399999999999, 86400000000000], ({ State.reset with power := { State.reset.power with opNs := t } } : State).power.opNs = t) := by decide +kernel

/-! #### Turns and cancels that come too late -/

/-- R419: after a record of the host chain the drain chain has the turn, where it can use it; R344: the staging of a die takes turns with
its drain. -/
theorem test_meets_turns :
    let host : Chain := { cur := pa 0x10200, done := 0, parked := false, trapped := false, host := true }
    let both : Channel := { Channel.reset with host := some host, drain := some { host with host := false } }
    ((({ both with last := some false } : Channel).turn false = false ∧ ({ both with last := some false } : Channel).turn true = true) ∧
      both.turn false = true ∧ ({ Channel.reset with host := some host } : Channel).turn false = true) ∧
    (∀ asid ∈ [0, 1], let s := draining asid
      s.trust.stage = 3 ∧ s.groupTurn 0 true = true ∧ (s.channel 0 0).turn true = true ∧ (s.channel 0 0).drain.any (fun k => !k.parked && !k.trapped && k.rec_.isNone) = true) ∧
    (let s := { draining 0 with sched := { (draining 0).sched with staging := [staging none 0x10400 128 0 0 false], tasks := [task 3 .staging (descr 0 0)] } }
     let t := { s.noteTurn 0 false with clock := s.clock + 1 }
     let d := { s.noteTurn 0 true with clock := s.clock + 1 }
     t.groupTurn 0 false = false ∧ t.groupTurn 0 true = true ∧ d.groupTurn 0 true = false) := by decide +kernel

/-- R340: the last cohort's last wave has ended, and its task is cancelled too late; with a wave that runs it is not. -/
theorem test_meets_tooLate : ∀ ended ∈ [[], [1]],
    let s := retiring (descr 0 0) ended
    let t := s.updTask 3 fun x => { x with queue := 256, world := 2 }
    (∀ x ∈ s.sched.tasks, x.queue = 9 ∧ x.disp = 103 ∧ s.tooLate x = !ended.isEmpty) ∧ s.sched.tasks ≠ [] ∧ (s.sched.tasks.map (·.id)).Nodup ∧
    (∀ x ∈ t.sched.tasks, x.queue = 256 ∧ x.world = 2 ∧ t.tooLate x = !ended.isEmpty) ∧ t.sched.tasks ≠ [] := by decide +kernel

/-- The fabric's walks that a statement asks to change nothing, and a record of a channel that waits for its peer. -/
theorem test_meets_fabric_quiet :
    (let s := reducing true [] []
     let win := s.window 7
     s.redWalk win 0 = s) ∧
    (let far := operation 3 true
     let l : Landing := { tx := txBlank, count := 1 }
     let s := ((far.store (placePa + 0xE000) 32 3).updPower fun x => { x with ethpeer := BitVec.ofNat 64 (placePa + 0xE000) }).updFabric fun f =>
       { f with ops := f.ops.map fun o => { o with landing := some l } }
     s.peerValid 0 = true ∧ (s.remoteOp 70).any (fun o => o.foreign && o.landing == some l && o.peer == 0) = true) ∧
    (∀ cause ∈ [0, 5], let k : Chain := { cur := pa 0x10200, done := 8, parked := false, trapped := false, host := true, rec_ := some (linkRecord true 8 0), sent := true }
      let s := (chained true 8 0).updDie 2 fun d => { d with channels := [(3, { Channel.reset with host := some k })] }
      (s.channel 2 3).host = some k ∧ (linkOf (linkRecord true 8 0)).len ≤ k.done ∧ s.still = true ∧ cause < 16) ∧
    (let t := trigger false false 0 0
     (armed t).admits (.world t.world) t.sbPa = true ∧ (armed t).unlocked = true ∧ (armed t).snap.marks = []) := by decide +kernel

/-- R415, R423: an offset of a register, one of the DOE block and one past BAR0; a plan for two cores and one that names a core twice. -/
theorem test_meets_HostPortsPower_bar :
    (isMmio 0x30000050000 = true ∧ isDoe 0x30000050000 = false ∧ isDoe 0x30000130010 = true ∧ isMmio 0x30000130010 = true ∧ isMmio 0x30004000000 = false) ∧
    planOk [{ core := 0, guard := 20, mhz := 1900 }, { core := 643, guard := 0, mhz := 2000 }] = true ∧
    planOk [{ core := 0, guard := 20, mhz := 1900 }, { core := 0, guard := 0, mhz := 2000 }] = false := by decide +kernel

/-- Agents that write registers, and a die for each. -/
theorem test_meets_Registers : ∀ p ∈ [(RegAgent.host, 0), (.trust, 3), (.wave 0, 1)], p.2 < 4 ∧ (match p.1 with | .wave n => n == 0 | _ => true) = true := by decide

/-! ### Meanings

Worked examples of the spec, and results worked by hand from its rules. -/

/-- Register `r` of the wave after instruction `i`, once registers have been set. -/
def result (i : Instr) (f : Wave → Wave) (r : Nat) : Option Word :=
  match exec i (with_ i f id id) with
  | .next t => (t.wave 1).map fun w => w.s r
  | _ => none

/-- R181, R224: the sum mod 2^32, the high half of a signed product, a signed quotient by 0 and a remainder with the dividend's sign. -/
theorem test_scalar_arithmetic :
    result (.sadd { d := 6, a := 5, b := 4, fn := 0, ty := 0, imm := 0 }) (fun w => (w.setS 5 0xFFFFFFFF).setS 4 2) 6 = some 1 ∧
    result (.ssub { d := 6, a := 5, b := 4, fn := 0, ty := 0, imm := 0 }) (fun w => (w.setS 5 1).setS 4 2) 6 = some 0xFFFFFFFF ∧
    result (.smulh { d := 6, a := 5, b := 4, fn := 0, ty := 0, imm := 0 }) (fun w => (w.setS 5 0xFFFFFFFE).setS 4 3) 6 = some 0xFFFFFFFF ∧
    result (.smulh { d := 6, a := 5, b := 4, fn := 0, ty := 1, imm := 0 }) (fun w => (w.setS 5 0xFFFFFFFE).setS 4 3) 6 = some 2 ∧
    result (.sdiv { d := 6, a := 5, b := 4, fn := 0, ty := 0, imm := 0 }) (fun w => (w.setS 5 7).setS 4 0) 6 = some 0xFFFFFFFF ∧
    result (.srem { d := 6, a := 5, b := 4, fn := 0, ty := 0, imm := 0 }) (fun w => (w.setS 5 0xFFFFFFF9).setS 4 2) 6 = some 0xFFFFFFFF := by decide +kernel

/-- R181: a shift amount counts modulo 32; an arithmetic shift copies the sign. -/
theorem test_scalar_shifts :
    result (.sshl { d := 6, a := 5, b := 4, fn := 0, ty := 0, imm := 0 }) (fun w => (w.setS 5 3).setS 4 33) 6 = some 6 ∧
    result (.sshr { d := 6, a := 5, b := 4, fn := 0, ty := 0, imm := 0 }) (fun w => (w.setS 5 0x80000000).setS 4 31) 6 = some 1 ∧
    result (.ssha { d := 6, a := 5, b := 4, fn := 0, ty := 0, imm := 0 }) (fun w => (w.setS 5 0x80000000).setS 4 31) 6 = some 0xFFFFFFFF := by decide +kernel

/-- R227's example: SBFE of 0xDEADBEEF. -/
theorem test_scalar_fields :
    result (.sbfe { d := 6, a := 5, b := 4, fn := 0, ty := 0, imm := 0 }) (fun w => (w.setS 5 0xDEADBEEF).setS 4 0x80C) 6 = some 0xFFFFFFDB ∧
    result (.sbfe { d := 6, a := 5, b := 4, fn := 0, ty := 0, imm := 0 }) (fun w => (w.setS 5 0xDEADBEEF).setS 4 0x81C) 6 = some 0xFFFFFFFD ∧
    result (.sbfe { d := 6, a := 5, b := 4, fn := 0, ty := 1, imm := 0 }) (fun w => (w.setS 5 0xDEADBEEF).setS 4 0x81C) 6 = some 0xD ∧
    result (.slzc { d := 6, a := 5, b := 0, fn := 0, ty := 0, imm := 0 }) (fun w => w.setS 5 0) 6 = some 32 ∧
    result (.spopc { d := 6, a := 5, b := 0, fn := 0, ty := 0, imm := 0 }) (fun w => w.setS 5 0xF0F00001) 6 = some 9 := by decide +kernel

/-- R228: a negative index steps a 64-bit address. -/
theorem test_scalar_wide :
    let i := Instr.smad64 { d := 10, a := 5, b := 4, fn := 0, ty := 0, imm := 0 }
    let f := fun (w : Wave) => (((w.setS 5 0xFFFFFFFF).setS 4 8).setS 10 4).setS 11 1
    result i f 10 = some 0xFFFFFFFC ∧ result i f 11 = some 0 := by decide +kernel

/-- The routing example after R208: v5 holds 100 + i, EXEC word 1 is 0. -/
def lanesOf (ra rb b p : Nat) : List Word :=
  let i := Instr.vadd { d := 6, a := 5, b := BitVec.ofNat 8 b, ra := BitVec.ofNat 3 ra, rb := BitVec.ofNat 3 rb, p := BitVec.ofNat 10 p, ty := 0, rnd := 0, sat := 0, fn := 0, la := 0 }
  let f := fun (w : Wave) => (List.range 64).foldl (fun (w : Wave) l => w.setV 5 l (BitVec.ofNat 32 (100 + l)))
    { w with k := 2, regs := { w.regs with s := mapPut 0 (mapPut 0 w.regs.s 96 0xFFFFFFFF) 97 0, live := [(0, 0xFFFFFFFF), (1, 0xFFFFFFFF)] } }
  match exec i (with_ i f id id) with
  | .next t => [0, 5, 23, 24, 31, 32].map fun l => (wave t).v 6 l
  | _ => []

theorem test_routes : lanesOf 1 7 128 40 = [140, 145, 163, 100, 107, 0] ∧ lanesOf 3 7 128 16 = [116, 121, 107, 108, 115, 0] ∧
    lanesOf 5 7 128 0x102 = [102, 102, 118, 118, 118, 0] ∧ lanesOf 6 0 5 3 = [100, 207, 243, 245, 259, 0] := by decide +kernel

/-- The example after R184: products of f32 that are tiny, or exact and subnormal. -/
theorem test_tiny_products : fpMul fpF32 0 0 ((127 - 75) * 2 ^ 23) ((127 - 75) * 2 ^ 23) = (0, flagUF + flagNX) ∧
    fpMul fpF32 0 0 ((127 - 70) * 2 ^ 23) ((127 - 70) * 2 ^ 23) = (2 ^ 9, 0) := by decide +kernel

/-- The example after R187: one stochastic rounding of 1 + 2^−8 to bf16, the generator seeded to 1. -/
theorem test_stochastic :
    let w := { (Wave.placed 0 0 0 0 1 8 0 0 0) with sp := { (Wave.placed 0 0 0 0 1 8 0 0 0).sp with rngSeed := 0x9E3779B97F4A7C14 } }
    w.gen 0 = 1 ∧ (w.draw 5 0).2.gen 0 = 0x40822041 ∧ (w.draw 5 0).1 = 0 ∧ convert (.fp fpF32) (.fp fpBf16) 5 0 false 0x3F808000 = (0x3F80, flagNX) ∧
    convert (.fp fpF32) (.fp fpBf16) 5 0x7FFFFFFF false 0x3F808000 = (0x3F80, flagNX) ∧ convert (.fp fpF32) (.fp fpBf16) 5 0x80000000 false 0x3F808000 = (0x3F81, flagNX) := by
  decide +kernel

/-- The examples after R188: 500.0, −500.0 and 464.0 to e4m3 under RNE, RTZ, RDN (3) and RUP (2). -/
theorem test_narrow_overflow :
    let cv := fun (mode : Nat) (sat : Bool) (x : Nat) => convert (.fp fpF32) (.fp fpE4m3) mode 0 sat x
    cv 0 false 0x43FA0000 = (0x7F, flagOF + flagNX) ∧ cv 0 true 0x43FA0000 = (0x7E, flagOF + flagNX) ∧ cv 1 false 0x43FA0000 = (0x7E, flagOF + flagNX) ∧
    cv 3 false 0x43FA0000 = (0x7E, flagOF + flagNX) ∧ cv 2 false 0xC3FA0000 = (0xFE, flagOF + flagNX) ∧ cv 0 false 0x43E80000 = (0x7E, flagNX) := by decide +kernel

/-- R192's example: codes read at some of their planes. -/
theorem test_planes :
    let at_ := fun (code planes : Nat) (center : Bool) => niVal planes center fun j => code.testBit j
    at_ 109 4 false = .fin false 96 0 false ∧ at_ 109 4 true = .fin false 104 0 false ∧ at_ 0xB5 2 false = .fin true 128 0 false ∧ at_ 0xB5 2 true = .fin true 96 0 false ∧
    at_ 0xB5 3 false = .fin true 96 0 false ∧ at_ 0xB5 3 true = .fin true 80 0 false := by decide +kernel

/-- R193's example: the exact sum of a row step. -/
theorem test_exact_sum :
    let p := (fpDecode fpBf16 0x3980, fpDecode fpBf16 0x3980)
    exactSum fpF32 0 0 (fpDecode fpF32 0x3F800000) ([p, p] ++ List.replicate 30 (fpDecode fpBf16 0, fpDecode fpBf16 0)) false = (0x3F800001, 0) := by decide +kernel

/-- The examples after R31: index bits, the page's offset, the home of the byte (R45, R72). -/
theorem test_walk_example :
    (List.range 4).map (walkIndex 0x7F123456789A) = [0, 0x1F, 0x1891, 0x1456] ∧ canonical 0x7F123456789A = true ∧ canonical 0x0100000000000010 = false ∧
    (leafOf 0 0x7F123456789A 3 0 0x000002100012020F false).pa 0x7F123456789A = 0x02100012789A ∧ homeDie 0x02100012789A = 1 ∧ homeSlice 0x02100012789A = 112 ∧
    homeDie 0x120000 = 2 ∧ homeDie 0x100000 = 0 := by decide +kernel

/-- The grid's examples (R101, R105): an index, and a pattern's cardinality and anchor. -/
theorem test_grid_example :
    let shape := 3 + 2 ^ 8 * 1 + 2 ^ 18 * 2 + 2 ^ 28 * 3
    let p := 0x60000000000000400000800001000400
    linearIndex shape [1, 1, 2, 0, 0] = 15 ∧ ivCard (patIntervals shape p) = 8 ∧ (anchorOf shape p).take 3 = [1, 0, 0] ∧ patternBad shape p = none := by decide +kernel

/-- R84's example: the backoff of a refused FLOAD. -/
theorem test_backoff : (List.range 8).map backoff = [256, 512, 1024, 2048, 4096, 8192, 16384, 32000] ∧ ((List.range 8).map backoff).sum = 64512 := by decide

/-- The example after R55: an allocation rounds up to blocks. -/
theorem test_scratch_size : descScratch (2 ^ 224 * 300000) = 303104 := by decide +kernel

/-- FIPS 180-4: SHA-256 of "abc" (R331, R333). -/
theorem test_sha256 : leNat (sha256 [0x61, 0x62, 0x63]).reverse = 0xBA7816BF8F01CFEA414140DE5DAE2223B00361A396177A9CB410FF61F20015AD := by decide +kernel

end Sys2Proof.Tests
end

section
/-! SUPPORT. What the scalar instructions have in common: they write scalar registers, and perhaps special registers, of their wave
and nothing else. -/

namespace Sys2Proof.Machine

/-! ### The wave as its instruction finds it -/

@[simp] theorem Wave.src_readied (w : Wave) (c : BitVec 8) (imm : BitVec 24) : w.readied.src c imm = w.src c imm := rfl
@[simp] theorem Wave.src64_readied (w : Wave) (c : BitVec 8) (imm : BitVec 24) : w.readied.src64 c imm = w.src64 c imm := rfl
@[simp] theorem Wave.s_readied (w : Wave) (r : Nat) : w.readied.s r = w.s r := rfl
@[simp] theorem Wave.s64_readied (w : Wave) (r : Nat) : w.readied.s64 r = w.s64 r := rfl
@[simp] theorem Wave.mode_readied (w : Wave) (rm : Nat) : w.readied.mode rm = w.mode rm := rfl

/-! ### Writing scalar registers -/

/-- A wave holds the result of writing no register. -/
theorem scalarResult_refl (w : Wave) (d : Nat) (x : Nat → Word) : ScalarResult w w d 0 x :=
  ⟨fun r _ => by rw [if_neg (by omega)], fun _ _ => rfl, rfl, rfl⟩

/-- A block of results grows by the next register (R158, R159). -/
theorem ScalarResult.setS {w w' : Wave} {d n : Nat} {x : Nat → Word} (h : ScalarResult w w' d n x) (hk : w'.k = w.k)
    (hd : d + n < 128) : ScalarResult w (w'.setS (d + n) (x n)) d (n + 1) x := by
  obtain ⟨hs, hv, hlive, hvp⟩ := h
  refine ⟨fun r hr => ?_, hv, hlive, hvp⟩
  have hl : w'.liveWord (d + n - 96) = w.liveWord (d + n - 96) := by simp only [Wave.liveWord, hlive]
  rw [Wave.s_setS, hs r hr]
  simp only [Wave.skey_inj w' hr hd, hk, hl]
  by_cases hrn : r = d + n
  · subst hrn; simp
  · simp only [if_neg hrn, show d ≤ r ∧ r < d + (n + 1) ↔ d ≤ r ∧ r < d + n by omega]

/-- Writing S[d]. -/
theorem scalarResult_setS (w : Wave) {d : Nat} (hd : d < 128) (x : Nat → Word) : ScalarResult w (w.setS d (x 0)) d 1 x :=
  (scalarResult_refl w d x).setS rfl hd

/-- Writing the pair d:2, low word first. -/
theorem scalarResult_setS64 (w : Wave) {d : Nat} (hd : d + 2 ≤ 128) (x : DWord) :
    ScalarResult w (w.setS64 d x) d 2 fun j => x.extractLsb' (32 * j) 32 :=
  (scalarResult_setS w (by omega) fun j => x.extractLsb' (32 * j) 32).setS rfl (by omega)

/-- A result stands after the instruction, whatever the special registers have become. -/
theorem ScalarResult.after {w w' : Wave} {d n : Nat} {x : Nat → Word} (h : ScalarResult w w' d n x) (htr : w'.tr = w.tr)
    (sp : Specials) : ScalarResult w (w.after w'.regs sp) d n x := by
  obtain ⟨hs, hv, hlive, hvp⟩ := h
  refine ⟨fun r hr => ?_, hv, hlive, hvp⟩
  have hkey : w.skey r = w'.skey r := by rw [Wave.skey, Wave.skey, htr]
  exact (congrArg (mapGet 0 w'.regs.s) hkey).trans (hs r hr)

/-! ### Completing -/

/-- The scalar instructions close no region (R387). -/
theorem closesRegion_scalar (w : Wave) {op : Nat} (h : op < 32) : closesRegion w op = false := by
  have hlist : ∀ n < 32, (([0x8E, 0x8F, 0xB0, 0xB1, 0xB2, 0xB3, 0xB4, 0xB5, 0x95, 0xC4, 0xC5, 0x8B, 0xB6, 0x97, 0x98, 0x9A, 0x86, 0x87, 0xD6,
      0x3A, 0x3B, 0x3C, 0x39, 0xD2, 0xC1, 0xC2] : List Nat).contains n || (n == 0x84 || n == 0x85)) = false := by decide
  have hop := Bool.or_eq_false_iff.1 (hlist op h)
  unfold closesRegion
  rw [hop.1, hop.2]
  rfl

/-- The major opcode of a word of format S. -/
theorem op_of_encS {i : Instr} {op : BitVec 8} {f : SF} (h : encode i = some (encS op f)) : Instr.op i = op.toNat := by
  simp [Instr.op, h, opcodeOf_encS]

/-- The major opcode of a word of format I. -/
theorem op_of_encI {i : Instr} {op : BitVec 8} {f : IF} (h : encode i = some (encI op f)) : Instr.op i = op.toNat := by
  simp [Instr.op, h, opcodeOf_encI]

section
variable {s : State} {u : Nat} {w : Wave} {i : Instr} {g : Wave → Wave}

/-- A scalar instruction that changes registers and special registers of its wave alone completes with that change. -/
theorem Issues.completes_after (h : Issues s u w i) (hop : Instr.op i < 32) (hx : exec i s = runInstr i (onWave g) s)
    {regs : Regs} {sp : Specials} (hg : g w.readied = { w.readied with regs := regs, sp := sp }) :
    Completes s u w i (w.after regs sp) := by
  have hc := completes_onWave h g hx (closesRegion_scalar w hop) (by rw [hg]; rfl)
  rw [hg, Wave.completed_eq] at hc
  exact hc

/-- One that writes S[d]. -/
theorem Issues.completes_setS (h : Issues s u w i) (hop : Instr.op i < 32) (hx : exec i s = runInstr i (onWave g) s)
    {d : Nat} {x : Word} (hd : d < 128) (hg : g w.readied = w.readied.setS d x) :
    ∃ w', Completes s u w i w' ∧ w' = w.after w'.regs w.sp ∧ ScalarResult w w' d 1 fun _ => x :=
  ⟨_, h.completes_after hop hx hg, rfl, (scalarResult_setS w hd fun _ => x).after rfl w.sp⟩

/-- One that writes the pair d:2. -/
theorem Issues.completes_setS64 (h : Issues s u w i) (hop : Instr.op i < 32) (hx : exec i s = runInstr i (onWave g) s)
    {d : Nat} {x : DWord} (hd : d + 2 ≤ 128) (hg : g w.readied = w.readied.setS64 d x) :
    ∃ w', Completes s u w i w' ∧ w' = w.after w'.regs w.sp ∧ ScalarResult w w' d 2 fun j => x.extractLsb' (32 * j) 32 :=
  ⟨_, h.completes_after hop hx hg, rfl, (scalarResult_setS64 w hd x).after rfl w.sp⟩

/-- A destination that the field checks hold to a register. -/
theorem Issues.destReg (h : Issues s u w i) {lo : Nat} {d : BitVec 8} (hm : mustReg lo d ∈ i.must) : d.toNat < 128 :=
  of_decide_eq_true (h.must hm)

/-- A block of scalar registers of an instruction that issues lies in the register file. -/
theorem Issues.destBlock (h : Issues s u w i) {lo lo' : Nat} {d : BitVec 8} {n al : Nat} {rd : Bool} (hm : mustReg lo d ∈ i.must)
    (hu : useS lo' d n al rd ⊆ Instr.uses w i) : d.toNat + n ≤ 128 := by
  have hd := h.destReg hm
  have hmem : ∀ x ∈ useS lo' d n al rd, x.reg + x.n ≤ (if x.vec then w.nv else 128) := fun x hx => (h.use (hu hx)).1
  simpa [useS, hd] using hmem

end

/-! ### The forms of format S -/

section
variable {c : SF → Instr}

/-- A scalar instruction of format S whose field d must name a register (R222). -/
def ScalarForm (c : SF → Instr) : Prop := ∀ f, Instr.op (c f) < 32 ∧ mustReg 48 f.d ∈ (c f).must

/-- An instruction of format S that writes a value to S[d]. -/
theorem ScalarOf.of_setS {y x : SF → Wave → Word}
    (hx : ∀ f s, exec (c f) s = runInstr (c f) (onWave fun w => w.setS f.d.toNat (y f w)) s)
    (hv : ∀ f w, y f w.readied = x f w)
    (hc : ScalarForm c := by exact fun _ => ⟨by rw [op_of_encS rfl]; decide, List.mem_cons_self⟩) : ScalarOf c x := fun _ _ w f h =>
  h.completes_setS (hc f).1 (hx f _) (h.destReg (hc f).2) (by simp only [hv f w])

/-- An instruction of format S on two 32-bit values, signed for type 0. -/
theorem ScalarOf.of_scalar2 {g : Int → Int → Nat} {x : SF → Wave → Word}
    (hx : ∀ f s, exec (c f) s = runInstr (c f) (scalar2 f g) s)
    (hv : ∀ f w, BitVec.ofNat 32 (g (intVal 32 (f.ty == 0) (w.src f.a f.imm).toNat) (intVal 32 (f.ty == 0) (w.src f.b f.imm).toNat)) =
      x f w)
    (hc : ScalarForm c := by exact fun _ => ⟨by rw [op_of_encS rfl]; decide, List.mem_cons_self⟩) : ScalarOf c x :=
  .of_setS hx hv hc

/-- An instruction of format S whose value is described bit by bit. -/
theorem BitsOf.of_setS {y : SF → Wave → Word} {b : SF → Wave → Nat → Bool}
    (hx : ∀ f s, exec (c f) s = runInstr (c f) (onWave fun w => w.setS f.d.toNat (y f w)) s)
    (hb : ∀ f w j, j < 32 → (y f w.readied).getLsbD j = b f w j)
    (hc : ScalarForm c := by exact fun _ => ⟨by rw [op_of_encS rfl]; decide, List.mem_cons_self⟩) : BitsOf c b := fun s u w f h =>
  have ⟨w', hdone, ha, hr⟩ := ScalarOf.of_setS hx (fun _ _ => rfl) hc s u w f h
  ⟨w', _, hdone, ha, hr, hb f w⟩

/-- An instruction of format S on the bits of two sources. -/
theorem BitsOf.of_scalarBits {g : Word → Word → Word} {b : SF → Wave → Nat → Bool}
    (hx : ∀ f s, exec (c f) s = runInstr (c f) (scalarBits f g) s)
    (hb : ∀ f w j, j < 32 → (g (w.src f.a f.imm) (w.src f.b f.imm)).getLsbD j = b f w j)
    (hc : ScalarForm c := by exact fun _ => ⟨by rw [op_of_encS rfl]; decide, List.mem_cons_self⟩) : BitsOf c b :=
  .of_setS hx hb hc

end

/-! ### Integers of a width (R181) -/

/-- The value of a field is that of the bit vector, read with its sign or without. -/
theorem intVal_toNat {n : Nat} (sg : Bool) (a : BitVec n) : intVal n sg a.toNat = if sg then a.toInt else (a.toNat : Int) := by
  have hlt := a.isLt
  simp only [intVal, signedOf, BitVec.toInt_eq_toNat_cond, Nat.mod_eq_of_lt hlt]

/-- Storing modulo 2^n is what a bit vector of an integer does. -/
theorem wrapTo_eq_toNat_ofInt (n : Nat) (x : Int) : wrapTo n x = (BitVec.ofInt n x).toNat := (BitVec.toNat_ofInt ..).symm

@[simp] theorem ofNat_wrapTo (n : Nat) (x : Int) : BitVec.ofNat n (wrapTo n x) = BitVec.ofInt n x := by
  rw [wrapTo_eq_toNat_ofInt, BitVec.ofNat_toNat, BitVec.setWidth_eq]

/-- Reading a field and storing it gives it back, with or without the sign. -/
@[simp] theorem ofInt_intVal {n : Nat} (sg : Bool) (a : BitVec n) : BitVec.ofInt n (intVal n sg a.toNat) = a := by
  rw [intVal_toNat]
  cases sg
  · simp
  · simp

/-- Reading a field and storing it in a wider one extends it. -/
theorem ofInt_intVal_wide {n m : Nat} (sg : Bool) (a : BitVec n) :
    BitVec.ofInt m (intVal n sg a.toNat) = if sg then a.signExtend m else a.zeroExtend m := by
  rw [intVal_toNat]
  cases sg
  · simp [BitVec.zeroExtend]
  · rfl

/-- Bits [63:32] of a double word. -/
theorem ofNat_div_eq_extract (x : DWord) : BitVec.ofNat 32 (x.toNat / 2 ^ 32) = x.extractLsb' 32 32 := by
  apply BitVec.eq_of_toNat_eq
  simp [Nat.shiftRight_eq_div_pow]

/-- The exact product of two words, as two's complement or as unsigned numbers, in 64 bits. -/
theorem ofInt_mul_wide (sg : Bool) (a b : Word) :
    BitVec.ofInt 64 (intVal 32 sg a.toNat * intVal 32 sg b.toNat) =
      if sg then a.signExtend 64 * b.signExtend 64 else a.zeroExtend 64 * b.zeroExtend 64 := by
  rw [BitVec.ofInt_mul, ofInt_intVal_wide, ofInt_intVal_wide]
  cases sg <;> rfl

/-- Storing a difference. -/
theorem ofInt_sub_intVal (sg : Bool) (a b : Word) :
    BitVec.ofInt 32 (intVal 32 sg a.toNat - intVal 32 sg b.toNat) = a - b := by
  rw [Int.sub_eq_add_neg, BitVec.ofInt_add, BitVec.ofInt_neg, ofInt_intVal, ofInt_intVal, BitVec.sub_eq_add_neg]

/-- A field is zero as a number when its bits are. -/
theorem intVal_eq_zero {n : Nat} (sg : Bool) (a : BitVec n) : intVal n sg a.toNat = 0 ↔ a = 0 := by
  constructor
  · intro h
    have hb := congrArg (BitVec.ofInt n) h
    rwa [ofInt_intVal] at hb
  · rintro rfl
    rw [intVal_toNat]
    cases sg <;> simp

/-- The quotient of R181. -/
theorem ofNat_divInt (sg : Bool) (a b : Word) :
    BitVec.ofNat 32 (divInt 32 (intVal 32 sg a.toNat) (intVal 32 sg b.toNat)) =
      if b = 0 then BitVec.allOnes 32 else if sg then a.sdiv b else a / b := by
  simp only [divInt, intVal_eq_zero]
  split
  · rfl
  · rw [ofNat_wrapTo, intVal_toNat, intVal_toNat]
    cases sg
    · simp only [Bool.false_eq_true, if_false, ← Int.ofNat_tdiv, BitVec.ofInt_natCast, BitVec.udiv_def]
    · apply BitVec.eq_of_toInt_eq
      simp only [if_true, BitVec.toInt_ofInt, BitVec.toInt_sdiv]

/-- The remainder of R181. -/
theorem ofNat_remInt (sg : Bool) (a b : Word) :
    BitVec.ofNat 32 (remInt 32 (intVal 32 sg a.toNat) (intVal 32 sg b.toNat)) = if sg then a.srem b else a % b := by
  have htmod : remInt 32 (intVal 32 sg a.toNat) (intVal 32 sg b.toNat) =
      wrapTo 32 (Int.tmod (intVal 32 sg a.toNat) (intVal 32 sg b.toNat)) := by
    unfold remInt
    split
    · simp [*]
    · rfl
  rw [htmod, ofNat_wrapTo, intVal_toNat, intVal_toNat]
  cases sg
  · simp only [Bool.false_eq_true, if_false, ← Int.ofNat_tmod, BitVec.ofInt_natCast, BitVec.umod_def]
  · simp only [if_true, ← BitVec.toInt_srem, BitVec.ofInt_toInt]

/-- The order of two words, as two's complement or as unsigned numbers. -/
theorem intVal_lt (sg : Bool) (a b : Word) :
    intVal 32 sg a.toNat < intVal 32 sg b.toNat ↔ (if sg then a.slt b else a.ult b) = true := by
  rw [intVal_toNat, intVal_toNat]
  cases sg
  · simp [BitVec.ult_eq_decide]
  · simp [BitVec.slt_eq_decide]

/-- The lesser of two words. -/
theorem ofInt_min (sg : Bool) (a b : Word) :
    BitVec.ofInt 32 (min (intVal 32 sg a.toNat) (intVal 32 sg b.toNat)) = if (if sg then a.slt b else a.ult b) then a else b := by
  simp only [← intVal_lt, min_def_lt, apply_ite (BitVec.ofInt 32), ofInt_intVal]

/-- The greater of two words. -/
theorem ofInt_max (sg : Bool) (a b : Word) :
    BitVec.ofInt 32 (max (intVal 32 sg a.toNat) (intVal 32 sg b.toNat)) = if (if sg then a.slt b else a.ult b) then b else a := by
  simp only [← intVal_lt, max_def_lt, apply_ite (BitVec.ofInt 32), ofInt_intVal]

/-! ### Shifts and fields, bit by bit -/

/-- An arithmetic shift right copies bit 31. -/
theorem getLsbD_sshiftRight_word (x : Word) (n : Nat) {j : Nat} (hj : j < 32) :
    (x.sshiftRight n).getLsbD j = x.getLsbD (min 31 (j + n)) := by
  rw [BitVec.getLsbD_sshiftRight, BitVec.msb_eq_getLsbD_last]
  by_cases h : n + j < 32
  · simp [h, show min 31 (j + n) = n + j by omega]; omega
  · simp [h, show min 31 (j + n) = 31 by omega]; omega

/-- Where the field of R227 ends. -/
def fieldTop (y : Nat) : Nat := min 32 (y % 32 + min 32 (y / 256 % 64))

theorem fieldOf_eq (y : Nat) : fieldOf y = (y % 32, (if y / 256 % 64 = 0 then 0 else fieldTop y - y % 32), fieldTop y) := by
  simp [fieldOf, fld, fieldTop, Nat.min_comm]

/-- A field of some length is not empty and ends within the word. -/
theorem fieldTop_bounds {y : Nat} (h : y / 256 % 64 ≠ 0) : y % 32 < fieldTop y ∧ fieldTop y ≤ 32 := by
  unfold fieldTop
  omega

/-- The field of a word as a bit vector of the field's length. -/
def fieldBits (x : Word) (y : Nat) : BitVec (fieldTop y - y % 32) := x.extractLsb' (y % 32) (fieldTop y - y % 32)

theorem getLsbD_fieldBits (x : Word) (y j : Nat) :
    (fieldBits x y).getLsbD j = (decide (y % 32 + j < fieldTop y) && x.getLsbD (y % 32 + j)) := by
  rw [fieldBits, BitVec.getLsbD_extractLsb']
  congr 2
  exact propext (by omega)

/-- Extraction is the field, extended to a word with its sign or with zeros (R227). -/
theorem ofNat_extractField (x : Word) (y : Nat) (sg : Bool) :
    BitVec.ofNat 32 (extractField x.toNat y sg) =
      if y / 256 % 64 = 0 then 0 else if sg then (fieldBits x y).signExtend 32 else (fieldBits x y).setWidth 32 := by
  simp only [extractField, fieldOf_eq]
  by_cases h : y / 256 % 64 = 0
  · simp [h]
  · have hn : fieldTop y - y % 32 ≠ 0 := by have := fieldTop_bounds h; omega
    have hf : x.toNat / 2 ^ (y % 32) % 2 ^ (fieldTop y - y % 32) = (fieldBits x y).toNat := by
      rw [fieldBits, BitVec.extractLsb'_toNat, Nat.shiftRight_eq_div_pow]
    simp only [if_neg h, if_neg hn, hf]
    cases sg
    · exact BitVec.ofNat_toNat ..
    · exact (ofNat_wrapTo ..).trans (ofInt_intVal_wide true _)

/-- Bit j of an extracted field (R227). -/
theorem getLsbD_extractField (x : Word) (y : Nat) (sg : Bool) {j : Nat} (hj : j < 32) :
    (BitVec.ofNat 32 (extractField x.toNat y sg)).getLsbD j =
      (decide (y / 256 % 64 ≠ 0) && if y % 32 + j < fieldTop y then x.getLsbD (y % 32 + j) else sg && x.getLsbD (fieldTop y - 1)) := by
  rw [ofNat_extractField]
  by_cases h : y / 256 % 64 = 0
  · simp [h]
  · obtain ⟨hpos, htop⟩ := fieldTop_bounds h
    cases sg
    · simp [h, hj, getLsbD_fieldBits]
    · have hin : j < fieldTop y - y % 32 ↔ y % 32 + j < fieldTop y := by omega
      have hlast : y % 32 + (fieldTop y - y % 32 - 1) = fieldTop y - 1 := by omega
      have hmsb : (fieldBits x y).msb = x.getLsbD (fieldTop y - 1) := by
        rw [BitVec.msb_eq_getLsbD_last, getLsbD_fieldBits, hlast, decide_eq_true (by omega), Bool.true_and]
      simp only [if_neg h, if_true, BitVec.getLsbD_signExtend, getLsbD_fieldBits, hmsb, hin, hj]
      by_cases hjt : y % 32 + j < fieldTop y <;> simp [h, hjt]

/-- Replacing `n` bits from `p` on leaves the low bits, and the high ones, of the old value. -/
theorem replace_eq (b x p n : Nat) :
    b - b / 2 ^ p % 2 ^ n * 2 ^ p + x % 2 ^ n * 2 ^ p = 2 ^ p * (2 ^ n * (b / 2 ^ p / 2 ^ n) + x % 2 ^ n) + b % 2 ^ p := by
  have hlow := Nat.div_add_mod b (2 ^ p)
  have hmid := Nat.div_add_mod (b / 2 ^ p) (2 ^ n)
  have hsplit : b = 2 ^ p * (2 ^ n * (b / 2 ^ p / 2 ^ n)) + b / 2 ^ p % 2 ^ n * 2 ^ p + b % 2 ^ p := by
    rw [Nat.mul_comm _ (2 ^ p), ← Nat.mul_add, hmid, hlow]
  rw [Nat.mul_add, Nat.mul_comm (x % 2 ^ n)]
  omega

/-- Bit j of a word whose field has been replaced (R227). -/
theorem getLsbD_insertField (base x : Word) (y : Nat) {j : Nat} (hj : j < 32) :
    (BitVec.ofNat 32 (insertField base.toNat x.toNat y)).getLsbD j =
      if y % 32 ≤ j ∧ j < fieldTop y ∧ y / 256 % 64 ≠ 0 then x.getLsbD (j - y % 32) else base.getLsbD j := by
  simp only [insertField, fieldOf_eq, replace_eq, BitVec.getLsbD_ofNat, hj, decide_true, Bool.true_and]
  rw [Nat.testBit_two_pow_mul_add _ (Nat.mod_lt _ (Nat.two_pow_pos _)), Nat.testBit_two_pow_mul_add _ (Nat.mod_lt _ (Nat.two_pow_pos _))]
  simp only [Nat.testBit_mod_two_pow, Nat.testBit_div_two_pow, BitVec.testBit_toNat]
  by_cases hlow : j < y % 32
  · simp [hlow, show ¬ y % 32 ≤ j by omega]
  · have hup : j - y % 32 + y % 32 = j := by omega
    by_cases h : y / 256 % 64 = 0
    · simp [hlow, h, hup]
    · have hin : j - y % 32 < fieldTop y - y % 32 ↔ j < fieldTop y := by have := fieldTop_bounds h; omega
      simp only [if_neg hlow, if_neg h, hin]
      by_cases hj : j < fieldTop y
      · simp [hj, h, show y % 32 ≤ j by omega]
      · have hover : j - y % 32 - (fieldTop y - y % 32) + (fieldTop y - y % 32) + y % 32 = j := by omega
        simp [hj, hover]

end Sys2Proof.Machine
end

section
/-! SUPPORT. The scalar integer instructions: arithmetic, logic, shifts and bit fields. -/

open Sys2Proof Sys2Proof.Machine

namespace Sys2Proof.Machine

/-- NOP changes no register (R222). -/
theorem nop_completes {s : State} {u : Nat} {w : Wave} {f : SF} (h : Issues s u w (.nop f)) :
    Completes s u w (.nop f) (w.after w.regs w.sp) :=
  h.completes_after (by rw [op_of_encS rfl]; decide) (g := id) rfl rfl

/-! ### Arithmetic (R181, R224) -/

theorem sadd_scalarOf : ScalarOf .sadd fun f w => w.src f.a f.imm + w.src f.b f.imm :=
  .of_scalar2 (fun _ _ => rfl) fun f w => by
    rw [ofNat_wrapTo, BitVec.ofInt_add, ofInt_intVal, ofInt_intVal]

theorem ssub_scalarOf : ScalarOf .ssub fun f w => w.src f.a f.imm - w.src f.b f.imm :=
  .of_scalar2 (fun _ _ => rfl) fun f w => by
    rw [ofNat_wrapTo, ofInt_sub_intVal]

theorem smul_scalarOf : ScalarOf .smul fun f w => w.src f.a f.imm * w.src f.b f.imm :=
  .of_scalar2 (fun _ _ => rfl) fun f w => by
    rw [ofNat_wrapTo, BitVec.ofInt_mul, ofInt_intVal, ofInt_intVal]

theorem smulh_scalarOf : ScalarOf .smulh fun f w =>
    if f.ty = 0 then ((w.src f.a f.imm).signExtend 64 * (w.src f.b f.imm).signExtend 64).extractLsb' 32 32
    else ((w.src f.a f.imm).zeroExtend 64 * (w.src f.b f.imm).zeroExtend 64).extractLsb' 32 32 :=
  .of_scalar2 (fun _ _ => rfl) fun f w => by
    rw [wrapTo_eq_toNat_ofInt, ofNat_div_eq_extract, ofInt_mul_wide]
    simp only [beq_iff_eq, apply_ite (BitVec.extractLsb' 32 32)]

theorem sdiv_scalarOf : ScalarOf .sdiv fun f w =>
    if w.src f.b f.imm = 0 then BitVec.allOnes 32
    else if f.ty = 0 then (w.src f.a f.imm).sdiv (w.src f.b f.imm) else w.src f.a f.imm / w.src f.b f.imm :=
  .of_scalar2 (fun _ _ => rfl) fun f w => by
    simp only [ofNat_divInt, beq_iff_eq]

theorem srem_scalarOf : ScalarOf .srem fun f w =>
    if f.ty = 0 then (w.src f.a f.imm).srem (w.src f.b f.imm) else w.src f.a f.imm % w.src f.b f.imm :=
  .of_scalar2 (fun _ _ => rfl) fun f w => by
    simp only [ofNat_remInt, beq_iff_eq]

theorem smin_scalarOf : ScalarOf .smin fun f w =>
    if (if f.ty = 0 then (w.src f.a f.imm).slt (w.src f.b f.imm) else (w.src f.a f.imm).ult (w.src f.b f.imm))
    then w.src f.a f.imm else w.src f.b f.imm :=
  .of_scalar2 (fun _ _ => rfl) fun f w => by
    simp only [ofNat_wrapTo, ofInt_min, beq_iff_eq]

theorem smax_scalarOf : ScalarOf .smax fun f w =>
    if (if f.ty = 0 then (w.src f.a f.imm).slt (w.src f.b f.imm) else (w.src f.a f.imm).ult (w.src f.b f.imm))
    then w.src f.b f.imm else w.src f.a f.imm :=
  .of_scalar2 (fun _ _ => rfl) fun f w => by
    simp only [ofNat_wrapTo, ofInt_max, beq_iff_eq]

/-! ### Logic, shifts and fields (R224, R227) -/

theorem sand_bitsOf : BitsOf .sand fun f w j => (w.src f.a f.imm).getLsbD j && (w.src f.b f.imm).getLsbD j :=
  .of_scalarBits (fun _ _ => rfl) fun _ _ _ _ => BitVec.getLsbD_and

theorem sor_bitsOf : BitsOf .sor fun f w j => (w.src f.a f.imm).getLsbD j || (w.src f.b f.imm).getLsbD j :=
  .of_scalarBits (fun _ _ => rfl) fun _ _ _ _ => BitVec.getLsbD_or

theorem sxor_bitsOf : BitsOf .sxor fun f w j => (w.src f.a f.imm).getLsbD j != (w.src f.b f.imm).getLsbD j :=
  .of_scalarBits (fun _ _ => rfl) fun _ _ _ _ => BitVec.getLsbD_xor

theorem sandn_bitsOf : BitsOf .sandn fun f w j => (w.src f.a f.imm).getLsbD j && !(w.src f.b f.imm).getLsbD j :=
  .of_scalarBits (fun _ _ => rfl) fun _ _ _ hj => by
    rw [BitVec.getLsbD_and, BitVec.getLsbD_not, decide_eq_true hj, Bool.true_and]

theorem sshl_bitsOf : BitsOf .sshl fun f w j => decide ((w.src f.b f.imm).toNat % 32 ≤ j) &&
    (w.src f.a f.imm).getLsbD (j - (w.src f.b f.imm).toNat % 32) :=
  .of_scalarBits (fun _ _ => rfl) fun _ _ _ hj => by
    rw [BitVec.getLsbD_shiftLeft, decide_eq_true hj, Bool.true_and, ← decide_not]
    simp only [Nat.not_lt]

theorem sshr_bitsOf : BitsOf .sshr fun f w j => (w.src f.a f.imm).getLsbD (j + (w.src f.b f.imm).toNat % 32) :=
  .of_scalarBits (fun _ _ => rfl) fun _ _ _ _ => by
    rw [BitVec.getLsbD_ushiftRight, Nat.add_comm]

theorem ssha_bitsOf : BitsOf .ssha fun f w j => (w.src f.a f.imm).getLsbD (min 31 (j + (w.src f.b f.imm).toNat % 32)) :=
  .of_scalarBits (fun _ _ => rfl) fun _ _ _ hj =>
    getLsbD_sshiftRight_word _ _ hj

theorem sbfe_bitsOf : BitsOf .sbfe fun f w j =>
    let pos := (w.src f.b f.imm).toNat % 32
    let top := min 32 (pos + min 32 ((w.src f.b f.imm).toNat / 256 % 64))
    decide ((w.src f.b f.imm).toNat / 256 % 64 ≠ 0) &&
      (if pos + j < top then (w.src f.a f.imm).getLsbD (pos + j) else f.ty == 0 && (w.src f.a f.imm).getLsbD (top - 1)) :=
  .of_setS (fun _ _ => rfl) fun _ _ _ hj => getLsbD_extractField _ _ _ hj

theorem sbfi_bitsOf : BitsOf .sbfi fun f w j =>
    let pos := (w.src f.b f.imm).toNat % 32
    let top := min 32 (pos + min 32 ((w.src f.b f.imm).toNat / 256 % 64))
    if pos ≤ j ∧ j < top ∧ (w.src f.b f.imm).toNat / 256 % 64 ≠ 0 then (w.src f.a f.imm).getLsbD (j - pos)
    else (w.s f.d.toNat).getLsbD j :=
  .of_setS (fun _ _ => rfl) fun _ _ _ hj => getLsbD_insertField _ _ _ hj

end Sys2Proof.Machine

/-- Settles O1: each instruction by the lemma that says what it writes. -/
theorem scalarIntegers : Obligations.ScalarIntegers :=
  ⟨⟨fun _ _ _ _ => nop_completes, sadd_scalarOf, ssub_scalarOf, smul_scalarOf, smulh_scalarOf, sdiv_scalarOf, srem_scalarOf,
      smin_scalarOf, smax_scalarOf⟩,
    sand_bitsOf, sor_bitsOf, sxor_bitsOf, sandn_bitsOf, sshl_bitsOf, sshr_bitsOf, ssha_bitsOf, sbfe_bitsOf, sbfi_bitsOf⟩

end

section
/-! SUPPORT. The scalar counts, compares, selects, moves and sums of pairs. -/

namespace Sys2Proof.Machine

/-! ### Counts (R224) -/

/-- The model's bit of a number is the library's. -/
theorem bit_toNat {n : Nat} (x : BitVec n) (j : Nat) : bit x.toNat j = x.getLsbD j := by
  rw [← BitVec.testBit_toNat, Nat.testBit_eq_decide_div_mod_eq]
  rfl

/-- FFS stops at the lowest bit that is set. -/
theorem firstSet_spec {n : Nat} (x : BitVec n) :
    firstSet n x.toNat ≤ n ∧ (∀ j, j < firstSet n x.toNat → x.getLsbD j = false) ∧
      (firstSet n x.toNat < n → x.getLsbD (firstSet n x.toNat) = true) := by
  simp only [firstSet, bit_toNat]
  cases h : (List.range n).find? (fun j => x.getLsbD j) with
  | none =>
    rw [List.find?_eq_none] at h
    simp only [Option.getD_none, Nat.le_refl, true_and, Nat.lt_irrefl, false_implies, and_true]
    intro j hj
    simpa using h j (List.mem_range.2 hj)
  | some k =>
    rw [List.find?_range_eq_some] at h
    obtain ⟨hk, hmem, hbelow⟩ := h
    have hlt := List.mem_range.1 hmem
    exact ⟨hlt.le, fun j hj => by simpa using hbelow j hj, fun _ => hk⟩

/-- LZC counts from the top down to the highest bit that is set. -/
theorem leadZeros_spec {n : Nat} (x : BitVec n) :
    leadZeros n x.toNat ≤ n ∧ (∀ j, j < leadZeros n x.toNat → x.getLsbD (n - 1 - j) = false) ∧
      (leadZeros n x.toNat < n → x.getLsbD (n - 1 - leadZeros n x.toNat) = true) := by
  simp only [leadZeros, Nat.mod_eq_of_lt x.isLt, ← BitVec.testBit_toNat]
  split
  next h0 => simp [h0]
  next h0 =>
    have htop : Nat.log2 x.toNat < n := (Nat.log2_lt h0).2 x.isLt
    refine ⟨by omega, fun j hj => ?_, fun _ => ?_⟩
    · have habove : Nat.log2 x.toNat + 1 ≤ n - 1 - j := by omega
      exact Nat.testBit_lt_two_pow (Nat.lt_log2_self.trans_le (Nat.pow_le_pow_right (by decide) habove))
    · rw [show n - 1 - (n - 1 - Nat.log2 x.toNat) = Nat.log2 x.toNat by omega]
      exact Nat.testBit_log2 h0

/-! ### Forms -/

/-- The words of a result, where they are in the block. -/
theorem ScalarResult.congr {w w' : Wave} {d n : Nat} {x y : Nat → Word} (h : ScalarResult w w' d n x) (hxy : ∀ j, j < n → x j = y j) :
    ScalarResult w w' d n y := by
  obtain ⟨hs, hrest⟩ := h
  refine ⟨fun r hr => ?_, hrest⟩
  rw [hs r hr]
  split
  next hb => rw [hxy (r - d) (by omega)]
  next => rfl

section
variable {c : SF → Instr}

/-- An instruction of format S on one 32-bit source. -/
theorem ScalarOf.of_scalar1 {g : Nat → Nat} (hx : ∀ f s, exec (c f) s = runInstr (c f) (scalar1 f g) s)
    (hc : ScalarForm c := by exact fun _ => ⟨by rw [op_of_encS rfl]; decide, List.mem_cons_self⟩) :
    ScalarOf c fun f w => BitVec.ofNat 32 (g (w.src f.a f.imm).toNat) :=
  .of_setS hx (fun _ _ => rfl) hc

/-- An instruction of format S that writes the pair d:2. -/
theorem PairOf.of_setS64 {y x : SF → Wave → DWord}
    (hx : ∀ f s, exec (c f) s = runInstr (c f) (onWave fun w => w.setS64 f.d.toNat (y f w)) s)
    (hv : ∀ f w, y f w.readied = x f w) (hu : ∀ f w, ∃ rd, useS2 48 f.d rd ⊆ Instr.uses w (c f))
    (hc : ScalarForm c := by exact fun _ => ⟨by rw [op_of_encS rfl]; decide, List.mem_cons_self⟩) : PairOf c x := fun _ _ w f h =>
  have ⟨_, hsub⟩ := hu f w
  h.completes_setS64 (hc f).1 (hx f _) (h.destBlock (hc f).2 hsub) (by simp only [hv f w])

end

theorem spopc_scalarOf :
    ScalarOf .spopc fun f w => BitVec.ofNat 32 ((List.range 32).countP fun j => (w.src f.a f.imm).getLsbD j) :=
  .of_setS (fun _ _ => rfl) fun f w => by simp only [popCount, bit_toNat, Wave.src_readied]

theorem slzc_completes {s : State} {u : Nat} {w : Wave} {f : SF} (h : Issues s u w (.slzc f)) :
    ∃ w' n, Completes s u w (.slzc f) w' ∧ w' = w.after w'.regs w.sp ∧ (ScalarResult w w' f.d.toNat 1 fun _ => BitVec.ofNat 32 n) ∧
      n ≤ 32 ∧ (∀ j, j < n → (w.src f.a f.imm).getLsbD (31 - j) = false) ∧ (n < 32 → (w.src f.a f.imm).getLsbD (31 - n) = true) :=
  have ⟨w', hdone, ha, hr⟩ := (ScalarOf.of_scalar1 (c := .slzc) fun _ _ => rfl) s u w f h
  ⟨w', _, hdone, ha, hr, leadZeros_spec _⟩

theorem sffs_completes {s : State} {u : Nat} {w : Wave} {f : SF} (h : Issues s u w (.sffs f)) :
    ∃ w' n, Completes s u w (.sffs f) w' ∧ w' = w.after w'.regs w.sp ∧ (ScalarResult w w' f.d.toNat 1 fun _ => BitVec.ofNat 32 n) ∧
      n ≤ 32 ∧ (∀ j, j < n → (w.src f.a f.imm).getLsbD j = false) ∧ (n < 32 → (w.src f.a f.imm).getLsbD n = true) :=
  have ⟨w', hdone, ha, hr⟩ := (ScalarOf.of_scalar1 (c := .sffs) fun _ _ => rfl) s u w f h
  ⟨w', _, hdone, ha, hr, firstSet_spec _⟩

/-! ### Compares, selects and moves (R225, R226) -/

theorem scmp_scalarOf : ScalarOf .scmp fun f w =>
    let v := fun (c : BitVec 8) => if f.ty.toNat < 2 then
        (if f.ty = 0 then (w.src c f.imm).toInt else ((w.src c f.imm).toNat : Int))
      else (if f.ty = 2 then (w.src64 c f.imm).toInt else ((w.src64 c f.imm).toNat : Int))
    if comparePred f.fn.toNat (v f.a) (v f.b) then 1 else 0 :=
  .of_setS (fun _ _ => rfl) fun f w => by
    by_cases h : f.ty.toNat < 2
    · have hne : f.ty ≠ 2#4 := by rintro h2; rw [h2] at h; exact absurd h (by decide)
      simp [h, intVal_toNat, hne]
    · have hne : f.ty ≠ 0#4 := by rintro h0; rw [h0] at h; exact h (by decide)
      simp [h, intVal_toNat, hne]

theorem ssel_scalarOf : ScalarOf .ssel fun f w => if w.s (f.imm.toNat % 128) = 0 then w.src f.b else w.src f.a :=
  .of_setS (fun _ _ => rfl) fun _ _ => rfl

theorem smov_completes {s : State} {u : Nat} {w : Wave} {f : SF} (h : Issues s u w (.smov f)) :
    ∃ w', Completes s u w (.smov f) w' ∧ w' = w.after w'.regs w.sp ∧
      if f.ty = 2 then ScalarResult w w' f.d.toNat 2 fun j => (w.src64 f.a f.imm).extractLsb' (32 * j) 32
      else ScalarResult w w' f.d.toNat 1 fun _ => w.src f.a f.imm := by
  have hop : Instr.op (.smov f) < 32 := by rw [op_of_encS rfl]; decide
  have hd : mustReg 48 f.d ∈ Instr.must (.smov f) := List.mem_cons_self
  by_cases hty : f.ty = 2
  · have hblock : useS 48 f.d 2 2 false ⊆ Instr.uses w (.smov f) := by
      show _ ⊆ useS 48 f.d (if f.ty = 2 then 2 else 1) (if f.ty = 2 then 2 else 1) false ++ _
      rw [if_pos hty]
      exact List.subset_append_left _ _
    simp only [if_pos hty]
    exact h.completes_setS64 hop rfl (h.destBlock hd hblock) (if_pos hty)
  · simp only [if_neg hty]
    exact h.completes_setS hop rfl (h.destReg hd) (if_neg hty)

/-- The words of a word extended with zeros. -/
theorem extractLsb'_zeroExtend_pair (x : Word) {j : Nat} (hj : j < 2) :
    (x.zeroExtend 64).extractLsb' (32 * j) 32 = if j = 0 then x else 0 := by
  obtain rfl | rfl : j = 0 ∨ j = 1 := by omega
  · ext k hk
    simp [hk, show k < 64 by omega]
  · ext k hk
    simp

theorem smovi_completes {s : State} {u : Nat} {w : Wave} {f : IF} (h : Issues s u w (.smovi f)) :
    ∃ w', Completes s u w (.smovi f) w' ∧ w' = w.after w'.regs w.sp ∧
      if f.fn = 0 then ScalarResult w w' f.d.toNat 1 fun _ => f.imm
      else if f.fn = 1 then ScalarResult w w' f.d.toNat 2 fun j => (f.imm.signExtend 64).extractLsb' (32 * j) 32
      else ScalarResult w w' f.d.toNat 2 fun j => if j = 0 then f.imm else 0 := by
  have hop : Instr.op (.smovi f) < 32 := by rw [op_of_encI rfl]; decide
  have hd : mustReg 48 f.d ∈ Instr.must (.smovi f) := List.mem_cons_self
  by_cases h0 : f.fn = 0
  · simp only [if_pos h0]
    exact h.completes_setS hop rfl (h.destReg hd) (if_pos h0)
  · have hblock : useS 48 f.d 2 2 false ⊆ Instr.uses w (.smovi f) := by
      show _ ⊆ useS 48 f.d (if f.fn = 0 then 1 else 2) (if f.fn = 0 then 1 else 2) false
      rw [if_neg h0]
      exact List.Subset.refl _
    have hpair := fun x => h.completes_setS64 (x := x) hop rfl (h.destBlock hd hblock)
    simp only [if_neg h0]
    by_cases h1 : f.fn = 1
    · simp only [if_pos h1]
      exact hpair _ (by simp only [if_neg h0, if_pos h1])
    · obtain ⟨w', hdone, ha, hr⟩ := hpair (f.imm.zeroExtend 64) (by simp only [if_neg h0, if_neg h1])
      simp only [if_neg h1]
      exact ⟨w', hdone, ha, hr.congr fun j hj => extractLsb'_zeroExtend_pair f.imm hj⟩

/-! ### Sums of pairs (R228) -/

theorem sadd64_pairOf : PairOf .sadd64 fun f w => w.src64 f.a f.imm + w.src64 f.b f.imm :=
  .of_setS64 (fun _ _ => rfl) (fun _ _ => rfl) fun _ _ => ⟨_, List.subset_append_of_subset_left _ (List.subset_append_left _ _)⟩

theorem ssub64_pairOf : PairOf .ssub64 fun f w => w.src64 f.a f.imm - w.src64 f.b f.imm :=
  .of_setS64 (fun _ _ => rfl) (fun _ _ => rfl) fun _ _ => ⟨_, List.subset_append_of_subset_left _ (List.subset_append_left _ _)⟩

theorem smad64_pairOf : PairOf .smad64 fun f w => w.s64 f.d.toNat +
    (if f.ty = 0 then (w.src f.a f.imm).signExtend 64 * (w.src f.b f.imm).signExtend 64
     else (w.src f.a f.imm).zeroExtend 64 * (w.src f.b f.imm).zeroExtend 64) :=
  .of_setS64 (fun _ _ => rfl) (fun f w => by
      rw [ofNat_wrapTo, BitVec.ofInt_add, ofInt_mul_wide, BitVec.ofInt_natCast, BitVec.ofNat_toNat, BitVec.setWidth_eq]
      simp only [beq_iff_eq, Wave.src_readied, Wave.s64_readied])
    fun _ _ => ⟨_, List.subset_append_of_subset_left _ (List.subset_append_left _ _)⟩

end Sys2Proof.Machine
end

section
/-! SUPPORT. The scalar floating-point instructions: one rounding, with its flags and lane 0's generator. -/

open Sys2Proof Sys2Proof.Machine

namespace Sys2Proof.Machine

/-! ### Generators and flags (R184 to R186) -/

/-- A lane's generator after a write to one. -/
theorem Wave.gen_setGen (w : Wave) (l : Nat) (x : DWord) (i : Nat) : (w.setGen l x).gen i = if i = l then x else w.gen i := by
  simp only [Wave.gen, Wave.setGen, mapFind_mapInsert]
  split <;> rfl

/-- What a draw gives, and what it changes. -/
theorem Wave.draw_eq (w : Wave) (mode : Nat) :
    w.draw mode 0 = (drawWord w mode 0 0, if mode = 5 then w.setGen 0 (genSteps 1 (w.gen 0)) else w) := by
  unfold Wave.draw drawWord
  split <;> rfl

/-- The generators after a draw. -/
theorem Wave.gen_draw (w : Wave) (mode i : Nat) :
    (w.draw mode 0).2.gen i = if mode = 5 ∧ i ∈ [0] then genSteps 1 (w.gen i) else w.gen i := by
  rw [Wave.draw_eq]
  by_cases hm : mode = 5
  · simp only [hm, if_true, true_and, Wave.gen_setGen, List.mem_singleton]
    split
    · subst_vars; rfl
    · rfl
  · simp only [hm, false_and, if_false]

/-- A draw changes the generators and nothing else. -/
theorem Wave.draw_snd (w : Wave) (mode : Nat) : (w.draw mode 0).2 = { w with sp := { w.sp with gens := (w.draw mode 0).2.sp.gens } } := by
  rw [Wave.draw_eq]
  dsimp only
  split <;> rfl

/-- A draw leaves the sources. -/
@[simp] theorem Wave.srcN_draw (w : Wave) (mode : Nat) (wide : Bool) (c : BitVec 8) : (w.draw mode 0).2.srcN wide c = w.srcN wide c := by
  rw [Wave.draw_snd]; rfl
@[simp] theorem Wave.s_draw (w : Wave) (mode r : Nat) : (w.draw mode 0).2.s r = w.s r := by
  rw [Wave.draw_snd]; rfl
@[simp] theorem Wave.s64_draw (w : Wave) (mode r : Nat) : (w.draw mode 0).2.s64 r = w.s64 r := by
  rw [Wave.draw_snd]; rfl

/-- The wave after one rounding in lane 0: the generator has stepped under SR, one or two scalar registers have the result, and FPSTAT
its flags. -/
def Wave.roundTo (w : Wave) (mode : Nat) (wide : Bool) (d : Nat) (r : Nat → FpRes) : Wave :=
  ((w.draw mode 0).2.setN wide d (r (w.draw mode 0).1).1).raise (r (w.draw mode 0).1).2

/-- Registers of a scalar value. -/
def wordsOf (wide : Bool) : Nat := if wide then 2 else 1

/-- The words of a number of 64 bits. -/
theorem extractLsb'_ofNat_word (x : Nat) {j : Nat} (hj : j < 2) :
    (BitVec.ofNat 64 x).extractLsb' (32 * j) 32 = BitVec.ofNat 32 (x / 2 ^ (32 * j)) := by
  apply BitVec.eq_of_getLsbD_eq
  intro k hk
  simp only [BitVec.getLsbD_extractLsb', BitVec.getLsbD_ofNat, Nat.testBit_div_two_pow]
  rw [decide_eq_true (show 32 * j + k < 64 by omega), Bool.true_and, Nat.add_comm]

/-- Writing one or two registers from a number. -/
theorem scalarResult_setN (w : Wave) (wide : Bool) {d : Nat} (hd : d + wordsOf wide ≤ 128) (x : Nat) :
    ScalarResult w (w.setN wide d x) d (wordsOf wide) fun j => BitVec.ofNat 32 (x / 2 ^ (32 * j)) := by
  cases wide with
  | false =>
    refine (scalarResult_setS w hd fun _ => BitVec.ofNat 32 x).congr fun j hj => ?_
    obtain rfl : j = 0 := Nat.lt_one_iff.1 hj
    simp
  | true =>
    refine (scalarResult_setS64 w hd (BitVec.ofNat 64 x)).congr fun j hj => ?_
    exact extractLsb'_ofNat_word x hj

/-- The wave after a rounding, part by part. -/
theorem Wave.roundTo_readied (w : Wave) (mode : Nat) (wide : Bool) (d : Nat) (r : Nat → FpRes) :
    w.readied.roundTo mode wide d r = { w.readied with
      regs := (w.setN wide d (r (drawWord w mode 0 0)).1).regs,
      sp := { w.sp with fpstat := w.sp.fpstat ||| (r (drawWord w mode 0 0)).2, gens := (w.draw mode 0).2.sp.gens } } := by
  simp only [Wave.roundTo, Wave.draw_eq]
  by_cases hm : mode = 5
  · simp only [if_pos hm]
    cases wide <;> rfl
  · simp only [if_neg hm]
    cases wide <;> rfl

/-- An instruction whose effect is one rounding in lane 0 completes with it. -/
theorem Issues.completes_roundTo {s : State} {u : Nat} {w : Wave} {i : Instr} {g : Wave → Wave} (h : Issues s u w i)
    (hop : Instr.op i < 32) (hx : exec i s = runInstr i (onWave g) s) {mode d : Nat} {wide : Bool} {r : Nat → FpRes}
    (hd : d + wordsOf wide ≤ 128) (hg : g w.readied = w.readied.roundTo mode wide d r) :
    ∃ w', Completes s u w i w' ∧ w' = w.after w'.regs w'.sp ∧ FpEffect w w' mode 1 [0] (fun _ _ k => r k) ∧
      ScalarResult w w' d (wordsOf wide) fun j => BitVec.ofNat 32 ((r (drawWord w mode 0 0)).1 / 2 ^ (32 * j)) := by
  refine ⟨_, h.completes_after hop hx (hg.trans (w.roundTo_readied ..)), rfl, ⟨rfl, fun j => ?_⟩, ?_⟩
  · rw [← Wave.gen_draw, Wave.draw_snd]
    rfl
  · exact (scalarResult_setN w wide hd _).after (by cases wide <;> rfl) _

/-! ### Conversion, arithmetic and comparison (R229 to R231) -/

/-- Registers of a type, and of a wide value. -/
theorem wordsOf_wideTy (ty : BitVec 4) : wordsOf (wideTy ty) = regsOf ty := by
  simp [wordsOf, wideTy, regsOf, or_assoc]

theorem scvt_completes {s : State} {u : Nat} {w : Wave} {f : SF} (h : Issues s u w (.scvt f)) :
    let mode := w.mode (f.imm.toNat % 8)
    let src := scvtType f.fn.toNat
    let r := fun (k : Nat) => convert src (scvtType f.ty.toNat) mode k (f.imm.getLsbD 3)
      ((if wideTy f.fn then (w.src64 f.a).toNat else (w.src f.a).toNat) % 2 ^ src.width)
    ∃ w', Completes s u w (.scvt f) w' ∧ w' = w.after w'.regs w'.sp ∧ FpEffect w w' mode 1 [0] (fun _ _ k => r k) ∧
      ScalarResult w w' f.d.toNat (regsOf f.ty) fun j => BitVec.ofNat 32 ((r (drawWord w mode 0 0)).1 / 2 ^ (32 * j)) := by
  intro mode src r
  have hop : Instr.op (.scvt f) < 32 := by rw [op_of_encS rfl]; decide
  have hblock : f.d.toNat + wordsOf (wideTy f.ty) ≤ 128 := by
    rw [wordsOf_wideTy]
    exact h.destBlock List.mem_cons_self (List.subset_append_left _ _)
  rw [← wordsOf_wideTy]
  refine h.completes_roundTo hop rfl hblock ?_
  simp only [Wave.roundTo, Wave.srcN_draw]
  rfl

/-- The registers of f32 and f64 (R230, R231). -/
theorem wordsOf_double {ty : BitVec 4} (h : [4, 5].contains ty.toNat = true) : wordsOf (ty == 5) = regsOf ty := by
  simp only [List.contains_cons, List.contains_nil, Bool.or_false, Bool.or_eq_true, beq_iff_eq] at h
  obtain h | h := h
  · rw [show ty = 4 from BitVec.eq_of_toNat_eq h]; rfl
  · rw [show ty = 5 from BitVec.eq_of_toNat_eq h]; rfl

theorem sfma_completes {s : State} {u : Nat} {w : Wave} {f : SF} (h : Issues s u w (.sfma f)) :
    let mode := w.mode (f.imm.toNat % 8)
    let v := fun (c : BitVec 8) => if f.ty = 5 then (w.src64 c).toNat else (w.src c).toNat
    let old := if f.ty = 5 then (w.s64 f.d.toNat).toNat else (w.s f.d.toNat).toNat
    let fmt := if f.ty = 5 then fpF64 else fpF32
    let r := fun (k : Nat) => if f.fn = 0 then fpFma fmt mode k (v f.a) (v f.b) old else if f.fn = 1 then fpMul fmt mode k (v f.a) (v f.b)
      else if f.fn = 2 then fpAdd fmt mode k (v f.a) (v f.b) else fpSub fmt mode k (v f.a) (v f.b)
    ∃ w', Completes s u w (.sfma f) w' ∧ w' = w.after w'.regs w'.sp ∧ FpEffect w w' mode 1 [0] (fun _ _ k => r k) ∧
      ScalarResult w w' f.d.toNat (regsOf f.ty) fun j => BitVec.ofNat 32 ((r (drawWord w mode 0 0)).1 / 2 ^ (32 * j)) := by
  intro mode v old fmt r
  have hop : Instr.op (.sfma f) < 32 := by rw [op_of_encS rfl]; decide
  have hty : [4, 5].contains f.ty.toNat = true :=
    h.must (c := mustIn 24 f.ty [4, 5]) (by simp [Instr.must])
  have hregs : wordsOf (f.ty == 5) = regsOf f.ty := wordsOf_double hty
  rw [← hregs]
  refine h.completes_roundTo hop rfl ?_ ?_
  · rw [hregs]
    exact h.destBlock List.mem_cons_self (List.subset_append_of_subset_left _ (List.subset_append_left _ _))
  · simp only [Wave.roundTo, Wave.srcN_draw, Wave.s_draw, Wave.s64_draw]
    simp only [Wave.srcN, beq_iff_eq, Wave.src_readied, Wave.src64_readied, Wave.s_readied, Wave.s64_readied, Wave.mode_readied, mode, r, v,
      old, fmt, ← BitVec.toNat_inj (x := f.fn)]
    split
    next hfn => simp [hfn]
    next hfn => simp [hfn]
    next hfn => simp [hfn]
    next h0 h1 h2 => simp [if_neg h0, if_neg h1, if_neg h2]

theorem sfcmp_completes {s : State} {u : Nat} {w : Wave} {f : SF} (h : Issues s u w (.sfcmp f)) :
    let v := fun (c : BitVec 8) => if f.ty = 5 then (w.src64 c).toNat else (w.src c).toNat
    let r := fpCompare (if f.ty = 5 then fpF64 else fpF32) f.fn.toNat (v f.a) (v f.b)
    ∃ w', Completes s u w (.sfcmp f) w' ∧ w' = w.after w'.regs { w.sp with fpstat := w.sp.fpstat ||| r.2 } ∧
      ScalarResult w w' f.d.toNat 1 fun _ => if r.1 then 1 else 0 := by
  intro v r
  have hop : Instr.op (.sfcmp f) < 32 := by rw [op_of_encS rfl]; decide
  have hdone := h.completes_after hop rfl (regs := (w.setS f.d.toNat (if r.1 then 1 else 0)).regs)
    (sp := { w.sp with fpstat := w.sp.fpstat ||| r.2 }) (by
      simp only [Wave.srcN, beq_iff_eq, Wave.src_readied, Wave.src64_readied]
      rfl)
  exact ⟨_, hdone, rfl, (scalarResult_setS w (h.destReg List.mem_cons_self) fun _ => if r.1 then 1 else 0).after rfl _⟩

end Sys2Proof.Machine

/-- Settles O2: each instruction by the lemma that says what it writes. -/
theorem scalarMovesAndFloat : Obligations.ScalarMovesAndFloat :=
  ⟨⟨spopc_scalarOf, fun _ _ _ _ => slzc_completes, fun _ _ _ _ => sffs_completes, scmp_scalarOf, ssel_scalarOf,
      fun _ _ _ _ => smov_completes, fun _ _ _ _ => smovi_completes, sadd64_pairOf, ssub64_pairOf, smad64_pairOf⟩,
    fun _ _ _ _ => scvt_completes, fun _ _ _ _ => sfma_completes, fun _ _ _ _ => sfcmp_completes⟩

end

section
/-! SUPPORT. The decoder's tables against the encoder: each row's instruction carries the row's opcode, and the fields of a word give
the word back (R198, R209). -/

set_option Elab.async false

namespace Sys2Proof

/-! ### Rows -/

/-- What a table answers for an opcode is one of its rows. -/
theorem mem_of_rowOf {α : Type} {t : List (Nat × (α → Instr))} {op : Nat} {c : α → Instr} (h : rowOf t op = some c) : (op, c) ∈ t := by
  induction t with
  | nil => cases h
  | cons r t ih =>
    obtain ⟨k, c'⟩ := r
    simp only [rowOf] at h
    split at h
    next hk => cases h; subst hk; exact List.mem_cons_self
    next => exact List.mem_cons_of_mem _ (ih h)

/-- A table has no row for an opcode exactly when the opcode is none of its keys. -/
theorem rowOf_eq_none_iff {α : Type} {t : List (Nat × (α → Instr))} {op : Nat} : rowOf t op = none ↔ op ∉ t.map (·.1) := by
  induction t with
  | nil => simp [rowOf]
  | cons r t ih =>
    obtain ⟨k, c⟩ := r
    by_cases hk : k = op
    · simp [rowOf, hk]
    · simp [rowOf, hk, ih, Ne.symm hk]

/-- Every instruction of a table is encoded in the table's format under its row's opcode. -/
def EncodedBy {α : Type} (enc : BitVec 8 → α → DWord) (t : List (Nat × (α → Instr))) : Prop :=
  ∀ r ∈ t, ∀ f, encode (r.2 f) = some (enc (BitVec.ofNat 8 r.1) f)

section
variable {α : Type} {enc : BitVec 8 → α → DWord} {t t' : List (Nat × (α → Instr))}

theorem encodedBy_nil : EncodedBy enc [] := List.forall_mem_nil _

theorem EncodedBy.cons {k : Nat} {c : α → Instr} (h : ∀ f, encode (c f) = some (enc (BitVec.ofNat 8 k) f)) (ht : EncodedBy enc t) :
    EncodedBy enc ((k, c) :: t) := List.forall_mem_cons.mpr ⟨h, ht⟩

theorem EncodedBy.append (h : EncodedBy enc t) (h' : EncodedBy enc t') : EncodedBy enc (t ++ t') :=
  List.forall_mem_append.mpr ⟨h, h'⟩

end

theorem sTable_encodedBy : EncodedBy encS sTable := by
  refine .append ?_ ?_ <;> repeat refine .cons (fun _ => rfl) ?_
  all_goals exact encodedBy_nil

theorem iTable_encodedBy : EncodedBy encI iTable := by
  repeat refine .cons (fun _ => rfl) ?_
  exact encodedBy_nil

theorem cTable_encodedBy : EncodedBy encC cTable := by
  repeat refine .cons (fun _ => rfl) ?_
  exact encodedBy_nil

theorem v2Table_encodedBy : EncodedBy encV2 v2Table := by
  refine .append ?_ ?_ <;> repeat refine .cons (fun _ => rfl) ?_
  all_goals exact encodedBy_nil

theorem v3Table_encodedBy : EncodedBy encV3 v3Table := by
  repeat refine .cons (fun _ => rfl) ?_
  exact encodedBy_nil

theorem mTable_encodedBy : EncodedBy encM mTable := by
  repeat refine .cons (fun _ => rfl) ?_
  exact encodedBy_nil

/-- WAITT, TLREAD and MEASX have two instructions each under one opcode. -/
theorem eTable_encodedBy : EncodedBy encE eTable := by
  refine .append ?_ ?_ <;> repeat (refine .cons (fun f => ?_) ?_; · (try dsimp only); (try split) <;> rfl)
  all_goals exact encodedBy_nil

/-! ### The fields of a word -/

/-- Adjacent fields of a word are one field. -/
theorem append_extract {m n s : Nat} {w : DWord} {x : BitVec m} (h : x = w.extractLsb' (s + n) m) :
    x ++ w.extractLsb' s n = w.extractLsb' s (m + n) := by
  subst h
  exact BitVec.extractLsb'_append_extractLsb'_eq_extractLsb' rfl

theorem encS_fieldsS (w : DWord) : encS (w.extractLsb' 56 8) (fieldsS w) = w := by
  refine .trans ?_ (extract_all w)
  repeat refine append_extract ?_
  rfl

theorem encI_fieldsI (w : DWord) : encI (w.extractLsb' 56 8) (fieldsI w) = w := by
  refine .trans ?_ (extract_all w)
  repeat refine append_extract ?_
  rfl

theorem encC_fieldsC (w : DWord) : encC (w.extractLsb' 56 8) (fieldsC w) = w := by
  refine .trans ?_ (extract_all w)
  repeat refine append_extract ?_
  rfl

theorem encV2_fieldsV2 (w : DWord) : encV2 (w.extractLsb' 56 8) (fieldsV2 w) = w := by
  refine .trans ?_ (extract_all w)
  repeat refine append_extract ?_
  rfl

theorem encV3_fieldsV3 (w : DWord) : encV3 (w.extractLsb' 56 8) (fieldsV3 w) = w := by
  refine .trans ?_ (extract_all w)
  repeat refine append_extract ?_
  rfl

theorem encM_fieldsM (w : DWord) : encM (w.extractLsb' 56 8) (fieldsM w) = w := by
  refine .trans ?_ (extract_all w)
  repeat refine append_extract ?_
  rfl

theorem encE_fieldsE (w : DWord) : encE (w.extractLsb' 56 8) (fieldsE w) = w := by
  refine .trans ?_ (extract_all w)
  repeat refine append_extract ?_
  rfl

/-- A word whose top byte is 0xF8 is the header that its fields say. -/
theorem encH_fieldsH {w : DWord} (h : opcodeOf w = 0xF8) : encH (fieldsH w) = w := by
  refine .trans ?_ (extract_all w)
  repeat refine append_extract ?_
  exact (BitVec.eq_of_toNat_eq (y := 0xF8) h).symm

theorem ofNat_opcodeOf (w : DWord) : BitVec.ofNat 8 (opcodeOf w) = w.extractLsb' 56 8 := BitVec.ofNat_toNat _ _ |>.trans (BitVec.setWidth_eq _)

/-- A row that answers a word's opcode gives, for the word's fields, an instruction whose encoding is the word. -/
theorem encode_of_rowOf {α : Type} {enc : BitVec 8 → α → DWord} {t : List (Nat × (α → Instr))} (ht : EncodedBy enc t) {w : DWord} {f : α}
    (hf : enc (w.extractLsb' 56 8) f = w) {c : α → Instr} (hc : rowOf t (opcodeOf w) = some c) : encode (c f) = some w := by
  rw [ht _ (mem_of_rowOf hc) f, ofNat_opcodeOf, hf]

theorem encode_of_decode {w : DWord} {i : Instr} (h : decode w = .ok i) : encode i = some w := by
  unfold decode at h
  dsimp only at h
  split at h
  next h8 => cases h; exact congrArg some (encH_fieldsH h8)
  next =>
  split at h
  next c hc => cases h; exact encode_of_rowOf sTable_encodedBy (encS_fieldsS w) hc
  next =>
  split at h
  next c hc => cases h; exact encode_of_rowOf iTable_encodedBy (encI_fieldsI w) hc
  next =>
  split at h
  next c hc => cases h; exact encode_of_rowOf cTable_encodedBy (encC_fieldsC w) hc
  next =>
  split at h
  next c hc => cases h; exact encode_of_rowOf v2Table_encodedBy (encV2_fieldsV2 w) hc
  next =>
  split at h
  next c hc => cases h; exact encode_of_rowOf v3Table_encodedBy (encV3_fieldsV3 w) hc
  next =>
  split at h
  next c hc => cases h; exact encode_of_rowOf mTable_encodedBy (encM_fieldsM w) hc
  next =>
  split at h
  next c hc => cases h; exact encode_of_rowOf eTable_encodedBy (encE_fieldsE w) hc
  next => cases h

/-! ### Unassigned opcodes -/

/-- The opcodes that have a row in some table, or are the header's. -/
def assigned (op : Nat) : Bool :=
  op == 0xF8 || (sTable.map (·.1)).contains op || (iTable.map (·.1)).contains op || (cTable.map (·.1)).contains op ||
    (v2Table.map (·.1)).contains op || (v3Table.map (·.1)).contains op || (mTable.map (·.1)).contains op || (eTable.map (·.1)).contains op

theorem decode_unassigned_iff (w : DWord) : (∃ n, decode w = .error (.unassigned n)) ↔ assigned (opcodeOf w) = false := by
  simp only [assigned, Bool.or_eq_false_iff, beq_eq_false_iff_ne, List.contains_eq_mem, decide_eq_false_iff_not, ← rowOf_eq_none_iff, ne_eq]
  unfold decode
  dsimp only
  constructor
  · rintro ⟨n, h⟩
    repeat (split at h; · cases h)
    simp_all
  · rintro ⟨⟨⟨⟨⟨⟨⟨h8, hs⟩, hi⟩, hc⟩, hv2⟩, hv3⟩, hm⟩, he⟩
    exact ⟨opcodeOf w, by simp only [if_neg h8, hs, hi, hc, hv2, hv3, hm, he]⟩

theorem opcodeOf_eq_div (w : DWord) : opcodeOf w = w.toNat / 2 ^ 56 := by
  have := w.isLt
  simp only [opcodeOf, BitVec.extractLsb'_toNat, Nat.shiftRight_eq_div_pow]
  omega

/-- The opcodes that R209 leaves unassigned. -/
theorem assigned_eq_false_iff : ∀ op, op < 256 → (assigned op = false ↔
    (0x2C ≤ op ∧ op ≤ 0x2F) ∨ (0x5D ≤ op ∧ op ≤ 0x5F) ∨ (0x76 ≤ op ∧ op ≤ 0x7F) ∨ (0x9B ≤ op ∧ op ≤ 0x9F) ∨
      (0xAB ≤ op ∧ op ≤ 0xAF) ∨ (0xB8 ≤ op ∧ op ≤ 0xBF) ∨ (0xC6 ≤ op ∧ op ≤ 0xCF) ∨ (0xD7 ≤ op ∧ op ≤ 0xF7) ∨ 0xF9 ≤ op) := by
  decide +kernel

end Sys2Proof

open Sys2Proof Sys2Proof.Machine

/-- Settles O19: instruction by instruction; a step of another agent has no word. -/
theorem roundTrip : Obligations.RoundTrip := fun i w hwf hw => by
  cases i with
  | nop f => exact Laws.RoundTrip.nop f hwf w hw
  | sadd f => exact Laws.RoundTrip.sadd f hwf w hw
  | ssub f => exact Laws.RoundTrip.ssub f hwf w hw
  | smul f => exact Laws.RoundTrip.smul f hwf w hw
  | smulh f => exact Laws.RoundTrip.smulh f hwf w hw
  | sdiv f => exact Laws.RoundTrip.sdiv f hwf w hw
  | srem f => exact Laws.RoundTrip.srem f hwf w hw
  | sand f => exact Laws.RoundTrip.sand f hwf w hw
  | sor f => exact Laws.RoundTrip.sor f hwf w hw
  | sxor f => exact Laws.RoundTrip.sxor f hwf w hw
  | sandn f => exact Laws.RoundTrip.sandn f hwf w hw
  | sshl f => exact Laws.RoundTrip.sshl f hwf w hw
  | sshr f => exact Laws.RoundTrip.sshr f hwf w hw
  | ssha f => exact Laws.RoundTrip.ssha f hwf w hw
  | smin f => exact Laws.RoundTrip.smin f hwf w hw
  | smax f => exact Laws.RoundTrip.smax f hwf w hw
  | scmp f => exact Laws.RoundTrip.scmp f hwf w hw
  | ssel f => exact Laws.RoundTrip.ssel f hwf w hw
  | smov f => exact Laws.RoundTrip.smov f hwf w hw
  | smovi f => exact Laws.RoundTrip.smovi f hwf w hw
  | sbfe f => exact Laws.RoundTrip.sbfe f hwf w hw
  | sbfi f => exact Laws.RoundTrip.sbfi f hwf w hw
  | slzc f => exact Laws.RoundTrip.slzc f hwf w hw
  | spopc f => exact Laws.RoundTrip.spopc f hwf w hw
  | sffs f => exact Laws.RoundTrip.sffs f hwf w hw
  | sadd64 f => exact Laws.RoundTrip.sadd64 f hwf w hw
  | ssub64 f => exact Laws.RoundTrip.ssub64 f hwf w hw
  | smad64 f => exact Laws.RoundTrip.smad64 f hwf w hw
  | scvt f => exact Laws.RoundTrip.scvt f hwf w hw
  | sfma f => exact Laws.RoundTrip.sfma f hwf w hw
  | sfcmp f => exact Laws.RoundTrip.sfcmp f hwf w hw
  | gets f => exact Laws.RoundTrip.gets f hwf w hw
  | mand f => exact Laws.RoundTrip.mand f hwf w hw
  | mor f => exact Laws.RoundTrip.mor f hwf w hw
  | mxor f => exact Laws.RoundTrip.mxor f hwf w hw
  | mandn f => exact Laws.RoundTrip.mandn f hwf w hw
  | mnot f => exact Laws.RoundTrip.mnot f hwf w hw
  | mmov f => exact Laws.RoundTrip.mmov f hwf w hw
  | mpopc f => exact Laws.RoundTrip.mpopc f hwf w hw
  | mffs f => exact Laws.RoundTrip.mffs f hwf w hw
  | msave f => exact Laws.RoundTrip.msave f hwf w hw
  | melse f => exact Laws.RoundTrip.melse f hwf w hw
  | mjoin f => exact Laws.RoundTrip.mjoin f hwf w hw
  | mlive f => exact Laws.RoundTrip.mlive f hwf w hw
  | bra f => exact Laws.RoundTrip.bra f hwf w hw
  | brz f => exact Laws.RoundTrip.brz f hwf w hw
  | brnz f => exact Laws.RoundTrip.brnz f hwf w hw
  | bmz f => exact Laws.RoundTrip.bmz f hwf w hw
  | bmnz f => exact Laws.RoundTrip.bmnz f hwf w hw
  | bmall f => exact Laws.RoundTrip.bmall f hwf w hw
  | call f => exact Laws.RoundTrip.call f hwf w hw
  | ret f => exact Laws.RoundTrip.ret f hwf w hw
  | jmpi f => exact Laws.RoundTrip.jmpi f hwf w hw
  | exit f => exact Laws.RoundTrip.exit f hwf w hw
  | bar f => exact Laws.RoundTrip.bar f hwf w hw
  | bara f => exact Laws.RoundTrip.bara f hwf w hw
  | barw f => exact Laws.RoundTrip.barw f hwf w hw
  | yield f => exact Laws.RoundTrip.yield f hwf w hw
  | nap f => exact Laws.RoundTrip.nap f hwf w hw
  | trap f => exact Laws.RoundTrip.trap f hwf w hw
  | vadd f => exact Laws.RoundTrip.vadd f hwf w hw
  | vsub f => exact Laws.RoundTrip.vsub f hwf w hw
  | vmul f => exact Laws.RoundTrip.vmul f hwf w hw
  | vmulh f => exact Laws.RoundTrip.vmulh f hwf w hw
  | vmad f => exact Laws.RoundTrip.vmad f hwf w hw
  | vmin f => exact Laws.RoundTrip.vmin f hwf w hw
  | vmax f => exact Laws.RoundTrip.vmax f hwf w hw
  | vabsd f => exact Laws.RoundTrip.vabsd f hwf w hw
  | vand f => exact Laws.RoundTrip.vand f hwf w hw
  | vor f => exact Laws.RoundTrip.vor f hwf w hw
  | vxor f => exact Laws.RoundTrip.vxor f hwf w hw
  | vlogic f => exact Laws.RoundTrip.vlogic f hwf w hw
  | vshl f => exact Laws.RoundTrip.vshl f hwf w hw
  | vshr f => exact Laws.RoundTrip.vshr f hwf w hw
  | vsha f => exact Laws.RoundTrip.vsha f hwf w hw
  | vbfe f => exact Laws.RoundTrip.vbfe f hwf w hw
  | vbfi f => exact Laws.RoundTrip.vbfi f hwf w hw
  | vpopc f => exact Laws.RoundTrip.vpopc f hwf w hw
  | vlzc f => exact Laws.RoundTrip.vlzc f hwf w hw
  | vcmp f => exact Laws.RoundTrip.vcmp f hwf w hw
  | vsel f => exact Laws.RoundTrip.vsel f hwf w hw
  | vmov f => exact Laws.RoundTrip.vmov f hwf w hw
  | vmovi f => exact Laws.RoundTrip.vmovi f hwf w hw
  | vlane f => exact Laws.RoundTrip.vlane f hwf w hw
  | vred f => exact Laws.RoundTrip.vred f hwf w hw
  | vscan f => exact Laws.RoundTrip.vscan f hwf w hw
  | vrand f => exact Laws.RoundTrip.vrand f hwf w hw
  | vplane f => exact Laws.RoundTrip.vplane f hwf w hw
  | vunplane f => exact Laws.RoundTrip.vunplane f hwf w hw
  | vfadd f => exact Laws.RoundTrip.vfadd f hwf w hw
  | vfsub f => exact Laws.RoundTrip.vfsub f hwf w hw
  | vfmul f => exact Laws.RoundTrip.vfmul f hwf w hw
  | vfma f => exact Laws.RoundTrip.vfma f hwf w hw
  | vfmin f => exact Laws.RoundTrip.vfmin f hwf w hw
  | vfmax f => exact Laws.RoundTrip.vfmax f hwf w hw
  | vfcmp f => exact Laws.RoundTrip.vfcmp f hwf w hw
  | vfclass f => exact Laws.RoundTrip.vfclass f hwf w hw
  | vfdiv f => exact Laws.RoundTrip.vfdiv f hwf w hw
  | vfsqrt f => exact Laws.RoundTrip.vfsqrt f hwf w hw
  | vfrcp f => exact Laws.RoundTrip.vfrcp f hwf w hw
  | vfrsq f => exact Laws.RoundTrip.vfrsq f hwf w hw
  | vfexp2 f => exact Laws.RoundTrip.vfexp2 f hwf w hw
  | vflog2 f => exact Laws.RoundTrip.vflog2 f hwf w hw
  | vfsin f => exact Laws.RoundTrip.vfsin f hwf w hw
  | vfcos f => exact Laws.RoundTrip.vfcos f hwf w hw
  | vftanh f => exact Laws.RoundTrip.vftanh f hwf w hw
  | vcvt f => exact Laws.RoundTrip.vcvt f hwf w hw
  | vpack f => exact Laws.RoundTrip.vpack f hwf w hw
  | vunpk f => exact Laws.RoundTrip.vunpk f hwf w hw
  | vfred f => exact Laws.RoundTrip.vfred f hwf w hw
  | vfdot2 f => exact Laws.RoundTrip.vfdot2 f hwf w hw
  | vld f => exact Laws.RoundTrip.vld f hwf w hw
  | vst f => exact Laws.RoundTrip.vst f hwf w hw
  | sld f => exact Laws.RoundTrip.sld f hwf w hw
  | sst f => exact Laws.RoundTrip.sst f hwf w hw
  | vatom f => exact Laws.RoundTrip.vatom f hwf w hw
  | satom f => exact Laws.RoundTrip.satom f hwf w hw
  | fqpush f => exact Laws.RoundTrip.fqpush f hwf w hw
  | fqpop f => exact Laws.RoundTrip.fqpop f hwf w hw
  | cpref f => exact Laws.RoundTrip.cpref f hwf w hw
  | cflush f => exact Laws.RoundTrip.cflush f hwf w hw
  | segcfg f => exact Laws.RoundTrip.segcfg f hwf w hw
  | tcopy f => exact Laws.RoundTrip.tcopy f hwf w hw
  | spmark f => exact Laws.RoundTrip.spmark f hwf w hw
  | fload f => exact Laws.RoundTrip.fload f hwf w hw
  | fstore f => exact Laws.RoundTrip.fstore f hwf w hw
  | freset f => exact Laws.RoundTrip.freset f hwf w hw
  | fence f => exact Laws.RoundTrip.fence f hwf w hw
  | batch f => exact Laws.RoundTrip.batch f hwf w hw
  | waitt f => exact Laws.RoundTrip.waitt f hwf w hw
  | waittMemory f => exact Laws.RoundTrip.waittMemory f hwf w hw
  | tlread f => exact Laws.RoundTrip.tlread f hwf w hw
  | tlreadDeferred f => exact Laws.RoundTrip.tlreadDeferred f hwf w hw
  | cgbegin f => exact Laws.RoundTrip.cgbegin f hwf w hw
  | cgcommit f => exact Laws.RoundTrip.cgcommit f hwf w hw
  | cgabort f => exact Laws.RoundTrip.cgabort f hwf w hw
  | sbset f => exact Laws.RoundTrip.sbset f hwf w hw
  | sbclr f => exact Laws.RoundTrip.sbclr f hwf w hw
  | sbwait f => exact Laws.RoundTrip.sbwait f hwf w hw
  | sbtake f => exact Laws.RoundTrip.sbtake f hwf w hw
  | obres f => exact Laws.RoundTrip.obres f hwf w hw
  | obrel f => exact Laws.RoundTrip.obrel f hwf w hw
  | obwr f => exact Laws.RoundTrip.obwr f hwf w hw
  | obrd f => exact Laws.RoundTrip.obrd f hwf w hw
  | mplane f => exact Laws.RoundTrip.mplane f hwf w hw
  | mlds f => exact Laws.RoundTrip.mlds f hwf w hw
  | mswap f => exact Laws.RoundTrip.mswap f hwf w hw
  | mma f => exact Laws.RoundTrip.mma f hwf w hw
  | macz f => exact Laws.RoundTrip.macz f hwf w hw
  | mshout f => exact Laws.RoundTrip.mshout f hwf w hw
  | mshin f => exact Laws.RoundTrip.mshin f hwf w hw
  | rstore f => exact Laws.RoundTrip.rstore f hwf w hw
  | rload f => exact Laws.RoundTrip.rload f hwf w hw
  | rred f => exact Laws.RoundTrip.rred f hwf w hw
  | ratom f => exact Laws.RoundTrip.ratom f hwf w hw
  | rsig f => exact Laws.RoundTrip.rsig f hwf w hw
  | rxfer f => exact Laws.RoundTrip.rxfer f hwf w hw
  | trgarm f => exact Laws.RoundTrip.trgarm f hwf w hw
  | trgcan f => exact Laws.RoundTrip.trgcan f hwf w hw
  | apxbegin f => exact Laws.RoundTrip.apxbegin f hwf w hw
  | apxend f => exact Laws.RoundTrip.apxend f hwf w hw
  | apxinv f => exact Laws.RoundTrip.apxinv f hwf w hw
  | apxqry f => exact Laws.RoundTrip.apxqry f hwf w hw
  | taskq f => exact Laws.RoundTrip.taskq f hwf w hw
  | tasksig f => exact Laws.RoundTrip.tasksig f hwf w hw
  | sets f => exact Laws.RoundTrip.sets f hwf w hw
  | eret f => exact Laws.RoundTrip.eret f hwf w hw
  | syscall f => exact Laws.RoundTrip.syscall f hwf w hw
  | tlbinv f => exact Laws.RoundTrip.tlbinv f hwf w hw
  | hashb f => exact Laws.RoundTrip.hashb f hwf w hw
  | signq f => exact Laws.RoundTrip.signq f hwf w hw
  | measxExtend f => exact Laws.RoundTrip.measxExtend f hwf w hw
  | measxRead f => exact Laws.RoundTrip.measxRead f hwf w hw
  | clauseHeader h => exact Laws.RoundTrip.clauseHeader h hwf w hw
  | _ => cases hw

/-- Settles O20: each table row by `encode_of_rowOf`, and the opcodes of no row by their list. -/
theorem decodingIsExact : Obligations.DecodingIsExact := by
  refine ⟨fun _ _ => encode_of_decode, fun w => ?_⟩
  dsimp only
  rw [decode_unassigned_iff, ← opcodeOf_eq_div]
  exact assigned_eq_false_iff _ (by rw [opcodeOf_eq_div]; have := w.isLt; omega)

/-- Settles O21: the decoder computes each. -/
theorem decodeWords : Obligations.DecodeWords := by
  unfold Obligations.DecodeWords
  decide +kernel

end

section
/-! SUPPORT. What reset leaves in the owner table (R408), and how a turn of the agenda reaches the instruction that a wave's next word
decodes to. -/

set_option Elab.async false

namespace Sys2Proof.Machine

/-! ### The owner table at reset -/

theorem bondedDie_lt {pa d : Nat} (h : bondedDie pa = some d) : d < 4 :=
  List.mem_range.mp (List.mem_of_find?_eq_some h)

/-- The owner table has an entry for every index (R408). -/
theorem ownerIndex_lt (pa : Nat) : ownerIndex pa < 2 ^ 25 + 2 ^ 22 := by
  unfold ownerIndex
  split
  next d h =>
    have hd := bondedDie_lt h
    have : fld pa 35 16 < 2 ^ 20 := Nat.mod_lt _ (by decide)
    omega
  next =>
    have : fld pa 40 16 < 2 ^ 25 := Nat.mod_lt _ (by decide)
    omega

theorem byte_reset (a : Nat) : State.reset.byte a = memReset a := rfl

/-- Byte `j` of an owner entry at reset. -/
theorem memReset_ownerPa (pa : Nat) {j : Nat} (hj : j < 16) : memReset (ownerPa pa + j) = if j = 1 then 2 else 0 := by
  have hi := ownerIndex_lt pa
  have ht : inOwnerTable (ownerPa pa + j) = true := by
    refine decide_eq_true ?_
    simp only [ownerPa, ownerBase, ownerSize]
    omega
  have hm : (ownerPa pa + j) % 16 = j := by
    simp only [ownerPa, ownerBase]
    omega
  simp [memReset, ht, hm]

theorem owner_reset (a : Nat) : State.reset.owner a = { world := 0, state := 2, shared := false, version := 0 } := by
  have h := fun j (hj : j < 16) => (byte_reset (ownerPa a + j)).trans (memReset_ownerPa a hj)
  have h0 : State.reset.byte (ownerPa a) = 0 := h 0 (by decide)
  have hv : State.reset.bytes (ownerPa a + 8) 8 = List.replicate 8 0 := 
    List.map_congr_left (g := fun _ => 0) fun i hi => by
    have := List.mem_range.mp hi
    rw [Nat.add_assoc, h (8 + i) (by omega), if_neg (by omega)]
  simp only [State.owner, State.read, h0, h 1 (by decide), hv]
  decide

/-! ### Turns -/

theorem State.settle_next (wait t : State) (b : Bool) (h : t.blocked = b) :
    wait.settle (.next t) = .next (if b then { wait with blocked := false } else t) := by subst h; rfl

/-- An event at the head of the agenda happens, whatever the package's state of supply but off (R423). -/
theorem step_event {s : State} {rest : List Turn} {i : Instr} (hp : s.power.powered = true) (ha : s.agenda = .event i :: rest)
    (hi : encode i = none) : step s = State.settle { s with agenda := rest } (exec i { s with agenda := rest }) := by
  simp only [step, ha, hi, hp, Option.isNone_none, Bool.true_or, Bool.and_true, if_true]

/-- The wave whose turn it is runs what its next word decodes to (R194, R210). -/
theorem State.runWave_word {s t : State} {u : Nat} {w : Wave} {x : DWord} (hc : s.cur = some u) (hw : s.wave u = some w)
    (hg : issueGate s u w (!w.clause.inside) = none) (hn : s.nextWord u w = .word x t) :
    (∀ i, decode x = .ok i → (∀ h, i ≠ .clauseHeader h) → s.runWave = if w.clause.inside then exec i t else t.illegalHeader x) ∧
    (∀ h, decode x = .ok (.clauseHeader h) → s.runWave = if w.clause.inside then t.illegalWord x else exec (.clauseHeader h) t) ∧
    ∀ e, decode x = .error e → s.runWave = if w.clause.inside then t.illegalWord x else t.illegalHeader x := by
  refine ⟨fun i hd hi => ?_, fun h hd => ?_, fun e hd => ?_⟩
  · simp only [State.runWave, hc, hw, hg, hn, hd]
  · simp only [State.runWave, hc, hw, hg, hn, hd]
  · simp only [State.runWave, hc, hw, hg, hn, hd]

/-- A wave that a core selects is the wave whose turn it is. -/
theorem State.cur_of_selectWave {s t : State} {c u : Nat} (h : s.selectWave c = some (u, t)) : t.cur = some u := by
  unfold State.selectWave at h
  dsimp only at h
  split at h
  · cases h
  · split at h
    · cases h; rfl
    · split at h
      · cases h
      · cases h; rfl

theorem State.coreTurn_selects {s t : State} {c u : Nat} (hs : s.power.stopped = false)
    (hsel : (if (s.core c).lastIssue = some s.clock then s.advance 1 0 else s).selectWave c = some (u, t)) : s.coreTurn c = t.runWave := by
  simp only [State.coreTurn, hs, Bool.false_eq_true, if_false, beq_iff_eq, hsel]

/-- A core at the head of the agenda has its turn (R162). -/
theorem step_core {s : State} {rest : List Turn} {c : Nat} (hp : s.power.powered = true) (ha : s.agenda = .core c :: rest) :
    step s = (State.advance { s with agenda := rest } 1 0).settle (State.coreTurn { s with agenda := rest } c) := by
  simp only [step, ha, hp, if_true]

/-- Words fetched with the clause come first. -/
theorem State.nextWord_fetched {s : State} {u : Nat} {w : Wave} {x : DWord} {xs : List DWord} (hi : w.clause.inside = true)
    (hx : w.clause.words = x :: xs) : s.nextWord u w = .word x s := by
  simp only [State.nextWord, hi, hx]

theorem State.nextWord_fetchAt {s : State} {u : Nat} {w : Wave} (h : w.clause.inside = false ∨ w.clause.words = []) :
    s.nextWord u w = s.fetchAt u w w.pc := by
  unfold State.nextWord
  split
  next hi hx => simp [hi, hx] at h
  next => rfl

/-- A line that the instruction cache does not hold is read from memory, and only the cache changes. -/
theorem State.readCode_miss {s : State} {core world pa : Nat}
    (h : ((s.core (codeCore core)).code.find? fun y => y.line == pa / 64 && y.world == world) = none) (hp : s.poisoned pa 8 = false) :
    ∃ t, s.readCode core world pa = some (BitVec.ofNat 64 (s.read pa 8), t) ∧ t = { s with cores := t.cores } := by
  simp only [State.readCode, h, hp, Bool.false_eq_true, if_false]
  split <;> exact ⟨_, rfl, rfl⟩

theorem State.readCode_hit {s : State} {core world pa : Nat} {y : CodeLine}
    (h : ((s.core (codeCore core)).code.find? fun y => y.line == pa / 64 && y.world == world) = some y) :
    s.readCode core world pa = some (BitVec.ofNat 64 (leNat ((y.bytes.drop (pa % 64)).take 8)), s) := by
  simp only [State.readCode, h]

theorem State.fetchAt_ok {s t : State} {u : Nat} {w : Wave} {va x : DWord} {pa : Nat} {r : Tr}
    (hx : waveXlate s w va.toNat 3 false = .ok pa r) (hr : s.readCode w.core (s.waveWorld w) pa = some (x, t)) :
    s.fetchAt u w va = .word x t := by
  simp only [State.fetchAt, hx, hr]

end Sys2Proof.Machine

open Sys2Proof Sys2Proof.Machine

/-- Settles O24: the fields as `State.reset` gives them, and the owner table by `owner_reset`. -/
theorem resetState : Obligations.ResetState := by
  refine ⟨⟨State.reset_memOk, fun a ha => ?_, owner_reset⟩, ?_⟩
  · rw [byte_reset, memReset, ha]; rfl
  · dsimp only
    refine ⟨rfl, rfl, rfl, rfl, fun _ _ => rfl, rfl, rfl, rfl, rfl, rfl, rfl, rfl, rfl, rfl, rfl, rfl, rfl, rfl, rfl, rfl, fun _ _ => rfl, fun _ _ => rfl, fun _ => rfl,
      fun _ => ⟨rfl, rfl, rfl, rfl, rfl⟩, fun _ => ⟨rfl, rfl, rfl, rfl⟩⟩

/-- Settles O22: from the agenda to the core's turn, to the wave's, to its word. -/
theorem stepRunsDecoded : Obligations.StepRunsDecoded := by
  refine ⟨fun s rest hp => ⟨fun i ha hi => step_event hp ha hi, ?_⟩, fun s u w => ⟨fun x xs hi hx => State.nextWord_fetched hi hx, ?_⟩, ?_⟩
  · intro c u s' s'' w x now ha hs hsel hw hg hn
    rw [step_core hp ha, State.coreTurn_selects (s := { s with agenda := rest }) hs hsel]
    obtain ⟨h1, h2, h3⟩ := State.runWave_word (State.cur_of_selectWave hsel) hw hg hn
    exact ⟨fun i hd hi => congrArg _ (h1 i hd hi), fun h hd => congrArg _ (h2 h hd), fun e hd => congrArg _ (h3 e hd)⟩
  · intro pa r hin hx line
    rw [State.nextWord_fetchAt hin]
    refine ⟨fun hl hp => ?_, fun y hy => State.fetchAt_ok hx (State.readCode_hit hy)⟩
    obtain ⟨t, hr, ht⟩ := State.readCode_miss hl hp
    exact ⟨t, State.fetchAt_ok hx hr, ht⟩
  · exact fun wait t => ⟨State.settle_next wait t false, State.settle_next wait t true⟩

end

section
/-! SUPPORT. What an instruction that issues completes with, from what its body does with its wave. -/

set_option Elab.async false

namespace Sys2Proof.Machine

section
variable {s : State} {u : Nat} {w : Wave} {i : Instr} {body : Body}

/-- An instruction that issues comes to what its body does with the readied wave. -/
theorem Issues.exec_eq (h : Issues s u w i) (hx : exec i s = runInstr i body s) {a : Act}
    (hb : body (s.setWave u w.readied) u w.readied = a) : exec i s = finishAct u w.pc (closesRegion w (Instr.op i)) false a := by
  rw [hx, runInstr_issues h, hb]

/-- Retiring a wave that an instruction has changed alone. -/
theorem completes_of_retire {x : Wave} {next : DWord} {leaves closes : Bool} (hcore : x.core = w.core)
    (hx : exec i s = .next ((s.setWave u x).retire u w.pc next leaves closes false)) :
    Completes s u w i (x.completed next leaves closes) := by
  refine ⟨_, hx, State.retire_wave (by simp) .., ?_⟩
  rw [← hcore]
  exact OnlyWave.of_setWave (State.retire_onlyWave (by simp) ..)

/-- An instruction whose body changes its wave alone completes with that change. -/
theorem Issues.completes_done (h : Issues s u w i) (hx : exec i s = runInstr i body s) {x : Wave}
    (hb : body (s.setWave u w.readied) u w.readied = .done (s.setWave u x)) (hcore : x.core = w.core) :
    Completes s u w i (x.completed (w.pc + 8) false (closesRegion w (Instr.op i))) :=
  completes_of_retire hcore (h.exec_eq hx hb)

/-- One that changes only registers and special registers of its wave and closes no region. -/
theorem Issues.completes_regs (h : Issues s u w i) (hx : exec i s = runInstr i body s) (hc : closesRegion w (Instr.op i) = false)
    {regs : Regs} {sp : Specials}
    (hb : body (s.setWave u w.readied) u w.readied = .done (s.setWave u { w.readied with regs := regs, sp := sp })) :
    Completes s u w i (w.after regs sp) := by
  have hd := h.completes_done hx hb rfl
  rw [hc, Wave.completed_eq] at hd
  exact hd

/-- One that also leaves a late result (R169): its lookahead is what the instruction asked for. -/
theorem Issues.completes_addLate (h : Issues s u w i) (hx : exec i s = runInstr i body s) (hc : closesRegion w (Instr.op i) = false)
    {regs : Regs} {sp : Specials} {kind : LateKind} {vec : Bool} {reg nregs size la : Nat} {lanes : List LaneAcc} {vals : List (Nat × Nat)}
    (hb : body (s.setWave u w.readied) u w.readied =
      .done (s.setWave u (Wave.addLate { w.readied with regs := regs, sp := sp } kind vec reg nregs size la lanes vals))) :
    ∃ l, Completes s u w i { w.after regs sp with lateSeq := w.lateSeq + 1, late := (w.after regs sp).late ++ [l] } ∧
      l.seq = w.lateSeq + 1 ∧ l.kind = kind ∧ l.vec = vec ∧ l.reg = (if vec then reg else w.skey reg) ∧ l.nregs = nregs ∧ l.window = la ∧
      l.vals = vals := by
  have hd := h.completes_done hx hb rfl
  rw [hc, Wave.completed_eq] at hd
  simp only [Wave.addLate, List.map_append, List.map_cons, List.map_nil, Nat.add_sub_cancel] at hd
  exact ⟨_, hd, rfl, rfl, rfl, rfl, rfl, rfl, rfl⟩

/-- The same for one that jumps. -/
theorem Issues.completes_jump (h : Issues s u w i) (hx : exec i s = runInstr i body s) {x : Wave} {target : DWord}
    (hb : body (s.setWave u w.readied) u w.readied = .jump (s.setWave u x) target) (hcore : x.core = w.core) :
    Completes s u w i (x.completed target true (closesRegion w (Instr.op i))) :=
  completes_of_retire hcore (h.exec_eq hx hb)

end

/-! ### What an instruction reads of a state in which its wave has been readied -/

theorem special_setWave (s : State) (u : Nat) (x w : Wave) (n : Nat) : special (s.setWave u x) w.readied n = special s w n := rfl

theorem waveXlate_setWave (s : State) (u : Nat) (x w : Wave) (va access : Nat) (io : Bool) :
    waveXlate (s.setWave u x) w.readied va access io = waveXlate s w va access io := rfl

theorem waveXlate_setWave_self (s : State) (u : Nat) (x w : Wave) (va access : Nat) (io : Bool) :
    waveXlate (s.setWave u x) w va access io = waveXlate s w va access io := rfl
end Sys2Proof.Machine
end

section
/-! SUPPORT. GETS (R211, R232), the control transfers (R237, R238), and a wave that the mask instructions and EXIT do not leave as
R159 has it: one with more EXEC words than there are scalar registers for them. -/

set_option Elab.async false

namespace Sys2Proof.Machine

/-! ### GETS -/

/-- The fields of a GETS that issues name one of the 28 special registers (R211). -/
theorem Issues.gets_index {s : State} {u : Nat} {w : Wave} {f : SF} (h : Issues s u w (.gets f)) : f.imm.toNat ≤ 27 := by
  have h0 : (f.imm.extractLsb' 0 8).toNat ≤ 27 := of_decide_eq_true (h.must (c := mustLe 0 (f.imm.extractLsb' 0 8) 27) (by simp [Instr.must]))
  have h8 : f.imm.extractLsb' 8 16 = 0 := eq_of_beq (h.must (c := mustZero 8 (f.imm.extractLsb' 8 16)) (by simp [Instr.must]))
  have h8' : (f.imm.extractLsb' 8 16).toNat = 0 := by rw [h8]; rfl
  have := f.imm.isLt
  simp only [BitVec.extractLsb'_toNat, Nat.shiftRight_eq_div_pow] at h0 h8'
  omega

theorem Issues.gets_block {s : State} {u : Nat} {w : Wave} {f : SF} (h : Issues s u w (.gets f)) :
    f.d.toNat + specialRegs f.imm.toNat ≤ 128 := by
  refine h.destBlock List.mem_cons_self (lo' := 48) (al := specialRegs f.imm.toNat) (rd := false) ?_
  have : f.imm.toNat % 256 = f.imm.toNat := Nat.mod_eq_of_lt (by have := h.gets_index; omega)
  show _ ⊆ useS 48 f.d (specialRegs (f.imm.toNat % 256)) (specialRegs (f.imm.toNat % 256)) false
  rw [this]
  exact List.Subset.refl _

theorem scalarResult_special (w : Wave) {d n : Nat} (v : DWord) (hd : d + specialRegs n ≤ 128) :
    ScalarResult w (if specialRegs n = 2 then w.setS64 d v else w.setS d (v.extractLsb' 0 32)) d (specialRegs n)
      fun j => v.extractLsb' (32 * j) 32 := by
  by_cases h2 : specialRegs n = 2
  · rw [if_pos h2, h2]
    exact scalarResult_setS64 w (h2 ▸ hd) v
  · have h1 : specialRegs n = 1 := by unfold specialRegs at h2 ⊢; split at h2 <;> simp_all
    rw [if_neg h2, h1]
    exact scalarResult_setS w (by omega) fun j => v.extractLsb' (32 * j) 32

/-! ### Control transfers -/

theorem op_of_encC {i : Instr} {op : BitVec 8} {f : CF} (h : encode i = some (encC op f)) : Instr.op i = op.toNat := by
  simp [Instr.op, h, opcodeOf_encC]

/-- A control transfer that issues is the last instruction of its clause (R196). -/
theorem Issues.left_eq_one {s : State} {u : Nat} {w : Wave} {i : Instr} (h : Issues s u w i) (ht : isTransfer (Instr.op i) = true) :
    w.clause.left = 1 := by
  obtain ⟨-, -, -, hk, -⟩ := h
  unfold issueCheck at hk
  dsimp only at hk
  split at hk
  · cases hk
  · rename_i hn
    simp only [ht, Bool.true_and, Bool.or_eq_true, Bool.not_eq_true', bne_iff_ne, not_or, not_not] at hn
    exact hn.2

/-- What a transfer comes to, by its target (R196, R238). -/
theorem transfer_headerAt {s : State} {u : Nat} {w x : Wave} {target : Wave → DWord} {taken : Wave → Bool} {effect : Wave → Wave}
    (h : HeaderAt s w (target w.readied)) :
    transfer target taken effect (s.setWave u x) u w.readied =
      if taken w.readied then .jump ((s.setWave u x).setWave u (effect w.readied)) (target w.readied) else .done (s.setWave u x) := by
  obtain ⟨ha, hc, hx⟩ := h
  unfold transfer
  dsimp only
  rw [if_neg (by simp [ha]), if_neg (by simp [hc]), waveXlate_setWave]
  cases hx' : waveXlate s w (target w.readied).toNat 3 false with
  | ok pa r =>
    rw [hx'] at hx
    exact if_pos hx
  | miss => rw [hx'] at hx; exact hx.elim
  | fault k l => rfl
  | firewall => rfl

section
variable {c : CF → Instr} {target t : CF → Wave → DWord} {taken k : CF → Wave → Bool} {effect : CF → Wave → Wave} {link : CF → Option (BitVec 8)}

/-- The wave as a transfer leaves it, at its target or the next word. -/
theorem completed_transfer {w : Wave} (hleft : w.clause.left = 1) (regs : Regs) (pc : DWord) (leaves : Bool) :
    Wave.completed { w.readied with regs := regs } pc leaves false =
      { w.after regs w.sp with pc := pc, clause := { w.clause with inside := false, left := 0, words := [] } } := by
  simp [Wave.completed, Wave.after, Wave.readied, hleft]

/-- A control transfer, from what its target, condition and effect are. -/
theorem TransferOf.of_transfer (hx : ∀ f s, exec (c f) s = runInstr (c f) (transfer (t f) (k f) (effect f)) s)
    (ht : ∀ f w, t f w.readied = target f w) (hk : ∀ f w, k f w.readied = taken f w)
    (he : ∀ (s : State) (u : Nat) (w : Wave) (f : CF), Issues s u w (c f) → ∃ regs, effect f w.readied = { w.readied with regs := regs } ∧
      match link f with
      | some d => taken f w = true ∧ ScalarResult w (effect f w.readied) d.toNat 2 fun j => (w.pc + 8).extractLsb' (32 * j) 32
      | none => regs = w.regs)
    (hop : ∀ f w, closesRegion w (Instr.op (c f)) = false ∧ isTransfer (Instr.op (c f)) = true) : TransferOf c target taken link := by
  intro s u w f h x trap
  have hleft := h.left_eq_one (hop f w).2
  have hact := fun {a : Act} (hb : transfer (t f) (k f) (effect f) (s.setWave u w.readied) u w.readied = a) => h.exec_eq (hx f s) hb
  have htr := fun (a : State → Act) hb => hact (a := a (s.setWave u w.readied)) hb
  refine ⟨fun hh => ?_, fun hm => ?_, fun hm hcn => ?_, fun hm hcn pa r hxl hb => ?_⟩
  · obtain ⟨regs, hef, hl⟩ := he s u w f h
    have hb := transfer_headerAt (s := s) (u := u) (w := w) (x := w.readied) (target := t f) (taken := k f) (effect := effect f) (by rw [ht]; exact hh)
    rw [hk, ht, hef, State.setWave_setWave] at hb
    cases htk : taken f w with
    | true =>
      have hd := h.completes_jump (hx f s) (hb.trans (if_pos htk)) rfl
      rw [(hop f w).1, completed_transfer hleft] at hd
      refine ⟨_, hd, by simp [Wave.after, x], ?_⟩
      cases hd' : link f with
      | some d => rw [hd', hef] at hl; exact hl.2.after rfl w.sp
      | none => rw [hd'] at hl; exact hl
    | false =>
      have hd := h.completes_done (hx f s) (x := w.readied) (hb.trans (if_neg (by simp [htk]))) rfl
      have hc : w.readied.completed (w.pc + 8) false false = _ := completed_transfer hleft w.regs (w.pc + 8) false
      rw [(hop f w).1, hc] at hd
      refine ⟨_, hd, by simp [Wave.after], ?_⟩
      cases hd' : link f with
      | some d => rw [hd'] at hl; exact absurd hl.1 (by simp [htk])
      | none => rfl
  · refine htr (fun s => .trap s trapMisaligned x 0) ?_
    unfold transfer
    simp only [ht]
    exact if_pos hm
  · refine htr (fun s => .trap s trapTranslation x 0x303) ?_
    unfold transfer
    simp only [ht]
    rw [if_neg (by simpa using hm), if_pos (by simpa using hcn)]
    exact congrArg (fun y => Act.trap _ trapTranslation y 0x303) (BitVec.ofNat_toNat .. |>.trans (BitVec.setWidth_eq _))
  · refine htr (fun s => .trap s trapIllegalClause x w.clause.word) ?_
    unfold transfer
    simp only [ht, waveXlate_setWave]
    rw [if_neg (by simpa using hm), if_neg (by simpa using hcn), hxl]
    exact if_neg hb
end

/-- A direct target is the address of the instruction plus 8 times its offset (R198). -/
theorem directTarget_eq (off : BitVec 32) (w : Wave) : directTarget off w = w.pc + off.signExtend 64 * 8 := by
  unfold directTarget
  congr 1
  bv_omega

section
variable {c : CF → Instr} {target : CF → Wave → DWord} {taken k : CF → Wave → Bool}

/-- A direct transfer that links nothing. -/
theorem TransferOf.of_direct (hx : ∀ f s, exec (c f) s = runInstr (c f) (transfer (directTarget f.off) (k f) id) s)
    (hk : ∀ f w, k f w.readied = taken f w)
    (hop : ∀ f w, closesRegion w (Instr.op (c f)) = false ∧ isTransfer (Instr.op (c f)) = true) :
    TransferOf c (fun f w => w.pc + f.off.signExtend 64 * 8) taken fun _ => none :=
  .of_transfer (t := fun f => directTarget f.off) (effect := fun _ => id) hx (fun f w => directTarget_eq f.off w) hk
    (fun _ _ _ _ _ => ⟨_, rfl, rfl⟩) hop

end

/-- Linking writes the address after the transfer to a pair (R237). -/
theorem scalarResult_link (w : Wave) {d : Nat} (hd : d + 2 ≤ 128) :
    ScalarResult w (w.readied.setS64 d (w.pc + 8)) d 2 fun j => (w.pc + 8).extractLsb' (32 * j) 32 :=
  scalarResult_setS64 w hd (w.pc + 8)

theorem Issues.linkBlock {s : State} {u : Nat} {w : Wave} {i : Instr} (h : Issues s u w i) {lo : Nat} {d : BitVec 8} {al : Nat} {rd : Bool}
    (hd : d.toNat < 128) (hu : useS lo d 2 al rd ⊆ Instr.uses w i) : d.toNat + 2 ≤ 128 := by
  have hmem : ∀ x ∈ useS lo d 2 al rd, x.reg + x.n ≤ (if x.vec then w.nv else 128) := fun x hx => (h.use (hu hx)).1
  simpa [useS, hd] using hmem

theorem maskWords_all (f : CF) (w : Wave) (p : Word → Bool) :
    (w.group_ f.a).all p = decide (∀ j, j < w.k → p (w.maskWord f.a j) = true) := by
  rw [Bool.eq_iff_iff]
  simp [Wave.group_]

theorem bra_transferOf : TransferOf .bra (fun f w => w.pc + f.off.signExtend 64 * 8) (fun _ _ => true) fun _ => none :=
  .of_direct (fun _ _ => rfl) (fun _ _ => rfl) fun f w => by rw [op_of_encC rfl]; exact ⟨rfl, rfl⟩

theorem brz_transferOf : TransferOf .brz (fun f w => w.pc + f.off.signExtend 64 * 8) (fun f w => decide (w.src f.a = 0)) fun _ => none :=
  .of_direct (fun _ _ => rfl) (fun _ _ => rfl) fun f w => by rw [op_of_encC rfl]; exact ⟨rfl, rfl⟩

theorem brnz_transferOf : TransferOf .brnz (fun f w => w.pc + f.off.signExtend 64 * 8) (fun f w => decide (w.src f.a ≠ 0)) fun _ => none :=
  .of_direct (fun _ _ => rfl) (fun f w => by simp [bne, Wave.src_readied]; rfl) fun f w => by rw [op_of_encC rfl]; exact ⟨rfl, rfl⟩

theorem bmz_transferOf : TransferOf .bmz (fun f w => w.pc + f.off.signExtend 64 * 8)
    (fun f w => decide (∀ j, j < w.k → w.maskWord f.a j = 0)) fun _ => none :=
  .of_direct (fun _ _ => rfl) (fun f w => by
    refine (maskWords_all f w _).trans ?_
    simp only [beq_iff_eq]) fun f w => by rw [op_of_encC rfl]; exact ⟨rfl, rfl⟩

theorem bmnz_transferOf : TransferOf .bmnz (fun f w => w.pc + f.off.signExtend 64 * 8)
    (fun f w => decide (∃ j, j < w.k ∧ w.maskWord f.a j ≠ 0)) fun _ => none :=
  .of_direct (fun _ _ => rfl) (fun f w => by
    rw [Bool.eq_iff_iff]
    simp [Wave.group_]
    rfl) fun f w => by rw [op_of_encC rfl]; exact ⟨rfl, rfl⟩

theorem bmall_transferOf : TransferOf .bmall (fun f w => w.pc + f.off.signExtend 64 * 8)
    (fun f w => decide (∀ j, j < w.k → w.maskWord f.a j = w.liveWord j)) fun _ => none :=
  .of_direct (fun _ _ => rfl) (fun f w => by
    rw [Bool.eq_iff_iff]
    simp
    rfl) fun f w => by rw [op_of_encC rfl]; exact ⟨rfl, rfl⟩

theorem call_transferOf : TransferOf .call (fun f w => w.pc + f.off.signExtend 64 * 8) (fun _ _ => true) fun f => some f.a :=
  .of_transfer (t := fun f => directTarget f.off) (k := fun _ _ => true) (effect := fun f w => w.setS64 f.a.toNat (w.pc + 8))
    (fun _ _ => rfl) (fun f w => directTarget_eq f.off w) (fun _ _ => rfl)
    (fun s u w f h => ⟨_, rfl, rfl, scalarResult_link w (h.linkBlock (lo := 48) (al := 2) (rd := false) (h.destReg List.mem_cons_self) (List.Subset.refl _))⟩)
    fun f w => by rw [op_of_encC rfl]; exact ⟨rfl, rfl⟩

theorem ret_transferOf : TransferOf .ret (fun f w => w.src64 f.a) (fun _ _ => true) fun _ => none :=
  .of_transfer (t := fun f w => w.src64 f.a) (k := fun _ _ => true) (effect := fun _ => id) (fun _ _ => rfl) (fun _ _ => rfl) (fun _ _ => rfl)
    (fun _ _ _ _ _ => ⟨_, rfl, rfl⟩) fun f w => by rw [op_of_encC rfl]; exact ⟨rfl, rfl⟩

theorem jmpi_transferOf : TransferOf .jmpi (fun f w => w.src64 f.a + f.off.signExtend 64 * 8) (fun _ _ => true)
    fun f => if f.b.toNat < 128 then some f.b else none :=
  .of_transfer (t := fun f w => w.src64 f.a + f.off.signExtend 64 <<< 3) (k := fun _ _ => true)
    (effect := fun f w => if f.b.toNat < 128 then w.setS64 f.b.toNat (w.pc + 8) else w) (fun _ _ => rfl)
    (fun f w => by
      rw [Wave.src64_readied]
      bv_omega)
    (fun _ _ => rfl)
    (fun s u w f h => by
      by_cases hb : f.b.toNat < 128
      · simp only [if_pos hb]
        exact ⟨_, rfl, trivial, scalarResult_link w (h.linkBlock (lo := 40) (al := 2) (rd := false) hb (List.subset_append_right _ _))⟩
      · simp only [if_neg hb]
        exact ⟨_, rfl, rfl⟩)
    fun f w => by rw [op_of_encC rfl]; exact ⟨rfl, rfl⟩

/-! ### A wave of 33 EXEC words -/

/-- A package with one wave, whose turn it is. -/
def loneState (w : Wave) : State := { State.reset with waves := [(1, w)], cur := some 1 }

/-- A wave at handler level with 33 EXEC words: the last of them has the key of the handler register h88. -/
def wideWave : Wave :=
  let w := Wave.placed 0 0 0 0 33 128 0 0 0
  { w with
    regs := { w.regs with s := [(96, 1), (128, 1)], live := [(0, 3)] }, tr := { w.tr with handler := true },
    clause := { inside := true, header := 0, word := 0, left := 1 } }

/-- Register 88 of wave 1 after a step. -/
def seen88 (o : Host.Outcome State Fault Refusal) : Option Word :=
  match o with
  | .next t => (t.wave 1).map (·.s 88)
  | _ => none

theorem seen88_of_completes {s : State} {w w' : Wave} {i : Instr} (h : Completes s 1 w i w') : seen88 (exec i s) = some (w'.s 88) := by
  obtain ⟨t, hx, hw, -⟩ := h
  simp [seen88, hx, hw]

def zeroS : SF := { d := 0, a := 130, b := 0, fn := 0, ty := 0, imm := 0 }
def zeroC : CF := { a := 0, b := 0, z := 0, off := 0 }

end Sys2Proof.Machine

open Sys2Proof Sys2Proof.Machine

/-- Settles O3: a register or a pair at once, or an answer that lands later. -/
theorem specialRegisterRead : Obligations.SpecialRegisterRead := by
  intro s u w f h n
  have hc : closesRegion w (Instr.op (.gets f)) = false := closesRegion_scalar w (by rw [op_of_encS rfl]; decide)
  have hn : f.imm.toNat % 256 = n := Nat.mod_eq_of_lt (by have := h.gets_index; omega)
  refine ⟨fun h15 h16 => ?_, fun hlate => ?_, rfl, rfl, rfl, rfl, rfl, rfl⟩
  · have hr := scalarResult_special w (special s w n) h.gets_block
    refine ⟨_, h.completes_regs (sp := w.sp) (rfl : _ = execGets f s) hc ?_, rfl, hr.after ?_ w.sp⟩
    · dsimp only
      rw [hn, special_setWave, if_neg (by omega)]
      split <;> exact congrArg Act.done (State.setWave_setWave ..)
    · split <;> rfl
  · obtain ⟨l, hd, -, hk, hv, hreg, hnr, hwin, hvals⟩ := h.completes_addLate (regs := w.regs) (sp := w.sp) (rfl : _ = execGets f s) hc
      (kind := .answer) (vec := false) (reg := f.d.toNat) (nregs := 2) (size := 3) (la := f.fn.toNat)
      (lanes := [{ lane := 0, addr := 0, own := [], nocache := true }]) (vals := [(0, (special s w n).toNat)]) (by
        dsimp only
        rw [hn, special_setWave, if_pos hlate]
        exact congrArg Act.done (State.setWave_setWave ..))
    exact ⟨_, l, hd, rfl, hk, hv, hreg, hnr, hwin, hvals⟩

/-- Settles O5: each transfer by its target, condition and link. -/
theorem transfers : Obligations.Transfers :=
  ⟨bra_transferOf, brz_transferOf, brnz_transferOf, bmz_transferOf, bmnz_transferOf, bmall_transferOf, call_transferOf, ret_transferOf,
    jmpi_transferOf⟩

/-- Refutes O4: in a wave of 33 EXEC words at handler level, MELSE writes EXEC word 32 to the key of the handler register h88, which
the instruction should leave. (R155 places no such wave; the statement does not say so.) -/
theorem not_masks : ¬ Obligations.Masks := by
  rintro ⟨-, h⟩
  obtain ⟨w', hd, -, hs, -⟩ := (h (loneState wideWave) 1 wideWave zeroS).2.1 (by decide +kernel)
  have h88 : w'.s 88 = 1 := hs 88 (by decide)
  have hx := seen88_of_completes hd
  rw [h88] at hx
  exact absurd hx (by decide +kernel)

/-- Refutes O6: in the same wave EXIT, which clears EXEC, clears h88. -/
theorem not_exitYieldNap : ¬ Obligations.ExitYieldNap := by
  rintro ⟨h, -⟩
  obtain ⟨w', hd, -, -, -, hs, -⟩ := (h (loneState wideWave) 1 wideWave zeroC (by decide +kernel)).2.1 (by decide +kernel)
    ⟨0, by decide +kernel, by decide +kernel⟩
  have h88 : w'.s 88 = 1 := hs 88 (by decide)
  have hx := seen88_of_completes hd
  rw [h88] at hx
  exact absurd hx (by decide +kernel)

end

section
/-! SUPPORT. What retiring an instruction and waiting leave of the rest of the package, for instructions that change more than their
wave. -/

set_option Elab.async false

namespace Sys2Proof.Machine

section
variable (s : State) (u : Nat) (pc next : DWord) (leaves closes : Bool)

/-- Retiring changes waves and cores alone. -/
theorem State.retire_frame :
    s.retire u pc next leaves closes false =
      { s with waves := (s.retire u pc next leaves closes false).waves, cores := (s.retire u pc next leaves closes false).cores } := by
  cases h : s.wave u with
  | none => simp only [State.retire, h]
  | some w => rw [State.retire_eq h]; rfl

@[simp] theorem State.retire_mem : (s.retire u pc next leaves closes false).mem = s.mem := by rw [State.retire_frame]
@[simp] theorem State.retire_poison : (s.retire u pc next leaves closes false).poison = s.poison := by rw [State.retire_frame]
@[simp] theorem State.retire_fempty : (s.retire u pc next leaves closes false).fempty = s.fempty := by rw [State.retire_frame]
@[simp] theorem State.retire_cohorts : (s.retire u pc next leaves closes false).cohorts = s.cohorts := by rw [State.retire_frame]
@[simp] theorem State.retire_dies : (s.retire u pc next leaves closes false).dies = s.dies := by rw [State.retire_frame]
@[simp] theorem State.retire_fabric : (s.retire u pc next leaves closes false).fabric = s.fabric := by rw [State.retire_frame]
@[simp] theorem State.retire_sched : (s.retire u pc next leaves closes false).sched = s.sched := by rw [State.retire_frame]
@[simp] theorem State.retire_snap : (s.retire u pc next leaves closes false).snap = s.snap := by rw [State.retire_frame]
@[simp] theorem State.retire_trust : (s.retire u pc next leaves closes false).trust = s.trust := by rw [State.retire_frame]
@[simp] theorem State.retire_ids : (s.retire u pc next leaves closes false).ids = s.ids := by rw [State.retire_frame]
@[simp] theorem State.retire_byte (a : Nat) : (s.retire u pc next leaves closes false).byte a = s.byte a := by
  rw [State.byte, State.retire_mem]; rfl
@[simp] theorem State.retire_cohort (c : Nat) : (s.retire u pc next leaves closes false).cohort c = s.cohort c := by
  rw [State.cohort, State.retire_cohorts]; rfl
@[simp] theorem State.retire_die (d : Nat) : (s.retire u pc next leaves closes false).die d = s.die d := by
  rw [State.die, State.retire_dies]; rfl
theorem State.retire_other {v : Nat} (hv : v ≠ u) : (s.retire u pc next leaves closes false).wave v = s.wave v := by
  cases h : s.wave u with
  | none => simp only [State.retire, h]
  | some w => exact State.retire_wave_ne h pc next leaves closes hv

/-- Of a core retiring changes the record of issuing alone (R162, R352). -/
theorem State.retire_core (c : Nat) : ∃ h l y p q, (s.retire u pc next leaves closes false).core c =
    { s.core c with holder := h, lastIssue := l, history := y, lastSpare := p, spare := q } := by
  cases h : s.wave u with
  | none => simp only [State.retire, h]; exact ⟨_, _, _, _, _, rfl⟩
  | some w =>
    obtain ⟨-, hother, hcore, -⟩ := State.retire_onlyWave h pc next leaves closes
    by_cases hc : c = w.core
    · exact hc ▸ hcore
    · rw [hother c hc]; exact ⟨_, _, _, _, _, rfl⟩

@[simp] theorem State.retire_l1 (c : Nat) : ((s.retire u pc next leaves closes false).core c).l1 = (s.core c).l1 := by
  obtain ⟨_, _, _, _, _, h⟩ := s.retire_core u pc next leaves closes c
  rw [h]
@[simp] theorem State.retire_sb (c : Nat) : ((s.retire u pc next leaves closes false).core c).sb = (s.core c).sb := by
  obtain ⟨_, _, _, _, _, h⟩ := s.retire_core u pc next leaves closes c
  rw [h]
@[simp] theorem State.retire_queue (c : Nat) : ((s.retire u pc next leaves closes false).core c).queue = (s.core c).queue := by
  obtain ⟨_, _, _, _, _, h⟩ := s.retire_core u pc next leaves closes c
  rw [h]

end

/-! ### The wave after an instruction -/

section
variable (w : Wave) (pc : DWord) (leaves closes : Bool)

/-- Completing changes of a wave its place, its restart point and what depends on the instruction at its PC. -/
theorem Wave.completed_frame : ∃ c l p g r n y a m, w.completed pc leaves closes = { w with
    pc := pc, clause := c, late := l, prog := Progress.none, xl := [], xfail := [], tr := { w.tr with bpSkip := false },
    restart := p, restartClause := r, restartSeq := n, retry := y, again := a, group := g, region := m } := by
  cases closes <;> exact ⟨_, _, _, _, _, _, _, _, _, rfl⟩

@[simp] theorem Wave.completed_pc : (w.completed pc leaves closes).pc = pc := by cases closes <;> rfl
@[simp] theorem Wave.completed_regs : (w.completed pc leaves closes).regs = w.regs := by cases closes <;> rfl
@[simp] theorem Wave.completed_sp : (w.completed pc leaves closes).sp = w.sp := by cases closes <;> rfl
@[simp] theorem Wave.completed_tr : (w.completed pc leaves closes).tr = { w.tr with bpSkip := false } := by cases closes <;> rfl
@[simp] theorem Wave.completed_tls : (w.completed pc leaves closes).tls = w.tls := by cases closes <;> rfl
@[simp] theorem Wave.completed_epend : (w.completed pc leaves closes).epend = w.epend := by cases closes <;> rfl
@[simp] theorem Wave.completed_wait : (w.completed pc leaves closes).wait = w.wait := by cases closes <;> rfl
@[simp] theorem Wave.completed_late : (w.completed pc leaves closes).late = w.late.map fun l => { l with window := l.window - 1 } := by
  cases closes <;> rfl
@[simp] theorem Wave.completed_clause : (w.completed pc false closes).clause = w.clause.after := by
  cases closes <;> simp [Wave.completed, Wave.setRestart, Clause.after]

end

/-! ### Done and waiting -/

section
variable {s t : State} {u : Nat} {w x : Wave} {i : Instr} {body : Body}

/-- An instruction whose body is done comes to retiring. -/
theorem Issues.exec_done (h : Issues s u w i) (hx : exec i s = runInstr i body s)
    (hb : body (s.setWave u w.readied) u w.readied = .done t) :
    exec i s = .next (t.retire u w.pc (w.pc + 8) false (closesRegion w (Instr.op i)) false) := h.exec_eq hx hb

/-- An instruction whose body is done ends, and what holds of its state and wave after retiring holds then. -/
theorem Issues.ends (h : Issues s u w i) (hx : exec i s = runInstr i body s)
    (hb : body (s.setWave u w.readied) u w.readied = .done t) (hw : t.wave u = some x) (hcl : x.clause = w.clause)
    {P : State → Wave → Prop}
    (hP : P (t.retire u w.pc (w.pc + 8) false (closesRegion w (Instr.op i)) false)
      (x.completed (w.pc + 8) false (closesRegion w (Instr.op i)))) : Ends s u w i P :=
  ⟨_, _, h.exec_done hx hb, State.retire_wave hw .., by simp, by simp [hcl], hP⟩

/-- The state of a package in which a wave waits. -/
def State.waiting (s : State) (u : Nat) (x : Wave) (wt : Wait) : State :=
  (s.setWave u { x with wait := wt, waitSince := if x.wait == wt then x.waitSince else s.clock }).yieldCore u x.core wt

theorem State.yieldCore_frame (s : State) (u core : Nat) (wt : Wait) : s.yieldCore u core wt = { s with cores := (s.yieldCore u core wt).cores } := by
  unfold State.yieldCore State.releaseHolder
  split
  · rfl
  · split <;> rfl

section
variable (s : State) (u : Nat) (x : Wave) (wt : Wait)

theorem State.waiting_frame : s.waiting u x wt = { s with waves := (s.waiting u x wt).waves, cores := (s.waiting u x wt).cores } := by
  unfold State.waiting
  rw [State.yieldCore_frame]
  rfl

@[simp] theorem State.waiting_byte (a : Nat) : (s.waiting u x wt).byte a = s.byte a := by rw [State.waiting_frame]; rfl
@[simp] theorem State.waiting_cohort (c : Nat) : (s.waiting u x wt).cohort c = s.cohort c := by rw [State.waiting_frame]; rfl
theorem State.waiting_wave (v : Nat) : (s.waiting u x wt).wave v =
    if v = u then some { x with wait := wt, waitSince := if x.wait == wt then x.waitSince else s.clock } else s.wave v := by
  unfold State.waiting
  rw [State.yieldCore_frame]
  exact State.wave_setWave ..

end

/-- An instruction whose body waits leaves its wave waiting. -/
theorem Issues.exec_wait (h : Issues s u w i) (hx : exec i s = runInstr i body s) {wt : Wait}
    (hb : body (s.setWave u w.readied) u w.readied = .wait t wt) (hw : t.wave u = some x) : exec i s = .next (t.waiting u x wt) := by
  rw [h.exec_eq hx hb]
  simp only [finishAct, hw]
  rfl

end

end Sys2Proof.Machine
end

section
/-! SUPPORT. Barriers (R172, R173): the check of a cohort's phases, an arrival, and the waves that it lets go on. -/

set_option Elab.async false

namespace Sys2Proof.Machine

/-! ### Checking a barrier's phase -/

/-- Has the phase of a barrier of the cohort all its arrivals (R173)? -/
def Cohort.full (c : Cohort) (b : Barrier) : Bool :=
  !b.arrived.isEmpty && decide (c.nwaves ≤ b.arrived.length + (c.ended.filter fun u => !b.arrived.contains u).length)

/-- The barrier with the next phase begun. -/
def Barrier.advanced (b : Barrier) : Barrier := { phase := b.phase + 1, arrived := [] }

/-- Changing the values of a map, where the value of an unlisted key stays. -/
theorem mapGet_map {α : Type} (d : α) (m : List (Nat × α)) (f : α → α) (hd : f d = d) (a : Nat) :
    mapGet d (m.map fun x => (x.1, f x.2)) a = f (mapGet d m a) := by
  induction m with
  | nil => exact hd.symm
  | cons e m ih =>
    simp only [List.map_cons, mapGet, ih]
    split
    · rfl
    · split
      · exact hd.symm
      · rfl

/-- A listed key's value is the one found, where the value of an unlisted key fails the test. -/
theorem mem_of_mapGet {α : Type} {d : α} {m : List (Nat × α)} {a : Nat} {p : α → Bool} (hd : p d = false)
    (h : p (mapGet d m a) = true) : a ∈ (m.filter fun x => p x.2).map (·.1) := by
  induction m with
  | nil => simp [mapGet, hd] at h
  | cons e m ih =>
    obtain ⟨k, v⟩ := e
    simp only [mapGet] at h
    split at h
    next hk => simp [h, hk]
    next =>
      split at h
      · simp [hd] at h
      · have := ih h
        simp only [List.filter_cons]
        split
        · exact List.mem_cons_of_mem _ this
        · exact this

theorem Cohort.barrier_advance (c : Cohort) (b : Nat) :
    Cohort.barrier { c with barriers := c.barriers.map fun x => if c.full x.2 then (x.1, x.2.advanced) else x } b =
      if c.full (c.barrier b) then (c.barrier b).advanced else c.barrier b := by
  have hm : (fun x : Nat × Barrier => if c.full x.2 then (x.1, x.2.advanced) else x) =
      fun x => (x.1, if c.full x.2 then x.2.advanced else x.2) := by
    funext x; split <;> rfl
  simp only [Cohort.barrier, hm]
  exact mapGet_map _ _ (fun x => if c.full x then x.advanced else x) (by simp [Cohort.full]) _

theorem mapFind_map {α β : Type} (m : List (Nat × α)) (f : α → β) (a : Nat) :
    mapFind (m.map fun x => (x.1, f x.2)) a = (mapFind m a).map f := by
  induction m with
  | nil => rfl
  | cons e m ih =>
    simp only [List.map_cons, mapFind, ih]
    split
    · rfl
    · split <;> rfl

/-- A wave of cohort `cid` that waits at one of the barriers `hit` may go on. -/
def Wave.passed (cid : Nat) (hit : List Nat) (w : Wave) : Wave :=
  match w.wait with
  | .barrier b _ => if w.cohort == cid && hit.contains b then { w with wait := .yielded } else w
  | _ => w

/-- The check of a cohort's barriers: the phases with all their arrivals begin anew, and the waves that wait at them may go on. -/
theorem State.barrierCheck_eq {s : State} {cid : Nat} {c : Cohort} (hc : s.cohort cid = some c) :
    let hit := (c.barriers.filter fun x => c.full x.2).map (·.1)
    s.barrierCheck cid = if hit.isEmpty then s else
      { s.setCohort cid { c with barriers := c.barriers.map fun x => if c.full x.2 then (x.1, x.2.advanced) else x } with
        waves := s.waves.map fun x => (x.1, x.2.passed cid hit) } := by
  intro hit
  simp only [State.barrierCheck, hc]
  refine if_congr Iff.rfl rfl ?_
  have hm : (fun x : Nat × Wave => (x.1, x.2.passed cid hit)) = fun x => match x.2.wait with
      | .barrier b _ => if x.2.cohort == cid && hit.contains b then (x.1, { x.2 with wait := .yielded }) else x
      | _ => x := by
    funext x
    unfold Wave.passed
    split
    · split <;> rfl
    · rfl
  rw [hm]
  rfl

/-- What the check of a cohort's barriers leaves. -/
theorem State.barrierCheck_spec {s : State} {cid : Nat} {c : Cohort} (hc : s.cohort cid = some c) :
    ∃ c', (s.barrierCheck cid).cohort cid = some c' ∧
      (∀ b, c'.barrier b = if c.full (c.barrier b) then (c.barrier b).advanced else c.barrier b) ∧
      s.barrierCheck cid = { s with waves := (s.barrierCheck cid).waves, cohorts := (s.barrierCheck cid).cohorts } ∧
      (∀ v x, s.wave v = some x → (∀ b n, x.wait ≠ .barrier b n) → (s.barrierCheck cid).wave v = some x) ∧
      ∀ b v x n, c.full (c.barrier b) = true → s.wave v = some x → x.cohort = cid → x.wait = .barrier b n →
        (s.barrierCheck cid).wave v = some { x with wait := .yielded } := by
  have heq := State.barrierCheck_eq hc
  have hmem : ∀ b, c.full (c.barrier b) = true → b ∈ (c.barriers.filter fun x => c.full x.2).map (·.1) := fun b h =>
    mem_of_mapGet (by simp [Cohort.full]) h
  dsimp only at heq
  split at heq
  next hnil =>
    have hnone : ∀ b, ¬c.full (c.barrier b) = true := fun b h => by
      rw [List.isEmpty_iff] at hnil
      exact List.not_mem_nil (hnil ▸ hmem b h)
    rw [heq]
    exact ⟨c, hc, fun b => by rw [if_neg (hnone b)], rfl, fun v x hv _ => hv, fun b v x n hb => absurd hb (hnone b)⟩
  next =>
    rw [heq]
    refine ⟨_, mapFind_mapInsert .. |>.trans (if_pos rfl), c.barrier_advance, rfl, fun v x hv hx => ?_, fun b v x n hb hv hcid hx => ?_⟩
    · refine (mapFind_map ..).trans ?_
      change (s.wave v).map _ = _
      rw [hv]
      simp only [Option.map_some, Wave.passed]
    · refine (mapFind_map ..).trans ?_
      change (s.wave v).map _ = _
      rw [hv]
      have hin := hmem b hb
      simp only [Option.map_some, Wave.passed, hx, hcid, beq_self_eq_true, Bool.true_and, List.contains_iff_mem, hin, if_true]

/-! ### Arriving -/

/-- A cohort with one more arrival at a barrier. -/
def Cohort.arrived (c : Cohort) (u b : Nat) : Cohort :=
  { c with barriers := mapPut { phase := 0, arrived := [] } c.barriers b { c.barrier b with arrived := (c.barrier b).arrived ++ [u] } }

theorem Cohort.barrier_arrived (c : Cohort) (u b : Nat) :
    (c.arrived u b).barrier b = { c.barrier b with arrived := (c.barrier b).arrived ++ [u] } := mapGet_mapPut_self ..

theorem State.arrive_eq {s : State} {cid : Nat} {c : Cohort} (hc : s.cohort cid = some c) (u b : Nat) :
    s.arrive u cid b = (s.setCohort cid (c.arrived u b)).barrierCheck cid := by
  simp only [State.arrive, State.updCohort, hc]
  rfl

/-- Does the arrival of wave `u` complete the phase of a barrier (R173)? -/
theorem Cohort.full_arrived (c : Cohort) (u b : Nat) : (c.arrived u b).full ((c.arrived u b).barrier b) =
    decide (c.nwaves ≤ (c.barrier b).arrived.length + 1 + (c.ended.filter fun v => v != u && !(c.barrier b).arrived.contains v).length) := by
  rw [Cohort.barrier_arrived]
  have hne : ((c.barrier b).arrived ++ [u]).isEmpty = false := by simp
  have hf : c.ended.filter (fun v => !((c.barrier b).arrived ++ [u]).contains v) =
      c.ended.filter fun v => v != u && !(c.barrier b).arrived.contains v := List.filter_congr fun v _ => by
    by_cases hv : v = u <;> simp [hv]
  simp only [Cohort.full, Cohort.arrived, hne, hf, Bool.not_false, Bool.true_and, List.length_append, List.length_singleton]

/-! ### The body of BAR and BARA -/

theorem State.drainWave_of_drained {s : State} {core u : Nat} (h : s.drained core u = true) : s.drainWave core u = s := by
  have : (s.core core).sb.filter (fun e => e.wave == u) = [] := by
    simp only [State.drained, List.all_eq_true, bne_iff_ne] at h
    simpa [List.filter_eq_nil_iff] using h
  simp only [State.drainWave, this, List.foldl_nil]

/-- A cohort with the stores of a wave performed (R144). -/
def Cohort.performed (c : Cohort) (u : Nat) : Cohort := { c with unfenced := c.unfenced.filter fun x => x.wave != u }

theorem State.storesPerformed_eq {s : State} {cid : Nat} {c : Cohort} (hc : s.cohort cid = some c) (u : Nat) :
    s.storesPerformed u cid = s.setCohort cid (c.performed u) := by
  simp only [State.storesPerformed, State.updCohort, hc]
  rfl

/-- The release half of a barrier, where nothing is outstanding. -/
theorem State.predecessors_done {s : State} {u : Nat} {w : Wave} {c : Cohort} (hc : s.cohort w.cohort = some c)
    (hl : w.late.any (·.reads) = false) (hd : s.drained w.core u = true) (hm : s.marked u w.cohort = true) :
    s.predecessors u w true true false = (s.setCohort w.cohort (c.performed u), true) := by
  have hm' : (s.setCohort w.cohort (c.performed u)).marked u w.cohort = true := by
    simpa [State.marked, hc, Cohort.performed] using hm
  have hd' : (s.setCohort w.cohort (c.performed u)).drained w.core u = true := hd
  simp only [State.predecessors, hl, Bool.and_false, Bool.false_eq_true, if_false, if_true, State.drainWave_of_drained hd,
    State.storesPerformed_eq hc, hm', hd', Bool.not_true, Bool.false_or, Bool.and_self, Bool.not_false, Bool.true_or]

theorem State.barrierOf_eq {s : State} {cid : Nat} {c : Cohort} (hc : s.cohort cid = some c) (u b : Nat) :
    s.barrierOf u cid b = ((c.barrier b).phase, (c.barrier b).arrived.contains u) := by
  simp only [State.barrierOf, hc]

/-- The state in which a wave of cohort `c` has arrived at barrier `b`. -/
def State.atBarrier (s : State) (u : Nat) (w : Wave) (c : Cohort) (b : Nat) : State :=
  (((s.setWave u w.readied).setCohort w.cohort (c.performed u)).setWave u
    { w.readied with prog := { w.prog with stage := 1, x := (c.barrier b).phase } }).arrive u w.cohort b

section
variable {s : State} {u : Nat} {w : Wave} {c : Cohort} {b : Nat}

/-- What a first arrival leaves: the cohort's barrier with it, and, if it was the last, the next phase and no wave waiting. -/
theorem State.atBarrier_spec (s : State) (u : Nat) (w : Wave) (c : Cohort) (b : Nat) :
    let last := c.nwaves ≤ (c.barrier b).arrived.length + 1 + (c.ended.filter fun v => v != u && !(c.barrier b).arrived.contains v).length
    ∃ c', (s.atBarrier u w c b).cohort w.cohort = some c' ∧
      c'.barrier b = (if last then { phase := (c.barrier b).phase + 1, arrived := [] }
        else { c.barrier b with arrived := (c.barrier b).arrived ++ [u] }) ∧
      (∀ a, (s.atBarrier u w c b).byte a = s.byte a) ∧ (∀ k, (s.atBarrier u w c b).core k = s.core k) ∧
      (s.atBarrier u w c b).wave u = some { w.readied with prog := { w.prog with stage := 1, x := (c.barrier b).phase } } ∧
      (last → ∀ v x n, v ≠ u → s.wave v = some x → x.cohort = w.cohort → x.wait = .barrier b n →
        (s.atBarrier u w c b).wave v = some { x with wait := .yielded }) := by
  intro last
  let s' := (((s.setWave u w.readied).setCohort w.cohort (c.performed u)).setWave u
    { w.readied with prog := { w.prog with stage := 1, x := (c.barrier b).phase } })
  have hc' : s'.cohort w.cohort = some (c.performed u) := by simp [s', State.cohort, State.setWave, State.setCohort, mapFind_mapInsert]
  have hat : s.atBarrier u w c b = (s'.setCohort w.cohort ((c.performed u).arrived u b)).barrierCheck w.cohort := State.arrive_eq hc' u b
  have hfull : ((c.performed u).arrived u b).full (((c.performed u).arrived u b).barrier b) = decide last := Cohort.full_arrived (c.performed u) u b
  obtain ⟨c', h1, h2, h3, h4, h5⟩ := State.barrierCheck_spec (s := s'.setCohort w.cohort ((c.performed u).arrived u b)) (cid := w.cohort)
    (c := (c.performed u).arrived u b) (by simp)
  rw [← hat] at h1 h3 h4 h5
  refine ⟨c', h1, ?_, fun a => ?_, fun k => ?_, h4 u _ ((State.wave_setWave ..).trans (if_pos rfl)) (by simp [Wave.readied]), fun hlast v x n hv hx hcid hw => ?_⟩
  · rw [h2 b, hfull, Cohort.barrier_arrived]
    by_cases hl : last
    · rw [if_pos (decide_eq_true hl), if_pos hl]; rfl
    · rw [if_neg (by simp [hl]), if_neg hl]; rfl
  · rw [h3]; rfl
  · rw [h3]; rfl
  · have hx' : s'.wave v = some x := by
      refine (State.wave_setWave ..).trans ((if_neg hv).trans ?_)
      exact (State.wave_setWave ..).trans ((if_neg hv).trans hx)
    exact h5 b v x n (hfull.trans (decide_eq_true hlast)) hx' hcid hw

/-- BAR and BARA at a first arrival (R173). -/
theorem barrier_arrives (hc : s.cohort w.cohort = some c) (hst : w.prog.stage = 0) (hl : w.late.any (·.reads) = false)
    (hd : s.drained w.core u = true) (hm : s.marked u w.cohort = true) (hu : u ∉ (c.barrier b).arrived) (waits : Bool) :
    barrier b waits (s.setWave u w.readied) u w.readied =
      if !waits then .done (s.atBarrier u w c b)
      else if (c.barrier b).phase < ((s.atBarrier u w c b).barrierOf u w.cohort b).1 then .done ((s.atBarrier u w c b).acquire w.core)
      else .wait (s.atBarrier u w c b) (.barrier b (c.barrier b).phase) := by
  have hb := State.barrierOf_eq (s := s.setWave u w.readied) hc u b
  have hp := State.predecessors_done (s := s.setWave u w.readied) (u := u) (w := w.readied) hc hl hd hm
  unfold barrier
  rw [show w.readied.cohort = w.cohort from rfl, hb]
  simp only
  rw [if_neg (by simp [Wave.readied, hst]), if_neg (by simpa using hu), hp]
  rfl

end

/-! ### The statements -/

theorem State.acquire_l1 (s : State) (core : Nat) : ((s.acquire core).core core).l1 = [] := by
  unfold State.acquire
  split
  next h =>
    rw [Bool.and_eq_true, List.isEmpty_iff] at h
    exact h.1
  next => simp

@[simp] theorem State.acquire_wave (s : State) (core v : Nat) : (s.acquire core).wave v = s.wave v := by rw [State.wave, State.acquire_waves]; rfl
@[simp] theorem State.acquire_cohort (s : State) (core c : Nat) : (s.acquire core).cohort c = s.cohort c := by
  rw [State.cohort, State.acquire_cohorts]; rfl
@[simp] theorem State.acquire_byte (s : State) (core a : Nat) : (s.acquire core).byte a = s.byte a := by rw [State.byte, State.acquire_mem]; rfl

section
variable {s : State} {u : Nat} {w : Wave} {c : Cohort} {b : Nat}

/-- BAR and BARA of a wave that has arrived in the phase wait (R173). -/
theorem barrier_here (hc : s.cohort w.cohort = some c) (hu : u ∈ (c.barrier b).arrived) {waits : Bool}
    (hst : w.prog.stage ≠ 1 ∨ w.prog.x = (c.barrier b).phase) :
    barrier b waits (s.setWave u w.readied) u w.readied = .wait (s.setWave u w.readied) (.barrier b (c.barrier b).phase) := by
  have hb := State.barrierOf_eq (s := s.setWave u w.readied) hc u b
  unfold barrier
  rw [show w.readied.cohort = w.cohort from rfl, hb]
  simp only
  split
  next h1 =>
    rcases hst with hst | hst
    · exact absurd h1 hst
    · exact if_neg (by show ¬w.prog.x < _; omega)
  next => exact if_pos (by simpa using hu)

/-- A wave that waits at its word, for a body that leaves its state alone. -/
theorem Issues.waits_readied {i : Instr} {body : Body} (h : Issues s u w i) (hx : exec i s = runInstr i body s) {wt : Wait}
    (hb : body (s.setWave u w.readied) u w.readied = .wait (s.setWave u w.readied) wt) :
    exec i s = .next ((s.setWave u w.readied).waiting u w.readied wt) := h.exec_wait hx hb (by simp)

end

end Sys2Proof.Machine

open Sys2Proof Sys2Proof.Machine

/-- Settles O7: a first arrival by `State.atBarrier_spec`, any other comes to a wait or, at BARW, to the acquire half. -/
theorem barriers : Obligations.Barriers := by
  intro s u w f c b ready waits last
  have hwait : ∀ {i : Instr} {t : State} {x : Wave} {arrived : List Nat} {c' : Cohort},
      exec i s = .next (t.waiting u x (.barrier b (c.barrier b).phase)) → x.pc = w.pc → x.regs = w.regs → (∀ a, t.byte a = s.byte a) →
      t.cohort w.cohort = some c' → c'.barrier b = { c.barrier b with arrived := arrived } → waits i arrived := by
    intro i t x arrived c' hx hpc hr hm hc hb
    exact ⟨_, _, c', hx, (State.waiting_wave ..).trans (if_pos rfl), hpc, rfl, hr, fun a => by simp [hm], by simp [hc], hb⟩
  refine ⟨fun h ⟨hc, hst, hl, hd, hm, hu⟩ => ?_, fun h ⟨hc, hst, hl, hd, hm, hu⟩ hlast => ?_, fun h ⟨hc, hst, hl, hd, hm, hu⟩ hlast => ?_,
    fun hc hu => ⟨fun h hst => ?_, fun h hst => ?_, fun h => ?_⟩, fun h hc hu => ?_⟩
  · obtain ⟨c', h1, h2, h3, -, h5, -⟩ := State.atBarrier_spec s u w c b
    have hx := h.exec_done (rfl : _ = execBara f s) (barrier_arrives hc hst hl hd hm hu false)
    exact ⟨_, _, c', hx, State.retire_wave h5 .., by simp, by simp [Wave.readied], fun a => by simp [h3], by simp [h1], h2⟩
  · obtain ⟨c', h1, h2, h3, -, h5, h6⟩ := State.atBarrier_spec s u w c b
    rw [if_pos hlast] at h2
    have hb := barrier_arrives hc hst hl hd hm hu true
    rw [Bool.not_true, if_neg Bool.false_ne_true, State.barrierOf_eq h1, h2, if_pos (Nat.lt_succ_self _)] at hb
    have hx := h.exec_done (rfl : _ = execBar f s) hb
    refine ⟨_, _, c', hx, State.retire_wave ((State.acquire_wave ..).trans h5) .., by simp, by simp [Wave.readied], fun a => by simp [h3],
      by simp [h1], h2, by simp [State.acquire_l1], fun v x n hv hw hco hwt => ?_⟩
    rw [State.retire_other _ _ _ _ _ _ hv, State.acquire_wave]
    exact h6 hlast v x n hv hw hco hwt
  · obtain ⟨c', h1, h2, h3, -, h5, -⟩ := State.atBarrier_spec s u w c b
    rw [if_neg hlast] at h2
    have hb := barrier_arrives hc hst hl hd hm hu true
    rw [Bool.not_true, if_neg Bool.false_ne_true, State.barrierOf_eq h1, h2, if_neg (Nat.lt_irrefl _)] at hb
    exact hwait (h.exec_wait (rfl : _ = execBar f s) hb h5) rfl rfl h3 h1 h2
  · exact hwait (h.waits_readied (rfl : _ = execBar f s) (barrier_here hc hu hst)) rfl rfl (fun _ => rfl) hc rfl
  · exact hwait (h.waits_readied (rfl : _ = execBara f s) (barrier_here hc hu (.inl hst))) rfl rfl (fun _ => rfl) hc rfl
  · refine hwait (h.waits_readied (rfl : _ = execBarw f s) ?_) rfl rfl (fun _ => rfl) hc rfl
    have hb := State.barrierOf_eq (s := s.setWave u w.readied) hc u b
    dsimp only
    rw [show w.readied.cohort = w.cohort from rfl, hb]
    exact if_pos (by simpa using hu)
  · have hx := h.exec_done (t := (s.setWave u w.readied).acquire w.core) (rfl : _ = execBarw f s) (by
      have hb := State.barrierOf_eq (s := s.setWave u w.readied) hc u b
      dsimp only
      rw [show w.readied.cohort = w.cohort from rfl, hb]
      exact if_neg (by simpa using hu))
    exact ⟨_, _, hx, State.retire_wave (w := w.readied) (by simp) .., by simp, by simp [Wave.readied], by simp [State.acquire_l1]⟩

end

section
/-! SUPPORT. What a vector instruction writes: registers of the active lanes of its wave and nothing else (R161, R244). -/

set_option Elab.async false

namespace Sys2Proof.Machine

/-! ### Writing vector registers -/

/-- The waves differ in vector registers alone. -/
def Wave.onlyVector (w w' : Wave) : Prop := w' = { w with regs := { w.regs with v := w'.regs.v, vpoison := w'.regs.vpoison } }

theorem Wave.onlyVector.refl (w : Wave) : w.onlyVector w := rfl

theorem Wave.onlyVector.trans {w x y : Wave} (h : w.onlyVector x) (k : x.onlyVector y) : w.onlyVector y := by
  unfold Wave.onlyVector at *
  rw [k, h]

theorem Wave.onlyVector_setVs (w : Wave) (d n i x : Nat) : w.onlyVector (w.setVs d n i x) := by
  suffices h : ∀ (l : List Nat) (w' : Wave), w.onlyVector w' →
      w.onlyVector (l.foldl (fun w j => w.setV (d + j) i (BitVec.ofNat 32 (x / 2 ^ (32 * j)))) w') from h _ w (.refl w)
  intro l
  induction l with
  | nil => exact fun _ h => h
  | cons j l ih => exact fun w' h => ih _ (h.trans rfl)

/-- A block of registers of one lane after a write. -/
theorem Wave.v_setVs (w : Wave) {d n r : Nat} (hd : d + n ≤ 256) (hr : r < 256) (i x j : Nat) :
    (w.setVs d n i x).v r j = if d ≤ r ∧ r < d + n ∧ j = i then BitVec.ofNat 32 (x / 2 ^ (32 * (r - d))) else w.v r j := by
  unfold Wave.setVs
  induction n with
  | zero => rw [if_neg (by omega)]; rfl
  | succ n ih =>
    rw [List.range_succ, List.foldl_append, List.foldl_cons, List.foldl_nil, Wave.v_setV, ih (by omega)]
    simp only [vkey_inj hr (show d + n < 256 by omega)]
    by_cases hn : r = d + n ∧ j = i
    · obtain ⟨rfl, rfl⟩ := hn
      simp
    · rw [if_neg hn]
      simp only [show (d ≤ r ∧ r < d + n ∧ j = i) ↔ (d ≤ r ∧ r < d + (n + 1) ∧ j = i) by omega]

theorem Wave.onlyVector_putLanes (w : Wave) (d n : Nat) (vals : List (Nat × Nat)) : w.onlyVector (w.putLanes d n vals) := by
  unfold Wave.putLanes
  induction vals generalizing w with
  | nil => exact .refl w
  | cons a vals ih => exact (w.onlyVector_setVs ..).trans (ih _)

/-- The registers of some lanes after a write. -/
theorem Wave.v_putLanes (w : Wave) {d n r : Nat} (hd : d + n ≤ 256) (hr : r < 256) (l : List Nat) (x : Nat → Nat) (j : Nat) :
    (w.putLanes d n (l.map fun i => (i, x i))).v r j =
      if d ≤ r ∧ r < d + n ∧ j ∈ l then BitVec.ofNat 32 (x j / 2 ^ (32 * (r - d))) else w.v r j := by
  unfold Wave.putLanes
  induction l generalizing w with
  | nil => simp
  | cons i l ih =>
    rw [List.map_cons, List.foldl_cons, ih, w.v_setVs hd hr]
    simp only [List.mem_cons]
    grind

theorem Wave.onlyVector_setLanes (w : Wave) (d n : Nat) (x : Nat → Nat) : w.onlyVector (w.setLanes d n x) :=
  w.onlyVector_putLanes d n (w.activeLanes.map fun i => (i, x i))

/-- A wave that differs in vector registers alone, which are those given, holds a vector result. -/
theorem VectorResult.of_onlyVector {w w' : Wave} {d n : Nat} {x : Nat → Nat} (h : w.onlyVector w')
    (hv : ∀ r i, r < 256 → w'.v r i =
      if d ≤ r ∧ r < d + n ∧ i ∈ w.activeLanes then BitVec.ofNat 32 (x i / 2 ^ (32 * (r - d))) else w.v r i) :
    VectorResult w w' d n x := by
  refine ⟨hv, fun r => ?_, ?_, ?_⟩
  · rw [h]; rfl
  · rw [h]
  · rw [h]

theorem vectorResult_putLanes (w : Wave) {d n : Nat} (hd : d + n ≤ 256) (x : Nat → Nat) :
    VectorResult w (w.putLanes d n (w.activeLanes.map fun i => (i, x i))) d n x :=
  .of_onlyVector (w.onlyVector_putLanes ..) fun _ i hr => w.v_putLanes hd hr _ x i

theorem vectorResult_setLanes (w : Wave) {d n : Nat} (hd : d + n ≤ 256) (x : Nat → Nat) : VectorResult w (w.setLanes d n x) d n x :=
  vectorResult_putLanes w hd x

/-- A result stands after the instruction, whatever the special registers have become. -/
theorem VectorResult.after {w w' : Wave} {d n : Nat} {x : Nat → Nat} (h : VectorResult w w' d n x) (htr : w'.tr = w.tr) (sp : Specials) :
    VectorResult w (w.after w'.regs sp) d n x := by
  obtain ⟨hv, hs, hlive, hsp⟩ := h
  refine ⟨hv, fun r => ?_, hlive, hsp⟩
  have hkey : w.skey r = w'.skey r := by rw [Wave.skey, Wave.skey, htr]
  exact (congrArg (mapGet 0 w'.regs.s) hkey).trans (hs r)

/-- Values that agree in the bits that the registers hold give one result. -/
theorem VectorResult.congr {w w' : Wave} {d n : Nat} {x y : Nat → Nat} (h : VectorResult w w' d n x)
    (hxy : ∀ i ∈ w.activeLanes, x i = y i) : VectorResult w w' d n y := by
  obtain ⟨hv, hrest⟩ := h
  refine ⟨fun r i hr => ?_, hrest⟩
  rw [hv r i hr]
  split
  · rename_i hi
    rw [hxy i hi.2.2]
  · rfl

/-! ### Completing -/

/-- The vector instructions close no region (R387). -/
theorem closesRegion_vector (w : Wave) {op : Nat} (h : 0x40 ≤ op ∧ op < 0x78) : closesRegion w op = false := by
  have hlist : ∀ n < 0x78, 0x40 ≤ n → (([0x8E, 0x8F, 0xB0, 0xB1, 0xB2, 0xB3, 0xB4, 0xB5, 0x95, 0xC4, 0xC5, 0x8B, 0xB6, 0x97, 0x98, 0x9A, 0x86,
      0x87, 0xD6, 0x3A, 0x3B, 0x3C, 0x39, 0xD2, 0xC1, 0xC2] : List Nat).contains n || (n == 0x84 || n == 0x85)) = false := by decide
  have hop := Bool.or_eq_false_iff.1 (hlist op h.2 h.1)
  unfold closesRegion
  rw [hop.1, hop.2]
  rfl

theorem op_of_encV2 {i : Instr} {op : BitVec 8} {f : V2F} (h : encode i = some (encV2 op f)) : Instr.op i = op.toNat := by
  simp [Instr.op, h, opcodeOf_encV2]

theorem op_of_encV3 {i : Instr} {op : BitVec 8} {f : V3F} (h : encode i = some (encV3 op f)) : Instr.op i = op.toNat := by
  simp [Instr.op, h, opcodeOf_encV3]

/-- The blocks of one or two registers that an aligned 8-bit code names. -/
theorem block_le {d n al : Nat} (hd : d < 256) (hn : n = 1 ∨ n = 2 ∧ al = 2) (ha : al = 0 ∨ d % al = 0) : d + n ≤ 256 := by
  rcases hn with rfl | ⟨rfl, rfl⟩ <;> omega

section
variable {s : State} {u : Nat} {w : Wave} {i : Instr} {g : Wave → Wave}

/-- The destination of a vector instruction that issues lies in the register file. -/
theorem Issues.destLanes (h : Issues s u w i) {d : BitVec 8} {n al : Nat} {via : Via} (hu : useV 48 d n al via ⊆ Instr.uses w i)
    (hn : n = 1 ∨ n = 2 ∧ al = 2) : d.toNat + n ≤ 256 :=
  block_le d.isLt hn (h.use (hu List.mem_cons_self)).2

/-- A vector instruction that changes registers and special registers of its wave alone completes with that change. -/
theorem Issues.completes_vector (h : Issues s u w i) (hop : 0x40 ≤ Instr.op i ∧ Instr.op i < 0x78)
    (hx : exec i s = runInstr i (onWave g) s) {regs : Regs} {sp : Specials} (hg : g w.readied = { w.readied with regs := regs, sp := sp }) :
    Completes s u w i (w.after regs sp) :=
  h.completes_regs hx (closesRegion_vector w hop) ((congrArg Act.done (State.setWave_setWave ..)).trans (by rw [hg]))

/-- One that writes registers of the active lanes. -/
theorem Issues.completes_setLanes (h : Issues s u w i) (hop : 0x40 ≤ Instr.op i ∧ Instr.op i < 0x78)
    (hx : exec i s = runInstr i (onWave g) s) {d n : Nat} {x : Nat → Nat} (hd : d + n ≤ 256) (hg : g w.readied = w.readied.setLanes d n x) :
    ∃ w', Completes s u w i w' ∧ w' = w.after w'.regs w.sp ∧ VectorResult w w' d n x := by
  have hv : w.readied.setLanes d n x = { w.readied with regs := (w.readied.setLanes d n x).regs } := by
    have h := w.readied.onlyVector_setLanes d n x
    unfold Wave.onlyVector at h
    rw [h]
  exact ⟨_, h.completes_vector hop hx (sp := w.sp) (hg.trans hv), rfl,
    VectorResult.after (w := w) (w' := w.readied.setLanes d n x) (vectorResult_setLanes w.readied hd x) (by rw [hv]; rfl) w.sp⟩
end

section
variable {c : V2F → Instr}

/-- A vector instruction of format V2. -/
def VectorForm (c : V2F → Instr) : Prop := ∀ f, 0x40 ≤ Instr.op (c f) ∧ Instr.op (c f) < 0x78

/-- The registers of a type are one, or an aligned pair. -/
theorem tyRegs_cases (ty : BitVec 4) : tyRegs ty = 1 ∨ tyRegs ty = 2 ∧ tyRegs ty = 2 := by
  unfold tyRegs; split <;> simp

theorem tyRegs_eq (ty : BitVec 4) : tyRegs ty = regsOf ty := by simp [tyRegs, wideTy, regsOf, or_assoc]

/-- A vector instruction of format V2 that writes a value in each active lane. -/
theorem VectorOf.of_setLanes {n : V2F → Nat} {y x : V2F → Wave → Nat → Nat}
    (hx : ∀ f s, exec (c f) s = runInstr (c f) (onWave fun w => w.setLanes f.d.toNat (n f) (y f w)) s) (hop : VectorForm c)
    (hd : ∀ f w, ∃ al via, useV 48 f.d (n f) al via ⊆ Instr.uses w (c f) ∧ (n f = 1 ∨ n f = 2 ∧ al = 2))
    (hv : ∀ s u w f, Issues s u w (c f) → ∀ i ∈ w.activeLanes, y f w.readied i = x f w i) : VectorOf c n x := by
  intro s u w f h
  obtain ⟨al, via, hu, hn⟩ := hd f w
  obtain ⟨w', hdone, ha, hr⟩ := h.completes_setLanes (hop f) (hx f s) (h.destLanes hu hn) rfl
  exact ⟨w', hdone, ha, hr.congr (hv s u w f h)⟩

theorem packElems_congr {n : Nat} {l : List Nat} {x y : Nat → Nat} (h : ∀ e ∈ l, x e % 2 ^ n = y e % 2 ^ n) :
    packElems n (l.map x) = packElems n (l.map y) := by
  induction l with
  | nil => rfl
  | cons e l ih =>
    have ht := ih fun e he => h e (List.mem_cons_of_mem _ he)
    unfold packElems at ht ⊢
    rw [List.map_cons, List.map_cons, List.foldr_cons, List.foldr_cons, ht, h e List.mem_cons_self]

theorem elemOf_lt (n x e : Nat) : elemOf n x e < 2 ^ n := Nat.mod_lt _ (Nat.two_pow_pos n)

/-- An instruction on raw elements of two sources, from what it does with elements. -/
theorem ElementsOf.of_elements {k g : V2F → Nat → Nat → Nat → Nat}
    (hx : ∀ f s, exec (c f) s = runInstr (c f) (vector2 f (k f)) s) (hop : VectorForm c)
    (hd : ∀ f w, useV 48 f.d (regsOf f.ty) (regsOf f.ty) .none ⊆ Instr.uses w (c f))
    (hv : ∀ s u w f, Issues s u w (c f) → ∀ x y, x < 2 ^ elemWidth f.ty → y < 2 ^ elemWidth f.ty →
      k f (elemWidth f.ty) x y % 2 ^ elemWidth f.ty = g f (elemWidth f.ty) x y % 2 ^ elemWidth f.ty) : ElementsOf c g :=
  .of_setLanes hx hop (fun f w => ⟨tyRegs f.ty, .none, by rw [tyRegs_eq]; exact hd f w, tyRegs_cases f.ty⟩)
    fun s u w f h _ _ => packElems_congr fun _ _ => hv s u w f h _ _ (elemOf_lt ..) (elemOf_lt ..)

end

end Sys2Proof.Machine
end

section
/-! SUPPORT. The two-source integer vector instructions (R249, R250). -/

set_option Elab.async false

namespace Sys2Proof.Machine

/-! ### Arithmetic on elements -/

theorem elemWidth_pos (ty : BitVec 4) : 0 < elemWidth ty := by
  unfold elemWidth; split_ifs <;> decide

theorem intLo_le_intHi {n : Nat} (sg : Bool) : intLo n sg ≤ intHi n sg := by
  have h1 : 0 < 2 ^ (n - 1) := Nat.two_pow_pos _
  have h2 : 0 < 2 ^ n := Nat.two_pow_pos _
  unfold intLo intHi
  split <;> omega

/-- Clamping to the range of a type, as a maximum and a minimum (R250). -/
theorem clampTo_eq {n : Nat} (sg : Bool) (x : Int) : clampTo (intLo n sg) (intHi n sg) x = max (intLo n sg) (min (intHi n sg) x) := by
  have := intLo_le_intHi (n := n) sg
  unfold clampTo
  split_ifs <;> omega

/-- An element is the residue of its integer value. -/
theorem wrapTo_intVal {n x : Nat} (sg : Bool) (hx : x < 2 ^ n) : wrapTo n (intVal n sg x) = x := by
  have h := ofNat_wrapTo n (intVal n sg x)
  have hval := intVal_toNat sg (BitVec.ofNat n x)
  rw [BitVec.toNat_ofNat, Nat.mod_eq_of_lt hx] at hval
  rw [wrapTo_eq_toNat_ofInt, hval]
  cases sg
  · simp [Nat.mod_eq_of_lt hx]
  · rw [if_pos rfl, BitVec.ofInt_toInt, BitVec.toNat_ofNat, Nat.mod_eq_of_lt hx]

/-- The high half of a product of 2n bits is its floor division by 2^n. -/
theorem wrapTo_double_div (n : Nat) (p : Int) : wrapTo (2 * n) p / 2 ^ n = wrapTo n (p / (2 ^ n : Nat)) := by
  have ha : (0 : Int) < (2 ^ n : Nat) := Int.natCast_pos.2 (Nat.two_pow_pos n)
  have hsq : ((2 ^ (2 * n) : Nat) : Int) = (2 ^ n : Nat) * (2 ^ n : Nat) := by rw [two_mul, pow_add]; push_cast; ring
  unfold wrapTo
  rw [hsq, ← Int.natCast_inj]
  push_cast
  rw [Int.toNat_of_nonneg (Int.emod_nonneg _ (by positivity)), Int.toNat_of_nonneg (Int.emod_nonneg _ (by positivity))]
  generalize hA : (2 : Int) ^ n = a at *
  have ha : 0 < a := by rw [← hA]; positivity
  rw [Int.emod_def, Int.emod_def, Int.ediv_ediv_of_nonneg ha.le,
    show p - a * a * (p / (a * a)) = p + a * (-(a * (p / (a * a)))) by ring, Int.add_mul_ediv_left _ _ ha.ne']
  ring

theorem wrapTo_ite (n : Nat) (p : Prop) [Decidable p] (x y : Int) : wrapTo n (if p then x else y) = if p then wrapTo n x else wrapTo n y :=
  apply_ite _ _ _ _

/-! ### The instructions -/

theorem Issues.v2_sat {s : State} {u : Nat} {w : Wave} {i : Instr} (h : Issues s u w i) {f : V2F} (hm : ((8, f.sat == 0) : Check) ∈ i.must) :
    f.sat ≠ 1 := by
  have h0 := eq_of_beq (h.must hm)
  rw [h0]
  decide

theorem subset_usesV2 (f : V2F) (two : Bool) (n : Nat) (d : List RegUse) : d ⊆ usesV2 f two n d :=
  List.subset_append_of_subset_left _ (List.subset_append_of_subset_left _ (List.subset_append_left _ _))

section
variable {c : V2F → Instr}

/-- Instructions on integer values, with saturation (R249, R250). -/
theorem ElementsOf.of_vectorInt {g : Int → Int → Int} (hx : ∀ f s, exec (c f) s = runInstr (c f) (vectorInt f g) s)
    (hop : VectorForm c := by exact fun _ => by rw [op_of_encV2 rfl]; decide)
    (hd : ∀ f w, useV 48 f.d (regsOf f.ty) (regsOf f.ty) .none ⊆ Instr.uses w (c f) := by exact fun f _ => subset_usesV2 f _ _ _) :
    ElementsOf c fun f n x y =>
      let r := g (intVal n (elemSigned f.ty) x) (intVal n (elemSigned f.ty) y)
      wrapTo n (if f.sat = 1 then max (intLo n (elemSigned f.ty)) (min (intHi n (elemSigned f.ty)) r) else r) :=
  .of_elements hx hop hd fun _ _ _ _ _ _ _ _ _ => by simp only [clampTo_eq]

/-- Instructions whose element function is the one stated. -/
theorem ElementsOf.of_vector2 {g : V2F → Nat → Nat → Nat → Nat} (hx : ∀ f s, exec (c f) s = runInstr (c f) (vector2 f (g f)) s)
    (hop : VectorForm c := by exact fun _ => by rw [op_of_encV2 rfl]; decide)
    (hd : ∀ f w, useV 48 f.d (regsOf f.ty) (regsOf f.ty) .none ⊆ Instr.uses w (c f) := by exact fun f _ => subset_usesV2 f _ _ _) :
    ElementsOf c g := .of_elements hx hop hd fun _ _ _ _ _ _ _ _ _ => rfl

end

theorem leadZeros_of_lt {n x : Nat} (hx : x < 2 ^ n) : leadZeros n x = if x = 0 then n else n - 1 - Nat.log2 x := by
  rw [leadZeros, Nat.mod_eq_of_lt hx]

theorem vlzc_elementsOf : ElementsOf .vlzc fun _ n x _ => if x = 0 then n else n - 1 - Nat.log2 x :=
  .of_elements (k := fun _ n x _ => leadZeros n x) (fun _ _ => rfl) (fun _ => by rw [op_of_encV2 rfl]; decide)
    (fun f _ => subset_usesV2 f _ _ _) fun _ _ _ _ _ x _ hx _ => by rw [leadZeros_of_lt hx]

theorem vmin_elementsOf : ElementsOf .vmin fun f n x y => if intVal n (elemSigned f.ty) x ≤ intVal n (elemSigned f.ty) y then x else y :=
  .of_elements (k := fun f n x y =>
      let r := min (intVal n (elemSigned f.ty) x) (intVal n (elemSigned f.ty) y)
      wrapTo n (if f.sat = 1 then clampTo (intLo n (elemSigned f.ty)) (intHi n (elemSigned f.ty)) r else r))
    (fun _ _ => rfl) (fun _ => by rw [op_of_encV2 rfl]; decide) (fun f _ => subset_usesV2 f _ _ _) fun _ _ _ f h x y hx hy => by
      simp only [if_neg (h.v2_sat (f := f) (by simp [Instr.must, mustV2])), min_def, wrapTo_ite, wrapTo_intVal _ hx, wrapTo_intVal _ hy]

theorem vmax_elementsOf : ElementsOf .vmax fun f n x y => if intVal n (elemSigned f.ty) x ≤ intVal n (elemSigned f.ty) y then y else x :=
  .of_elements (k := fun f n x y =>
      let r := max (intVal n (elemSigned f.ty) x) (intVal n (elemSigned f.ty) y)
      wrapTo n (if f.sat = 1 then clampTo (intLo n (elemSigned f.ty)) (intHi n (elemSigned f.ty)) r else r))
    (fun _ _ => rfl) (fun _ => by rw [op_of_encV2 rfl]; decide) (fun f _ => subset_usesV2 f _ _ _) fun _ _ _ f h x y hx hy => by
      simp only [if_neg (h.v2_sat (f := f) (by simp [Instr.must, mustV2])), max_def, wrapTo_ite, wrapTo_intVal _ hx, wrapTo_intVal _ hy]

theorem vmulh_elementsOf : ElementsOf .vmulh fun f n x y =>
    wrapTo n ((intVal n (elemSigned f.ty) x * intVal n (elemSigned f.ty) y) / (2 ^ n : Nat)) :=
  .of_elements (k := fun f n x y => wrapTo (2 * n) (intVal n (elemSigned f.ty) x * intVal n (elemSigned f.ty) y) / 2 ^ n)
    (fun _ _ => rfl) (fun _ => by rw [op_of_encV2 rfl]; decide) (fun f _ => subset_usesV2 f _ _ _)
    fun _ _ _ _ _ _ _ _ _ => by rw [wrapTo_double_div]

end Sys2Proof.Machine

open Sys2Proof Sys2Proof.Machine

/-- Settles O8: each instruction by what it does with elements. -/
theorem vectorArithmetic : Obligations.VectorArithmetic :=
  ⟨.of_vectorInt fun _ _ => rfl, .of_vectorInt fun _ _ => rfl, .of_vectorInt fun _ _ => rfl, vmulh_elementsOf,
    vmin_elementsOf, vmax_elementsOf,
    .of_vector2 fun _ _ => rfl, .of_vector2 fun _ _ => rfl, .of_vector2 fun _ _ => rfl, .of_vector2 fun _ _ => rfl,
    .of_vector2 fun _ _ => rfl, .of_vector2 fun _ _ => rfl, .of_vector2 fun _ _ => rfl, .of_vector2 fun _ _ => rfl, vlzc_elementsOf⟩

end

section
/-! SUPPORT. The remaining integer vector instructions: three sources, moves, compares, reductions, scans and generators (R251 to R256). -/

set_option Elab.async false

namespace Sys2Proof.Machine

/-! ### Packed elements (R181) -/

theorem packElems_div (n : Nat) (xs : List Nat) (e : Nat) : packElems n xs / 2 ^ (n * e) = packElems n (xs.drop e) := by
  induction e generalizing xs with
  | zero => simp
  | succ e ih =>
    cases xs with
    | nil => simp [packElems]
    | cons x xs =>
      rw [List.drop_succ_cons, ← ih xs, Nat.mul_succ, Nat.pow_add, Nat.mul_comm (2 ^ (n * e)), ← Nat.div_div_eq_div_mul]
      congr 1
      show (x % 2 ^ n + 2 ^ n * packElems n xs) / 2 ^ n = packElems n xs
      rw [Nat.add_mul_div_left _ _ (Nat.two_pow_pos n), Nat.div_eq_of_lt (Nat.mod_lt _ (Nat.two_pow_pos n)), Nat.zero_add]

/-- An element of packed elements. -/
theorem elemOf_packElems (n : Nat) (xs : List Nat) (e : Nat) : elemOf n (packElems n xs) e = nth 0 xs e % 2 ^ n := by
  rw [elemOf, packElems_div]
  induction xs generalizing e with
  | nil => simp [packElems, nth]
  | cons x xs ih =>
    cases e with
    | zero => simp [packElems, nth]
    | succ e => exact ih e

theorem bit_eq_testBit (x n : Nat) : bit x n = x.testBit n := by
  rw [Nat.testBit_eq_decide_div_mod_eq]
  rfl

/-- A bit of an element is a bit of the value. -/
theorem bit_elemOf (n x e : Nat) {k : Nat} (hk : k < n) : bit (elemOf n x e) k = bit x (n * e + k) := by
  simp only [bit_eq_testBit, elemOf, Nat.testBit_mod_two_pow, hk, decide_true, Bool.true_and, Nat.testBit_div_two_pow]
  rw [Nat.add_comm]

theorem nth_map_range {α : Type} (d : α) (n : Nat) (f : Nat → α) {i : Nat} (hi : i < n) : nth d ((List.range n).map f) i = f i := by
  simp [nth, hi]

/-- A bit of a value packed from bits. -/
theorem bit_packElems_bits {n : Nat} (p : Nat → Bool) {j : Nat} (hj : j < n) :
    bit (packElems 1 ((List.range n).map fun b => b2n (p b))) j = p j := by
  have h := bit_elemOf 1 (packElems 1 ((List.range n).map fun b => b2n (p b))) j (k := 0) Nat.one_pos
  rw [Nat.one_mul, Nat.add_zero] at h
  rw [← h, elemOf_packElems, nth_map_range _ _ _ hj]
  cases p j <;> rfl

/-- A bit of a word packed from bits. -/
theorem getLsbD_packElems_bits (p : Nat → Bool) {j : Nat} (hj : j < 32) :
    (BitVec.ofNat 32 (packElems 1 ((List.range 32).map fun b => b2n (p b)))).getLsbD j = p j := by
  rw [BitVec.getLsbD_ofNat, ← bit_eq_testBit, bit_packElems_bits p hj, decide_eq_true hj, Bool.true_and]

/-! ### Mask groups -/

theorem Wave.setGroup_concat (w : Wave) (d : Nat) (xs : List Word) (x : Word) :
    w.setGroup d (xs ++ [x]) = (w.setGroup d xs).setS (d + xs.length) x := by
  simp [Wave.setGroup, List.zipIdx_append]

/-- Writing a group changes scalar registers alone. -/
theorem Wave.setGroup_frame (w : Wave) (d : Nat) (xs : List Word) : w.setGroup d xs = { w with regs := (w.setGroup d xs).regs } := by
  induction xs using List.reverseRecOn with
  | nil => rfl
  | append_singleton xs x ih => rw [Wave.setGroup_concat, ih]; rfl

theorem Wave.setGroup_readied (w : Wave) (d : Nat) (xs : List Word) :
    w.readied.setGroup d xs = { w.readied with regs := (w.setGroup d xs).regs } := by
  induction xs using List.reverseRecOn with
  | nil => rfl
  | append_singleton xs x ih => rw [Wave.setGroup_concat, Wave.setGroup_concat, ih, Wave.setGroup_frame]; rfl

/-- Writing the words of a group. -/
theorem scalarResult_setGroup (w : Wave) {d : Nat} (xs : List Word) (hd : d + xs.length ≤ 128) :
    ScalarResult w (w.setGroup d xs) d xs.length (nth 0 xs) := by
  induction xs using List.reverseRecOn with
  | nil => exact scalarResult_refl w d _
  | append_singleton xs x ih =>
    rw [List.length_append, List.length_singleton] at hd ⊢
    rw [Wave.setGroup_concat]
    have hk : (w.setGroup d xs).k = w.k := by rw [Wave.setGroup_frame]
    have h := ((ih (by omega)).congr (y := nth 0 (xs ++ [x])) fun j hj => by simp [nth, List.getElem?_append_left hj]).setS hk (by omega)
    simpa [nth] using h

section
variable {s : State} {u : Nat} {w : Wave} {i : Instr} {g : Wave → Wave}

/-- A vector instruction that writes scalar registers and special registers of its wave. -/
theorem Issues.completes_scalars (h : Issues s u w i) (hop : 0x40 ≤ Instr.op i ∧ Instr.op i < 0x78)
    (hx : exec i s = runInstr i (onWave g) s) {y : Wave} {sp : Specials} {d n : Nat} {x : Nat → Word} (hr : ScalarResult w y d n x)
    (hy : y = { w with regs := y.regs }) (hg : g w.readied = { w.readied with regs := y.regs, sp := sp }) :
    ∃ w', Completes s u w i w' ∧ w' = w.after w'.regs sp ∧ ScalarResult w w' d n x :=
  ⟨_, h.completes_vector hop hx hg, rfl, hr.after (by rw [hy]) sp⟩
end


/-- A bit of a mask of lanes. -/
theorem laneMask_getLsbD (w : Wave) (p : Nat → Bool) {i : Nat} (hi : i < w.width) :
    (nth 0 (laneMask w p) (i / 32)).getLsbD (i % 32) = (w.active i && p i) := by
  have hk : i / 32 < w.k := by unfold Wave.width at hi; omega
  rw [laneMask, nth_map_range _ _ _ hk, getLsbD_packElems_bits _ (Nat.mod_lt _ (by decide)), Nat.div_add_mod]

@[simp] theorem laneMask_length (w : Wave) (p : Nat → Bool) : (laneMask w p).length = w.k := by simp [laneMask]

/-! ### Three sources (R251) -/

theorem dest_usesV3 (f : V3F) (two : Bool) (n m dn : Nat) : useV 48 f.d dn dn .none ⊆ usesV3 f two n m dn :=
  List.subset_append_of_subset_left _ (List.subset_append_of_subset_left _ (List.subset_append_of_subset_left _ (List.subset_append_left _ _)))

/-- A three-source instruction of one register. -/
theorem Vector3Of.of_vector3 {c : V3F → Instr} {x : V3F → Wave → Nat → Nat → Nat → Nat}
    (hx : ∀ f s, exec (c f) s = runInstr (c f) (onWave fun w => w.setLanes f.d.toNat 1 fun i =>
      x f w (src3 w false f f.a f.ra i) (src3 w false f f.b f.rb i) (src3 w false f f.c f.rc i)) s)
    (hr : ∀ f w, x f w.readied = x f w)
    (hop : ∀ f, 0x40 ≤ Instr.op (c f) ∧ Instr.op (c f) < 0x78 := by exact fun _ => by rw [op_of_encV3 rfl]; decide)
    (hd : ∀ f w, useV 48 f.d 1 1 .none ⊆ Instr.uses w (c f) := by exact fun f _ => dest_usesV3 f _ _ _ _) : Vector3Of c x := fun s u w f h => by
  obtain ⟨w', hdone, ha, hres⟩ := h.completes_setLanes (hop f) (hx f s) (h.destLanes (hd f w) (.inl rfl)) rfl
  rw [hr] at hres
  exact ⟨w', hdone, ha, hres⟩

section
variable {s : State} {u : Nat} {w : Wave}

theorem vmad_completes {f : V3F} (h : Issues s u w (.vmad f)) :
    ∃ w', Completes s u w (.vmad f) w' ∧ w' = w.after w'.regs w.sp ∧ VectorResult w w' f.d.toNat (if f.ty = 2 then 2 else 1) fun i =>
      routeN w (f.ty == 2) f.a f.ra f.p i * routeN w (f.ty == 2) f.b f.rb f.p i + routeN w (f.ty == 2) f.c f.rc f.p i := by
  refine h.completes_setLanes (by rw [op_of_encV3 rfl]; decide) (rfl : _ = execVmad f s)
    (h.destLanes (dest_usesV3 f _ _ _ _) (by split <;> simp)) ?_
  by_cases hty : f.ty = 2
  · simp only [hty]
    rfl
  · simp only [if_neg hty, beq_eq_false_iff_ne.2 hty]
    rfl

theorem vsel_completes {f : V3F} (h : Issues s u w (.vsel f)) :
    ∃ w', Completes s u w (.vsel f) w' ∧ w' = w.after w'.regs w.sp ∧ VectorResult w w' f.d.toNat 1 fun i =>
      if (w.maskWord f.c (i / 32)).getLsbD (i % 32) then (route32 w f.a f.ra f.p i).toNat else (route32 w f.b f.rb f.p i).toNat :=
  h.completes_setLanes (by rw [op_of_encV3 rfl]; decide) (rfl : _ = execVsel f s)
    (h.destLanes (List.subset_append_of_subset_left _ (List.subset_append_of_subset_left _
      (List.subset_append_of_subset_left _ (List.subset_append_left _ _)))) (.inl rfl)) rfl

/-! ### Moves and lane numbers (R253, R254) -/

theorem vmov_vectorOf : VectorOf .vmov (fun f => tyRegs f.ty) fun f w i => srcA w f i :=
  .of_setLanes (y := fun f w i => srcA w f i) (fun _ _ => rfl) (fun _ => by rw [op_of_encV2 rfl]; decide)
    (fun f _ => ⟨tyRegs f.ty, .none, by rw [tyRegs_eq]; exact subset_usesV2 f _ _ _, tyRegs_cases f.ty⟩) fun _ _ _ _ _ _ _ => rfl

theorem vlane_vectorOf : VectorOf .vlane (fun _ => 1) fun f w i =>
    if f.fn = 0 then i else if f.fn = 1 then i % 32 else if f.fn = 2 then i / 32 else w.waveId * w.width + i :=
  .of_setLanes (fun _ _ => rfl) (fun _ => by rw [op_of_encV2 rfl]; decide)
    (fun _ _ => ⟨1, .none, List.Subset.refl _, .inl rfl⟩) fun _ _ _ _ _ _ _ => rfl

theorem vmovi_completes {f : IF} (h : Issues s u w (.vmovi f)) :
    ∃ w', Completes s u w (.vmovi f) w' ∧ w' = w.after w'.regs w.sp ∧ VectorResult w w' f.d.toNat (if f.fn = 0 then 1 else 2) fun _ =>
      if f.fn = 1 then (f.imm.signExtend 64).toNat else f.imm.toNat := by
  refine h.completes_setLanes (by rw [op_of_encI rfl]; decide) (rfl : _ = execVmovi f s)
    (h.destLanes (List.Subset.refl _) (by split <;> simp)) ?_
  by_cases h0 : f.fn = 0
  · simp only [h0]
    rfl
  · simp only [if_neg h0]
    split <;> rfl

/-! ### Compares and reductions (R252, R255) -/

theorem vcmp_completes {f : V2F} (h : Issues s u w (.vcmp f)) :
    ∃ w' m, Completes s u w (.vcmp f) w' ∧ w' = w.after w'.regs w.sp ∧ ScalarResult w w' f.d.toNat w.k m ∧
      ∀ i, i < w.width → (m (i / 32)).getLsbD (i % 32) = (w.active i && comparePred f.fn.toNat
        (intVal (elemWidth f.ty) (elemSigned f.ty) (srcA w f i)) (intVal (elemWidth f.ty) (elemSigned f.ty) (srcB w f i))) := by
  have hd : f.d.toNat + w.k ≤ 128 := h.destBlock List.mem_cons_self (subset_usesV2 f _ _ _)
  generalize hp : (fun i => comparePred f.fn.toNat (intVal (elemWidth f.ty) (elemSigned f.ty) (srcA w f i))
    (intVal (elemWidth f.ty) (elemSigned f.ty) (srcB w f i))) = p
  have hr := scalarResult_setGroup w (laneMask w p) (by rw [laneMask_length]; exact hd)
  rw [laneMask_length] at hr
  obtain ⟨w', hdone, ha, hres⟩ := h.completes_scalars (by rw [op_of_encV2 rfl]; decide) (rfl : _ = execVcmp f s) (sp := w.sp) hr
    (Wave.setGroup_frame ..) (by subst hp; exact Wave.setGroup_readied w _ _)
  exact ⟨w', _, hdone, ha, hres, fun i hi => (laneMask_getLsbD w p hi).trans (by subst hp; rfl)⟩

theorem vred_completes {f : V2F} (h : Issues s u w (.vred f)) :
    ∃ w', Completes s u w (.vred f) w' ∧ w' = w.after w'.regs w.sp ∧ ScalarResult w w' f.d.toNat 2 fun j =>
      if j = 0 then BitVec.ofNat 32 ((w.activeLanes.map (srcA w f)).foldl (reduceOp f.fn.toNat 32 (f.ty == 0)) (reduceId f.fn.toNat 32 (f.ty == 0)))
      else BitVec.ofNat 32 w.activeLanes.length := by
  have hd : f.d.toNat + 2 ≤ 128 := h.destBlock (al := 2) List.mem_cons_self (subset_usesV2 f _ _ _)
  simp only [List.foldl_map]
  exact h.completes_scalars (by rw [op_of_encV2 rfl]; decide) (rfl : _ = execVred f s) (sp := w.sp)
    ((scalarResult_setS w (by omega) _).setS rfl (by omega)) rfl rfl

end

end Sys2Proof.Machine
end

section
/-! SUPPORT. VSCAN and VRAND (R254, R256): the lanes in ascending order. -/

set_option Elab.async false

namespace Sys2Proof.Machine

theorem Wave.activeLanes_sorted (w : Wave) : w.activeLanes.Pairwise (· < ·) := List.pairwise_lt_range.filter _

theorem Wave.activeLanes_nodup (w : Wave) : w.activeLanes.Nodup := List.nodup_range.filter _

/-! ### Scans -/

/-- The value that a scan gives lane i: the lanes before it, or up to it, combined (R256). -/
def scanned (op : Nat → Nat → Nat) (x : Nat → Nat) (before : Prop) [Decidable before] (l : List Nat) (acc i : Nat) : Nat :=
  ((l.filter fun j => if before then decide (j < i) else decide (j ≤ i)).map x).foldl op acc

variable {op : Nat → Nat → Nat} {x : Nat → Nat} {before : Prop} [Decidable before]

theorem scanned_head {l : List Nat} {j acc : Nat} (h : ∀ k ∈ l, j < k) :
    scanned op x before (j :: l) acc j = if before then acc else op acc (x j) := by
  have hl : (l.filter fun k => if before then decide (k < j) else decide (k ≤ j)) = [] := by
    rw [List.filter_eq_nil_iff]
    intro k hk
    have := h k hk
    split <;> simp <;> omega
  unfold scanned
  rw [List.filter_cons, hl]
  by_cases hb : before <;> simp [hb]

theorem scanned_tail {l : List Nat} {i j acc : Nat} (h : j < i) :
    scanned op x before (j :: l) acc i = scanned op x before l (op acc (x j)) i := by
  unfold scanned
  rw [List.filter_cons, if_pos (by split <;> simp <;> omega)]
  rfl

/-- A scan over sorted lanes writes what it gives each of them. -/
theorem scan_foldl (w : Wave) (d n : Nat) {l : List Nat} (hl : l.Pairwise (· < ·)) (acc : Nat) :
    (l.foldl (fun (r : Wave × Nat) i => (r.1.setVs d n i (if before then r.2 else op r.2 (x i)), op r.2 (x i))) (w, acc)).1 =
      w.putLanes d n (l.map fun i => (i, scanned op x before l acc i)) := by
  induction l generalizing w acc with
  | nil => rfl
  | cons j l ih =>
    obtain ⟨hj, hl⟩ := List.pairwise_cons.1 hl
    rw [List.foldl_cons, ih _ hl, List.map_cons, scanned_head hj]
    unfold Wave.putLanes
    rw [List.foldl_cons]
    congr 1
    exact List.map_congr_left fun i hi => by rw [scanned_tail (hj i hi)]

section
variable {s : State} {u : Nat} {w : Wave}

theorem vscan_completes {f : V2F} (h : Issues s u w (.vscan f)) :
    let op := reduceOp (f.fn.toNat % 8) (elemWidth f.ty) (elemSigned f.ty)
    ∃ w', Completes s u w (.vscan f) w' ∧ w' = w.after w'.regs w.sp ∧ VectorResult w w' f.d.toNat (tyRegs f.ty) fun i =>
      ((w.activeLanes.filter fun j => if f.fn.toNat / 8 = 1 then decide (j < i) else decide (j ≤ i)).map (srcA w f)).foldl op
        (reduceId (f.fn.toNat % 8) (elemWidth f.ty) (elemSigned f.ty)) := by
  intro op
  refine h.completes_setLanes (by rw [op_of_encV2 rfl]; decide) (rfl : _ = execVscan f s)
    (h.destLanes (al := tyRegs f.ty) (via := .none) (by rw [tyRegs_eq]; exact subset_usesV2 f _ _ _) (tyRegs_cases f.ty)) ?_
  exact scan_foldl (op := op) (x := srcA w f) (before := f.fn.toNat / 8 = 1) w.readied f.d.toNat (tyRegs f.ty) w.activeLanes_sorted _

end

/-! ### Random numbers -/

/-- A lane's generator steps and its registers take what `x` makes of the new state. -/
def Wave.rand (w : Wave) (d n : Nat) (x : DWord → Nat) (l : List Nat) : Wave :=
  l.foldl (fun w i => (w.setGen i (genStep (w.gen i))).setVs d n i (x (genStep (w.gen i)))) w

theorem Wave.setVs_setGen (w : Wave) (d n i x j : Nat) (g : DWord) :
    (w.setGen j g).setVs d n i x = { w.setVs d n i x with sp := (w.setGen j g).sp } := by
  suffices h : ∀ (l : List Nat) (y : Wave) (sp : Specials),
      l.foldl (fun w k => w.setV (d + k) i (BitVec.ofNat 32 (x / 2 ^ (32 * k)))) { y with sp := sp } =
        { l.foldl (fun w k => w.setV (d + k) i (BitVec.ofNat 32 (x / 2 ^ (32 * k)))) y with sp := sp } from h _ w _
  intro l
  induction l with
  | nil => exact fun _ _ => rfl
  | cons k l ih => exact fun y sp => ih (y.setV (d + k) i (BitVec.ofNat 32 (x / 2 ^ (32 * k)))) sp

/-- What VRAND leaves of a wave. -/
theorem Wave.rand_spec (w : Wave) {d n : Nat} (hd : d + n ≤ 256) (x : DWord → Nat) {l : List Nat} (hl : l.Nodup) :
    w.rand d n x l = { w with
      regs := { w.regs with v := (w.rand d n x l).regs.v, vpoison := (w.rand d n x l).regs.vpoison },
      sp := { w.sp with gens := (w.rand d n x l).sp.gens } } ∧
    (∀ i, (w.rand d n x l).gen i = if i ∈ l then genStep (w.gen i) else w.gen i) ∧
    ∀ r i, r < 256 → (w.rand d n x l).v r i =
      if d ≤ r ∧ r < d + n ∧ i ∈ l then BitVec.ofNat 32 (x (genStep (w.gen i)) / 2 ^ (32 * (r - d))) else w.v r i := by
  induction l generalizing w with
  | nil => exact ⟨rfl, fun _ => by simp [Wave.rand], fun _ _ _ => by simp [Wave.rand]⟩
  | cons j l ih =>
    obtain ⟨hj, hl⟩ := List.nodup_cons.1 hl
    have hstep : w.rand d n x (j :: l) =
        ((w.setGen j (genStep (w.gen j))).setVs d n j (x (genStep (w.gen j)))).rand d n x l := rfl
    generalize hy : (w.setGen j (genStep (w.gen j))).setVs d n j (x (genStep (w.gen j))) = y at hstep
    have hyw : y = { w with regs := { w.regs with v := y.regs.v, vpoison := y.regs.vpoison }, sp := (w.setGen j (genStep (w.gen j))).sp } := by
      have hv := (w.setGen j (genStep (w.gen j))).onlyVector_setVs d n j (x (genStep (w.gen j)))
      rw [hy] at hv
      exact hv
    have hgen : ∀ i, y.gen i = if i = j then genStep (w.gen j) else w.gen i := by
      intro i
      rw [hyw]
      exact w.gen_setGen j _ i
    have hv : ∀ r i, r < 256 → y.v r i = if d ≤ r ∧ r < d + n ∧ i = j then BitVec.ofNat 32 (x (genStep (w.gen j)) / 2 ^ (32 * (r - d))) else w.v r i := by
      intro r i hr
      rw [← hy, Wave.v_setVs _ hd hr]
      rfl
    obtain ⟨hf, hg, hr⟩ := ih y hl
    rw [← hstep] at hf hg hr
    refine ⟨?_, fun i => ?_, fun r i hlt => ?_⟩
    · rw [hf, hyw]; rfl
    · rw [hg, hgen]
      by_cases hij : i = j
      · subst hij; simp [hj]
      · simp [hij]
    · rw [hr r i hlt, hv r i hlt, hgen]
      by_cases hij : i = j
      · subst hij; simp [hj]
      · simp [hij]

theorem vrand_completes {s : State} {u : Nat} {w : Wave} {f : V2F} (h : Issues s u w (.vrand f)) :
    ∃ w', Completes s u w (.vrand f) w' ∧ w' = w.after w'.regs { w.sp with gens := w'.sp.gens } ∧
      (∀ i, w'.gen i = if i ∈ w.activeLanes then genStep (w.gen i) else w.gen i) ∧
      VectorResult w w' f.d.toNat (if f.fn = 0 then 1 else 2) fun i =>
        if f.fn = 0 then (genStep (w.gen i) >>> 32).toNat else (genStep (w.gen i)).toNat := by
  have hfn : f.fn = 0 ∨ f.fn = 1 := by
    have h1 : f.fn.toNat ≤ 1 := of_decide_eq_true (h.must (c := mustLe 4 f.fn 1) (by simp [Instr.must, mustV2none]))
    bv_omega
  have hd : f.d.toNat + (if f.fn = 0 then 1 else 2) ≤ 256 := by
    refine h.destLanes (al := if f.fn = 0 then 1 else 2) (via := .none) ?_ (by split <;> simp)
    rcases hfn with h0 | h1
    · simp only [h0, Instr.uses]; exact List.Subset.refl _
    · simp only [h1, Instr.uses]; exact List.Subset.refl _
  obtain ⟨hf, hg, hv⟩ := w.readied.rand_spec hd (fun x => if f.fn = 0 then (x >>> 32).toNat else x.toNat) w.activeLanes_nodup
  generalize hy : w.readied.rand f.d.toNat (if f.fn = 0 then 1 else 2) (fun x => if f.fn = 0 then (x >>> 32).toNat else x.toNat) w.activeLanes = y at hf hg hv
  refine ⟨_, h.completes_vector (by rw [op_of_encV2 rfl]; decide) (rfl : _ = execVrand f s) (regs := y.regs) (sp := y.sp) ?_, ?_, hg, ?_⟩
  · have hyy : y = { w.readied with regs := y.regs, sp := y.sp } := by rw [hf]
    refine Eq.trans ?_ hyy
    rw [← hy]
    by_cases h0 : f.fn = 0
    · simp only [h0]; rfl
    · simp only [if_neg h0]; rfl
  · rw [hf]; rfl
  · refine ⟨hv, fun r => ?_, ?_, ?_⟩
    · rw [hf]; rfl
    · rw [hf]; rfl
    · rw [hf]; rfl

/-! ### Identities (R255) -/

theorem and_allOnes {x : Nat} (hx : x < 2 ^ 32) : x &&& (2 ^ 32 - 1) = x := by
  rw [Nat.and_two_pow_sub_one_eq_mod, Nat.mod_eq_of_lt hx]

/-- Values lie in the range of their type, whose ends are values. -/
theorem intVal_range (sg : Bool) (x : Nat) : intLo 32 sg ≤ intVal 32 sg x ∧ intVal 32 sg x ≤ intHi 32 sg := by
  cases sg <;> simp only [intVal, intLo, intHi, signedOf] <;> (try split) <;> simp <;> omega

theorem intVal_ends (sg : Bool) : intVal 32 sg (wrapTo 32 (intHi 32 sg)) = intHi 32 sg ∧ intVal 32 sg (wrapTo 32 (intLo 32 sg)) = intLo 32 sg := by
  cases sg <;> decide

theorem intVal_inj {sg : Bool} {x y : Nat} (hx : x < 2 ^ 32) (hy : y < 2 ^ 32) (h : intVal 32 sg x = intVal 32 sg y) : x = y := by
  rw [← wrapTo_intVal sg hx, ← wrapTo_intVal sg hy, h]

theorem reduceOp_identity (b : Bool) {x : Nat} (hx : x < 2 ^ 32) :
    reduceOp 1 32 b x (reduceId 1 32 b) = x ∧ reduceOp 2 32 b x (reduceId 2 32 b) = x ∧
    reduceOp 0 32 b x (reduceId 0 32 b) = x ∧ reduceOp 3 32 b x (reduceId 3 32 b) = x ∧ reduceOp 4 32 b x (reduceId 4 32 b) = x ∧
    reduceOp 5 32 b x (reduceId 5 32 b) = x := by
  obtain ⟨hlo, hhi⟩ := intVal_range b x
  obtain ⟨ehi, elo⟩ := intVal_ends b
  refine ⟨?_, ?_, Nat.mod_eq_of_lt hx, and_allOnes hx, Nat.or_zero x, Nat.xor_zero x⟩
  · simp only [reduceOp, reduceId, ehi, if_pos hhi]
  · simp only [reduceOp, reduceId, elo]
    split
    · have hx0 : intVal 32 b x = intVal 32 b (wrapTo 32 (intLo 32 b)) := by omega
      exact (intVal_inj hx (by cases b <;> decide) hx0).symm
    · rfl

theorem reduceOp_add (n : Nat) (b : Bool) (x y : Nat) : reduceOp 0 n b x y = (x + y) % 2 ^ n := rfl

theorem vlogic_vector3Of : Vector3Of .vlogic fun _ w a b c => packElems 1 ((List.range 32).map fun j =>
    b2n (w.kconst.getLsbD (4 * b2n (bit a j) + 2 * b2n (bit b j) + b2n (bit c j)))) := by
  refine .of_vector3 (fun f s => ?_) fun f w => ?_
  · show execVlogic f s = _
    unfold execVlogic
    refine congrArg (fun b => runInstr (.vlogic f) b s) (funext fun s => funext fun u => funext fun w => ?_)
    unfold vector3 onWave
    rfl
  · funext a b c
    rfl

theorem vbfe_vector3Of : Vector3Of .vbfe fun _ _ a _ c => extractField a c (bit c 15) := .of_vector3 (fun _ _ => rfl) fun _ _ => rfl

theorem vbfi_vector3Of : Vector3Of .vbfi fun _ _ a b c => insertField a b c := .of_vector3 (fun _ _ => rfl) fun _ _ => rfl

end Sys2Proof.Machine

open Sys2Proof Sys2Proof.Machine

/-- Settles O9: each instruction by its form. -/
theorem vectorLanes : Obligations.VectorLanes := by
  refine ⟨⟨vlogic_vector3Of, vbfe_vector3Of, vbfi_vector3Of, fun _ _ _ _ => vmad_completes, fun _ _ _ _ => vsel_completes, vmov_vectorOf,
      vlane_vectorOf, fun _ _ _ _ => vmovi_completes, fun _ _ _ _ => vrand_completes⟩,
    fun _ _ _ _ => vcmp_completes, fun _ _ _ _ => vred_completes, fun _ _ _ _ => vscan_completes, fun b x y hx _ => ?_⟩
  obtain ⟨h1, h2, h0, h3, h4, h5⟩ := reduceOp_identity b hx
  exact ⟨h1, h2, h0, h3, h4, h5, reduceOp_add 32 b x y⟩

end

section
/-! SUPPORT. Bit planes (R191, R257). -/

set_option Elab.async false

namespace Sys2Proof.Machine

/-- An element of equal blocks laid end to end. -/
theorem nth_flatMap_blocks {b : Nat} {f : Nat → List Nat} (hf : ∀ i, (f i).length = b) (n : Nat) {p : Nat} (hp : p < n * b) :
    nth 0 ((List.range n).flatMap f) p = nth 0 (f (p / b)) (p % b) := by
  induction n with
  | zero => omega
  | succ n ih =>
    have hlen : ((List.range n).flatMap f).length = n * b := by simp [List.length_flatMap, hf]
    have hb : 0 < b := by
      rcases Nat.eq_zero_or_pos b with rfl | hb
      · omega
      · exact hb
    rw [List.range_succ, List.flatMap_append, List.flatMap_singleton]
    by_cases hlt : p < n * b
    · rw [← ih hlt]
      simp only [nth, List.getElem?_append_left (hlen ▸ hlt)]
    · have hle : n * b ≤ p := Nat.le_of_not_lt hlt
      have hpb : p < b * (n + 1) := by rw [Nat.mul_comm]; exact hp
      have hq : p / b = n := Nat.div_eq_of_lt_le (by omega) hp
      have hm : p % b = p - n * b := by rw [Nat.mod_eq_sub_mul_div, hq, Nat.mul_comm]
      rw [hq, hm]
      simp only [nth, List.getElem?_append_right (hlen ▸ hle), hlen]

/-- An element of a block of a list. -/
theorem nth_block (l : List Nat) (k : Nat) {b q : Nat} (hq : q < b) : nth 0 ((l.drop (k * b)).take b) q = nth 0 l (k * b + q) := by
  simp [nth, hq, List.getElem?_drop]

/-- Byte n of a swept pass (R257). -/
def Wave.passByte (w : Wave) (r j n : Nat) : Nat := elemOf 8 (w.v r (32 * j + n / 4)).toNat (n % 4)

/-- A bit of a byte of a pass is a bit of a register. -/
theorem bit_passByte (w : Wave) (r j n : Nat) {k : Nat} (hk : k < 8) :
    bit (w.passByte r j n) k = (w.v r (32 * j + n / 4)).getLsbD (8 * (n % 4) + k) := by
  rw [Wave.passByte, bit_elemOf _ _ _ hk, bit_toNat]

/-- What the plane instructions put in lane i, which is active. -/
def Wave.planed (w : Wave) (r b : Nat) (g : Nat → List Nat → List Nat) (i : Nat) : Nat :=
  packElems 8 ((List.range 4).map fun m =>
    nth 0 ((List.range (128 / b)).flatMap fun l => g b ((((List.range 128).map (w.passByte r (i / 32))).drop (l * b)).take b)) (i % 32 * 4 + m))

/-- A byte of lane i, from its block. -/
theorem Wave.bit_planed (w : Wave) (r : Nat) {b : Nat} (hb : 128 / b * b = 128) {g : Nat → List Nat → List Nat} (hg : ∀ l, (g b l).length = b) (i : Nat) {m k : Nat}
    (hm : m < 4) (hk : k < 8) :
    bit (w.planed r b g i) (8 * m + k) = bit (nth 0 (g b ((((List.range 128).map (w.passByte r (i / 32))).drop
      ((i % 32 * 4 + m) / b * b)).take b)) ((i % 32 * 4 + m) % b)) k := by
  rw [← bit_elemOf 8 _ _ hk, planed, elemOf_packElems, nth_map_range _ _ _ hm, nth_flatMap_blocks (fun _ => hg _) _ (by omega)]
  simp only [bit_eq_testBit, Nat.testBit_mod_two_pow, hk, decide_true, Bool.true_and]

/-- A code of a block of a pass. -/
theorem Wave.nth_pass (w : Wave) (r j l : Nat) {b q : Nat} (hq : q < b) (hl : l * b + q < 128) :
    nth 0 ((((List.range 128).map (w.passByte r j)).drop (l * b)).take b) q = w.passByte r j (l * b + q) := by
  rw [nth_block _ _ hq, nth_map_range _ _ _ hl]

theorem nth_planeBlock (codes : List Nat) {b n k : Nat} (hn : n < b) (hk : k < 8) :
    bit (nth 0 (planeBlock b codes) n) k = bit (nth 0 codes (n % (b / 8) * 8 + k)) (7 - n / (b / 8)) := by
  rw [planeBlock, nth_map_range _ _ _ hn, bit_packElems_bits _ hk]

theorem nth_unplaneBlock (bytes : List Nat) {b e j : Nat} (he : e < b) (hj : j < 8) :
    bit (nth 0 (unplaneBlock b bytes) e) j = bit (nth 0 bytes (b / 8 * (7 - j) + e / 8)) (e % 8) := by
  rw [unplaneBlock, nth_map_range _ _ _ he, bit_packElems_bits _ hj]

section
variable {s : State} {u : Nat} {w : Wave} {c : V2F → Instr} {f : V2F}

/-- An active lane's EXEC word is not zero, so its pass is swept. -/
theorem Wave.execWord_of_active {i : Nat} (hi : i ∈ w.activeLanes) : i / 32 < w.k ∧ w.execWord (i / 32) ≠ 0 := by
  obtain ⟨hw, ha⟩ := List.mem_filter.1 hi
  have hlt := List.mem_range.1 hw
  refine ⟨by unfold Wave.width at hlt; omega, fun h0 => ?_⟩
  simp [Wave.active, Wave.execBit, h0] at ha

/-- A plane instruction writes the planes of its passes. -/
theorem Issues.completes_planes {g : Nat → List Nat → List Nat} (h : Issues s u w (c f)) (hop : VectorForm c)
    (hx : exec (c f) s = runInstr (c f) (planes f g) s) (hd : useV 48 f.d 1 1 .none ⊆ Instr.uses w (c f)) :
    ∃ w', Completes s u w (c f) w' ∧ w' = w.after w'.regs w.sp ∧
      VectorResult w w' f.d.toNat 1 (w.planed f.a.toNat (16 * 2 ^ f.fn.toNat) g) := by
  obtain ⟨w', hdone, ha, hr⟩ := h.completes_setLanes (hop f) hx (h.destLanes hd (.inl rfl)) rfl
  refine ⟨w', hdone, ha, hr.congr fun i hi => ?_⟩
  obtain ⟨hk, hne⟩ := Wave.execWord_of_active hi
  show packElems 8 ((List.range 4).map fun m => nth 0 (nth [] ((List.range w.k).map _) (i / 32)) (i % 32 * 4 + m)) = _
  rw [nth_map_range _ _ _ hk, if_neg (show w.readied.execWord (i / 32) ≠ 0 from hne)]
  rfl

/-- The blocks of a plane instruction fill a pass, and their planes fill the blocks. -/
theorem Issues.plane_block {f : V2F} {i : Instr} (h : Issues s u w i) (hm : mustIn 4 f.fn [0, 1, 2, 3] ∈ i.must) :
    128 / (16 * 2 ^ f.fn.toNat) * (16 * 2 ^ f.fn.toNat) = 128 ∧ 16 * 2 ^ f.fn.toNat / 8 * 8 = 16 * 2 ^ f.fn.toNat ∧ 0 < 16 * 2 ^ f.fn.toNat := by
  have hfn : f.fn.toNat ∈ [0, 1, 2, 3] := List.contains_iff_mem.1 (h.must hm)
  simp only [List.mem_cons, List.not_mem_nil, or_false] at hfn
  rcases hfn with h0 | h0 | h0 | h0 <;> rw [h0] <;> decide

/-- A byte of a lane stands in its pass. -/
theorem lane_byte_lt {i m b q : Nat} (hm : m < 4) (hb : 128 / b * b = 128) (hq : q < b) : (i % 32 * 4 + m) / b * b + q < 128 := by
  have hlt : i % 32 * 4 + m < 128 / b * b := by omega
  have hdiv : (i % 32 * 4 + m) / b < 128 / b := (Nat.div_lt_iff_lt_mul (by omega)).2 hlt
  calc (i % 32 * 4 + m) / b * b + q < ((i % 32 * 4 + m) / b + 1) * b := by rw [Nat.add_mul]; omega
    _ ≤ 128 / b * b := Nat.mul_le_mul_right b hdiv
    _ = 128 := hb

end

end Sys2Proof.Machine

open Sys2Proof Sys2Proof.Machine

/-- Settles O10: a bit of a lane's result is a bit of its block. -/
theorem bitPlanes : Obligations.BitPlanes := by
  intro s u w f B byteBit
  refine ⟨fun h => ?_, fun h => ?_⟩
  · obtain ⟨h128, h8, hpos⟩ := h.plane_block (f := f) (by simp [Instr.must, mustV2])
    obtain ⟨w', hdone, ha, hr⟩ := h.completes_planes (fun _ => by rw [op_of_encV2 rfl]; decide) (rfl : _ = execVplane f s)
      (List.subset_append_left _ _)
    refine ⟨w', _, hdone, ha, hr, ?_⟩
    intro i m k hi hm hk p
    have hq : p % B % (B / 8) * 8 + k < B := by have := Nat.mod_lt (p % B) (show 0 < B / 8 by omega); omega
    rw [Wave.bit_planed w _ h128 (fun _ => by simp [planeBlock]) i hm hk, nth_planeBlock _ (Nat.mod_lt _ hpos) hk,
      Wave.nth_pass _ _ _ _ hq (lane_byte_lt hm h128 hq), bit_passByte _ _ _ _ (Nat.lt_succ_of_le (Nat.sub_le _ _)),
      ← Nat.add_assoc]
  · obtain ⟨h128, h8, hpos⟩ := h.plane_block (f := f) (by simp [Instr.must, mustV2])
    obtain ⟨w', hdone, ha, hr⟩ := h.completes_planes (fun _ => by rw [op_of_encV2 rfl]; decide) (rfl : _ = execVunplane f s)
      (List.subset_append_left _ _)
    refine ⟨w', _, hdone, ha, hr, ?_⟩
    intro i m j hi hm hj p
    have he : p % B < B := Nat.mod_lt _ hpos
    have hq : B / 8 * (7 - j) + p % B / 8 < B := by
      have h1 : B / 8 * (7 - j) ≤ B / 8 * 7 := Nat.mul_le_mul_left _ (Nat.sub_le 7 j)
      omega
    rw [Wave.bit_planed w _ h128 (fun _ => by simp [unplaneBlock]) i hm hj, nth_unplaneBlock _ he hj,
      Wave.nth_pass _ _ _ _ hq (lane_byte_lt hm h128 hq), bit_passByte _ _ _ _ (Nat.mod_lt _ (by decide)), ← Nat.add_assoc]

end

section
/-! SUPPORT. The floating-point vector instructions: elements rounded lane by lane, at once or late (R184 to R186, R258 to R261). -/

set_option Elab.async false

namespace Sys2Proof.Machine

/-! ### Generators -/

theorem genSteps_succ (n : Nat) (x : DWord) : genSteps (n + 1) x = genStep (genSteps n x) := by
  induction n generalizing x with
  | zero => rfl
  | succ n ih => exact ih (genStep x)

/-- What a draw of a lane gives, and what it changes. -/
theorem Wave.draw_lane (w : Wave) (mode i : Nat) :
    w.draw mode i = (if mode = 5 then ((genStep (w.gen i)) >>> 32).toNat else 0, if mode = 5 then w.setGen i (genStep (w.gen i)) else w) := by
  unfold Wave.draw
  split <;> rfl

/-- Flags raised one after another (R184). -/
theorem foldl_or (l : List Nat) (a : Nat) : l.foldl (fun a x => a ||| x) a = a ||| l.foldl (fun a x => a ||| x) 0 := by
  induction l generalizing a with
  | nil => simp
  | cons x l ih => rw [List.foldl_cons, List.foldl_cons, ih, ih (0 ||| x), Nat.zero_or, Nat.or_assoc]

/-- The waves differ in generators alone. -/
def Wave.onlyGens (w w' : Wave) : Prop := w' = { w with sp := { w.sp with gens := w'.sp.gens } }

/-- The waves differ in generators and flags alone. -/
def Wave.onlyFp (w w' : Wave) : Prop := w' = { w with sp := { w.sp with fpstat := w'.sp.fpstat, gens := w'.sp.gens } }

theorem Wave.draw_onlyGens (w : Wave) (mode i : Nat) : w.onlyGens (w.draw mode i).2 := by
  unfold Wave.onlyGens
  rw [Wave.draw_lane]
  dsimp only
  split <;> rfl

theorem Wave.gen_draw_lane (w : Wave) (mode i j : Nat) :
    (w.draw mode i).2.gen j = if mode = 5 ∧ j = i then genStep (w.gen i) else w.gen j := by
  rw [Wave.draw_lane]
  by_cases hm : mode = 5
  · simp only [hm, if_true, true_and, Wave.gen_setGen]
  · simp only [hm, false_and, if_false]

/-! ### The elements of one lane -/

theorem roundElems_concat (mode i : Nat) (w : Wave) (gs : List (Nat → FpRes)) (g : Nat → FpRes) :
    roundElems mode i w (gs ++ [g]) = (((roundElems mode i w gs).1.draw mode i).2,
      (roundElems mode i w gs).2.1 ++ [(g ((roundElems mode i w gs).1.draw mode i).1).1],
      (roundElems mode i w gs).2.2 ||| (g ((roundElems mode i w gs).1.draw mode i).1).2) := by
  simp [roundElems, List.foldl_append]

/-- The elements of a lane round in order, each with the lane's next word (R186). -/
theorem roundElems_spec (mode i : Nat) (w : Wave) (r : Nat → Nat → FpRes) (c : Nat) :
    w.onlyGens (roundElems mode i w ((List.range c).map r)).1 ∧
    (∀ j, (roundElems mode i w ((List.range c).map r)).1.gen j = if mode = 5 ∧ j = i then genSteps c (w.gen i) else w.gen j) ∧
    (roundElems mode i w ((List.range c).map r)).2.1 = (List.range c).map (fun e => (r e (drawWord w mode e i)).1) ∧
    (roundElems mode i w ((List.range c).map r)).2.2 =
      ((List.range c).map fun e => (r e (drawWord w mode e i)).2).foldl (fun a x => a ||| x) 0 := by
  induction c with
  | zero =>
    refine ⟨rfl, fun j => ?_, rfl, rfl⟩
    split
    · rename_i h
      rw [h.2]
      rfl
    · rfl
  | succ c ih =>
    obtain ⟨hw, hgen, hx, hfl⟩ := ih
    rw [List.range_succ, List.map_append, List.map_singleton, roundElems_concat]
    generalize roundElems mode i w ((List.range c).map r) = y at *
    have hword : (y.1.draw mode i).1 = drawWord w mode c i := by
      rw [Wave.draw_lane, hgen, drawWord]
      by_cases hm : mode = 5
      · simp only [hm, if_true, and_self, genSteps_succ]
      · simp only [hm, if_false]
    refine ⟨?_, fun j => ?_, ?_, ?_⟩
    · have hd := y.1.draw_onlyGens mode i
      unfold Wave.onlyGens at *
      rw [hd, hw]
    · rw [Wave.gen_draw_lane, hgen, hgen, genSteps_succ]
      by_cases hm : mode = 5
      · by_cases hj : j = i <;> simp [hm, hj]
      · simp [hm]
    · rw [hx, hword, List.map_append, List.map_singleton]
    · rw [hfl, hword, List.map_append, List.map_singleton, List.foldl_append]
      rfl

/-! ### All lanes -/

/-- The step of `roundLanes`. -/
def roundLane (mode n : Nat) (gs : Nat → List (Nat → FpRes)) (r : Wave × List (Nat × Nat)) (i : Nat) : Wave × List (Nat × Nat) :=
  ((roundElems mode i r.1 (gs i)).1.raise (roundElems mode i r.1 (gs i)).2.2, r.2 ++ [(i, packElems n (roundElems mode i r.1 (gs i)).2.1)])

theorem roundLanes_eq (mode n : Nat) (gs : Nat → List (Nat → FpRes)) (w : Wave) :
    roundLanes mode n gs w = w.activeLanes.foldl (roundLane mode n gs) (w, []) := rfl

/-- The lanes round in order, each with its own generator. -/
theorem foldl_roundLane (mode n c : Nat) (r : Nat → Nat → Nat → FpRes) {l : List Nat} (hl : l.Nodup) (w : Wave) (vals : List (Nat × Nat)) :
    let y := l.foldl (roundLane mode n fun i => (List.range c).map (r i)) (w, vals)
    w.onlyFp y.1 ∧
    y.1.sp.fpstat = (l.flatMap fun i => (List.range c).map fun e => (r i e (drawWord w mode e i)).2).foldl (fun a x => a ||| x) w.sp.fpstat ∧
    (∀ i, y.1.gen i = if mode = 5 ∧ i ∈ l then genSteps c (w.gen i) else w.gen i) ∧
    y.2 = vals ++ l.map fun i => (i, packElems n ((List.range c).map fun e => (r i e (drawWord w mode e i)).1)) := by
  induction l generalizing w vals with
  | nil => exact ⟨rfl, rfl, fun i => by simp, by simp⟩
  | cons i l ih =>
    obtain ⟨hi, hl⟩ := List.nodup_cons.1 hl
    intro y
    obtain ⟨hw1, hgen1, hx1, hfl1⟩ := roundElems_spec mode i w (r i) c
    have hstep : roundLane mode n (fun i => (List.range c).map (r i)) (w, vals) i =
        ((roundElems mode i w ((List.range c).map (r i))).1.raise (roundElems mode i w ((List.range c).map (r i))).2.2,
          vals ++ [(i, packElems n (roundElems mode i w ((List.range c).map (r i))).2.1)]) := rfl
    rw [hx1, hfl1] at hstep
    generalize roundElems mode i w ((List.range c).map (r i)) = z at *
    generalize hv : z.1.raise _ = v at hstep
    have hvgen : ∀ j, v.gen j = if mode = 5 ∧ j = i then genSteps c (w.gen i) else w.gen j := by
      intro j
      rw [← hv]
      exact hgen1 j
    have hword : ∀ j ∈ l, ∀ e, drawWord v mode e j = drawWord w mode e j := by
      intro j hj e
      have hne : j ≠ i := fun h => hi (h ▸ hj)
      simp only [drawWord, hvgen, hne, and_false, if_false]
    obtain ⟨hf, hst, hgen, hvals⟩ := ih hl v (vals ++ [(i, packElems n ((List.range c).map fun e => (r i e (drawWord w mode e i)).1))])
    have hy : y = l.foldl (roundLane mode n fun i => (List.range c).map (r i)) (v, _) := congrArg (l.foldl _) hstep
    rw [← hy] at hf hst hgen hvals
    refine ⟨?_, ?_, fun j => ?_, ?_⟩
    · have hvw : v = { w with sp := { w.sp with fpstat := v.sp.fpstat, gens := v.sp.gens } } := by
        unfold Wave.onlyGens at hw1
        rw [← hv, hw1]
        rfl
      unfold Wave.onlyFp at *
      rw [hf, hvw]
    · rw [hst, List.flatMap_cons, List.foldl_append]
      have hfp : v.sp.fpstat = ((List.range c).map fun e => (r i e (drawWord w mode e i)).2).foldl (fun a x => a ||| x) w.sp.fpstat := by
        unfold Wave.onlyGens at hw1
        rw [foldl_or, ← hv, hw1]
        rfl
      rw [hfp]
      congr 1
      refine congrArg List.flatten (List.map_congr_left fun j hj => List.map_congr_left fun e _ => ?_)
      rw [hword j hj]
    · rw [hgen, hvgen]
      by_cases hm : mode = 5
      · by_cases hj : j = i
        · subst hj; simp [hm, hi]
        · simp [hm, hj]
      · simp [hm]
    · rw [hvals, List.append_assoc, List.map_cons, List.singleton_append]
      congr 2
      refine List.map_congr_left fun j hj => ?_
      simp only [hword j hj]

end Sys2Proof.Machine
end

section
/-! SUPPORT. The floating-point vector instructions complete, at once or late (R258 to R261). -/

set_option Elab.async false

namespace Sys2Proof.Machine

theorem Wave.onlyFp.eq_sp {w w' : Wave} (h : w.onlyFp w') : w' = { w with sp := w'.sp } := by
  have hsp : w'.sp = { w.sp with fpstat := w'.sp.fpstat, gens := w'.sp.gens } := congrArg Wave.sp h
  rw [hsp]
  exact h

section
variable {s : State} {u : Nat} {w : Wave} {i : Instr} {g : Wave → Wave}

/-- The results of rounding `c` elements in each active lane of the readied wave. -/
theorem roundLanes_readied (w : Wave) (mode n c : Nat) (r : Nat → Nat → Nat → FpRes) :
    let y := roundLanes mode n (fun i => (List.range c).map (r i)) w.readied
    y.1 = { w.readied with sp := y.1.sp } ∧
    y.1.sp = { w.sp with
      fpstat := (w.activeLanes.flatMap fun i => (List.range c).map fun e => (r i e (drawWord w mode e i)).2).foldl (fun a x => a ||| x) w.sp.fpstat,
      gens := y.1.sp.gens } ∧
    (∀ j, y.1.gen j = if mode = 5 ∧ j ∈ w.activeLanes then genSteps c (w.gen j) else w.gen j) ∧
    y.2 = w.activeLanes.map fun i => (i, packElems n ((List.range c).map fun e => (r i e (drawWord w mode e i)).1)) := by
  intro y
  obtain ⟨hf, hst, hgen, hv⟩ := foldl_roundLane mode n c r w.readied.activeLanes_nodup w.readied []
  refine ⟨hf.eq_sp, ?_, hgen, hv⟩
  have hsp := congrArg Wave.sp hf
  rw [hst] at hsp
  exact hsp

/-- An instruction that rounds elements in the active lanes and writes them completes with them. -/
theorem Issues.completes_fpNow (h : Issues s u w i) (hop : 0x40 ≤ Instr.op i ∧ Instr.op i < 0x78) (hx : exec i s = runInstr i (onWave g) s)
    {mode n c d k : Nat} {r : Nat → Nat → Nat → FpRes} (hd : d + k ≤ 256)
    (hg : g w.readied = (roundLanes mode n (fun i => (List.range c).map (r i)) w.readied).1.putLanes d k
      (roundLanes mode n (fun i => (List.range c).map (r i)) w.readied).2) :
    ∃ w', Completes s u w i w' ∧ w' = w.after w'.regs w'.sp ∧ FpEffect w w' mode c w.activeLanes r ∧
      VectorResult w w' d k fun i => packElems n ((List.range c).map fun e => (r i e (drawWord w mode e i)).1) := by
  obtain ⟨hf, hst, hgen, hv⟩ := roundLanes_readied w mode n c r
  generalize roundLanes mode n (fun i => (List.range c).map (r i)) w.readied = y at *
  have hput := y.1.onlyVector_putLanes d k y.2
  have hval : ∀ q j, q < 256 → (y.1.putLanes d k y.2).v q j = if d ≤ q ∧ q < d + k ∧ j ∈ w.activeLanes then
      BitVec.ofNat 32 (packElems n ((List.range c).map fun e => (r j e (drawWord w mode e j)).1) / 2 ^ (32 * (q - d))) else w.v q j := by
    intro q j hq
    rw [hv, Wave.v_putLanes _ hd hq]
    congr 1
    rw [hf]
    rfl
  generalize y.1.putLanes d k y.2 = z at *
  unfold Wave.onlyVector at hput
  have hz : z = { w.readied with regs := { w.regs with v := z.regs.v, vpoison := z.regs.vpoison }, sp := y.1.sp } := by
    rw [hput, hf]; rfl
  refine ⟨_, h.completes_vector hop hx (regs := z.regs) (sp := y.1.sp) ?_, rfl, ⟨hst, hgen⟩, hval, fun q => ?_, ?_, ?_⟩
  · rw [hg, hz]
  · rw [hz]; rfl
  · rw [hz]; rfl
  · rw [hz]; rfl

/-- An instruction that rounds elements in the active lanes and writes them late completes with one late result. -/
theorem Issues.completes_fpLate (h : Issues s u w i) (hop : 0x40 ≤ Instr.op i ∧ Instr.op i < 0x78)
    (hx : exec i s = runInstr i (onWave g) s) {mode n c d k la : Nat} {r : Nat → Nat → Nat → FpRes}
    (hg : g w.readied = (let y := roundLanes mode n (fun i => (List.range c).map (r i)) w.readied
      if y.2.isEmpty then y.1
      else y.1.addLate .value true d k 0 la (y.2.map fun v => { lane := v.1, addr := 0, own := [], nocache := true }) y.2)) :
    ∃ w', Completes s u w i w' ∧ FpEffect w w' mode c w.activeLanes r ∧
      if w.activeLanes = [] then w' = w.after w.regs w'.sp
      else ∃ l, w' = { w.after w.regs w'.sp with lateSeq := w.lateSeq + 1, late := (w.after w.regs w'.sp).late ++ [l] } ∧
        l.seq = w.lateSeq + 1 ∧ l.kind = .value ∧ l.vec = true ∧ l.reg = d ∧ l.nregs = k ∧ l.window = la ∧
        l.vals = w.activeLanes.map fun i => (i, packElems n ((List.range c).map fun e => (r i e (drawWord w mode e i)).1)) := by
  obtain ⟨hf, hst, hgen, hv⟩ := roundLanes_readied w mode n c r
  generalize roundLanes mode n (fun i => (List.range c).map (r i)) w.readied = y at *
  by_cases hl : w.activeLanes = []
  · rw [hl, List.map_nil] at hv
    dsimp only at hg
    rw [hv] at hg
    exact ⟨_, h.completes_vector hop hx (regs := w.regs) (sp := y.1.sp) (hg.trans hf), ⟨hst, hgen⟩, by rw [if_pos hl]; rfl⟩
  · have hne : y.2.isEmpty = false := by rw [hv]; simp [hl]
    obtain ⟨l, hdone, hseq, hk, hvec, hreg, hn, hwin, hvals⟩ := h.completes_addLate hx (closesRegion_vector w hop) (regs := w.regs) (sp := y.1.sp)
      (kind := .value) (vec := true) (reg := d) (nregs := k) (size := 0) (la := la)
      (lanes := y.2.map fun v => { lane := v.1, addr := 0, own := [], nocache := true }) (vals := y.2) (by
        refine (congrArg Act.done (State.setWave_setWave ..)).trans ?_
        rw [hg]
        dsimp only
        rw [hne, hf]
        rfl)
    refine ⟨_, hdone, ⟨hst, hgen⟩, ?_⟩
    rw [if_neg hl]
    exact ⟨l, rfl, hseq, hk, hvec, hreg, hn, hwin, hvals.trans hv⟩

end

/-! ### The forms of format V2 -/

section
variable {c : V2F → Instr} {g : FpFmt → Nat → Nat → Nat → Nat → FpRes}

theorem FpOf.of_now (hx : ∀ f s, exec (c f) s = runInstr (c f) (vectorFpNow f g) s)
    (hop : VectorForm c := by exact fun _ => by rw [op_of_encV2 rfl]; decide)
    (hd : ∀ f w, useV 48 f.d (regsOf f.ty) (regsOf f.ty) .none ⊆ Instr.uses w (c f) := by exact fun f _ => subset_usesV2 f _ _ _) :
    FpOf c g := fun s u w f h =>
  h.completes_fpNow (r := fun (i e k : Nat) => g (fpOf f.ty) (w.mode f.rnd.toNat) k (elemOf (fpOf f.ty).width (srcA w f i) e)
    (elemOf (fpOf f.ty).width (srcB w f i) e)) (hop f) (hx f s)
    (h.destLanes (al := tyRegs f.ty) (via := .none) (by rw [tyRegs_eq]; exact hd f w) (tyRegs_cases f.ty)) rfl

theorem FpLateOf.of_late (hx : ∀ f s, exec (c f) s = runInstr (c f) (vectorFpLate f g) s)
    (hop : VectorForm c := by exact fun _ => by rw [op_of_encV2 rfl]; decide) : FpLateOf c g := fun s _ w f h =>
  h.completes_fpLate (r := fun (i e k : Nat) => g (fpOf f.ty) (w.mode f.rnd.toNat) k (elemOf (fpOf f.ty).width (srcA w f i) e)
    (elemOf (fpOf f.ty).width (srcB w f i) e)) (hop f) (hx f s) rfl

end

/-- A lane holds one element of a format of 32 bits or more, else two. -/
theorem fpOf3_count (ty : BitVec 2) : (if 32 ≤ (fpOf3 ty).width then 1 else 2) = if ty = 0 ∨ ty = 1 then 1 else 2 := by
  revert ty
  decide

theorem packElems_singleton (n x : Nat) : packElems n [x] = x % 2 ^ n := by simp [packElems]

section
variable {s : State} {u : Nat} {w : Wave} {f : V3F}

theorem vfma_completes (h : Issues s u w (.vfma f)) :
    let fmt := fpOf3 f.ty
    let mode := w.mode f.rnd.toNat
    let count := if f.ty = 0 ∨ f.ty = 1 then 1 else 2
    let el := fun (c : BitVec 8) (m : BitVec 3) (i e : Nat) => elemOf fmt.width (routeN w (f.ty == 1) c m f.p i) e
    let r := fun (i e k : Nat) => fpFma fmt mode k (el f.a f.ra i e) (el f.b f.rb i e) (el f.c f.rc i e)
    ∃ w', Completes s u w (.vfma f) w' ∧ w' = w.after w'.regs w'.sp ∧ FpEffect w w' mode count w.activeLanes r ∧
      VectorResult w w' f.d.toNat (if f.ty = 1 then 2 else 1) fun i =>
        packElems fmt.width ((List.range count).map fun e => (r i e (drawWord w mode e i)).1) := by
  intro fmt mode count el r
  have hcount : (if 32 ≤ fmt.width then 1 else 2) = count := fpOf3_count f.ty
  refine h.completes_fpNow (r := r) (n := fmt.width) (by rw [op_of_encV3 rfl]; decide) (rfl : _ = execVfma f s)
    (h.destLanes (dest_usesV3 f _ _ _ _) (by split <;> simp)) ?_
  have hregs : (if (f.ty == 1) = true then 2 else 1) = if f.ty = 1 then 2 else 1 := by simp
  rw [← hcount, ← hregs]
  rfl

theorem vfdot2_completes (h : Issues s u w (.vfdot2 f)) :
    let mode := w.mode f.rnd.toNat
    let el := fun (c : BitVec 8) (m : BitVec 3) (i e : Nat) => fpDecode (fpOf3 f.ty) (elemOf 16 (route32 w c m f.p i).toNat e)
    let r := fun (i : Nat) (_ : Nat) (k : Nat) => exactSum fpF32 mode k (fpDecode fpF32 (route32 w f.c f.rc f.p i).toNat)
      [(el f.a f.ra i 0, el f.b f.rb i 0), (el f.a f.ra i 1, el f.b f.rb i 1)] false
    ∃ w', Completes s u w (.vfdot2 f) w' ∧ w' = w.after w'.regs w'.sp ∧ FpEffect w w' mode 1 w.activeLanes r ∧
      VectorResult w w' f.d.toNat 1 fun i => (r i 0 (drawWord w mode 0 i)).1 % 2 ^ 32 := by
  intro mode el r
  obtain ⟨w', hdone, ha, hfp, hr⟩ := h.completes_fpNow (r := r) (mode := mode) (n := 32) (c := 1) (by rw [op_of_encV3 rfl]; decide)
    (rfl : _ = execVfdot2 f s) (h.destLanes (dest_usesV3 f _ _ _ _) (.inl rfl)) rfl
  exact ⟨w', hdone, ha, hfp, hr.congr fun i _ => packElems_singleton ..⟩

end

end Sys2Proof.Machine

open Sys2Proof Sys2Proof.Machine

/-- Settles O11: at once or late, by the rounding of elements lane by lane. -/
theorem vectorFloat : Obligations.VectorFloat :=
  ⟨⟨.of_now fun _ _ => rfl, .of_now fun _ _ => rfl, .of_now fun _ _ => rfl, .of_now fun _ _ => rfl, .of_now fun _ _ => rfl,
      fun _ _ _ _ => vfma_completes, fun _ _ _ _ => vfdot2_completes⟩,
    .of_late fun _ _ => rfl, .of_late fun _ _ => rfl, .of_late fun _ _ => rfl, .of_late fun _ _ => rfl, .of_late fun _ _ => rfl,
    .of_late fun _ _ => rfl, .of_late fun _ _ => rfl, .of_late fun _ _ => rfl, .of_late fun _ _ => rfl⟩

end

section
/-! SUPPORT. Compares, classes, conversion and packing of floating-point vectors, and the reduction tree (R260, R262 to R264). -/

set_option Elab.async false

namespace Sys2Proof.Machine

section
variable {s : State} {u : Nat} {w : Wave} {f : V2F}

theorem vfcmp_completes (h : Issues s u w (.vfcmp f)) :
    let r := fun (i : Nat) => fpCompare (fpOf f.ty) f.fn.toNat (srcA w f i) (srcB w f i)
    ∃ w' m, Completes s u w (.vfcmp f) w' ∧
      w' = w.after w'.regs { w.sp with fpstat := (w.activeLanes.map fun i => (r i).2).foldl (fun a x => a ||| x) w.sp.fpstat } ∧
      ScalarResult w w' f.d.toNat w.k m ∧
      ∀ i, i < w.width → (m (i / 32)).getLsbD (i % 32) = (w.active i && (r i).1) := by
  intro r
  have hd : f.d.toNat + w.k ≤ 128 := h.destBlock List.mem_cons_self (subset_usesV2 f _ _ _)
  have hr := scalarResult_setGroup w (laneMask w fun i => (r i).1) (by rw [laneMask_length]; exact hd)
  rw [laneMask_length] at hr
  obtain ⟨w', hdone, ha, hres⟩ := h.completes_scalars (by rw [op_of_encV2 rfl]; decide) (rfl : _ = execVfcmp f s) hr
    (Wave.setGroup_frame ..)
    (sp := { w.sp with fpstat := w.sp.fpstat ||| w.activeLanes.foldl (fun fl i => fl ||| (r i).2) 0 }) (by
      refine (congrArg (Wave.raise · _) (Wave.setGroup_readied w _ (laneMask w fun i => (r i).1))).trans ?_
      rfl)
  refine ⟨w', _, hdone, ?_, hres, fun i hi => laneMask_getLsbD w _ hi⟩
  rw [foldl_or, List.foldl_map]
  exact ha

theorem vfclass_vectorOf : VectorOf .vfclass (fun f => tyRegs f.ty) fun f w i => packElems (fpOf f.ty).width ((List.range (elemCount f.ty)).map fun e =>
    fpClass (fpOf f.ty) (elemOf (fpOf f.ty).width (srcA w f i) e)) :=
  .of_setLanes (y := fun f w i => packElems (fpOf f.ty).width ((List.range (elemCount f.ty)).map fun e =>
      fpClass (fpOf f.ty) (elemOf (fpOf f.ty).width (srcA w f i) e))) (fun _ _ => rfl) (fun _ => by rw [op_of_encV2 rfl]; decide)
    (fun f _ => ⟨tyRegs f.ty, .none, by rw [tyRegs_eq]; exact subset_usesV2 f _ _ _, tyRegs_cases f.ty⟩) fun _ _ _ _ _ _ _ => rfl

theorem vcvt_completes (h : Issues s u w (.vcvt f)) :
    let mode := w.mode f.rnd.toNat
    let src := cvtType f.fn.toNat
    let r := fun (i : Nat) (_ : Nat) (k : Nat) => convert src (cvtType f.ty.toNat) mode k (f.sat == 1)
      (routeN w (f.fn == 0) f.a f.ra f.p i % 2 ^ src.width)
    ∃ w', Completes s u w (.vcvt f) w' ∧ w' = w.after w'.regs w'.sp ∧ FpEffect w w' mode 1 w.activeLanes r ∧
      VectorResult w w' f.d.toNat (if f.ty = 0 then 2 else 1) fun i => (r i 0 (drawWord w mode 0 i)).1 % 2 ^ 64 := by
  intro mode src r
  obtain ⟨w', hdone, ha, hfp, hr⟩ := h.completes_fpNow (r := r) (mode := mode) (n := 64) (c := 1) (by rw [op_of_encV2 rfl]; decide)
    (rfl : _ = execVcvt f s) (h.destLanes (al := if f.ty = 0 then 2 else 1) (via := .none) (subset_usesV2 f _ _ _) (by split <;> simp)) rfl
  exact ⟨w', hdone, ha, hfp, hr.congr fun i _ => packElems_singleton ..⟩

theorem vpack_vectorOf : VectorOf .vpack (fun _ => 1) fun f w i =>
    let a := (route32 w f.a f.ra f.p i).toNat
    let b := (route32 w f.b f.rb f.p i).toNat
    let d := (w.v f.d.toNat i).toNat
    if f.fn = 0 then a % 2 ^ 16 + 2 ^ 16 * (b % 2 ^ 16)
    else if f.fn = 1 then a % 2 ^ 8 + 2 ^ 8 * (b % 2 ^ 8) + d / 2 ^ 16 * 2 ^ 16
    else d % 2 ^ 16 + 2 ^ 16 * (a % 2 ^ 8 + 2 ^ 8 * (b % 2 ^ 8)) :=
  .of_setLanes (fun _ _ => rfl) (fun _ => by rw [op_of_encV2 rfl]; decide) (fun f _ => ⟨1, _, subset_usesV2 f _ _ _, .inl rfl⟩)
    fun _ _ w f _ i _ => by
      show (if f.fn = 0 then _ else if f.fn = 1 then _ else _) = _
      simp only [Nat.add_comm (_ / 65536 * 65536), Nat.add_comm (65536 * _)]
      rfl

theorem vunpk_vectorOf : VectorOf .vunpk (fun _ => 1) fun f w i =>
    let a := (route32 w f.a f.ra f.p i).toNat
    if f.fn.toNat < 2 then a / 2 ^ (16 * f.fn.toNat) % 2 ^ 16 else a / 2 ^ (8 * (f.fn.toNat - 2)) % 2 ^ 8 :=
  fun _ _ _ f h => h.completes_setLanes (by rw [op_of_encV2 rfl]; decide) (rfl : _ = execVunpk f _)
    (block_le (al := 0) f.d.isLt (.inl rfl) (.inl rfl)) rfl

end

end Sys2Proof.Machine
end

section
/-! SUPPORT. The tree of a floating-point reduction (R264). -/

set_option Elab.async false

namespace Sys2Proof.Machine

/-! ### Nodes -/

/-- The value and the flags of a node, from its children's values: an empty child is passed over. -/
def joinNodes (g : Nat → Nat → FpRes) : Option Nat → Option Nat → Option Nat × Nat
  | some x, some y => (some (g x y).1, (g x y).2)
  | none, y => (y, 0)
  | some x, none => (some x, 0)

theorem treeNode_succ (g : Nat → Nat → FpRes) (leaf : Nat → Option Nat) (m l : Nat) :
    treeNode g leaf (m + 1) l =
      ((joinNodes g (treeNode g leaf m l).1 (treeNode g leaf m (l + 2 ^ m)).1).1,
        (treeNode g leaf m l).2 ||| (treeNode g leaf m (l + 2 ^ m)).2 |||
          (joinNodes g (treeNode g leaf m l).1 (treeNode g leaf m (l + 2 ^ m)).1).2) := by
  rw [treeNode]
  rcases treeNode g leaf m l with ⟨_ | x, a⟩ <;> rcases treeNode g leaf m (l + 2 ^ m) with ⟨_ | y, b⟩ <;> simp [joinNodes]

/-- The flags of n nodes together. -/
def orAll (n : Nat) (F : Nat → Nat) : Nat := ((List.range n).map F).foldl (fun a x => a ||| x) 0

theorem orAll_succ (n : Nat) (F : Nat → Nat) : orAll (n + 1) F = orAll n F ||| F n := by
  simp [orAll, List.range_succ, List.foldl_append]

theorem orAll_succ' (n : Nat) (F : Nat → Nat) : orAll (n + 1) F = F 0 ||| orAll n fun i => F (i + 1) := by
  simp only [orAll, List.range_succ_eq_map, List.map_cons, List.map_map, List.foldl_cons]
  rw [foldl_or, Nat.zero_or]
  rfl

/-- The flags of two neighbours each, and of their nodes. -/
theorem orAll_pairs (n : Nat) (F G : Nat → Nat) :
    orAll (2 * n) F ||| orAll n G = orAll n fun i => F (2 * i) ||| F (2 * i + 1) ||| G i := by
  induction n with
  | zero => simp [orAll]
  | succ n ih =>
    rw [show 2 * (n + 1) = 2 * n + 1 + 1 by omega, orAll_succ, orAll_succ, orAll_succ, orAll_succ, ← ih]
    ac_rfl

/-! ### Levels -/

/-- Two neighbours of a level become one node, with the flags raised in it. -/
theorem combinePairs_range {g : Wave → Nat → Nat → Wave × Nat} {h : Nat → Nat → FpRes} (hg : ∀ w x y, g w x y = (w.raise (h x y).2, (h x y).1))
    (n : Nat) (F : Nat → Option Nat) (w : Wave) :
    combinePairs g w ((List.range (2 * n)).map F) =
      (w.raise (orAll n fun i => (joinNodes h (F (2 * i)) (F (2 * i + 1))).2),
        (List.range n).map fun i => (joinNodes h (F (2 * i)) (F (2 * i + 1))).1) := by
  induction n generalizing F w with
  | zero => simp [combinePairs, orAll, Wave.raise]
  | succ n ih =>
    have hlist : (List.range (2 * (n + 1))).map F = F 0 :: F 1 :: (List.range (2 * n)).map fun i => F (i + 2) := by
      rw [show 2 * (n + 1) = 2 * n + 1 + 1 by omega, List.range_succ_eq_map, List.map_cons, List.range_succ_eq_map]
      simp [Function.comp_def]
    have hraise : ∀ (v : Wave) a b, (v.raise a).raise b = v.raise (a ||| b) := fun v a b => by simp [Wave.raise, Nat.or_assoc]
    have hzero : ∀ v : Wave, v.raise 0 = v := fun v => by simp [Wave.raise]
    have hshift : ∀ i, 2 * (i + 1) = 2 * i + 2 := fun i => by omega
    rw [hlist, orAll_succ', List.range_succ_eq_map, List.map_cons, List.map_map]
    simp only [Function.comp_def, Nat.mul_zero, Nat.zero_add, Nat.succ_eq_add_one, hshift]
    rcases h0 : F 0 with _ | x <;> rcases h1 : F 1 with _ | y <;>
      simp [combinePairs, joinNodes, ih, hg, hraise, Nat.add_right_comm _ 1 2]

/-- The whole tree (R264). -/
theorem combineTree_range {g : Wave → Nat → Nat → Wave × Nat} {h : Nat → Nat → FpRes} (hg : ∀ w x y, g w x y = (w.raise (h x y).2, (h x y).1))
    (leaf : Nat → Option Nat) (k m : Nat) (w : Wave) :
    combineTree g k (w.raise (orAll (2 ^ k) fun i => (treeNode h leaf m (i * 2 ^ m)).2))
        ((List.range (2 ^ k)).map fun i => (treeNode h leaf m (i * 2 ^ m)).1) =
      (w.raise (treeNode h leaf (m + k) 0).2, (treeNode h leaf (m + k) 0).1) := by
  induction k generalizing m w with
  | zero => simp [combineTree, orAll]
  | succ k ih =>
    have hnode : ∀ i, treeNode h leaf (m + 1) (i * 2 ^ (m + 1)) =
        ((joinNodes h (treeNode h leaf m (2 * i * 2 ^ m)).1 (treeNode h leaf m ((2 * i + 1) * 2 ^ m)).1).1,
          (treeNode h leaf m (2 * i * 2 ^ m)).2 ||| (treeNode h leaf m ((2 * i + 1) * 2 ^ m)).2 |||
            (joinNodes h (treeNode h leaf m (2 * i * 2 ^ m)).1 (treeNode h leaf m ((2 * i + 1) * 2 ^ m)).1).2) := by
      intro i
      rw [treeNode_succ, show i * 2 ^ (m + 1) = 2 * i * 2 ^ m by ring, show 2 * i * 2 ^ m + 2 ^ m = (2 * i + 1) * 2 ^ m by ring]
    have hraise : ∀ (v : Wave) a b, (v.raise a).raise b = v.raise (a ||| b) := fun v a b => by simp [Wave.raise, Nat.or_assoc]
    rw [combineTree, show 2 ^ (k + 1) = 2 * 2 ^ k by ring, combinePairs_range hg]
    dsimp only
    rw [hraise, orAll_pairs]
    have hih := ih (m + 1) w
    simp only [hnode] at hih
    rw [hih, show m + 1 + k = m + (k + 1) by omega]

/-! ### Under every mode -/

/-- A combination that changes special registers alone. -/
def spOnly (g : Wave → Nat → Nat → Wave × Nat) : Prop := ∀ w x y, (g w x y).1 = { w with sp := (g w x y).1.sp }

theorem combinePairs_spOnly {g : Wave → Nat → Nat → Wave × Nat} (hg : spOnly g) :
    ∀ (w : Wave) (l : List (Option Nat)), (combinePairs g w l).1 = { w with sp := (combinePairs g w l).1.sp }
  | w, some x :: some y :: r => by
    have ih := combinePairs_spOnly hg (g w x y).1 r
    simp only [combinePairs]
    rw [ih, hg w x y]
  | w, none :: y :: r => by
    simp only [combinePairs]
    exact combinePairs_spOnly hg w r
  | w, some x :: none :: r => by
    simp only [combinePairs]
    exact combinePairs_spOnly hg w r
  | _, [] => rfl
  | _, [none] => rfl
  | _, [some _] => rfl

theorem combineTree_spOnly {g : Wave → Nat → Nat → Wave × Nat} (hg : spOnly g) (m : Nat) (w : Wave) (l : List (Option Nat)) :
    (combineTree g m w l).1 = { w with sp := (combineTree g m w l).1.sp } := by
  induction m generalizing w l with
  | zero => rfl
  | succ m ih =>
    have hp := combinePairs_spOnly hg w l
    rw [combineTree]
    dsimp only
    rw [ih, hp]

/-- With at most one value nothing is combined. -/
theorem combinePairs_single (g : Wave → Nat → Nat → Wave × Nat) :
    ∀ (w : Wave) (l : List (Option Nat)), l.reduceOption.length ≤ 1 →
      (combinePairs g w l).2.reduceOption = l.reduceOption ∧ (combinePairs g w l).2.length = (l.length + 1) / 2
  | w, some x :: some y :: r, hl => by simp at hl
  | w, none :: none :: r, hl => by
    have ih := combinePairs_single g w r (by simpa using hl)
    rw [combinePairs]
    exact ⟨by simp [ih.1], by simp [ih.2]; omega⟩
  | w, none :: some y :: r, hl => by
    have ih := combinePairs_single g w r (by simp at hl; simp [hl])
    rw [combinePairs]
    exact ⟨by simp [ih.1], by simp [ih.2]; omega⟩
  | w, some x :: none :: r, hl => by
    have ih := combinePairs_single g w r (by simp at hl; simp [hl])
    rw [combinePairs]
    exact ⟨by simp [ih.1], by simp [ih.2]; omega⟩
  | _, [], _ => ⟨rfl, rfl⟩
  | _, [none], _ => by simp [combinePairs]
  | _, [some _], _ => by simp [combinePairs]

/-- A tree with at most one value gives it. -/
theorem combineTree_single (g : Wave → Nat → Nat → Wave × Nat) (m : Nat) (w : Wave) (l : List (Option Nat))
    (hl : l.reduceOption.length ≤ 1) (hlen : l.length = 2 ^ m) : (combineTree g m w l).2 = l.reduceOption.head? := by
  induction m generalizing w l with
  | zero =>
    obtain ⟨a, rfl⟩ := List.length_eq_one_iff.1 hlen
    cases a <;> rfl
  | succ m ih =>
    obtain ⟨hv, hn⟩ := combinePairs_single g w l hl
    rw [combineTree]
    dsimp only
    rw [ih _ _ (hv ▸ hl) (by rw [hn, hlen, pow_succ]; omega), hv]

/-! ### VFRED -/

/-- The leaf of a lane (R264). -/
def Wave.leaf (w : Wave) (f : V2F) (i : Nat) : Option Nat := if i < w.width ∧ w.active i then some (srcA w f i) else none

/-- One combination: the sum, or the smaller or larger value; lane 0's generator draws for a sum. -/
def fredStep (f : V2F) (mode : Nat) (w : Wave) (x y : Nat) : Wave × Nat :=
  if f.fn = 0 then ((w.draw mode 0).2.raise (fpAdd (fpOf f.ty) mode (w.draw mode 0).1 x y).2, (fpAdd (fpOf f.ty) mode (w.draw mode 0).1 x y).1)
  else (w.raise (fpMinMax (fpOf f.ty) (f.fn == 2) x y).2, (fpMinMax (fpOf f.ty) (f.fn == 2) x y).1)

theorem fredStep_spOnly (f : V2F) (mode : Nat) : spOnly (fredStep f mode) := by
  intro w x y
  unfold fredStep
  split
  · have hd := w.draw_onlyGens mode 0
    unfold Wave.onlyGens at hd
    dsimp only
    rw [hd]
    rfl
  · rfl

/-- In a mode other than SR nothing is drawn. -/
theorem fredStep_eq (f : V2F) {mode : Nat} (hm : mode ≠ 5) (w : Wave) (x y : Nat) :
    fredStep f mode w x y =
      (w.raise (if f.fn = 0 then fpAdd (fpOf f.ty) mode 0 x y else fpMinMax (fpOf f.ty) (f.fn == 2) x y).2,
        (if f.fn = 0 then fpAdd (fpOf f.ty) mode 0 x y else fpMinMax (fpOf f.ty) (f.fn == 2) x y).1) := by
  unfold fredStep
  rw [Wave.draw_lane, if_neg hm, if_neg hm]
  split <;> rfl

/-- The leaves that hold a value are the active lanes. -/
theorem leaves_reduceOption (w : Wave) (f : V2F) {n : Nat} (hn : w.width ≤ n) :
    ((List.range n).map (w.leaf f)).reduceOption = w.activeLanes.map (srcA w f) := by
  obtain ⟨k, rfl⟩ := Nat.exists_eq_add_of_le hn
  have hsplit : ∀ l : List Nat, (∀ i ∈ l, i < w.width) → (l.map (w.leaf f)).reduceOption = (l.filter w.active).map (srcA w f) := by
    intro l
    induction l with
    | nil => exact fun _ => rfl
    | cons i l ih =>
      intro hl
      have hi := hl i List.mem_cons_self
      have ht := ih fun j hj => hl j (List.mem_cons_of_mem _ hj)
      by_cases ha : w.active i = true
      · rw [List.map_cons, Wave.leaf, if_pos ⟨hi, ha⟩, List.reduceOption_cons_of_some, ht, List.filter_cons_of_pos ha, List.map_cons]
      · rw [List.map_cons, Wave.leaf, if_neg (fun h => ha h.2), List.reduceOption_cons_of_none, ht, List.filter_cons_of_neg ha]
  have htail : ∀ l : List Nat, (∀ i ∈ l, w.width ≤ i) → (l.map (w.leaf f)).reduceOption = [] := by
    intro l
    induction l with
    | nil => exact fun _ => rfl
    | cons i l ih =>
      intro hl
      rw [List.map_cons, Wave.leaf, if_neg (fun h => absurd h.1 (Nat.not_lt.2 (hl i List.mem_cons_self))), List.reduceOption_cons_of_none]
      exact ih fun j hj => hl j (List.mem_cons_of_mem _ hj)
  rw [List.range_add, List.map_append, List.reduceOption_append, hsplit _ fun i hi => List.mem_range.1 hi,
    htail _ fun i hi => by obtain ⟨j, -, rfl⟩ := List.mem_map.1 hi; omega, List.append_nil]
  rfl

theorem width_le_leaves (w : Wave) : w.width ≤ 2 ^ (Nat.log2 (w.width - 1) + 1) := by
  have := Nat.lt_log2_self (n := w.width - 1)
  omega

theorem routeN_lt (w : Wave) (wide : Bool) (c : BitVec 8) (m : BitVec 3) (p : BitVec 10) (i : Nat) :
    routeN w wide c m p i < 2 ^ (32 * if wide then 2 else 1) := by
  cases wide
  · exact (route32 w c m p i).isLt
  · exact (route64 w c m p i).isLt

theorem srcA_lt (w : Wave) (f : V2F) (i : Nat) : srcA w f i < 2 ^ (32 * regsOf f.ty) := by
  have h := routeN_lt w (wideTy f.ty) f.a f.ra f.p i
  rwa [show (if wideTy f.ty then 2 else 1) = regsOf f.ty from tyRegs_eq f.ty] at h

/-- Writing the result and the count of a reduction, of two registers or, for type 5, four. -/
def Wave.setReduced (w : Wave) (ty : BitVec 4) (d x : Nat) (n : Word) : Wave :=
  if ty = 5 then ((w.setS64 d (BitVec.ofNat 64 x)).setS (d + 2) n).setS (d + 3) 0 else (w.setS d (BitVec.ofNat 32 x)).setS (d + 1) n

theorem scalarResult_setReduced (w : Wave) (ty : BitVec 4) {d : Nat} (hd : d + (if ty = 5 then 4 else 2) ≤ 128) (x : Nat) (n : Word) :
    ScalarResult w (w.setReduced ty d x n) d (if ty = 5 then 4 else 2) fun j =>
      if j < (if ty = 5 then 2 else 1) then BitVec.ofNat 32 (x / 2 ^ (32 * j)) else if j = (if ty = 5 then 2 else 1) then n else 0 := by
  by_cases h5 : ty = 5
  · simp only [Wave.setReduced, if_pos h5] at hd ⊢
    have h64 := (scalarResult_setS64 w (d := d) (by omega) (BitVec.ofNat 64 x)).congr
      (y := fun j => if j < 2 then BitVec.ofNat 32 (x / 2 ^ (32 * j)) else if j = 2 then n else 0) fun j hj => by
        rw [if_pos hj, extractLsb'_ofNat_word x hj]
    exact (h64.setS rfl (by omega)).setS rfl (by omega)
  · simp only [Wave.setReduced, if_neg h5] at hd ⊢
    have h1 := scalarResult_setS w (d := d) (by omega) fun j => if j < 1 then BitVec.ofNat 32 (x / 2 ^ (32 * j)) else if j = 1 then n else 0
    have h2 := h1.setS rfl (by omega)
    simpa using h2

section
variable {s : State} {u : Nat} {w : Wave} {f : V2F}

/-- The tree of a reduction over the active lanes. -/
def Wave.fred (w : Wave) (f : V2F) (mode : Nat) : Wave × Option Nat :=
  combineTree (fredStep f mode) (Nat.log2 (w.width - 1) + 1) w ((List.range (2 ^ (Nat.log2 (w.width - 1) + 1))).map (w.leaf f))

theorem orAll_zero (n : Nat) : orAll n (fun _ => 0) = 0 := by
  induction n with
  | zero => rfl
  | succ n ih => rw [orAll_succ, ih]; rfl

/-- In a mode other than SR the tree is the one of R264. -/
theorem Wave.fred_eq (w : Wave) (f : V2F) {mode : Nat} (hm : mode ≠ 5) :
    let root := treeNode (fun x y => if f.fn = 0 then fpAdd (fpOf f.ty) mode 0 x y else fpMinMax (fpOf f.ty) (f.fn == 2) x y) (w.leaf f)
      (Nat.log2 (w.width - 1) + 1) 0
    w.fred f mode = (w.raise root.2, root.1) := by
  intro root
  have h := combineTree_range (fredStep_eq f hm) (w.leaf f) (Nat.log2 (w.width - 1) + 1) 0 w
  simp only [show ∀ g leaf l, treeNode g leaf 0 l = (leaf l, 0) from fun _ _ _ => rfl, pow_zero, Nat.mul_one, orAll_zero] at h
  rw [Nat.zero_add] at h
  have hz : w.raise 0 = w := by simp [Wave.raise]
  rw [hz] at h
  exact h

/-- A result is one of the wave before its special registers changed. -/
theorem ScalarResult.of_sp {w z y : Wave} {d n : Nat} {x : Nat → Word} (h : ScalarResult z y d n x) (hz : z = { w.readied with sp := z.sp }) :
    ScalarResult w y d n x := by
  rw [hz] at h
  exact h

theorem vfred_completes (h : Issues s u w (.vfred f)) :
    ∃ w' x, Completes s u w (.vfred f) w' ∧ w' = w.after w'.regs w'.sp ∧
      ScalarResult w w' f.d.toNat (if f.ty = 5 then 4 else 2) (fun j =>
        if j < (if f.ty = 5 then 2 else 1) then BitVec.ofNat 32 (x / 2 ^ (32 * j))
        else if j = (if f.ty = 5 then 2 else 1) then BitVec.ofNat 32 w.activeLanes.length else 0) ∧
      (let fmt := fpOf f.ty
       let mode := w.mode f.rnd.toNat
       let g := fun (x y : Nat) => if f.fn = 0 then fpAdd fmt mode 0 x y else fpMinMax fmt (f.fn == 2) x y
       let leaf := fun (i : Nat) => if i < w.width ∧ w.active i then some (srcA w f i) else none
       let root := treeNode g leaf (Nat.log2 (w.width - 1) + 1) 0
       mode ≠ 5 → w'.sp = { w.sp with fpstat := w.sp.fpstat ||| root.2 } ∧ ∀ r, root.1 = some r → x = r) ∧
      (w.activeLanes = [] → x = if f.fn = 0 then 0 else if f.fn = 1 then (fpOf f.ty).inf.getD 0
        else (fpOf f.ty).signed true ((fpOf f.ty).inf.getD 0)) ∧
      (∀ i, w.activeLanes = [i] → x % 2 ^ (32 * regsOf f.ty) = srcA w f i) := by
  generalize hid : (if f.fn = 0 then 0 else (fpOf f.ty).signed (f.fn == 2) ((fpOf f.ty).inf.getD 0)) = identity
  have hfred := fun {mode : Nat} => w.readied.fred_eq f (mode := mode)
  have hsingle : w.activeLanes.length ≤ 1 → (w.readied.fred f (w.mode f.rnd.toNat)).2 = (w.activeLanes.map (srcA w f)).head? := by
    intro hl
    have hlv := leaves_reduceOption w.readied f (width_le_leaves w.readied)
    rw [Wave.fred, combineTree_single _ _ _ _ (by rw [hlv, List.length_map]; exact hl) (by simp), hlv]
    rfl
  have hsp : (w.readied.fred f (w.mode f.rnd.toNat)).1 = { w.readied with sp := (w.readied.fred f (w.mode f.rnd.toNat)).1.sp } :=
    combineTree_spOnly (fredStep_spOnly f _) _ _ _
  have hd : f.d.toNat + (if f.ty = 5 then 4 else 2) ≤ 128 := by
    have hty : f.ty.toNat ∈ [4, 5] := List.contains_iff_mem.1 (h.must (c := mustIn 12 f.ty [4, 5]) (by simp [Instr.must, mustV2]))
    have hb : f.d.toNat + 2 * regsOf f.ty ≤ 128 := h.destBlock (al := 2 * regsOf f.ty) List.mem_cons_self (subset_usesV2 f _ _ _)
    simp only [List.mem_cons, List.not_mem_nil, or_false] at hty
    rcases hty with h4 | h5
    · rw [show f.ty = 4 from BitVec.eq_of_toNat_eq h4] at hb ⊢
      exact hb
    · rw [show f.ty = 5 from BitVec.eq_of_toNat_eq h5] at hb ⊢
      exact hb
  have hx : exec (.vfred f) s = runInstr (.vfred f) (onWave fun w => (w.fred f (w.mode f.rnd.toNat)).1.setReduced f.ty f.d.toNat
      ((w.fred f (w.mode f.rnd.toNat)).2.getD (if f.fn = 0 then 0 else (fpOf f.ty).signed (f.fn == 2) ((fpOf f.ty).inf.getD 0)))
      (BitVec.ofNat 32 w.activeLanes.length)) s := rfl
  generalize hz : w.readied.fred f (w.mode f.rnd.toNat) = z at *
  have hr := scalarResult_setReduced z.1 f.ty hd (z.2.getD identity) (BitVec.ofNat 32 w.activeLanes.length)
  have hfr : z.1.setReduced f.ty f.d.toNat (z.2.getD identity) (BitVec.ofNat 32 w.activeLanes.length) =
      { w.readied with regs := (z.1.setReduced f.ty f.d.toNat (z.2.getD identity) (BitVec.ofNat 32 w.activeLanes.length)).regs, sp := z.1.sp } := by
    unfold Wave.setReduced
    rw [hsp]
    split <;> rfl
  have hg : (w.readied.fred f (w.mode f.rnd.toNat)).1.setReduced f.ty f.d.toNat ((w.readied.fred f (w.mode f.rnd.toNat)).2.getD
      (if f.fn = 0 then 0 else (fpOf f.ty).signed (f.fn == 2) ((fpOf f.ty).inf.getD 0))) (BitVec.ofNat 32 w.activeLanes.length) =
        z.1.setReduced f.ty f.d.toNat (z.2.getD identity) (BitVec.ofNat 32 w.activeLanes.length) := by
    rw [hz, hid]
  generalize z.1.setReduced f.ty f.d.toNat (z.2.getD identity) (BitVec.ofNat 32 w.activeLanes.length) = y at *
  have hr' := hr.of_sp hsp
  refine ⟨_, z.2.getD identity, h.completes_vector (by rw [op_of_encV2 rfl]; decide) hx (hg.trans hfr), rfl, hr'.after (by rw [hfr]; rfl) _,
    fun hm => ?_, fun hl => ?_, fun i hl => ?_⟩
  · have heq := hfred hm
    rw [hz] at heq
    refine ⟨(congrArg (fun z : Wave × Option Nat => z.1.sp) heq).trans rfl, fun r hroot => ?_⟩
    rw [show z.2 = some r from (congrArg Prod.snd heq).trans hroot]
    rfl
  · rw [hsingle (by rw [hl]; exact Nat.zero_le 1), hl, ← hid]
    have hfn : f.fn.toNat ∈ [0, 1, 2] := List.contains_iff_mem.1 (h.must (c := mustIn 4 f.fn [0, 1, 2]) (by simp [Instr.must, mustV2]))
    simp only [List.mem_cons, List.not_mem_nil, or_false] at hfn
    rcases hfn with h0 | h1 | h2
    · rw [show f.fn = 0 from BitVec.eq_of_toNat_eq h0]; rfl
    · rw [show f.fn = 1 from BitVec.eq_of_toNat_eq h1]; rfl
    · rw [show f.fn = 2 from BitVec.eq_of_toNat_eq h2]; rfl
  · rw [hsingle (by rw [hl]; exact Nat.le_refl 1), hl]
    exact Nat.mod_eq_of_lt (srcA_lt w f i)

end

end Sys2Proof.Machine

open Sys2Proof Sys2Proof.Machine

/-- Settles O12: compares and conversions by lanes, VFRED by the levels of its tree. -/
theorem vectorConvert : Obligations.VectorConvert :=
  ⟨fun _ _ _ _ => vfcmp_completes, vfclass_vectorOf, fun _ _ _ _ => vcvt_completes, vpack_vectorOf, vunpk_vectorOf,
    fun _ _ _ _ => vfred_completes⟩

end

section
/-! SUPPORT. Canonical NaNs, and the rounding of a value that its format holds (R179 to R184). -/

set_option Elab.async false

namespace Sys2Proof.Machine

/-! ### NaN results (R179, R184) -/

theorem finishFp_nan (f : FpFmt) (mode u fl : Nat) (s : Bool) : finishFp f mode u fl (.nan s) = (f.nan, fl) := by
  simp [finishFp, roundVal]

theorem sumVal_nan {zneg : Bool} {x y : FpVal} (h : (x.isNan || y.isNan) = true) : sumVal zneg [x, y] = (.nan false, 0) := by
  have hany : ([x, y].any fun v => v.isNan) = true := by simpa using h
  rw [sumVal, if_pos hany]

theorem mulVal_nan {x y : FpVal} (h : (x.isNan || y.isNan) = true) : mulVal x y = (.nan false, 0) := by
  cases x with
  | nan => cases y <;> rfl
  | inf => cases y with
    | nan => rfl
    | inf | fin => cases h
  | fin => cases y with
    | nan => rfl
    | inf | fin => cases h

theorem sigFlag_pair (x y : FpVal) : sigFlag [x, y] = if x.isSig || y.isSig then flagNV else 0 := by simp [sigFlag]

@[simp] theorem isNan_negVal (x : FpVal) : (negVal x).isNan = x.isNan := by cases x <;> rfl
@[simp] theorem isSig_negVal (x : FpVal) : (negVal x).isSig = x.isSig := by cases x <;> rfl

/-- The four operations on a NaN. -/
theorem fp_nan (f : FpFmt) (mode u : Nat) {a b : Nat} (h : ((fpDecode f a).isNan || (fpDecode f b).isNan) = true) :
    ∀ r ∈ [fpAdd f mode u a b, fpSub f mode u a b, fpMul f mode u a b, fpDiv f mode u a b],
      r = (f.nan, if (fpDecode f a).isSig || (fpDecode f b).isSig then flagNV else 0) := by
  have hadd : fpAdd f mode u a b = (f.nan, sigFlag [fpDecode f a, fpDecode f b]) := by
    simp only [fpAdd, sumVal_nan h, finishFp_nan, Nat.zero_or]
  have hsub : fpSub f mode u a b = (f.nan, sigFlag [fpDecode f a, negVal (fpDecode f b)]) := by
    simp only [fpSub, sumVal_nan (y := negVal (fpDecode f b)) (by simpa using h), finishFp_nan, Nat.zero_or]
  have hmul : fpMul f mode u a b = (f.nan, sigFlag [fpDecode f a, fpDecode f b]) := by
    simp only [fpMul, mulVal_nan h, finishFp_nan, Nat.zero_or]
  have hdiv : fpDiv f mode u a b = (f.nan, sigFlag [fpDecode f a, fpDecode f b]) := by
    unfold fpDiv
    generalize fpDecode f a = x at h ⊢
    generalize fpDecode f b = y at h ⊢
    cases x with
    | nan => cases y <;> rfl
    | inf => cases y with
      | nan => rfl
      | inf | fin => cases h
    | fin => cases y with
      | nan => rfl
      | inf | fin => cases h
  intro r hr
  simp only [List.mem_cons, List.not_mem_nil, or_false] at hr
  rcases hr with rfl | rfl | rfl | rfl
  · rw [hadd, sigFlag_pair]
  · rw [hsub, sigFlag_pair, isSig_negVal]
  · rw [hmul, sigFlag_pair]
  · rw [hdiv, sigFlag_pair]

/-! ### Exact values (R182) -/

/-- A format with infinities, whose codes rise to that of infinity. -/
structure FpFmt.Standard (f : FpFmt) : Prop where
  inf : f.inf = some ((2 ^ f.eb - 1) * 2 ^ f.fb)
  max : fpDecode f f.maxCode = .fin false (2 ^ (f.fb + 1) - 1) ((2 ^ f.eb : Nat) - 2 - f.bias - f.fb) false
  exps : 2 ≤ f.eb

theorem standard_formats {f : FpFmt} (hf : f ∈ [fpF64, fpF32, fpF16, fpBf16]) : f.Standard := by
  simp only [List.mem_cons, List.not_mem_nil, or_false] at hf
  rcases hf with rfl | rfl | rfl | rfl <;> exact ⟨by decide +kernel, by decide +kernel, by decide +kernel⟩

/-- Nothing is added to a magnitude that is exact. -/
theorem roundAt_exact {mode u : Nat} (hm : mode ≤ 5) (hu : u < 2 ^ 32) (neg : Bool) (m : Nat) (e : Int) :
    roundAt mode u neg m e false e = (m, false) := by
  have hr : roundsUp mode u neg m 0 0 false = false := by
    have h : mode = 0 ∨ mode = 1 ∨ mode = 2 ∨ mode = 3 ∨ mode = 4 ∨ mode = 5 := by omega
    rcases h with rfl | rfl | rfl | rfl | rfl | rfl <;> simp [roundsUp]
    omega
  simp [roundAt, hr, b2n]

/-- A magnitude that needs no rounding at the exponent chosen for it. -/
theorem roundFin_exact {f : FpFmt} (hf : f.Standard) {mode u : Nat} (hm : mode ≤ 5) (hu : u < 2 ^ 32) (neg : Bool) {m : Nat} {e : Int}
    (hq : max ((Nat.log2 m : Int) + 1 + e - (f.fb + 1 : Nat)) (1 - f.bias - f.fb) = e) (hmax : m < 2 ^ (f.fb + 1))
    (he : e ≤ (2 ^ f.eb : Nat) - 2 - f.bias - f.fb) :
    roundFin f mode u false neg m e false = (fpEncode f neg m e, 0) := by
  have hgt : magGt m e (2 ^ (f.fb + 1) - 1) ((2 ^ f.eb : Nat) - 2 - f.bias - f.fb) = false := by
    rw [magGt, if_pos he, decide_eq_false_iff_not, Nat.not_lt]
    calc m ≤ 2 ^ (f.fb + 1) - 1 := by omega
      _ ≤ _ := Nat.le_mul_of_pos_right _ (Nat.two_pow_pos _)
  unfold roundFin
  simp only [hq, roundAt_exact hm hu, hf.max, hgt]
  simp


/-- A code is its sign, exponent and fraction. -/
theorem code_eq (f : FpFmt) {x : Nat} (hx : x < 2 ^ f.width) :
    x = f.signed (bit x (f.eb + f.fb)) (x / 2 ^ f.fb % 2 ^ f.eb * 2 ^ f.fb + x % 2 ^ f.fb) := by
  have hlow : x / 2 ^ f.fb % 2 ^ f.eb * 2 ^ f.fb + x % 2 ^ f.fb = x % 2 ^ (f.eb + f.fb) := by
    rw [show 2 ^ (f.eb + f.fb) = 2 ^ f.fb * 2 ^ f.eb by rw [Nat.add_comm, pow_add], Nat.mod_mul, Nat.mul_comm, Nat.add_comm]
  have hw : x < 2 ^ (f.eb + f.fb) * 2 := by
    rw [← pow_succ]
    exact lt_of_lt_of_le hx (Nat.pow_le_pow_right (by decide) (by unfold FpFmt.width; omega))
  have hq : x / 2 ^ (f.eb + f.fb) < 2 := Nat.div_lt_of_lt_mul hw
  have hdm := Nat.div_add_mod x (2 ^ (f.eb + f.fb))
  rw [hlow, FpFmt.signed, bit]
  have hcase : x / 2 ^ (f.eb + f.fb) = 0 ∨ x / 2 ^ (f.eb + f.fb) = 1 :=
    Nat.le_one_iff_eq_zero_or_eq_one.1 (Nat.lt_succ_iff.1 hq)
  rcases hcase with h | h
  · rw [h] at hdm ⊢
    simp at hdm ⊢
    exact hdm.symm
  · rw [h] at hdm ⊢
    simp at hdm ⊢
    omega

/-- Rounding a value that the format holds gives its code (R182). -/
theorem roundVal_exact {f : FpFmt} (hf : f.Standard) {mode u x : Nat} (hm : mode ≤ 5) (hu : u < 2 ^ 32) (hx : x < 2 ^ f.width)
    (hn : (fpDecode f x).isNan = false) : roundVal f mode u false (fpDecode f x) = (x, 0) := by
  have hcode := code_eq f hx
  have hfr : x % 2 ^ f.fb < 2 ^ f.fb := Nat.mod_lt _ (Nat.two_pow_pos _)
  have hex : x / 2 ^ f.fb % 2 ^ f.eb < 2 ^ f.eb := Nat.mod_lt _ (Nat.two_pow_pos _)
  have h4 : 4 ≤ 2 ^ f.eb := Nat.pow_le_pow_right (show 0 < 2 by decide) hf.exps
  have hpow : 2 ^ (f.fb + 1) = 2 * 2 ^ f.fb := by rw [pow_succ, Nat.mul_comm]
  revert hn
  unfold fpDecode
  dsimp only
  generalize x % 2 ^ f.fb = fr at *
  generalize x / 2 ^ f.fb % 2 ^ f.eb = ex at *
  generalize bit x (f.eb + f.fb) = neg at *
  simp only [hf.inf, Option.isSome_some, Option.isNone_some, and_true, Bool.false_eq_true, false_and, if_false]
  by_cases hi : ex = 2 ^ f.eb - 1
  · simp only [if_pos hi]
    by_cases h0 : fr = 0
    · rw [if_pos h0]
      intro _
      simp only [roundVal, hf.inf]
      rw [hcode, h0, hi, Nat.add_zero]
    · rw [if_neg h0]
      intro hn
      cases hn
  · simp only [if_neg hi]
    intro _
    by_cases hz : ex = 0
    · simp only [if_pos hz, roundVal, and_true]
      by_cases h0 : fr = 0
      · rw [if_pos h0]
        conv_rhs => rw [hcode, hz, h0]
        simp
      · rw [if_neg h0, roundFin_exact hf hm hu neg ?_ (by omega) ?_, fpEncode]
        · simp only [if_neg (show ¬ 2 ^ (f.fb + 1) ≤ fr by omega), if_pos hfr]
          conv_rhs => rw [hcode, hz, Nat.zero_mul, Nat.zero_add]
        · have hlog : Nat.log2 fr < f.fb := (Nat.log2_lt h0).2 hfr
          omega
        · omega
    · simp only [if_neg hz, roundVal, and_true]
      rw [if_neg (by have := Nat.two_pow_pos f.fb; omega), roundFin_exact hf hm hu neg ?_ (by omega) ?_, fpEncode]
      · simp only [if_neg (show ¬ 2 ^ (f.fb + 1) ≤ 2 ^ f.fb + fr by omega), if_neg (show ¬ 2 ^ f.fb + fr < 2 ^ f.fb by omega)]
        conv_rhs => rw [hcode]
        rw [show ((ex : Int) - f.bias - f.fb + f.fb + f.bias).toNat = ex by omega, Nat.add_sub_cancel_left]
      · have hlog : Nat.log2 (2 ^ f.fb + fr) = f.fb := (Nat.log2_eq_iff (by omega)).2 ⟨by omega, by omega⟩
        omega
      · omega

end Sys2Proof.Machine

open Sys2Proof Sys2Proof.Machine

/-- Settles O13: NaN operands, and values that need no rounding. -/
theorem floatValues : Obligations.FloatValues :=
  ⟨fun f mode u _ _ _ h => fp_nan f mode u h, fun _ _ _ _ hf hm hu hx hn => roundVal_exact (standard_formats hf) hm hu hx hn⟩

end

section
/-! SUPPORT. Concrete packages with one wave of one lane, which reaches one page: what the statements on loads and on future words do not
exclude. -/

set_option Elab.async false

namespace Sys2Proof.Machine

/-- The translation of the page at address 0 to `base`. -/
def zeroPageTr (base : Nat) (fut : Bool) : Tr :=
  { asid := 0, page := 0, large := false, base := base, leafPa := 0, r := true, w := true, x := false, fut := fut, cow := false, io := false,
    dirty := true, adu := false }

/-- A wave of one lane in a clause of one instruction, which has just had the page at address 0 translated. -/
def pageWave (base : Nat) (fut : Bool) : Wave :=
  let w := Wave.placed 0 0 0 0 1 128 0 0 0
  { w with
    regs := { w.regs with s := [(96, 1)], live := [(0, 1)] }, clause := { inside := true, header := 0, word := 0, left := 1 },
    xl := [zeroPageTr base fut] }

theorem pageWave_activeLanes (base : Nat) (fut : Bool) : (pageWave base fut).activeLanes = [0] := by
  have h : ∀ w : Wave, w.k = 1 → w.regs.s = [(96, 1)] → w.regs.live = [(0, 1)] → w.activeLanes = [0] := by
    intro w hk hs hl
    have hact : ∀ i, i < 32 → w.active i = decide (i = 0) := by
      intro i hi
      have h0 : i / 32 = 0 := by omega
      simp only [Wave.active, Wave.execBit, Wave.liveBit, Wave.execWord, Wave.liveWord, hs, hl, h0]
      revert hi i
      decide
    rw [Wave.activeLanes, Wave.width, hk, List.filter_congr fun i hi => hact i (List.mem_range.1 hi)]
    decide
  exact h _ rfl rfl rfl

/-- An access of `size` at address 0. -/
def zeroM (size : BitVec 4) : MF := { data := 0, base := 130, off := 0, size := size, space := 0, hasOff := 0, la := 0, fn := 0, disp := 0 }

/-- The first byte of host memory, and of die 0's own memory. -/
def hostPa : Nat := 0x8000000000000
def hbmPa : Nat := 0x20000000000

/-- What a step leaves of wave 1. -/
def seenWave {α : Type} (f : Wave → α) (o : Host.Outcome State Fault Refusal) : Option α :=
  match o with
  | .next t => (t.wave 1).map f
  | _ => none

theorem seenWave_of_completes {α : Type} {s : State} {w w' : Wave} {i : Instr} (f : Wave → α) (h : Completes s 1 w i w') :
    seenWave f (exec i s) = some (f w') := by
  obtain ⟨t, hx, hw, -⟩ := h
  simp [seenWave, hx, hw]

/-- A snapshot is armed whose timeline is the word that the wave loads, and has reached its cut value (R95). -/
def heldState : State :=
  let s := loneState (pageWave hostPa false)
  { s with snap := { s.snap with state := 1, tl := BitVec.ofNat 64 hostPa, val := 0 } }

/-- The wave's future page in the memory of die 0 is its world's, the word at its start is EMPTY, and L2FUTDBL of die 3 holds 2^32. -/
def futureState : State :=
  (({ loneState (pageWave hbmPa true) with fempty := [hbmPa / 8] } : State).setByte (ownerPa hbmPa + 1) 0).updL2 3 fun r =>
    { r with futdbl := 2 ^ 32 }

end Sys2Proof.Machine

open Sys2Proof Sys2Proof.Machine

/-- Refutes O14: a load at the link of the word at which a snapshot holds its timeline waits (R74, R95). -/
theorem not_loadsPend : ¬ Obligations.LoadsPend := by
  rintro ⟨-, h⟩
  have hreach : ∀ i ∈ (pageWave hostPa false).activeLanes,
      Reaches heldState (pageWave hostPa false) (laneAddr (pageWave hostPa false) (zeroM 2) i) 0 false 4 hostPa ∧
        heldState.poisoned hostPa 4 = false := by
    rw [pageWave_activeLanes]
    intro i hi
    obtain rfl := List.mem_singleton.1 hi
    exact ⟨⟨by decide +kernel, by decide +kernel, zeroPageTr hostPa false, by decide +kernel⟩, by decide +kernel⟩
  have hl := (h heldState 1 (pageWave hostPa false) (zeroM 2) (fun _ => hostPa) rfl rfl rfl).1 (by decide +kernel) hreach
  rw [if_neg (by rw [pageWave_activeLanes]; exact List.cons_ne_nil _ _)] at hl
  obtain ⟨l, hdone, -⟩ := hl
  have hpc := seenWave_of_completes (fun w => w.pc) hdone
  exact absurd hpc (by
    show ¬ _ = some ((8 : DWord))
    decide +kernel)

/-- What a step leaves of L2FUTDBL of a die. -/
def seenFutdbl (d : Nat) (o : Host.Outcome State Fault Refusal) : Nat :=
  match o with
  | .next t => (t.die d).l2.futdbl
  | _ => 0

/-- Refutes O18: a die that no lane stores to keeps an L2FUTDBL of more than 32 bits. (The register has 32; the statement does not
say so.) -/
theorem not_futures : ¬ Obligations.Futures := by
  intro h
  have hreach : ∀ i ∈ (pageWave hbmPa true).activeLanes,
      Reaches futureState (pageWave hbmPa true) (laneAddr (pageWave hbmPa true) (zeroM 3) i) 5 false 8 hbmPa := by
    rw [pageWave_activeLanes]
    intro i hi
    obtain rfl := List.mem_singleton.1 hi
    exact ⟨by decide +kernel, by decide +kernel, zeroPageTr hbmPa true, by decide +kernel⟩
  obtain ⟨t, w', hx, -, -, -, -, -, hd⟩ := (h futureState 1 (pageWave hbmPa true) (zeroM 3) (fun _ => hbmPa) rfl rfl (by decide +kernel)
    (by decide +kernel) (by decide +kernel)).2.1 (by decide +kernel) (by decide +kernel) (by decide +kernel) (by decide +kernel) hreach
    (by rw [pageWave_activeLanes]; simp)
  rcases hd 3 with h3 | hnil
  · have hseen : seenFutdbl 3 (exec (.fstore (zeroM 3)) futureState) = (t.die 3).l2.futdbl := by rw [hx]; rfl
    rw [h3, pageWave_activeLanes] at hseen
    exact absurd hseen (by decide +kernel)
  · rw [pageWave_activeLanes] at hnil
    cases hnil

end

section
/-! SUPPORT. A wave whose store is entering the store buffer, and one that comes back to its clause header: what the statements on
failing checks and on clause headers do not exclude. -/

set_option Elab.async false

namespace Sys2Proof.Machine

/-- The wave of `pageWave` with a sector of its last store still entering the store buffer (R51). -/
def enteringWave : Wave :=
  { pageWave hostPa false with
    entering := [{ id := 1, wave := 1, sector := 0, bytes := [], merged := 0, afterSeq := 0, asid := 0, page := 0, world := 0, cow := false }] }

/-- A wave before a clause header at 128 that goes over its instructions again from a restart point further back (R388). -/
def againWave : Wave := { Wave.placed 0 0 0 0 1 128 0 0 0 with again := true, restart := 64 }

def restartHeader : HF := { rgn := 1, cls := 0, count := 0, z := 0, k := 0 }
def zeroE : EF := { d := 0, a := 0, b := 0, c := 0, e := 0, ctl := 0 }

end Sys2Proof.Machine

open Sys2Proof Sys2Proof.Machine

/-- Refutes O25: while sectors of a store still enter the store buffer, the wave's next instruction goes on with them before any check
(R51). -/
theorem not_checksTrap : ¬ Obligations.ChecksTrap := by
  rintro ⟨h, -⟩
  have hx := h (loneState enteringWave) 1 enteringWave (.eret zeroE) trapIllegalClause ((encode (.eret zeroE)).getD 0) 0 rfl rfl
    (by decide +kernel) (by decide +kernel) (by rintro h ⟨⟩) (by decide +kernel)
  have hseen := congrArg (seenWave fun w => decide (w.wait = .halted)) hx
  exact absurd hseen (by decide +kernel)

/-- Refutes O27: a wave that goes over its region again (R388) keeps its restart point at a header with RGN. -/
theorem not_clauseHeaders : ¬ Obligations.ClauseHeaders := by
  intro h
  obtain ⟨t, w', hx, -, -, hw, -, -, -, -, -, hr⟩ := (h (loneState againWave) 1 againWave restartHeader rfl rfl (by decide +kernel)).1
    (by decide) rfl (by decide)
  have hseen : seenWave (fun w => w.restart) (exec (.clauseHeader restartHeader) (loneState againWave)) = some w'.restart := by
    rw [hx]
    simp [seenWave, hw]
  rw [if_pos (show restartHeader.rgn = 1 from rfl)] at hr
  rw [(Prod.mk.inj hr).1] at hseen
  exact absurd hseen (by decide +kernel)

end

section
/-! SUPPORT. Packages that no run reaches but the statements allow: two regions of one key, an invalidation of every die on a die
that the package does not have, and a cohort table with one number twice. -/

set_option Elab.async false

namespace Sys2Proof.Machine

def twinKey : RegionKey := { world := 0, asid := 0, tab := 0, id := 0 }

/-- An ARMED region without inputs and outputs, with a full batch and one word of weights. -/
def twinRegion : Region :=
  { key := twinKey, nin := 0, nout := 0, h1 := 0, h2 := 0, s := 0, flags := 0, thresh := 0x3F800000, lrate := 0, seed := 0, depVa := [],
    codeVa := [], watch := [], st := 3, n := 0, e := 0, eset := true, c := 0, f := 0, gen := 0, hi := [], lo := [], weights := [1],
    ring := [], seen := 0, batch := List.replicate 32 ([], []), slot := false, queued := 0, replay := 0, entered := 0, stale := false }

def twinSample : Sample := { key := twinKey, gen := 0, core := 0, wave := 0, x := [], y := [] }

/-- Die 0 tracks the ARMED region and, under the same key, one that waits for a training slot. -/
def twinState : State :=
  State.reset.updDie 0 fun d => { d with fit := { d.fit with samples := [twinSample], regions := [twinRegion, { twinRegion with st := 2 }] } }

/-- The weights of the region of `twinKey` on die 0 after a step. -/
def seenWeights (o : Host.Outcome State Fault Refusal) : Option (List Word) :=
  match o with
  | .next t => (t.region 0 twinKey).map (·.weights)
  | _ => none

def strayInval : Inval := { id := 1, asid := 0, all := true, pkg := true, range := false, page := 0, count := 0 }

/-- Die 7, which no package has, is at an invalidation that acts on every die. -/
def strayState : State := State.reset.updTs 7 fun ts => { ts with invals := [strayInval] }

/-- The invalidations of die 7 after a step. -/
def seenInvals (o : Host.Outcome State Fault Refusal) : List Inval :=
  match o with
  | .next t => (t.die 7).ts.invals
  | _ => []

/-- Task 1, of three cohorts, is being saved. -/
def savingTask : Task :=
  { Task.arrived 1 0 0 0 (2 * 2 ^ 128) 0 0 1 0 0 0 with stage := .running, saving := true }

/-- Cohort 5 of task 1 is over; behind cohort 7 of task 2 the number stands a second time. -/
def doubledState : State :=
  { State.reset with
    cohorts := [(5, Cohort.blank 1 0 0 0 0), (7, Cohort.blank 2 0 0 0 0), (5, Cohort.blank 1 0 0 0 0)]
    sched := { State.reset.sched with tasks := [savingTask] } }

/-- Is task 1 being saved after a step? -/
def seenSaving (o : Host.Outcome State Fault Refusal) : Option Bool :=
  match o with
  | .next t => (t.task 1).map (·.saving)
  | _ => none

end Sys2Proof.Machine

open Sys2Proof Sys2Proof.Machine
/-- Refutes O44: of two regions of one key the engine gives a training slot to the first, though the second asks for it, and trains the
first on its batch. -/
theorem not_fittingEngine : ¬ Obligations.FittingEngine := by
  rintro ⟨-, h, -⟩
  obtain ⟨t, hx, -, -, r', hr, -, -, -, hw⟩ := (h twinState 0 twinSample [] twinRegion (by decide +kernel) (by decide +kernel)).2.2.2 rfl rfl rfl
    (by decide +kernel)
  have hseen : seenWeights (exec (.fittingSample 0) twinState) = some r'.weights := by
    rw [hx]
    exact congrArg (Option.map (·.weights)) hr
  rw [hw] at hseen
  exact absurd hseen (by decide +kernel)

/-- Refutes O48: an invalidation of every die that stands on a die above 3 acts on no die, and its completion leaves it there. -/
theorem not_invalidations : ¬ Obligations.Invalidations := by
  rintro ⟨-, h, -⟩
  obtain ⟨t, hx, -, ht, -⟩ := (h strayState 7 strayInval (by decide +kernel)).2 (by decide +kernel) (by decide +kernel) fun d hd => by
    have h7 : strayState.die d = State.reset.die d := (State.die_updDie _ _ _ _).trans (if_neg hd)
    rw [h7]
    rfl
  have hseen : seenInvals (exec (.invalidationComplete 7) strayState) = [] := by
    rw [hx]
    exact ht
  exact absurd hseen (by decide +kernel)

/-- Refutes O53: a cohort whose number stands a second time, out of order, is still found by its task when it has left. -/
theorem not_placement : ¬ Obligations.Placement := by
  rintro ⟨-, -, h, -⟩
  obtain ⟨t, hx, -, -, y, hy, hs, -⟩ := ((h doubledState 5 (Cohort.blank 1 0 0 0 0) savingTask (by decide +kernel) (by decide +kernel)).2.2.2
    (by decide) (by decide +kernel)).2.1 (by decide) (by decide +kernel) rfl (by decide +kernel)
  have hseen : seenSaving (exec (.cohortRetire 5) doubledState) = some y.saving := by
    rw [hx]
    exact congrArg (Option.map (·.saving)) hy
  rw [hs] at hseen
  exact absurd hseen (by decide +kernel)

end

section
/-! SUPPORT. Accesses to the memory-mapped registers: the address of a register names its die and its place there, and a write that the
firewall admits goes to that place (R5, R72, R409). -/

set_option Elab.async false

namespace Sys2Proof.Machine

/-! ### Addresses -/

/-- The address of the register at offset `o` of die `d`. -/
def regPa (d o : Nat) : Nat := 0x30000000000 + d * 0x1000000 + o

theorem mmioDie_regPa {d o : Nat} (hd : d < 4) (ho : o < 0x1000000) : mmioDie (regPa d o) = some d := by
  have hmem : d ∈ [0, 1, 2, 3] := by simp only [List.mem_cons, List.not_mem_nil, or_false]; omega
  simp only [List.mem_cons, List.not_mem_nil, or_false] at hmem
  unfold mmioDie regPa
  rcases hmem with rfl | rfl | rfl | rfl
  all_goals
    simp only [List.range, List.range.loop, List.find?_cons, List.find?_nil]
    repeat' (split <;> simp_all)
    all_goals omega

theorem mmioOffset_regPa {d o : Nat} (ho : o < 0x1000000) : mmioOffset (regPa d o) = o := by
  unfold mmioOffset regPa; omega

theorem isMmio_regPa {d o : Nat} (hd : d < 4) (ho : o < 0x1000000) : isMmio (regPa d o) = true := by
  simp only [isMmio, mmioDie_regPa hd ho, Option.isSome_some]

/-- The mailbox's registers stand on die 0. -/
theorem isDoe_regPa {d o : Nat} : isDoe (regPa d o) = decide (0x130000 ≤ d * 0x1000000 + o ∧ d * 0x1000000 + o < 0x130028) := by
  unfold isDoe regPa
  exact decide_eq_decide.2 (by omega)

/-- Who may write a register: the trust core all of them, the host and waves of world 0 those that are not the mailbox's. -/
def mayWriteReg (g : RegAgent) (doe : Bool) : Prop :=
  match g with
  | .trust => True
  | .host => doe = false
  | .wave n => n = 0 ∧ doe = false

theorem admits_mmio (s : State) (g : RegAgent) {pa : Nat} (h : isMmio pa = true) :
    s.admits (agentWho g) pa = true ↔ mayWriteReg g (isDoe pa) := by
  cases g <;> simp [agentWho, State.admits, h, mayWriteReg]

/-! ### Writes -/

/-- The register at offset `o` of die `d` takes a write that the firewall admits. -/
def State.takesWrite (s : State) (g : RegAgent) (d o : Nat) (v : DWord) : Host.Outcome State Fault Refusal :=
  if mainBlock o then (if d = 0 then s.writeMainReg g o v else .next s) else s.writeDieReg d o v

theorem exec_registerWrite (s : State) (g : RegAgent) (pa : Nat) (v : DWord) :
    exec (.registerWrite g pa v) s = execRegisterWrite g pa v s := rfl

theorem exec_registerWrite_admitted (s : State) (g : RegAgent) {d o : Nat} (v : DWord) (hd : d < 4) (ho : o < 0x1000000) (h8 : o % 8 = 0)
    (hcmd : o ≠ 0x40030) (hg : mayWriteReg g (isDoe (regPa d o))) :
    exec (.registerWrite g (regPa d o) v) s = s.takesWrite g d o v := by
  have hadm := (admits_mmio s g (isMmio_regPa hd ho)).2 hg
  have hstall : s.writeStalls (regPa d o) v = false := by
    rw [State.writeStalls, mmioDie_regPa hd ho, mmioOffset_regPa ho]
    exact (congrArg (· && _) (beq_eq_false_iff_ne.2 hcmd)).trans (Bool.false_and _)
  have hreg : s.writeReg g (regPa d o) v = s.takesWrite g d o v := by
    rw [State.writeReg, mmioDie_regPa hd ho, mmioOffset_regPa ho]
    exact if_neg (not_not_intro h8)
  rw [exec_registerWrite, execRegisterWrite, hadm, hstall, hreg]
  rfl

theorem exec_registerWrite_refused (s : State) (g : RegAgent) {d o : Nat} (v : DWord) (hd : d < 4) (ho : o < 0x1000000)
    (hg : ¬mayWriteReg g (isDoe (regPa d o))) :
    exec (.registerWrite g (regPa d o) v) s = .next (if g = .host then s.denied else s) := by
  have hadm := mt (admits_mmio s g (isMmio_regPa hd ho)).1 hg
  rw [exec_registerWrite, execRegisterWrite, Bool.eq_false_iff.2 hadm]
  rfl

/-- Outside the mailbox the host, the trust core and waves of world 0 may write. -/
theorem mayWrite_of_not_doe {g : RegAgent} {doe : Bool} (hdoe : doe = false)
    (hfree : match g with
      | .wave n => n = 0
      | _ => True) : mayWriteReg g doe := by
  subst hdoe
  cases g with
  | host => rfl
  | trust => trivial
  | wave n => exact ⟨hfree, rfl⟩

/-- Beyond its first register the L2 ignores writes. -/
theorem takesWrite_l2_rest (s : State) (g : RegAgent) (d : Nat) (v : DWord) {off : Nat} (hoff : off < 0x60) :
    s.takesWrite g d (0x50008 + 8 * off) v = .next s := by
  have hblock : (0x50008 + 8 * off) / 0x10000 = 5 := by omega
  have hplace : (0x50008 + 8 * off) % 0x10000 ≠ 0 := by omega
  simp [State.takesWrite, mainBlock, hblock, State.writeDieReg, hplace]

/-- The ring register of task queue `q`. -/
theorem takesWrite_queue_ring (s : State) (g : RegAgent) (v : DWord) {q : Nat} (hq : q < 256) :
    s.takesWrite g 0 (0xA0008 + 64 * q) v = .next (s.updQueue q fun x => { x with ring := baseReg v 56 7 }) := by
  have hblock : (0xA0008 + 64 * q) / 0x10000 = 10 := by omega
  have hqueue : (0xA0008 + 64 * q) % 0x10000 / 0x40 = q := by omega
  have hplace : (0xA0008 + 64 * q) % 0x10000 % 0x40 = 8 := by omega
  simp [State.takesWrite, mainBlock, hblock, State.writeMainReg, hqueue, hplace, hq, State.writeQueueReg]

/-! ### Values -/

theorem sizedBase_low_bit (v : DWord) :
    sizedBase v 0 51 16 = BitVec.ofNat 64 (v.toNat / 2 ^ 16 % 2 ^ 36 * 2 ^ 16) ||| (v &&& 1) := by
  apply BitVec.eq_of_toNat_eq
  have hlow : v.toNat % 2 < 2 ^ 16 := by omega
  have hor := Nat.two_pow_add_eq_or_of_lt hlow (v.toNat / 2 ^ 16 % 2 ^ 36)
  have hand : (v &&& 1).toNat = v.toNat % 2 := by
    rw [BitVec.toNat_and]; exact Nat.and_one_is_mod _
  rw [BitVec.toNat_or, hand]
  simp only [sizedBase, keep, fld, BitVec.toNat_ofNat]
  rw [Nat.mod_eq_of_lt (by omega), Nat.mod_eq_of_lt (a := v.toNat / 2 ^ 16 % 2 ^ 36 * 2 ^ 16) (by omega), Nat.mul_comm (_ % 2 ^ 36), ← hor]
  omega

theorem sizedBase_low4 (v : DWord) :
    sizedBase v 3 51 12 = BitVec.ofNat 64 (v.toNat % 16 + v.toNat / 2 ^ 12 % 2 ^ 40 * 2 ^ 12) := by
  simp only [sizedBase, keep, fld, Nat.pow_zero, Nat.div_one, Nat.mul_one]; rfl

theorem bit_eq_getLsbD (v : DWord) (n : Nat) : bit v.toNat n = v.getLsbD n := by
  rw [bit, BitVec.getLsbD, Nat.testBit_eq_decide_div_mod_eq]; rfl

end Sys2Proof.Machine

open Sys2Proof Sys2Proof.Machine

/-- Settles O60: each read and write is that of the register that its address names. -/
theorem registers : Obligations.Registers := by
  refine ⟨fun s d => ?_, fun s g d off v hd => ?_⟩
  · refine ⟨rfl, rfl, rfl, rfl, rfl, rfl, rfl, rfl, rfl, rfl, rfl, rfl, rfl, rfl, rfl, rfl, rfl, rfl, rfl, rfl, ?_⟩
    exact ⟨_, rfl, Config.entropy s.free, rfl⟩
  · intro at_ free writes base sized die
    have hat : ∀ o, at_ o = regPa d o := fun o => rfl
    have admitted : ∀ o t, o < 0x1000000 → o % 8 = 0 → o ≠ 0x40030 → (o < 0x130000 ∨ 0x130028 ≤ o) →
        s.takesWrite g d o v = .next t → writes o t := by
      intro o t ho h8 hcmd hdoe ht hfree
      rw [hat, exec_registerWrite_admitted s g v hd ho h8 hcmd (mayWrite_of_not_doe ?_ hfree), ht]
      rw [isDoe_regPa]; exact decide_eq_false (by omega)
    have hsized := sizedBase_low4 v
    refine ⟨?_, ?_, ?_, ?_, ?_, ?_, ?_, ?_, ?_, ?_, ?_, ?_, ?_, ?_⟩
    · refine admitted _ _ (by decide) (by decide) (by decide) (by decide) ?_
      show Host.Outcome.next (s.updTs d fun t => { t with asbase := sizedBase v 0 51 16 }) = _
      rw [sizedBase_low_bit]; rfl
    · refine admitted _ _ (by decide) (by decide) (by decide) (by decide) ?_
      show s.writeServiceReg d 8 v = _
      simp only [State.writeServiceReg, hsized]; rfl
    · exact admitted _ _ (by decide) (by decide) (by decide) (by decide) rfl
    · exact admitted _ _ (by decide) (by decide) (by decide) (by decide) rfl
    · exact admitted _ _ (by decide) (by decide) (by decide) (by decide) rfl
    · exact admitted _ _ (by decide) (by decide) (by decide) (by decide) rfl
    · refine admitted _ _ (by decide) (by decide) (by decide) (by decide) ?_
      show s.writeSvcReg d 0 v = _
      simp only [State.writeSvcReg, RecordQueue.setBase, hsized]; rfl
    · exact admitted _ _ (by decide) (by decide) (by decide) (by decide) rfl
    · exact admitted _ _ (by decide) (by decide) (by decide) (by decide) rfl
    · exact admitted _ _ (by decide) (by decide) (by decide) (by decide) rfl
    · intro hoff
      exact admitted _ _ (by omega) (by omega) (by omega) (by omega) (takesWrite_l2_rest s g d v hoff)
    · intro o ho hd0
      have hmain : mainBlock o = true ∧ o < 0x130000 ∧ o % 8 = 0 ∧ o ≠ 0x40030 := by
        revert o; decide
      obtain ⟨hmain, hlt, h8, hcmd⟩ := hmain
      refine admitted _ _ (by omega) h8 hcmd (Or.inl hlt) ?_
      rw [State.takesWrite, hmain, if_pos rfl, if_neg hd0]
    · rintro rfl
      refine ⟨admitted _ _ (by decide) (by decide) (by decide) (by decide) rfl, ?_, admitted _ _ (by decide) (by decide) (by decide) (by decide) rfl, ?_, admitted _ _ (by decide) (by decide) (by decide) (by decide) ?_, ?_, ?_, ?_, ?_, ?_⟩
      · refine admitted _ _ (by decide) (by decide) (by decide) (by decide) ?_
        show Host.Outcome.next (s.writeSchedReg 0 v) = _
        simp only [State.writeSchedReg, bit_eq_getLsbD]; rfl
      · intro q hq
        exact admitted _ _ (by omega) (by omega) (by omega) (by omega) (takesWrite_queue_ring s g v hq)
      · show Host.Outcome.next (s.updTrust fun t => { t with retry := t.retry || (t.stage == 15 && bit v.toNat 0) }) = _
        rw [bit_eq_getLsbD]; rfl
      · intro hg
        refine ⟨admitted _ _ (by decide) (by decide) (by decide) (by decide) ?_, admitted _ _ (by decide) (by decide) (by decide) (by decide) ?_, admitted _ _ (by decide) (by decide) (by decide) (by decide) ?_⟩
        · exact if_pos hg
        · exact congrArg Host.Outcome.next (if_neg hg)
        · exact if_neg hg
      · rintro rfl
        exact admitted _ _ (by decide) (by decide) (by decide) (by decide) rfl
      · rintro rfl
        intro _
        exact exec_registerWrite_admitted s .trust v hd (by decide) (by decide) (by decide) trivial
      · rintro rfl
        exact exec_registerWrite_refused s .host v (d := 0) (o := 0x130010) hd (by decide) (fun h => Bool.noConfusion (h : true = false))
      · rintro n rfl
        exact exec_registerWrite_refused s (.wave n) v (d := 0) (o := 0x130010) hd (by decide) (fun h => absurd h.2 (by decide))
    · rintro n o rfl hn ho
      exact exec_registerWrite_refused s (.wave n) v hd ho fun h => hn h.1
end

section
/-! SUPPORT. A write at its home slice: what it changes in any package, and what it comes to where nothing waits on memory, no line is
locked and no snapshot holds a page (R72, R87, R88, R97, R147, R321, R367). -/

set_option Elab.async false

namespace Sys2Proof.Machine

/-! ### In any package -/

theorem State.byte_of_mem {s t : State} (h : t.mem = s.mem) (a : Nat) : t.byte a = s.byte a := by
  simp only [State.byte, h]

theorem State.sameMem_of_mem {s t : State} (h : t.mem = s.mem) : s.sameMem t := State.byte_of_mem h

theorem State.invalidateRegions_only (s : State) (p : Region → Bool) :
    s.invalidateRegions p = { s with dies := (s.invalidateRegions p).dies, cores := (s.invalidateRegions p).cores } := by
  unfold State.invalidateRegions State.invalidateRegionsOn
  dsimp only
  split <;> rfl

theorem State.dropCode_only (s : State) (pa n : Nat) : s.dropCode pa n = { s with cores := (s.dropCode pa n).cores } := by
  unfold State.dropCode
  split <;> rfl

theorem State.touched_only (s : State) (pa n : Nat) (writer : Option Nat) :
    s.touched pa n writer = { s with
      dies := (s.touched pa n writer).dies, cores := (s.touched pa n writer).cores, waves := (s.touched pa n writer).waves } := by
  unfold State.touched
  rw [State.invalidateRegions_only]
  unfold State.breakWatches
  rw [State.dropCode_only]

theorem State.touched_waves (s : State) (pa n : Nat) (writer : Option Nat) :
    (s.touched pa n writer).waves = (s.breakWatches pa n writer).waves := by
  unfold State.touched
  rw [State.invalidateRegions_only]
  unfold State.breakWatches
  rw [State.dropCode_only]

theorem State.setBytes_only (s : State) (pa : Nat) (bs : List Byte) : s.setBytes pa bs = { s with mem := (s.setBytes pa bs).mem } := by
  induction bs generalizing s pa with
  | nil => rfl
  | cons b bs ih => exact (ih (s.setByte pa b) (pa + 1)).trans rfl

theorem State.poke_mem (s : State) (pa : Nat) (bs : List Byte) (writer : Option Nat) :
    (s.poke pa bs writer).mem = (s.setBytes pa bs).mem := by
  unfold State.poke
  dsimp only
  split
  · rename_i hn
    rw [List.length_eq_zero_iff.1 hn]; rfl
  · rw [State.touched_mem]

/-- A write at its home slice changes its bytes and no other. -/
theorem State.byte_poke (s : State) (pa : Nat) (bs : List Byte) (writer : Option Nat) (a : Nat) :
    (s.poke pa bs writer).byte a = if pa ≤ a ∧ a < pa + bs.length then nth 0 bs (a - pa) else s.byte a :=
  (State.byte_of_mem (s.poke_mem pa bs writer) a).trans (s.byte_setBytes pa bs a)

theorem State.poke_only (s : State) (pa : Nat) (bs : List Byte) (writer : Option Nat) :
    s.poke pa bs writer = { s with
      mem := (s.poke pa bs writer).mem, poison := (s.poke pa bs writer).poison, waves := (s.poke pa bs writer).waves
      dies := (s.poke pa bs writer).dies, cores := (s.poke pa bs writer).cores } := by
  unfold State.poke
  dsimp only
  split
  · rfl
  · rw [State.touched_only, State.setBytes_only]

@[simp] theorem State.poke_trust (s : State) (pa : Nat) (bs : List Byte) (writer : Option Nat) : (s.poke pa bs writer).trust = s.trust := by
  rw [State.poke_only]
@[simp] theorem State.poke_doe (s : State) (pa : Nat) (bs : List Byte) (writer : Option Nat) : (s.poke pa bs writer).doe = s.doe := by
  rw [State.poke_only]
@[simp] theorem State.poke_snap (s : State) (pa : Nat) (bs : List Byte) (writer : Option Nat) : (s.poke pa bs writer).snap = s.snap := by
  rw [State.poke_only]
@[simp] theorem State.poke_sched (s : State) (pa : Nat) (bs : List Byte) (writer : Option Nat) : (s.poke pa bs writer).sched = s.sched := by
  rw [State.poke_only]
@[simp] theorem State.poke_fabric (s : State) (pa : Nat) (bs : List Byte) (writer : Option Nat) : (s.poke pa bs writer).fabric = s.fabric := by
  rw [State.poke_only]
@[simp] theorem State.poke_power (s : State) (pa : Nat) (bs : List Byte) (writer : Option Nat) : (s.poke pa bs writer).power = s.power := by
  rw [State.poke_only]
@[simp] theorem State.poke_cohorts (s : State) (pa : Nat) (bs : List Byte) (writer : Option Nat) : (s.poke pa bs writer).cohorts = s.cohorts := by
  rw [State.poke_only]
@[simp] theorem State.poke_fempty (s : State) (pa : Nat) (bs : List Byte) (writer : Option Nat) : (s.poke pa bs writer).fempty = s.fempty := by
  rw [State.poke_only]
@[simp] theorem State.poke_clock (s : State) (pa : Nat) (bs : List Byte) (writer : Option Nat) : (s.poke pa bs writer).clock = s.clock := by
  rw [State.poke_only]
@[simp] theorem State.poke_ids (s : State) (pa : Nat) (bs : List Byte) (writer : Option Nat) : (s.poke pa bs writer).ids = s.ids := by
  rw [State.poke_only]
@[simp] theorem State.poke_free (s : State) (pa : Nat) (bs : List Byte) (writer : Option Nat) : (s.poke pa bs writer).free = s.free := by
  rw [State.poke_only]
@[simp] theorem State.poke_blocked (s : State) (pa : Nat) (bs : List Byte) (writer : Option Nat) : (s.poke pa bs writer).blocked = s.blocked := by
  rw [State.poke_only]
@[simp] theorem State.poke_hostData (s : State) (pa : Nat) (bs : List Byte) (writer : Option Nat) : (s.poke pa bs writer).hostData = s.hostData := by
  rw [State.poke_only]
@[simp] theorem State.poke_lpddr (s : State) (pa : Nat) (bs : List Byte) (writer : Option Nat) : (s.poke pa bs writer).lpddr = s.lpddr := by
  rw [State.poke_only]

/-! ### Watches of commit groups -/

/-- Wave `x` after a write to its watched lines: its group's watches alone may be broken. -/
def brokenWatch (pa n : Nat) (w : Wave) : Wave :=
  { w with group := w.group.map fun g => { g with
      reads := g.reads.map fun r => if overlaps pa n (r.1 * 64) 64 then (r.1, true) else r } }

theorem State.breakWatches_waves (s : State) (pa n : Nat) (writer : Option Nat) :
    (s.breakWatches pa n writer).waves = s.waves.map fun x => if writer == some x.1 then x else (x.1, brokenWatch pa n x.2) := by
  unfold State.breakWatches
  refine List.map_congr_left fun x _ => ?_
  obtain ⟨u, w⟩ := x
  dsimp only
  split
  · rfl
  · cases hg : w.group with
    | none => simp only [brokenWatch, hg, Option.map_none]; exact congrArg (Prod.mk u) (by rw [← hg])
    | some g => simp only [brokenWatch, hg, Option.map_some]

/-- What holds of every wave whatever its watches, holds after a write. -/
theorem State.poke_waves_all (s : State) (pa : Nat) (bs : List Byte) (writer : Option Nat) (p : Nat × Wave → Bool)
    (hp : ∀ x n, p (x.1, brokenWatch pa n x.2) = p x) : (s.poke pa bs writer).waves.all p = s.waves.all p := by
  unfold State.poke
  dsimp only
  split
  · rfl
  · rw [State.touched_waves, State.breakWatches_waves, List.all_map, State.setBytes_waves]
    refine List.all_congr rfl fun x => ?_
    dsimp only [Function.comp]
    split
    · rfl
    · exact hp x _

theorem State.poke_unlocked (s : State) (pa : Nat) (bs : List Byte) (writer : Option Nat) :
    (s.poke pa bs writer).unlocked = s.unlocked := by
  refine s.poke_waves_all pa bs writer _ fun x n => ?_
  cases hg : x.2.group <;> simp [brokenWatch, hg]

/-! ### Where nothing stands in the way -/

theorem any_eq_false_of_all_not {α : Type} {l : List α} {p q : α → Bool} (h : l.all p = true) (hpq : ∀ x, p x = true → q x = false) :
    l.any q = false := by
  rw [List.any_eq_false]
  exact fun x hx => by simp [hpq x (List.all_eq_true.1 h x hx)]

theorem State.lineLocked_of_unlocked {s : State} (h : s.unlocked = true) (pa n : Nat) (who : Option Nat) : s.lineLocked pa n who = false := by
  refine any_eq_false_of_all_not h fun x hx => ?_
  cases hg : x.2.group <;> simp_all

theorem State.copyFirst_of_unmarked {s : State} (h : s.snap.marks = []) (pa n : Nat) : s.copyFirst pa n = some s := by
  simp [State.copyFirst, h]

theorem State.recheck_of_unwatched {s : State} (h : s.unwatched = true) (pa n : Nat) : s.recheck pa n = s := by
  obtain ⟨hdies, hwaves⟩ := Bool.and_eq_true_iff.1 h
  have hd : (s.dies.flatMap fun d => (d.2.triggers.filter fun t => overlaps pa n t.sbPa 8).map fun t => (d.1, t)) = [] := by
    refine List.flatMap_eq_nil_iff.2 fun d hd => ?_
    have := List.isEmpty_iff.1 (List.all_eq_true.1 hdies d hd)
    rw [this]; rfl
  unfold State.recheck
  dsimp only
  rw [(List.filter_eq_nil_iff (l := s.waves)).2, List.map_nil, List.foldl_nil, hd, List.foldl_nil]
  intro x hx
  have := List.all_eq_true.1 hwaves x hx
  split <;> simp_all

/-- No region watches memory: a write leaves the regions of every die alone. -/
theorem State.invalidateRegions_of_none {s : State} {p : Region → Bool} (h : (s.dies.any fun x => x.2.fit.regions.any p) = false) :
    s.invalidateRegions p = s := by
  unfold State.invalidateRegions State.invalidateRegionsOn
  simp only [Bool.true_and, h, Bool.not_false, ↓reduceIte]

theorem State.poke_dies_of_no_watch {s : State} (h : (s.dies.all fun d => d.2.fit.regions.all fun r => r.watch.isEmpty) = true)
    (pa : Nat) (bs : List Byte) (writer : Option Nat) : (s.poke pa bs writer).dies = s.dies := by
  unfold State.poke
  dsimp only
  split
  · rfl
  · unfold State.touched
    rw [State.dropCode_only]
    rw [State.invalidateRegions_of_none]
    · exact State.setBytes_dies s pa bs
    · have hd : (s.setBytes pa bs).dies = s.dies := State.setBytes_dies s pa bs
      show ((s.setBytes pa bs).dies.any _) = false
      rw [hd]
      refine any_eq_false_of_all_not h fun d hd => any_eq_false_of_all_not hd fun r hr => ?_
      rw [List.isEmpty_iff.1 hr]; rfl

/-! ### A package in which a write is performed -/

/-- The parts of `still`, by name. -/
structure State.Still (s : State) : Prop where
  unlocked : s.unlocked = true
  unmarked : s.snap.marks = []
  unarmed : s.snap.state ≠ 1
  noWatch : (s.dies.all fun d => d.2.fit.regions.all fun r => r.watch.isEmpty) = true
  unwatched : s.unwatched = true

theorem State.still_iff (s : State) : s.still = true ↔ s.Still := by
  constructor
  · intro h
    simp only [State.still, Bool.and_eq_true, List.isEmpty_iff, bne_iff_ne] at h
    obtain ⟨⟨⟨⟨h1, h2⟩, h3⟩, h4⟩, h5⟩ := h
    exact ⟨h1, h2, h3, h4, h5⟩
  · rintro ⟨h1, h2, h3, h4, h5⟩
    simp only [State.still, Bool.and_eq_true, List.isEmpty_iff, bne_iff_ne]
    exact ⟨⟨⟨⟨h1, h2⟩, h3⟩, h4⟩, h5⟩

theorem State.Still.poke {s : State} (h : s.Still) (pa : Nat) (bs : List Byte) (writer : Option Nat) : (s.poke pa bs writer).Still := by
  have hdies := State.poke_dies_of_no_watch h.noWatch pa bs writer
  refine ⟨(s.poke_unlocked pa bs writer).trans h.unlocked, ?_, ?_, ?_, ?_⟩
  · rw [State.poke_snap]; exact h.unmarked
  · rw [State.poke_snap]; exact h.unarmed
  · rw [hdies]; exact h.noWatch
  · have hw := h.unwatched
    rw [State.unwatched] at hw ⊢
    rw [hdies, s.poke_waves_all pa bs writer _ fun x n => rfl]
    exact hw

theorem State.Still.applyHome {s : State} (h : s.Still) (pa : Nat) (bs : List Byte) (writer : Option Nat) (after : State → State) :
    s.applyHome pa bs writer after = after (s.poke pa bs writer) := by
  rw [State.applyHome, State.lineLocked_of_unlocked h.unlocked, State.copyFirst_of_unmarked h.unmarked]
  rfl

/-- A write at a home slice is performed, and nothing is waiting for it. -/
theorem State.Still.writeHome {s : State} (h : s.Still) (pa : Nat) (bs : List Byte) (writer : Option Nat) :
    s.writeHome pa bs writer = s.poke pa bs writer :=
  (h.applyHome pa bs writer _).trans (State.recheck_of_unwatched (h.poke pa bs writer).unwatched _ _)

theorem State.Still.writeQuiet {s : State} (h : s.Still) (pa : Nat) (bs : List Byte) (writer : Option Nat) :
    s.writeQuiet pa bs writer = s.poke pa bs writer := h.applyHome pa bs writer id

theorem State.Still.writeHeld {s : State} (h : s.Still) (pa n : Nat) (who : Option Nat) : s.writeHeld pa n who = false := by
  rw [State.writeHeld, h.unmarked, State.lineLocked_of_unlocked h.unlocked]; rfl

/-- No timeline is armed for a snapshot and no line is locked: a read is not held. -/
theorem State.readHeld_of_unlocked {s : State} (h : s.unlocked = true) (hsnap : s.snap.state ≠ 1) (pa n : Nat) (who : Option Nat) :
    s.readHeld pa n who = false := by
  rw [State.readHeld, State.timelineHeld, State.lineLocked_of_unlocked h, beq_eq_false_iff_ne.2 hsnap]; rfl

theorem State.Still.readHeld {s : State} (h : s.Still) (pa n : Nat) (who : Option Nat) : s.readHeld pa n who = false :=
  State.readHeld_of_unlocked h.unlocked h.unarmed pa n who

end Sys2Proof.Machine
end

section
/-! SUPPORT. Accesses of the host through the firewall, the ports, the clock, the temperature and the ageing plan (R409, R415, R416, R420,
R422, R423). -/

set_option Elab.async false

namespace Sys2Proof.Machine

/-! ### The host's accesses -/

theorem State.hostReaches_iff (s : State) (pa n : Nat) :
    s.hostReaches pa n = true ↔ s.power.cxl = true ∧ n ≠ 0 ∧ s.isDevice pa = true ∧ s.isDevice (pa + n - 1) = true := by
  simp only [State.hostReaches, Bool.and_eq_true, bne_iff_ne, and_assoc]

theorem State.denied_mem (s : State) : s.denied.mem = s.mem := rfl

theorem State.hostRead_of_not_reaches {s : State} {pa n : Nat} {i : Option Nat} (h : s.hostReaches pa n = false) :
    s.hostRead pa n i = s.unsupported := by simp [State.hostRead, h]

theorem State.hostRead_refused {s : State} {pa n : Nat} {i : Option Nat} (h : s.hostReaches pa n = true) (hp : s.hostPasses pa n i = false) :
    s.hostRead pa n i = s.denied.unsupported := by simp [State.hostRead, h, hp]

theorem State.hostRead_passed {s : State} {pa n : Nat} {i : Option Nat} (h : s.hostReaches pa n = true) (hp : s.hostPasses pa n i = true)
    (hheld : s.readHeld pa n none = false) : s.hostRead pa n i = { s with hostData := s.bytes pa n } := by
  simp [State.hostRead, h, hp, hheld]

theorem State.hostWrite_of_not_reaches {s : State} {pa : Nat} {bs : List Byte} {i : Option Nat} (h : s.hostReaches pa bs.length = false) :
    s.hostWrite pa bs i = .next s := by simp [State.hostWrite, h]

theorem State.hostWrite_refused {s : State} {pa : Nat} {bs : List Byte} {i : Option Nat} (h : s.hostReaches pa bs.length = true)
    (hp : s.hostPasses pa bs.length i = false) : s.hostWrite pa bs i = .next s.denied := by simp [State.hostWrite, h, hp]

theorem State.hostWrite_passed {s : State} {pa : Nat} {bs : List Byte} {i : Option Nat} (h : s.hostReaches pa bs.length = true)
    (hp : s.hostPasses pa bs.length i = true) (hs : s.Still) : s.hostWrite pa bs i = .next (s.poke pa bs none) := by
  simp [State.hostWrite, h, hp, hs.writeHeld, hs.writeHome]

/-! ### BAR0 -/

theorem State.admits_bar (s : State) {pa : Nat} (h : isMmio pa = true) : s.admits (.host none) pa = !isDoe pa := by
  simp [State.admits, h]

theorem State.barRead_outside {s : State} {offset n : Nat} (h : isMmio (barPa offset) = false) : s.barRead offset n = s.unsupported := by
  simp [State.barRead, h]

theorem State.barRead_mailbox {s : State} {offset n : Nat} (h : isMmio (barPa offset) = true) (hd : isDoe (barPa offset) = true) :
    s.barRead offset n = s.denied.unsupported := by
  simp [State.barRead, h, s.admits_bar h, hd]

theorem State.barRead_register {s : State} {offset n : Nat} (h : isMmio (barPa offset) = true) (hd : isDoe (barPa offset) = false) :
    s.barRead offset n = { (s.readReg (barPa offset)).2 with
      hostData := ((natLe 8 (s.readReg (barPa offset)).1).drop (barPa offset % 8)).take n } := by
  simp [State.barRead, h, s.admits_bar h, hd]

theorem State.barWrite_outside {s : State} {offset : Nat} {bs : List Byte} (h : isMmio (barPa offset) = false) :
    s.barWrite offset bs = .next s := by
  simp [State.barWrite, h]

theorem State.barWrite_narrow {s : State} {offset : Nat} {bs : List Byte} (hd : isDoe (barPa offset) = false) (hn : bs.length ≠ 8) :
    s.barWrite offset bs = .next s := by
  cases h : isMmio (barPa offset) with
  | false => exact State.barWrite_outside h
  | true => simp [State.barWrite, h, s.admits_bar h, hd, hn]

theorem State.barWrite_mailbox {s : State} {offset : Nat} {bs : List Byte} (h : isMmio (barPa offset) = true)
    (hd : isDoe (barPa offset) = true) : s.barWrite offset bs = .next s.denied := by
  simp [State.barWrite, h, s.admits_bar h, hd]

/-- A write of a word through BAR0 is a write of the register by the host. -/
theorem State.barWrite_word {s : State} {offset : Nat} {bs : List Byte} (h : isMmio (barPa offset) = true) (hn : bs.length = 8) :
    s.barWrite offset bs = execRegisterWrite .host (barPa offset) (BitVec.ofNat 64 (leNat bs)) s := by
  simp only [State.barWrite, execRegisterWrite, agentWho, h, s.admits_bar h, hn]
  cases isDoe (barPa offset) <;> simp

/-! ### Ports -/

theorem State.port_updPort (s : State) (f : Port → Port) {p : Nat} (h : p < 16) :
    mapGet Port.reset (s.updPort p f).fabric.ports p = f (mapGet Port.reset s.fabric.ports p) := by
  rw [State.updPort, if_neg (by omega)]
  exact mapGet_mapPut_self ..

theorem State.updPort_of_no_port (s : State) (f : Port → Port) {p : Nat} (h : 16 ≤ p) : s.updPort p f = s := if_pos h

theorem State.updPort_mem (s : State) (f : Port → Port) (p : Nat) : (s.updPort p f).mem = s.mem := by
  unfold State.updPort; split <;> rfl

theorem State.updPort_trust (s : State) (f : Port → Port) (p : Nat) : (s.updPort p f).trust = s.trust := by
  unfold State.updPort; split <;> rfl

/-! ### Power -/

/-- The clock moves one step: down while power is above its limit, up while it is not and no core's bin is passed. -/
theorem powerStep_iff (s : State) (mhz watts : Nat) :
    (clockOk mhz && (mhz + 100 == s.power.mhz && decide (s.power.limit < watts) ||
      s.power.mhz + 100 == mhz && decide (watts ≤ s.power.limit ∧ mhz ≤ s.slowest))) = true ↔
    1200 ≤ mhz ∧ mhz ≤ 2000 ∧ mhz % 100 = 0 ∧ (mhz + 100 = s.power.mhz ∧ min 3600 s.power.lim < watts ∨
      s.power.mhz + 100 = mhz ∧ watts ≤ min 3600 s.power.lim ∧ mhz ≤ s.slowest) := by
  simp only [clockOk, Bool.and_eq_true, Bool.or_eq_true, decide_eq_true_eq, beq_iff_eq, and_assoc]
  exact Iff.rfl

/-- A flit that fails its tag on a port that is up counts, and the third in a row takes the port down (R420). -/
theorem execFlitTagFail_up {s : State} {p : Nat} (hp : p < 16) (hup : (mapGet Port.reset s.fabric.ports p).up = true) :
    exec (.flitTagFail p) s = .next ((s.updTrust fun t => { t with tagfail := (t.tagfail + 1) % 2 ^ 32 }).updPort p fun x =>
      if 3 ≤ x.fails + 1 then { x with up := false, keyed := false, fails := 0 } else { x with fails := x.fails + 1 }) :=
  if_neg (by simp only [hup, Bool.not_true, Bool.false_eq_true, or_false]; omega)

end Sys2Proof.Machine

open Sys2Proof Sys2Proof.Machine

/-- Settles O59: host accesses, snoops, ports, throttling, the thermal trip and the ageing plan, clause by clause. -/
theorem hostPortsPower : Obligations.HostPortsPower := by
  intro s denied
  have hdenied : denied s.denied := ⟨rfl, fun _ => rfl⟩
  have hdenied' : denied s.denied.unsupported := ⟨rfl, fun _ => rfl⟩
  refine ⟨fun pa n i => ?_, fun offset n => ?_, fun line => ?_, fun p => ?_, fun mhz watts => ?_, ?_, ?_, fun plan record => ?_⟩
  · intro reach
    have hreach : reach ↔ s.hostReaches pa n = true := (s.hostReaches_iff pa n).symm
    refine ⟨fun h => ⟨_, rfl, ?_⟩, fun h hp => ⟨_, rfl, ?_⟩, fun h hp hsnap hlock => ⟨_, rfl, ?_⟩, ?_⟩
    · exact State.hostRead_of_not_reaches (Bool.eq_false_iff.2 (mt hreach.2 h))
    · rw [State.hostRead_refused (hreach.1 h) hp]
      exact ⟨rfl, hdenied'⟩
    · exact State.hostRead_passed (hreach.1 h) hp (State.readHeld_of_unlocked hlock hsnap _ _ _)
    · rintro bs rfl
      refine ⟨fun h => ?_, fun h hp => ⟨s.denied, ?_, rfl, hdenied⟩, fun h hp hs => ⟨_, State.hostWrite_passed (hreach.1 h) hp ((s.still_iff).1 hs), ?_⟩⟩
      · exact State.hostWrite_of_not_reaches (Bool.eq_false_iff.2 (mt hreach.2 h))
      · exact State.hostWrite_refused (hreach.1 h) hp
      · exact s.byte_poke pa bs none
  · intro pa r
    refine ⟨fun h => ⟨_, rfl, State.barRead_outside h⟩, fun h hd => ⟨_, rfl, ?_⟩, fun h hd => ⟨_, rfl, State.barRead_register h hd⟩, fun bs => ⟨?_, ?_, ?_⟩⟩
    · rw [State.barRead_mailbox h hd]
      exact ⟨rfl, hdenied'⟩
    · rintro (h | ⟨hd, hn⟩)
      · exact State.barWrite_outside h
      · exact State.barWrite_narrow hd hn
    · exact fun h hd => ⟨s.denied, State.barWrite_mailbox h hd, rfl, hdenied⟩
    · exact fun h hn => State.barWrite_word h hn
  · refine ⟨_, rfl, ?_⟩
    cases hcxl : s.power.cxl with
    | false => exact ⟨fun _ => rfl, rfl⟩
    | true =>
      refine ⟨fun _ => rfl, fun q hq => ?_⟩
      have hprot : q ∈ (s.die (homeDie (line * 64))).l2.prot.filter fun p => p.1 != line := by
        simpa [State.updL2] using hq
      exact bne_iff_ne.1 (List.mem_filter.1 hprot).2
  · intro x becomes
    refine ⟨fun hp hstage ok => ⟨_, rfl, ?_⟩, fun hstage ok => ?_, ?_, fun hp hup => ⟨⟨_, execFlitTagFail_up hp hup, ?_⟩, _, execFlitTagFail_up hp hup, ?_⟩,
      fun hp => ⟨_, rfl, s.port_updPort _ hp, State.sameMem_of_mem (s.updPort_mem _ p)⟩, fun hp => congrArg Host.Outcome.next (s.updPort_of_no_port _ hp)⟩
    · rw [if_pos hstage]
      exact ⟨s.port_updPort _ hp, State.sameMem_of_mem (s.updPort_mem _ p)⟩
    · exact congrArg Host.Outcome.next (if_neg hstage)
    · exact fun h => if_pos (h.imp_right fun h => by rw [Bool.not_eq_true']; exact h)
    · refine ⟨(State.port_updPort _ _ hp).trans ?_, State.sameMem_of_mem (State.updPort_mem _ _ p)⟩
      exact if_congr (show 3 ≤ x.fails + 1 ↔ 2 ≤ x.fails by omega) rfl rfl
    · exact State.updPort_trust _ _ p
  · refine ⟨_, rfl, rfl, rfl, fun h => if_pos ?_, fun h => if_neg ?_⟩
    · rw [powerStep_iff]; exact h
    · rw [powerStep_iff]; exact h
  · exact fun h => congrArg Host.Outcome.next (if_pos h)
  · intro h
    refine ⟨_, rfl, ?_⟩
    rw [if_neg (by omega)]
    exact ⟨rfl, rfl, fun _ => rfl⟩
  · refine ⟨fun h => congrArg Host.Outcome.next (if_pos ?_), fun h hok => congrArg Host.Outcome.next (if_neg ?_)⟩
    · simpa [nsPerHour] using h
    · simp [nsPerHour, hok]; omega
end

section
/-! SUPPORT. What writes at home slices, walks and the waits that they end leave alone: everything but memory, poison, waves, dies, cores,
the snapshot engine and the note that a write was held. -/

set_option Elab.async false

namespace Sys2Proof.Machine

/-- The parts of a state that a write at a home slice does not touch, whatever waits on it. -/
def State.rest (s : State) : State :=
  { s with mem := [], poison := [], waves := [], dies := [], cores := [], snap := Snap.reset, blocked := false }

theorem State.rest_setWave (s : State) (u : Nat) (w : Wave) : (s.setWave u w).rest = s.rest := rfl
theorem State.rest_updDie (s : State) (d : Nat) (f : Die → Die) : (s.updDie d f).rest = s.rest := rfl
theorem State.rest_updCore (s : State) (c : Nat) (f : Core → Core) : (s.updCore c f).rest = s.rest := rfl
theorem State.rest_updWave (s : State) (u : Nat) (f : Wave → Wave) : (s.updWave u f).rest = s.rest := by
  unfold State.updWave
  split <;> rfl
theorem State.rest_poke (s : State) (pa : Nat) (bs : List Byte) (writer : Option Nat) : (s.poke pa bs writer).rest = s.rest := by
  rw [State.poke_only]; rfl

theorem State.rest_foldl {α : Type} (f : State → α → State) (h : ∀ s a, (f s a).rest = s.rest) (l : List α) (s : State) :
    (l.foldl f s).rest = s.rest :=
  foldl_keeps (fun t => t.rest = s.rest) f (fun t a ht => (h t a).trans ht) l s rfl

theorem State.rest_recheckWave (s : State) (u : Nat) : (s.recheckWave u).rest = s.rest := by
  unfold State.recheckWave
  dsimp only
  repeat' split
  all_goals simp only [State.rest_setWave, State.rest_updWave, State.rest_poke]

theorem State.rest_recheckTrigger (s : State) (d : Nat) (t : Trigger) : (s.recheckTrigger d t).rest = s.rest := by
  unfold State.recheckTrigger
  dsimp only
  repeat' split
  all_goals simp only [State.rest_updDie, State.rest_poke]

theorem State.rest_recheck (s : State) (pa n : Nat) : (s.recheck pa n).rest = s.rest :=
  (State.rest_foldl _ (fun s _ => s.rest_recheckTrigger _ _) _ _).trans (State.rest_foldl _ State.rest_recheckWave _ _)

theorem State.rest_unmark (s : State) (page : Nat) : (s.unmark page).rest = s.rest := by
  refine State.rest_foldl _ (fun s a => ?_) _ _
  split
  · exact s.rest_poke ..
  · rfl

theorem State.rest_copyInto (s : State) (page i : Nat) (bs : List Byte) : (s.copyInto page i bs).rest = s.rest :=
  (State.rest_unmark _ page).trans (s.rest_poke (s.snap.poolPa i) bs none)

theorem State.rest_copyMarked {s t : State} {page : Nat} (h : s.copyMarked page = some t) : t.rest = s.rest := by
  unfold State.copyMarked at h
  split at h
  · cases h
  · obtain ⟨i, -, rfl⟩ := Option.map_eq_some_iff.mp h
    exact s.rest_copyInto ..

theorem State.rest_copyFirst {s t : State} {pa n : Nat} (h : s.copyFirst pa n = some t) : t.rest = s.rest := by
  unfold State.copyFirst at h
  split at h
  · cases h; rfl
  · refine foldl_keeps (fun o : Option State => ∀ t, o = some t → t.rest = s.rest) _ (fun o p ho t ht => ?_) _ (some s)
      (fun t ht => by cases ht; rfl) t h
    obtain ⟨r, hr, ht⟩ := Option.bind_eq_some_iff.mp ht
    split at ht
    · cases ht
    · exact (State.rest_copyMarked ht).trans (ho r hr)

theorem State.rest_applyHome (s : State) (pa : Nat) (bs : List Byte) (writer : Option Nat) {after : State → State}
    (h : ∀ t : State, (after t).rest = t.rest) : (s.applyHome pa bs writer after).rest = s.rest := by
  unfold State.applyHome
  split
  · rfl
  · cases hc : s.copyFirst pa bs.length with
    | none => rfl
    | some t => exact ((h _).trans (t.rest_poke ..)).trans (State.rest_copyFirst hc)

theorem State.rest_writeHome (s : State) (pa : Nat) (bs : List Byte) (writer : Option Nat) : (s.writeHome pa bs writer).rest = s.rest :=
  s.rest_applyHome pa bs writer fun t => t.rest_recheck _ _

theorem State.rest_writeQuiet (s : State) (pa : Nat) (bs : List Byte) (writer : Option Nat) : (s.writeQuiet pa bs writer).rest = s.rest :=
  s.rest_applyHome pa bs writer fun _ => rfl

theorem State.rest_touched (s : State) (pa n : Nat) (writer : Option Nat) : (s.touched pa n writer).rest = s.rest := by
  rw [State.touched_only]; rfl

theorem State.rest_zeroPage (s : State) (page : Nat) : (s.zeroPage page).rest = s.rest := by
  unfold State.zeroPage
  dsimp only
  split
  · rfl
  · split
    · rfl
    · cases hc : s.copyFirst (page * 65536) 65536 with
      | none => rfl
      | some t => exact (State.rest_touched _ _ _ _).trans (show t.rest = s.rest from State.rest_copyFirst hc)

theorem State.rest_writeOwner (s : State) (pa : Nat) (o : Owner) : (s.writeOwner pa o).rest = s.rest := s.rest_poke ..

/-! ### Walks of engines -/

theorem State.rest_notePointers (s : State) (die asid va : Nat) : (s.notePointers die asid va).rest = s.rest := by
  unfold State.notePointers
  dsimp only
  split <;> rfl

theorem State.rest_ite_writeHome (s : State) (c : Prop) [Decidable c] (pa : Nat) (bs : List Byte) :
    (if c then s else s.writeHome pa bs).rest = s.rest := by
  split
  · rfl
  · exact s.rest_writeHome ..

theorem State.rest_touchLeaf (s : State) (t : Tr) (write : Bool) : (touchLeaf s t write).1.rest = s.rest := by
  unfold touchLeaf
  split
  · rfl
  · exact (State.rest_ite_writeHome ..)

theorem State.rest_engineXlate (s : State) (die asid world : Nat) (who : Who) (va access : Nat) :
    (engineXlate s die asid world who va access).after.rest = s.rest := by
  have hfinish : ∀ (r : State) (t : Tr), (match permFault t access false with
      | some k => Xlate.fault k (if t.large then 2 else 3) r
      | none => if r.admits who (t.pa va) then .ok (t.pa va) t r else .firewall r).after.rest = r.rest := by
    intro r t
    split
    · rfl
    · split <;> rfl
  unfold engineXlate
  split
  · rfl
  · dsimp only
    split
    · exact hfinish _ _
    · split
      · exact (hfinish _ _).trans ((State.rest_touchLeaf ..).trans (State.rest_notePointers ..))
      · rfl
      · rfl

theorem State.rest_putWord (s : State) (q asid world va : Nat) (f : Nat → Nat) : (s.putWord q asid world va f).1.rest = s.rest := by
  unfold State.putWord
  have h := s.rest_engineXlate (queueDie q) asid world (queueWho q world) (va % 2 ^ 64) 1
  split
  · rename_i pa t r hr
    rw [hr] at h
    split
    · exact h
    · exact (State.rest_writeHome ..).trans h
  · exact h

theorem State.rest_signalTrigger (s : State) (die : Nat) (t : Trigger) (status : Nat) : (s.signalTrigger die t status).rest = s.rest := by
  unfold State.signalTrigger
  dsimp only
  split
  · rfl
  · have h := s.rest_engineXlate die t.asid t.world (.world t.world) ((t.cpl.toNat + 8) % 2 ^ 64) 1
    split
    · rename_i pa x r hr
      rw [hr] at h
      have h2 := (r.writeHome pa (natLe 8 (status + 2 ^ 32 * (t.time % 2 ^ 32)))).rest_engineXlate die t.asid t.world (.world t.world)
        t.cpl.toNat 1
      split
      · rename_i pa2 x2 r2 hr2
        rw [hr2] at h2
        exact (State.rest_writeHome ..).trans (h2.trans ((State.rest_writeHome ..).trans h))
      · exact h2.trans ((State.rest_writeHome ..).trans h)
    · exact h

theorem State.rest_cancelTriggers (s : State) (p : Trigger → Bool) : (s.cancelTriggers p).rest = s.rest :=
  State.rest_foldl _ (fun s _ => (State.rest_updDie ..).trans (s.rest_signalTrigger _ _ _)) _ _

/-! ### Aborted cohorts and freed images -/

theorem State.rest_releaseHolder (s : State) (u core : Nat) : (s.releaseHolder u core).rest = s.rest := by
  unfold State.releaseHolder
  split <;> rfl

theorem State.rest_abortCohort (s : State) (cid : Nat) : (s.abortCohort cid).rest = s.rest := by
  unfold State.abortCohort
  split
  · rfl
  · refine State.rest_foldl _ (fun s u => ?_) _ _
    split
    · exact (State.rest_releaseHolder ..).trans rfl
    · rfl

theorem State.rest_freeImage (s : State) (x : Saved) : (s.freeImage x).rest = s.rest := rfl

end Sys2Proof.Machine
end

section
/-! SUPPORT. Cancels (R340, R349): a cancel of some tasks leaves every one of them cancelled or gone, if none comes too late, and of the
others everything that decides whether a cancel comes too late. -/

set_option Elab.async false

namespace Sys2Proof.Machine

/-! ### What a cancel of other tasks keeps -/

/-- Task `y` is task `x` later: it has been cancelled, or stands as far as before. -/
structure Task.Kept (x y : Task) : Prop where
  id : y.id = x.id
  queue : y.queue = x.queue
  disp : y.disp = x.disp
  world : y.world = x.world
  stands : y.stage = .cancelled ∨ y.stage = x.stage ∧ y.saved = x.saved ∧ y.desc = x.desc ∧ y.retired = x.retired

theorem Task.Kept.refl (x : Task) : x.Kept x := ⟨rfl, rfl, rfl, rfl, Or.inr ⟨rfl, rfl, rfl, rfl⟩⟩

theorem Task.Kept.trans {x y z : Task} (h : x.Kept y) (k : y.Kept z) : x.Kept z := by
  refine ⟨k.id.trans h.id, k.queue.trans h.queue, k.disp.trans h.disp, k.world.trans h.world, ?_⟩
  rcases k.stands with hz | ⟨hst, hsv, hd, hr⟩
  · exact Or.inl hz
  · rcases h.stands with hy | ⟨hst', hsv', hd', hr'⟩
    · exact Or.inl (hst.trans hy)
    · exact Or.inr ⟨hst.trans hst', hsv.trans hsv', hd.trans hd', hr.trans hr'⟩

/-- From `s` to `t` tasks have only been cancelled or have ended. -/
structure State.Cancels (s t : State) : Prop where
  cohorts : t.cohorts = s.cohorts
  copies : t.sched.copies = s.sched.copies
  tasks : ∀ y ∈ t.sched.tasks, ∃ x ∈ s.sched.tasks, x.Kept y
  ids : (t.sched.tasks.map (·.id)).Sublist (s.sched.tasks.map (·.id))

theorem State.Cancels.refl (s : State) : s.Cancels s := ⟨rfl, rfl, fun y hy => ⟨y, hy, .refl y⟩, .refl _⟩

theorem State.Cancels.trans {s t r : State} (h : s.Cancels t) (k : t.Cancels r) : s.Cancels r := by
  refine ⟨k.cohorts.trans h.cohorts, k.copies.trans h.copies, fun z hz => ?_, k.ids.trans h.ids⟩
  obtain ⟨y, hy, hyz⟩ := k.tasks z hz
  obtain ⟨x, hx, hxy⟩ := h.tasks y hy
  exact ⟨x, hx, hxy.trans hyz⟩

theorem State.Cancels.of_eq {s t : State} (hc : t.cohorts = s.cohorts) (hp : t.sched.copies = s.sched.copies)
    (ht : t.sched.tasks = s.sched.tasks) : s.Cancels t :=
  ⟨hc, hp, fun y hy => ⟨y, ht ▸ hy, .refl y⟩, by rw [ht]⟩

theorem State.Cancels.of_rest {s t : State} (h : t.rest = s.rest) : s.Cancels t :=
  .of_eq (congrArg State.cohorts h :) (congrArg (·.sched.copies) h :) (congrArg (·.sched.tasks) h :)

theorem State.Cancels.foldl {α : Type} (f : State → α → State) (h : ∀ (s : State) a, s.Cancels (f s a)) (l : List α) (s : State) :
    s.Cancels (l.foldl f s) :=
  foldl_keeps s.Cancels f (fun t a ht => ht.trans (h t a)) l s (.refl s)

/-! ### Updates of one task -/

theorem mem_updFirst {α : Type} {p : α → Bool} {f : α → α} {l : List α} {y : α} (h : y ∈ updFirst p f l) :
    y ∈ l ∨ ∃ x ∈ l, p x = true ∧ y = f x := by
  induction l with
  | nil => exact Or.inl h
  | cons a l ih =>
    rw [updFirst] at h
    split at h
    · rcases List.mem_cons.1 h with rfl | h
      · exact Or.inr ⟨a, List.mem_cons_self, by assumption, rfl⟩
      · exact Or.inl (List.mem_cons_of_mem _ h)
    · rcases List.mem_cons.1 h with rfl | h
      · exact Or.inl List.mem_cons_self
      · rcases ih h with h | ⟨x, hx, hp, rfl⟩
        · exact Or.inl (List.mem_cons_of_mem _ h)
        · exact Or.inr ⟨x, List.mem_cons_of_mem _ hx, hp, rfl⟩

/-- Where no number stands twice, an update of the task of one number reaches every task of that number. -/
theorem updFirst_all_of_nodup {l : List Task} (hn : (l.map (·.id)).Nodup) {id : Nat} {f : Task → Task} {P : Task → Prop}
    (hf : ∀ x, P (f x)) {y : Task} (hy : y ∈ updFirst (fun x => x.id == id) f l) (h : y.id = id) : P y := by
  induction l with
  | nil => cases hy
  | cons a l ih =>
    rw [List.map_cons, List.nodup_cons] at hn
    rw [updFirst] at hy
    split at hy
    · rcases List.mem_cons.1 hy with rfl | hy
      · exact hf a
      · have ha : a.id = id := beq_iff_eq.1 (by assumption)
        exact absurd (List.mem_map_of_mem (f := (·.id)) hy) (by rw [h, ← ha]; exact hn.1)
    · rename_i hne
      rcases List.mem_cons.1 hy with rfl | hy
      · exact absurd (beq_iff_eq.2 h) hne
      · exact ih hn.2 hy

theorem map_updFirst {α β : Type} (p : α → Bool) (f : α → α) (g : α → β) (h : ∀ x, g (f x) = g x) (l : List α) :
    (updFirst p f l).map g = l.map g := by
  induction l with
  | nil => rfl
  | cons a l ih =>
    rw [updFirst]
    split
    · rw [List.map_cons, List.map_cons, h]
    · rw [List.map_cons, List.map_cons, ih]

theorem State.Cancels.updTask (s : State) (id : Nat) {f : Task → Task} (hf : ∀ x : Task, x.Kept (f x)) : s.Cancels (s.updTask id f) := by
  refine ⟨rfl, rfl, fun y hy => ?_, ?_⟩
  · rcases mem_updFirst hy with hy | ⟨x, hx, -, rfl⟩
    · exact ⟨y, hy, .refl y⟩
    · exact ⟨x, hx, hf x⟩
  · show ((updFirst _ f s.sched.tasks).map _).Sublist _
    rw [map_updFirst _ _ _ fun x => (hf x).id]

/-! ### The steps of a cancel -/

theorem State.Cancels.updQueue (s : State) (q : Nat) (f : Queue → Queue) : s.Cancels (s.updQueue q f) := .of_eq rfl rfl rfl

theorem State.Cancels.endProtection (s : State) (t : Task) : s.Cancels (s.endProtection t) := by
  unfold State.endProtection
  refine (State.Cancels.of_rest ?_).trans (.updTask _ t.id fun x => ⟨rfl, rfl, rfl, rfl, Or.inr ⟨rfl, rfl, rfl, rfl⟩⟩)
  exact State.rest_foldl (fun (s : State) (c : Nat × Nat) => s.updDie c.1 fun d => { d with promised := d.promised - c.2 })
    (fun _ _ => rfl) t.charge s

theorem State.Cancels.putWord (s : State) (q asid world va : Nat) (f : Nat → Nat) : s.Cancels (s.putWord q asid world va f).1 :=
  .of_rest (s.rest_putWord q asid world va f)

theorem State.Cancels.retireSlots (q fuel : Nat) (s : State) : s.Cancels (State.retireSlots q fuel s) := by
  induction fuel generalizing s with
  | zero => exact .refl s
  | succ fuel ih =>
    rw [State.retireSlots]
    split
    · exact .refl s
    · dsimp only
      split
      · exact (State.Cancels.putWord ..).trans (.updQueue ..)
      · exact ((State.Cancels.putWord ..).trans (.updQueue ..)).trans (ih _)

theorem State.Cancels.finishTask (s : State) (id status : Nat) : s.Cancels (s.finishTask id status) := by
  unfold State.finishTask
  split
  · exact .refl s
  · rename_i t ht
    extract_lets s1 tl a b sig s2 last s3 src s4 s5
    have h1 : s.Cancels s1 := .endProtection s t
    have ha : s.Cancels a.1 := h1.trans (.putWord ..)
    clear_value a
    have hb : s.Cancels b.1 := ha.trans (.putWord ..)
    clear_value s1 b
    have h2 : s.Cancels sig.1 := by
      unfold sig
      split
      · exact h1
      · exact hb
    clear_value sig
    have h3 : s.Cancels s3 := State.Cancels.trans (t := s2) h2 (.of_eq rfl rfl rfl)
    clear_value s3
    have h4 : s3.Cancels s4 := ⟨rfl, rfl, fun y hy => ⟨y, (List.mem_filter.1 hy).1, .refl y⟩, (List.filter_sublist).map _⟩
    have h5 : s.Cancels s5 := by
      unfold s5
      split
      · exact h3.trans h4
      · exact (h3.trans h4).trans (.of_rest (s4.rest_cancelTriggers _))
    clear_value s5
    exact h5.trans (.retireSlots _ _ _)

theorem State.Cancels.settleCancel (s : State) (id : Nat) : s.Cancels (s.settleCancel id) := by
  unfold State.settleCancel
  split
  · exact .refl s
  · split
    · exact .refl s
    · exact .finishTask ..

/-- A cancel that takes effect, before its task is seen to have ended. -/
def State.cancelled (s : State) (t : Task) (status : Nat) : State :=
  let s := { s with sched := { s.sched with staging := s.sched.staging.filter fun x => x.task != t.id } }
  let s := (s.cohorts.filter fun c => c.2.task == t.id).foldl (fun s c => s.abortCohort c.1) s
  let s := (t.saved.foldl (fun s x => s.freeImage x) s).endProtection t
  s.updTask t.id fun t => { t with stage := .cancelled, status := status, saved := [], saving := false }

theorem State.task_id {s : State} {id : Nat} {t : Task} (h : s.task id = some t) : t.id = id := by
  have := List.find?_some h
  exact beq_iff_eq.1 this

theorem State.cancelTask_eq {s : State} {id : Nat} {t : Task} (h : s.task id = some t) (hs : t.stage ≠ .cancelled)
    (hl : s.tooLate t = false) (status : Nat) : s.cancelTask id status = (s.cancelled t status).settleCancel id := by
  obtain rfl := State.task_id h
  rw [State.cancelTask, h]
  dsimp only
  rw [if_neg (by simp [hs, hl])]
  rfl

theorem State.cancelTask_none {s : State} {id : Nat} {t : Task} (h : s.task id = some t) (hs : t.stage = .cancelled ∨ s.tooLate t = true)
    (status : Nat) : s.cancelTask id status = s := by
  rw [State.cancelTask, h]
  exact if_pos hs

theorem State.Cancels.cancelled (s : State) (t : Task) (status : Nat) : s.Cancels (s.cancelled t status) := by
  unfold State.cancelled
  extract_lets src s1 s2 s3
  have h1 : s.Cancels s1 := .of_eq rfl rfl rfl
  have h2 : s.Cancels s2 := h1.trans (.of_rest (State.rest_foldl _ (fun s x => s.rest_abortCohort _) _ _))
  have h3 : s.Cancels s3 := (h2.trans (.of_rest (State.rest_foldl _ (fun s x => s.rest_freeImage x) _ _))).trans (.endProtection _ _)
  exact h3.trans (.updTask _ _ fun x => ⟨rfl, rfl, rfl, rfl, Or.inl rfl⟩)

theorem State.Cancels.cancelTask (s : State) (id status : Nat) : s.Cancels (s.cancelTask id status) := by
  cases h : s.task id with
  | none => rw [State.cancelTask, h]; exact .refl s
  | some t =>
    by_cases hs : t.stage = .cancelled ∨ s.tooLate t = true
    · rw [State.cancelTask_none h hs]; exact .refl s
    · rw [not_or, Bool.not_eq_true] at hs
      rw [State.cancelTask_eq h hs.1 hs.2]
      exact (State.Cancels.cancelled ..).trans (.settleCancel ..)

/-! ### Tasks that are cancelled -/

/-- Where no number stands twice, a task is what its number finds. -/
theorem State.task_of_mem {s : State} (hn : (s.sched.tasks.map (·.id)).Nodup) {x : Task} (hx : x ∈ s.sched.tasks) : s.task x.id = some x := by
  unfold State.task
  generalize s.sched.tasks = l at hn hx
  induction l with
  | nil => cases hx
  | cons a l ih =>
    rw [List.map_cons, List.nodup_cons] at hn
    rcases List.mem_cons.1 hx with rfl | hx
    · exact List.find?_cons_of_pos (by simp)
    · have hne : a.id ≠ x.id := fun h => hn.1 (h ▸ List.mem_map_of_mem hx)
      rw [List.find?_cons_of_neg (by simpa using hne)]
      exact ih hn.2 hx

theorem State.tooLate_congr {s t : State} (hc : t.cohorts = s.cohorts) (hp : t.sched.copies = s.sched.copies) {x y : Task}
    (hid : y.id = x.id) (hst : y.stage = x.stage) (hsv : y.saved = x.saved) (hd : y.desc = x.desc) (hr : y.retired = x.retired) :
    t.tooLate y = s.tooLate x := by
  simp only [State.tooLate, State.retiresNow, hc, hp, hid, hst, hsv, hd, hr]

/-- A task that a cancel has met is cancelled. -/
theorem State.mem_cancelled {s : State} (hn : (s.sched.tasks.map (·.id)).Nodup) {t y : Task} {status : Nat}
    (hy : y ∈ (s.cancelled t status).sched.tasks) (hid : y.id = t.id) : y.stage = .cancelled := by
  unfold State.cancelled at hy
  extract_lets src s1 s2 s3 at hy
  have h3 : s.Cancels s3 :=
    ((State.Cancels.of_eq (s := s) (t := s1) rfl rfl rfl).trans (.of_rest (State.rest_foldl _ (fun s x => s.rest_abortCohort _) _ _))).trans
      ((State.Cancels.of_rest (State.rest_foldl _ (fun s x => s.rest_freeImage x) _ _)).trans (.endProtection _ _))
  exact updFirst_all_of_nodup (P := fun y => y.stage = .cancelled) (hn.sublist h3.ids) (f := fun t =>
    { t with stage := .cancelled, status := status, saved := [], saving := false }) (fun _ => rfl) hy hid

/-- A cancel of task `id`, if it does not come too late, leaves it cancelled, or no such task. -/
theorem State.cancelTask_cancels {s : State} (hn : (s.sched.tasks.map (·.id)).Nodup) {id : Nat}
    (hl : ∀ x ∈ s.sched.tasks, x.id = id → x.stage = .cancelled ∨ s.tooLate x = false) (status : Nat) :
    ∀ y ∈ (s.cancelTask id status).sched.tasks, y.id = id → y.stage = .cancelled := by
  intro y hy hid
  cases h : s.task id with
  | none =>
    rw [State.cancelTask, h] at hy
    have := State.task_of_mem hn hy
    rw [hid, h] at this
    cases this
  | some t =>
    have ht : t ∈ s.sched.tasks := List.mem_of_find?_eq_some h
    by_cases hs : t.stage = .cancelled ∨ s.tooLate t = true
    · rw [State.cancelTask_none h hs] at hy
      have hy' := State.task_of_mem hn hy
      rw [hid, h] at hy'
      cases hy'
      rcases hl y hy hid with hc | hc
      · exact hc
      · rcases hs with hs | hs
        · exact hs
        · rw [hs] at hc; cases hc
    · rw [not_or, Bool.not_eq_true] at hs
      rw [State.cancelTask_eq h hs.1 hs.2] at hy
      obtain ⟨z, hz, hzy⟩ := (State.Cancels.settleCancel (s.cancelled t status) id).tasks y hy
      have hzc : z.stage = .cancelled := State.mem_cancelled hn hz ((hzy.id.symm.trans hid).trans (State.task_id h).symm)
      rcases hzy.stands with hc | ⟨hc, -⟩
      · exact hc
      · exact hc.trans hzc

/-- Cancels of some tasks in turn, none of which comes too late, leave each cancelled or gone. -/
theorem State.cancelTasks_cancel {s : State} (hn : (s.sched.tasks.map (·.id)).Nodup) {ids : List Nat}
    (hl : ∀ x ∈ s.sched.tasks, x.id ∈ ids → s.tooLate x = false) (status : Nat) :
    ∀ y ∈ (ids.foldl (fun s t => s.cancelTask t status) s).sched.tasks, y.id ∈ ids → y.stage = .cancelled := by
  have key : ∀ (l : List Nat) (r : State), s.Cancels r → (∀ a ∈ l, a ∈ ids) →
      ∀ y ∈ (l.foldl (fun s t => s.cancelTask t status) r).sched.tasks, y.id ∈ l → y.stage = .cancelled := by
    intro l
    induction l with
    | nil => exact fun _ _ _ y _ hy => by cases hy
    | cons a l ih =>
      intro r hr hmem y hy hya
      have hr' := hr.trans (State.Cancels.cancelTask r a status)
      rcases List.mem_cons.1 hya with hya | hyl
      · obtain ⟨z, hz, hzy⟩ := (State.Cancels.foldl _ (fun s t => State.Cancels.cancelTask s t status) l (r.cancelTask a status)).tasks y hy
        have hlate : ∀ x ∈ r.sched.tasks, x.id = a → x.stage = .cancelled ∨ r.tooLate x = false := by
          intro x hx hxa
          obtain ⟨w, hw, hwx⟩ := hr.tasks x hx
          refine hwx.stands.imp_right fun ⟨hst, hsv, hd, hrt⟩ => ?_
          rw [State.tooLate_congr hr.cohorts hr.copies hwx.id hst hsv hd hrt]
          exact hl w hw (by rw [← hwx.id, hxa]; exact hmem a List.mem_cons_self)
        have hzc := State.cancelTask_cancels (hn.sublist hr.ids) hlate status z hz (hzy.id.symm.trans hya)
        exact hzy.stands.elim id fun h => h.1.trans hzc
      · exact ih _ hr' (fun b hb => hmem b (List.mem_cons_of_mem _ hb)) y hy hyl
  exact key ids s (.refl s) fun a ha => ha

/-- A cancel of every task that satisfies `p`, none of which ends in this clock, leaves them cancelled. -/
theorem State.cancelTasks_filter {s : State} (hn : (s.sched.tasks.map (·.id)).Nodup) {p : Task → Bool}
    (hp : ∀ x y : Task, x.Kept y → p y = p x) (hl : ∀ x ∈ s.sched.tasks, p x = true → s.tooLate x = false) (status : Nat) :
    ∀ y ∈ (((s.sched.tasks.filter p).map (·.id)).foldl (fun s t => s.cancelTask t status) s).sched.tasks, p y = true → y.stage = .cancelled := by
  intro y hy hpy
  refine State.cancelTasks_cancel hn (fun x hx hmem => ?_) status y hy ?_
  · obtain ⟨z, hz, hzx⟩ := List.mem_map.1 hmem
    obtain ⟨hz, hpz⟩ := List.mem_filter.1 hz
    have hzx : some z = some x := by rw [← State.task_of_mem hn hz, ← State.task_of_mem hn hx, hzx]
    cases hzx
    exact hl x hx hpz
  · obtain ⟨x, hx, hxy⟩ := (State.Cancels.foldl _ (fun s t => State.Cancels.cancelTask s t status) _ s).tasks y hy
    exact List.mem_map.2 ⟨x, List.mem_filter.2 ⟨hx, (hp x y hxy).symm.trans hpy⟩, hxy.id.symm⟩

/-- The tasks of a cancelled queue are cancelled. -/
theorem State.cancelQueue_cancels {s : State} (hn : (s.sched.tasks.map (·.id)).Nodup) {q : Nat}
    (hl : ∀ x ∈ s.sched.tasks, x.queue = q → s.tooLate x = false) :
    ∀ y ∈ (s.cancelQueue q).sched.tasks, y.queue = q → y.stage = .cancelled := fun y hy hq =>
  State.cancelTasks_filter hn (p := fun t => t.queue == q) (fun x y h => by rw [h.queue]) (fun x hx h => hl x hx (beq_iff_eq.1 h)) 6 y hy
    (beq_iff_eq.2 hq)

/-- The tasks of a dispatch that is terminated are cancelled. -/
theorem State.killDispatch_cancels {s : State} (hn : (s.sched.tasks.map (·.id)).Nodup) {d : Nat}
    (hl : ∀ x ∈ s.sched.tasks, x.disp = d → s.tooLate x = false) :
    ∀ y ∈ (s.killDispatch d).sched.tasks, y.disp = d → y.stage = .cancelled := fun y hy hd =>
  State.cancelTasks_filter hn (p := fun t => t.disp == d) (fun x y h => by rw [h.disp]) (fun x hx h => hl x hx (beq_iff_eq.1 h)) 5 y hy
    (beq_iff_eq.2 hd)

end Sys2Proof.Machine
end

section
/-! SUPPORT. Package reset and boot (R399 to R402, R446): what a reset leaves of memory, and the images in turn. -/

set_option Elab.async false

namespace Sys2Proof.Machine

/-! ### Memory cut down to some addresses -/

theorem mapGet_filter_out {α : Type} (d : α) (m : List (Nat × α)) (p : Nat → Bool) {a : Nat} (h : p a = false) :
    mapGet d (m.filter fun c => p c.1) a = d := by
  induction m with
  | nil => rfl
  | cons e m ih =>
    obtain ⟨k, v⟩ := e
    rw [List.filter_cons]
    split
    · rename_i hk
      have hne : a ≠ k := fun hak => by rw [← hak, h] at hk; cases hk
      rw [mapGet, if_neg hne]
      split
      · rfl
      · exact ih
    · exact ih

theorem mapGet_below {d : Byte} {m : List Host.Cell} {b a : Nat} (w : memWfFrom b m = true) (h : a < b) : mapGet d m a = d := by
  cases m with
  | nil => rfl
  | cons e m =>
    obtain ⟨k, v⟩ := e
    simp only [memWfFrom, Bool.and_eq_true, decide_eq_true_eq] at w
    rw [mapGet, if_neg (by omega), if_pos (by omega)]

theorem mapGet_filter_in {d : Byte} {m : List Host.Cell} {b : Nat} (w : memWfFrom b m = true) (p : Nat → Bool) {a : Nat} (h : p a = true) :
    mapGet d (m.filter fun c => p c.1) a = mapGet d m a := by
  induction m generalizing b with
  | nil => rfl
  | cons e m ih =>
    obtain ⟨k, v⟩ := e
    simp only [memWfFrom, Bool.and_eq_true, decide_eq_true_eq] at w
    rw [List.filter_cons]
    split
    · simp only [mapGet, ih w.2]
    · rename_i hk
      have hne : a ≠ k := fun hak => hk (by rw [← hak]; exact h)
      rw [mapGet, if_neg hne]
      split
      · exact mapGet_below (memFilter_wfFrom m _ w.2) (by omega)
      · exact ih w.2

theorem State.byte_cleared_device (s : State) {a : Nat} (h : isHost a = false) : s.cleared.byte a = memReset a := mapGet_filter_out _ _ _ h

theorem State.byte_cleared_host {s : State} (w : s.memOk) {a : Nat} (h : isHost a = true) : s.cleared.byte a = s.byte a :=
  mapGet_filter_in w _ h

/-! ### The images in turn -/

/-- Package `t` is `s` but for its measurement slots. -/
def State.Measured (s t : State) : Prop := t = { s with trust := { s.trust with slots := t.trust.slots } }

theorem State.Measured.refl (s : State) : s.Measured s := rfl

theorem State.Measured.trans {s t r : State} (h : s.Measured t) (k : t.Measured r) : s.Measured r := by
  unfold State.Measured at *
  rw [k, h]

theorem State.Measured.extendSlot (s : State) (n : Nat) (bs : List Byte) : s.Measured (s.extendSlot n bs) := rfl

theorem State.Measured.imageError {s t : State} (h : s.Measured t) (i : BootImage) : t.imageError i = s.imageError i := by
  rw [h]; rfl

theorem State.bootImage_passed {s : State} {i : BootImage} (h : s.imageError i = 0) (slot : Nat) :
    s.bootImage slot (some i) = (let t := s.extendSlot slot (sha256 (i.header ++ i.body))
      if slot = 0 then t.extendSlot 1 (sha256 (t.trust.straps.take 64)) else t, 0) := by
  simp only [State.bootImage, h]

theorem State.bootImage_failed {s : State} {i : BootImage} (h : s.imageError i ≠ 0) (slot : Nat) :
    s.bootImage slot (some i) = (s, s.imageError i) := by
  unfold State.bootImage
  dsimp only
  split
  · exact absurd (by assumption) h
  · rfl

theorem State.Measured.bootImage (s : State) (slot : Nat) (i : Option BootImage) : s.Measured (s.bootImage slot i).1 := by
  unfold State.bootImage
  split
  · exact .refl s
  · split
    · dsimp only
      split <;> rfl
    · exact .refl s

theorem State.Measured.bootImages (l : List (Nat × Option BootImage)) (s : State) : s.Measured (s.bootImages l).1 := by
  induction l generalizing s with
  | nil => exact .refl s
  | cons x l ih =>
    have hx := State.Measured.bootImage s x.1 x.2
    rw [State.bootImages]
    split
    · rename_i t ht
      rw [ht] at hx
      exact hx.trans (ih t)
    · exact hx

/-- The first image that fails stops the boot with its error. -/
theorem State.bootImages_failed {l : List (Nat × Option BootImage)} {s : State} {n slot : Nat} {i : BootImage}
    (hi : l[n]? = some (slot, some i)) (hbefore : ∀ k < n, ∃ slot j, l[k]? = some (slot, some j) ∧ s.imageError j = 0)
    (he : s.imageError i ≠ 0) : (s.bootImages l).2 = s.imageError i := by
  induction l generalizing s n with
  | nil => cases hi
  | cons x l ih =>
    cases n with
    | zero =>
      cases hi
      rw [State.bootImages, State.bootImage_failed he]
      split
      · rename_i heq
        exact absurd (congrArg Prod.snd heq) he
      · rfl
    | succ n =>
      obtain ⟨slot0, j, hj, hpass⟩ := hbefore 0 (by omega)
      cases hj
      have hm := State.Measured.bootImage s slot0 (some j)
      rw [State.bootImages, State.bootImage_passed hpass]
      rw [State.bootImage_passed hpass] at hm
      dsimp only at hm ⊢
      rw [← hm.imageError i]
      refine ih hi (fun k hk => ?_) (by rw [hm.imageError]; exact he)
      obtain ⟨slotk, jk, hjk, hpk⟩ := hbefore (k + 1) (by omega)
      exact ⟨slotk, jk, hjk, by rw [hm.imageError]; exact hpk⟩

@[simp] theorem State.imageError_extendSlot (s : State) (n : Nat) (bs : List Byte) (i : BootImage) :
    (s.extendSlot n bs).imageError i = s.imageError i := rfl

/-- The measurement of a slot that held zero. -/
def firstMeasure (bs : List Byte) : BitVec 256 := BitVec.ofNat 256 (leNat (sha256 (natLe 32 0 ++ bs)))

/-- Reading a slot after an extension, where the slot extended held zero. -/
theorem State.slot_extendSlot {s : State} {n : Nat} (h : mapGet 0 s.trust.slots n = 0) (bs : List Byte) (m : Nat) :
    mapGet 0 (s.extendSlot n bs).trust.slots m = if m = n then firstMeasure bs else mapGet 0 s.trust.slots m := by
  have hz : s.slotBytes n = natLe 32 0 := by rw [State.slotBytes, h]; rfl
  simp only [State.extendSlot, hz, mapGet_mapPut, firstMeasure]

/-- The package at the start of a boot: no slot holds a measurement. -/
def State.bootStart (s : State) : State := { s with trust := { s.trust with slots := [], stage := 0, err := 0, retry := false } }

/-- The slots of the images of a boot. -/
def bootList (images : List BootImage) : List (Nat × Option BootImage) :=
  ([0, 2, 3, 4, 5, 6].zipIdx).map fun x => (x.1, images[x.2]?)

theorem State.boot_eq (s : State) (images : List BootImage) :
    s.boot images =
      if !s.trust.selfTest then { s.bootStart with trust := { s.bootStart.trust with stage := 15, err := 4 } }
      else match s.bootStart.bootImages (bootList images) with
        | (t, 0) => { t.extendSlot 7 (sha256 (svnList images)) with
            trust := { (t.extendSlot 7 (sha256 (svnList images))).trust with stage := 3 }, power := { t.power with stopped := false }
            doe := { t.doe with queued := true } }
        | (t, e) => { t with trust := { t.trust with stage := 15, err := e } } := rfl

theorem State.boot_untested {s : State} (h : s.trust.selfTest = false) (images : List BootImage) :
    s.boot images = { s.bootStart with trust := { s.bootStart.trust with stage := 15, err := 4 } } := by
  rw [State.boot_eq, h]; rfl

theorem State.boot_passed {s t : State} (h : s.trust.selfTest = true) {images : List BootImage}
    (ht : s.bootStart.bootImages (bootList images) = (t, 0)) :
    s.boot images = { t.extendSlot 7 (sha256 (svnList images)) with
      trust := { (t.extendSlot 7 (sha256 (svnList images))).trust with stage := 3 }, power := { t.power with stopped := false }
      doe := { t.doe with queued := true } } := by
  rw [State.boot_eq, h, ht]; rfl

theorem State.boot_failed {s t : State} {e : Nat} (h : s.trust.selfTest = true) {images : List BootImage}
    (ht : s.bootStart.bootImages (bootList images) = (t, e)) (he : e ≠ 0) :
    s.boot images = { t with trust := { t.trust with stage := 15, err := e } } := by
  rw [State.boot_eq, h, ht, Bool.not_true, if_neg Bool.false_ne_true]
  split
  · rename_i heq
    exact absurd (congrArg Prod.snd heq) he
  · rename_i heq
    cases heq; rfl

theorem bootList_getElem {images : List BootImage} {k : Nat} {i : BootImage} (hk : k < 6) (h : images[k]? = some i) :
    ∃ slot, (bootList images)[k]? = some (slot, some i) := by
  match k, hk with
  | 0, _ | 1, _ | 2, _ | 3, _ | 4, _ | 5, _ => exact ⟨_, by rw [← h]; rfl⟩

theorem State.fromRecovery_iff (s : State) (images : List BootImage) :
    s.fromRecovery images = true ↔ ∃ i ∈ images.take 6, i.header.length = 64 ∧ s.holdsImage s.trust.recov.toNat i = true := by
  simp only [State.fromRecovery, List.any_eq_true, Bool.and_eq_true, beq_iff_eq]

/-- What a boot changes. -/
theorem State.boot_only (s : State) (images : List BootImage) :
    ∃ a b c d e f, s.boot images = { s with trust := { s.trust with slots := a, stage := b, err := c, retry := d }
                                            power := { s.power with stopped := e }, doe := { s.doe with queued := f } } := by
  cases h : s.trust.selfTest with
  | false => rw [State.boot_untested h]; exact ⟨_, _, _, _, _, _, rfl⟩
  | true =>
    obtain ⟨⟨t, e⟩, hr⟩ : ∃ r, s.bootStart.bootImages (bootList images) = r := ⟨_, rfl⟩
    have hm : t = { s.bootStart with trust := { s.bootStart.trust with slots := t.trust.slots } } := by
      have h := State.Measured.bootImages (bootList images) s.bootStart
      rw [hr] at h
      exact h
    by_cases he : e = 0
    · subst he
      rw [State.boot_passed h hr, hm]; exact ⟨_, _, _, _, _, _, rfl⟩
    · rw [State.boot_failed h hr he, hm]; exact ⟨_, _, _, _, _, _, rfl⟩

/-- A boot whose images pass starts the package, with one more measurement than the images left. -/
theorem State.boot_passed_fields {s t : State} (h : s.trust.selfTest = true) {images : List BootImage}
    (ht : s.bootStart.bootImages (bootList images) = (t, 0)) :
    (s.boot images).trust.stage = 3 ∧ (s.boot images).trust.err = 0 ∧ (s.boot images).doe.queued = true ∧
      (s.boot images).trust.slots = (t.extendSlot 7 (sha256 (svnList images))).trust.slots := by
  have hm : t = { s.bootStart with trust := { s.bootStart.trust with slots := t.trust.slots } } := by
    have h := State.Measured.bootImages (bootList images) s.bootStart
    rw [ht] at h
    exact h
  have herr : t.trust.err = 0 := by rw [hm]; rfl
  rw [State.boot_passed h ht]
  exact ⟨rfl, herr, rfl, rfl⟩

/-- Extensions of the slots 0 to 7 in turn, from slots that hold nothing. -/
theorem State.slots_extended {s : State} (h : s.trust.slots = []) (x0 x1 x2 x3 x4 x5 x6 x7 : List Byte) (m : Nat) :
    mapGet 0 ((((((((s.extendSlot 0 x0).extendSlot 1 x1).extendSlot 2 x2).extendSlot 3 x3).extendSlot 4 x4).extendSlot 5 x5).extendSlot 6
      x6).extendSlot 7 x7).trust.slots m = (([x0, x1, x2, x3, x4, x5, x6, x7][m]?).map firstMeasure).getD 0 := by
  have e0 := State.slot_extendSlot (s := s) (n := 0) (by rw [h]; rfl) x0
  have e1 := State.slot_extendSlot (n := 1) (by rw [e0, h]; rfl) x1
  have e2 := State.slot_extendSlot (n := 2) (by rw [e1, e0, h]; rfl) x2
  have e3 := State.slot_extendSlot (n := 3) (by rw [e2, e1, e0, h]; rfl) x3
  have e4 := State.slot_extendSlot (n := 4) (by rw [e3, e2, e1, e0, h]; rfl) x4
  have e5 := State.slot_extendSlot (n := 5) (by rw [e4, e3, e2, e1, e0, h]; rfl) x5
  have e6 := State.slot_extendSlot (n := 6) (by rw [e5, e4, e3, e2, e1, e0, h]; rfl) x6
  have e7 := State.slot_extendSlot (n := 7) (by rw [e6, e5, e4, e3, e2, e1, e0, h]; rfl) x7
  rw [e7, e6, e5, e4, e3, e2, e1, e0, h]
  match m with
  | 0 | 1 | 2 | 3 | 4 | 5 | 6 | 7 => rfl
  | m + 8 => rw [if_neg, if_neg, if_neg, if_neg, if_neg, if_neg, if_neg, if_neg] <;> [rfl; omega; omega; omega; omega; omega; omega; omega; omega]

/-- Six images that pass: the measurements of their slots, of the fuses and straps, and nothing else. -/
theorem State.bootImages_six (s : State) {i0 i1 i2 i3 i4 i5 : BootImage} (h0 : s.imageError i0 = 0) (h1 : s.imageError i1 = 0)
    (h2 : s.imageError i2 = 0) (h3 : s.imageError i3 = 0) (h4 : s.imageError i4 = 0) (h5 : s.imageError i5 = 0) :
    s.bootImages (bootList [i0, i1, i2, i3, i4, i5]) =
      ((((((((s.extendSlot 0 (sha256 (i0.header ++ i0.body))).extendSlot 1 (sha256 (s.trust.straps.take 64))).extendSlot 2
        (sha256 (i1.header ++ i1.body))).extendSlot 3 (sha256 (i2.header ++ i2.body))).extendSlot 4 (sha256 (i3.header ++ i3.body))).extendSlot 5
        (sha256 (i4.header ++ i4.body))).extendSlot 6 (sha256 (i5.header ++ i5.body))), 0) := by
  have hlist : bootList [i0, i1, i2, i3, i4, i5] = [(0, some i0), (2, some i1), (3, some i2), (4, some i3), (5, some i4), (6, some i5)] := rfl
  rw [hlist]
  simp only [State.bootImages, State.bootImage, ↓reduceIte, OfNat.ofNat_ne_zero, State.imageError_extendSlot, h0, h1, h2, h3, h4, h5]
  rfl

end Sys2Proof.Machine

open Sys2Proof Sys2Proof.Machine

/-- Settles O55: a reset clears the package and boots it, image after image. -/
theorem boot : Obligations.Boot := by
  intro s cleared ext booted verified
  have hext : ∀ d, ext 0 d = firstMeasure d := fun _ => rfl
  have hbooted : ∀ (r : State) (images : List BootImage), r.trust.fuseKeys = s.trust.fuseKeys → r.trust.fuseSvn = s.trust.fuseSvn →
      r.trust.straps = s.trust.straps → r.trust.selfTest = true → verified images → booted images (r.boot images) := by
    rintro r images hk hs hst hself ⟨hlen, hall⟩
    have herr : ∀ i, r.bootStart.imageError i = s.imageError i := fun i => by
      unfold State.imageError State.imageSigned
      rw [show r.bootStart.trust.fuseKeys = s.trust.fuseKeys from hk, show r.bootStart.trust.fuseSvn = s.trust.fuseSvn from hs]
    obtain ⟨i0, i1, i2, i3, i4, i5, rfl⟩ : ∃ i0 i1 i2 i3 i4 i5, images = [i0, i1, i2, i3, i4, i5] := by
      match images, hlen with
      | [i0, i1, i2, i3, i4, i5], _ => exact ⟨i0, i1, i2, i3, i4, i5, rfl⟩
    have hpass : ∀ i ∈ [i0, i1, i2, i3, i4, i5], r.bootStart.imageError i = 0 := fun i hi => (herr i).trans (hall i hi)
    obtain ⟨hstage, herr0, hqueued, hsl⟩ := State.boot_passed_fields hself (State.bootImages_six _ (hpass i0 (by simp)) (hpass i1 (by simp))
      (hpass i2 (by simp)) (hpass i3 (by simp)) (hpass i4 (by simp)) (hpass i5 (by simp)))
    have hslots := State.slots_extended (s := r.bootStart) rfl (sha256 (i0.header ++ i0.body)) (sha256 (r.bootStart.trust.straps.take 64))
      (sha256 (i1.header ++ i1.body)) (sha256 (i2.header ++ i2.body)) (sha256 (i3.header ++ i3.body)) (sha256 (i4.header ++ i4.body))
      (sha256 (i5.header ++ i5.body)) (sha256 (svnList [i0, i1, i2, i3, i4, i5]))
    rw [← hsl] at hslots
    refine ⟨hstage, herr0, hqueued, fun k i hk hi => (hslots _).trans ?_, (hslots 1).trans ?_, (hslots 7).trans (hext _).symm, fun n hn => (hslots n).trans ?_⟩
    · match k, hk with
      | 0, _ | 1, _ | 2, _ | 3, _ | 4, _ | 5, _ => cases hi; exact (hext _).symm
    · rw [show r.bootStart.trust.straps = s.trust.straps from hst]
      exact (hext _).symm
    · rw [List.getElem?_eq_none (by simpa using hn)]; rfl
  have hcleared : ∀ t : State, t.mem = s.cleared.mem → t.waves = [] → t.cohorts = [] → t.cores = [] → t.dies = [] → t.fabric = Fabric.reset →
      t.sched = Sched.reset → t.snap = Snap.reset → t.poison = [] → t.fempty = [] → t.trust.worlds = [] → t.trust.ifaces = [] →
      t.trust.keys = [] → t.power.temp = 0 → t.lpddr = s.lpddr → cleared t :=
    fun t hmem h1 h2 h3 h4 h5 h6 h7 h8 h9 h10 h11 h12 h13 h14 => ⟨h1, h2, h3, h4, h5, h6, h7, h8, h9, h10, h11, h12, h13, h14,
      fun a ha => (State.byte_of_mem hmem a).trans (s.byte_cleared_device ha),
      fun w a ha => (State.byte_of_mem hmem a).trans (State.byte_cleared_host w ha)⟩
  refine ⟨fun images => ⟨_, rfl, ?_, ?_, fun h => ?_, fun h hv => ?_, fun n i h hn hi hbefore he => ?_⟩, fun images h => ?_, fun images hst hre hrec h hv => ⟨_, ?_, ?_, hbooted s images rfl rfl rfl h hv⟩,
    ⟨_, rfl, hcleared _ rfl rfl rfl rfl rfl rfl rfl rfl rfl rfl rfl rfl rfl rfl rfl, rfl⟩, ?_, ?_, fun hn hl => ⟨_, rfl, ?_⟩⟩
  · obtain ⟨a, b, c, d, e, f, hb⟩ := s.cleared.boot_only images
    rw [hb]
    exact hcleared _ rfl rfl rfl rfl rfl rfl rfl rfl rfl rfl rfl rfl rfl rfl rfl
  · obtain ⟨a, b, c, d, e, f, hb⟩ := s.cleared.boot_only images
    rw [hb]; rfl
  · rw [State.boot_untested (s := s.cleared) h]; exact ⟨rfl, rfl⟩
  · exact hbooted s.cleared images rfl rfl rfl h hv
  · have hbefore' : ∀ k < n, ∃ slot j, (bootList images)[k]? = some (slot, some j) ∧ s.cleared.bootStart.imageError j = 0 := by
      intro k hk
      have hlen : k < images.length := hk.trans (List.getElem?_eq_some_iff.1 hi).1
      obtain ⟨slot, hslot⟩ := bootList_getElem (images := images) (hk.trans hn) (List.getElem?_eq_getElem hlen)
      exact ⟨slot, _, hslot, hbefore k _ hk (List.getElem?_eq_getElem hlen)⟩
    obtain ⟨slot, hslot⟩ := bootList_getElem hn hi
    have herr := State.bootImages_failed hslot hbefore' he
    rw [State.boot_failed (s := s.cleared) (t := (s.cleared.bootStart.bootImages (bootList images)).1) (e := s.imageError i) h
      (Prod.ext rfl herr) he]
    exact ⟨rfl, rfl⟩
  · refine congrArg Host.Outcome.next (if_neg fun hc => ?_)
    simp only [Bool.and_eq_true, decide_eq_true_eq] at hc
    obtain ⟨⟨hst, hre⟩, hrec⟩ := hc
    rcases h with h | h | h
    · exact h hst
    · rw [h] at hre; cases hre
    · obtain ⟨i, hi, hl, hh⟩ := (s.fromRecovery_iff images).1 hrec
      rw [h i hi hl] at hh; cases hh
  · refine congrArg Host.Outcome.next (if_pos ?_)
    simp only [Bool.and_eq_true, decide_eq_true_eq]
    exact ⟨⟨hst, hre⟩, (s.fromRecovery_iff images).2 hrec⟩
  · obtain ⟨a, b, c, d, e, f, hb⟩ := s.boot_only images
    rw [hb]
    exact fun _ => rfl
  · exact fun h => congrArg Host.Outcome.next (if_neg (by rw [h]; exact Bool.false_ne_true))
  · refine fun h => ⟨_, congrArg Host.Outcome.next (if_pos h), ?_⟩
    exact (State.queue_updQueue _ _ _ _).trans (if_pos rfl)
  · exact State.cancelQueue_cancels hn hl
end

section
/-! SUPPORT. Reading back what a write at a home slice has stored, and words as their bytes. -/

set_option Elab.async false

namespace Sys2Proof.Machine

/-! ### Words and bytes -/

@[simp] theorem length_natLe (n v : Nat) : (natLe n v).length = n := by
  induction n generalizing v with
  | zero => rfl
  | succ n ih => simp [natLe, ih]

theorem leNat_natLe (n v : Nat) : leNat (natLe n v) = v % 256 ^ n := by
  induction n generalizing v with
  | zero => simp [natLe, leNat, Nat.mod_one]
  | succ n ih =>
    simp only [natLe, leNat, ih, BitVec.toNat_ofNat]
    rw [Nat.pow_succ' (m := 256), Nat.mod_mul]

theorem map_nth_range {α : Type} (d : α) (l : List α) : (List.range l.length).map (nth d l) = l := by
  refine List.ext_getElem (by simp) fun i h1 h2 => ?_
  simp [nth, List.getElem?_eq_getElem h2]

/-! ### Ranges of memory -/

theorem State.bytes_congr {s t : State} {pa n : Nat} (h : ∀ i < n, t.byte (pa + i) = s.byte (pa + i)) : t.bytes pa n = s.bytes pa n :=
  List.map_congr_left fun _ hi => h _ (List.mem_range.1 hi)

theorem State.read_congr {s t : State} {pa n : Nat} (h : ∀ i < n, t.byte (pa + i) = s.byte (pa + i)) : t.read pa n = s.read pa n :=
  congrArg leNat (State.bytes_congr h)

theorem State.bytes_of_mem {s t : State} (h : t.mem = s.mem) (pa n : Nat) : t.bytes pa n = s.bytes pa n :=
  State.bytes_congr fun _ _ => State.byte_of_mem h _

theorem State.read_of_mem {s t : State} (h : t.mem = s.mem) (pa n : Nat) : t.read pa n = s.read pa n :=
  congrArg leNat (State.bytes_of_mem h pa n)

theorem State.byte_poke_in (s : State) (pa : Nat) (bs : List Byte) (writer : Option Nat) {i : Nat} (hi : i < bs.length) :
    (s.poke pa bs writer).byte (pa + i) = nth 0 bs i := by
  rw [State.byte_poke, if_pos (by omega), Nat.add_sub_cancel_left]

theorem State.byte_poke_out (s : State) {pa : Nat} {bs : List Byte} (writer : Option Nat) {a : Nat} (h : a < pa ∨ pa + bs.length ≤ a) :
    (s.poke pa bs writer).byte a = s.byte a := by
  rw [State.byte_poke, if_neg (by omega)]

/-- What was written reads back. -/
theorem State.bytes_poke_self (s : State) (pa : Nat) (bs : List Byte) (writer : Option Nat) :
    (s.poke pa bs writer).bytes pa bs.length = bs := by
  rw [State.bytes, List.map_congr_left fun i hi => s.byte_poke_in pa bs writer (List.mem_range.1 hi)]
  exact map_nth_range 0 bs

theorem State.bytes_poke_out (s : State) {pa : Nat} {bs : List Byte} (writer : Option Nat) {a n : Nat} (h : a + n ≤ pa ∨ pa + bs.length ≤ a) :
    (s.poke pa bs writer).bytes a n = s.bytes a n :=
  State.bytes_congr fun i hi => s.byte_poke_out writer (by omega)

theorem State.read_poke_self (s : State) (pa n v : Nat) (writer : Option Nat) : (s.poke pa (natLe n v) writer).read pa n = v % 256 ^ n := by
  have h := s.bytes_poke_self pa (natLe n v) writer
  rw [length_natLe] at h
  rw [State.read, h, leNat_natLe]

theorem State.read_poke_out (s : State) {pa : Nat} {bs : List Byte} (writer : Option Nat) {a n : Nat} (h : a + n ≤ pa ∨ pa + bs.length ≤ a) :
    (s.poke pa bs writer).read a n = s.read a n :=
  congrArg leNat (s.bytes_poke_out writer h)

/-! ### Accesses by physical address -/

theorem State.physBytes_of_backed {s : State} {pa n : Nat} (h : ∀ i < n, s.isDevice (pa + i) = true ∨ isHost (pa + i) = true) :
    s.physBytes pa n = s.bytes pa n :=
  List.map_congr_left fun i hi => if_pos (by simpa only [Bool.or_eq_true] using h i (List.mem_range.1 hi))

theorem State.physDone_of_backed {s : State} {pa n : Nat} (h : s.backedMem pa n = true) : s.physDone pa n = s := if_pos h

theorem State.backedMem_congr {s t : State} (h : t.lpddr = s.lpddr) (pa n : Nat) : t.backedMem pa n = s.backedMem pa n := by
  simp only [State.backedMem, State.isDevice, h]

/-- Where every range from an address up to a length ends in memory, every byte of it is memory. -/
theorem State.backed_bytes {s : State} {pa m : Nat} (h : ∀ n ≤ m, s.backedMem pa n = true) {i : Nat} (hi : i < m) :
    s.isDevice (pa + i) = true ∨ isHost (pa + i) = true := by
  have hb := h (i + 1) hi
  simp only [State.backedMem, Bool.and_eq_true, Bool.or_eq_true, beq_iff_eq] at hb
  obtain ⟨-, hb⟩ := hb
  rcases hb with hb | hb
  · omega
  · exact hb

/-! ### The mailbox -/

/-- A responder that the mailbox's buffer and memory let answer: what `replies` says, without what the responder then changes. -/
structure State.CanReply (s : State) : Prop where
  busy : s.doe.busy = true
  listening : s.doe.aborted = false
  alone : s.doe.waiting = []
  still : s.Still
  backed : ∀ n ≤ 16384, s.backedMem s.doe.rs n = true

/-- The package after a response, before the extensions that waited for it. -/
def State.delivered (s : State) (r : List Byte) : State :=
  { s.poke s.doe.rs r none with doe := { s.doe with busy := false, aborted := false, answers := s.doe.answers ++ [r] } }

theorem State.runExtensions_measured (s : State) :
    s.runExtensions = { s with trust := { s.trust with slots := s.runExtensions.trust.slots, extensions := [] } } := by
  have hm : ∀ (l : List (Nat × List Byte)) (r : State), r.Measured (l.foldl (fun s x => s.extendSlot x.1 x.2) r) := fun l r =>
    foldl_keeps r.Measured _ (fun t x ht => ht.trans (.extendSlot t x.1 x.2)) l r (.refl r)
  unfold State.runExtensions
  dsimp only
  rw [hm s.trust.extensions s]

/-- A write to DOERSP while no other request waits. -/
theorem State.respond_alone {t : State} (hbusy : t.doe.busy = true) (hab : t.doe.aborted = false) (hw : t.doe.waiting = []) {len n : Nat}
    (hn : min (len % 65536) 16384 = n) (hdone : t.physDone t.doe.rs n = t) :
    t.respond len = .next (State.runExtensions { t with
      doe := { t.doe with busy := false, aborted := false, answers := t.doe.answers ++ [t.physBytes t.doe.rs n] } }) := by
  unfold State.respond
  dsimp only
  rw [hn, hdone, hbusy, hab, Bool.not_true, if_neg Bool.false_ne_true, if_neg Bool.false_ne_true]
  split
  · rfl
  · rename_i heq
    rw [State.runExtensions_measured] at heq
    exact absurd (hw.symm.trans heq) (List.cons_ne_nil _ _).symm

/-- The response reaches the host; then the extensions that waited are made. -/
theorem State.CanReply.reply {s : State} (h : s.CanReply) {r : List Byte} (hr : r.length ≤ 16384) :
    s.reply r = .next (s.delivered r).runExtensions := by
  have hw : s.physWrite s.doe.rs r = s.poke s.doe.rs r none := (if_pos (h.backed _ hr)).trans (h.still.writeHome _ _ _)
  have hdoe : (s.poke s.doe.rs r none).doe = s.doe := State.poke_doe ..
  have hb : (s.poke s.doe.rs r none).backedMem s.doe.rs r.length = true :=
    (State.backedMem_congr (State.poke_lpddr ..) _ _).trans (h.backed _ hr)
  have hread : (s.poke s.doe.rs r none).physBytes s.doe.rs r.length = r := by
    rw [State.physBytes_of_backed, State.bytes_poke_self]
    intro i hi
    have := State.backed_bytes h.backed (hi.trans_le hr)
    simpa only [State.isDevice, State.poke_lpddr] using this
  rw [State.reply, hw, State.respond_alone (n := r.length)]
  · rw [hdoe, hread]; rfl
  · rw [hdoe]; exact h.busy
  · rw [hdoe]; exact h.listening
  · rw [hdoe]; exact h.alone
  · omega
  · rw [hdoe]; exact State.physDone_of_backed hb

/-! ### Vendor-defined requests -/

theorem State.replies.canReply {s : State} (h : s.replies) : s.CanReply ∧ s.trust.extensions = [] := by
  obtain ⟨hbusy, hab, hw, hext, hstill, hback⟩ := h
  exact ⟨⟨hbusy, hab, hw, s.still_iff.1 hstill, fun n hn => (hback n hn).1⟩, hext⟩

/-- A change of the trust core's records alone. -/
def State.OnlyTrust (s t : State) : Prop := t = { s with trust := t.trust }

theorem State.OnlyTrust.refl (s : State) : s.OnlyTrust s := rfl

theorem State.OnlyTrust.trans {s t r : State} (h : s.OnlyTrust t) (k : t.OnlyTrust r) : s.OnlyTrust r := by
  unfold State.OnlyTrust at *
  rw [k, h]

theorem State.OnlyTrust.foldl {α : Type} {f : State → α → State} (h : ∀ (s : State) a, s.OnlyTrust (f s a)) (l : List α) (s : State) :
    s.OnlyTrust (l.foldl f s) :=
  foldl_keeps s.OnlyTrust f (fun t a ht => ht.trans (h t a)) l s (.refl s)

theorem State.OnlyTrust.runExtensions (s : State) : s.OnlyTrust s.runExtensions := by
  rw [State.OnlyTrust, State.runExtensions_measured]

theorem State.runExtensions_trust_congr {s t : State} (h : t.trust = s.trust) : t.runExtensions.trust = s.runExtensions.trust := by
  have key : ∀ (l : List (Nat × List Byte)) (a b : State), b.trust = a.trust →
      (l.foldl (fun s x => s.extendSlot x.1 x.2) b).trust = (l.foldl (fun s x => s.extendSlot x.1 x.2) a).trust := by
    intro l
    induction l with
    | nil => exact fun _ _ h => h
    | cons x l ih => exact fun a b h => ih _ _ (by simp only [State.extendSlot, State.slotBytes, h])
  unfold State.runExtensions
  dsimp only
  rw [h, key _ _ _ h]

/-- What a request changes of the trust core's records leaves the responder able to answer. -/
theorem State.CanReply.onlyTrust {s t : State} (h : s.CanReply) (k : s.OnlyTrust t) : t.CanReply := by
  rw [k]
  exact ⟨h.busy, h.listening, h.alone, ⟨h.still.unlocked, h.still.unmarked, h.still.unarmed, h.still.noWatch, h.still.unwatched⟩, h.backed⟩

theorem State.CanReply.clearDoerq {s : State} (h : s.CanReply) : s.clearDoerq.CanReply :=
  ⟨h.busy, h.listening, h.alone, ⟨h.still.unlocked, h.still.unmarked, h.still.unarmed, h.still.noWatch, h.still.unwatched⟩, h.backed⟩

/-- The host has a response, no request is being answered, and of the trust core's records those that wait for it have been made. -/
theorem State.CanReply.reply_sent {s : State} (h : s.CanReply) {r : List Byte} (hr : r.length ≤ 16384) :
    ∃ t, s.reply r = .next t ∧ t.doe = { s.doe with busy := false, aborted := false, answers := s.doe.answers ++ [r] } ∧
      t.trust = s.runExtensions.trust ∧ t.mem = (s.poke s.doe.rs r none).mem := by
  refine ⟨_, h.reply hr, ?_, ?_, ?_⟩
  · rw [State.OnlyTrust.runExtensions]; rfl
  · exact State.runExtensions_trust_congr (State.poke_trust ..)
  · rw [State.OnlyTrust.runExtensions]; rfl

/-- A vendor-defined request before a CHALLENGE is refused. -/
theorem State.vendor_unexpected {s : State} (ha : s.answers = true) (hv : s.isVendor = true) (hst : s.trust.stage = 3) (h0 : s.rqByte 0 = 0x13)
    (hc : s.doe.challenged = false) (act : List Byte → State → List Byte × State) : s.vendor act = s.clearDoerq.reply (spdmError 4) := by
  unfold State.vendor
  rw [if_neg (by simp [ha, hv])]
  dsimp only
  rw [if_neg (show ¬s.clearDoerq.trust.stage = 15 by rw [show s.clearDoerq.trust.stage = 3 from hst]; decide),
    if_neg (not_not_intro (show s.clearDoerq.rqByte 0 = 0x13 from h0)), if_pos (show (!s.clearDoerq.doe.challenged) = true by
      rw [show s.clearDoerq.doe.challenged = false from hc]; rfl)]

/-- A vendor-defined request after a CHALLENGE has its effect and is answered. -/
theorem State.vendor_accepted {s : State} (ha : s.answers = true) (hv : s.isVendor = true) (hst : s.trust.stage = 3) (h0 : s.rqByte 0 = 0x13)
    (hc : s.doe.challenged = true) (act : List Byte → State → List Byte × State) :
    s.vendor act = (act s.request s.clearDoerq).2.reply ((Config.vendorResponse s.request ++ (act s.request s.clearDoerq).1).take 16384) := by
  unfold State.vendor
  rw [if_neg (by simp [ha, hv])]
  dsimp only
  rw [if_neg (show ¬s.clearDoerq.trust.stage = 15 by rw [show s.clearDoerq.trust.stage = 3 from hst]; decide),
    if_neg (not_not_intro (show s.clearDoerq.rqByte 0 = 0x13 from h0)), if_neg (show ¬(!s.clearDoerq.doe.challenged) = true by
      rw [show s.clearDoerq.doe.challenged = true from hc]; decide)]
  rfl

end Sys2Proof.Machine
end

section
/-! SUPPORT. Worlds and their interfaces (R405, R407, R414): what the creation of a world and the start of an interface's clearing change. -/

set_option Elab.async false

namespace Sys2Proof.Machine

/-! ### Worlds -/

theorem State.world_foldl_stop (l : List Nat) (s : State) {m : Nat} (h : m ∈ l) :
    ((l.foldl (fun s n => s.setWorld n { s.world n with state := 2 }) s).world m).state = 2 := by
  have keep : ∀ (l : List Nat) (s : State), (s.world m).state = 2 →
      ((l.foldl (fun s n => s.setWorld n { s.world n with state := 2 }) s).world m).state = 2 := by
    intro l
    refine foldl_keeps (fun s : State => (s.world m).state = 2) _ (fun s n hs => ?_) l
    rw [State.world_setWorld]
    split
    · rfl
    · exact hs
  induction l generalizing s with
  | nil => cases h
  | cons a l ih =>
    rcases List.mem_cons.1 h with rfl | h
    · exact keep l _ (by rw [State.world_setWorld, if_pos rfl])
    · exact ih _ h

/-- The clearing of an interface's worlds begins. -/
theorem State.beginClearing_begins {s : State} {n : Nat} (h : mapFind s.trust.resets n = none) :
    mapFind (s.beginClearing n).trust.resets n = some 1 ∧ ∀ m ∈ s.boundWorlds n, ((s.beginClearing n).world m).state = 2 := by
  rw [State.beginClearing, h]
  refine ⟨?_, fun m hm => State.world_foldl_stop _ s hm⟩
  exact (mapFind_mapInsert _ _ _ _).trans (if_pos rfl)

theorem State.OnlyTrust.beginClearing (s : State) (n : Nat) : s.OnlyTrust (s.beginClearing n) := by
  unfold State.beginClearing
  split
  · exact .refl s
  · exact (State.OnlyTrust.foldl (f := fun s n => s.setWorld n { s.world n with state := 2 }) (fun s a => rfl) _ s).trans rfl

/-- The package with a new world, whose creation record has still to be measured. -/
def State.withWorld (s : State) (iface m : Nat) : State :=
  (s.setWorld m { state := 1, iface := iface, key := Config.worldKey (s.trust.worldsMade + 1), saves := 0, created := s.trust.worldsMade + 1 }).updTrust
    fun t => { t with
      worldsMade := s.trust.worldsMade + 1
      extensions := t.extensions ++ [(8 + m % 8, sha256 (creationRecord m iface (s.trust.worldsMade + 1)))] }

theorem State.createWorld_eq {s : State} {iface m : Nat} (hf : s.freeWorld = some m) (hb : (s.boundWorlds iface).length < 4) :
    s.createWorld iface = if s.doe.busy || s.doe.valid then s.withWorld iface m else (s.withWorld iface m).runExtensions := by
  rw [State.createWorld, hf]
  dsimp only
  rw [if_neg (by omega)]
  rfl

theorem State.createWorld_full {s : State} {iface : Nat} (h : 4 ≤ (s.boundWorlds iface).length) : s.createWorld iface = s := by
  unfold State.createWorld
  split
  · rfl
  · exact if_pos h

/-- Measurements do not touch worlds and interfaces. -/
theorem State.runExtensions_worlds (s : State) : s.runExtensions.trust.worlds = s.trust.worlds := by rw [State.runExtensions_measured]
theorem State.runExtensions_ifaces (s : State) : s.runExtensions.trust.ifaces = s.trust.ifaces := by rw [State.runExtensions_measured]

theorem State.runExtensions_resets (s : State) : s.runExtensions.trust.resets = s.trust.resets := by rw [State.runExtensions_measured]

theorem State.runExtensions_none {s : State} (h : s.trust.extensions = []) : s.runExtensions = s := by
  rw [State.runExtensions, h, List.foldl_nil, ← h]

/-- One measurement that waits is made. -/
theorem State.slot_runExtensions {s : State} {n : Nat} {bs : List Byte} (h : s.trust.extensions = [(n, bs)]) :
    mapGet 0 s.runExtensions.trust.slots n = BitVec.ofNat 256 (leNat (sha256 (s.slotBytes n ++ bs))) := by
  rw [State.runExtensions, h]
  exact mapGet_mapPut_self ..

/-- Every request of the family is a vendor-defined request. -/
theorem exec_vendor (s : State) (n : Nat) : ∀ i ∈ [Instr.ideKmQuery, .ideKmKeyProg, .ideKmKSetGo, .ideKmKSetStop, .tdispGetVersion,
    .tdispGetCapabilities, .lockInterface n, .getDeviceInterfaceReport n, .getDeviceInterfaceState n, .startInterface n, .stopInterface n],
    ∃ act, exec i s = s.vendor act := by
  simp only [List.forall_mem_cons, List.not_mem_nil, false_imp_iff, implies_true, and_true]
  exact ⟨⟨_, show execIdeKmQuery s = _ from rfl⟩, ⟨_, show execIdeKmKeyProg s = _ from rfl⟩, ⟨_, show execIdeKmKSetGo s = _ from rfl⟩, ⟨_, show execIdeKmKSetStop s = _ from rfl⟩, ⟨_, show execTdispGetVersion s = _ from rfl⟩, ⟨_, show execTdispGetCapabilities s = _ from rfl⟩, ⟨_, show execLockInterface n s = _ from rfl⟩, ⟨_, show execGetDeviceInterfaceReport n s = _ from rfl⟩, ⟨_, show execGetDeviceInterfaceState n s = _ from rfl⟩, ⟨_, show execStartInterface n s = _ from rfl⟩, ⟨_, show execStopInterface n s = _ from rfl⟩⟩

end Sys2Proof.Machine

open Sys2Proof Sys2Proof.Machine

/-- Settles O57: before a CHALLENGE every vendor-defined request is refused; after it each has its effect and is answered. -/
theorem interfaceRequests : Obligations.InterfaceRequests := by
  intro s n hrep hans hstage h0 hv q x all does keeps
  obtain ⟨hcan, hext⟩ := State.replies.canReply hrep
  have hrefused : ∀ act, s.doe.challenged = false → ∃ t, s.vendor act = .next t ∧
      t.doe.answers = s.doe.answers ++ [[0x13, 0x7F, 4, 0]] ∧ t.trust = s.trust := by
    intro act hc
    obtain ⟨t, ht, hdoe, htrust, -⟩ := hcan.clearDoerq.reply_sent (r := spdmError 4) (by decide)
    refine ⟨t, (State.vendor_unexpected hans hv hstage h0 hc act).trans ht, by rw [hdoe]; rfl, ?_⟩
    rw [htrust, State.runExtensions_none (s := s.clearDoerq) hext]; rfl
  have hdoes : ∀ act more r, (act q s.clearDoerq) = (more, r) → s.clearDoerq.OnlyTrust r → s.doe.challenged = true → ∃ t, s.vendor act = .next t ∧
      t.doe.answers = s.doe.answers ++ [(Config.vendorResponse q ++ more).take 16384] ∧ t.doe.busy = false ∧ t.trust = r.runExtensions.trust := by
    intro act more r hact honly hc
    obtain ⟨t, ht, hdoe, htrust, -⟩ := (hcan.clearDoerq.onlyTrust honly).reply_sent (r := (Config.vendorResponse q ++ more).take 16384)
      (List.length_take_le _ _)
    have hr : r.doe = s.clearDoerq.doe := by rw [honly]
    refine ⟨t, (State.vendor_accepted hans hv hstage h0 hc act).trans (by rw [hact]; exact ht), ?_, ?_, htrust⟩
    · rw [hdoe, hr]; rfl
    · rw [hdoe]
  have hreads : ∀ act more, (act q s.clearDoerq) = (more, s.clearDoerq) → s.doe.challenged = true → ∃ t, s.vendor act = .next t ∧
      t.doe.answers = s.doe.answers ++ [(Config.vendorResponse q ++ more).take 16384] ∧ t.doe.busy = false ∧ t.trust = s.trust := by
    intro act more hact hc
    obtain ⟨t, ht, ha, hb, htr⟩ := hdoes act more s.clearDoerq hact (.refl _) hc
    exact ⟨t, ht, ha, hb, htr.trans (by rw [State.runExtensions_none (s := s.clearDoerq) hext]; rfl)⟩
  have hsets : ∀ act f, (act q s.clearDoerq) = ([], s.clearDoerq.updTrust f) → (f s.trust).extensions = [] → s.doe.challenged = true → ∃ t, s.vendor act = .next t ∧
      t.doe.answers = s.doe.answers ++ [(Config.vendorResponse q ++ []).take 16384] ∧ t.doe.busy = false ∧ t.trust = f s.trust := by
    intro act f hact hf hc
    obtain ⟨t, ht, ha, hb, htr⟩ := hdoes act [] (s.clearDoerq.updTrust f) hact rfl hc
    exact ⟨t, ht, ha, hb, htr.trans (by rw [State.runExtensions_none (s := s.clearDoerq.updTrust f) hf]; rfl)⟩
  have hquery := hreads (fun _ s => ([], s)) [] rfl
  refine ⟨fun i hi hc => ?_, hquery, hquery, hquery, hreads (fun _ s => (Config.interfaceReport n, s)) _ rfl,
    hreads (fun _ s => ([ifaceCode (s.iface n)], s)) _ rfl,
    hsets (fun q s => ([], s.updTrust fun t => { t with ideKeys := insNat (Config.vendorStream q) t.ideKeys })) _ rfl hext, ?_, ?_,
    fun h hc => ?_, fun m hu hn hres hf hb hc => ?_, fun hl hres hc => ?_, fun h hc => ?_, fun h hc => ?_, fun hu hres hc => ?_⟩
  · obtain ⟨act, hact⟩ := exec_vendor s n i hi
    rw [Happens, hact]
    exact hrefused act hc
  · intro hc
    obtain ⟨t, ht, ha, hb, htr⟩ := hsets (fun q s => ([], s.updTrust fun t =>
      if t.ideKeys.contains (Config.vendorStream q) then { t with ideLive := insNat (Config.vendorStream q) t.ideLive } else t)) _ rfl
      (by split <;> exact hext) hc
    refine ⟨t, ht, ha, hb, htr.trans ?_⟩
    by_cases hx : x ∈ s.trust.ideKeys
    · rw [if_pos (List.contains_iff_mem.2 hx), if_pos hx]
    · rw [if_neg (mt List.contains_iff_mem.1 hx), if_neg hx]
  · intro hc
    obtain ⟨t, ht, ha, hb, htr⟩ := hsets (fun q s => ([], s.updTrust fun t =>
      { t with ideLive := t.ideLive.filter (· != Config.vendorStream q) })) _ rfl hext hc
    refine ⟨t, ht, ha, hb, ?_, by rw [htr]⟩
    rw [htr]
    intro hx
    exact bne_iff_ne.1 (List.mem_filter.1 hx).2 rfl
  · refine hreads (fun _ s => if ifaceOk n && s.iface n == .unlocked && (mapFind s.trust.resets n).isNone then
      ([], (s.setIface n .locked).createWorld n) else ([], s)) [] (if_neg fun hlock => ?_) hc
    simp only [Bool.and_eq_true, ifaceOk, decide_eq_true_eq, beq_iff_eq, Option.isNone_iff_eq_none] at hlock
    obtain ⟨⟨hn, hu⟩, hr⟩ := hlock
    rcases h with h | h | h
    · exact h hu
    · omega
    · exact h hr
  · have hlock : (ifaceOk n && s.clearDoerq.iface n == .unlocked && (mapFind s.clearDoerq.trust.resets n).isNone) = true := by
      simp only [Bool.and_eq_true, ifaceOk, decide_eq_true_eq, beq_iff_eq, Option.isNone_iff_eq_none]
      exact ⟨⟨hn, hu⟩, hres⟩
    have hcreate : (s.clearDoerq.setIface n .locked).createWorld n = (s.clearDoerq.setIface n .locked).withWorld n m := by
      rw [State.createWorld_eq (s := s.clearDoerq.setIface n .locked) hf hb]
      exact if_pos (by rw [show (s.clearDoerq.setIface n .locked).doe.busy = true from hcan.busy]; rfl)
    obtain ⟨t, ht, ha, hb', htr⟩ := hdoes (fun _ s => if ifaceOk n && s.iface n == .unlocked && (mapFind s.trust.resets n).isNone then
      ([], (s.setIface n .locked).createWorld n) else ([], s)) [] ((s.clearDoerq.setIface n .locked).withWorld n m)
      ((if_pos hlock).trans (by rw [hcreate])) rfl hc
    have hw : ∀ k, t.world k = ((s.clearDoerq.setIface n .locked).withWorld n m).world k := fun k => by
      rw [State.world, htr, State.runExtensions_worlds]; rfl
    refine ⟨t, ht, ha, hb', ?_, (hw m).trans ?_, fun k hk => (hw k).trans ?_, ?_⟩
    · rw [State.iface, htr, State.runExtensions_ifaces]
      exact mapGet_mapPut_self ..
    · exact (mapGet_mapPut ..).trans (if_pos rfl)
    · exact (mapGet_mapPut ..).trans (if_neg hk)
    · rw [htr]
      refine State.slot_runExtensions (s := (s.clearDoerq.setIface n .locked).withWorld n m) ?_
      exact congrArg (· ++ _) hext
  · have hrun : s.clearDoerq.iface n = .locked ∧ mapFind s.clearDoerq.trust.resets n = none := ⟨hl, hres⟩
    obtain ⟨t, ht, ha, hb, htr⟩ := hdoes (fun _ s => if s.iface n = .locked ∧ mapFind s.trust.resets n = none then ([], s.setIface n .run) else ([], s))
      [] (s.clearDoerq.setIface n .run) (if_pos hrun) rfl hc
    refine ⟨t, ht, ha, hb, ?_, ?_⟩
    · rw [State.iface, htr, State.runExtensions_ifaces]
      exact mapGet_mapPut_self ..
    · rw [htr, State.runExtensions_worlds]; rfl
  · refine hreads (fun _ s => if s.iface n = .locked ∧ mapFind s.trust.resets n = none then ([], s.setIface n .run) else ([], s)) []
      (if_neg fun hrun => ?_) hc
    exact h.elim (fun h => h hrun.1) fun h => h hrun.2
  · refine hreads (fun _ s => if s.iface n = .unlocked then ([], s) else ([], s.beginClearing n)) [] ?_ hc
    by_cases hu : s.iface n = .unlocked
    · exact if_pos hu
    · refine (if_neg hu).trans ?_
      have hr : mapFind s.clearDoerq.trust.resets n ≠ none := h.resolve_left hu
      rw [State.beginClearing, if_pos (Option.isSome_iff_ne_none.2 hr)]
  · obtain ⟨hbegun, hstopped⟩ := State.beginClearing_begins (s := s.clearDoerq) (n := n) hres
    obtain ⟨t, ht, ha, hb, htr⟩ := hdoes (fun _ s => if s.iface n = .unlocked then ([], s) else ([], s.beginClearing n)) []
      (s.clearDoerq.beginClearing n) (if_neg hu) (.beginClearing _ n) hc
    refine ⟨t, ht, ha, hb, ?_, fun m hm => ?_⟩
    · rw [htr, State.runExtensions_resets]; exact hbegun
    · rw [State.world, htr, State.runExtensions_worlds]
      exact hstopped m hm
end

section
/-! SUPPORT. A package of more LPDDR than the owner table has entries for: two pages of device memory share an owner entry, and the pages of
a world are found by their entries. -/

set_option Elab.async false

namespace Sys2Proof.Machine

/-- A page of device memory behind the two tiers, whose owner entry is another page's too. -/
def farPage : Nat := 0x24000000000

/-- Interface 0's world 2 owns the far page, whose first byte is 1, and the clearing of its worlds has done its second step. -/
def aliasState : State :=
  { State.reset with
    mem := [(ownerPa farPage, 2), (farPage, 1)], lpddr := 2 ^ 42
    trust := { State.reset.trust with worlds := [(2, { World.reset with state := 2, iface := 0 })], resets := [(0, 2)] } }

/-- The far page's first byte after a step. -/
def seenFar (o : Host.Outcome State Fault Refusal) : Option Byte :=
  match o with
  | .next t => some (t.byte farPage)
  | _ => none

end Sys2Proof.Machine

open Sys2Proof Sys2Proof.Machine

/-- Refutes O58: of two pages that share an owner entry the clearing of a world zeroes the one that the entry's place names, and the other
keeps its bytes. -/
theorem not_worldsAndPages : ¬ Obligations.WorldsAndPages := by
  intro h
  obtain ⟨-, -, -, h, -⟩ := h aliasState 0
  obtain ⟨-, h, -⟩ := h 2 (by decide +kernel)
  obtain ⟨t, hx, ht, -⟩ := h rfl (by decide +kernel) (by unfold State.memOk Memory.wf; decide +kernel)
  have hzero := ht farPage (by decide +kernel) (by decide +kernel)
  rw [if_pos (by decide +kernel)] at hzero
  have hseen : seenFar (exec (.functionLevelReset 0) aliasState) = some 0 := by
    rw [hx]
    exact congrArg some hzero.1
  exact absurd hseen (by decide +kernel)
end

section
/-! SUPPORT. A package whose list of cores names core 0 twice: a write that drops the core's only code line brings the second entry to
light. -/

set_option Elab.async false

namespace Sys2Proof.Machine

/-- A store-buffer entry of one byte of host memory. -/
def hostEntry : SbEntry :=
  { id := 0, wave := 0, sector := hostPa / 16, bytes := [(0, 1)], merged := 0, afterSeq := 0, asid := 0, page := 0, world := 0, cow := false }

/-- Core 0 holds the entry and code in its line; behind it stands core 0 once more, with the entry. -/
def shadowedState : State :=
  { State.reset with
    cores := [(0, { Core.reset with sb := [hostEntry], code := [{ line := hostPa / 64, world := 0, bytes := [] }] }),
      (0, { Core.reset with sb := [hostEntry] })] }

/-- The store buffer of core 0 after a step. -/
def seenBuffer (o : Host.Outcome State Fault Refusal) : Option (List SbEntry) :=
  match o with
  | .next t => some (t.core 0).sb
  | _ => none

end Sys2Proof.Machine

open Sys2Proof Sys2Proof.Machine

/-- Refutes O16: where core 0 is listed twice, the entry that has drained stands in the core's store buffer again. -/
theorem not_stores : ¬ Obligations.Stores := by
  rintro ⟨-, h, -⟩
  obtain ⟨t, hx, -, hgone⟩ := h shadowedState 0 hostEntry (by decide +kernel) (by decide +kernel) (by decide +kernel) (by decide) (by decide)
    (fun v hv => nomatch (show none = some v from hv)) (by decide +kernel)
  have hseen : seenBuffer (exec (.storeBufferDrain 0 0) shadowedState) = some (t.core 0).sb := by
    rw [show exec (.storeBufferDrain 0 0) shadowedState = .next t from hx]; rfl
  have hdrained : seenBuffer (exec (.storeBufferDrain 0 0) shadowedState) = some [hostEntry] := by decide +kernel
  rw [hdrained, Option.some.injEq] at hseen
  exact hgone hostEntry (hseen ▸ List.mem_singleton_self _) rfl
end

section
/-! SUPPORT. SETS, ERET and traps (R243, R326, R327, R378 to R381): what they leave of the wave. -/

set_option Elab.async false

namespace Sys2Proof.Machine

/-! ### Bits of debug control -/

theorem BitVec.and_merge {n : Nat} (v d m : BitVec n) : (v &&& ~~~m ||| d &&& v &&& m) ||| v &&& m &&& ~~~d = v := by
  ext i hi
  simp only [BitVec.getElem_or, BitVec.getElem_and, BitVec.getElem_not]
  cases v[i] <;> cases d[i] <;> cases m[i] <;> rfl

theorem BitVec.and_merge_low {n : Nat} (v d m : BitVec n) : (v &&& ~~~m ||| d &&& v &&& m) &&& m = d &&& v &&& m := by
  ext i hi
  simp only [BitVec.getElem_or, BitVec.getElem_and, BitVec.getElem_not]
  cases v[i] <;> cases d[i] <;> cases m[i] <;> rfl

theorem ofNat_low57 (v : DWord) : BitVec.ofNat 64 (fld v.toNat 56 0) = v &&& 0x1FFFFFFFFFFFFFF := by
  apply BitVec.eq_of_toNat_eq
  rw [BitVec.toNat_and, show (0x1FFFFFFFFFFFFFF : DWord).toNat = 2 ^ 57 - 1 from rfl, Nat.and_two_pow_sub_one_eq_mod, BitVec.toNat_ofNat]
  simp only [fld]
  omega

/-! ### SETS -/

section
variable {s : State} {u : Nat} {w : Wave} {f : EF}

theorem ctlBits_low8 (f : EF) : ctlBits f 7 0 = f.ctl.toNat % 256 := by
  simp [ctlBits]

theorem op_of_encE {i : Instr} {op : BitVec 8} {f : EF} (h : encode i = some (encE op f)) : Instr.op i = op.toNat := by
  simp [Instr.op, h, opcodeOf_encE]

theorem closesRegion_sets (w : Wave) (f : EF) : closesRegion w (Instr.op (.sets f)) = false := by
  rw [op_of_encE rfl]; rfl

/-- A SETS that writes its wave alone completes with that wave. -/
theorem Issues.sets_wave (h : Issues s u w (.sets f)) {x : Wave} (hcore : x.core = w.core) {body : Body}
    (hx : exec (.sets f) s = runInstr (.sets f) body s)
    (hb : body (s.setWave u w.readied) u w.readied = .done ((s.setWave u w.readied).setWave u x)) :
    Completes s u w (.sets f) { x with
      pc := w.pc + 8, clause := x.clause.after, late := x.late.map (fun l => { l with window := l.window - 1 }), prog := Progress.none,
      xl := [], xfail := [], tr := { x.tr with bpSkip := false } } := by
  rw [State.setWave_setWave] at hb
  have hd := h.completes_done hx hb hcore
  rw [closesRegion_sets, Wave.completed_eq] at hd
  exact hd

/-! #### The package's grid registers -/

theorem State.cancelTriggers_of_none {s : State} (h : ∀ d ∈ s.dies, d.2.triggers = []) (p : Trigger → Bool) : s.cancelTriggers p = s := by
  have hnone : (s.dies.flatMap fun d => (d.2.triggers.filter fun t => p t && !t.fired).map fun t => (d.1, t)) = [] :=
    List.flatMap_eq_nil_iff.2 fun d hd => by rw [h d hd]; rfl
  rw [State.cancelTriggers, hnone]
  rfl

/-- A write of a grid register begins by numbering itself. -/
def Wave.gridWriter (w : Wave) (ids : Nat) : Wave :=
  if w.prog.stage = 1 then w else { w with prog := { w.prog with stage := 1, x := ids + 1 } }

theorem setGrid_done {ok : State → Bool} {illegal : State → Act} {put : State → State} {t : State} {x : Wave} (hok : ok t = true)
    (hq : t.gridQuiet (if x.prog.stage = 1 then x.prog.x else t.ids + 1) = true) (hput : ∀ r : State, (put r).dies = r.dies)
    (ht : ∀ d ∈ t.dies, d.2.triggers = []) :
    setGrid ok illegal put t u x = .done (put (({ t with ids := max t.ids (x.gridWriter t.ids).prog.x } : State).setWave u (x.gridWriter t.ids))) := by
  have hx : (x.gridWriter t.ids).prog.x = if x.prog.stage = 1 then x.prog.x else t.ids + 1 := by
    unfold Wave.gridWriter
    split <;> rfl
  unfold setGrid
  rw [hok]
  refine (if_neg Bool.false_ne_true).trans ((if_neg ?_).trans ?_)
  · rw [Bool.not_eq_true', Bool.not_eq_false]
    show t.gridQuiet (x.gridWriter t.ids).prog.x = true
    rw [hx]; exact hq
  · rw [State.cancelTriggers_of_none (by rw [hput]; exact ht)]
    rfl

/-- A write of a grid register that waits for nothing ends with the register written. -/
theorem Issues.ends_setGrid (h : Issues s u w (.sets f)) {body : Body} (hx : exec (.sets f) s = runInstr (.sets f) body s) {ok : State → Bool} {illegal : State → Act}
    {g : Fabric → Fabric} (hb : body (s.setWave u w.readied) u w.readied =
      setGrid ok illegal (fun s => s.updFabric g) (s.setWave u w.readied) u w.readied) (hok : ok (s.setWave u w.readied) = true)
    (hq : s.gridQuiet (if w.prog.stage = 1 then w.prog.x else s.ids + 1) = true) (ht : ∀ d ∈ s.dies, d.2.triggers = []) :
    Ends s u w (.sets f) fun t w' => t.fabric = g s.fabric ∧ w.sameArch w' ∧ s.sameMem t := by
  have hg : ∀ n, (w.readied.gridWriter n).regs = w.regs ∧ (w.readied.gridWriter n).sp = w.sp ∧ (w.readied.gridWriter n).tr = w.tr ∧
      (w.readied.gridWriter n).clause = w.clause := fun n => by
    unfold Wave.gridWriter
    split <;> exact ⟨rfl, rfl, rfl, rfl⟩
  obtain ⟨hregs, hsp, htr, hclause⟩ := hg s.ids
  refine h.ends hx (hb.trans (setGrid_done hok hq (fun _ => rfl) ht)) (x := w.readied.gridWriter s.ids) ?_ hclause ⟨?_, ?_, fun a => ?_⟩
  · exact (State.wave_setWave _ _ _ _).trans (if_pos rfl)
  · rw [State.retire_fabric]; rfl
  · exact ⟨by rw [Wave.completed_regs, hregs], by rw [Wave.completed_sp, hsp], by rw [Wave.completed_tr, htr]⟩
  · rw [State.retire_byte]; rfl

end

end Sys2Proof.Machine

open Sys2Proof Sys2Proof.Machine

/-- Settles O28. -/
theorem specialRegisterWrites : Obligations.SpecialRegisterWrites := by
  intro s u w f h v wr a
  refine ⟨fun hrm h3 hlt hn => ?_, fun hn => ?_, fun hal hn => ?_, fun hn => ?_, fun hn => ?_, fun hal hn => ?_, fun hn => ?_, fun hn => ?_, fun hn => ?_, fun hn => ?_, fun hn => ?_, ?_⟩
  · refine h.sets_wave (x := { w.readied with sp := { w.sp with fprm := v.toNat % 8, fpstat := if v.getLsbD 4 then 0 else w.sp.fpstat } }) rfl (rfl : _ = execSets f s) ?_
    dsimp only
    rw [ctlBits_low8, hn]
    rw [show (if specialRegs 13 = 2 then w.readied.src64 f.a else (w.readied.src f.a).zeroExtend 64) = v from if_pos rfl]
    refine (if_neg fun hbad => ?_).trans ?_
    · rcases hbad with hbad | hbad | hbad
      · exact absurd hbad (by omega)
      · rw [bit_eq_getLsbD] at hbad
        exact Bool.noConfusion (hbad.symm.trans h3)
      · exact hbad (by simp only [fld]; omega)
    · rw [bit_eq_getLsbD]; rfl
  · refine h.sets_wave (x := { w.readied with sp := { w.sp with rngSeed := v, gens := [] } }) rfl (rfl : _ = execSets f s) ?_
    dsimp only
    rw [ctlBits_low8, hn]
    rfl
  · refine h.sets_wave (x := { w.readied with sp := { w.sp with apxtab := v &&& 0x1FFFFFFFFFFFFFF } }) rfl (rfl : _ = execSets f s) ?_
    dsimp only
    rw [ctlBits_low8, hn]
    refine (if_neg (not_not_intro hal)).trans ?_
    rw [ofNat_low57]; rfl
  · refine h.sets_wave (x := { w.readied with sp := { w.sp with remerr := 0 } }) rfl (rfl : _ = execSets f s) ?_
    dsimp only
    rw [ctlBits_low8, hn]
    rfl
  · refine h.sets_wave (x := { w.readied with sp := { w.sp with remtrap := v &&& 1 } }) rfl (rfl : _ = execSets f s) ?_
    dsimp only
    rw [ctlBits_low8, hn]
    rfl
  · refine h.sets_wave (x := { w.readied with tr := { w.tr with tba := v } }) rfl (rfl : _ = execSets f s) ?_
    dsimp only
    rw [ctlBits_low8, hn]
    exact if_neg (not_not_intro hal)
  · refine h.sets_wave (x := { w.readied with tr := { w.tr with tpc := v } }) rfl (rfl : _ = execSets f s) ?_
    dsimp only
    rw [ctlBits_low8, hn]
    rfl
  · refine h.sets_wave (x := { w.readied with tr := { w.tr with tcause := v &&& 0x7FF } }) rfl (rfl : _ = execSets f s) ?_
    dsimp only
    rw [ctlBits_low8, hn]
    rfl
  · refine h.sets_wave (x := { w.readied with tr := { w.tr with tinfo0 := v } }) rfl (rfl : _ = execSets f s) ?_
    dsimp only
    rw [ctlBits_low8, hn]
    rfl
  · refine h.sets_wave (x := { w.readied with tr := { w.tr with tinfo1 := v } }) rfl (rfl : _ = execSets f s) ?_
    dsimp only
    rw [ctlBits_low8, hn]
    rfl
  · have hdone := h.sets_wave (x := { w.readied with tr := w.tr.writeDebug v }) rfl (rfl : _ = execSets f s) (by
      dsimp only
      rw [ctlBits_low8, hn]
      rfl)
    exact ⟨_, hdone, rfl, rfl, BitVec.and_merge v w.tr.dbgctl 7, BitVec.and_merge_low v w.tr.dbgctl 7⟩
  · intro number
    refine ⟨fun hn hok hq ht => ?_, fun hn hok hq ht => ?_⟩
    · obtain ⟨t, w', hx, hw, hpc, hcl, hfab, harch, hmem⟩ := h.ends_setGrid (rfl : _ = execSets f s) (ok := fun _ => gridShapeOk v.toNat)
        (g := fun x => { x with shape := v }) (by
          dsimp only
          rw [ctlBits_low8, hn]
          rfl) hok hq ht
      exact ⟨t, w', hx, hw, hpc, hcl, by rw [hfab], harch, hmem⟩
    · obtain ⟨t, w', hx, hw, hpc, hcl, hfab, harch, hmem⟩ := h.ends_setGrid (rfl : _ = execSets f s) (ok := fun s => gridPosOk s.shape v.toNat)
        (g := fun x => { x with pos := BitVec.ofNat 64 (fld v.toNat 49 0) }) (by
          dsimp only
          rw [ctlBits_low8, hn]
          rfl) hok hq ht
      refine ⟨t, w', hx, hw, hpc, hcl, ?_, harch, hmem⟩
      rw [hfab]
      show (BitVec.ofNat 64 (fld v.toNat 49 0)).toNat = _
      simp only [fld, BitVec.toNat_ofNat]
      omega
end

section
/-! SUPPORT. ERET (R327, R381): the words of EXEC are restored one after another, cut by LIVE, and the wave goes on where TPC says. -/

set_option Elab.async false

namespace Sys2Proof.Machine

/-! ### Words of EXEC -/

/-- The wave after its first `n` words of EXEC have been written. -/
def Wave.setExec (w : Wave) (x : Nat → Word) (l : List Nat) : Wave := l.foldl (fun w j => w.setS (96 + j) (x j)) w

/-- Writes of EXEC change only scalar registers and their poison. -/
theorem Wave.setExec_only (w : Wave) (x : Nat → Word) (l : List Nat) :
    w.setExec x l = { w with regs := { w.regs with s := (w.setExec x l).regs.s, spoison := (w.setExec x l).regs.spoison } } := by
  induction l generalizing w with
  | nil => rfl
  | cons j l ih => exact (ih (w.setS (96 + j) (x j))).trans rfl

theorem Wave.skey_exec (w : Wave) (j : Nat) : w.skey (96 + j) = 96 + j := by
  simp [Wave.skey]; omega

/-- A write of one word of EXEC, by register key. -/
theorem Wave.key_setS_exec (w : Wave) {j : Nat} (hj : j < w.k) (x : Word) (key : Nat) :
    mapGet 0 (w.setS (96 + j) x).regs.s key = if key = 96 + j then x &&& w.liveWord j else mapGet 0 w.regs.s key := by
  have h := mapGet_mapPut (0 : Word) w.regs.s (w.skey (96 + j)) (if 96 ≤ 96 + j ∧ 96 + j < 96 + w.k then x &&& w.liveWord (96 + j - 96) else x) key
  rw [Wave.skey_exec, if_pos (by omega), Nat.add_sub_cancel_left] at h
  simpa only [Wave.setS, Wave.skey_exec, Nat.add_sub_cancel_left, show (96 ≤ 96 + j ∧ 96 + j < 96 + w.k) = True from by simp; omega, if_true] using h

/-- After the words of some list have been written, each of them holds its value cut by LIVE, and no other key has changed. -/
theorem Wave.key_setExec (w : Wave) (x : Nat → Word) (l : List Nat) (hl : ∀ j ∈ l, j < w.k) (key : Nat) :
    mapGet 0 (w.setExec x l).regs.s key =
      if 96 ≤ key ∧ key - 96 ∈ l then x (key - 96) &&& w.liveWord (key - 96) else mapGet 0 w.regs.s key := by
  induction l generalizing w with
  | nil => simp [Wave.setExec]
  | cons j l ih =>
    have hstep := ih (w.setS (96 + j) (x j)) fun i hi => hl i (List.mem_cons_of_mem _ hi)
    rw [Wave.liveWord_setS, w.key_setS_exec (hl j List.mem_cons_self)] at hstep
    refine hstep.trans ?_
    by_cases hin : 96 ≤ key ∧ key - 96 ∈ l
    · rw [if_pos hin, if_pos ⟨hin.1, List.mem_cons_of_mem _ hin.2⟩]
    · rw [if_neg hin]
      by_cases hj : key = 96 + j
      · subst hj
        rw [if_pos rfl, Nat.add_sub_cancel_left, if_pos ⟨by omega, List.mem_cons_self⟩]
      · rw [if_neg hj, if_neg]
        rintro ⟨h96, hmem⟩
        rcases List.mem_cons.1 hmem with h | h
        · omega
        · exact hin ⟨h96, h⟩

/-! ### The wave that returns -/

/-- The wave that returns from a handler, before its EXEC is restored. -/
def Wave.returned (w : Wave) : Wave :=
  let same := w.tr.tpc == w.tr.tpcEntry
  let c := if same then w.tr.clauseEntry else Clause.boundary
  { w with
    tr := { w.tr.applyDebug with
      handler := false, bpSkip := same && w.tr.broke, broke := false, stepDue := w.tr.tcause.getLsbD 9, debugStop := false },
    pc := w.tr.tpc, clause := c }.setRestart w.tr.tpc c

theorem Wave.eret_eq (w : Wave) : w.eret = w.returned.setExec (fun j => mapGet 0 w.tr.savedExec j) (List.range w.k) := rfl

theorem Wave.eret_key (w : Wave) (key : Nat) : mapGet 0 w.eret.regs.s key =
    if 96 ≤ key ∧ key - 96 < w.k then mapGet 0 w.tr.savedExec (key - 96) &&& w.liveWord (key - 96) else mapGet 0 w.regs.s key := by
  rw [Wave.eret_eq, Wave.key_setExec w.returned _ (List.range w.k) fun j hj => List.mem_range.1 hj]
  simp only [List.mem_range]
  rfl

theorem Wave.eret_only (w : Wave) :
    w.eret = { w.returned with regs := { w.regs with s := w.eret.regs.s, spoison := w.eret.regs.spoison } } := by
  rw [Wave.eret_eq]
  exact Wave.setExec_only _ _ _

/-! ### Resuming -/

section
variable {s : State} {u : Nat} {w : Wave} {f : EF}

/-- Releasing its core's clause leaves a wave where it was. -/
theorem State.releaseHolder_core (s : State) (u core k : Nat) : ∃ h, (s.releaseHolder u core).core k = { s.core k with holder := h } := by
  unfold State.releaseHolder
  split
  · rw [State.core_updCore]
    split
    · rename_i hk
      rw [hk]; exact ⟨none, rfl⟩
    · exact ⟨_, rfl⟩
  · exact ⟨_, rfl⟩

theorem State.releaseHolder_core_ne (s : State) (u core : Nat) {k : Nat} (hk : k ≠ core) : (s.releaseHolder u core).core k = s.core k := by
  unfold State.releaseHolder
  split
  · rw [State.core_updCore, if_neg hk]
  · rfl

theorem State.releaseHolder_only (s : State) (u core : Nat) : s.releaseHolder u core = { s with cores := (s.releaseHolder u core).cores } := by
  unfold State.releaseHolder
  split <;> rfl

/-- A wave that resumes changes beside itself its core's record of issuing alone. -/
theorem Completes.of_resumed {x : Wave} {i : Instr} (hcore : x.core = w.core) {tenant : Nat}
    (hx : exec i s = .next (((s.setWave u x).noteIssue x.core tenant).releaseHolder u x.core)) : Completes s u w i x := by
  refine ⟨_, hx, ?_, fun v hv => ?_, fun c hc => ?_, ?_, fun a => ?_, ?_⟩
  · rw [State.releaseHolder_only]
    exact (State.wave_setWave s u x u).trans (if_pos rfl)
  · rw [State.releaseHolder_only]
    exact (State.wave_setWave s u x v).trans (if_neg hv)
  · rw [State.releaseHolder_core_ne _ _ _ (by rw [hcore]; exact hc), State.noteIssue, State.core_updCore, if_neg (by rw [hcore]; exact hc)]
    rfl
  · obtain ⟨h, hh⟩ := ((s.setWave u x).noteIssue x.core tenant).releaseHolder_core u x.core w.core
    rw [hh, State.noteIssue, State.core_updCore, if_pos hcore.symm, hcore]
    exact ⟨_, _, _, _, _, rfl⟩
  · rw [State.releaseHolder_only]; rfl
  · rw [State.releaseHolder_only]; rfl

/-- ERET goes on with the wave that returns. -/
theorem Issues.eret_resumes (h : Issues s u w (.eret f)) (ht : w.tr.tpc ≠ w.tr.tpcEntry → HeaderAt s w w.tr.tpc) :
    Completes s u w (.eret f) w.readied.eret := by
  have hact : (fun (s : State) (u : Nat) (w : Wave) =>
      if w.tr.tpc == w.tr.tpcEntry then Act.resumed (s.setWave u w.eret)
      else match transfer (fun w => w.tr.tpc) (fun _ => true) Wave.eret s u w with
        | .jump s _ => .resumed s
        | a => a) (s.setWave u w.readied) u w.readied = .resumed (s.setWave u w.readied.eret) := by
    dsimp only
    by_cases hs : w.tr.tpc = w.tr.tpcEntry
    · refine (if_pos (show (w.readied.tr.tpc == w.readied.tr.tpcEntry) = true from beq_iff_eq.2 hs)).trans ?_
      rw [State.setWave_setWave]
    · refine (if_neg (show ¬(w.readied.tr.tpc == w.readied.tr.tpcEntry) = true from mt beq_iff_eq.1 hs)).trans ?_
      rw [transfer_headerAt (target := fun w => w.tr.tpc) (ht hs), if_pos rfl, State.setWave_setWave]
  have hcore : w.readied.eret.core = w.core := by rw [Wave.eret_only]; rfl
  refine Completes.of_resumed hcore (tenant := (s.setWave u w.readied.eret).tenantOf w.readied.eret)
    ((h.exec_eq (rfl : _ = execEret f s) hact).trans ?_)
  unfold finishAct
  dsimp only
  rw [State.wave_setWave, if_pos rfl]

end

end Sys2Proof.Machine

open Sys2Proof Sys2Proof.Machine

/-- Settles O29: the wave goes on at TPC with its EXEC restored. -/
theorem returnFromTrap : Obligations.ReturnFromTrap := by
  intro s u w f h hheader
  have hkey := w.readied.eret_key
  have honly := w.readied.eret_only
  have hs : ∀ r, r < 88 → w.readied.eret.s r = w.s r := by
    intro r hr
    have hskey : ∀ x : Wave, x.skey r = r := fun x => by simp [Wave.skey]; omega
    rw [Wave.s, hskey, hkey, if_neg (by omega), Wave.s, hskey]
    rfl
  refine ⟨_, h.eret_resumes hheader, ?_, ?_, ?_, fun j hj => ?_, hs, fun r i => ?_, ?_, ?_, ?_, ?_, ?_⟩
  · rw [honly]; rfl
  · rw [honly]; rfl
  · rw [honly]
    exact if_congr beq_iff_eq rfl rfl
  · rw [Wave.execWord, hkey, if_pos ⟨by omega, by rw [Nat.add_sub_cancel_left]; exact hj⟩, Nat.add_sub_cancel_left]
    rfl
  · rw [honly]; rfl
  all_goals rw [honly]; rfl
end

section
/-! SUPPORT. Entering a handler (R243, R378, R380): the wave at the handler's header, and what a trap leaves of the package. -/

set_option Elab.async false

namespace Sys2Proof.Machine

theorem OnlyWave.trans {s t r : State} {u core : Nat} (h : OnlyWave s t u core) (k : OnlyWave t r u core) : OnlyWave s r u core := by
  obtain ⟨h1, h2, ⟨a, b, c, d, e, h3⟩, h4, h5⟩ := h
  obtain ⟨k1, k2, ⟨a', b', c', d', e', k3⟩, k4, k5⟩ := k
  refine ⟨fun v hv => (k1 v hv).trans (h1 v hv), fun c hc => (k2 c hc).trans (h2 c hc), ⟨a', b', c', d', e', ?_⟩, fun a => (k4 a).trans (h4 a), ?_⟩
  · rw [k3, h3]
  · rw [k5, h5]

/-- A wave that leaves its core's clause changes beside itself the core's record of issuing alone. -/
theorem OnlyWave.releaseHolder (s : State) (u core : Nat) (x : Wave) : OnlyWave s ((s.setWave u x).releaseHolder u core) u core := by
  refine ⟨fun v hv => ?_, fun c hc => ?_, ?_, fun a => ?_, ?_⟩
  · rw [State.releaseHolder_only]
    exact (State.wave_setWave s u x v).trans (if_neg hv)
  · rw [State.releaseHolder_core_ne _ _ _ hc]; rfl
  · obtain ⟨h, hh⟩ := (s.setWave u x).releaseHolder_core u core core
    rw [hh]
    exact ⟨h, _, _, _, _, rfl⟩
  · rw [State.releaseHolder_only]; rfl
  · rw [State.releaseHolder_only]; rfl

theorem State.wave_releaseHolder_setWave (s : State) (u core : Nat) (x : Wave) : ((s.setWave u x).releaseHolder u core).wave u = some x := by
  rw [State.releaseHolder_only]
  exact (State.wave_setWave s u x u).trans (if_pos rfl)

/-! ### What entry saves -/

theorem mapGet_foldl_put {α : Type} [DecidableEq α] (d : α) (f : Nat → α) (l : List Nat) (m : List (Nat × α)) (j : Nat) :
    mapGet d (l.foldl (fun m j => mapPut d m j (f j)) m) j = if j ∈ l then f j else mapGet d m j := by
  induction l generalizing m with
  | nil => simp
  | cons a l ih =>
    rw [List.foldl_cons, ih, mapGet_mapPut]
    by_cases hl : j ∈ l
    · rw [if_pos hl, if_pos (List.mem_cons_of_mem _ hl)]
    · rw [if_neg hl]
      by_cases ha : j = a
      · rw [if_pos ha, if_pos (ha ▸ List.mem_cons_self), ha]
      · rw [if_neg ha, if_neg (by simp [ha, hl])]

theorem Wave.execWords_get (w : Wave) {j : Nat} (hj : j < w.k) : mapGet 0 w.execWords j = w.execWord j :=
  (mapGet_foldl_put 0 w.execWord _ _ j).trans (if_pos (List.mem_range.2 hj))

/-- TCAUSE as entry writes it: the trap's code, and above it what entry notes. -/
def trapCause (w : Wave) (p : PendTrap) : Nat :=
  p.code + 2 ^ 8 * b2n p.after + 2 ^ 9 * b2n (p.after && p.code != trapStep && w.tr.dbgctl.getLsbD 0 && w.group.isNone) + 2 ^ 10 * b2n p.queued

theorem trapCause_low {w : Wave} {p : PendTrap} (h : p.code < 256) :
    (BitVec.ofNat 64 (trapCause w p)).toNat % 512 = p.code + 256 * b2n p.after := by
  have hb : ∀ b : Bool, b2n b ≤ 1 := fun b => by cases b <;> decide
  have h1 := hb p.after
  have h2 := hb (p.after && p.code != trapStep && w.tr.dbgctl.getLsbD 0 && w.group.isNone)
  have h3 := hb p.queued
  rw [BitVec.toNat_ofNat, trapCause]
  omega

/-- The wave at the header of its handler. -/
def Wave.trapped (w : Wave) (p : PendTrap) : Wave :=
  let w' := w.doom 4
  let t := { w'.tr with
    handler := true, savedExec := w'.execWords, tpc := p.tpc, tcause := BitVec.ofNat 64 (trapCause w p), tinfo0 := p.info0
    tinfo1 := p.info1, tpcEntry := p.tpc, clauseEntry := { w'.clause with words := [] }, bpSkip := false, stepDue := false
    debugStop := p.code == trapBreakpoint || p.code == trapStep, broke := p.code == trapBreakpoint }
  { w' with
    tr := t, pc := w'.tr.tba, clause := Clause.boundary, wait := .ready, pend := none, prog := Progress.none, xl := [], xfail := []
    lateTrap := none }.setRestart w'.tr.tba Clause.boundary

section
variable {s : State} {u : Nat} {w : Wave} {p : PendTrap}

theorem State.takeTrap_handler (hw : s.wave u = some w) (hl : w.late = []) (hh : w.tr.handler = false) (ht : w.tr.tba ≠ 0) :
    s.takeTrap u p = (s.setWave u (w.trapped p)).releaseHolder u w.core := by
  rw [State.takeTrap, hw]
  dsimp only
  rw [hl, if_pos List.isEmpty_nil, State.enterTrap, if_neg (by simpa [hh] using ht)]
  rfl

theorem State.takeTrap_waits (hw : s.wave u = some w) (hl : w.late ≠ []) :
    s.takeTrap u p = (s.setWave u { w with wait := .trapDrain, pend := some p }).releaseHolder u w.core := by
  rw [State.takeTrap, hw]
  exact if_neg (mt List.isEmpty_iff.1 hl)

theorem State.takeTrap_halts (hw : s.wave u = some w) (hl : w.late = []) (hh : w.tr.handler = true ∨ w.tr.tba = 0) {c : Cohort}
    (hc : s.cohort w.cohort = some c) :
    s.takeTrap u p = (s.setWave u { w with wait := .halted, pend := none }).cancelTask c.task 4 := by
  have hc' : (s.setWave u { w with wait := .halted, pend := none }).cohort w.cohort = some c := hc
  rw [State.takeTrap, hw]
  dsimp only
  rw [if_pos (List.isEmpty_iff.2 hl), State.enterTrap, if_pos (by simpa using hh)]
  dsimp only
  rw [hc']
  rfl

/-- Entry dooms an open commit group. -/
theorem Wave.trapped_doomed {g : Group} (h : (w.trapped p).group = some g) : g.doom ≠ 0 := by
  simp only [Wave.trapped, Wave.setRestart, Wave.doom] at h
  cases hg : w.group with
  | none => rw [hg] at h; cases h
  | some g' =>
    rw [hg] at h
    simp only [Option.map_some, Option.some.injEq] at h
    rw [← h]
    split
    · exact (by decide : 4 ≠ 0)
    · assumption

end

end Sys2Proof.Machine

open Sys2Proof Sys2Proof.Machine

/-- Settles O26: with a handler the wave stands at its header, with results pending it waits, and else it halts. -/
theorem trapEntry : Obligations.TrapEntry := by
  refine ⟨fun s u w p hw => ⟨fun hl hh ht => ?_, fun hl => ?_, fun hl hh c hc => State.takeTrap_halts hw hl hh hc⟩, fun s u w f h hl hh ht => ?_⟩
  · rw [State.takeTrap_handler hw hl hh ht]
    refine ⟨w.trapped p, State.wave_releaseHolder_setWave .., .releaseHolder .., rfl, rfl, rfl, rfl, rfl, rfl, rfl, rfl, rfl, fun hp => ⟨?_, ?_⟩,
      fun j hj => Wave.execWords_get (w.doom 4) hj, rfl, rfl, rfl, fun g hg => Wave.trapped_doomed hg⟩
    · have hlow := trapCause_low (w := w) hp
      have hb : b2n p.after ≤ 1 := by cases p.after <;> decide
      show (BitVec.ofNat 64 (trapCause w p)).toNat % 256 = p.code
      omega
    · have hlow := trapCause_low (w := w) hp
      show (BitVec.ofNat 64 (trapCause w p)).getLsbD 8 = p.after
      rw [← bit_eq_getLsbD, bit]
      cases h : p.after
      · rw [h, show b2n false = 0 from rfl] at hlow
        exact beq_eq_false_iff_ne.2 (by omega)
      · rw [h, show b2n true = 1 from rfl] at hlow
        exact beq_iff_eq.2 (by omega)
  · rw [State.takeTrap_waits hw hl]
    exact ⟨_, State.wave_releaseHolder_setWave .., rfl, rfl, rfl, rfl, rfl⟩
  · have hx := h.exec_eq (rfl : _ = execTrap f s) (a := .trapAfter (s.setWave u w.readied) trapSoftware (f.off.zeroExtend 64) ((w.src f.a).zeroExtend 64)) rfl
    unfold finishAct at hx
    dsimp only at hx
    have hw : (s.setWave u w.readied).wave u = some w.readied := (State.wave_setWave ..).trans (if_pos rfl)
    have hret := State.retire_wave hw w.pc (w.pc + 8) false (closesRegion w (Instr.op (.trap f)))
    have htrap := fun (p : PendTrap) => State.takeTrap_handler (p := p) hret (by rw [Wave.completed_late]; simp [Wave.readied, hl])
      (by rw [Wave.completed_tr]; exact hh) (by rw [Wave.completed_tr]; exact ht)
    rw [htrap] at hx
    refine ⟨_, ⟨_, hx, State.wave_releaseHolder_setWave .., ?_⟩, ?_, rfl, rfl, ?_, rfl, rfl, fun j hj => ?_, ?_, ?_⟩
    · rw [Wave.completed_core]
      exact (OnlyWave.of_setWave (State.retire_onlyWave hw w.pc (w.pc + 8) false (closesRegion w (Instr.op (.trap f))))).trans (.releaseHolder ..)
    · exact (congrArg Traps.tba (Wave.completed_tr ..) :)
    · exact (trapCause_low (show trapSoftware < 256 by decide)).trans rfl
    · refine (Wave.execWords_get (Wave.doom _ 4) ?_).trans ?_
      · obtain ⟨_, _, _, _, _, _, _, _, _, hf⟩ := w.readied.completed_frame (w.pc + 8) false (closesRegion w (Instr.op (.trap f)))
        rw [hf]; exact hj
      · exact congrArg (fun r : Regs => mapGet 0 r.s (96 + j)) (Wave.completed_regs ..)
    · exact Wave.completed_regs ..
    · exact Wave.completed_sp ..
end

section
/-! SUPPORT. One access to a block of memory: bytes read at their home slices as an instruction issues (R52), and bytes that enter the store
buffer (R51). -/

set_option Elab.async false

namespace Sys2Proof.Machine

/-! ### Sorted maps -/

/-- The keys of a map rise strictly. -/
def KeysRise {α : Type} (m : List (Nat × α)) : Prop := m.Pairwise fun a b => a.1 < b.1

theorem mem_of_mem_mapInsert {α : Type} {m : List (Nat × α)} {a : Nat} {v : α} {x : Nat × α} (h : x ∈ mapInsert m a v) :
    x = (a, v) ∨ x ∈ m := by
  induction m with
  | nil => exact Or.inl (List.mem_singleton.1 h)
  | cons e m ih =>
    obtain ⟨k, y⟩ := e
    simp only [mapInsert] at h
    grind

theorem KeysRise.mapInsert {α : Type} {m : List (Nat × α)} (h : KeysRise m) (a : Nat) (v : α) : KeysRise (mapInsert m a v) := by
  induction m with
  | nil => exact List.pairwise_singleton ..
  | cons e m ih =>
    obtain ⟨k, y⟩ := e
    obtain ⟨hk, hm⟩ := List.pairwise_cons.1 h
    simp only [Machine.mapInsert]
    split
    · subst_vars
      exact List.pairwise_cons.2 ⟨hk, hm⟩
    · split
      next hak => exact List.pairwise_cons.2 ⟨fun x hx => by rcases List.mem_cons.1 hx with rfl | hx; exacts [hak, hak.trans (hk x hx)], h⟩
      next hne hak =>
        refine List.pairwise_cons.2 ⟨fun x hx => ?_, ih hm⟩
        rcases mem_of_mem_mapInsert hx with rfl | hx
        · exact show k < a by omega
        · exact hk x hx

theorem KeysRise.mapFind_iff {α : Type} {m : List (Nat × α)} (h : KeysRise m) (a : Nat) (v : α) : mapFind m a = some v ↔ (a, v) ∈ m := by
  induction m with
  | nil => simp [mapFind]
  | cons e m ih =>
    obtain ⟨k, y⟩ := e
    obtain ⟨hk, hm⟩ := List.pairwise_cons.1 h
    have hlt : ∀ z, (a, z) ∈ m → k < a := fun z hz => hk _ hz
    have ih' := ih hm
    simp only [mapFind, List.mem_cons, Prod.mk.injEq]
    rcases Nat.lt_trichotomy a k with hak | rfl | hak
    · rw [if_neg hak.ne, if_pos hak]
      exact ⟨fun h => by simp at h, fun h => h.elim (fun h => absurd h.1 hak.ne) fun h => absurd (hlt v h) hak.not_gt⟩
    · rw [if_pos rfl, Option.some.injEq]
      exact ⟨fun h => .inl ⟨rfl, h.symm⟩, fun h => h.elim (·.2.symm) fun h => absurd (hlt v h) (lt_irrefl a)⟩
    · rw [if_neg hak.ne', if_neg hak.not_gt, ih']
      exact ⟨.inr, fun h => h.resolve_left fun h => hak.ne' h.1⟩

/-- Laying one map over another, key by key. -/
theorem KeysRise.mapFind_foldl {α : Type} {m : List (Nat × α)} (h : KeysRise m) (base : List (Nat × α)) (a : Nat) :
    mapFind (m.foldl (fun y b => Machine.mapInsert y b.1 b.2) base) a = (mapFind m a).orElse fun _ => mapFind base a := by
  induction m generalizing base with
  | nil => rfl
  | cons e m ih =>
    obtain ⟨k, y⟩ := e
    obtain ⟨hk, hm⟩ := List.pairwise_cons.1 h
    rw [List.foldl_cons, ih hm, mapFind_mapInsert]
    have hnone : a ≤ k → mapFind m a = none := fun hak => by
      cases hf : mapFind m a with
      | none => rfl
      | some v => exact absurd (hk _ ((KeysRise.mapFind_iff hm a v).1 hf)) hak.not_gt
    simp only [mapFind]
    rcases Nat.lt_trichotomy a k with hlt | rfl | hgt
    · simp [hnone hlt.le, hlt, hlt.ne]
    · simp [hnone le_rfl]
    · simp [hgt.ne', not_lt.2 hgt.le]

/-! ### Bytes gathered by sector -/

/-- One more byte of an access, gathered by sector. -/
def gatherByte (acc : Acc) (m : List (Nat × Acc × List (Nat × Byte))) (b : Byte × Nat) : List (Nat × Acc × List (Nat × Byte)) :=
  mapInsert m ((acc.pa + b.2) / 16)
    (acc, mapInsert ((mapFind m ((acc.pa + b.2) / 16)).getD (acc, [])).2 ((acc.pa + b.2) % 16) b.1)

/-- Sectors gathered so far hold the first `n` bytes of an access. -/
structure Gathered (pa : Nat) (bs : List Byte) (n : Nat) (m : List (Nat × Acc × List (Nat × Byte))) : Prop where
  rise : KeysRise m
  sorted : ∀ k x, mapFind m k = some x → KeysRise x.2
  holds : ∀ i, i < n → ∃ x, mapFind m ((pa + i) / 16) = some x ∧ mapFind x.2 ((pa + i) % 16) = bs[i]?
  within : ∀ x ∈ m, ∃ i, i < n ∧ x.1 = (pa + i) / 16

theorem Gathered.step {acc : Acc} {bs : List Byte} {n : Nat} {m : List (Nat × Acc × List (Nat × Byte))} (h : Gathered acc.pa bs n m)
    {b : Byte} (hb : bs[n]? = some b) : Gathered acc.pa bs (n + 1) (gatherByte acc m (b, n)) := by
  have hcur : KeysRise ((mapFind m ((acc.pa + n) / 16)).getD (acc, [])).2 := by
    cases hf : mapFind m ((acc.pa + n) / 16) with
    | none => exact List.Pairwise.nil
    | some x => exact h.sorted _ _ hf
  refine ⟨h.rise.mapInsert .., fun k x hx => ?_, fun i hi => ?_, fun x hx => ?_⟩
  · rw [gatherByte, mapFind_mapInsert] at hx
    split at hx
    · obtain rfl := Option.some.inj hx
      exact hcur.mapInsert ..
    · exact h.sorted k x hx
  · rw [gatherByte, mapFind_mapInsert]
    by_cases hs : (acc.pa + i) / 16 = (acc.pa + n) / 16
    · rw [if_pos hs]
      refine ⟨_, rfl, ?_⟩
      rw [mapFind_mapInsert]
      by_cases hin : i = n
      · rw [hin, if_pos rfl, hb]
      · rw [if_neg (by omega)]
        obtain ⟨x, hx, hv⟩ := h.holds i (by omega)
        rw [← hs, hx]
        exact hv
    · rw [if_neg hs]
      exact h.holds i (by rcases Nat.lt_succ_iff_lt_or_eq.1 hi with h | rfl; exacts [h, absurd rfl hs])
  · rcases mem_of_mem_mapInsert hx with rfl | hx
    · exact ⟨n, by omega, rfl⟩
    · obtain ⟨i, hi, hk⟩ := h.within x hx
      exact ⟨i, by omega, hk⟩

/-- The bytes of one access by sector. -/
theorem gathered (acc : Acc) (bs : List Byte) : Gathered acc.pa bs bs.length (gatherSectors [(acc, bs)]) := by
  suffices h : ∀ (l : List Byte) (n : Nat) m, Gathered acc.pa bs n m → n ≤ bs.length → bs.drop n = l →
      Gathered acc.pa bs bs.length ((l.zipIdx n).foldl (gatherByte acc) m) from
    h bs 0 [] ⟨.nil, fun _ _ h => by simp [mapFind] at h, fun _ h => by omega, fun _ h => by simp at h⟩ (Nat.zero_le _) rfl
  intro l
  induction l with
  | nil =>
    intro n m h hn hl
    rwa [← hn.antisymm (List.drop_eq_nil_iff.1 hl)]
  | cons b l ih =>
    intro n m h hn hl
    have hb : bs[n]? = some b := by
      have := congrArg (·[0]?) hl
      simpa using this
    rw [List.zipIdx_cons, List.foldl_cons]
    exact ih (n + 1) _ (h.step hb) (List.getElem?_eq_some_iff.1 hb).1 (by rw [← List.drop_drop, hl]; rfl)

/-- No more sectors are gathered than the access touches. -/
theorem Gathered.length_le {pa n : Nat} {bs : List Byte} {m : List (Nat × Acc × List (Nat × Byte))} (h : Gathered pa bs n m) :
    m.length ≤ (pa + n - 1) / 16 + 1 - pa / 16 := by
  have hnd : (m.map (·.1)).Nodup := (List.pairwise_map.2 h.rise).imp fun h => (show _ < _ from h).ne
  have hsub : m.map (·.1) ⊆ List.range' (pa / 16) ((pa + n - 1) / 16 + 1 - pa / 16) := fun k hk => by
    obtain ⟨x, hx, rfl⟩ := List.mem_map.1 hk
    obtain ⟨i, hi, hk⟩ := h.within x hx
    rw [List.mem_range'_1, hk]
    omega
  simpa using (hnd.subperm hsub).length_le

/-! ### Sectors entering the store buffer -/

/-- A core's store buffer holds the bytes of an entry for its wave and sector. -/
def State.HoldsEntry (s : State) (core : Nat) (e : SbEntry) : Prop :=
  ∃ x ∈ (s.core core).sb, x.wave = e.wave ∧ x.sector = e.sector ∧ ∀ k v, mapFind e.bytes k = some v → mapFind x.bytes k = some v

/-- Beyond a core's store buffer and the count of identities nothing has changed. -/
def State.OnlyBuffer (s t : State) : Prop := t = { s with cores := t.cores, ids := t.ids }

theorem sbCount_append_le (sb : List SbEntry) (e : SbEntry) : sbCount (sb ++ [e]) ≤ sbCount sb + 1 := by
  rw [sbCount, sbCount, List.map_append, List.eraseDups_append, List.length_append]
  refine Nat.add_le_add_left ?_ _
  rw [List.map_singleton, List.removeAll, List.filter_cons]
  split <;> simp [List.eraseDups_cons]

theorem sbCount_updFirst (p : SbEntry → Bool) {f : SbEntry → SbEntry} (hf : ∀ x, ((f x).wave, (f x).sector) = (x.wave, x.sector))
    (sb : List SbEntry) : sbCount (updFirst p f sb) = sbCount sb := by
  rw [sbCount, map_updFirst p f _ hf, sbCount]

theorem mem_updFirst_of_not {α : Type} {p : α → Bool} {f : α → α} {l : List α} {y : α} (h : y ∈ l) (hp : p y = false) :
    y ∈ updFirst p f l := by
  induction l with
  | nil => exact h
  | cons a l ih =>
    rw [updFirst]
    rcases List.mem_cons.1 h with rfl | h
    · rw [if_neg (by simp [hp])]; exact List.mem_cons_self
    · split
      · exact List.mem_cons_of_mem _ h
      · exact List.mem_cons_of_mem _ (ih h)

theorem mem_updFirst_of_any {α : Type} {p : α → Bool} (f : α → α) {l : List α} {y : α} (h : y ∈ l) (hp : p y = true) :
    ∃ x, p x = true ∧ f x ∈ updFirst p f l := by
  induction l with
  | nil => exact absurd h List.not_mem_nil
  | cons a l ih =>
    rw [updFirst]
    cases ha : p a with
    | true => exact ⟨a, ha, List.mem_cons_self⟩
    | false =>
      rcases List.mem_cons.1 h with rfl | h
      · rw [ha] at hp; exact absurd hp (by decide)
      · obtain ⟨x, hx, hm⟩ := ih h
        exact ⟨x, hx, List.mem_cons_of_mem _ hm⟩

section
variable (s : State) (core : Nat) (e : SbEntry)

theorem State.newEntry_sb : ((s.newEntry core e).core core).sb = (s.core core).sb ++ [{ e with id := s.ids + 1, merged := s.clock }] := by
  rw [State.newEntry]
  exact congrArg Core.sb ((State.core_updCore ..).trans (if_pos rfl))

end

variable {s : State} {core : Nat} {w : Wave} {e : SbEntry}

/-- A sector enters a store buffer that has room. -/
theorem State.enterSector_spec (he : KeysRise e.bytes) (hroom : sbCount (s.core core).sb < sbSize core) :
    ∃ t, s.enterSector core w e = some t ∧ s.OnlyBuffer t ∧ t.HoldsEntry core e ∧ sbCount (t.core core).sb ≤ sbCount (s.core core).sb + 1 ∧
      ∀ x ∈ (s.core core).sb, x.sector ≠ e.sector → x ∈ (t.core core).sb := by
  have hnew : s.OnlyBuffer (s.newEntry core e) ∧ (s.newEntry core e).HoldsEntry core e ∧
      sbCount ((s.newEntry core e).core core).sb ≤ sbCount (s.core core).sb + 1 ∧
      ∀ x ∈ (s.core core).sb, x.sector ≠ e.sector → x ∈ ((s.newEntry core e).core core).sb := by
    rw [State.HoldsEntry, State.newEntry_sb]
    exact ⟨rfl, ⟨_, List.mem_append_right _ (List.mem_singleton_self _), rfl, rfl, fun _ _ h => h⟩, sbCount_append_le _ _,
      fun x hx _ => List.mem_append_left _ hx⟩
  unfold State.enterSector
  dsimp only
  split
  next y hy =>
    split
    · exact ⟨_, rfl, hnew⟩
    next =>
      obtain ⟨hym, hyp⟩ := List.mem_filter.1 (List.mem_of_getLast? hy)
      refine ⟨_, rfl, rfl, ?_, ?_, fun x hx hne => ?_⟩
      · obtain ⟨x, hx, hm⟩ := mem_updFirst_of_any (fun y : SbEntry => { y with
          bytes := e.bytes.foldl (fun m b => mapInsert m b.1 b.2) y.bytes, merged := s.clock, afterSeq := e.afterSeq }) hym
          (p := fun x => x.id == y.id && x.wave == e.wave && x.sector == e.sector) (by simpa using hyp)
        rw [State.HoldsEntry, State.core_updCore, if_pos rfl]
        simp only [Bool.and_eq_true, beq_iff_eq] at hx
        refine ⟨_, hm, hx.1.2, hx.2, fun k v hv => ?_⟩
        rw [KeysRise.mapFind_foldl he, hv]
        rfl
      · rw [State.core_updCore, if_pos rfl]
        refine (sbCount_updFirst _ ?_ _).le.trans (Nat.le_succ _)
        exact fun _ => rfl
      · rw [State.core_updCore, if_pos rfl]
        exact mem_updFirst_of_not hx (by simp [hne])
  next =>
    have hfree : State.freeEntry core (s.core core).sb.length s = some s := by
      cases (s.core core).sb.length <;> simp [State.freeEntry, hroom]
    rw [hfree]
    exact ⟨_, rfl, hnew⟩

/-- Sectors with room for all of them enter the store buffer. -/
theorem State.enterSectors_spec {es : List SbEntry} (hes : ∀ e ∈ es, KeysRise e.bytes) (hd : es.Pairwise fun a b => a.sector ≠ b.sector)
    (hroom : sbCount (s.core core).sb + es.length ≤ sbSize core) :
    ∃ t, State.enterSectors core w es s = (t, []) ∧ s.OnlyBuffer t ∧ (∀ e ∈ es, t.HoldsEntry core e) ∧
      ∀ x ∈ (s.core core).sb, (∀ e ∈ es, x.sector ≠ e.sector) → x ∈ (t.core core).sb := by
  induction es generalizing s with
  | nil => exact ⟨s, rfl, rfl, fun _ h => absurd h List.not_mem_nil, fun _ hx _ => hx⟩
  | cons e es ih =>
    obtain ⟨hed, hd⟩ := List.pairwise_cons.1 hd
    rw [List.length_cons] at hroom
    obtain ⟨t, ht, honly, ⟨x, hx, hxw, hxs, hxb⟩, hcount, hkeep⟩ :=
      s.enterSector_spec (w := w) (hes e List.mem_cons_self) (show sbCount (s.core core).sb < sbSize core by omega)
    obtain ⟨t', ht', honly', hholds, hkeep'⟩ := ih (s := t) (fun e he => hes e (List.mem_cons_of_mem _ he)) hd (by omega)
    refine ⟨t', by rw [State.enterSectors, ht]; exact ht', ?_, fun a ha => ?_, fun y hy hne => ?_⟩
    · unfold State.OnlyBuffer at honly honly' ⊢
      rw [honly', honly]
    · rcases List.mem_cons.1 ha with rfl | ha
      · exact ⟨x, hkeep' x hx fun b hb => hxs ▸ hed b hb, hxw, hxs, hxb⟩
      · exact hholds a ha
    · exact hkeep' y (hkeep y hy (hne e List.mem_cons_self)) fun a ha => hne a (List.mem_cons_of_mem _ ha)

/-! ### Blocks of memory within a page -/

/-- One access that the checks of R24 let through. -/
theorem checkGlobal_one {s : State} {u : Nat} {w : Wave} {access : Nat} {io : Bool} {e va pa : Nat} (h : Reaches s w va access io e pa)
    (lane : Nat) : ∃ t, checkGlobal s u w access io e [(lane, va)] = .ok [{ lane := lane, va := va, pa := pa, tr := t }] := by
  obtain ⟨hal, hcan, t, ht⟩ := h
  exact ⟨t, by simp [checkGlobal, xlateLanes, hal, hcan, ht]⟩

/-- A block within one page is one piece. -/
theorem rangePieces_one {va n : Nat} (h : va % 65536 + n ≤ 65536) (hn : n ≠ 0) (fuel : Nat) : rangePieces (fuel + 2) va n = [(va, n)] := by
  have hm : min n (65536 - va % 65536) = n := by omega
  simp [rangePieces, hn, hm]

theorem State.unlocked_setWave {s : State} (h : s.unlocked = true) {u : Nat} {w : Wave} (hw : w.group = none) :
    (s.setWave u w).unlocked = true := by
  refine List.all_eq_true.2 fun x hx => ?_
  rcases mem_of_mem_mapInsert hx with rfl | hx
  · simp [hw]
  · exact List.all_eq_true.1 h x hx

section
variable {s : State} {u : Nat} {w : Wave}

theorem State.setWave_self (hs : s.wave u = some w) : s.setWave u w = s := by
  suffices h : ∀ m : List (Nat × Wave), mapFind m u = some w → mapInsert m u w = m by rw [State.setWave, h _ hs]
  intro m
  induction m with
  | nil => simp [mapFind]
  | cons e m ih =>
    simp only [mapFind, mapInsert]
    intro h
    split
    next hk => rw [if_pos hk, Option.some.injEq] at h; rw [hk, ← h]
    next hk =>
      rw [if_neg hk] at h
      split
      next hlt => rw [if_pos hlt] at h; exact absurd h (by simp)
      next hlt => rw [if_neg hlt] at h; rw [ih h]

theorem State.groupOf_none (hs : s.wave u = some w) (hw : w.group = none) : s.groupOf u w = none := by
  simp [State.groupOf, hs, hw]

/-- Bytes read at their home slices, where nothing stands before them. -/
theorem State.readNow_of_unlocked (hu : s.wave u = some w) (hg : w.group = none) (hsb : (s.core w.core).sb = [])
    (hsnap : s.snap.state ≠ 1) (hlock : s.unlocked = true) (hlate : w.late.any (·.reads) = false) (a : Acc) (n : Nat) :
    s.readNow u w [(a, n)] = (s.dropL1 w.core a.pa n, some [(a, s.bytes a.pa n)]) := by
  have hothers : s.othersBytes w.core u a.pa n = false := by rw [State.othersBytes, hsb]; rfl
  have hearly : ∀ k, w.earlierRead (w.lateSeq + 1) k = false := fun k => by
    refine List.any_eq_false.2 fun l hl => ?_
    have := List.any_eq_false.1 hlate l hl
    unfold Late.reads at this
    cases hk : l.kind <;> simp_all
  have hdrop : s.dropL1 w.core a.pa n = { s with cores := (s.dropL1 w.core a.pa n).cores } := by unfold State.dropL1; split <;> rfl
  have hdsb : ((s.dropL1 w.core a.pa n).core w.core).sb = [] := by
    unfold State.dropL1
    split
    · exact hsb
    · rw [State.core_updCore, if_pos rfl]; exact hsb
  have hdg : (s.dropL1 w.core a.pa n).groupOf u w = none := by rw [hdrop]; exact State.groupOf_none hu hg
  have hdb : (s.dropL1 w.core a.pa n).bytes a.pa n = s.bytes a.pa n := by rw [hdrop]; rfl
  have hown : (s.dropL1 w.core a.pa n).ownBytes w.core u a.pa n = [] := by rw [State.ownBytes, hdsb]; rfl
  simp only [State.readNow, List.foldl_cons, List.foldl_nil, List.any_cons, List.any_nil, Bool.or_false, hothers, Bool.false_eq_true,
    if_false, State.readHeld_of_unlocked hlock hsnap, hearly, hdg, hdb, hown, Option.map_none, Option.getD_none, List.append_nil, List.map_cons,
    List.map_nil]
  rw [if_neg (by simp)]
  rfl

/-- A block within one page is read as its instruction issues. -/
theorem readBlock_one {i : Instr} {reg va n pa : Nat} {body : List Byte → Body} (hu : s.wave u = some w) (hg : w.group = none)
    (hpage : va % 65536 + n ≤ 65536) (hn : n ≠ 0) (hr : Reaches s w va 0 false 1 pa) (hp : s.poisoned pa n = false)
    (hsb : (s.core w.core).sb = []) (hsnap : s.snap.state ≠ 1) (hlock : s.unlocked = true) (hlate : w.late.any (·.reads) = false) :
    readBlock i reg va n body s u w = body (s.bytes pa n) ((s.dropL1 w.core pa n).setWave u w) u w := by
  obtain ⟨t, ht⟩ := checkGlobal_one (u := u) hr 0
  have hself : s.setWave u w = s := s.setWave_self hu
  have hdrop : s.dropL1 w.core pa n = { s with cores := (s.dropL1 w.core pa n).cores } := by unfold State.dropL1; split <;> rfl
  have hdg : (s.dropL1 w.core pa n).groupOf u w = none := by rw [hdrop]; exact State.groupOf_none hu hg
  have hw : ((s.dropL1 w.core pa n).regroup u w).watch [] = w := by
    rw [State.regroup, hdg]
    exact show { w with group := none } = w by rw [← hg]
  rw [readBlock, rangePieces_one hpage hn]
  simp only [readPieces, List.map_cons, List.map_nil, ht, List.zip_cons_cons, List.zip_nil_right, List.any_cons, List.any_nil, Bool.or_false, hp,
    Bool.false_eq_true, if_false, hg, hself, State.readNow_of_unlocked hu hg hsb hsnap hlock hlate, hw]
  simp

/-- The entries of a block's sectors. -/
theorem entriesOf_one (a : Acc) (bs : List Byte) :
    let es := s.entriesOf u w [(a, bs)]
    (∀ e ∈ es, KeysRise e.bytes) ∧ es.Pairwise (fun a b => a.sector ≠ b.sector) ∧
      es.length ≤ (a.pa + bs.length - 1) / 16 + 1 - a.pa / 16 ∧
      ∀ b, b < bs.length → ∃ e ∈ es, e.wave = u ∧ e.sector = (a.pa + b) / 16 ∧ mapFind e.bytes ((a.pa + b) % 16) = bs[b]? := by
  have h := gathered a bs
  refine ⟨fun e he => ?_, List.pairwise_map.2 (h.rise.imp fun h => (show _ < _ from h).ne), ?_, fun b hb => ?_⟩
  · obtain ⟨x, hx, rfl⟩ := List.mem_map.1 he
    exact h.sorted x.1 x.2 ((KeysRise.mapFind_iff h.rise _ _).2 hx)
  · rw [State.entriesOf, List.length_map]
    exact h.length_le
  · obtain ⟨x, hx, hv⟩ := h.holds b hb
    exact ⟨_, List.mem_map_of_mem ((KeysRise.mapFind_iff h.rise _ _).1 hx), rfl, rfl, hv⟩

/-- A block within one page enters a store buffer that has room for its sectors. -/
theorem writeBlock_one {va pa : Nat} {bs : List Byte} (hu : s.wave u = some w) (hg : w.group = none) (hpage : va % 65536 + bs.length ≤ 65536)
    (hn : bs ≠ []) (hr : Reaches s w va 1 false 1 pa) (hlink : s.atLink pa = false)
    (hroom : sbCount (s.core w.core).sb + ((pa + bs.length - 1) / 16 + 1 - pa / 16) ≤ sbSize w.core) :
    ∃ t, writeBlock va bs s u w = .done t ∧ t.mem = s.mem ∧ t.wave u = some { w with entering := [] } ∧
      ∀ b, b < bs.length → ∃ x ∈ (t.core w.core).sb, x.wave = u ∧ x.sector = (pa + b) / 16 ∧ mapFind x.bytes ((pa + b) % 16) = bs[b]? := by
  obtain ⟨tr, htr⟩ := checkGlobal_one (u := u) hr 0
  obtain ⟨hrise, hdist, hlen, hall⟩ := entriesOf_one (s := s) (u := u) (w := w) { lane := 0, va := va, pa := pa, tr := tr } bs
  have hdsb : ((s.dropL1 w.core pa bs.length).core w.core).sb = (s.core w.core).sb := by
    unfold State.dropL1
    split
    · rfl
    · rw [State.core_updCore, if_pos rfl]
  have hdrop : s.dropL1 w.core pa bs.length = { s with cores := (s.dropL1 w.core pa bs.length).cores } := by unfold State.dropL1; split <;> rfl
  obtain ⟨t, ht, honly, hholds, -⟩ := (s.dropL1 w.core pa bs.length).enterSectors_spec (w := w) (core := w.core) hrise hdist (hdsb.symm ▸ (Nat.add_le_add_left hlen _).trans hroom)
  have honly' : t = { s with cores := t.cores, ids := t.ids } := by
    unfold State.OnlyBuffer at honly
    rw [honly, hdrop]
  have htw : t.wave u = some w := by rw [honly']; exact hu
  have hbody : writeBlock va bs s u w = enterAll (s.entriesOf u w [({ lane := 0, va := va, pa := pa, tr := tr }, bs)])
      (s.dropL1 w.core pa bs.length) u w := by
    rw [writeBlock, rangePieces_one hpage (by simpa using hn)]
    simp [storePieces, hg, htr, storeAccs, hlink, cutBy, State.storeAtLink]
  refine ⟨t.updWave u fun w => { w with entering := [] }, ?_, ?_, ?_, fun b hb => ?_⟩
  · rw [hbody, enterAll, ht]
    rfl
  · rw [State.updWave_mem, honly']
  · simp [State.updWave, htw]
  · obtain ⟨e, he, heu, hes, hev⟩ := hall b hb
    obtain ⟨x, hx, hxw, hxs, hxb⟩ := hholds e he
    rw [State.core, State.updWave_cores]
    refine ⟨x, hx, hxw.trans heu, hxs.trans hes, ?_⟩
    rw [List.getElem?_eq_getElem hb] at hev ⊢
    exact hxb _ _ hev

end

end Sys2Proof.Machine
end

section
/-! SUPPORT. The trust core's instructions (R331 to R333). -/

set_option Elab.async false

namespace Sys2Proof.Machine

section
variable {s : State} {u : Nat} {w : Wave} {i : Instr} {f : EF}

/-- The wave as an instruction that has no earlier access to wait for finds it. -/
def Wave.unjoined (w : Wave) : Wave := { w.readied with joined := false }

theorem afterJoin_eq (hj : w.joinHolds = false) (body : Body) :
    afterJoin body (s.setWave u w.readied) u w.readied = body (s.setWave u w.unjoined) u w.unjoined := by
  rw [afterJoin, if_neg (by rw [show w.readied.joinHolds = w.joinHolds from rfl, hj]; decide)]
  dsimp only
  rw [State.setWave_setWave]
  rfl

/-- What an instruction that reads a block for some clocks leaves. -/
theorem Issues.works {body : Body} {reg va n pa clocks : Nat} {g : List Byte → State → Nat → Wave → Nat × List (Nat × Nat)} {data : List (Nat × Nat)}
    (h : Issues s u w i) (hx : exec i s = runInstr i (afterJoin body) s) (hg : w.group = none) (hj : w.joinHolds = false)
    (hb : body (s.setWave u w.unjoined) u w.unjoined = readBlock i reg va n (fun bs s u w => workFor (g bs s u w).1 (g bs s u w).2 s u w)
      (s.setWave u w.unjoined) u w.unjoined)
    (hdata : ∀ t : State, t.clock = s.clock → g (s.bytes pa n) t u w.unjoined = (s.clock + clocks, data))
    (hpage : va % 65536 + n ≤ 65536) (hn : n ≠ 0) (hr : Reaches s w va 0 false 1 pa) (hp : s.poisoned pa n = false)
    (hsb : (s.core w.core).sb = []) (hsnap : s.snap.state ≠ 1) (hlock : s.unlocked = true) (hlate : w.late.any (·.reads) = false) :
    ∃ t w', exec i s = .next t ∧ t.wave u = some w' ∧ w'.pc = w.pc ∧ w.sameArch w' ∧ s.sameMem t ∧ w'.wait = .nap (s.clock + clocks) ∧
      w'.prog.stage = 1 ∧ w'.prog.data = data := by
  have hdrop : (s.setWave u w.unjoined).dropL1 w.unjoined.core pa n =
      { s.setWave u w.unjoined with cores := ((s.setWave u w.unjoined).dropL1 w.unjoined.core pa n).cores } := by
    unfold State.dropL1; split <;> rfl
  have hread := readBlock_one (s := s.setWave u w.unjoined) (u := u) (w := w.unjoined) (i := i) (reg := reg) (va := va) (n := n) (pa := pa)
    (body := fun bs s u w => workFor (g bs s u w).1 (g bs s u w).2 s u w) (by simp) hg hpage hn hr hp hsb hsnap
    (State.unlocked_setWave hlock hg) hlate
  have hbody := (afterJoin_eq hj body).trans (hb.trans hread)
  rw [show (s.setWave u w.unjoined).bytes pa n = s.bytes pa n from rfl, hdata _ (by rw [hdrop]; rfl)] at hbody
  have hexec := h.exec_wait hx hbody (State.wave_setWave .. |>.trans (if_pos rfl))
  refine ⟨_, _, hexec, (State.waiting_wave ..).trans (if_pos rfl), rfl, ⟨rfl, rfl, rfl⟩, fun a => ?_, rfl, rfl, rfl⟩
  rw [State.waiting_byte, hdrop]
  rfl

/-- An instruction that stores a block ends with the block in the store buffer. -/
theorem Issues.stores {body : Body} {va pa : Nat} {bs : List Byte} (h : Issues s u w i) (hx : exec i s = runInstr i (afterJoin body) s)
    (hg : w.group = none) (hj : w.joinHolds = false)
    (hb : body (s.setWave u w.unjoined) u w.unjoined = writeBlock va bs (s.setWave u w.unjoined) u w.unjoined)
    (hpage : va % 65536 + bs.length ≤ 65536) (hn : bs ≠ []) (hr : Reaches s w va 1 false 1 pa) (hlink : s.atLink pa = false)
    (hroom : sbCount (s.core w.core).sb + ((pa + bs.length - 1) / 16 + 1 - pa / 16) ≤ sbSize w.core) :
    Ends s u w i fun t w' => w.sameArch w' ∧ s.sameMem t ∧ ∀ b, b < bs.length → ∃ x ∈ (t.core w.core).sb,
      x.wave = u ∧ x.sector = (pa + b) / 16 ∧ mapFind x.bytes ((pa + b) % 16) = bs[b]? := by
  obtain ⟨t, ht, hmem, hw, hall⟩ := writeBlock_one (s := s.setWave u w.unjoined) (u := u) (w := w.unjoined) (by simp) hg hpage hn hr hlink hroom
  refine h.ends hx ((afterJoin_eq hj body).trans (hb.trans ht)) hw rfl ⟨⟨?_, ?_, ?_⟩, State.sameMem_of_mem ?_, fun b hb => ?_⟩
  · rw [Wave.completed_regs]; rfl
  · rw [Wave.completed_sp]; rfl
  · rw [Wave.completed_tr]; rfl
  · simp [hmem]
  · rw [State.retire_sb]
    exact hall b hb

theorem ctlBits_low2 (f : EF) : ctlBits f 1 0 = f.ctl.toNat % 4 := by
  simp [ctlBits]

theorem ctlBits_low4 (f : EF) : ctlBits f 3 0 = f.ctl.toNat % 16 := by
  simp [ctlBits]

/-- A scalar result is one of registers and of the level that names them. -/
theorem ScalarResult.of_regs {w x w' : Wave} {d n : Nat} {v : Nat → Word} (h : ScalarResult w x d n v) (hr : w'.regs = x.regs)
    (ht : w'.tr.handler = x.tr.handler) : ScalarResult w w' d n v := by
  obtain ⟨hs, hv, hl, hp⟩ := h
  refine ⟨fun r hr' => ?_, fun r i => ?_, hr ▸ hl, hr ▸ hp⟩
  · rw [← hs r hr', Wave.s, Wave.s, hr, Wave.skey, Wave.skey, ht]
  · rw [← hv r i, Wave.v, Wave.v, hr]

/-- Writing a block of scalar registers, one after another. -/
theorem scalarResult_setScalars (w : Wave) {d n : Nat} (hd : d + n ≤ 128) (x : Nat → Word) :
    let w' := (List.range n).foldl (fun w j => w.setS (d + j) (x j)) w
    w' = { w with regs := w'.regs } ∧ ScalarResult w w' d n x := by
  induction n with
  | zero => exact ⟨rfl, scalarResult_refl w d x⟩
  | succ n ih =>
    obtain ⟨hw, hr⟩ := ih (by omega)
    simp only [List.range_succ, List.foldl_append, List.foldl_cons, List.foldl_nil]
    refine ⟨?_, hr.setS (by rw [hw]) (by omega)⟩
    rw [hw]
    rfl

/-- An instruction that writes a block of scalar registers ends with it. -/
theorem Issues.ends_scalars {body : Body} {d n : Nat} {x : Nat → Word} (h : Issues s u w i) (hx : exec i s = runInstr i (afterJoin body) s)
    (hj : w.joinHolds = false) (hd : d + n ≤ 128)
    (hb : body (s.setWave u w.unjoined) u w.unjoined =
      .done ((s.setWave u w.unjoined).setWave u ((List.range n).foldl (fun w j => w.setS (d + j) (x j)) w.unjoined))) :
    Ends s u w i fun t w' => s.sameMem t ∧ w.onlyScalar w' d n x := by
  obtain ⟨hw, hr⟩ := scalarResult_setScalars w.unjoined hd x
  have hr' : ScalarResult w ((List.range n).foldl (fun w j => w.setS (d + j) (x j)) w.unjoined) d n x := hr
  refine h.ends hx ((afterJoin_eq hj body).trans hb) (State.wave_setWave .. |>.trans (if_pos rfl)) (by rw [hw]; rfl)
    ⟨State.sameMem_of_mem (by simp), hr'.of_regs (by simp) (by simp), ?_, ?_⟩
  · rw [Wave.completed_sp, hw]; rfl
  · rw [Wave.completed_tr, hw]; rfl

/-- The digest of HASHB for the bytes of its range, with the clocks that it takes. -/
def hashOf (f : EF) (n : Nat) (bs : List Byte) (s : State) (_ : Nat) (w : Wave) : Nat × List (Nat × Nat) :=
  let h := if bit f.ctl.toNat 0 then shaInit else (List.range 8).map fun j => w.s (f.d.toNat + j)
  let m := if bit f.ctl.toNat 1 then bs ++ shaPad n (w.base f.c + n) else bs
  (s.clock + 80 * (m.length / 64), (List.range 8).map fun j => (j, (nth 0 (shaRun h m) j).toNat))

/-- The bytes that an instruction has read, kept for the end of its wait. -/
def keptBytes (clocks : Nat) (k : List Byte → List Byte) (bs : List Byte) (s : State) (_ : Nat) (_ : Wave) : Nat × List (Nat × Nat) :=
  (s.clock + clocks, (k bs).zipIdx.map fun x => (x.2, x.1.toNat))

end

end Sys2Proof.Machine

open Sys2Proof Sys2Proof.Machine

/-- Settles O45: a block within a page is one access that R24's checks let through, which is read at its home slices while nothing stands
before it, or enters a store buffer with room sector by sector. -/
theorem trustInstructions : Obligations.TrustInstructions := by
  unfold Obligations.TrustInstructions
  intro s u w f hg hj slot work stores reads
  refine ⟨fun pa h => ⟨fun hst hlen ⟨hpage, hn, hr, hp, hsb, hsnap, hlock, hlate⟩ => ?_, fun hst => ?_⟩,
    fun pa h => ⟨fun key hst hlen hkey ⟨hpage, hn, hr, hp, hsb, hsnap, hlock, hlate⟩ => ?_, fun hst hpage hn hr hlink hroom => ?_⟩,
    fun pa h => ⟨fun hst ⟨hpage, hn, hr, hp, hsb, hsnap, hlock, hlate⟩ => ?_, fun hst => ?_⟩,
    fun pa h hpage hn hr hlink hroom => ?_⟩
  · refine h.works (reg := f.a.toNat) (g := hashOf f (w.src f.b).toNat) (rfl : _ = execHashb f s) hg hj ?_ ?_ hpage hn hr hp hsb hsnap hlock hlate
    · refine (if_neg hst).trans ((if_neg ?_).trans rfl)
      rcases hlen with hf | hf
      · simp [hf]
      · have hf' : (w.unjoined.src f.b).toNat % 64 = 0 := hf
        rw [hf']; simp
    · intro t ht
      rw [hashOf, ht]
      cases hf : bit f.ctl.toNat 1
      · simp only [Bool.false_eq_true, if_false, List.append_nil]; rfl
      · simp only [if_true]; rfl
  · refine h.ends_scalars (rfl : _ = execHashb f s) hj ?_ (if_pos hst)
    exact h.destBlock (lo := 24) (lo' := 24) (al := 8) (rd := true) (by simp [Instr.must, mustE]) fun x hx => List.mem_append.2 (.inr hx)
  · refine h.works (reg := f.a.toNat) (g := keptBytes 0 (slhSignature key)) (rfl : _ = execSignq f s) hg hj ?_ ?_ hpage hn hr hp hsb hsnap hlock hlate
    · have hlong : ¬65536 < (w.unjoined.src f.b).toNat := Nat.not_lt.2 hlen
      have hkey' : (s.setWave u w.unjoined).signKey (ctlBits f 1 0) = some key := by rw [ctlBits_low2]; exact hkey
      have hst' : ¬w.unjoined.prog.stage = 1 := hst
      refine (if_neg hst').trans ((if_neg hlong).trans ?_)
      simp only [hkey', keptBytes, Nat.add_zero]
      rfl
    · intro t ht
      rw [keptBytes, ht]
  · refine h.stores (rfl : _ = execSignq f s) hg hj (if_pos hst) hpage hn hr hlink hroom
  · refine h.works (reg := f.a.toNat) (g := keptBytes 160 id) (rfl : _ = execMeasxExtend f s) hg hj ?_ ?_ hpage hn hr hp hsb hsnap hlock hlate
    · exact if_neg hst
    · intro t ht
      rw [keptBytes, ht]
      rfl
  · refine h.ends (rfl : _ = execMeasxExtend f s) ((afterJoin_eq hj _).trans (if_pos hst)) (State.wave_setWave .. |>.trans (if_pos rfl)) rfl
      ⟨⟨by rw [Wave.completed_regs]; rfl, by rw [Wave.completed_sp]; rfl, by rw [Wave.completed_tr]; rfl⟩,
        State.sameMem_of_mem (by simp; rfl), fun n => ?_⟩
    rw [State.retire_trust]
    refine (mapGet_mapPut ..).trans ?_
    rw [ctlBits_low4]
    rfl
  · refine h.stores (rfl : _ = execMeasxRead f s) hg hj ?_ hpage hn hr hlink hroom
    rw [ctlBits_low4]
    rfl

end

section
/-! SUPPORT. TASKQ and TASKSIG (R324, R325): an instruction that waits for nothing, and a write that leaves its wave. -/

set_option Elab.async false

namespace Sys2Proof.Machine

/-! ### Waves after a write -/

theorem mapFind_map_key {α β : Type} (m : List (Nat × α)) (f : Nat → α → β) (a : Nat) :
    mapFind (m.map fun x => (x.1, f x.1 x.2)) a = (mapFind m a).map (f a) := by
  induction m with
  | nil => rfl
  | cons e m ih =>
    obtain ⟨k, v⟩ := e
    simp only [List.map_cons, mapFind, ih]
    split
    next h => rw [h]; rfl
    next => split <;> rfl

theorem brokenWatch_of_none {w : Wave} (hg : w.group = none) (pa n : Nat) : brokenWatch pa n w = w := by
  unfold brokenWatch
  rw [hg]
  exact show { w with group := none } = w by rw [← hg]

/-- A wave in no commit group stands as it is after a write. -/
theorem State.wave_poke {s : State} {u : Nat} {w : Wave} (hu : s.wave u = some w) (hg : w.group = none) (pa : Nat) (bs : List Byte)
    (writer : Option Nat) : (s.poke pa bs writer).wave u = some w := by
  unfold State.poke
  dsimp only
  split
  · exact hu
  · rw [State.wave, State.touched_waves, State.breakWatches_waves, State.setBytes_waves]
    have hmap : (fun x : Nat × Wave => if writer == some x.1 then x else (x.1, brokenWatch pa bs.length x.2)) =
        fun x => (x.1, if writer == some x.1 then x.2 else brokenWatch pa bs.length x.2) := by
      funext x; split <;> rfl
    simp only [hmap]
    rw [mapFind_map_key _ fun v x => if writer == some v then x else brokenWatch pa bs.length x]
    change Option.map _ (s.wave u) = _
    rw [hu, Option.map_some, brokenWatch_of_none hg, ite_self]

/-! ### The release half of an instruction with nothing outstanding -/

section
variable {s : State} {u : Nat} {w : Wave}

theorem State.drained_of_empty {core : Nat} (h : (s.core core).sb = []) (u : Nat) : s.drained core u = true := by
  rw [State.drained, h]; rfl

theorem State.storesPerformed_only (cid : Nat) : s.storesPerformed u cid = { s with cohorts := (s.storesPerformed u cid).cohorts } ∧
    (s.storesPerformed u cid).marked u cid = s.marked u cid ∧ ∀ x, (s.storesPerformed u cid).waveAsid x = s.waveAsid x ∧
      (s.storesPerformed u cid).waveWorld x = s.waveWorld x := by
  cases hc : s.cohort cid with
  | none => simp [State.storesPerformed, State.updCohort, hc]
  | some c =>
    rw [State.storesPerformed_eq hc]
    refine ⟨rfl, by simp [State.marked, hc, Cohort.performed], fun x => ?_⟩
    by_cases hx : x.cohort = cid <;> simp [State.waveAsid, State.waveWorld, hx, hc, Cohort.performed]

/-- Nothing is outstanding, so nothing is waited for. -/
theorem State.predecessors_clear (hl : w.late.any (·.reads) = false) (hr : s.remoteDone u = true) (hsb : (s.core w.core).sb = [])
    (hm : s.marked u w.cohort = true) (wr : Bool) :
    ∃ cs, s.predecessors u w true wr true = ({ s with cohorts := cs }, true) ∧
      ∀ x, State.waveAsid { s with cohorts := cs } x = s.waveAsid x ∧ State.waveWorld { s with cohorts := cs } x = s.waveWorld x := by
  obtain ⟨honly, hmark, hwave⟩ := s.storesPerformed_only (u := u) w.cohort
  cases wr with
  | false => exact ⟨s.cohorts, by simp [State.predecessors, hl, hr], fun _ => ⟨rfl, rfl⟩⟩
  | true =>
    refine ⟨(s.storesPerformed u w.cohort).cohorts, ?_⟩
    have hd : (s.storesPerformed u w.cohort).drained w.core u = true := by rw [honly]; exact State.drained_of_empty hsb u
    have hr' : (s.storesPerformed u w.cohort).remoteDone u = true := by rw [honly]; exact hr
    simp only [State.predecessors, hl, Bool.and_false, Bool.false_eq_true, if_false, if_true,
      State.drainWave_of_drained (State.drained_of_empty hsb u), hd, hmark, hm, hr']
    rw [← honly]
    exact ⟨rfl, hwave⟩

end

/-! ### Engines that reach memory -/

theorem engineXlate_of_reaches {s : State} {die asid va access pa : Nat} {who : Who} (h : s.engineReaches die asid who va access pa) (world : Nat) :
    ∃ t, engineXlate s die asid world who va access = .ok pa t s := by
  obtain ⟨hc, t, ht, hp, ha, rfl⟩ := h
  exact ⟨t, by simp [engineXlate, hc, ht, hp, ha]⟩

/-- A block within one page is read at once. -/
theorem engineRead_of_reaches {s : State} {die asid va access pa n : Nat} {who : Who} (h : s.engineReaches die asid who va access pa) (world : Nat)
    (hpage : va % 65536 + n ≤ 65536) (hp : s.poisoned pa n = false) (fuel : Nat) :
    engineRead die asid world who access (fuel + 2) s va n = .ok (s.bytes pa n) s := by
  obtain ⟨t, ht⟩ := engineXlate_of_reaches h world
  have hm : min n (65536 - va % 65536) = n := by omega
  rw [engineRead]
  split
  next h0 => simp [h0, State.bytes]
  next => simp [hm, ht, hp, engineRead]

/-! ### A word that an instruction reaches -/

section
variable {s t : State} {u : Nat} {w x : Wave}

theorem State.Still.congr (h : s.Still) (hw : t.waves = s.waves) (hsnap : t.snap = s.snap) (hd : t.dies = s.dies) : t.Still := by
  refine ⟨?_, hsnap ▸ h.unmarked, hsnap ▸ h.unarmed, hd ▸ h.noWatch, ?_⟩
  · rw [State.unlocked, hw]; exact h.unlocked
  · rw [State.unwatched, hw, hd]; exact h.unwatched

/-- A wave that runs on and holds no lines leaves the package still. -/
theorem State.Still.setWave (h : s.Still) (hg : x.group = none) (hx : x.wait = .ready) : (s.setWave u x).Still := by
  refine ⟨State.unlocked_setWave h.unlocked hg, h.unmarked, h.unarmed, h.noWatch, ?_⟩
  obtain ⟨hd, hw⟩ := Bool.and_eq_true_iff.1 h.unwatched
  refine Bool.and_eq_true_iff.2 ⟨hd, List.all_eq_true.2 fun y hy => ?_⟩
  rcases mem_of_mem_mapInsert hy with rfl | hy
  · simp [hx]
  · exact List.all_eq_true.1 hw y hy

theorem State.regroup_of_none (hu : s.wave u = some w) (hg : w.group = none) : s.regroup u w = w := by
  rw [State.regroup, State.groupOf_none hu hg]
  exact show { w with group := none } = w by rw [← hg]

theorem Wave.earlierRead_of_none (h : w.late.any (·.reads) = false) (seq k : Nat) : w.earlierRead seq k = false := by
  refine List.any_eq_false.2 fun l hl => ?_
  have := List.any_eq_false.1 h l hl
  unfold Late.reads at this
  cases hk : l.kind <;> simp_all

theorem forbiddenInGroup_of_none (hg : w.group = none) (body : Body) : forbiddenInGroup body s u w = body s u w := by
  simp [forbiddenInGroup, hg]

/-- An instruction reaches a word with nothing in the way. -/
theorem wordAccess_clear {i : Instr} {base : BitVec 8} {reg access pa : Nat} {body : Nat → Body} (hg : w.group = none) (hj : w.joinHolds = false)
    (hr : Reaches s w (w.base base) access false 8 pa) (hp : s.poisoned pa 8 = false) (hsb : (s.core w.core).sb = [])
    (hlate : w.late.any (·.reads) = false) (hs : s.still = true) :
    wordAccess i base reg access body (s.setWave u w.readied) u w.readied = body pa (s.setWave u w.unjoined) u w.unjoined := by
  have hstill : (s.setWave u w.unjoined).Still := ((State.still_iff s).1 hs).setWave hg rfl
  rw [wordAccess, afterJoin_eq hj]
  obtain ⟨t, ht⟩ := checkGlobal_one (s := s.setWave u w.unjoined) (u := u) (w := w.unjoined) hr 0
  have hown : (s.setWave u w.unjoined).ownBytes w.unjoined.core u pa 8 = [] := by
    rw [State.ownBytes, show ((s.setWave u w.unjoined).core w.unjoined.core).sb = [] from hsb]; rfl
  have hregroup : (s.setWave u w.unjoined).regroup u w.unjoined = w.unjoined :=
    State.regroup_of_none ((State.wave_setWave ..).trans (if_pos rfl)) hg
  have hpoison : (s.setWave u w.unjoined).poisoned pa 8 = false := hp
  rw [show w.unjoined.base base = w.base base from rfl]
  simp only [ht, hpoison, hown, List.isEmpty_nil, if_true, Bool.false_eq_true, if_false, Bool.not_true, Bool.false_or,
    Wave.earlierRead_of_none (w := w.unjoined) hlate, State.lineLocked_of_unlocked hstill.unlocked, hstill.writeHeld, Bool.and_false, hregroup]

/-- The package after a release, which leaves `cs` of the cohorts. -/
def State.afterRelease (s : State) (u : Nat) (w : Wave) (cs : List (Nat × Cohort)) : State := { s.setWave u w.unjoined with cohorts := cs }

/-- The release half of an instruction that changes a word, with nothing outstanding, leaves the package as it stood but for what its
cohort has stored. -/
theorem State.predecessors_unjoined (hlate : w.late.any (·.reads) = false) (hr : s.remoteDone u = true) (hsb : (s.core w.core).sb = [])
    (hm : s.marked u w.cohort = true) (wr : Bool) :
    ∃ cs, (s.setWave u w.unjoined).predecessors u w.unjoined true wr true = (s.afterRelease u w cs, true) ∧
      ∀ x, (s.afterRelease u w cs).waveAsid x = s.waveAsid x ∧ (s.afterRelease u w cs).waveWorld x = s.waveWorld x :=
  State.predecessors_clear (s := s.setWave u w.unjoined) (w := w.unjoined) hlate hr hsb hm wr

theorem State.dropL1_only (s : State) (core pa n : Nat) : s.dropL1 core pa n = { s with cores := (s.dropL1 core pa n).cores } := by
  unfold State.dropL1; split <;> rfl

/-- The word of an instruction that has released is written: what its atomic leaves. -/
structure State.WordWritten (s t : State) (u : Nat) (w : Wave) (pa v : Nat) : Prop where
  wave : t.wave u = some w.unjoined
  byte : ∀ a, t.byte a = if pa ≤ a ∧ a < pa + 8 then nth 0 (natLe 8 v) (a - pa) else s.byte a
  read : t.read pa 8 = v % 256 ^ 8
  sched : t.sched = s.sched

/-- The package after a release, which leaves `cs` of the cohorts, and the write of a word. -/
def State.afterWord (s : State) (u : Nat) (w : Wave) (cs : List (Nat × Cohort)) (pa v : Nat) : State :=
  ((s.afterRelease u w cs).dropL1 w.core pa 8).writeHome pa (natLe 8 v) (some u)

theorem State.wordWritten (hg : w.group = none) (hs : s.still = true) (cs : List (Nat × Cohort)) (pa v : Nat) :
    s.WordWritten (s.afterWord u w cs pa v) u w pa v := by
  have honly := State.dropL1_only (s.afterRelease u w cs) w.core pa 8
  have hstill : ((s.afterRelease u w cs).dropL1 w.core pa 8).Still := by
    refine (((State.still_iff s).1 hs).setWave (u := u) (x := w.unjoined) hg rfl).congr ?_ ?_ ?_ <;> rw [honly] <;> rfl
  have ht : s.afterWord u w cs pa v = ((s.afterRelease u w cs).dropL1 w.core pa 8).poke pa (natLe 8 v) (some u) := hstill.writeHome ..
  refine ⟨?_, fun a => ?_, ?_, ?_⟩
  · rw [ht]
    refine State.wave_poke (w := w.unjoined) ?_ hg ..
    rw [honly]
    exact (State.wave_setWave ..).trans (if_pos rfl)
  · rw [ht, State.byte_poke, length_natLe, honly]
    rfl
  · rw [ht, State.read_poke_self]
  · rw [ht, State.poke_sched, honly]
    rfl

theorem any_mapInsert {α : Type} {p : Nat × α → Bool} (m : List (Nat × α)) {a : Nat} {x : α} (hp : ∀ y, p (a, y) = false) :
    (mapInsert m a x).any p = m.any p := by
  induction m with
  | nil => simp [mapInsert, hp]
  | cons e m ih =>
    obtain ⟨k, v⟩ := e
    simp only [mapInsert]
    split
    next h => rw [List.any_cons, List.any_cons, hp, ← h, hp]
    next =>
      split
      · rw [List.any_cons, hp, Bool.false_or]
      · rw [List.any_cons, List.any_cons, ih]

/-- What holds a wave's reads is not the wave itself. -/
theorem State.readHeld_afterRelease (cs : List (Nat × Cohort)) (pa n : Nat) :
    (s.afterRelease u w cs).readHeld pa n (some u) = s.readHeld pa n (some u) := by
  have hlock : (s.afterRelease u w cs).lineLocked pa n (some u) = s.lineLocked pa n (some u) :=
    any_mapInsert s.waves fun y => by simp
  rw [State.readHeld, State.readHeld, hlock]
  rfl

/-- What TASKQ comes to once nothing holds it back: its status, and the state with it. -/
def State.taskq (s : State) (w : Wave) (f : EF) (desc : List Byte) : Nat × State :=
  let q := (w.src f.a).toNat
  if !(s.queue q).enabled || (s.queue q).world q != s.waveWorld w then (2, s) else s.append (dieOf w.core) q desc

theorem Ends.mono {i : Instr} {P Q : State → Wave → Prop} (h : Ends s u w i P) (hPQ : ∀ t w', P t w' → Q t w') : Ends s u w i Q := by
  obtain ⟨t, w', hx, hw, hpc, hcl, hP⟩ := h
  exact ⟨t, w', hx, hw, hpc, hcl, hPQ t w' hP⟩

/-- An instruction that ends with a word of its own in one scalar register, in a package in which its wave stands as it found it. -/
theorem Issues.ends_scalar {i : Instr} {body : Body} {d : Nat} {v : Word} (h : Issues s u w i) (hx : exec i s = runInstr i body s)
    (hd : d < 128) (hw : t.wave u = some w.unjoined)
    (hb : body (s.setWave u w.readied) u w.readied = .done (t.updWave u fun w => w.setS d v)) :
    Ends s u w i fun t' w' => w.onlyScalar w' d 1 (fun _ => v) ∧ t'.mem = t.mem ∧ t'.sched = t.sched := by
  have hr : ScalarResult w (w.unjoined.setS d v) d 1 fun _ => v := scalarResult_setS w.unjoined hd fun _ => v
  refine h.ends hx hb (x := w.unjoined.setS d v) (by simp [State.updWave, hw]) rfl ⟨⟨hr.of_regs (by simp) (by simp), ?_, ?_⟩, ?_, ?_⟩
  · rw [Wave.completed_sp]; rfl
  · rw [Wave.completed_tr]; rfl
  · simp
  · simp

section
variable {die n tailPa retPa slotPa : Nat} {desc : List Byte}

/-- A ring reached by the append engine of its queue (R324). -/
structure State.RingAt (s : State) (die n tailPa retPa : Nat) : Prop where
  tail : s.engineReaches die (s.queue n).asid ((s.queue n).who n) ((s.queue n).ringVa % 2 ^ 64) 2 tailPa
  ret : s.engineReaches die (s.queue n).asid ((s.queue n).who n) (((s.queue n).ringVa + 96) % 2 ^ 64) 0 retPa
  tailOk : s.poisoned tailPa 8 = false
  retOk : s.poisoned retPa 8 = false

theorem State.RingAt.append_full (h : s.RingAt die n tailPa retPa)
    (hfull : (s.queue n).slotCount n ≤ (s.read tailPa 8 + 2 ^ 64 - s.read retPa 8) % 2 ^ 64) : s.append die n desc = (1, s) := by
  obtain ⟨t, ht⟩ := engineXlate_of_reaches h.tail ((s.queue n).world n)
  obtain ⟨r, hr⟩ := engineXlate_of_reaches h.ret ((s.queue n).world n)
  simp only [State.append, ht, hr, h.tailOk, h.retOk, Bool.false_eq_true, or_self, if_false, if_pos hfull]

theorem State.RingAt.append_ok (h : s.RingAt die n tailPa retPa)
    (hroom : (s.read tailPa 8 + 2 ^ 64 - s.read retPa 8) % 2 ^ 64 < (s.queue n).slotCount n)
    (hslot : s.engineReaches die (s.queue n).asid ((s.queue n).who n)
      (((s.queue n).ringVa + 128 + 128 * (s.read tailPa 8 % (s.queue n).slotCount n)) % 2 ^ 64) 1 slotPa) :
    s.append die n desc = (0, ((s.writeHome slotPa desc).writeHome tailPa (natLe 8 (s.read tailPa 8 + 1))).ringBell n) := by
  obtain ⟨t, ht⟩ := engineXlate_of_reaches h.tail ((s.queue n).world n)
  obtain ⟨r, hr⟩ := engineXlate_of_reaches h.ret ((s.queue n).world n)
  obtain ⟨p, hp⟩ := engineXlate_of_reaches hslot ((s.queue n).world n)
  simp only [State.append, ht, hr, hp, h.tailOk, h.retOk, Bool.false_eq_true, or_self, if_false, if_neg (Nat.not_le.2 hroom)]

end

/-- TASKQ that nothing holds back ends with its status. -/
theorem Issues.ends_taskq {f : EF} {cs : List (Nat × Cohort)} {pa x : Nat} (h : Issues s u w (.taskq f)) (hg : w.group = none)
    (hj : w.joinHolds = false) (hsb : (s.core w.core).sb = [])
    (hpred : (s.setWave u w.unjoined).predecessors u w.unjoined true (decide (1 ≤ ctlBits f 2 0)) true = (s.afterRelease u w cs, true))
    (hwave : (s.afterRelease u w cs).waveAsid w = s.waveAsid w ∧ (s.afterRelease u w cs).waveWorld w = s.waveWorld w)
    (hn : (w.src f.a).toNat < 256) (hal : w.base f.b % 128 = 0)
    (hreach : s.engineReaches (dieOf w.core) (s.waveAsid w) (s.waveWho w) (w.base f.b) 0 pa) (hp : s.poisoned pa 128 = false)
    (hheld : s.readHeld pa 128 (some u) = false) (ht : (s.afterRelease u w cs).taskq w f (s.bytes pa 128) = (x, t))
    (hw : t.wave u = some w.unjoined) :
    Ends s u w (.taskq f) fun t' w' => w.onlyScalar w' f.d.toNat 1 (fun _ => BitVec.ofNat 32 x) ∧ t'.mem = t.mem ∧ t'.sched = t.sched := by
  refine h.ends_scalar (rfl : _ = execTaskq f s) (h.destReg (lo := 24) (by simp [Instr.must, mustE])) hw ?_
  let t₀ := s.afterRelease u w cs
  let x₀ := w.unjoined
  have hq : ¬255 < (x₀.src f.a).toNat := Nat.not_lt.2 (Nat.le_of_lt_succ hn)
  have hal' : ¬x₀.base f.b % 128 ≠ 0 := not_not_intro hal
  have hreach' : t₀.engineReaches (dieOf x₀.core) (t₀.waveAsid x₀) (t₀.waveWho x₀) (x₀.base f.b) 0 pa := by
    rw [show t₀.waveAsid x₀ = s.waveAsid w from hwave.1, show t₀.waveWho x₀ = s.waveWho w by rw [State.waveWho, State.waveWho, ← hwave.2]; rfl]
    exact hreach
  obtain ⟨tr, htr⟩ := engineXlate_of_reaches hreach' (t₀.waveWorld x₀)
  have hread := engineRead_of_reaches hreach' (t₀.waveWorld x₀) (n := 128) (show w.base f.b % 65536 + 128 ≤ 65536 by omega) hp 0
  have hempty : (t₀.core x₀.core).sb = [] := hsb
  have hheld' : t₀.readHeld pa 128 (some u) = false := (State.readHeld_afterRelease cs pa 128).trans hheld
  rw [forbiddenInGroup_of_none (show w.readied.group = none from hg), afterJoin_eq hj]
  dsimp only
  rw [if_neg hq, if_neg hal', hpred]
  dsimp only
  rw [State.drainWave_of_drained (State.drained_of_empty hempty u), State.drained_of_empty hempty u, htr, hread]
  simp only [Bool.not_true, Bool.false_eq_true, if_false, hheld']
  rw [show (t₀.queue (x₀.src f.a).toNat).world (x₀.src f.a).toNat = (t₀.queue (w.src f.a).toNat).world (w.src f.a).toNat from rfl]
  by_cases hq : (!(t₀.queue (w.src f.a).toNat).enabled || (t₀.queue (w.src f.a).toNat).world (w.src f.a).toNat != t₀.waveWorld w) = true
  · obtain ⟨rfl, rfl⟩ := Prod.mk.inj ((if_pos hq).symm.trans ht)
    exact if_pos hq
  · rw [show x = (t₀.append (dieOf w.core) (w.src f.a).toNat (s.bytes pa 128)).1 from congrArg Prod.fst (ht.symm.trans (if_neg hq)),
      show t = (t₀.append (dieOf w.core) (w.src f.a).toNat (s.bytes pa 128)).2 from congrArg Prod.snd (ht.symm.trans (if_neg hq))]
    exact if_neg hq

end

end Sys2Proof.Machine

open Sys2Proof Sys2Proof.Machine

/-- Settles O50: with nothing outstanding TASKQ is the append to a ring that its queue's engine reaches, and TASKSIG one write of its word. -/
theorem taskInstructions : Obligations.TaskInstructions := by
  unfold Obligations.TaskInstructions
  intro s u w f hg hj hlate hrem hsb hmark
  refine ⟨fun h pa => ?_, fun h pa hr hp hs hwait => ?_⟩
  · intro n q die reach status hn hal hreach hp hheld
    obtain ⟨cs, hpred, hcs⟩ := State.predecessors_unjoined hlate hrem hsb hmark (decide (1 ≤ ctlBits f 2 0))
    have hdone := fun x t => h.ends_taskq (x := x) (t := t) hg hj hsb hpred (hcs w) hn hal hreach hp hheld
    have hself : (s.afterRelease u w cs).wave u = some w.unjoined := (State.wave_setWave ..).trans (if_pos rfl)
    have hworld : (s.afterRelease u w cs).waveWorld w = s.waveWorld w := (hcs w).2
    refine ⟨fun hoff => ?_, fun tailPa retPa hon hmine htail hret hpt hpr => ?_⟩
    · refine (hdone 2 (s.afterRelease u w cs) (if_pos ?_) hself).mono fun t w' ⟨hs, hmem, _⟩ => ⟨hs, State.sameMem_of_mem hmem⟩
      rw [hworld]
      show (!q.enabled || q.world n != s.waveWorld w) = true
      rcases hoff with hoff | hoff
      · simp [hoff]
      · simp [hoff]
    · intro tail used
      have hring : (s.afterRelease u w cs).RingAt die n tailPa retPa := ⟨htail, hret, hpt, hpr⟩
      have htaskq : (s.afterRelease u w cs).taskq w f (s.bytes pa 128) = (s.afterRelease u w cs).append die n (s.bytes pa 128) := by
        refine if_neg ?_
        rw [hworld]
        show ¬(!q.enabled || q.world n != s.waveWorld w) = true
        simp [hon, hmine]
      refine ⟨fun hfull => ?_, fun slotPa hroom hslot hs => ?_⟩
      · exact (hdone 1 _ (htaskq.trans (hring.append_full hfull)) hself).mono fun t w' ⟨hs, hmem, _⟩ => ⟨hs, State.sameMem_of_mem hmem⟩
      · have hst : (s.afterRelease u w cs).Still :=
          (((State.still_iff s).1 hs).setWave (u := u) (x := w.unjoined) hg rfl).congr rfl rfl rfl
        have happ := htaskq.trans (hring.append_ok hroom hslot)
        rw [hst.writeHome, (hst.poke slotPa _ none).writeHome, show (s.afterRelease u w cs).read tailPa 8 = tail from rfl] at happ
        obtain ⟨r, hr⟩ : ∃ r, ((s.afterRelease u w cs).poke slotPa (s.bytes pa 128) none).poke tailPa (natLe 8 (tail + 1)) none = r := ⟨_, rfl⟩
        have hwave : r.wave u = some w.unjoined := hr ▸ State.wave_poke (State.wave_poke hself hg ..) hg ..
        have hqueue : r.queue n = q := by rw [State.queue, ← hr, State.poke_sched, State.poke_sched]; rfl
        have hread : r.read tailPa 8 = (tail + 1) % 256 ^ 8 := hr ▸ State.read_poke_self ..
        have hbyte : ∀ a, ¬(tailPa ≤ a ∧ a < tailPa + 8) →
            r.byte a = if slotPa ≤ a ∧ a < slotPa + 128 then s.byte (pa + (a - slotPa)) else s.byte a := by
          intro a ha
          rw [← hr, State.byte_poke_out _ none (by rw [length_natLe]; omega), State.byte_poke, show (s.bytes pa 128).length = 128 by simp [State.bytes]]
          split
          · rw [State.bytes, nth_map_range _ _ _ (by omega)]
          · rfl
        rw [hr, State.ringBell, if_pos (by rw [hqueue]; exact hon)] at happ
        refine (hdone 0 _ happ hwave).mono fun t w' ⟨hs, hmem, hsched⟩ => ⟨hs, ?_, ?_, fun a ha => ?_⟩
        · exact (State.read_of_mem (t := t) (s := r) hmem tailPa 8).trans (hread.trans (by norm_num))
        · rw [State.queue, hsched]
          exact congrArg Queue.bell (mapGet_mapPut_self Queue.reset r.sched.queues n { r.queue n with bell := true })
        · exact (State.byte_of_mem (t := t) (s := r) hmem a).trans (hbyte a ha)
  · obtain ⟨cs, hpred, hcs⟩ := State.predecessors_unjoined hlate hrem hsb hmark (decide (1 ≤ ctlBits f 2 0))
    obtain ⟨hwave, hbyte, hread, hsched⟩ := State.wordWritten (u := u) hg hs cs pa (s.read pa 8 + (w.src64 f.a).toNat)
    refine h.ends (rfl : _ = execTasksig f s) (t := s.afterWord u w cs pa (s.read pa 8 + (w.src64 f.a).toNat)) ?_
      hwave rfl ⟨⟨?_, ?_, ?_⟩, ?_, fun a ha => ?_⟩
    · have hfilter : s.sched.tasks.filter (fun t => t.stage == .waiting) = [] :=
        List.filter_eq_nil_iff.2 fun x hx => by simpa using hwait x hx
      have hheld : (s.afterRelease u w cs).timelineHeld pa 8 = false := by
        rw [State.timelineHeld, show (s.afterRelease u w cs).snap = s.snap from rfl, beq_eq_false_iff_ne.2 ((State.still_iff s).1 hs).unarmed]
        rfl
      rw [forbiddenInGroup_of_none (show w.readied.group = none from hg), wordAccess_clear hg hj hr hp hsb hlate hs]
      dsimp only
      rw [hpred]
      simp only [Bool.not_true, Bool.false_eq_true, if_false, hheld]
      show Act.done (List.foldl _ (s.afterWord u w cs pa (s.read pa 8 + (w.src64 f.a).toNat))
        (((s.afterWord u w cs pa (s.read pa 8 + (w.src64 f.a).toNat)).sched.tasks.filter _).map _)) = _
      rw [hsched, hfilter]
      rfl
    · rw [Wave.completed_regs]; rfl
    · rw [Wave.completed_sp]; rfl
    · rw [Wave.completed_tr]; rfl
    · rw [State.read_of_mem (State.retire_mem ..), hread]
      norm_num
    · rw [State.retire_byte, hbyte, if_neg ha]

end

section
/-! SUPPORT. Words of memory that waves wait on and change (R147, R279, R284). -/

set_option Elab.async false

namespace Sys2Proof.Machine

section
variable {s t : State} {u : Nat} {w x : Wave} {i : Instr} {body : Body}

theorem Wave.sameArch_completed (hregs : x.regs = w.regs) (hsp : x.sp = w.sp)
    (htr : { x.tr with bpSkip := false } = { w.tr with bpSkip := false }) (pc : DWord) (leaves closes : Bool) :
    w.sameArch (x.completed pc leaves closes) := by
  refine ⟨?_, ?_, ?_⟩
  · rw [Wave.completed_regs, hregs]
  · rw [Wave.completed_sp, hsp]
  · rw [Wave.completed_tr]; exact htr

/-- The acquire half of a wait that no earlier read outlives. -/
theorem acquired_wave (s : State) (u : Nat) (w : Wave) (hlate : w.late.any (·.reads) = false) : (acquired s u w).wave u = some w := by
  rw [acquired, State.acquire_wave]
  simp [hlate]

theorem acquired_byte (s : State) (u : Nat) (w : Wave) (a : Nat) : (acquired s u w).byte a = s.byte a := by
  rw [acquired, State.acquire_byte]; rfl

/-- A wait on a word that is satisfied goes on with the acquire half done. -/
theorem Issues.ends_acquired (h : Issues s u w i) (hx : exec i s = runInstr i body s) (hlate : w.late.any (·.reads) = false)
    (hb : body (s.setWave u w.readied) u w.readied = .done (acquired (s.setWave u w.unjoined) u w.unjoined)) :
    Ends s u w i fun t w' => w.sameArch w' ∧ s.sameMem t ∧ (t.core w.core).l1 = [] := by
  refine h.ends hx hb (acquired_wave _ u _ hlate) rfl ⟨Wave.sameArch_completed rfl rfl rfl .., fun a => ?_, ?_⟩
  · rw [State.retire_byte, acquired_byte]; rfl
  · rw [State.retire_l1]
    exact State.acquire_l1 ..

/-- One that is not waits at its word. -/
theorem Issues.waits_word (h : Issues s u w i) (hx : exec i s = runInstr i body s) {wt : Wait} {p : Progress}
    (hb : body (s.setWave u w.readied) u w.readied = .wait ((s.setWave u w.unjoined).setWave u { w.unjoined with prog := p }) wt) :
    ∃ t w', exec i s = .next t ∧ t.wave u = some w' ∧ w'.wait = wt ∧ w'.pc = w.pc ∧ w.sameArch w' ∧ s.sameMem t := by
  refine ⟨_, _, h.exec_wait hx hb ((State.wave_setWave ..).trans (if_pos rfl)), (State.waiting_wave ..).trans (if_pos rfl), rfl, rfl,
    ⟨rfl, rfl, rfl⟩, fun a => ?_⟩
  rw [State.waiting_byte]
  rfl

theorem nth_natLe (n v i : Nat) (hi : i < n) : nth 0 (natLe n v) i = BitVec.ofNat 8 (v / 256 ^ i) := by
  induction n generalizing v i with
  | zero => omega
  | succ n ih =>
    cases i with
    | zero => simp [natLe, nth]
    | succ i =>
      have := ih (v / 256) i (by omega)
      rw [Nat.div_div_eq_div_mul, ← Nat.pow_succ'] at this
      simpa [natLe, nth] using this

/-- The word of an instruction that changes it and nothing else. -/
theorem Issues.ends_word {cs : List (Nat × Cohort)} {pa : Nat} {v : DWord} (h : Issues s u w i) (hx : exec i s = runInstr i body s)
    (hg : w.group = none) (hs : s.still = true)
    (hb : body (s.setWave u w.readied) u w.readied = .done (s.afterWord u w cs pa v.toNat)) :
    Ends s u w i fun t w' => w.sameArch w' ∧ ∀ a, t.byte a =
      if pa ≤ a ∧ a < pa + 8 then BitVec.ofNat 8 (v.toNat / 256 ^ (a - pa)) else s.byte a := by
  obtain ⟨hwave, hbyte, -, -⟩ := State.wordWritten (u := u) hg hs cs pa v.toNat
  refine h.ends hx hb hwave rfl ⟨Wave.sameArch_completed rfl rfl rfl .., fun a => ?_⟩
  rw [State.retire_byte, hbyte]
  split
  · exact nth_natLe _ _ _ (by omega)
  · rfl

/-- Clearing the bits of a mask. -/
theorem sub_and_toNat (m x : DWord) : m.toNat - (m.toNat &&& x.toNat) = (m &&& ~~~x).toNat := by
  have hsplit : (m &&& x) + (m &&& ~~~x) = m := by
    rw [BitVec.add_eq_or_of_and_eq_zero _ _ (by ext k hk; simp; grind)]
    ext k hk
    simp
    grind
  have hle : (m &&& x).toNat ≤ m.toNat := by rw [BitVec.toNat_and]; exact Nat.and_le_left
  have hsum := congrArg BitVec.toNat hsplit
  rw [BitVec.toNat_add] at hsum
  rw [← BitVec.toNat_and]
  omega

theorem sub_bit_toNat (m : DWord) {j : Nat} (hj : j < 64) (hm : m.getLsbD j = true) :
    m.toNat - 2 ^ j = (m &&& ~~~((1 : DWord) <<< j)).toNat := by
  have hone : ((1 : DWord) <<< j).toNat = 2 ^ j := by
    rw [BitVec.toNat_shiftLeft, show (1 : DWord).toNat = 1 from rfl, Nat.one_shiftLeft, Nat.mod_eq_of_lt (Nat.pow_lt_pow_right (by decide) hj)]
  rw [← sub_and_toNat, hone, Nat.and_two_pow, show m.toNat.testBit j = true from hm, Bool.toNat_true, Nat.one_mul]

theorem leNat_lt (bs : List Byte) : leNat bs < 256 ^ bs.length := by
  induction bs with
  | nil => decide
  | cons b bs ih =>
    have := b.isLt
    simp only [leNat, List.length_cons, Nat.pow_succ]
    omega

/-- A word of memory as a 64-bit value. -/
theorem State.toNat_word (s : State) (pa : Nat) : (BitVec.ofNat 64 (s.read pa 8)).toNat = s.read pa 8 := by
  rw [BitVec.toNat_ofNat]
  refine Nat.mod_eq_of_lt ((leNat_lt _).trans_eq ?_)
  rw [State.bytes, List.length_map, List.length_range]
  norm_num

/-- The lowest bit of a word. -/
theorem lowestBit_eq {x : DWord} {j : Nat} (hj : j < 64) (hx : x.getLsbD j = true) (hlow : ∀ k, k < j → x.getLsbD k = false) :
    lowestBit x.toNat = j := by
  have hfind : (List.range 64).find? (fun j => bit x.toNat j) = some j := by
    rw [List.find?_range_eq_some]
    refine ⟨?_, List.mem_range.2 hj, fun k hk => ?_⟩
    · rw [bit_eq_getLsbD]; exact hx
    · rw [bit_eq_getLsbD, hlow k hk]; rfl
  rw [lowestBit, hfind]
  rfl

end

end Sys2Proof.Machine

open Sys2Proof Sys2Proof.Machine

/-- Settles O31: with nothing outstanding the word is read at its home slice, and an instruction that changes it writes it there once. -/
theorem memoryWords : Obligations.MemoryWords := by
  unfold Obligations.MemoryWords
  intro s u w f pa hg hj hprog hsb hs hp hlate hrem hmark x m any goes waits word
  have hgr : w.readied.group = none := hg
  have hst : ¬w.readied.prog.stage = 2 := by rw [show w.readied.prog = Progress.none from hprog]; decide
  have hstill := (State.still_iff s).1 hs
  have hheld : ∀ cs, (s.afterRelease u w cs).readHeld pa 8 (some u) = false := fun cs =>
    (State.readHeld_afterRelease cs pa 8).trans (hstill.readHeld ..)
  have hheld0 : (s.setWave u w.unjoined).readHeld pa 8 (some u) = false := hheld s.cohorts
  have hm : m.toNat = s.read pa 8 := s.toNat_word pa
  obtain ⟨cs, hpred, -⟩ := State.predecessors_unjoined hlate hrem hsb hmark (decide (1 ≤ ctlBits f 2 0))
  have hx' : x ≠ 0 → ¬(w.readied.src64 f.a).toNat = 0 := fun hx h0 => hx (BitVec.eq_of_toNat_eq h0)
  refine ⟨fun hr => ⟨fun h => ?_, fun h hmask => ?_⟩, fun hr => ⟨fun h => ?_, fun h => ?_, fun h hx => ⟨fun j hj64 hbit hlow => ?_, fun hnone => ?_⟩⟩⟩
  · split
    next hle =>
      refine h.ends_acquired (rfl : _ = execWaittMemory f s) hlate ?_
      rw [forbiddenInGroup_of_none hgr, if_neg hst, wordAccess_clear hg hj hr hp hsb hlate hs]
      exact if_pos (by rw [hheld0, Bool.not_false, Bool.true_and]; exact decide_eq_true (show x.toNat ≤ s.read pa 8 from hm ▸ hle))
    next hle =>
      refine h.waits_word (p := w.prog) (rfl : _ = execWaittMemory f s) ?_
      rw [forbiddenInGroup_of_none hgr, if_neg hst, wordAccess_clear hg hj hr hp hsb hlate hs, State.setWave_setWave]
      exact if_neg (by rw [hheld0, Bool.not_false, Bool.true_and, decide_eq_true_eq]; exact show ¬x.toNat ≤ s.read pa 8 from hm ▸ hle)
  · have hany : bit f.ctl.toNat 3 = decide any := rfl
    have hmask' : ¬(bit f.ctl.toNat 3 && (w.readied.src64 f.a).toNat == 0) = true := fun hbad => by
      rw [Bool.and_eq_true, hany, decide_eq_true_eq, beq_iff_eq] at hbad
      exact hmask ⟨hbad.1, BitVec.eq_of_toNat_eq hbad.2⟩
    have hand : (m &&& x).toNat = s.read pa 8 &&& x.toNat := by rw [BitVec.toNat_and, hm]
    have hholds : sbHolds (s.read pa 8) x.toNat (bit f.ctl.toNat 3) = true ↔ if any then m &&& x ≠ 0 else m &&& x = x := by
      rw [hany, sbHolds, ← hand]
      by_cases ha : any
      · simp [ha, ← BitVec.toNat_inj]
      · simp [ha, ← BitVec.toNat_inj]
    by_cases hle : if any then m &&& x ≠ 0 else m &&& x = x
    · rw [if_pos hle]
      refine h.ends_acquired (rfl : _ = execSbwait f s) hlate ?_
      rw [forbiddenInGroup_of_none hgr]
      dsimp only
      rw [if_neg hst, if_neg hmask', wordAccess_clear hg hj hr hp hsb hlate hs]
      exact if_pos (by rw [hheld0, Bool.not_false, Bool.true_and]; exact hholds.2 hle)
    · rw [if_neg hle]
      refine h.waits_word (p := w.prog) (rfl : _ = execSbwait f s) ?_
      rw [forbiddenInGroup_of_none hgr]
      dsimp only
      rw [if_neg hst, if_neg hmask', wordAccess_clear hg hj hr hp hsb hlate hs, State.setWave_setWave, ← hany]
      exact if_neg (by rw [hheld0, Bool.not_false, Bool.true_and]; exact fun hbad => hle (hholds.1 hbad))
  · refine h.ends_word (cs := cs) (rfl : _ = execSbset f s) hg hs ?_
    rw [scoreboard, forbiddenInGroup_of_none hgr, wordAccess_clear hg hj hr hp hsb hlate hs]
    dsimp only
    rw [hpred]
    simp only [Bool.not_true, Bool.false_eq_true, if_false, hheld cs, BitVec.toNat_or, hm]
    rfl
  · refine h.ends_word (cs := cs) (rfl : _ = execSbclr f s) hg hs ?_
    rw [scoreboard, forbiddenInGroup_of_none hgr, wordAccess_clear hg hj hr hp hsb hlate hs]
    dsimp only
    rw [hpred]
    simp only [Bool.not_true, Bool.false_eq_true, if_false, hheld cs, ← sub_and_toNat, hm]
    rfl
  · have hand : (m &&& x).toNat = s.read pa 8 &&& x.toNat := by rw [BitVec.toNat_and, hm]
    have hj' : m.getLsbD j = true := by rw [BitVec.getLsbD_and, Bool.and_eq_true] at hbit; exact hbit.1
    have hne : ((m &&& x).toNat != 0) = true := by
      rw [bne_iff_ne]
      intro hzero
      rw [BitVec.eq_of_toNat_eq (hzero.trans BitVec.toNat_zero.symm), BitVec.getLsbD_zero] at hbit
      exact absurd hbit (by decide)
    obtain ⟨hwave, hbyte, -, -⟩ := State.wordWritten (u := u) hg hs s.cohorts pa (m &&& ~~~((1 : DWord) <<< j)).toNat
    have hr' : ScalarResult w (w.unjoined.setS f.d.toNat (BitVec.ofNat 32 j)) f.d.toNat 1 fun _ => BitVec.ofNat 32 j :=
      scalarResult_setS w.unjoined (h.destReg (lo := 24) (by simp [Instr.must, mustE])) fun _ => BitVec.ofNat 32 j
    refine h.ends (rfl : _ = execSbtake f s) (x := w.unjoined.setS f.d.toNat (BitVec.ofNat 32 j))
      (t := acquired (s.afterWord u w s.cohorts pa (m &&& ~~~((1 : DWord) <<< j)).toNat) u (w.unjoined.setS f.d.toNat (BitVec.ofNat 32 j)))
      ?_ (acquired_wave _ u _ hlate) rfl ⟨⟨hr'.of_regs (by simp) (by simp), ?_, ?_⟩, fun a => ?_⟩
    · rw [forbiddenInGroup_of_none hgr]
      dsimp only
      rw [if_neg hst, if_neg (hx' hx), wordAccess_clear hg hj hr hp hsb hlate hs]
      refine (if_neg (by rw [show w.unjoined.late = w.late from rfl, hlate]; decide)).trans ((if_pos ?_).trans ?_)
      · rw [hheld0, Bool.not_false, Bool.true_and]
        exact (congrArg (· != 0) hand).symm.trans hne
      · have hlow' : lowestBit (s.read pa 8 &&& x.toNat) = j := by rw [← hand]; exact lowestBit_eq hj64 hbit hlow
        rw [← sub_bit_toNat m hj64 hj', hm, ← hlow']
        rfl
    · rw [Wave.completed_sp]; rfl
    · rw [Wave.completed_tr]; rfl
    · rw [State.retire_byte, acquired_byte, hbyte]
      split
      · exact nth_natLe _ _ _ (by omega)
      · rfl
  · have hand : (m &&& x).toNat = s.read pa 8 &&& x.toNat := by rw [BitVec.toNat_and, hm]
    refine h.waits_word (p := { w.prog with stage := 1 }) (rfl : _ = execSbtake f s) ?_
    rw [forbiddenInGroup_of_none hgr]
    dsimp only
    rw [if_neg hst, if_neg (hx' hx), wordAccess_clear hg hj hr hp hsb hlate hs]
    refine (if_neg (by rw [show w.unjoined.late = w.late from rfl, hlate]; decide)).trans ((if_neg ?_).trans rfl)
    rw [hheld0, Bool.not_false, Bool.true_and]
    refine fun hbad => absurd ((congrArg (· != 0) hand).trans hbad) ?_
    rw [hnone]
    decide

end

section
/-! SUPPORT. SYSCALL and the service queue (R328, R329). -/

set_option Elab.async false

namespace Sys2Proof.Machine

section
variable {s : State} {u : Nat} {w : Wave}

/-- A wave after a write: the watches of its commit group alone may have been broken. -/
theorem State.wave_poke_group (hu : s.wave u = some w) (pa : Nat) (bs : List Byte) (writer : Option Nat) :
    ∃ g, (s.poke pa bs writer).wave u = some { w with group := g } := by
  unfold State.poke
  dsimp only
  split
  · exact ⟨w.group, hu⟩
  · rw [State.wave, State.touched_waves, State.breakWatches_waves, State.setBytes_waves]
    have hmap : (fun x : Nat × Wave => if writer == some x.1 then x else (x.1, brokenWatch pa bs.length x.2)) =
        fun x => (x.1, if writer == some x.1 then x.2 else brokenWatch pa bs.length x.2) := by
      funext x; split <;> rfl
    simp only [hmap]
    rw [mapFind_map_key _ fun v x => if writer == some v then x else brokenWatch pa bs.length x]
    change ∃ g, Option.map _ (s.wave u) = _
    rw [hu, Option.map_some]
    split
    · exact ⟨w.group, rfl⟩
    · exact ⟨_, rfl⟩

theorem mem_of_mapFind {α : Type} {m : List (Nat × α)} {a : Nat} {v : α} (h : mapFind m a = some v) : (a, v) ∈ m := by
  induction m with
  | nil => simp [mapFind] at h
  | cons e m ih =>
    obtain ⟨k, y⟩ := e
    simp only [mapFind] at h
    split at h
    next hk => rw [hk, Option.some.inj h]; exact List.mem_cons_self
    next =>
      split at h
      · simp at h
      · exact List.mem_cons_of_mem _ (ih h)

/-- A wave that a still package holds, run on, leaves it still. -/
theorem State.Still.readied (h : s.Still) (hu : s.wave u = some w) : (s.setWave u w.readied).Still := by
  have hw := mem_of_mapFind hu
  obtain ⟨hd, hwt⟩ := Bool.and_eq_true_iff.1 h.unwatched
  refine ⟨List.all_eq_true.2 fun x hx => ?_, h.unmarked, h.unarmed, h.noWatch, Bool.and_eq_true_iff.2 ⟨hd, List.all_eq_true.2 fun x hx => ?_⟩⟩
  · rcases mem_of_mem_mapInsert hx with rfl | hx
    · exact show (!w.group.any (·.locked)) = true from List.all_eq_true.1 h.unlocked (u, w) hw
    · exact List.all_eq_true.1 h.unlocked _ hx
  · rcases mem_of_mem_mapInsert hx with rfl | hx
    · rfl
    · exact List.all_eq_true.1 hwt _ hx

theorem mem_of_mem_mapPut {α : Type} [DecidableEq α] {d : α} {m : List (Nat × α)} {a : Nat} {v : α} {x : Nat × α} (h : x ∈ mapPut d m a v) :
    x = (a, v) ∨ x ∈ m := by
  have habove : ∀ m : List (Nat × α), x ∈ mapAbove a m → x ∈ m := by
    intro m
    induction m with
    | nil => exact id
    | cons e m ih =>
      intro h
      simp only [mapAbove] at h
      split at h
      · exact List.mem_cons_of_mem _ (ih h)
      · exact h
  induction m with
  | nil => simp only [mapPut] at h; split at h <;> simp_all
  | cons e m ih =>
    obtain ⟨k, y⟩ := e
    simp only [mapPut] at h
    split at h
    · split at h
      · exact Or.inr (List.mem_cons_of_mem _ (habove m h))
      · exact (List.mem_cons.1 h).imp id (List.mem_cons_of_mem _)
    · split at h
      · split at h
        · exact Or.inr h
        · exact List.mem_cons.1 h
      · rcases List.mem_cons.1 h with rfl | h
        · exact Or.inr List.mem_cons_self
        · exact (ih h).imp id (List.mem_cons_of_mem _)

/-- What holds of every die listed and of one unlisted holds of each die. -/
theorem State.die_of_all {p : Die → Bool} (h : (s.dies.all fun d => p d.2) = true) (hr : p Die.reset = true) (d : Nat) : p (s.die d) = true := by
  have hm : ∀ m : List (Nat × Die), (m.all fun d => p d.2) = true → p (mapGet Die.reset m d) = true := by
    intro m
    induction m with
    | nil => exact fun _ => hr
    | cons e m ih =>
      intro h
      rw [List.all_cons, Bool.and_eq_true] at h
      simp only [mapGet]
      split
      · exact h.1
      · split
        · exact hr
        · exact ih h.2
  exact hm s.dies h

/-- A change of a die that leaves its triggers and its regions leaves the package still. -/
theorem State.Still.updDie (h : s.Still) (d : Nat) {f : Die → Die} (ht : (f (s.die d)).triggers = (s.die d).triggers)
    (hf : (f (s.die d)).fit.regions = (s.die d).fit.regions) : (s.updDie d f).Still := by
  obtain ⟨hd, hw⟩ := Bool.and_eq_true_iff.1 h.unwatched
  have hregs := State.die_of_all (p := fun d => d.fit.regions.all fun r => r.watch.isEmpty) h.noWatch rfl d
  have htrig := State.die_of_all (p := fun d => d.triggers.isEmpty) hd rfl d
  refine ⟨h.unlocked, h.unmarked, h.unarmed, List.all_eq_true.2 fun x hx => ?_, Bool.and_eq_true_iff.2 ⟨List.all_eq_true.2 fun x hx => ?_, hw⟩⟩
  · rcases mem_of_mem_mapPut hx with rfl | hx
    · dsimp only; rw [hf]; exact hregs
    · exact List.all_eq_true.1 h.noWatch x hx
  · rcases mem_of_mem_mapPut hx with rfl | hx
    · dsimp only; rw [ht]; exact htrig
    · exact List.all_eq_true.1 hd x hx

@[simp] theorem State.waiting_die (x : Wave) (wt : Wait) (d : Nat) : (s.waiting u x wt).die d = s.die d := by rw [State.waiting_frame]; rfl
@[simp] theorem State.waiting_mem (x : Wave) (wt : Wait) : (s.waiting u x wt).mem = s.mem := by rw [State.waiting_frame]

theorem serviceRecord_lt (s : State) (w : Wave) (code arg token : Nat) (phase : Bool) : serviceRecord s w code arg token phase < 256 ^ 32 := by
  have hb : b2n phase ≤ 1 := by cases phase <;> decide
  unfold serviceRecord
  have h1 := Nat.mod_lt code (show 2 ^ 32 > 0 by decide)
  have h2 := Nat.mod_lt arg (show 2 ^ 64 > 0 by decide)
  have h3 := Nat.mod_lt (s.waveDisp w) (show 2 ^ 32 > 0 by decide)
  have h4 := Nat.mod_lt (coreIdOf w.core) (show 256 > 0 by decide)
  have h5 := Nat.mod_lt w.slot (show 32 > 0 by decide)
  have h6 := Nat.mod_lt (s.waveWorld w) (show 256 > 0 by decide)
  have h7 := Nat.mod_lt token (show 2 ^ 16 > 0 by decide)
  norm_num at *
  omega

/-- The wave as it waits for the answer to its token (R328). -/
def Wave.serving (w : Wave) (die num clock : Nat) : Wave :=
  { w with wait := .service die num, waitSince := clock, prog := { Progress.none with stage := 1, x := num } }

/-- What the record of a SYSCALL leaves (R328). -/
structure State.ServiceWritten (s t : State) (die u : Nat) (w : Wave) (code arg : Nat) : Prop where
  wave : ∃ g, t.wave u = some { w.serving die (freshNumber ((s.die die).svc.tokens.map (·.1))) s.clock with group := g }
  tokens : (t.die die).svc.tokens = (s.die die).svc.tokens ++ [(freshNumber ((s.die die).svc.tokens.map (·.1)), u)]
  head : ((t.die die).svc.head, (t.die die).svc.phase) = queueAdvance (s.die die).svc.base (s.die die).svc.head (s.die die).svc.phase
  record : t.read (queueAddr (s.die die).svc.base (s.die die).svc.head) 32 =
    serviceRecord s w code arg (freshNumber ((s.die die).svc.tokens.map (·.1))) (s.die die).svc.phase
  byte : ∀ a, ¬(queueAddr (s.die die).svc.base (s.die die).svc.head ≤ a ∧ a < queueAddr (s.die die).svc.base (s.die die).svc.head + 32) →
    t.byte a = s.byte a

theorem State.writeService_spec (hs : s.Still) (hu : s.wave u = some w) (die code arg : Nat) :
    s.ServiceWritten (s.writeService die u code arg) die u w code arg := by
  have hdie : ∀ pa bs wr, (s.poke pa bs wr).die die = s.die die := fun pa bs wr => by
    rw [State.die, State.poke_dies_of_no_watch hs.noWatch]; rfl
  unfold State.writeService
  rw [hu]
  dsimp only
  rw [hs.writeHome]
  generalize hrec : serviceRecord s w code arg (freshNumber ((s.die die).svc.tokens.map (·.1))) (s.die die).svc.phase = rec
  generalize hat : queueAddr (s.die die).svc.base (s.die die).svc.head = at_
  obtain ⟨g, hg⟩ := State.wave_poke_group hu at_ (natLe 32 rec) none
  have hread : (s.poke at_ (natLe 32 rec) none).read at_ 32 = rec := by
    rw [State.read_poke_self, ← hrec, Nat.mod_eq_of_lt (serviceRecord_lt ..)]
  have hbyte : ∀ a, ¬(at_ ≤ a ∧ a < at_ + 32) → (s.poke at_ (natLe 32 rec) none).byte a = s.byte a := fun a ha =>
    State.byte_poke_out s none (by rw [length_natLe]; omega)
  have hd := hdie at_ (natLe 32 rec) none
  have hclock : (s.poke at_ (natLe 32 rec) none).clock = s.clock := State.poke_clock ..
  generalize s.poke at_ (natLe 32 rec) none = r at *
  refine ⟨⟨g, ?_⟩, ?_, ?_, ?_, fun a ha => ?_⟩
  · rw [State.updWave, show (r.updDie die _).wave u = _ from hg]
    refine (State.wave_setWave ..).trans ((if_pos rfl).trans ?_)
    rw [← hclock]
    rfl
  · rw [State.die, State.updWave_dies, ← State.die, State.die_updDie, if_pos rfl, hd]
  · rw [State.die, State.updWave_dies, ← State.die, State.die_updDie, if_pos rfl]
  · rw [hat, State.read_of_mem (State.updWave_mem ..), hrec]
    exact hread
  · rw [hat] at ha
    rw [State.byte_of_mem (State.updWave_mem ..)]
    exact hbyte a ha

end

end Sys2Proof.Machine

open Sys2Proof Sys2Proof.Machine

/-- Settles O49: a record is one write at HEAD under the least free token, and what waits for room or for the answer is the wave alone. -/
theorem services : Obligations.Services := by
  unfold Obligations.Services
  intro s u w die q num at_ writes
  refine ⟨fun f h => ⟨fun hst hh hs hwait hfull => ?_, fun hst hh hwait hfull => ?_, fun hst => ?_⟩, fun hu => ⟨fun token hno => ?_,
    fun token hone hst hwait => ?_, fun rest hq hwait => ⟨fun hfull => ?_, fun code arg hfull hs hdata => ?_⟩⟩⟩
  · have hst0 : ¬w.readied.prog.stage = 2 := by rw [show w.readied.prog.stage = 0 from hst]; decide
    have hst1 : ¬w.readied.prog.stage = 1 := by rw [show w.readied.prog.stage = 0 from hst]; decide
    have hspec := State.writeService_spec (((State.still_iff s).1 hs).readied (h.2.1)) ((State.wave_setWave ..).trans (if_pos rfl))
      die (w.src f.a).toNat (w.src64 f.b).toNat
    have hbody := transfer_headerAt (s := s) (u := u) (w := w) (x := w.readied) (target := fun w => w.pc + 8) (taken := fun _ => true) (effect := id) hh
    obtain ⟨⟨g, hg⟩, htok, hhead, hrec, hbyte⟩ := hspec
    have hexec := h.exec_wait (rfl : _ = execSyscall f s) (t := (s.setWave u w.readied).writeService die u (w.src f.a).toNat (w.src64 f.b).toNat)
      (wt := .service die num) ?_ hg
    · have hsvc : ((s.setWave u w.readied).die die).svc = q := rfl
      refine ⟨_, hexec, ⟨_, (State.waiting_wave _ u _ _ u).trans (if_pos rfl), rfl, ⟨rfl, rfl, rfl⟩, rfl, rfl, rfl⟩, ?_, ?_, ?_, fun a ha => ?_⟩
      · rw [State.waiting_die]; exact htok
      · rw [State.waiting_die]; exact hhead
      · rw [State.read_of_mem (State.waiting_mem ..)]; exact hrec
      · rw [State.waiting_byte]; exact hbyte a ha
    · dsimp only
      rw [if_neg hst0, if_neg hst1, hbody, if_pos rfl]
      dsimp only
      rw [State.setWave_setWave, if_pos]
      · show (match ((s.setWave u w.readied).writeService die u (w.src f.a).toNat (w.src64 f.b).toNat).wave u with
          | some x => Act.wait ((s.setWave u w.readied).writeService die u (w.src f.a).toNat (w.src64 f.b).toNat) x.wait
          | none => _) = _
        rw [hg]
        rfl
      · show (q.waiting.isEmpty && !queueFull q.base q.count) = true
        rw [hwait, hfull]; rfl
  · have hst0 : ¬w.readied.prog.stage = 2 := by rw [show w.readied.prog.stage = 0 from hst]; decide
    have hst1 : ¬w.readied.prog.stage = 1 := by rw [show w.readied.prog.stage = 0 from hst]; decide
    have hbody := transfer_headerAt (s := s) (u := u) (w := w) (x := w.readied) (target := fun w => w.pc + 8) (taken := fun _ => true) (effect := id) hh
    have hexec := h.exec_wait (rfl : _ = execSyscall f s) (wt := .serviceQueue die) (t := ((s.setWave u w.readied).updDie die fun d =>
        { d with svc := { d.svc with waiting := d.svc.waiting.filter (· != u) ++ [u] } }).setWave u
        { w.readied with prog := { Progress.none with data := [(0, (w.src f.a).toNat), (1, (w.src64 f.b).toNat)] } })
      ?_ ((State.wave_setWave ..).trans (if_pos rfl))
    · refine ⟨_, hexec, fun a => ?_, ?_, _, (State.waiting_wave _ u _ _ u).trans (if_pos rfl), rfl, rfl⟩
      · rw [State.waiting_byte]; rfl
      · rw [State.waiting_die]
        refine (congrArg (fun d : Die => d.svc.waiting) ((State.die_updDie (s.setWave u w.readied) die
          (fun d => { d with svc := { d.svc with waiting := d.svc.waiting.filter (· != u) ++ [u] } }) die).trans (if_pos rfl))).trans ?_
        show q.waiting.filter _ ++ [u] = [u]
        rw [hwait]
        rfl
    · dsimp only
      rw [if_neg hst0, if_neg hst1, hbody, if_pos rfl]
      dsimp only
      rw [State.setWave_setWave, if_neg]
      · rfl
      · show ¬(q.waiting.isEmpty && !queueFull q.base q.count) = true
        rw [hfull]; simp
  · have hr : ScalarResult w (w.readied.setS64 f.d.toNat (BitVec.ofNat 64 w.prog.y)) f.d.toNat 2 fun j =>
        (BitVec.ofNat 64 w.prog.y).extractLsb' (32 * j) 32 :=
      scalarResult_setS64 w.readied (h.destBlock (lo := 24) (lo' := 24) (al := 2) (rd := false) (by simp [Instr.must, mustE])
        fun x hx => List.mem_append.2 (.inr hx)) _
    obtain ⟨t, hx, hw, hother⟩ := h.completes_jump (rfl : _ = execSyscall f s)
      (x := w.readied.setS64 f.d.toNat (BitVec.ofNat 64 w.prog.y)) (target := w.pc + 8) ((if_pos (show w.readied.prog.stage = 2 from hst)).trans (by rw [State.setWave_setWave]; rfl)) rfl
    refine ⟨t, hx, hother.2.2.2.1, _, hw, by simp, ?_, hr.of_regs (by simp) (by simp), ?_, ?_⟩
    · cases closesRegion w (Instr.op (.syscall f)) <;> rfl
    · rw [Wave.completed_sp]; rfl
    · rw [Wave.completed_tr]; rfl
  · show (match q.tokens.find? _ with | none => _ | some t => _) = _
    rw [hno]
  · have hx : exec (.serviceResponse die token) s = execServiceResponse die token s := rfl
    unfold execServiceResponse at hx
    dsimp only at hx
    rw [show (s.die die).svc.tokens = q.tokens from rfl, hone] at hx
    have hw : (s.updDie die fun d => { d with svc := { d.svc with tokens := d.svc.tokens.filter fun x => x.1 != token } }).wave u = some w := hu
    dsimp only at hx
    rw [State.updAnyWave, if_pos (by rw [hw]; rfl), State.updWave, hw] at hx
    dsimp only at hx
    rw [if_pos hst, if_pos hwait] at hx
    refine ⟨_, hx, fun a => rfl, ?_, (State.wave_setWave ..).trans (if_pos rfl)⟩
    exact congrArg (fun d : Die => d.svc.tokens) ((State.die_updDie s die
      (fun d => { d with svc := { d.svc with tokens := d.svc.tokens.filter fun x => x.1 != token } }) die).trans (if_pos rfl))
  · have hx : exec (.serviceRecordDeferred die) s = execServiceRecordDeferred die s := rfl
    unfold execServiceRecordDeferred at hx
    dsimp only at hx
    rw [show (s.die die).svc = q from rfl, hq] at hx
    dsimp only at hx
    rw [hu] at hx
    dsimp only at hx
    rw [if_neg (not_not_intro hwait), if_pos hfull] at hx
    exact hx
  · have hx : exec (.serviceRecordDeferred die) s = execServiceRecordDeferred die s := rfl
    unfold execServiceRecordDeferred at hx
    dsimp only at hx
    rw [show (s.die die).svc = q from rfl, hq] at hx
    dsimp only at hx
    rw [hu] at hx
    dsimp only at hx
    rw [if_neg (not_not_intro hwait), if_neg (by rw [hfull]; decide), hdata] at hx
    have hspec := State.writeService_spec (((State.still_iff s).1 hs).updDie die (f := fun d => { d with svc := { d.svc with waiting := rest } }) rfl rfl)
      hu die code arg
    refine ⟨_, hx, ?_⟩
    obtain ⟨⟨g, hg⟩, htok, hhead, hrec, hbyte⟩ := hspec
    have hsvc : ((s.updDie die fun d => { d with svc := { d.svc with waiting := rest } }).die die).svc = { q with waiting := rest } := by
      rw [State.die_updDie, if_pos rfl]
    rw [hsvc] at hg htok hhead hrec hbyte
    exact ⟨⟨_, hg, rfl, ⟨rfl, rfl, rfl⟩, rfl, rfl, rfl⟩, htok, hhead, hrec, hbyte⟩

end

section
/-! SUPPORT. Acknowledgements of the fabric block, and reduction slots (R114 to R118, R124). -/

set_option Elab.async false

namespace Sys2Proof.Machine

/-! ### What an acknowledgement leaves alone -/

/-- Only combine entries, acknowledgements on their way and refused copies of the fabric block have changed. -/
def State.Answered (s t : State) : Prop :=
  t = { s with ids := t.ids, fabric := { s.fabric with combines := t.fabric.combines, acksOut := t.fabric.acksOut, refused := t.fabric.refused } }

theorem State.Answered.refl (s : State) : s.Answered s := rfl

theorem State.Answered.trans {s t r : State} (h : s.Answered t) (k : t.Answered r) : s.Answered r := by
  unfold State.Answered at *
  rw [k, h]

theorem State.answered_sendUp (s : State) (up : Upstream) (a : Ack) : s.Answered (s.sendUp up a) := by
  cases up <;> rfl

theorem State.answered_combineAnswer (s : State) (entry branch : Nat) (a : Ack) : s.Answered (s.combineAnswer entry branch a) := by
  unfold State.combineAnswer
  split
  · exact .refl s
  · split
    · exact .refl s
    · dsimp only
      split
      · split
        · exact State.Answered.trans (t := s.updFabric fun f => { f with combines := f.combines.filter fun x => x.id != entry }) rfl
            (State.answered_sendUp ..)
        · rfl
      · split
        · exact State.Answered.trans (t := s.updFabric fun f => { f with combines := f.combines.filter fun x => x.id != entry }) rfl
            (State.answered_sendUp ..)
        · rfl

theorem State.answered_answer (s : State) (up : Upstream) (a : Ack) : s.Answered (s.answer up a) := by
  cases up with
  | branch e b => exact s.answered_combineAnswer e b a
  | op id k => exact s.answered_sendUp (.op id k) a
  | port p q => exact s.answered_sendUp (.port p q) a

section
variable {s t : State} (h : s.Answered t)
include h

theorem State.Answered.mem : t.mem = s.mem := by unfold State.Answered at h; rw [h]
theorem State.Answered.slots : t.fabric.slots = s.fabric.slots := by unfold State.Answered at h; rw [h]
theorem State.Answered.deliveries : t.fabric.deliveries = s.fabric.deliveries := by unfold State.Answered at h; rw [h]
theorem State.Answered.droplate : t.fabric.droplate = s.fabric.droplate := by unfold State.Answered at h; rw [h]
theorem State.Answered.rednack : t.fabric.rednack = s.fabric.rednack := by unfold State.Answered at h; rw [h]
theorem State.Answered.shape : t.shape = s.shape := by unfold State.Answered at h; rw [State.shape, h]; rfl

end

/-! ### Fresh numbers -/

/-- The least free number is free: among more numbers than are used one is. -/
theorem freshNumber_not_mem (used : List Nat) : freshNumber used ∉ used := by
  unfold freshNumber
  cases hf : (List.range (used.length + 1)).find? fun n => !used.contains n with
  | some n => simpa using List.find?_some hf
  | none =>
    have hsub : List.range (used.length + 1) ⊆ used := fun n hn => by
      have := List.find?_eq_none.1 hf n hn
      simpa using this
    have := (List.nodup_range.subperm hsub).length_le
    simp at this

theorem find?_updFirst_id {α : Type} (id : α → Nat) {l : List α} {n : Nat} {x y : α} (hx : l.find? (fun z => id z == n) = some x)
    (hy : id y = n) : (updFirst (fun z => id z == n) (fun _ => y) l).find? (fun z => id z == n) = some y := by
  induction l with
  | nil => simp at hx
  | cons a l ih =>
    rw [updFirst]
    split
    next => simp [hy]
    next ha =>
      rw [List.find?_cons_of_neg (p := fun z => id z == n) ha] at hx ⊢
      exact ih hx

/-! ### Contributions -/

/-- A delivery has been answered. -/
def State.finishDelivery (s : State) (d : Delivery) (a : Ack) : State :=
  (s.updFabric fun f => { f with deliveries := f.deliveries.filter fun x => x.id != d.id }).answer d.up a

section
variable {s : State} {d : Delivery}

/-- The slots, tombstones and counters of a delivery that has been answered are as they were. -/
structure State.Finished (s t : State) (d : Delivery) : Prop where
  mem : t.mem = s.mem
  slots : t.fabric.slots = s.fabric.slots
  gone : ∀ y ∈ t.fabric.deliveries, y.id ≠ d.id
  droplate : t.fabric.droplate = s.fabric.droplate
  rednack : t.fabric.rednack = s.fabric.rednack
  shape : t.shape = s.shape

theorem State.finished (s : State) (d : Delivery) (a : Ack) : s.Finished (s.finishDelivery d a) d := by
  have h := (s.updFabric fun f => { f with deliveries := f.deliveries.filter fun x => x.id != d.id }).answered_answer d.up a
  refine ⟨h.mem, h.slots, fun y hy => ?_, h.droplate, h.rednack, h.shape⟩
  rw [State.finishDelivery, h.deliveries] at hy
  simpa using (List.mem_filter.1 hy).2

/-- A slot that more contributions will reach does not flush yet. -/
theorem State.tryFlush_early {x : RedSlot} (hx : s.fabric.slots.find? (fun y => y.id == x.id) = some x)
    (h : x.count < ivCard (patIntervals s.shape x.pattern.toNat)) : s.tryFlush x.id = s := by
  rw [State.tryFlush, hx]
  exact if_pos h

theorem RedSlot.take_keeps (x : RedSlot) (c : Contribution) : (x.take c).1.id = x.id ∧ (x.take c).1.count = x.count + 1 ∧
    (x.take c).1.window = x.window ∧ (x.take c).1.offset = x.offset ∧ (x.take c).1.pattern = x.pattern ∧ (x.take c).1.tag = x.tag := by
  unfold RedSlot.take
  dsimp only
  split
  · exact ⟨rfl, rfl, rfl, rfl, rfl, rfl⟩
  · split <;> split <;> exact ⟨rfl, rfl, rfl, rfl, rfl, rfl⟩

/-- The slot of a contribution's transaction and tag. -/
def sameSlot (tx : Tx) (w o : Nat) (p : BitVec 128) (g : Nat) : Bool :=
  w == tx.window.toNat && o == tx.offset.toNat && p == tx.pattern && g == (contributionOf tx).tag

/-- A new slot for a contribution. -/
def newSlot (s : State) (tx : Tx) (slice : Nat) : RedSlot :=
  { id := freshNumber (s.fabric.slots.map (·.id)), slice := slice, window := tx.window.toNat, offset := tx.offset.toNat, pattern := tx.pattern,
    tag := (contributionOf tx).tag, world := tx.world.toNat, op := 15, fmt := 0, len := 0, ebytes := 0, rows := [], elems := [], count := 0,
    voids := 0, land_ := tx.land.toNat, lbit := tx.lbit.toNat, loff := tx.loff.toNat, opened := s.clock }

/-- What a contribution that passes its checks comes to. -/
def State.contribute (s : State) (d : Delivery) : State :=
  let tx := d.tx
  let c := contributionOf tx
  let e := s.window tx.window.toNat
  match s.fabric.slots.find? fun x => sameSlot tx x.window x.offset x.pattern x.tag with
  | some x =>
    ((s.updFabric fun f => { f with slots := updFirst (fun z => z.id == x.id) (fun _ => (x.take c).1) f.slots }).finishDelivery d
      (if (x.take c).2 then s.errAck 6 else okAck [])).tryFlush x.id
  | none =>
    match s.fabric.tombs.find? fun x => sameSlot tx x.window x.offset x.pattern x.tag with
    | some x =>
      let s := match x.status with
        | some off => s.markLate e off
        | none => s
      (s.updFabric fun f => { f with droplate := (f.droplate + 1) % 2 ^ 32 }).finishDelivery d (s.errAck 5)
    | none =>
      let slice := s.redSlice e tx.offset.toNat
      let s := s.redWalk e tx.offset.toNat
      if 64 ≤ s.fabric.slots.countP fun x => x.slice == slice then
        (s.updFabric fun f => { f with rednack := (f.rednack + 1) % 2 ^ 32 }).finishDelivery d (nack 1)
      else ((s.updFabric fun f => { f with slots := f.slots ++ [((newSlot s tx slice).take c).1] }).finishDelivery d (okAck [])).tryFlush
          (newSlot s tx slice).id

theorem exec_reductionContribution (hd : s.fabric.deliveries.find? (fun x => x.id == d.id) = some d) (hen : s.fabric.en = true)
    (hop : d.tx.op = 4 ∨ d.tx.op = 7)
    (hreach : (contributionOf d.tx).rows = [] ∨ winRefuses (s.window d.tx.window.toNat) d.tx.world.toNat 4 (contributionOf d.tx).rows = none ∧
      ∃ l, reachAll s (s.window d.tx.window.toNat) 1 (contributionOf d.tx).rows = .ok l s) :
    exec (.reductionContribution d.id) s = .next (s.contribute d) := by
  rw [show exec (.reductionContribution d.id) s = execReductionContribution d.id s from rfl]
  unfold execReductionContribution
  rw [hd]
  have hop' : ¬(d.tx.op ≠ 4 ∧ d.tx.op ≠ 7) := by tauto
  dsimp only
  rw [if_neg hop', hen]
  simp only [Bool.not_true, Bool.false_eq_true, if_false]
  rcases hreach with hrows | ⟨hwin, l, hl⟩
  case' inl => simp only [hrows, List.isEmpty_nil, if_true]
  case' inr => simp only [hwin, hl, ite_self]
  all_goals
    unfold State.contribute
    dsimp only
    split
    next x hx => rw [show List.find? (fun x => sameSlot d.tx x.window x.offset x.pattern x.tag) s.fabric.slots = some x from hx]; rfl
    next hx =>
      rw [show List.find? (fun x => sameSlot d.tx x.window x.offset x.pattern x.tag) s.fabric.slots = none from hx]
      dsimp only
      split
      next x hx => rw [show List.find? (fun x => sameSlot d.tx x.window x.offset x.pattern x.tag) s.fabric.tombs = some x from hx]; rfl
      next hx =>
        rw [show List.find? (fun x => sameSlot d.tx x.window x.offset x.pattern x.tag) s.fabric.tombs = none from hx]
        split <;> rfl

/-! ### Flushes -/

/-- The state that a reach leaves. -/
def Reach.after : Reach → State
  | .ok _ s => s
  | .bad _ s => s

theorem rest_reach_go (e access : Nat) (ps : List (Nat × List Byte)) (acc : List (Nat × Nat)) (s : State) :
    (reach.go e access s ps acc).after.rest = s.rest := by
  induction ps generalizing s acc with
  | nil => rfl
  | cons p ps ih =>
    have h := s.rest_engineXlate 0 (winAsid e) (winWorld e) (.world (winWorld e)) p.1 access
    rw [reach.go]
    split
    next pa t r hr =>
      rw [hr] at h
      split
      · exact h
      · exact (ih ..).trans h
    next hr => rw [hr] at h; exact h
    next hr => rw [hr] at h; exact h

theorem rest_reachAll (e access : Nat) (rs : List (Nat × Nat)) (s : State) : (reachAll s e access rs).after.rest = s.rest := by
  induction rs generalizing s with
  | nil => rfl
  | cons r rs ih =>
    have h : (reach s e r.1 r.2 access).after.rest = s.rest := by
      unfold reach
      split
      · rfl
      · exact rest_reach_go ..
    rw [reachAll]
    split
    next hr => rw [hr] at h; exact h
    next l t hr =>
      rw [hr] at h
      have ht := ih t
      split
      next hr' => rw [hr'] at ht; exact ht.trans h
      next hr' => rw [hr'] at ht; exact ht.trans h

theorem State.rest_placeResults (s : State) (e : Nat) (rs : List (Nat × Nat × Nat)) : (s.placeResults e rs).2.rest = s.rest := by
  induction rs generalizing s with
  | nil => rfl
  | cons r rs ih =>
    have h := s.rest_engineXlate 0 (winAsid e) (winWorld e) (.world (winWorld e)) (winVa e r.1) 1
    rw [State.placeResults]
    split
    next hr => rw [hr] at h; exact (ih _).trans h
    next => exact (ih _).trans h

theorem State.rest_land (s : State) (land lbit pa : Nat) : (s.land land lbit pa).rest = s.rest := by
  unfold State.land
  dsimp only
  split
  · exact s.rest_writeHome ..
  · exact s.rest_writeHome ..
  · rfl

/-- The places of the landing and of the status word of a flush. -/
def State.flushWords (s : State) (x : RedSlot) (e : Nat) : List Nat × State :=
  if x.land_ = 0 ∨ (winRefuses e x.world 4 (landRanges x.land_ x.loff true)).isSome then ([], s)
  else match reachAll s e 2 (landRanges x.land_ x.loff true) with
    | .ok l s => (l.map (·.1), s)
    | .bad _ s => ([], s)

theorem State.rest_flushWords (s : State) (x : RedSlot) (e : Nat) : (s.flushWords x e).2.rest = s.rest := by
  have h := rest_reachAll e 2 (landRanges x.land_ x.loff true) s
  unfold State.flushWords
  split
  · rfl
  · split
    next hr => rw [hr] at h; exact h
    next hr => rw [hr] at h; exact h

/-- The status word and the landing of a flush are written. -/
def State.flushLands (s : State) (x : RedSlot) (short : Bool) (fl : Nat) (words : List Nat) : State :=
  match words with
  | [l, st] => (s.writeHome st (natLe 8 (redStatus x short fl))).land x.land_ x.lbit l
  | _ => s

theorem State.rest_flushLands (s : State) (x : RedSlot) (short : Bool) (fl : Nat) (words : List Nat) :
    (s.flushLands x short fl words).rest = s.rest := by
  unfold State.flushLands
  split
  · exact (State.rest_land ..).trans (State.rest_writeHome ..)
  · rfl

/-- A slot leaves with its tombstone. -/
def State.bury (s : State) (x : RedSlot) (status : Option Nat) : State :=
  let t : Tomb := { id := s.ids + 1, slice := x.slice, window := x.window, offset := x.offset, pattern := x.pattern, tag := x.tag,
                    status := status, made := s.clock }
  let mine := s.fabric.tombs.filter fun y => y.slice == x.slice
  let tombs := if mine.length < 256 then s.fabric.tombs else dropFirst (fun y => y.slice == x.slice) s.fabric.tombs
  { s with ids := s.ids + 1 }.updFabric fun f => { f with slots := f.slots.filter (fun y => y.id != x.id), tombs := tombs ++ [t] }

theorem State.bury_spec (s : State) (x : RedSlot) (status : Option Nat) :
    (∀ y ∈ (s.bury x status).fabric.slots, y.id ≠ x.id) ∧ ∃ y ∈ (s.bury x status).fabric.tombs, y.tag = x.tag ∧ y.window = x.window ∧
      y.offset = x.offset ∧ y.pattern = x.pattern ∧ y.made = s.clock :=
  ⟨fun y hy => by simpa using (List.mem_filter.1 hy).2, _, List.mem_append_right _ (List.mem_singleton_self _), rfl, rfl, rfl, rfl, rfl⟩

/-- What a flush leaves once its results and words are written. -/
theorem State.flushSlot_bury {s t : State} {x : RedSlot} {short : Bool} (h : s.flushSlot x short = some t) :
    ∃ (r : State) (status : Option Nat), r.rest = s.rest ∧ t = r.bury x status := by
  let results := ((x.offsets.zip x.elems).filter fun y => y.2.have_).map fun y => (y.1, redResult x.op x.fmt (y.2.vals.map (·.toNat)))
  let fl := results.foldl (fun a r => a ||| r.2.2) 0
  let p := s.placeResults (s.window x.window) results
  let wd := p.2.flushWords x (s.window x.window)
  let r := (p.1.foldl (fun s p => s.writeHome p.1 (natLe x.ebytes p.2)) wd.2).flushLands x short fl wd.1
  have heq : s.flushSlot x short = if p.1.any (fun q => wd.2.writeHeld q.1 x.ebytes) || wd.1.any (fun q => wd.2.writeHeld q 8 || wd.2.readHeld q 8 none)
      then none else some (r.bury x (if wd.1.length = 2 then some (x.loff * 8 + 8) else none)) := rfl
  rw [heq] at h
  split at h
  · exact absurd h (by simp)
  · refine ⟨r, _, ?_, (Option.some.inj h).symm⟩
    exact (State.rest_flushLands ..).trans ((State.rest_foldl _ (fun s _ => s.rest_writeHome ..) _ _).trans
      ((State.rest_flushWords ..).trans (State.rest_placeResults ..)))

/-- A slot that flushes leaves, and its tombstone stands. -/
theorem State.flushSlot_spec {s t : State} {x : RedSlot} {short : Bool} (h : s.flushSlot x short = some t) :
    (∀ y ∈ t.fabric.slots, y.id ≠ x.id) ∧ ∃ y ∈ t.fabric.tombs, y.tag = x.tag ∧ y.window = x.window ∧ y.offset = x.offset ∧
      y.pattern = x.pattern ∧ y.made = s.clock := by
  obtain ⟨r, status, hr, rfl⟩ := State.flushSlot_bury h
  have hclock : r.rest.clock = s.rest.clock := congrArg State.clock hr
  rw [← show r.clock = s.clock from hclock]
  exact r.bury_spec x status

end

end Sys2Proof.Machine

open Sys2Proof Sys2Proof.Machine

/-- Settles O40: an answer leaves the slots alone, a slot that others will still reach does not flush, and a flush writes memory, not the
fabric block. -/
theorem reductions : Obligations.Reductions := by
  unfold Obligations.Reductions
  intro s
  refine ⟨fun d hd hen hop => ?_, fun x t hx => ?_, fun n => ?_⟩
  · intro tx win c same buried card slice hreach
    have hexec := exec_reductionContribution hd hen hop hreach
    refine ⟨fun x hx hid hcard => ⟨_, hexec, ?_⟩, fun hx ⟨x, hb, hst⟩ => ⟨_, hexec, ?_⟩,
      fun hx hb hwalk => ⟨fun hfull => ⟨_, hexec, ?_⟩, fun hroom hcard => ⟨_, hexec, ?_⟩⟩⟩
    · obtain ⟨hkid, hkcount, -, -, hkpat, -⟩ := x.take_keeps c
      have hpat : x.pattern = tx.pattern := by
        have := List.find?_some hx
        simp only [same, Bool.and_eq_true, beq_iff_eq] at this
        exact this.1.2
      have hcontrib : s.contribute d = ((s.updFabric fun f =>
          { f with slots := updFirst (fun z => z.id == x.id) (fun _ => (x.take c).1) f.slots }).finishDelivery d (if (x.take c).2 then s.errAck 6 else okAck [])).tryFlush x.id := by
        unfold State.contribute
        dsimp only
        rw [show List.find? (fun x => sameSlot d.tx x.window x.offset x.pattern x.tag) s.fabric.slots = some x from hx]
      have hfin := State.finished (s.updFabric fun f => { f with slots := updFirst (fun z => z.id == x.id) (fun _ => (x.take c).1) f.slots }) d
        (if (x.take c).2 then s.errAck 6 else okAck [])
      generalize (State.finishDelivery _ d _) = r at hfin hcontrib
      obtain ⟨hmem, hslots, hgone, -, -, hshape⟩ := hfin
      have hfind : r.fabric.slots.find? (fun y => y.id == x.id) = some (x.take c).1 := by
        rw [hslots]
        exact find?_updFirst_id RedSlot.id hid hkid
      rw [hcontrib, ← hkid, State.tryFlush_early (hkid.symm ▸ hfind) (by rw [hkcount, hkpat, hpat, hshape]; exact hcard), hkid]
      exact ⟨State.sameMem_of_mem hmem, hfind, hkcount, hgone⟩
    · have hcontrib : s.contribute d = (s.updFabric fun f => { f with droplate := (f.droplate + 1) % 2 ^ 32 }).finishDelivery d (s.errAck 5) := by
        unfold State.contribute
        dsimp only
        rw [show List.find? (fun x => sameSlot d.tx x.window x.offset x.pattern x.tag) s.fabric.slots = none from hx]
        dsimp only
        rw [show List.find? (fun x => sameSlot d.tx x.window x.offset x.pattern x.tag) s.fabric.tombs = some x from hb]
        dsimp only
        rw [hst]
      obtain ⟨hmem, hslots, -, hlate, -, -⟩ := State.finished (s.updFabric fun f => { f with droplate := (f.droplate + 1) % 2 ^ 32 }) d (s.errAck 5)
      rw [hcontrib]
      exact ⟨State.sameMem_of_mem hmem, hlate, hslots⟩
    · have hcontrib : s.contribute d = (s.updFabric fun f => { f with rednack := (f.rednack + 1) % 2 ^ 32 }).finishDelivery d (nack 1) := by
        unfold State.contribute
        dsimp only
        rw [show List.find? (fun x => sameSlot d.tx x.window x.offset x.pattern x.tag) s.fabric.slots = none from hx]
        dsimp only
        rw [show List.find? (fun x => sameSlot d.tx x.window x.offset x.pattern x.tag) s.fabric.tombs = none from hb]
        dsimp only
        rw [show s.redWalk (s.window d.tx.window.toNat) d.tx.offset.toNat = s from hwalk]
        exact if_pos hfull
      obtain ⟨hmem, hslots, -, -, hnack, -⟩ := State.finished (s.updFabric fun f => { f with rednack := (f.rednack + 1) % 2 ^ 32 }) d (nack 1)
      rw [hcontrib]
      exact ⟨State.sameMem_of_mem hmem, hnack, hslots⟩
    · obtain ⟨hkid, hkcount, hkwin, hkoff, hkpat, hktag⟩ := (newSlot s tx slice).take_keeps c
      have hcontrib : s.contribute d = ((s.updFabric fun f => { f with slots := f.slots ++ [((newSlot s tx slice).take c).1] }).finishDelivery d
          (okAck [])).tryFlush (newSlot s tx slice).id := by
        unfold State.contribute
        dsimp only
        rw [show List.find? (fun x => sameSlot d.tx x.window x.offset x.pattern x.tag) s.fabric.slots = none from hx]
        dsimp only
        rw [show List.find? (fun x => sameSlot d.tx x.window x.offset x.pattern x.tag) s.fabric.tombs = none from hb]
        dsimp only
        rw [show s.redWalk (s.window d.tx.window.toNat) d.tx.offset.toNat = s from hwalk]
        exact if_neg (Nat.not_le.2 hroom)
      have hfin := State.finished (s.updFabric fun f => { f with slots := f.slots ++ [((newSlot s tx slice).take c).1] }) d (okAck [])
      generalize (State.finishDelivery _ d _) = r at hfin hcontrib
      obtain ⟨hmem, hslots, -, -, -, hshape⟩ := hfin
      have hfind : r.fabric.slots.find? (fun y => y.id == ((newSlot s tx slice).take c).1.id) = some ((newSlot s tx slice).take c).1 := by
        have hnone : s.fabric.slots.find? (fun y => y.id == ((newSlot s tx slice).take c).1.id) = none := by
          refine List.find?_eq_none.2 fun y hy => ?_
          rw [hkid, beq_iff_eq]
          exact fun hid => freshNumber_not_mem (s.fabric.slots.map (·.id)) ((show y.id = freshNumber _ from hid) ▸ List.mem_map_of_mem hy)
        rw [hslots]
        refine List.find?_append.trans ?_
        rw [hnone]
        simp
      rw [hcontrib, ← hkid, State.tryFlush_early hfind (by rw [hkcount, hkpat, hshape]; exact hcard)]
      refine ⟨State.sameMem_of_mem hmem, _, hslots, hkcount, hkwin, hkoff, hkpat, hktag, ?_⟩
      unfold RedSlot.take
      by_cases hrows : c.rows = []
      · simp [hrows, newSlot]
      · simp [hrows, newSlot]
  · intro short hshort ht
    refine ⟨?_, State.flushSlot_spec ht⟩
    rw [show exec (.reductionSlotTimeout x.id) s = execReductionSlotTimeout x.id s from rfl]
    unfold execReductionSlotTimeout
    rw [hx]
    refine (if_neg ?_).trans (by rw [show s.flushSlot x _ = some t from ht]; rfl)
    rw [Bool.and_eq_true]
    exact fun hbad => Nat.not_lt.2 (hshort hbad.1) (of_decide_eq_true hbad.2)
  · refine ⟨_, rfl, fun a => rfl, fun y => ?_⟩
    refine List.mem_filter.trans (and_congr_right fun _ => ?_)
    rw [Bool.not_eq_true', Bool.and_eq_false_iff, beq_eq_false_iff_ne, decide_eq_false_iff_not, not_and_or]

end

section
/-! SUPPORT. Transactions of the fabric block: expansion, what a target performs, and combine entries (R111, R113, R123, R124). -/

set_option Elab.async false

namespace Sys2Proof.Machine

/-! ### A still package stays still -/

section
variable {s : State}

theorem State.Still.touched (h : s.Still) (pa n : Nat) (writer : Option Nat) : (s.touched pa n writer).Still := by
  have hdies : (s.touched pa n writer).dies = s.dies := by
    unfold State.touched
    rw [State.dropCode_only, State.invalidateRegions_of_none]
    · rfl
    · refine any_eq_false_of_all_not h.noWatch fun d hd => any_eq_false_of_all_not hd fun r hr => ?_
      rw [List.isEmpty_iff.1 hr]; rfl
  have hsnap : (s.touched pa n writer).snap = s.snap := by rw [State.touched_only]
  have hwaves : ∀ p : Nat × Wave → Bool, (∀ x n, p (x.1, brokenWatch pa n x.2) = p x) → (s.touched pa n writer).waves.all p = s.waves.all p := by
    intro p hp
    rw [State.touched_waves, State.breakWatches_waves, List.all_map]
    refine List.all_congr rfl fun x => ?_
    dsimp only [Function.comp]
    split
    · rfl
    · exact hp x _
  refine ⟨?_, hsnap ▸ h.unmarked, hsnap ▸ h.unarmed, hdies ▸ h.noWatch, ?_⟩
  · refine (hwaves _ fun x n => ?_).trans h.unlocked
    cases hg : x.2.group <;> simp [brokenWatch, hg]
  · have hw := h.unwatched
    rw [State.unwatched] at hw ⊢
    rw [hdies, hwaves _ fun x n => rfl]
    exact hw

theorem State.Still.zeroPage (h : s.Still) (page : Nat) : (s.zeroPage page).Still := by
  unfold State.zeroPage
  dsimp only
  split
  · exact h
  · rw [State.lineLocked_of_unlocked h.unlocked, State.copyFirst_of_unmarked h.unmarked]
    refine State.Still.touched (h.congr ?_ ?_ ?_) .. <;> rfl

theorem State.Still.reowned {t : State} (h : t.Still) (s : State) (pa n : Nat) : (s.reowned t pa n).Still :=
  foldl_keeps State.Still State.zeroPage (fun _ p h => h.zeroPage p) _ _ h

theorem State.Still.atomicAt (h : s.Still) (pa fn e v : Nat) (u : Option Nat) : (s.atomicAt pa fn e v u).1.Still := by
  unfold State.atomicAt
  dsimp only
  split
  · rw [h.writeQuiet]
    exact (h.poke ..).reowned ..
  · exact h

theorem State.Still.recheck (h : s.Still) (pa n : Nat) : s.recheck pa n = s := State.recheck_of_unwatched h.unwatched pa n

end

section
variable {s : State} {d : Delivery}

theorem State.finishDelivery_deliveries (s : State) (d : Delivery) (a : Ack) :
    (s.finishDelivery d a).fabric.deliveries = s.fabric.deliveries.filter fun x => x.id != d.id :=
  ((s.updFabric fun f => { f with deliveries := f.deliveries.filter fun x => x.id != d.id }).answered_answer d.up a).deliveries

/-- The place and operand of each element of an atomic transaction (R111, R269). -/
def State.atomOperands (s : State) (t : Tx) : List (Nat × Nat) :=
  let e := s.window t.window.toNat
  let size := sizeBytes t.asize.toNat
  let args := if t.aop = 9 then 2 * size else size
  let at_ := fun (i : Nat) => match engineXlate s 0 (winAsid e) (winWorld e) (.world (winWorld e)) (winVa e (t.offset.toNat + i * size)) 2 with
    | .ok pa _ _ => pa
    | _ => 0
  (List.range (t.payload.length / args)).map fun i => (at_ i, leNat ((t.payload.drop (i * args)).take args))

/-- What a target that has checked a transaction does with it: the data, then the landing (R111, R113). -/
def State.performTx (s : State) (t : Tx) (data land : List (Nat × Nat)) : State × List Byte :=
  let op := t.op.toNat
  let size := sizeBytes t.asize.toNat
  let r : State × List Byte := match op with
    | 1 => (s.writePieces t.payload data, [])
    | 6 => (s.writePieces (t.payload.drop 16) data, [])
    | 2 => (s, s.readPieces data)
    | 3 =>
      let elems := s.atomOperands t
      let (s, old) := s.atomElems t.aop.toNat size elems
      (elems.foldl (fun s x => s.recheck x.1 size) s, if ivCard (patIntervals s.shape t.pattern.toNat) = 1 then old else [])
    | _ => (s, [])
  (land.foldl (fun s p => s.land t.land.toNat t.lbit.toNat p.1) r.1, r.2)

theorem State.rest_writePieces (s : State) (bs : List Byte) (l : List (Nat × Nat)) : (s.writePieces bs l).rest = s.rest := by
  induction l generalizing s bs with
  | nil => rfl
  | cons p l ih => exact (ih ..).trans (s.rest_writeHome ..)

theorem State.rest_atomicAt (s : State) (pa fn e v : Nat) (u : Option Nat) : (s.atomicAt pa fn e v u).1.rest = s.rest := by
  unfold State.atomicAt
  dsimp only
  split
  · exact (State.rest_foldl _ (fun s p => s.rest_zeroPage p) _ _).trans (s.rest_writeQuiet ..)
  · rfl

theorem State.rest_atomElems (s : State) (fn e : Nat) (l : List (Nat × Nat)) : (s.atomElems fn e l).1.rest = s.rest := by
  induction l generalizing s with
  | nil => rfl
  | cons x l ih => exact (ih _).trans (s.rest_atomicAt ..)

theorem State.rest_performTx (s : State) (t : Tx) (data land : List (Nat × Nat)) : (s.performTx t data land).1.rest = s.rest := by
  refine (State.rest_foldl _ (fun s p => s.rest_land ..) _ _).trans ?_
  dsimp only
  split
  · exact s.rest_writePieces ..
  · exact s.rest_writePieces ..
  · rfl
  · exact (State.rest_foldl _ (fun s x => s.rest_recheck ..) _ _).trans (s.rest_atomElems ..)
  · rfl

/-- A transaction that the target refuses has none of its effect. -/
theorem exec_targetPerform_refused (hd : s.fabric.deliveries.find? (fun x => x.id == d.id) = some d) (hen : s.fabric.en = true) {cause : Nat}
    (h4 : d.tx.op ≠ 4) (h7 : d.tx.op ≠ 7)
    (hwin : winRefuses (s.window d.tx.window.toNat) d.tx.world.toNat d.tx.op.toNat
      (txRanges d.tx ++ landRanges d.tx.land.toNat d.tx.loff.toNat false) = some cause) :
    ∃ t : State, t.mem = s.mem ∧ t.fabric = s.fabric ∧ exec (.targetPerform d.id) s = .next (t.finishDelivery d (s.errAck cause)) := by
  have hop : ¬(d.tx.op.toNat = 4 ∨ d.tx.op.toNat = 7) := by
    rintro (h | h)
    · exact h4 (BitVec.eq_of_toNat_eq h)
    · exact h7 (BitVec.eq_of_toNat_eq h)
  refine ⟨if cause = 2 then s.updTs 0 fun ts => { ts with remflt := (ts.remflt + 1) % 2 ^ 32 } else s, ?_, ?_, ?_⟩
  · split <;> rfl
  · split <;> rfl
  · rw [show exec (.targetPerform d.id) s = execTargetPerform d.id s from rfl]
    unfold execTargetPerform
    rw [hd]
    dsimp only
    rw [if_neg hop, hen, if_neg (by decide), hwin]
    rfl

/-- A transaction that passes every check is performed and answered. -/
theorem exec_targetPerform (hs : s.Still) (hd : s.fabric.deliveries.find? (fun x => x.id == d.id) = some d) (hen : s.fabric.en = true)
    (h4 : d.tx.op ≠ 4) (h7 : d.tx.op ≠ 7)
    (hwin : winRefuses (s.window d.tx.window.toNat) d.tx.world.toNat d.tx.op.toNat
      (txRanges d.tx ++ landRanges d.tx.land.toNat d.tx.loff.toNat false) = none) {data land : List (Nat × Nat)}
    (hdata : reachAll s (s.window d.tx.window.toNat) (if d.tx.op.toNat = 2 then 0 else if d.tx.op.toNat = 3 then 2 else 1) (txRanges d.tx) = .ok data s)
    (hland : reachAll s (s.window d.tx.window.toNat) 2 (landRanges d.tx.land.toNat d.tx.loff.toNat false) = .ok land s) :
    exec (.targetPerform d.id) s = .next ((s.performTx d.tx data land).1.finishDelivery d (okAck (s.performTx d.tx data land).2)) := by
  have hop : ¬(d.tx.op.toNat = 4 ∨ d.tx.op.toNat = 7) := by
    rintro (h | h)
    · exact h4 (BitVec.eq_of_toNat_eq h)
    · exact h7 (BitVec.eq_of_toNat_eq h)
  rw [show exec (.targetPerform d.id) s = execTargetPerform d.id s from rfl]
  unfold execTargetPerform
  rw [hd]
  dsimp only
  rw [if_neg hop, hen, if_neg (by decide), hwin]
  dsimp only
  rw [hdata]
  dsimp only
  rw [hland]
  dsimp only
  rw [if_neg]
  · rfl
  · simp [hs.writeHeld, hs.readHeld]

/-! ### Ranges of one piece -/

theorem pagePieces_one {va : Nat} {bs : List Byte} (h : va % 65536 + bs.length ≤ 65536) : pagePieces va bs = [(va, bs)] := by
  unfold pagePieces
  dsimp only
  rw [if_pos (by omega)]

/-- An element within one page is one piece. -/
theorem reachAll_one {e off n access pa : Nat} {r : Tr} (hn : n ≠ 0)
    (hx : engineXlate s 0 (winAsid e) (winWorld e) (.world (winWorld e)) (winVa e off) access = .ok pa r s)
    (hpage : winVa e off % 65536 + n ≤ 65536) (hp : s.poisoned pa n = false) : reachAll s e access [(off, n)] = .ok [(pa, n)] s := by
  have hgo : reach s e off n access = .ok [(pa, n)] s := by
    rw [reach, if_neg hn, pagePieces_one (by rw [List.length_replicate]; exact hpage), reach.go, hx]
    simp [hp, reach.go]
  rw [reachAll, hgo]
  rfl

theorem sizeBytes_pos (n : Nat) : 0 < sizeBytes n := by
  unfold sizeBytes
  split <;> decide

/-- An atomic transaction of one element. -/
theorem State.atomOperands_one {t : Tx} {pa : Nat} {r : Tr}
    (hlen : t.payload.length = if t.aop = 9 then 2 * sizeBytes t.asize.toNat else sizeBytes t.asize.toNat)
    (hx : engineXlate s 0 (winAsid (s.window t.window.toNat)) (winWorld (s.window t.window.toNat)) (.world (winWorld (s.window t.window.toNat)))
      (winVa (s.window t.window.toNat) t.offset.toNat) 2 = .ok pa r s) : s.atomOperands t = [(pa, leNat t.payload)] := by
  have hpos := sizeBytes_pos t.asize.toNat
  have hargs : 0 < if t.aop = 9 then 2 * sizeBytes t.asize.toNat else sizeBytes t.asize.toNat := by split <;> omega
  unfold State.atomOperands
  dsimp only
  rw [← hlen, Nat.div_self (hlen ▸ hargs), List.range_one, List.map_singleton, Nat.zero_mul, Nat.zero_mul, Nat.add_zero, hx, List.drop_zero,
    List.take_length]

theorem State.sendUp_combines (s : State) (up : Upstream) (a : Ack) : (s.sendUp up a).fabric.combines = s.fabric.combines := by cases up <;> rfl
theorem State.sendUp_timeout (s : State) (up : Upstream) (a : Ack) : (s.sendUp up a).fabric.timeout = s.fabric.timeout := by cases up <;> rfl

theorem length_dropFirst {α : Type} {p : α → Bool} {l : List α} {x : α} (h : l.find? p = some x) : (dropFirst p l).length + 1 = l.length := by
  induction l with
  | nil => simp at h
  | cons a l ih =>
    rw [dropFirst]
    split
    · rfl
    next ha =>
      rw [List.find?_cons_of_neg ha] at h
      rw [List.length_cons, List.length_cons, ih h]

/-! ### Copies on their way -/

/-- One branch of a copy is delivered here or sent out. -/
def State.sendBranch (s : State) (n : Nat) (here : Bool) (b : Branch) : State :=
  if b.port = 0 then
    State.updFabric { s with ids := s.ids + 1 } fun f => { f with deliveries := f.deliveries ++ [{ id := s.ids + 1, tx := b.tx, up := .branch n b.num, here := here }] }
  else s.updFabric fun f => { f with outbox := f.outbox ++ [(b.port, b.tx)] }

theorem State.sendBranches_spec (s : State) (n : Nat) (here : Bool) (bs : List Branch) :
    let t := bs.foldl (fun s b => s.sendBranch n here b) s
    t.mem = s.mem ∧ t.fabric.inbox = s.fabric.inbox ∧ t.fabric.combines = s.fabric.combines ∧
      t.fabric.deliveries.length = s.fabric.deliveries.length + bs.countP (fun b => b.port == 0) ∧
      t.fabric.outbox.length = s.fabric.outbox.length + bs.countP (fun b => b.port != 0) := by
  induction bs generalizing s with
  | nil => exact ⟨rfl, rfl, rfl, rfl, rfl⟩
  | cons b bs ih =>
    obtain ⟨hmem, hin, hcomb, hdel, hout⟩ := ih (s.sendBranch n here b)
    have hone : (s.sendBranch n here b).mem = s.mem ∧ (s.sendBranch n here b).fabric.inbox = s.fabric.inbox ∧
        (s.sendBranch n here b).fabric.combines = s.fabric.combines ∧
        (s.sendBranch n here b).fabric.deliveries.length = s.fabric.deliveries.length + (if (b.port == 0) = true then 1 else 0) ∧
        (s.sendBranch n here b).fabric.outbox.length = s.fabric.outbox.length + (if (b.port != 0) = true then 1 else 0) := by
      unfold State.sendBranch
      by_cases hb : b.port = 0
      · simp [hb, State.updFabric]
      · simp [hb, State.updFabric]
    obtain ⟨hmem', hin', hcomb', hdel', hout'⟩ := hone
    refine ⟨hmem.trans hmem', hin.trans hin', hcomb.trans hcomb', ?_, ?_⟩
    · rw [List.countP_cons]
      exact hdel.trans (by rw [hdel']; omega)
    · rw [List.countP_cons]
      exact hout.trans (by rw [hout']; omega)

end

end Sys2Proof.Machine

open Sys2Proof Sys2Proof.Machine

/-- Settles O39: an answer leaves memory and deliveries alone, and a checked transaction is its data and then its landing in one step. -/
theorem fabricTransactions : Obligations.FabricTransactions := by
  unfold Obligations.FabricTransactions
  intro s
  refine ⟨fun i x n hx hn => ?_, fun p tx hp hup hop => ?_, fun d hd hen => ?_, fun c b ack hc hb hport hcount => ?_, fun c hc hmade => ?_,
    fun r e b hr hun hup hanchor hkeyed => ?_⟩
  · intro e he
    let r := s.updFabric fun f => { f with inbox := dropAt f.inbox i }
    let bs := e.branches.map fun b => { b with tx := { b.tx with seq := BitVec.ofNat 13 n } }
    let y := r.updFabric fun f => { f with combines := f.combines ++ [{ id := n, up := x.up, branches := bs, ack := e.ack, made := s.clock }] }
    have hexp : (r.asIssued x).expand x.tx x.port = e := by
      show (r.asIssued x).expand x.tx x.port = (s.asIssued x).expand x.tx x.port
      unfold State.asIssued
      cases x.grid <;> rfl
    have hexec : exec (.routerExpand (.here i)) s = .next (bs.foldl (fun s b => s.sendBranch n (x.port == 0) b) y) := by
      rw [show exec (.routerExpand (.here i)) s = execRouterExpand (.here i) s from rfl]
      unfold execRouterExpand
      dsimp only
      rw [hx]
      dsimp only
      unfold State.routeCopy
      rw [hexp, show r.freeCombine = some n from hn]
      dsimp only
      rw [if_neg (by simpa using he)]
      rfl
    obtain ⟨hmem, hin, hcomb, hdel, hout⟩ := y.sendBranches_spec n (x.port == 0) bs
    refine ⟨_, hexec, State.sameMem_of_mem hmem, hin, _, hcomb, rfl, rfl, rfl, ?_, hdel, hout⟩
    rw [List.map_map]
    rfl
  · have hop0 : ¬(tx.op = 8) → (tx.op = 0 ∨ 8 < tx.op.toNat) := fun h8 => hop.imp id fun h7 =>
      lt_of_le_of_ne h7 fun h => h8 (BitVec.eq_of_toNat_eq h.symm)
    rw [Happens, show exec (.routerExpand (.port p tx)) s = execRouterExpand (.port p tx) s from rfl]
    unfold execRouterExpand
    dsimp only
    rw [if_neg (by rw [hup]; simpa using hp)]
    by_cases h8 : tx.op = 8
    · rw [if_pos h8, if_pos h8]
      exact ⟨_, rfl, fun a => rfl, rfl, rfl, rfl⟩
    · rw [if_neg h8, if_neg h8, if_pos (hop0 h8)]
      exact ⟨_, rfl, fun a => rfl, rfl, rfl, rfl⟩
  · intro tx win done
    refine ⟨fun cause h4 h7 hwin => ?_, fun hwin hs => ?_⟩
    · obtain ⟨t, hmem, hfab, hexec⟩ := exec_targetPerform_refused hd hen h4 h7 hwin
      exact ⟨_, hexec, by rw [State.finishDelivery_deliveries, hfab], State.sameMem_of_mem ((State.finished t d _).mem.trans hmem)⟩
    · have hst := (State.still_iff s).1 hs
      have hdone : ∀ (data land : List (Nat × Nat)) (P : State → Prop), tx.op ≠ 4 → tx.op ≠ 7 →
          reachAll s win (if tx.op.toNat = 2 then 0 else if tx.op.toNat = 3 then 2 else 1) (txRanges tx) = .ok data s →
          reachAll s win 2 (landRanges tx.land.toNat tx.loff.toNat false) = .ok land s →
          (∀ t, (∀ a, t.byte a = (s.performTx tx data land).1.byte a) → P t) → done P := by
        intro data land P h4 h7 hdata hland hP
        refine ⟨_, exec_targetPerform hst hd hen h4 h7 hwin hdata hland, ?_, hP _ fun a => ?_⟩
        · rw [State.finishDelivery_deliveries]
          have hrest : (s.performTx d.tx data land).1.rest.fabric = s.rest.fabric := congrArg State.fabric (s.rest_performTx ..)
          rw [show (s.performTx d.tx data land).1.fabric = s.fabric from hrest]
        · exact State.byte_of_mem (State.finished _ d _).mem a
      refine ⟨fun pa hop hland hdata => ?_, fun pa hop hland hreach => ?_, fun data land hop hdata hland => ?_, ?_, fun l hop hland hdata => ?_⟩
      · refine hdone _ [] _ (by rw [hop]; decide) (by rw [hop]; decide) (by rw [hop]; exact hdata) (by rw [hland]; rfl) fun t ht a => ?_
        rw [ht, State.performTx, hop]
        show (s.writeHome pa (tx.payload.take tx.payload.length)).byte a = _
        rw [List.take_length, hst.writeHome, State.byte_poke]
      · refine hdone [] _ _ (by rw [hop]; decide) (by rw [hop]; decide) (by rw [txRanges, hop]; rfl) (by rw [hland]; exact hreach) fun t ht => ?_
        have hstate : (s.performTx tx [] [(pa, 8)]).1 = s.poke pa (natLe 8 (s.read pa 8 + 1)) none := by
          rw [State.performTx, hop, hland]
          exact hst.writeHome ..
        rw [hstate] at ht
        refine ⟨?_, fun a ha => ?_⟩
        · rw [State.read_congr (s := s.poke pa (natLe 8 (s.read pa 8 + 1)) none) fun i _ => ht _, State.read_poke_self]
          norm_num
        · rw [ht, State.byte_poke_out _ none (by rw [length_natLe]; omega)]
      · rcases hop with hop | hop | hop
        · refine hdone _ _ _ (by rw [hop]; decide) (by rw [hop]; decide) (by rw [hop]; exact hdata) hland fun t ht a => ?_
          rw [ht, State.performTx, hop]
          rfl
        · have hnil : data = [] := by
            rw [txRanges, hop] at hdata
            exact (Reach.ok.inj hdata).1.symm
          refine hdone _ _ _ (by rw [hop]; decide) (by rw [hop]; decide) (by rw [hop]; exact hdata) hland fun t ht a => ?_
          rw [ht, State.performTx, hop, hnil]
          rfl
        · refine hdone _ _ _ (by rw [hop]; decide) (by rw [hop]; decide) (by rw [hop]; exact hdata) hland fun t ht a => ?_
          rw [ht, State.performTx, hop]
          rfl
      · intro size pa r hop hland hlen hx hpage hp
        have hsize : 0 < size := sizeBytes_pos _
        have hranges : txRanges tx = [(tx.offset.toNat, size)] := by
          rw [txRanges, hop]
          by_cases h9 : tx.aop = 9
          · simp only [h9, if_true] at hlen ⊢
            rw [hlen]; simp
          · simp only [h9, if_false] at hlen ⊢
            rw [hlen]; rfl
        refine hdone [(pa, size)] [] _ (by rw [hop]; decide) (by rw [hop]; decide) ?_ (by rw [hland]; rfl) fun t ht a => ?_
        · rw [hop, hranges]
          exact reachAll_one hsize.ne' hx hpage hp
        · have hperf : (s.performTx tx [(pa, size)] []).1 = ((s.atomicAt pa tx.aop.toNat size (leNat tx.payload) none).1.recheck pa size) := by
            rw [State.performTx, hop]
            dsimp only
            rw [State.atomOperands_one hlen hx]
            rfl
          rw [ht, hperf, (hst.atomicAt ..).recheck]
      · refine hdone _ [] _ (by rw [hop]; decide) (by rw [hop]; decide) (by rw [hop]; exact hdata) (by rw [hland]; rfl) fun t ht a => ?_
        rw [ht, State.performTx, hop]
        rfl
  · have hport' : ((s.fabric.combines.find? fun x => x.id == c.id).any fun c => c.branches.any fun x => x.num == b.num && x.port != 0) = true := by
      rw [hc]
      refine List.any_eq_true.2 ⟨b, List.mem_of_find?_eq_some hb, ?_⟩
      simpa using hport
    have hexec : exec (.combineAck c.id b.num ack) s = .next (s.combineAnswer c.id b.num ack) := by
      rw [show exec (.combineAck c.id b.num ack) s = execCombineAck c.id b.num ack s from rfl]
      unfold execCombineAck
      dsimp only
      rw [if_pos hport']
    refine ⟨_, hexec, State.sameMem_of_mem (s.answered_combineAnswer ..).mem, ?_⟩
    unfold State.combineAnswer
    rw [hc]
    dsimp only
    rw [hb]
    dsimp only
    rw [if_neg hcount]
    have hlen : (dropFirst (fun x => x.num == b.num) c.branches).length + 1 = c.branches.length := length_dropFirst hb
    by_cases hone : c.branches.length = 1
    · have hnil : dropFirst (fun x => x.num == b.num) c.branches = [] := List.length_eq_zero_iff.1 (by omega)
      rw [if_pos hone, hnil]
      refine ⟨fun x hx => ?_, fun op k hup => ?_, fun p q hup => ?_⟩
      · rw [if_pos (by rfl), State.sendUp_combines] at hx
        simpa using (List.mem_filter.1 hx).2
      · rw [if_pos (by rfl), hup]; rfl
      · rw [if_pos (by rfl), hup]; rfl
    · have hne : ¬(dropFirst (fun x => x.num == b.num) c.branches).isEmpty = true := fun h => by
        rw [List.isEmpty_iff.1 h] at hlen
        exact hone hlen.symm
      rw [if_neg hone, if_neg hne]
      exact ⟨rfl, find?_updFirst_id Combine.id hc rfl⟩
  · rw [Happens, show exec (.combineTimeout c.id) s = execCombineTimeout c.id s from rfl]
    unfold execCombineTimeout
    rw [hc]
    dsimp only
    rw [if_neg (Nat.not_lt.2 hmade)]
    have hans := State.answered_sendUp (s.updFabric fun f => { f with combines := f.combines.filter (fun x => x.id != c.id), timeout := (f.timeout + (c.branches.map (·.count)).sum) % 2 ^ 32 })
      c.up (c.branches.foldl (fun a b => addAck a { count := b.count, errs := b.count, cause := 8, node := b.node, data := [] }) c.ack)
    refine ⟨_, rfl, State.sameMem_of_mem hans.mem, fun x hx => ?_, ?_⟩
    · rw [State.sendUp_combines] at hx
      simpa using (List.mem_filter.1 hx).2
    · rw [State.sendUp_timeout]
      rfl
  · rw [Happens, show exec (.combineNackResend r.id) s = execCombineNackResend r.id s from rfl]
    unfold execCombineNackResend
    rw [hr]
    dsimp only
    rw [if_neg (by rw [hanchor]; simpa using hun), hup]
    refine ⟨_, rfl, ?_⟩
    unfold State.sendAgain
    dsimp only
    rw [if_neg (fun hbad => by have := hkeyed hbad.1; simp [this, State.updFabric] at hbad)]
    refine ⟨fun a => rfl, fun x hx => by simpa using (List.mem_filter.1 hx).2, rfl⟩

end

section
/-! SUPPORT. A transfer that fails while the cohort of its wave is saved (R314, R392): the error enters the saved wave's timeline, and the
image in memory follows. -/

set_option Elab.async false

namespace Sys2Proof.Machine

/-- Where the image of the saved cohort stands. -/
def poolPage : Nat := 0x10000

/-- A task whose one cohort, of one wave, is saved. -/
def savedTask : Task :=
  { savingTask with saved := [{ id := 9, cohort := Cohort.blank 1 0 0 0 0, waves := [(1, Wave.placed 0 0 0 0 1 32 0 0 0)], die := 0,
                                pages := [poolPage], bytes := 256, count := 0 }] }

/-- The operation of a transfer to a foreign peer that the saved wave has made. -/
def savedOp : RemoteOp := { RemoteOp.blank with id := 7, wave := some 1, kind := 1, expected := 1, foreign := true }

/-- Its command: bit 315 of the record says that the peer is foreign. -/
def savedTransfer : CopyCmd := { CopyCmd.blank 5 3 0 0 with wave := some 1, rec_ := natLe 128 (2 ^ 315), args := [7] }

/-- The package with both, and no foreign peer table. -/
def savedState : State :=
  { State.reset with
    sched := { State.reset.sched with tasks := [savedTask], copies := [savedTransfer] }
    fabric := { State.reset.fabric with ops := [savedOp] } }

/-- The second byte of the image, of its length, after a step. -/
def seenImage (o : Host.Outcome State Fault Refusal) : Option Byte :=
  match o with
  | .next t => some (t.byte (poolPage + 1))
  | _ => none

end Sys2Proof.Machine

open Sys2Proof Sys2Proof.Machine

/-- Refutes O38: a transfer to a foreign peer without a table entry fails, its operation's wave is in a saved cohort, and the image of that
cohort is written again: memory does not stay. -/
theorem not_remoteEngine : ¬ Obligations.RemoteEngine := by
  intro h
  obtain ⟨-, -, -, -, -, -, h⟩ := h savedState 7 savedOp (by decide +kernel)
  obtain ⟨t, hx, hsame, -⟩ := (h 5 savedTransfer (by decide +kernel) rfl rfl rfl).1 (by decide +kernel) (by decide +kernel)
  have hseen : seenImage (exec (.rxferTransfer 5) savedState) = some (savedState.byte (poolPage + 1)) := by
    rw [hx]
    exact congrArg some (hsame (poolPage + 1))
  exact absurd hseen (by decide +kernel)

end

section
/-! SUPPORT. A kill whose cancelled task empties a die: the dies that the package lists twice (R40, R76). -/

set_option Elab.async false

namespace Sys2Proof.Machine

/-- The token on which wave 1 waits for system software. -/
def killToken : Token :=
  { num := 4, asid := 0, page := 0, access := 0, agents := [.wave 1 false], fault := { va := 0, kind := 0, access := 0, level := 0 } }

/-- Wave 1, parked on the token. -/
def killedWave : Wave := { Wave.placed 0 0 0 0 1 32 0 0 0 with wait := .fault 0 4 }

/-- A task of dispatch 0, the dispatch of wave 1. -/
def killedTask : Task := Task.arrived 3 0 0 0 0 0 0 0 0 0 0

/-- Die 0 holds the token and nothing else; it is listed again behind die 5, which holds a protected line of the task. -/
def killState : State :=
  { loneState killedWave with
    dies := [(0, { Die.reset with ts := { Die.reset.ts with tokens := [killToken] } }),
             (5, { Die.reset with l2 := { Die.reset.l2 with prot := [(0, 3)] } }),
             (0, { Die.reset with ts := { Die.reset.ts with tokens := [killToken] } })]
    sched := { State.reset.sched with tasks := [killedTask] } }

/-- How many tokens die 0 holds after a step. -/
def seenTokens (o : Host.Outcome State Fault Refusal) : Option Nat :=
  match o with
  | .next t => some (t.die 0).ts.tokens.length
  | _ => none

end Sys2Proof.Machine

open Sys2Proof Sys2Proof.Machine

/-- Refutes O47: die 0 stands twice among the dies, the second time behind a die that the kill empties, and its token there is read again. -/
theorem not_walksAndFaults : ¬ Obligations.WalksAndFaults := by
  intro h
  obtain ⟨-, -, -, h⟩ := h killState 0 1 killedWave (by decide +kernel) (by decide +kernel)
  obtain ⟨-, -, h⟩ := (h 4).2 killToken false (by decide +kernel) rfl rfl
  obtain ⟨t, hx, ht, -⟩ := h 0 (by decide +kernel) (by decide +kernel) (by decide +kernel)
  have hseen : seenTokens (exec (.faultKill 0 4) killState) = some 0 := by
    rw [hx]
    exact congrArg some (congrArg List.length ht)
  exact absurd hseen (by decide +kernel)

end

section
/-! SUPPORT. Entry into an approximable region, by its state (R355, R362). -/

set_option Elab.async false

namespace Sys2Proof.Machine

section
variable {s : State} {u : Nat} {w : Wave} {f : EF}

theorem shl3_eq_mul8 (x : DWord) : x <<< 3 = x * 8 := by bv_omega

/-! ### The outputs of a network -/

/-- The registers after the outputs of a network have been written. -/
def Wave.withOutputs (w : Wave) (data : List (Nat × Nat)) : Wave :=
  data.foldl (fun w x => w.setV (x.1 % 256) (x.1 / 256) (BitVec.ofNat 32 x.2)) w

theorem Wave.withOutputs_cons (x : Nat × Nat) (data : List (Nat × Nat)) :
    w.withOutputs (x :: data) = (w.setV (x.1 % 256) (x.1 / 256) (BitVec.ofNat 32 x.2)).withOutputs data := rfl

/-- Only vector registers and their poison change. -/
theorem Wave.withOutputs_only (data : List (Nat × Nat)) (w : Wave) :
    ∃ v p, w.withOutputs data = { w with regs := { w.regs with v := v, vpoison := p } } := by
  induction data generalizing w with
  | nil => exact ⟨_, _, rfl⟩
  | cons x data ih =>
    obtain ⟨v, p, h⟩ := ih (w.setV (x.1 % 256) (x.1 / 256) (BitVec.ofNat 32 x.2))
    exact ⟨v, p, h⟩

theorem Wave.mapGet_setV (w : Wave) (r i : Nat) (x : Word) (k : Nat) :
    mapGet 0 (w.setV r i x).regs.v k = if k = vkey r i then x else mapGet 0 w.regs.v k := mapGet_mapPut ..

theorem Wave.withOutputs_other (data : List (Nat × Nat)) (w : Wave) {k : Nat} (hk : k ∉ data.map (·.1)) :
    mapGet 0 (w.withOutputs data).regs.v k = mapGet 0 w.regs.v k := by
  induction data generalizing w with
  | nil => rfl
  | cons x data ih =>
    rw [List.map_cons, List.mem_cons, not_or] at hk
    rw [Wave.withOutputs_cons, ih _ hk.2, Wave.mapGet_setV, if_neg]
    rintro rfl
    exact hk.1 (by rw [vkey]; omega)

/-- Every output stands in its register. -/
theorem Wave.withOutputs_v (data : List (Nat × Nat)) (w : Wave) (hn : (data.map (·.1)).Nodup) {r i x : Nat} (hr : r < 256)
    (hx : (vkey r i, x) ∈ data) : (w.withOutputs data).v r i = BitVec.ofNat 32 x := by
  induction data generalizing w with
  | nil => simp at hx
  | cons y data ih =>
    rw [List.map_cons, List.nodup_cons] at hn
    rw [Wave.withOutputs_cons]
    obtain rfl | hx := List.mem_cons.1 hx
    · rw [Wave.v, Wave.withOutputs_other _ _ hn.1, Wave.mapGet_setV, if_pos]
      simp only [vkey]
      omega
    · exact ih _ hn.2 hx

/-! ### What APXBEGIN does -/

theorem closesRegion_apxbegin : closesRegion w (Instr.op (.apxbegin f)) = false := by
  rw [show Instr.op (.apxbegin f) = 0xC0 by rw [op_of_encE (f := f) (op := 0xC0) rfl]; rfl]
  rfl

/-- The wave once a network's outputs have entered its registers. -/
def Wave.computed (w : Wave) : Wave :=
  { w.readied.withOutputs w.prog.data with
    sp := { (w.readied.withOutputs w.prog.data).sp with apxstat := BitVec.ofNat 64 (w.readied.withOutputs w.prog.data).prog.x } }

theorem Wave.computed_only (w : Wave) : ∃ v p, w.computed =
    { w.readied with regs := { w.regs with v := v, vpoison := p }, sp := { w.sp with apxstat := BitVec.ofNat 64 w.prog.x } } := by
  obtain ⟨v, p, h⟩ := Wave.withOutputs_only w.prog.data w.readied
  exact ⟨v, p, by rw [Wave.computed, h]; rfl⟩

/-- With a network's outputs at hand they enter their registers and control goes on at the region's end. -/
theorem Issues.apxbegin_computed (h : Issues s u w (.apxbegin f)) (hst : w.prog.stage = 1) :
    Completes s u w (.apxbegin f) (w.computed.completed (w.pc + f.ctl.signExtend 64 <<< 3) true (closesRegion w (Instr.op (.apxbegin f)))) := by
  obtain ⟨v, p, hout⟩ := w.computed_only
  refine h.completes_jump (rfl : _ = execApxbegin f s) ?_ (by rw [hout]; rfl)
  dsimp only
  rw [if_pos (show w.readied.prog.stage = 1 from hst)]
  exact congrArg (fun x => Act.jump x _) (State.setWave_setWave ..)

/-- APXBEGIN of an active wave in a region with a table, of which the die knows. -/
theorem apxbegin_body (hst : w.prog.stage ≠ 1) (hh : HeaderAt s w (w.pc + f.ctl.signExtend 64 * 8))
    {a : Act} (hid : (w.src f.c).toNat < 65536)
    (hb : (if w.activeLanes.isEmpty then .jump (s.setWave u w.readied) (w.pc + f.ctl.signExtend 64 <<< 3)
      else if w.sp.apxtab = 0 ∨ 2 ≤ (s.die (dieOf w.core)).fit.mode ∨ isTrustCore w.core then
        .done (s.setWave u { w.readied with region := none, sp := { w.sp with apxstat := apxStat (w.src f.c).toNat rgOff false false false false } })
      else afterJoin (withRegion (.apxbegin f) f.c.toNat (s.regionKey w (w.src f.c).toNat) (w.pc + f.ctl.signExtend 64 <<< 3).toNat
        fun r s' u' w' => match r with
          | some r => enterRegion f (s.regionKey w (w.src f.c).toNat) (w.pc + f.ctl.signExtend 64 <<< 3) r s' u' w'
          | none => .done (s'.setWave u' { w' with region := none, sp := { w'.sp with apxstat := apxStat (w.src f.c).toNat rgOff false false true false } }))
        (s.setWave u w.readied) u w.readied) = a) :
    ∃ body, exec (.apxbegin f) s = runInstr (.apxbegin f) body s ∧ body (s.setWave u w.readied) u w.readied = a := by
  refine ⟨_, (rfl : _ = execApxbegin f s), ?_⟩
  rw [← shl3_eq_mul8] at hh
  have ht := transfer_headerAt (s := s) (u := u) (w := w) (x := w.readied) (target := fun _ => w.pc + f.ctl.signExtend 64 <<< 3)
    (taken := fun _ => true) (effect := id) hh
  rw [if_pos rfl, State.setWave_setWave] at ht
  dsimp only
  rw [if_neg (show ¬w.readied.prog.stage = 1 from hst)]
  show (match transfer (fun _ => w.pc + f.ctl.signExtend 64 <<< 3) (fun _ => true) id (s.setWave u w.readied) u w.readied with
    | .jump s _ => _
    | a => a) = a
  rw [ht]
  dsimp only
  rw [withRegionId, if_pos (show (w.readied.src f.c).toNat < 65536 from hid), ← hb]
  simp only [State.setWave_setWave]
  rfl

theorem apxStat_tracked (id st surr sampled : Nat) (a b : Bool) (ha : b2n a = surr) (hb : b2n b = sampled) :
    apxStat id st a b false false = BitVec.ofNat 64 (id + 2 ^ 16 * st + 2 ^ 19 * surr + 2 ^ 20 * sampled) := by
  rw [apxStat, ha, hb, show b2n false = 0 from rfl, Nat.mul_zero, Nat.mul_zero]
  simp only [Nat.add_zero]

/-- An instruction that opens or closes a region of its wave and otherwise changes only what engines keep. -/
theorem Issues.ends_inRegion {body : Body} {t : State} {y : Wave} {x : DWord} {p : Wave → Prop} (h : Issues s u w (.apxbegin f))
    (hx : exec (.apxbegin f) s = runInstr (.apxbegin f) body s) (hb : body (s.setWave u w.readied) u w.readied = .done (t.setWave u y))
    (hm : t.mem = s.mem) (hregs : y.regs = w.regs) (hsp : y.sp = { w.sp with apxstat := x }) (hcl : y.clause = w.clause)
    (hp : ∀ w' : Wave, w'.region = y.region → p w') :
    Ends s u w (.apxbegin f) fun t w' => w'.regs = w.regs ∧ w'.sp = { w.sp with apxstat := x } ∧ s.sameMem t ∧ p w' := by
  refine h.ends hx hb ((State.wave_setWave ..).trans (if_pos rfl)) hcl
    ⟨(Wave.completed_regs ..).trans hregs, (Wave.completed_sp ..).trans hsp, State.sameMem_of_mem ?_, hp _ ?_⟩
  · rw [State.retire_mem]
    exact hm
  · rw [closesRegion_apxbegin]
    rfl

/-- A die's note that a region has been entered. -/
def State.noteEntry (s : State) (die : Nat) (k : RegionKey) : State := s.fresh.2.updRegion die k fun r => { r with entered := s.fresh.1 }

/-- And that it has been invoked armed. -/
def State.noteInvocation (s : State) (die : Nat) (k : RegionKey) (n : Nat) : State := (s.noteEntry die k).updRegion die k fun r => { r with n := n }

section
variable {k : RegionKey} {target : DWord} {r : Region} (hin : f.d.toNat % 16 + 1 = r.nin) (hout : f.d.toNat / 16 % 8 + 1 = r.nout)
include hin hout

theorem counts_ok : ¬(f.d.toNat % 16 + 1 ≠ r.nin ∨ f.d.toNat / 16 % 8 + 1 ≠ r.nout) := by simp [hin, hout]

/-- A region that observes, trains or falls back is entered with a capture. -/
theorem enterRegion_watched (hst : r.st = 1 ∨ r.st = 2 ∨ r.st = 4) : enterRegion f k target r s u w =
    .done ((s.noteEntry (dieOf w.core) k).setWave u { w with
      region := some (capture k r f.a.toNat f.b.toNat { w with region := none }),
      sp := { w.sp with apxstat := apxStat k.id r.st false true false false } }) := by
  unfold enterRegion
  dsimp only
  rw [if_neg (counts_ok hin hout), if_neg (by rw [rgArmed]; omega), if_pos (show r.st = rgObserve ∨ r.st = rgTrain ∨ r.st = rgFallback from hst)]
  rfl

/-- One that is off or disabled is entered without. -/
theorem enterRegion_idle (hst : r.st = 0 ∨ r.st = 5) : enterRegion f k target r s u w =
    .done ((s.noteEntry (dieOf w.core) k).setWave u { w with
      region := none, sp := { w.sp with apxstat := apxStat k.id r.st false false false false } }) := by
  unfold enterRegion
  dsimp only
  rw [if_neg (counts_ok hin hout), if_neg (by rw [rgArmed]; omega), if_neg (by simp only [rgObserve, rgTrain, rgFallback]; omega)]
  rfl

/-- An armed one whose turn it is to be sampled is entered with a capture too. -/
theorem enterRegion_sampled (hst : r.st = 3) (hn : (r.n + 1) % 2 ^ r.s = 2 ^ r.s - 1) : enterRegion f k target r s u w =
    .done ((s.noteInvocation (dieOf w.core) k (r.n + 1)).setWave u { w with
      region := some (capture k r f.a.toNat f.b.toNat { w with region := none }),
      sp := { w.sp with apxstat := apxStat k.id r.st false true false false } }) := by
  unfold enterRegion
  dsimp only
  rw [if_neg (counts_ok hin hout), if_pos (show r.st = rgArmed from hst), if_pos hn]
  rfl

/-- The network of an armed one computes, and the wave waits for it. -/
theorem enterRegion_surrogate (hst : r.st = 3) (hn : (r.n + 1) % 2 ^ r.s ≠ 2 ^ r.s - 1) : ∃ (miss : Bool) (x : Nat),
    enterRegion f k target r s u w =
      .wait (((s.noteInvocation (dieOf w.core) k (r.n + 1)).updCore w.core fun c => c.useWeights k r.gen).setWave u { w with
        region := none, prog := { Progress.none with stage := 1, x := x, y := target.toNat, data := surrogateOuts r f.a.toNat f.b.toNat w } })
        (.surrogate (s.clock + surrogateClocks r w miss)) := by
  refine ⟨!((s.noteInvocation (dieOf w.core) k (r.n + 1)).core w.core).surrogate.any fun x => x.1 == k,
    (apxStat k.id r.st true false false
      (!((s.noteInvocation (dieOf w.core) k (r.n + 1)).core w.core).surrogate.any fun x => x.1 == k)).toNat, ?_⟩
  unfold enterRegion
  dsimp only
  rw [if_neg (counts_ok hin hout), if_pos (show r.st = rgArmed from hst), if_neg hn]
  rfl

end

end

end Sys2Proof.Machine

open Sys2Proof Sys2Proof.Machine

/-- Settles O43: by whether a network has computed, is at work, and by the state of the region. -/
theorem regionBegins : Obligations.RegionBegins := by
  intro s u w f h target id k die stat runs
  refine ⟨fun hst => ?_, fun hst hh hid => ?_⟩
  · obtain ⟨v, p, hout⟩ := w.computed_only
    refine ⟨_, h.apxbegin_computed hst, ?_, ?_, fun r => ?_, fun hn r i x hr hx => ?_⟩
    · rw [Wave.completed_pc, shl3_eq_mul8]
    · rw [Wave.completed_sp, hout]
    · simp only [Wave.s, Wave.skey, Wave.completed_regs, Wave.completed_tr, hout]
      rfl
    · unfold Wave.v
      rw [Wave.completed_regs]
      exact Wave.withOutputs_v w.prog.data w.readied hn hr hx
  · refine ⟨fun hact => ?_, fun hact hoff => ?_, fun hact htab hmode htrust hj r hr hstale hin hout => ?_⟩
    · obtain ⟨body, hx, hb⟩ := apxbegin_body hst hh hid (if_pos (show w.activeLanes.isEmpty = true by rw [hact]; rfl))
      refine ⟨_, h.completes_jump hx hb rfl, ?_, ?_, ?_⟩
      · rw [Wave.completed_pc, shl3_eq_mul8]
      · exact Wave.completed_regs ..
      · exact Wave.completed_sp ..
    · have hne : ¬w.activeLanes.isEmpty = true := by simpa using hact
      obtain ⟨body, hx, hb⟩ := apxbegin_body hst hh hid ((if_neg hne).trans (if_pos hoff))
      exact h.ends_inRegion hx hb rfl rfl (congrArg (fun x => ({ w.sp with apxstat := x } : Specials)) (apxStat_tracked _ _ _ _ _ _ rfl rfl)) rfl fun w' h => h
    · have hne : ¬w.activeLanes.isEmpty = true := by simpa using hact
      have hon : ¬(w.sp.apxtab = 0 ∨ 2 ≤ (s.die (dieOf w.core)).fit.mode ∨ isTrustCore w.core = true) := by
        rintro (h0 | h2 | ht)
        · exact htab h0
        · exact Nat.not_le.2 hmode h2
        · rw [htrust] at ht
          cases ht
      have henter : ∀ {a : Act}, enterRegion f k (w.pc + f.ctl.signExtend 64 <<< 3) r (s.setWave u w.unjoined) u w.unjoined = a →
          ∃ body, exec (.apxbegin f) s = runInstr (.apxbegin f) body s ∧ body (s.setWave u w.readied) u w.readied = a := by
        intro a ha
        refine apxbegin_body hst hh hid ((if_neg hne).trans ((if_neg hon).trans ((afterJoin_eq hj _).trans ?_)))
        unfold withRegion
        dsimp only
        rw [show (s.setWave u w.unjoined).region (dieOf w.unjoined.core) (s.regionKey w (w.src f.c).toNat) = some r from hr]
        dsimp only
        rw [if_pos (by rw [hstale]; rfl)]
        exact ha
      have hsampled : ∀ {t : State}, t.mem = s.mem → enterRegion f k (w.pc + f.ctl.signExtend 64 <<< 3) r (s.setWave u w.unjoined) u w.unjoined =
          .done (t.setWave u { w.unjoined with
            region := some (capture k r f.a.toNat f.b.toNat { w.unjoined with region := none }),
            sp := { w.sp with apxstat := apxStat k.id r.st false true false false } }) →
          runs (stat r.st 0 1) fun w' => w'.region.map (fun o => (o.key, o.gen, o.capture)) =
            some (k, r.gen, (w.activeLanes.take 32).map fun i => (i, (List.range r.nin).map fun j => w.v (f.a.toNat + j) i)) := by
        intro t hm ht
        obtain ⟨body, hx, hb⟩ := henter ht
        exact h.ends_inRegion hx hb hm rfl (congrArg (fun x => ({ w.sp with apxstat := x } : Specials)) (apxStat_tracked _ _ _ _ _ _ rfl rfl)) rfl fun w' h => by
          rw [h]
          rfl
      refine ⟨fun hs => hsampled (t := (s.setWave u w.unjoined).noteEntry die k) rfl (enterRegion_watched hin hout hs), fun hs => ?_,
        fun hs hn => hsampled (t := (s.setWave u w.unjoined).noteInvocation die k (r.n + 1)) rfl (enterRegion_sampled hin hout hs hn), fun hs hn => ?_⟩
      · obtain ⟨body, hx, hb⟩ := henter (enterRegion_idle hin hout hs)
        exact h.ends_inRegion hx hb rfl rfl (congrArg (fun x => ({ w.sp with apxstat := x } : Specials)) (apxStat_tracked _ _ _ _ _ _ rfl rfl)) rfl fun w' h => h
      · obtain ⟨miss, x, he⟩ := enterRegion_surrogate (s := s.setWave u w.unjoined) (u := u) (w := w.unjoined) (k := k)
          (target := w.pc + f.ctl.signExtend 64 <<< 3) hin hout hs hn
        obtain ⟨body, hx, hb⟩ := henter he
        exact ⟨_, _, miss, h.exec_wait hx hb ((State.wave_setWave ..).trans (if_pos rfl)), (State.waiting_wave ..).trans (if_pos rfl),
          rfl, rfl, rfl, rfl, rfl⟩

end

section
/-! SUPPORT. The scratchpad (R54, R59): the bytes that a write changes, the lines of a range, and the lines that become FULL. -/

set_option Elab.async false

namespace Sys2Proof.Machine

/-! ### Consecutive bytes of a map -/

section
variable {α : Type} [DecidableEq α] (d : α)

theorem mapGet_putRun (a : Nat) (bs : List α) (n : Nat) (m : List (Nat × α)) (k : Nat) :
    mapGet d ((bs.zipIdx n).foldl (fun m b => mapPut d m (a + b.2) b.1) m) k =
      if a + n ≤ k ∧ k < a + n + bs.length then nth d bs (k - (a + n)) else mapGet d m k := by
  induction bs generalizing n m with
  | nil => rw [if_neg (by simp only [List.length_nil]; omega)]; rfl
  | cons b bs ih =>
    rw [List.zipIdx_cons, List.foldl_cons, ih, mapGet_mapPut, List.length_cons]
    by_cases h1 : a + (n + 1) ≤ k ∧ k < a + (n + 1) + bs.length
    · rw [if_pos h1, if_pos (by omega), show k - (a + n) = (k - (a + (n + 1))) + 1 by omega]
      rfl
    · rw [if_neg h1]
      by_cases h2 : k = a + n
      · rw [if_pos h2, if_pos (by omega), h2, Nat.sub_self]
        rfl
      · rw [if_neg h2, if_neg (by omega)]

end

/-! ### Lines -/

theorem mem_unitsOf {k a n l : Nat} (hk : 0 < k) : l ∈ unitsOf k a n ↔ ∃ b, a ≤ b ∧ b < a + n ∧ b / k = l := by
  unfold unitsOf
  split
  next h =>
    simp only [List.not_mem_nil, false_iff]
    rintro ⟨b, hb⟩
    omega
  next h =>
    simp only [List.mem_map, List.mem_range]
    constructor
    · rintro ⟨i, hi, rfl⟩
      rcases Nat.eq_zero_or_pos i with rfl | hpos
      · exact ⟨a, Nat.le_refl _, by omega, rfl⟩
      · refine ⟨k * (a / k + i), ?_, ?_, Nat.mul_div_cancel_left _ hk⟩
        · have := Nat.div_add_mod a k
          have := Nat.mod_lt a hk
          have : k * (a / k + i) = k * (a / k) + k * i := Nat.mul_add ..
          have : k ≤ k * i := Nat.le_mul_of_pos_right k hpos
          omega
        · have : a / k + i ≤ (a + n - 1) / k := by omega
          have := (Nat.le_div_iff_mul_le hk).1 this
          rw [Nat.mul_comm]
          omega
    · rintro ⟨b, hab, hbn, rfl⟩
      have h1 : a / k ≤ b / k := Nat.div_le_div_right hab
      have h2 : b / k ≤ (a + n - 1) / k := Nat.div_le_div_right (by omega)
      exact ⟨b / k - a / k, by omega, by omega⟩

theorem mem_linesOf {a n l : Nat} : l ∈ linesOf a n ↔ ∃ b, a ≤ b ∧ b < a + n ∧ b / 128 = l := mem_unitsOf (by decide)

/-! ### Writing and filling -/

section
variable (c : Cohort)

theorem Cohort.scratchWrite_get (a : Nat) (bs : List Byte) (b : Nat) :
    mapGet 0 (c.scratchWrite a bs).scratch b = if a ≤ b ∧ b < a + bs.length then nth 0 bs (b - a) else mapGet 0 c.scratch b :=
  mapGet_putRun 0 a bs 0 c.scratch b

/-- A write changes the bytes, their poison and what engines may still see of them. -/
theorem Cohort.scratchWrite_only (a : Nat) (bs : List Byte) : ∃ x p v, c.scratchWrite a bs = { c with scratch := x, spoiled := p, unfenced := v } :=
  ⟨_, _, _, rfl⟩

/-- The lines that are filled are FULL, the others as they were. -/
theorem Cohort.mem_fillLines (ls : List Nat) (l : Nat) : l ∈ (ls.foldl Cohort.fillLine c).empty ↔ l ∈ c.empty ∧ l ∉ ls := by
  induction ls generalizing c with
  | nil => simp
  | cons x ls ih =>
    rw [List.foldl_cons, ih]
    simp only [Cohort.fillLine, List.mem_filter, bne_iff_ne, List.mem_cons, not_or]
    tauto

theorem Cohort.fillLines_only (ls : List Nat) (c : Cohort) : ∃ e x, ls.foldl Cohort.fillLine c = { c with empty := e, failed := x } := by
  induction ls generalizing c with
  | nil => exact ⟨_, _, rfl⟩
  | cons x ls ih =>
    obtain ⟨e, f, h⟩ := ih (c.fillLine x)
    exact ⟨e, f, h⟩

end

/-! ### The bytes of a staging copy (R346) -/

/-- The part of `bs`, from address `a`, that lies in a line. -/
def Cohort.writeLine (a : Nat) (bs : List Byte) (c : Cohort) (l : Nat) : Cohort :=
  c.scratchWrite (max a (128 * l)) ((bs.drop (max a (128 * l) - a)).take (min (a + bs.length) (128 * l + 128) - max a (128 * l)))

theorem Cohort.writeLine_get (a : Nat) (bs : List Byte) (c : Cohort) (l b : Nat) : mapGet 0 (c.writeLine a bs l).scratch b =
    if a ≤ b ∧ b < a + bs.length ∧ b / 128 = l then nth 0 bs (b - a) else mapGet 0 c.scratch b := by
  unfold Cohort.writeLine
  rw [Cohort.scratchWrite_get]
  simp only [List.length_take, List.length_drop]
  by_cases h : a ≤ b ∧ b < a + bs.length ∧ b / 128 = l
  · obtain ⟨h1, h2, h3⟩ := h
    rw [if_pos (by omega), if_pos ⟨h1, h2, h3⟩]
    unfold nth
    rw [List.getElem?_take_of_lt (by omega), List.getElem?_drop]
    congr 2
    omega
  · rw [if_neg h, if_neg (by omega)]

theorem Cohort.writeLines_get (a : Nat) (bs : List Byte) (ls : List Nat) (c : Cohort) (b : Nat) :
    mapGet 0 (ls.foldl (Cohort.writeLine a bs) c).scratch b =
      if a ≤ b ∧ b < a + bs.length ∧ b / 128 ∈ ls then nth 0 bs (b - a) else mapGet 0 c.scratch b := by
  induction ls generalizing c with
  | nil => simp
  | cons l ls ih =>
    rw [List.foldl_cons, ih, Cohort.writeLine_get]
    by_cases h1 : a ≤ b ∧ b < a + bs.length ∧ b / 128 ∈ ls
    · rw [if_pos h1, if_pos ⟨h1.1, h1.2.1, List.mem_cons_of_mem _ h1.2.2⟩]
    · rw [if_neg h1]
      refine if_congr ?_ rfl rfl
      simp only [List.mem_cons]
      tauto

theorem Cohort.writeLines_only (a : Nat) (bs : List Byte) (ls : List Nat) (c : Cohort) :
    ∃ x p v, ls.foldl (Cohort.writeLine a bs) c = { c with scratch := x, spoiled := p, unfenced := v } := by
  induction ls generalizing c with
  | nil => exact ⟨_, _, _, rfl⟩
  | cons l ls ih =>
    obtain ⟨x, p, v, h⟩ := ih (c.writeLine a bs l)
    exact ⟨x, p, v, h⟩

/-- What has landed of a SCRATCH range (R346, R348). -/
theorem landBytes_spec (x : Staging) (k : Cohort) (bs : List Byte) :
    (∀ b, mapGet 0 (landBytes x k bs).scratch b =
      if x.soff + x.done ≤ b ∧ b < x.soff + x.done + bs.length ∧ b / 128 ∉ x.skip then nth 0 bs (b - (x.soff + x.done)) else mapGet 0 k.scratch b) ∧
    (∀ l, l ∈ (landBytes x k bs).empty → l ∈ k.empty) ∧
    ∀ l, l ∉ x.skip → (∃ b, x.soff + x.done ≤ b ∧ b < x.soff + x.done + bs.length ∧ b / 128 = l) →
      min (x.soff + x.len) (128 * l + 128) ≤ x.soff + x.done + bs.length → l ∉ (landBytes x k bs).empty ∧ l ∉ (landBytes x k bs).stagePend := by
  let lines := (linesOf (x.soff + x.done) bs.length).filter fun l => !x.skip.contains l
  let whole := lines.filter fun l => decide (min (x.soff + x.len) (128 * l + 128) ≤ x.soff + x.done + bs.length)
  obtain ⟨k₁, hk₁⟩ : ∃ k₁, k₁ = lines.foldl (Cohort.writeLine (x.soff + x.done) bs) k := ⟨_, rfl⟩
  have hland : landBytes x k bs = { whole.foldl Cohort.fillLine k₁ with
      stagePend := (whole.foldl Cohort.fillLine k₁).stagePend.filter fun l => !whole.contains l } := by rw [hk₁]; rfl
  obtain ⟨e, f, hfill⟩ := Cohort.fillLines_only whole k₁
  obtain ⟨y, p, v, hwrite⟩ := Cohort.writeLines_only (x.soff + x.done) bs lines k
  have hempty : k₁.empty = k.empty := by rw [hk₁, hwrite]
  have hmem : ∀ l, l ∈ lines ↔ (∃ b, x.soff + x.done ≤ b ∧ b < x.soff + x.done + bs.length ∧ b / 128 = l) ∧ l ∉ x.skip := by
    intro l
    simp only [lines, List.mem_filter, mem_linesOf, Bool.not_eq_true', List.contains_eq_mem, decide_eq_false_iff_not]
  rw [hland]
  refine ⟨fun b => ?_, fun l hl => ?_, fun l hskip hb hle => ?_⟩
  · show mapGet 0 (whole.foldl Cohort.fillLine k₁).scratch b = _
    rw [hfill]
    show mapGet 0 k₁.scratch b = _
    rw [hk₁, Cohort.writeLines_get]
    refine if_congr ?_ rfl rfl
    rw [hmem]
    constructor
    · rintro ⟨h1, h2, -, h3⟩
      exact ⟨h1, h2, h3⟩
    · rintro ⟨h1, h2, h3⟩
      exact ⟨h1, h2, ⟨b, h1, h2, rfl⟩, h3⟩
  · exact hempty ▸ ((Cohort.mem_fillLines k₁ whole l).1 hl).1
  · have hw : l ∈ whole := List.mem_filter.2 ⟨(hmem l).2 ⟨hb, hskip⟩, decide_eq_true hle⟩
    refine ⟨fun h => ((Cohort.mem_fillLines k₁ whole l).1 h).2 hw, fun h => ?_⟩
    have := (List.mem_filter.1 h).2
    simp [hw] at this

end Sys2Proof.Machine

end

section
/-! SUPPORT. Staging copies (R344, R346): their turn, the lines that they protect, and faults. -/

set_option Elab.async false

namespace Sys2Proof.Machine

theorem find?_updFirst_map {α : Type} (id : α → Nat) {l : List α} {n : Nat} {x : α} (f : α → α) (hx : l.find? (fun z => id z == n) = some x)
    (hf : ∀ y, id (f y) = id y) : (updFirst (fun z => id z == n) f l).find? (fun z => id z == n) = some (f x) := by
  induction l with
  | nil => simp at hx
  | cons a l ih =>
    rw [updFirst]
    split
    next ha =>
      rw [List.find?_cons_of_pos (p := fun z => id z == n) ha, Option.some.injEq] at hx
      rw [List.find?_cons_of_pos (p := fun z => id z == n) (by rw [hf]; exact ha), hx]
    next ha =>
      rw [List.find?_cons_of_neg (p := fun z => id z == n) ha] at hx ⊢
      exact ih hx

section
variable {s : State} {x : Staging} {y : Task}

/-- How far a copy has come, in `n` more bytes. -/
def State.StagingLeft (t : State) (x : Staging) (n : Nat) : Prop :=
  if x.done + n < x.len then t.sched.staging.find? (fun z => z.id == x.id) = some { x with done := x.done + n }
  else ∀ z ∈ t.sched.staging, z.id ≠ x.id

/-- A copy after `n` more bytes. -/
def State.advanceStaging (s : State) (x : Staging) (n : Nat) : State :=
  if x.done + n < x.len then s.updStaging x.id fun y => { y with done := x.done + n } else s.endStaging x

/-- The end of a copy changes the staging copies and the stage of its task. -/
theorem State.endStaging_only (s : State) (x : Staging) : ∃ ts, s.endStaging x =
    { s with sched := { s.sched with staging := s.sched.staging.filter fun z => z.id != x.id, tasks := ts } } := by
  unfold State.endStaging
  dsimp only
  split
  · exact ⟨s.sched.tasks, rfl⟩
  · exact ⟨_, rfl⟩

theorem State.advanceStaging_only (s : State) (x : Staging) (n : Nat) : ∃ ts st, s.advanceStaging x n =
    { s with sched := { s.sched with staging := st, tasks := ts } } := by
  unfold State.advanceStaging
  split
  · exact ⟨s.sched.tasks, _, rfl⟩
  · obtain ⟨ts, h⟩ := s.endStaging_only x
    exact ⟨ts, _, h⟩

theorem State.advanceStaging_left (h : s.sched.staging.find? (fun z => z.id == x.id) = some x) (n : Nat) : (s.advanceStaging x n).StagingLeft x n := by
  unfold State.advanceStaging State.StagingLeft
  split
  next hn =>
    exact (find?_updFirst_map Staging.id (fun y => { y with done := x.done + n }) h fun _ => rfl)
  next hn =>
    obtain ⟨ts, he⟩ := s.endStaging_only x
    rw [he]
    intro z hz
    simpa using (List.mem_filter.1 hz).2

/-- The end of several copies takes each of them away. -/
theorem State.endStagings_only (l : List Staging) (s : State) : ∃ ts, l.foldl State.endStaging s =
    { s with sched := { s.sched with staging := s.sched.staging.filter (fun z => !l.any fun x => x.id == z.id), tasks := ts } } := by
  induction l generalizing s with
  | nil => exact ⟨s.sched.tasks, by simp⟩
  | cons x l ih =>
    obtain ⟨ts, h⟩ := s.endStaging_only x
    obtain ⟨ts', h'⟩ := ih (s.endStaging x)
    refine ⟨ts', ?_⟩
    rw [List.foldl_cons, h', h]
    simp only [List.filter_filter, List.any_cons, Bool.not_or]
    refine congrArg (fun l => ({ s with sched := { s.sched with staging := l, tasks := ts' } } : State)) (List.filter_congr fun z _ => ?_)
    rw [Bool.and_comm, bne, Bool.beq_comm]

/-- A fault of an engine at an address that is not canonical. -/
theorem engineXlate_of_noncanonical {va : Nat} (hc : canonical va = false) (s : State) (die asid world : Nat) (who : Who) (access : Nat) :
    engineXlate s die asid world who va access = .fault 3 0 s := by
  rw [engineXlate, if_pos (by rw [hc]; rfl)]

/-- The turn of a die's group changes nothing that a translation reads. -/
theorem engineReaches_noteTurn {die asid va access pa : Nat} {who : Who} (h : s.engineReaches die asid who va access pa) (d : Nat) (b : Bool) :
    (s.noteTurn d b).engineReaches die asid who va access pa := by
  obtain ⟨hc, t, ht, hp, ha, hpa⟩ := h
  refine ⟨hc, t, ?_, hp, ha, hpa⟩
  rw [State.noteTurn, State.die_updDie]
  split
  next hd => rw [← hd]; exact ht
  next => exact ht

theorem State.updCohort_of_some {c : Nat} {k : Cohort} (h : s.cohort c = some k) (f : Cohort → Cohort) : s.updCohort c f = s.setCohort c (f k) := by
  rw [State.updCohort, h]

/-! ### Lines that staging protects (R76, R77) -/

theorem State.l2_noteTurn (s : State) (d : Nat) (b : Bool) (e : Nat) : ((s.noteTurn d b).die e).l2 = (s.die e).l2 := by
  rw [State.noteTurn, State.die_updDie]
  split
  next h => rw [h]
  next => rfl

theorem State.l2_updL2 (s : State) (d : Nat) (f : L2 → L2) (e : Nat) : ((s.updL2 d f).die e).l2 = if e = d then f (s.die d).l2 else (s.die e).l2 := by
  rw [State.updL2, State.die_updDie]
  split <;> rfl

/-- Do protected lines hold every reserve way of a line's set, and is the line none of them? -/
def State.reserveFull (s : State) (pa : Nat) : Bool :=
  decide (min 4 ((s.die (homeDie pa)).l2.stgres % 8) ≤ s.protectedBeside pa) && !(s.die (homeDie pa)).l2.prot.any fun p => p.1 == pa / 64

/-- What staging does with a line at its home slice. -/
def State.protectLine (s : State) (x : Staging) (y : Task) (pa : Nat) : State :=
  if homeDie pa ≠ x.die then s
  else if s.reserveFull pa then s.updL2 (homeDie pa) fun l => { l with stgdrop := (l.stgdrop + 1) % 2 ^ 32 }
  else if y.protects then s.updL2 (homeDie pa) fun l =>
    { l with prot := if l.prot.contains (pa / 64, y.id) then l.prot else l.prot ++ [(pa / 64, y.id)] }
  else s

theorem State.reserveFull_iff (s : State) (d : Nat) (b : Bool) (pa : Nat) : (s.noteTurn d b).reserveFull pa = true ↔
    min 4 ((s.die (homeDie pa)).l2.stgres % 8) ≤ s.protectedBeside pa ∧ ∀ p ∈ (s.die (homeDie pa)).l2.prot, p.1 ≠ pa / 64 := by
  simp [State.reserveFull, State.protectedBeside, State.l2_noteTurn]

theorem State.protectLine_quiet (s : State) (x : Staging) (y : Task) (pa : Nat) :
    (s.protectLine x y pa).mem = s.mem ∧ (s.protectLine x y pa).sched = s.sched := by
  unfold State.protectLine
  split
  · exact ⟨rfl, rfl⟩
  · split
    · exact ⟨rfl, rfl⟩
    · split <;> exact ⟨rfl, rfl⟩

theorem State.protectLine_other (s : State) (x : Staging) (y : Task) (pa : Nat) {d : Nat} (hd : d ≠ x.die ∨ homeDie pa ≠ x.die) :
    ((s.protectLine x y pa).die d).l2 = (s.die d).l2 := by
  unfold State.protectLine
  split
  next => rfl
  next h =>
    have hne : d ≠ homeDie pa := fun he => by
      rw [not_not] at h
      rcases hd with hd | hd
      · exact hd (he.trans h)
      · exact hd h
    split
    · rw [State.l2_updL2, if_neg hne]
    · split
      · rw [State.l2_updL2, if_neg hne]
      · rfl

theorem State.protectLine_full (s : State) (x : Staging) (y : Task) {pa : Nat} (hd : homeDie pa = x.die) (hf : s.reserveFull pa = true) :
    ((s.protectLine x y pa).die x.die).l2 = { (s.die x.die).l2 with stgdrop := ((s.die x.die).l2.stgdrop + 1) % 2 ^ 32 } := by
  rw [State.protectLine, if_neg (by simp [hd]), if_pos hf, State.l2_updL2, if_pos hd.symm, hd]

theorem State.protectLine_kept (s : State) (x : Staging) (y : Task) {pa : Nat} (hd : homeDie pa = x.die) (hf : s.reserveFull pa = false)
    (hp : y.protects = true) : (pa / 64, y.id) ∈ ((s.protectLine x y pa).die x.die).l2.prot := by
  rw [State.protectLine, if_neg (by simp [hd]), if_neg (by simp [hf]), if_pos hp, State.l2_updL2, if_pos hd.symm]
  dsimp only
  split
  next h => simpa using h
  next => simp

end

end Sys2Proof.Machine

open Sys2Proof Sys2Proof.Machine

/-- Settles O52: a copy's turn, its lines and bytes, and its faults. -/
theorem stagingCopies : Obligations.StagingCopies := by
  intro s x y hfind htask hstop va reach
  refine ⟨fun hturn n => ⟨?_, ?_⟩, fun hturn => ⟨fun hc hg n => ?_, ?_⟩⟩
  · show execL2StagingFill x.id n s = _
    unfold execL2StagingFill
    rw [hfind]
    dsimp only
    rw [htask]
    dsimp only
    rw [if_pos (by simp [hturn])]
  · show execStagingLanding x.id n s = _
    unfold execStagingLanding
    rw [hfind]
    dsimp only
    rw [htask]
    cases x.cohort with
    | none => rfl
    | some cid =>
      dsimp only
      cases s.cohort cid with
      | none => rfl
      | some k =>
        dsimp only
        rw [if_pos (by simp [hturn])]
  · show execL2StagingFill x.id n s = _
    unfold execL2StagingFill
    rw [hfind]
    dsimp only
    rw [htask]
    dsimp only
    rw [if_pos (by simp [hg])]
  · intro left
    refine ⟨fun line hc hg hat => ?_, fun cid k bytes hc hk hp => ?_⟩
    · intro n
      have hexec : exec (.l2StagingFill x.id line) s = .next (match engineXlate (s.noteTurn x.die false) x.die y.asid y.world y.who va 0 with
          | .ok pa _ t => (t.protectLine x y pa).advanceStaging x n
          | r => ((r.after.countDrop x.die).sched.staging.filter fun z => z.task == x.task && z.range == x.range && z.cohort.isNone).foldl
              State.endStaging (r.after.countDrop x.die)) := by
        show execL2StagingFill x.id line s = _
        unfold execL2StagingFill
        rw [hfind]
        dsimp only
        rw [htask]
        dsimp only
        rw [if_neg (by simp [hc, hturn, hg, hstop, ← hat])]
        cases engineXlate (s.noteTurn x.die false) x.die y.asid y.world y.who va 0 <;> rfl
      refine ⟨fun pa hr => ?_, fun hcan => ?_⟩
      · intro l2 full
        obtain ⟨t, ht⟩ := engineXlate_of_reaches (engineReaches_noteTurn hr x.die false) y.world
        rw [ht] at hexec
        obtain ⟨hm, hs⟩ := (s.noteTurn x.die false).protectLine_quiet x y pa
        obtain ⟨ts, st, hadv⟩ := ((s.noteTurn x.die false).protectLine x y pa).advanceStaging_only x n
        have hl2 : ∀ d, ((((s.noteTurn x.die false).protectLine x y pa).advanceStaging x n).die d).l2 =
            (((s.noteTurn x.die false).protectLine x y pa).die d).l2 := fun d => by rw [hadv]; rfl
        refine ⟨_, hexec, State.sameMem_of_mem ?_, State.advanceStaging_left ?_ n, fun d hd => ?_, fun hh => ?_, fun hh hf => ?_, fun hh hf hpr => ?_⟩
        · dsimp only
          rw [hadv]
          exact hm
        · rw [hs]
          exact hfind
        · exact (hl2 d).trans ((State.protectLine_other _ x y pa (.inl hd)).trans (s.l2_noteTurn ..))
        · exact (hl2 x.die).trans ((State.protectLine_other _ x y pa (.inr hh)).trans (s.l2_noteTurn ..))
        · refine (hl2 x.die).trans ((State.protectLine_full _ x y hh ((s.reserveFull_iff ..).2 ?_)).trans ?_)
          · rw [hh]
            exact hf
          · rw [State.l2_noteTurn]
        · refine (hl2 x.die).symm ▸ State.protectLine_kept _ x y hh (Bool.eq_false_iff.2 fun hbad => hf ?_) hpr
          have := (s.reserveFull_iff ..).1 hbad
          rwa [hh] at this
      · rw [engineXlate_of_noncanonical hcan] at hexec
        obtain ⟨ts, he⟩ := State.endStagings_only (((s.noteTurn x.die false).countDrop x.die).sched.staging.filter fun z =>
          z.task == x.task && z.range == x.range && z.cohort.isNone) ((s.noteTurn x.die false).countDrop x.die)
        refine ⟨_, hexec, State.sameMem_of_mem ?_, fun z hz => ?_, ?_⟩
        · exact (congrArg State.mem he).trans rfl
        · have hz' := (congrArg (fun t : State => t.sched.staging) he) ▸ hz
          obtain ⟨hz1, hz2⟩ := List.mem_filter.1 hz'
          rintro ⟨h1, h2, h3⟩
          have hany : List.any (((s.noteTurn x.die false).countDrop x.die).sched.staging.filter fun z =>
              z.task == x.task && z.range == x.range && z.cohort.isNone) (fun w => w.id == z.id) = true :=
            List.any_eq_true.2 ⟨z, List.mem_filter.2 ⟨hz1, by simp [h1, h2, h3]⟩, by simp⟩
          rw [hany] at hz2
          cases hz2
        · refine (congrArg (fun t : State => (t.die x.die).ts.stgdrop) he).trans ?_
          show (((s.noteTurn x.die false).countDrop x.die).die x.die).ts.stgdrop = _
          rw [State.countDrop, State.updTs, State.die_updDie, if_pos rfl, State.noteTurn, State.die_updDie, if_pos rfl]
    · intro n a hn
      have hexec : ∀ o, (match engineXlate s x.die y.asid y.world y.who va 0 with
          | .fault kind l s => Host.Outcome.next (s.stagingFault x y { va := va, kind := kind, access := 0, level := l })
          | .firewall s => .next (s.stagingFault x y { va := va, kind := 100, access := 0, level := 0 })
          | .ok pa _ t =>
            if t.poisoned pa n then .next (t.stagingFault x y { va := va, kind := 101, access := 0, level := 0 })
            else if t.readHeld pa n none then .next t
            else .next ((t.setCohort cid (landBytes x k (t.bytes pa n))).advanceStaging x n)) = o →
          exec (.stagingLanding x.id bytes) s = o := by
        intro o ho
        rw [← ho]
        show execStagingLanding x.id bytes s = _
        unfold execStagingLanding
        rw [hfind]
        dsimp only
        rw [htask, hc]
        dsimp only
        rw [hk]
        dsimp only
        rw [if_neg (by
          rw [show min (min bytes (x.len - x.done)) (65536 - (x.va + x.done) % 2 ^ 64 % 65536) = n from rfl]
          simp only [hp, hstop, hturn, Bool.not_true, Bool.false_eq_true, or_false, false_or]
          omega)]
        cases engineXlate s x.die y.asid y.world y.who va 0 <;> rfl
      refine ⟨fun pa hr hpo hsnap hu => ?_, fun hcan hd => ?_, fun hcan hd => ?_⟩
      · obtain ⟨t, ht⟩ := engineXlate_of_reaches hr y.world
        rw [ht] at hexec
        dsimp only at hexec
        rw [if_neg (by simp [hpo]), if_neg (by simp [State.readHeld_of_unlocked hu hsnap])] at hexec
        obtain ⟨ts, st, hadv⟩ := (s.setCohort cid (landBytes x k (s.bytes pa n))).advanceStaging_only x n
        obtain ⟨hbytes, hempty, hlines⟩ := landBytes_spec x k (s.bytes pa n)
        have hlen : (s.bytes pa n).length = n := by simp [State.bytes]
        rw [hlen] at hbytes hlines
        refine ⟨_, hexec _ rfl, State.sameMem_of_mem (by rw [hadv]; rfl), State.advanceStaging_left (by exact hfind) n,
          landBytes x k (s.bytes pa n), ?_, fun b => ?_, hempty, hlines⟩
        · rw [hadv]
          exact (State.cohort_setCohort ..).trans (if_pos rfl)
        · rw [hbytes]
          split
          next h => exact nth_map_range _ _ _ (by omega)
          next => rfl
      · rw [engineXlate_of_noncanonical hcan] at hexec
        refine ⟨_, hexec _ rfl, ?_⟩
        dsimp only
        rw [State.stagingFault, if_pos (by rw [hd]; rfl)]
        refine ⟨State.sameMem_of_mem rfl, ?_, ?_⟩
        · show ((s.countDrop x.die).die x.die).ts.stgdrop = _
          rw [State.countDrop, State.updTs, State.die_updDie, if_pos rfl]
        · exact find?_updFirst_map Staging.id (fun y => { y with demandClass := true }) hfind fun _ => rfl
      · rw [engineXlate_of_noncanonical hcan] at hexec
        refine ⟨_, hexec _ rfl, ?_⟩
        dsimp only
        rw [State.stagingFault, if_neg (by rw [hd]; decide), if_pos (.inl rfl), State.failStaging, hfind]
        dsimp only
        rw [hc]
        dsimp only
        rw [State.updCohort_of_some (k := k) (by exact hk)]
        refine ⟨State.sameMem_of_mem rfl, fun z hz => ?_, _, (State.cohort_setCohort ..).trans (if_pos rfl), rfl, rfl⟩
        simpa using (List.mem_filter.1 hz).2

end

section
/-! SUPPORT. Commit groups (R86 to R91): opening, dooming, closing, and the stores of a group performed together. -/

set_option Elab.async false

namespace Sys2Proof.Machine

/-! ### Runs of bytes -/

/-- Memory after a run of bytes has been written. -/
def writeRun (f : Nat → Byte) (r : Nat × List Byte) (a : Nat) : Byte := if r.1 ≤ a ∧ a < r.1 + r.2.length then nth 0 r.2 (a - r.1) else f a

theorem writeRun_cons (f : Nat → Byte) (o : Nat) (b : Byte) (bs : List Byte) : writeRun f (o, b :: bs) = writeRun (writeRun f (o, [b])) (o + 1, bs) := by
  funext a
  simp only [writeRun, List.length_cons, List.length_nil]
  by_cases h1 : a = o
  · rw [if_pos (by omega), if_neg (by omega), if_pos (by omega), h1, Nat.sub_self]
    rfl
  · by_cases h2 : o + 1 ≤ a ∧ a < o + 1 + bs.length
    · rw [if_pos (by omega), if_pos h2, show a - o = (a - (o + 1)) + 1 by omega]
      rfl
    · rw [if_neg (by omega), if_neg h2, if_neg (by omega)]

/-- The runs of some bytes write them one after another. -/
theorem foldl_byteRuns_cons (f : Nat → Byte) (o : Nat) (b : Byte) (m : List (Nat × Byte)) :
    (byteRuns ((o, b) :: m)).foldl writeRun f = (byteRuns m).foldl writeRun (writeRun f (o, [b])) := by
  rw [byteRuns]
  cases byteRuns m with
  | nil => rfl
  | cons r rs =>
    obtain ⟨o', bs⟩ := r
    dsimp only
    split
    next h => rw [List.foldl_cons, List.foldl_cons, h, ← writeRun_cons]
    next h => rfl

theorem mapFind_of_above {α : Type} {m : List (Nat × α)} {a : Nat} (h : ∀ x ∈ m, a < x.1) : mapFind m a = none := by
  cases m with
  | nil => rfl
  | cons x m =>
    have := h x List.mem_cons_self
    rw [mapFind, if_neg (by omega), if_pos (by omega)]

/-- The runs of bytes in ascending order write each of them. -/
theorem foldl_byteRuns (m : List (Nat × Byte)) (hm : m.Pairwise fun a b => a.1 < b.1) (f : Nat → Byte) (a : Nat) :
    (byteRuns m).foldl writeRun f a = (mapFind m a).getD (f a) := by
  induction m generalizing f with
  | nil => rfl
  | cons x m ih =>
    obtain ⟨o, b⟩ := x
    obtain ⟨habove, hm⟩ := List.pairwise_cons.1 hm
    rw [foldl_byteRuns_cons, ih hm, mapFind]
    by_cases h1 : a = o
    · subst h1
      rw [mapFind_of_above habove, if_pos rfl]
      simp [writeRun, nth]
    · rw [if_neg h1]
      split
      next h2 =>
        rw [mapFind_of_above fun x hx => Nat.lt_trans h2 (habove x hx)]
        simp only [Option.getD_none, writeRun, List.length_cons, List.length_nil]
        exact if_neg (by omega)
      next h2 =>
        refine congrArg (Option.getD _) ?_
        simp only [writeRun, List.length_cons, List.length_nil]
        exact if_neg (by omega)

/-! ### The stores of a group -/

section
variable {s : State} {u : Nat} {w : Wave}

/-- What the stores of a group leave: only the group of the wave itself may be another. -/
structure State.GroupStored (s t : State) (u : Nat) (w : Wave) (runs : List (Nat × List Byte)) : Prop where
  still : t.Still
  wave : ∃ g, t.wave u = some { w with group := g }
  byte : ∀ a, t.byte a = runs.foldl writeRun s.byte a

theorem State.groupStored (core : Nat) (runs : List (Nat × List Byte)) (h : s.Still) (hw : ∃ g, s.wave u = some { w with group := g }) :
    s.GroupStored (runs.foldl (fun s r => (s.dropL1 core r.1 r.2.length).poke r.1 r.2 (some u)) s) u w runs := by
  induction runs generalizing s with
  | nil => exact ⟨h, hw, fun a => rfl⟩
  | cons r runs ih =>
    have honly := State.dropL1_only s core r.1 r.2.length
    have hstill : (s.dropL1 core r.1 r.2.length).Still := by
      refine h.congr ?_ ?_ ?_ <;> rw [honly]
    obtain ⟨g, hg⟩ := hw
    obtain ⟨g', hg'⟩ := State.wave_poke_group (s := s.dropL1 core r.1 r.2.length) (u := u) (w := { w with group := g }) (by rw [honly]; exact hg)
      r.1 r.2 (some u)
    obtain ⟨h1, h2, h3⟩ := ih (hstill.poke r.1 r.2 (some u)) ⟨g', hg'⟩
    refine ⟨h1, h2, fun a => (h3 a).trans ?_⟩
    rw [List.foldl_cons]
    refine congrFun (congrArg (fun f => List.foldl writeRun f runs) ?_) a
    funext b
    rw [State.byte_poke]
    refine if_congr Iff.rfl rfl ?_
    rw [honly]
    rfl

/-- A group whose stores are performed writes its bytes. -/
theorem State.performGroup_spec (h : s.Still) (hw : s.wave u = some w) (x : Wave) (g : Group) (hb : g.bytes.Pairwise fun a b => a.1 < b.1) :
    (∃ g', (s.performGroup u x g).wave u = some { w with group := g' }) ∧
      ∀ a, (s.performGroup u x g).byte a = (mapFind g.bytes a).getD (s.byte a) := by
  obtain ⟨h1, h2, h3⟩ := State.groupStored (s := s) (u := u) (w := w) x.core (byteRuns g.bytes) h ⟨w.group, hw⟩
  have hre : ∀ (runs : List (Nat × List Byte)) (t : State), t.Still → runs.foldl (fun s r => s.recheck r.1 r.2.length) t = t := by
    intro runs t ht
    induction runs with
    | nil => rfl
    | cons r runs ih => rw [List.foldl_cons, ht.recheck, ih]
  rw [State.performGroup]
  rw [hre _ _ h1]
  exact ⟨h2, fun a => (h3 a).trans (foldl_byteRuns _ hb _ _)⟩

/-! ### The instructions -/

theorem foldl_stays {α β : Type} {f : α → β → α} {s : α} (h : ∀ r, f s r = s) (l : List β) : l.foldl f s = s := by
  induction l with
  | nil => rfl
  | cons r l ih => rw [List.foldl_cons, h, ih]

theorem State.ownBytes_of_empty {core : Nat} (h : (s.core core).sb = []) (u pa n : Nat) : s.ownBytes core u pa n = [] := by
  rw [State.ownBytes, h]
  rfl

theorem State.Still.linesTaken (h : s.Still) (u : Nat) (g : Group) : s.linesTaken u g = false :=
  List.any_eq_false.2 fun l _ => by rw [State.lineLocked_of_unlocked h.unlocked]; decide

theorem State.Still.marksGroup (h : s.Still) (g : Group) : s.marksGroup g = false :=
  List.any_eq_false.2 fun b _ => by rw [h.unmarked]; exact Bool.false_ne_true

theorem State.Still.timelineHeld (h : s.Still) (pa n : Nat) : s.timelineHeld pa n = false := by
  rw [State.timelineHeld, beq_eq_false_iff_ne.2 h.unarmed]
  rfl

/-- A wave whose group has been closed with a status. -/
def Wave.closedGroup (w : Wave) (d status : Nat) : Wave := { w with group := none }.addAnswer false d 1 [(0, status)]

/-- A closed group leaves its status pending. -/
theorem Issues.ends_closed {t : State} {f : EF} {g : Option Group} {status : Nat} {mem : Nat → Byte} (h : Issues s u w (.cgcommit f))
    {body : Body} (hx : exec (.cgcommit f) s = runInstr (.cgcommit f) body s)
    (hb : body (s.setWave u w.readied) u w.readied = .done (t.updWave u fun w => w.closedGroup f.d.toNat status)) (hw : t.wave u = some { w.readied with group := g })
    (hm : ∀ a, t.byte a = mem a) :
    Ends s u w (.cgcommit f) fun t w' => w.sameArch w' ∧ w.answerPends w' false f.d.toNat 1 [(0, status)] ∧ w'.group = none ∧ ∀ a, t.byte a = mem a := by
  have hwave : (t.updWave u fun w => w.closedGroup f.d.toNat status) = t.setWave u (w.readied.closedGroup f.d.toNat status) := by
    rw [State.updWave, hw]
    rfl
  refine h.ends hx hb (x := w.readied.closedGroup f.d.toNat status) (hwave ▸ (State.wave_setWave ..).trans (if_pos rfl)) rfl ⟨Wave.sameArch_completed rfl rfl rfl .., ⟨?_, ?_⟩, ?_, fun a => ?_⟩
  · exact Wave.completed_regs ..
  · rw [Wave.completed_late]
    exact ⟨_, List.mem_map.2 ⟨_, List.mem_append_right _ List.mem_cons_self, rfl⟩, rfl, rfl, rfl, rfl, rfl, rfl, rfl⟩
  · cases closesRegion w (Instr.op (.cgcommit f)) <;> rfl
  · rw [State.retire_byte, hwave]
    exact hm a

/-- Dooming the group of a wave changes nothing else of it. -/
theorem Issues.completes_doom {i : Instr} {n : Nat} {g : Group} {f : Wave → Wave} (h : Issues s u w i) (hx : exec i s = runInstr i (onWave f) s)
    (hf : f w.readied = w.readied.doom n) (hg : w.group = some g) :
    ∃ w', Completes s u w i w' ∧ w.sameArch w' ∧ w'.group.map (·.doom) = some (if g.doom = 0 then n else g.doom) := by
  refine ⟨_, h.completes_done hx (x := w.readied.doom n) ?_ rfl, Wave.sameArch_completed rfl rfl rfl .., ?_⟩
  · rw [onWave, hf, State.setWave_setWave]
  · have hd : (w.readied.doom n).group.map (·.doom) = some (if g.doom = 0 then n else g.doom) := by
      simp only [Wave.doom, show w.readied.group = some g from hg, Option.map_some]
      split <;> rfl
    rw [← hd]
    cases closesRegion w (Instr.op i)
    · rfl
    · simp only [Wave.completed, Wave.setRestart, if_true, Option.map_map]
      rfl

end

end Sys2Proof.Machine

open Sys2Proof Sys2Proof.Machine

/-- Settles O32: a group opens, is doomed, and closes with its stores performed together or not at all. -/
theorem commitGroups : Obligations.CommitGroups := by
  intro s u w f closed
  refine ⟨fun h hg => ?_, fun h hg => ?_, fun g hg => ⟨fun h => ?_, fun h => ?_, fun h hd => ?_, fun h hd hr => ?_, fun h hd hr hl hsb hs => ?_⟩⟩
  · have hc : closesRegion w (Instr.op (.cgbegin f)) = false := by
      rw [show Instr.op (.cgbegin f) = 0x94 by rw [op_of_encE (f := f) (op := 0x94) rfl]; rfl]
      rfl
    have hd := h.completes_done (rfl : _ = execCgbegin f s) (x := { w.readied with group := some { Group.opened with first := w.lateSeq } }) ?_ rfl
    · rw [hc, Wave.completed_eq] at hd
      exact hd
    · rw [onWave, if_neg (by rw [show w.readied.group = none from hg]; decide), State.setWave_setWave]
      rfl
  · refine h.ends_closed (rfl : _ = execCgcommit f s) (t := s.setWave u w.readied) (g := w.group) ?_ ((State.wave_setWave ..).trans (if_pos rfl)) fun a => rfl
    dsimp only
    rw [show w.readied.group = none from hg]
    rfl
  · refine h.completes_doom (rfl : _ = execCgbegin f s) (n := 6) (if_pos ?_) hg
    rw [show w.readied.group = some g from hg]
    rfl
  · exact h.completes_doom (rfl : _ = execCgabort f s) (n := 5) rfl hg
  · refine h.ends_closed (rfl : _ = execCgcommit f s) (t := s.setWave u w.readied) (g := w.group) ?_ ((State.wave_setWave ..).trans (if_pos rfl)) fun a => rfl
    dsimp only
    rw [show w.readied.group = some g from hg]
    dsimp only
    rw [if_pos hd]
    rfl
  · refine h.ends_closed (rfl : _ = execCgcommit f s) (t := s.setWave u w.readied) (g := w.group) ?_ ((State.wave_setWave ..).trans (if_pos rfl)) fun a => rfl
    dsimp only
    rw [show w.readied.group = some g from hg]
    dsimp only
    rw [if_neg (not_not.2 hd), if_pos hr]
    rfl
  · have hst := ((State.still_iff s).1 hs).readied h.2.1
    have hadm : ∀ b : Nat × Byte, (s.setWave u w.readied).admits ((s.setWave u w.readied).waveWho w.readied) b.1 = s.admits (s.waveWho w) b.1 := fun b => rfl
    have hbody : ∀ a, (if g.bytes.any fun b => !s.admits (s.waveWho w) b.1 then
          Act.done ((s.setWave u w.readied).updWave u fun w => w.closedGroup f.d.toNat 3)
        else .done (((s.setWave u w.readied).performGroup u w.readied g).updWave u fun w => w.closedGroup f.d.toNat 0)) = a →
        ∃ body, exec (.cgcommit f) s = runInstr (.cgcommit f) body s ∧ body (s.setWave u w.readied) u w.readied = a := by
      intro a ha
      refine ⟨_, (rfl : _ = execCgcommit f s), ?_⟩
      dsimp only
      rw [show w.readied.group = some g from hg]
      dsimp only
      rw [if_neg (not_not.2 hd), if_neg (by rw [hr]; decide), if_neg (by rw [show w.readied.late = w.late from rfl, hl]; decide)]
      have hown : ∀ pa n, (s.setWave u w.readied).ownBytes w.readied.core u pa n = [] := State.ownBytes_of_empty hsb u
      have hfold : (byteRuns g.bytes).foldl (fun s r => if (s.ownBytes w.readied.core u r.1 r.2.length).isEmpty = true then s
          else s.drainRange w.readied.core r.1 r.2.length) (s.setWave u w.readied) = s.setWave u w.readied :=
        foldl_stays (f := fun (s : State) (r : Nat × List Byte) => if (s.ownBytes w.readied.core u r.1 r.2.length).isEmpty = true then s
          else s.drainRange w.readied.core r.1 r.2.length) (fun r => if_pos (by rw [hown]; rfl)) _
      rw [hfold,
        show ((s.setWave u w.readied).groupOf u w.readied).getD g = g by
          rw [State.groupOf, (State.wave_setWave ..).trans (if_pos rfl)]
          show (w.group.getD g) = g
          rw [hg]
          rfl,
        if_neg (by rw [hr]; decide), if_neg]
      · refine Eq.trans ?_ ha
        split
        next hb => exact (if_pos (c := (g.bytes.any fun b => !s.admits (s.waveWho w) b.1) = true) hb).symm
        next hb =>
          rw [if_neg (by rw [hst.marksGroup]; decide)]
          exact (if_neg (c := (g.bytes.any fun b => !s.admits (s.waveWho w) b.1) = true) hb).symm
      · rw [hst.linesTaken, hst.marksGroup, Bool.and_false, Bool.or_false, Bool.or_false, List.any_eq_true]
        rintro ⟨r, -, hr⟩
        rw [hown, hst.timelineHeld] at hr
        cases hr
    refine ⟨fun hall hsort => ?_, fun hbad => ?_⟩
    · obtain ⟨⟨g', hg'⟩, hbyte⟩ := State.performGroup_spec hst ((State.wave_setWave ..).trans (if_pos rfl)) w.readied g hsort
      have hno : ¬(g.bytes.any fun b => !s.admits (s.waveWho w) b.1) = true := by
        rw [List.any_eq_true]
        rintro ⟨b, hbm, hb⟩
        rw [hall b hbm] at hb
        cases hb
      obtain ⟨body, hx, hb⟩ := hbody _ (if_neg hno)
      exact h.ends_closed hx hb hg' hbyte
    · obtain ⟨b, hbm, hb⟩ := hbad
      obtain ⟨body, hx, hb⟩ := hbody _ (if_pos (List.any_eq_true.2 ⟨b, hbm, by rw [hb]; rfl⟩))
      exact h.ends_closed hx hb (g := w.group) ((State.wave_setWave ..).trans (if_pos rfl)) fun a => rfl

end

section
/-! SUPPORT. Commands of the copy engines at issue (R272, R273, R275, R278, R281). -/

set_option Elab.async false

namespace Sys2Proof.Machine

section
variable {s t : State} {u : Nat} {w x : Wave} {i : Instr} {body : Body} {kind : Nat} {va : DWord} {bs : List Byte} {args : List Nat}

/-- The command that a wave issues to the copy engines. -/
def CopyCmd.issued (s : State) (u : Nat) (w : Wave) (e kind : Nat) (recVa : DWord) (rec_ : List Byte) (args : List Nat) : CopyCmd :=
  { CopyCmd.blank (s.ids + 1) kind (dieOf w.core) w.core with
    wave := some u, cohort := w.cohort, batch := (w.tl e).batches + 1, world := s.waveWorld w, asid := s.waveAsid w,
    disp := s.waveDisp w, pc := w.pc, recVa := recVa, rec_ := rec_, args := args }

/-- A command with another number. -/
def CopyCmd.numbered (c : CopyCmd) (id : Nat) : CopyCmd := { c with id := id }

/-- A command at the end of the copy engines' queue. -/
def State.withCopy (s : State) (c : CopyCmd) : State := { s with sched := { s.sched with copies := s.sched.copies ++ [c] } }

theorem State.issueCopy_wave (hw : s.wave u = some x) (e : Nat) :
    (s.issueCopy u w e kind va bs args).1.wave u = some (x.joinBatch e (s.ids + 1)) := by
  show (State.updWave { s with ids := s.ids + 1 } u _).wave u = _
  rw [State.updWave, show State.wave { s with ids := s.ids + 1 } u = some x from hw]
  exact (State.wave_setWave ..).trans (if_pos rfl)

theorem State.issueCopy_frame (hw : s.wave u = some x) (e : Nat) : ∃ ws y, (s.issueCopy u w e kind va bs args).1 =
    { s with ids := s.ids + 1, waves := ws, sched := { s.sched with copies := s.sched.copies ++ [y] } } ∧
      y = { CopyCmd.issued s u w e kind va bs args with world := y.world, asid := y.asid, disp := y.disp } := by
  have hj : State.updWave { s with ids := s.ids + 1 } u (fun w => w.joinBatch e (s.ids + 1)) =
      State.setWave { s with ids := s.ids + 1 } u (x.joinBatch e (s.ids + 1)) := by
    rw [State.updWave, show State.wave { s with ids := s.ids + 1 } u = some x from hw]
  have heq : (s.issueCopy u w e kind va bs args).1 =
      (State.updWave { s with ids := s.ids + 1 } u fun w => w.joinBatch e (s.ids + 1)).withCopy
        (CopyCmd.issued (State.updWave { s with ids := s.ids + 1 } u fun w => w.joinBatch e (s.ids + 1)) u w e kind va bs args |>.numbered (s.ids + 1)) := rfl
  rw [heq, hj]
  exact ⟨_, _, rfl, rfl⟩

theorem Wave.batches_joinBatch (w : Wave) (e id k : Nat) : ((w.joinBatch e id).tl k).batches = (w.tl k).batches := by
  simp only [Wave.tl, nth, Wave.joinBatch, Wave.updTl, List.getElem?_modify]
  cases w.tls[k]? with
  | none => rfl
  | some t =>
    show (if e = k then { t with open_ := t.open_ ++ [(id, t.batches + 1)] } else t).batches = t.batches
    split <;> rfl

/-- A pair of scalar registers is pending on the open batch of the copy timeline. -/
def Wave.pairPends (w : Wave) (key : Nat) : Wave :=
  { w with epend := w.epend ++
      [{ vec := false, reg := key, timeline := 0, batch := (w.tl 0).batches + 1 },
       { vec := false, reg := key + 1, timeline := 0, batch := (w.tl 0).batches + 1 }] }

/-- A command of the copy engines joins the open batch of its timeline and is queued; of the registers nothing changes but what is
pending. -/
theorem Issues.ends_queued (h : Issues s u w i) (hx : exec i s = runInstr i body s) (hw : t.wave u = some w.unjoined) (hm : t.mem = s.mem)
    (hc : t.sched.copies = s.sched.copies) (ps : List EPend) {g : Wave → Wave}
    (hg : g (w.unjoined.joinBatch 0 (t.ids + 1)) = { w.unjoined.joinBatch 0 (t.ids + 1) with epend := w.epend ++ ps })
    (hb : body (s.setWave u w.readied) u w.readied =
      .done ((t.issueCopy u w.unjoined 0 kind va bs args).1.updWave u g)) :
    Ends s u w i fun t w' => (w.sameArch w' ∧ s.sameMem t ∧ ∃ x, t.sched.copies = s.sched.copies ++ [x] ∧ x.kind = kind ∧ x.wave = some u ∧
      x.cohort = w.cohort ∧ x.batch = (w.tl 0).batches + 1 ∧ x.rec_ = bs ∧ x.args = args ∧ x.pc = w.pc ∧ x.done = [] ∧ x.parked = false ∧
      w'.tls = (w.updTl 0 fun y => { y with open_ := y.open_ ++ [(x.id, y.batches + 1)] }).tls) ∧ w'.epend = w.epend ++ ps := by
  obtain ⟨ws, y, ht, hy⟩ := State.issueCopy_frame (w := w.unjoined) (kind := kind) (va := va) (bs := bs) (args := args) hw 0
  have hwave := State.issueCopy_wave (w := w.unjoined) (kind := kind) (va := va) (bs := bs) (args := args) hw 0
  rw [State.updWave, hwave] at hb
  dsimp only at hb
  rw [hg] at hb
  refine h.ends hx hb ((State.wave_setWave ..).trans (if_pos rfl)) rfl
    ⟨⟨Wave.sameArch_completed rfl rfl rfl .., State.sameMem_of_mem ?_, y, ?_, ?_⟩, ?_⟩
  · rw [State.retire_mem, ht]
    exact hm
  · rw [State.retire_sched, ht, ← hc]
    rfl
  · rw [hy, Wave.completed_tls]
    exact ⟨rfl, rfl, rfl, rfl, rfl, rfl, rfl, rfl, rfl, rfl⟩
  · exact Wave.completed_epend ..

/-- The same where no register becomes pending. -/
theorem Issues.ends_command (h : Issues s u w i) (hx : exec i s = runInstr i body s) (hw : t.wave u = some w.unjoined) (hm : t.mem = s.mem)
    (hc : t.sched.copies = s.sched.copies)
    (hb : body (s.setWave u w.readied) u w.readied = .done (t.issueCopy u w.unjoined 0 kind va bs args).1) :
    Ends s u w i fun t w' => w.sameArch w' ∧ s.sameMem t ∧ ∃ x, t.sched.copies = s.sched.copies ++ [x] ∧ x.kind = kind ∧ x.wave = some u ∧
      x.cohort = w.cohort ∧ x.batch = (w.tl 0).batches + 1 ∧ x.rec_ = bs ∧ x.args = args ∧ x.pc = w.pc ∧ x.done = [] ∧ x.parked = false ∧
      w'.tls = (w.updTl 0 fun y => { y with open_ := y.open_ ++ [(x.id, y.batches + 1)] }).tls := by
  refine (h.ends_queued (va := va) hx hw hm hc [] (g := id) (by rw [List.append_nil]; rfl) (hb.trans (congrArg Act.done ?_))).mono fun _ _ h => h.1
  have hwave := State.issueCopy_wave (w := w.unjoined) (kind := kind) (va := va) (bs := bs) (args := args) hw 0
  rw [State.updWave, hwave]
  exact (State.setWave_self hwave).symm

end

/-! ### The lines that SPMARK changes (R275) -/

section
variable {k : Cohort} {m : Marking}

theorem mem_insNat (a : Nat) (l : List Nat) (x : Nat) : x ∈ insNat a l ↔ x = a ∨ x ∈ l := by
  induction l with
  | nil => simp [insNat]
  | cons y l ih =>
    rw [insNat]
    split
    · next h => simp [h]
    · split
      · simp
      · simp only [List.mem_cons, ih]
        tauto

/-- A range of lines is marked, one after another. -/
def Cohort.markRun (k : Cohort) (full : Bool) (l n : Nat) : Cohort := (List.range n).foldl (fun k i => k.markLine full (l + i)) k

theorem Cohort.markRun_spec (k : Cohort) (full : Bool) (l n : Nat) :
    (k.markRun full l n).scratch = k.scratch ∧ (k.markRun full l n).marking = k.marking ∧
      ∀ x, x ∈ (k.markRun full l n).empty ↔ if l ≤ x ∧ x < l + n then full = false else x ∈ k.empty := by
  induction n with
  | zero => exact ⟨rfl, rfl, fun x => by rw [if_neg (by omega)]; rfl⟩
  | succ n ih =>
    obtain ⟨hs, hm, he⟩ := ih
    have hstep : k.markRun full l (n + 1) = (k.markRun full l n).markLine full (l + n) := by
      simp only [Cohort.markRun, List.range_succ, List.foldl_append, List.foldl_cons, List.foldl_nil]
    rw [hstep, Cohort.markLine]
    cases full with
    | true =>
      refine ⟨hs, hm, fun x => ?_⟩
      show x ∈ (k.markRun true l n).empty.filter (· != l + n) ↔ _
      rw [List.mem_filter, he, bne_iff_ne]
      by_cases hx : x = l + n
      · rw [if_pos (c := l ≤ x ∧ x < l + (n + 1)) (by omega)]
        simp [hx]
      · rw [if_congr (show l ≤ x ∧ x < l + n ↔ l ≤ x ∧ x < l + (n + 1) by omega) rfl rfl]
        simp [hx]
    | false =>
      refine ⟨hs, hm, fun x => ?_⟩
      show x ∈ insNat (l + n) (k.markRun false l n).empty ↔ _
      rw [mem_insNat, he]
      by_cases hx : x = l + n
      · rw [if_pos (c := l ≤ x ∧ x < l + (n + 1)) (by omega)]
        simp [hx]
      · rw [if_congr (show l ≤ x ∧ x < l + n ↔ l ≤ x ∧ x < l + (n + 1) by omega) rfl rfl]
        simp [hx]

/-- What an SPMARK has done some clocks after it started: 32 lines a clock, and it is at work until its last line. -/
structure Cohort.MarkedFor (k : Cohort) (m : Marking) (j : Nat) (k' : Cohort) : Prop where
  scratch : k'.scratch = k.scratch
  empty : ∀ l, l ∈ k'.empty ↔ if m.line ≤ l ∧ l < m.line + min m.count (32 * j) then m.full = false else l ∈ k.empty
  marking : 32 * j < m.count → k'.marking = [{ m with done := 32 * j }]

theorem Cohort.MarkedFor.markAt {k' : Cohort} {j : Nat} (h : k.MarkedFor m j k') (hj : 32 * j < m.count) :
    k.MarkedFor m (j + 1) (k'.markAt (m.start + j + 1)) := by
  have hdue : ({ m with done := 32 * j } : Marking).due (m.start + j + 1) = min m.count (32 * (j + 1)) := by
    rw [Marking.due, show m.start + j + 1 - m.start = j + 1 by omega]
  have hat : k'.markAt (m.start + j + 1) =
      let k'' := k'.markRun m.full (m.line + 32 * j) (min m.count (32 * (j + 1)) - 32 * j)
      { k'' with marking := (k''.marking.map fun x => { x with done := x.due (m.start + j + 1) }).filter fun m => m.done != m.count } := by
    simp only [Cohort.markAt, Cohort.markRun, h.marking hj, List.foldl_cons, List.foldl_nil, hdue]
  obtain ⟨hs, hm, he⟩ := k'.markRun_spec m.full (m.line + 32 * j) (min m.count (32 * (j + 1)) - 32 * j)
  rw [hat]
  refine ⟨hs.trans h.scratch, fun l => (he l).trans ?_, fun hlt => ?_⟩
  · by_cases h1 : m.line + 32 * j ≤ l ∧ l < m.line + 32 * j + (min m.count (32 * (j + 1)) - 32 * j)
    · rw [if_pos h1, if_pos (by omega)]
    · rw [if_neg h1, h.empty]
      exact iff_of_eq (if_congr (by omega) rfl rfl)
  · dsimp only
    rw [hm, h.marking hj, List.map_cons, List.map_nil, hdue, show min m.count (32 * (j + 1)) = 32 * (j + 1) by omega, List.filter_cons,
      if_pos (by simp; omega)]
    rfl

/-- In n clocks the first 32 n lines of an SPMARK's range have changed. -/
theorem Cohort.markLines_spec (hk : k.marking = [m]) (hd : m.done = 0) (n : Nat) :
    (k.markLines m.start n).scratch = k.scratch ∧ ∀ l, l ∈ (k.markLines m.start n).empty ↔
      if m.line ≤ l ∧ l < m.line + min m.count (32 * n) then m.full = false else l ∈ k.empty := by
  have hrun : ∀ j, j ≤ (m.count + 31) / 32 →
      k.MarkedFor m j ((List.range j).foldl (fun c i => c.markAt (m.start + i + 1)) k) := fun j hj => by
    induction j with
    | zero => exact ⟨rfl, fun l => by rw [if_neg (by omega)]; rfl, fun _ => hk.trans (by rw [Nat.mul_zero, ← hd])⟩
    | succ j ih =>
      rw [List.range_succ, List.foldl_append]
      exact (ih (by omega)).markAt (by omega)
  have hlast : max m.start (m.start + (m.count + 31) / 32) - m.start = (m.count + 31) / 32 := by omega
  have h := hrun (min n ((m.count + 31) / 32)) (by omega)
  rw [Cohort.markLines, hk, List.map_cons, List.map_nil, List.foldl_cons, List.foldl_nil, hlast]
  refine ⟨h.scratch, fun l => (h.empty l).trans (iff_of_eq (if_congr (by omega) rfl rfl))⟩

end

/-! ### What the instructions leave for the engines -/

section
variable {s t : State} {u : Nat} {w : Wave}

/-- A record is read as its instruction issues. -/
theorem readRecordAt_one {i : Instr} {reg va n pa : Nat} {body : List Byte → Body} (hu : s.wave u = some w) (hg : w.group = none)
    (hr : Reaches s w va 0 false n pa) (hp : s.poisoned pa n = false)
    (hsb : (s.core w.core).sb = []) (hsnap : s.snap.state ≠ 1) (hlock : s.unlocked = true) (hlate : w.late.any (·.reads) = false) :
    readRecordAt i reg va n body s u w = body (s.bytes pa n) ((s.dropL1 w.core pa n).setWave u w) u w := by
  obtain ⟨t, ht⟩ := checkGlobal_one (u := u) hr 0
  have hself : s.setWave u w = s := s.setWave_self hu
  have hdg : (s.dropL1 w.core pa n).groupOf u w = none := by
    rw [State.dropL1_only]
    exact State.groupOf_none hu hg
  have hw : ((s.dropL1 w.core pa n).regroup u w).watch [] = w := by
    rw [State.regroup, hdg]
    exact show { w with group := none } = w by rw [← hg]
  rw [readRecordAt]
  simp only [readPieces, List.map_cons, List.map_nil, ht, List.zip_cons_cons, List.zip_nil_right, List.any_cons, List.any_nil, Bool.or_false, hp,
    Bool.false_eq_true, if_false, hg, hself, State.readNow_of_unlocked hu hg hsb hsnap hlock hlate, hw]
  simp

/-- The package in which an instruction has read its record. -/
def State.afterRecord (s : State) (u : Nat) (w : Wave) (pa n : Nat) : State :=
  ((s.setWave u w.unjoined).dropL1 w.core pa n).setWave u w.unjoined

/-- The package after the checks of a SEGCFG: the role is noted, and a segment that leaves its role loses its FIFOs. -/
def State.afterSegcfg (s : State) (u : Nat) (w : Wave) (c : Cohort) (a role core seg : Nat) : State :=
  let s := s.setWave u w.unjoined
  let s := if role = 2 then s.setCohort w.cohort { c with fifos := c.fifos.filter fun q => q.seg != a } else s
  s.updSegment core seg fun g => { g with next := some (if role = 2 then .scratch else .fifo) }

theorem State.afterSegcfg_frame (s : State) (u : Nat) (w : Wave) (c : Cohort) (a role core seg : Nat) :
    ∃ cs ks, s.afterSegcfg u w c a role core seg = { s.setWave u w.unjoined with cohorts := cs, cores := ks } := by
  unfold State.afterSegcfg
  dsimp only
  split <;> exact ⟨_, _, rfl⟩

end

end Sys2Proof.Machine

open Sys2Proof Sys2Proof.Machine

/-- Settles O33: with its checks passed, the body of each instruction issues one command (`Issues.ends_command`); SPMARK only
adds its range to its cohort, and the range is marked 32 lines a clock (`Cohort.markLines_spec`). -/
theorem copyCommands : Obligations.CopyCommands := by
  unfold Obligations.CopyCommands
  intro s u w f c hg hj hc queued a n role layout
  refine ⟨fun pa h hsb hsnap hlock hlate hr hp hchk => ?_, fun core seg h hal hseg hbusy hrole => ?_, fun h hal => ?_,
    fun h hlate ha hn hrow hmark => ?_, fun k m n hk hd => Cohort.markLines_spec hk hd n⟩
  · have hread := fun body => readRecordAt_one (s := s.setWave u w.unjoined) (u := u) (w := w.unjoined) (i := .tcopy f) (reg := f.b.toNat)
      (body := body) (by simp) hg hr hp hsb hsnap (State.unlocked_setWave hlock hg) hlate
    refine h.ends_command (t := s.afterRecord u w pa 64) (va := BitVec.ofNat 64 (w.base f.b)) (rfl : _ = execTcopy f s)
      ((State.wave_setWave ..).trans (if_pos rfl)) ?_ ?_ ?_
    · rw [State.afterRecord, State.dropL1_only]; rfl
    · rw [State.afterRecord, State.dropL1_only]; rfl
    · have hcoh : (s.afterRecord u w pa 64).cohort w.cohort = some c := by
        rw [State.afterRecord, State.dropL1_only]; exact hc
      have hchk' : tcopyCheck (.tcopy f) c (leNat ((s.setWave u w.unjoined).bytes pa 64)) = none := hchk
      rw [forbiddenInGroup_of_none (w := w.readied) hg, readRecord, afterJoin_eq hj]
      refine (hread _).trans ?_
      rw [show (((s.setWave u w.unjoined).dropL1 w.unjoined.core pa 64).setWave u w.unjoined).cohort w.unjoined.cohort = some c from hcoh]
      dsimp only
      rw [hchk']
      rfl
  · obtain ⟨cs, ks, ht⟩ := s.afterSegcfg_frame u w c a role core seg
    refine h.ends_command (t := s.afterSegcfg u w c a role core seg) (va := 0) (rfl : _ = execSegcfg f s) ?_ ?_ ?_ ?_
    · rw [ht]; exact (State.wave_setWave ..).trans (if_pos rfl)
    · rw [ht]; rfl
    · rw [ht]; rfl
    · rw [forbiddenInGroup_of_none (w := w.readied) hg, afterJoin_eq hj]
      dsimp only
      rw [show (s.setWave u w.unjoined).cohort w.unjoined.cohort = some c from hc, ctlBits_low2]
      dsimp only
      have hal' : ¬(w.unjoined.src f.a).toNat % 131072 ≠ 0 := not_not.2 hal
      have hlay : (decide (f.ctl.toNat % 4 = 3) && !layoutOk c ((s.setWave u w.unjoined).pendingFifos w.unjoined.cohort)
          (if f.ctl.toNat % 4 = 3 then w.unjoined.sgroup f.b.toNat 4 else 0) w.unjoined.width) = false := by
        rcases hrole with ⟨h3, -, hl⟩ | ⟨h3, -⟩
        · have hl' : layoutOk c ((s.setWave u w.unjoined).pendingFifos w.unjoined.cohort)
              (if f.ctl.toNat % 4 = 3 then w.unjoined.sgroup f.b.toNat 4 else 0) w.unjoined.width = true := hl
          rw [hl']
          simp
        · simp [show f.ctl.toNat % 4 ≠ 3 from h3]
      have hfree : ((s.setWave u w.unjoined).sched.copies.any (fun x => x.kind == 1 && x.cohort == w.unjoined.cohort &&
            nth 0 x.args 0 == (w.unjoined.src f.a).toNat) ||
          c.fifoSegs.contains (w.unjoined.src f.a).toNat == decide (f.ctl.toNat % 4 = 3) ||
          (f.ctl.toNat % 4 == 2 && !c.fifosEmpty (w.unjoined.src f.a).toNat)) = false := by
        have hbusy' : (s.setWave u w.unjoined).sched.copies.any (fun x => x.kind == 1 && x.cohort == w.unjoined.cohort &&
            nth 0 x.args 0 == (w.unjoined.src f.a).toNat) = false := hbusy
        rw [hbusy']
        rcases hrole with ⟨h3, hf, -⟩ | ⟨h3, hf, he⟩
        · have hf' : c.fifoSegs.contains (w.unjoined.src f.a).toNat = false := hf
          rw [hf', show f.ctl.toNat % 4 = 3 from h3]
          rfl
        · have hf' : c.fifoSegs.contains (w.unjoined.src f.a).toNat = true := hf
          have he' : c.fifosEmpty (w.unjoined.src f.a).toNat = true := he
          rw [hf', he', decide_eq_false h3]
          simp
      rw [if_neg hal', if_neg (Bool.not_eq_true _ ▸ hlay), show c.wholeSegment (w.unjoined.src f.a).toNat = some (core, seg) from hseg]
      dsimp only
      rw [if_neg (Bool.not_eq_true _ ▸ hfree)]
      show Act.done (State.issueCopy _ u w.unjoined 0 1 0 [] [a, role, layout, (s.afterSegcfg u w c a role core seg).clock + 1024, w.width]).1 = _
      rw [show (s.afterSegcfg u w c a role core seg).clock = s.clock by rw [ht]; rfl]
      rfl
  · refine h.ends_queued (t := s.setWave u w.unjoined) (va := BitVec.ofNat 64 (w.base f.b)) (g := fun x => x.pairPends (w.skey f.d.toNat))
      (rfl : _ = execTlreadDeferred f s)
      ((State.wave_setWave ..).trans (if_pos rfl)) rfl rfl _ ?_ ?_
    · rw [Wave.pairPends, Wave.batches_joinBatch]
      rfl
    rw [forbiddenInGroup_of_none (w := w.readied) hg, afterJoin_eq hj]
    exact (if_neg (c := w.unjoined.base f.b % 8 ≠ 0) (not_not.2 hal)).trans rfl
  · have hlate' : ¬w.unjoined.late.any (·.reads) = true := by rw [show w.unjoined.late.any (·.reads) = false from hlate]; decide
    have hc' : (s.setWave u w.unjoined).cohort w.unjoined.cohort = some c := hc
    have ha' : ¬(w.unjoined.src f.a).toNat % 128 ≠ 0 := not_not.2 ha
    have hn' : ¬(w.unjoined.src f.b).toNat % 128 ≠ 0 := not_not.2 hn
    have hmark' : (c.marking.any fun m => m.wave == u) = false := List.any_eq_false.2 fun m hm => by simpa using hmark m hm
    by_cases hz : n = 0
    · refine h.ends (t := s.setWave u w.unjoined) (x := w.unjoined) (rfl : _ = execSpmark f s) ?_ ((State.wave_setWave ..).trans (if_pos rfl)) rfl
        ⟨Wave.sameArch_completed rfl rfl rfl .., State.sameMem_of_mem (State.retire_mem ..), ?_⟩
      · rw [forbiddenInGroup_of_none (w := w.readied) hg, afterJoin_eq hj, afterReads, if_neg hlate']
        dsimp only
        rw [hc']
        dsimp only
        rw [if_neg ha', if_neg hn', if_pos (c := (w.unjoined.src f.b).toNat = 0) hz]
        dsimp only
        rw [if_pos (c := (w.unjoined.src f.b).toNat = 0) hz]
      · rw [State.retire_cohort, if_pos hz, List.append_nil]
        exact hc
    · refine h.ends (t := (s.setWave u w.unjoined).setCohort w.cohort { c with marking := c.marking ++
          [{ wave := u, start := s.clock, line := a / 128, count := n / 128, done := 0, full := f.ctl == 1 }] }) (x := w.unjoined)
        (rfl : _ = execSpmark f s) ?_ ((State.wave_setWave ..).trans (if_pos rfl)) rfl
        ⟨Wave.sameArch_completed rfl rfl rfl .., State.sameMem_of_mem (State.retire_mem ..), ?_⟩
      · rw [forbiddenInGroup_of_none (w := w.readied) hg, afterJoin_eq hj, afterReads, if_neg hlate']
        dsimp only
        rw [hc']
        dsimp only
        rw [if_neg ha', if_neg hn', if_neg (c := (w.unjoined.src f.b).toNat = 0) hz,
          show c.badRow (w.unjoined.src f.a).toNat ((w.unjoined.src f.b).toNat / 128) 128 = none from hrow hz]
        dsimp only
        rw [if_neg (c := (w.unjoined.src f.b).toNat = 0) hz, hmark', if_neg (by decide)]
        rfl
      · rw [State.retire_cohort, if_neg hz]
        exact (State.cohort_setCohort ..).trans (if_pos rfl)

end

section
/-! SUPPORT. What the copy engines perform (R47, R59, R63, R272, R274, R281). -/

set_option Elab.async false

namespace Sys2Proof.Machine

/-! ### Translations that a die's service holds -/

section
variable {s : State}

/-- A walk that reaches a leaf gives the page of its address. -/
theorem walkFrom_covers {who : Who} {asid va : Nat} {adu : Bool} {fuel level table : Nat} {t : Tr}
    (h : (walkFrom s who asid va adu fuel level table).1 = .leaf t) : t.covers asid va = true := by
  induction fuel generalizing level table with
  | zero => exact nomatch h
  | succ fuel ih =>
    rw [walkFrom] at h
    dsimp only at h
    split at h
    · exact nomatch h
    split at h
    · exact nomatch h
    split at h
    · exact nomatch h
    split at h
    · exact nomatch h
    split at h
    · exact nomatch h
    split at h
    · obtain rfl := WalkResult.leaf.inj h
      by_cases hl : level = 2 <;> simp [Tr.covers, leafOf, hl]
    · exact ih h

theorem walk_covers {die asid world va : Nat} {t : Tr} (h : (walk s die asid world va).1 = .leaf t) : t.covers asid va = true := by
  unfold walk at h
  dsimp only at h
  split at h
  · exact nomatch h
  split at h
  · exact nomatch h
  exact walkFrom_covers h

theorem bit_add_two_pow {x n : Nat} (h : bit x n = false) : bit (x + 2 ^ n) n = true := by
  rw [bit, Nat.add_div_right _ (Nat.two_pow_pos n)]
  simp only [bit, beq_eq_false_iff_ne] at h
  exact beq_iff_eq.2 (by omega)

/-- A leaf that a write has touched is dirty, if its page asks for that. -/
theorem touchLeaf_dirty (s : State) (t : Tr) (access : Nat) : (touchLeaf s t true).2.needsDirty access = false := by
  unfold touchLeaf Tr.needsDirty
  split
  next h => simp at h; simp [h]
  next h =>
    dsimp only
    generalize (if bit (s.read t.leafPa 8) 9 then s.read t.leafPa 8 else s.read t.leafPa 8 + 2 ^ 9) = e
    cases hw : t.w with
    | false => simp
    | true =>
      cases hb : bit e 10 with
      | true => simp [hb]
      | false => rw [if_pos (by decide), bit_add_two_pow hb]; simp

theorem touchLeaf_keeps (s : State) (t : Tr) (wr : Bool) : ∃ d, (touchLeaf s t wr).2 = { t with dirty := d } := by
  unfold touchLeaf
  split <;> exact ⟨_, rfl⟩

/-- An engine's translation that changes nothing was in the die's service. -/
theorem engineReaches_of_xlate {die asid world va access pa : Nat} {who : Who} {r : Tr}
    (h : engineXlate s die asid world who va access = .ok pa r s) : s.engineReaches die asid who va access pa := by
  unfold engineXlate at h
  split at h
  · exact nomatch h
  next hc =>
    dsimp only at h
    split at h
    next t ht =>
      split at h
      · exact nomatch h
      next hp =>
        split at h
        next ha =>
          obtain ⟨rfl, -, -⟩ := Xlate.ok.inj h
          exact ⟨by simpa using hc, t, ht, hp, ha, rfl⟩
        · exact nomatch h
    next hnone =>
      exfalso
      split at h
      next t ht =>
        split at h
        · exact nomatch h
        next hp =>
          split at h
          · obtain ⟨-, -, hs⟩ := Xlate.ok.inj h
            obtain ⟨d, hd⟩ := touchLeaf_keeps (s.notePointers die asid va) t (isWrite access && (permFault t access false).isNone)
            have hp' : permFault t access false = none := by rw [← hp, hd]; rfl
            have hhead := congrArg (fun s : State => (s.die die).ts.entries.head?) hs
            simp only [State.updTs, State.die_updDie, if_pos, cacheAdd, List.take_succ_cons, List.head?_cons] at hhead
            obtain ⟨l, hl⟩ : ∃ l, (s.die die).ts.entries =
                (touchLeaf (s.notePointers die asid va) t (isWrite access && (permFault t access false).isNone)).2 :: l := by
              cases hl : (s.die die).ts.entries with
              | nil => rw [hl] at hhead; exact nomatch hhead
              | cons x l => rw [hl] at hhead; exact ⟨l, by rw [Option.some.inj hhead]⟩
            have hfree := List.find?_eq_none.1 hnone _ (hl ▸ List.mem_cons_self)
            refine hfree (Bool.and_eq_true_iff.2 ⟨?_, ?_⟩)
            · rw [hd]
              exact walk_covers (t := t) ht
            · rw [hp', Bool.not_eq_true']
              cases hw : isWrite access with
              | false => simp [Tr.needsDirty, hw]
              | true => exact touchLeaf_dirty _ _ _
          · exact nomatch h
      next => exact nomatch h
      next => exact nomatch h

end

/-! ### Commands that change and complete -/

section
variable {s t : State} {c : CopyCmd} {u : Nat} {w : Wave}

/-- Changing a wave that stands in the package changes the waves alone. -/
theorem State.updAnyWave_of_wave (h : s.wave u = some w) (f : Wave → Wave) : s.updAnyWave u f = s.setWave u (f w) := by
  rw [State.updAnyWave, if_pos (by rw [h]; rfl), State.updWave, h]

theorem State.copyCmd_id {cmd : Nat} (h : s.copyCmd cmd = some c) : c.id = cmd := by
  simpa using List.find?_some h

/-- What the completion of a copy command leaves: the command is gone, and its wave, if it stands in the package, keeps its registers. -/
structure State.CopyDone (s t : State) (c : CopyCmd) : Prop where
  mem : t.mem = s.mem
  cohorts : t.cohorts = s.cohorts
  gone : t.copyCmd c.id = none
  wave : ∀ u w, c.wave = some u → s.wave u = some w → ∃ w', t.wave u = some w' ∧ w'.regs = w.regs

theorem State.finishCopy_done (hw : ∀ u, c.wave = some u → (s.wave u).isSome = true) (err : Option (Nat × DWord)) :
    s.CopyDone (s.finishCopy c err) c := by
  let s₁ : State := { s with sched := { s.sched with copies := s.sched.copies.filter fun x => x.id != c.id } }
  have hgone : s₁.copyCmd c.id = none := by
    refine List.find?_eq_none.2 fun x hx => ?_
    have := (List.mem_filter.1 hx).2
    simpa using this
  have htell : ∀ r : State, (match c.wave with
      | some u => s₁.completeCmd u 0 c.id (err.map fun e => trapErr c.id e.1 e.2)
      | none => s₁) = r → s.CopyDone r c := by
    intro r hr
    cases hcw : c.wave with
    | none =>
      rw [hcw] at hr
      obtain rfl := hr
      exact ⟨rfl, rfl, hgone, fun u w hu => by rw [hcw] at hu; exact nomatch hu⟩
    | some v =>
      rw [hcw] at hr
      obtain ⟨x, hx⟩ := Option.isSome_iff_exists.1 (hw v hcw)
      have hset := State.updAnyWave_of_wave (s := s₁) (u := v) (w := x) hx fun w => w.completeCmd 0 c.id (err.map fun e => trapErr c.id e.1 e.2)
      obtain rfl := hset.symm.trans hr
      refine ⟨rfl, rfl, hgone, fun u w hu hw' => ?_⟩
      obtain rfl := Option.some.inj (hcw.symm.trans hu)
      obtain rfl := Option.some.inj (hx.symm.trans hw')
      exact ⟨_, (State.wave_setWave ..).trans (if_pos rfl), rfl⟩
  have hdone := htell _ rfl
  unfold State.finishCopy
  dsimp only
  split
  · exact ⟨hdone.mem, hdone.cohorts, hdone.gone, hdone.wave⟩
  · exact hdone

theorem length_insNat {i : Nat} {l : List Nat} (h : i ∉ l) : (insNat i l).length = l.length + 1 := by
  induction l with
  | nil => rfl
  | cons y l ih =>
    obtain ⟨hy, hl⟩ := not_or.1 (List.mem_cons.not.1 h)
    rw [insNat, if_neg hy]
    split
    · rfl
    · rw [List.length_cons, ih hl, List.length_cons]

/-- One element of a tile copy that moves: the command completes with the last one. -/
theorem State.tile_moved {cmd i : Nat} (hc : s.copyCmd cmd = some c) (hk : c.kind = 0) (hp : c.parked = false)
    (hi : i < (tileOf (leNat c.rec_)).count) (hn : i ∉ c.done) (hf : (tileOf (leNat c.rec_)).fill = false)
    (hm : moveElement s c (tileOf (leNat c.rec_)) i = .moved t) (hs : t.sched = s.sched) (hw : ∀ u, c.wave = some u → (t.wave u).isSome = true) :
    Happens s (.tileCopyPerform cmd [i]) fun r => r.mem = t.mem ∧ r.cohorts = t.cohorts ∧
      if c.done.length + 1 = (tileOf (leNat c.rec_)).count then r.copyCmd cmd = none else (r.copyCmd cmd).map (·.done) = some (insNat i c.done) := by
  obtain rfl := State.copyCmd_id hc
  have hupd : (t.updCopy c.id fun c => { c with done := insNat i c.done }).copyCmd c.id = some { c with done := insNat i c.done } := by
    refine find?_updFirst_map CopyCmd.id (fun c : CopyCmd => { c with done := insNat i c.done }) (l := t.sched.copies) ?_ fun _ => rfl
    rw [hs]
    exact hc
  have hmove : moveElements (tileOf (leNat c.rec_)) c.id [i] [i] s = t.updCopy c.id fun c => { c with done := insNat i c.done } := by
    rw [moveElements, hc]
    dsimp only
    rw [hm]
    rfl
  have hexec : exec (.tileCopyPerform c.id [i]) s = .next (if (insNat i c.done).length = (tileOf (leNat c.rec_)).count then
      (t.updCopy c.id fun c => { c with done := insNat i c.done }).finishCopy { c with done := insNat i c.done } none
      else t.updCopy c.id fun c => { c with done := insNat i c.done }) := by
    show execTileCopyPerform c.id [i] s = _
    unfold execTileCopyPerform
    rw [hc]
    dsimp only
    rw [if_neg (by simp [hk, hp]), if_neg (c := [i].isEmpty = true) Bool.false_ne_true, show [i].filter (fun i => decide (i < (tileOf (leNat c.rec_)).count) && !c.done.contains i) = [i] by
      simp [hi, hn], hmove, hupd]
    dsimp only
    rw [State.fillTile, hupd]
    dsimp only
    rw [hf, if_neg (c := false = true) Bool.false_ne_true]
  refine ⟨_, hexec, ?_⟩
  rw [length_insNat hn]
  split
  next =>
    have hd := State.finishCopy_done (s := t.updCopy c.id fun c => { c with done := insNat i c.done }) (c := { c with done := insNat i c.done }) hw none
    exact ⟨hd.mem, hd.cohorts, hd.gone⟩
  next => exact ⟨rfl, rfl, by rw [hupd]; rfl⟩

/-- A block in one page is written at its home slices. -/
theorem enginePut_one {a pa : Nat} {bs : List Byte} (h : s.engineReaches c.die c.asid c.who a 1 pa) (hs : s.Still) (hpage : a % 65536 + bs.length ≤ 65536) :
    enginePut s c false a bs = .moved (s.poke pa bs none) := by
  obtain ⟨r, hr⟩ := engineXlate_of_reaches h c.world
  rw [enginePut, if_neg Bool.false_ne_true, pagePieces_one hpage]
  simp only [enginePut.go, hr, List.nil_append, List.any_cons, List.any_nil, hs.writeHeld, Bool.or_false, Bool.false_eq_true, if_false, List.foldl_cons,
    List.foldl_nil, hs.writeHome]

theorem nth_map_fst (l : List (Byte × Bool)) (i : Nat) : nth 0 (l.map (·.1)) i = (nth (0, false) l i).1 := by
  simp only [nth, List.getElem?_map]
  cases l[i]? <;> rfl

/-- An engine's read of scratch bytes gives a byte for each. -/
theorem Cohort.engineRead_length (k : Cohort) (u : Option Nat) (cmd a n : Nat) : (k.engineRead u cmd a n).1.length = n := by
  induction n with
  | zero => rfl
  | succ n ih =>
    unfold Cohort.engineRead at ih ⊢
    rw [List.range_succ, List.foldl_append, List.foldl_cons, List.foldl_nil, List.length_append, ih]
    rfl

theorem engineGet_scratch {k : Cohort} {a n : Nat} (hk : s.cohort c.cohort = some k) (hok : k.scratchOk a n = true)
    (hl : (linesOf a n).all (fun l => !k.empty.contains l && (mapFind k.failed l).isNone) = true)
    (hp : (k.engineRead c.wave c.id a n).1.any (·.2) = false) :
    engineGet s c true a n = .bytes ((k.engineRead c.wave c.id a n).1.map (·.1)) (s.setCohort c.cohort (k.engineRead c.wave c.id a n).2) := by
  have hfail : ((linesOf a n).findSome? fun l => mapFind k.failed l) = none :=
    List.findSome?_eq_none_iff.2 fun l h => by simpa using (Bool.and_eq_true_iff.1 (List.all_eq_true.1 hl l h)).2
  have hfull : ((linesOf a n).any fun l => k.empty.contains l) = false :=
    List.any_eq_false.2 fun l h => by simpa using (Bool.and_eq_true_iff.1 (List.all_eq_true.1 hl l h)).1
  rw [engineGet, if_pos rfl, hk]
  dsimp only
  rw [hok, if_neg (by decide), hfail]
  dsimp only
  rw [hfull, if_neg (by decide), hp, if_neg (by decide)]

theorem engineGet_global {a n : Nat} {bs : List Byte} (h : engineRead c.die c.asid c.world c.who 0 (n / 65536 + 2) s a n = .ok bs s)
    (hsnap : s.snap.state ≠ 1) (hu : s.unlocked = true) : engineGet s c false a n = .bytes bs s := by
  rw [engineGet, if_neg (by decide), h]
  dsimp only
  split
  · rw [State.readHeld_of_unlocked hu hsnap, if_neg (by decide)]
  · rfl

/-- A cohort when a segment of its has taken its new role: the segment's range is clear, and its FIFOs are there or gone. -/
def Cohort.newRole (args : List Nat) (k : Cohort) : Cohort :=
  let a := nth 0 args 0
  let k := k.clearRange a
  if decide (nth 0 args 1 = 3) then
    let new := (fifoLayout (nth 0 args 2)).map fun p =>
      ({ num := p.1, seg := a, cap := p.2 * 4096, depth := fifoDepth p.2 (nth 0 args 4), entries := [] } : Fifo)
    { k with fifoSegs := insNat a k.fifoSegs, fifos := k.fifos ++ new }
  else { k with fifoSegs := k.fifoSegs.filter (· != a) }

theorem Cohort.newRole_clear (args : List Nat) (k : Cohort) :
    (k.newRole args).scratch = (k.clearRange (nth 0 args 0)).scratch ∧ (k.newRole args).empty = (k.clearRange (nth 0 args 0)).empty := by
  unfold Cohort.newRole
  dsimp only
  split <;> exact ⟨rfl, rfl⟩

/-- The FIFOs of a segment that has become a FIFO one are there, beside those that were. -/
theorem Cohort.newRole_fifos (args : List Nat) (k : Cohort) :
    (nth 0 args 0 ∈ (k.newRole args).fifoSegs ↔ nth 0 args 1 = 3) ∧
    (k.newRole args).fifos.map (fun q => (q.num, q.depth, q.entries)) = k.fifos.map (fun q => (q.num, q.depth, q.entries)) ++
      if nth 0 args 1 = 3 then (fifoLayout (nth 0 args 2)).map fun p => (p.1, p.2 * 4096 / (nth 0 args 4 * 4), []) else [] := by
  unfold Cohort.newRole
  dsimp only
  by_cases h : nth 0 args 1 = 3
  · rw [decide_eq_true h, if_pos rfl, if_pos h]
    refine ⟨iff_of_true ((mem_insNat ..).2 (Or.inl rfl)) h, ?_⟩
    rw [List.map_append, List.map_map]
    rfl
  · rw [decide_eq_false h, if_neg Bool.false_ne_true, if_neg h, List.append_nil]
    exact ⟨iff_of_false (fun hm => by simpa using (List.mem_filter.1 hm).2) h, rfl⟩

end

end Sys2Proof.Machine

open Sys2Proof Sys2Proof.Machine

/-- Settles O34: an element of a tile moves by `State.tile_moved`, read by `engineGet_global` or `engineGet_scratch` and written by
`Cohort.scratchWrite` or `enginePut_one`; a command that completes leaves its wave's registers (`State.finishCopy_done`). -/
theorem copyEngine : Obligations.CopyEngine := by
  unfold Obligations.CopyEngine
  intro s cmd c hc hw x moved
  refine ⟨fun i k bs hk hp hi hn hf hcoh => ⟨fun hss hds hread hsnap hu hlen hok => ?_, fun pa r hss hds hpage hok hl hpo hx hs => ?_, fun b hb => ?_⟩,
    fun k hk hclock hcoh => ?_, fun u w pa r hk hcw hu hx hp hsnap hl => ?_⟩
  · have hm : moveElement s c x i = .moved (s.setCohort c.cohort (k.scratchWrite (x.dstAddr i) bs)) := by
      rw [moveElement, hss, engineGet_global hread hsnap hu]
      dsimp only
      rw [hds, enginePut, if_pos rfl, hcoh]
      dsimp only
      rw [hlen, hok, if_neg (by decide)]
    obtain ⟨t, ht, hmem, hcohs, hmoved⟩ := State.tile_moved hc hk hp hi hn hf hm rfl hw
    refine ⟨t, ht, State.sameMem_of_mem hmem, hmoved, k.scratchWrite (x.dstAddr i) bs, ?_, fun a => ?_⟩
    · rw [State.cohort, hcohs]
      exact (State.cohort_setCohort ..).trans (if_pos rfl)
    · rw [Cohort.scratchWrite_get, hlen]
  · have hlen : ((k.engineRead c.wave c.id (x.srcAddr i) x.e).1.map (·.1)).length = x.e := by rw [List.length_map, Cohort.engineRead_length]
    have hstill : (s.setCohort c.cohort (k.engineRead c.wave c.id (x.srcAddr i) x.e).2).Still := ((State.still_iff s).1 hs).congr rfl rfl rfl
    have hm : moveElement s c x i = .moved ((s.setCohort c.cohort (k.engineRead c.wave c.id (x.srcAddr i) x.e).2).poke pa
        ((k.engineRead c.wave c.id (x.srcAddr i) x.e).1.map (·.1)) none) := by
      rw [moveElement, hss, engineGet_scratch hcoh hok hl hpo]
      dsimp only
      rw [hds]
      exact enginePut_one (show State.engineReaches s .. from engineReaches_of_xlate hx) hstill (by rw [hlen]; exact hpage)
    have hw' : ∀ u, c.wave = some u → (((s.setCohort c.cohort (k.engineRead c.wave c.id (x.srcAddr i) x.e).2).poke pa
        ((k.engineRead c.wave c.id (x.srcAddr i) x.e).1.map (·.1)) none).wave u).isSome = true := fun u hu => by
      obtain ⟨w, hwave⟩ := Option.isSome_iff_exists.1 (hw u hu)
      obtain ⟨g, hg⟩ := State.wave_poke_group (s := s.setCohort c.cohort (k.engineRead c.wave c.id (x.srcAddr i) x.e).2) (w := w) hwave pa
        ((k.engineRead c.wave c.id (x.srcAddr i) x.e).1.map (·.1)) none
      rw [hg]
      rfl
    obtain ⟨t, ht, hmem, -, hmoved⟩ := State.tile_moved hc hk hp hi hn hf hm (by rw [State.poke_only]; rfl) hw'
    refine ⟨t, ht, hmoved, fun a => ?_⟩
    rw [State.byte_of_mem hmem, State.byte_poke, hlen, nth_map_fst]
    rfl
  · have hnone : (k.unfenced.filter fun y => c.wave == some y.wave && y.addr == b) = [] := by
      refine List.filter_eq_nil_iff.2 fun y hy h => ?_
      obtain ⟨h1, h2⟩ := Bool.and_eq_true_iff.1 h
      exact hb y hy (beq_iff_eq.1 h1) (beq_iff_eq.1 h2)
    rw [Cohort.engineByte, hnone]
    rfl
  · obtain rfl := State.copyCmd_id hc
    let s₁ := match (s.cohort c.cohort).bind fun k => k.wholeSegment (nth 0 c.args 0) with
        | some (core, seg) => s.updSegment core seg fun g => { g with role := if decide (nth 0 c.args 1 = 3) then .fifo else .scratch, next := none }
        | none => s
    have hs₁ : ∃ ks, s₁ = { s with cores := ks } := by
      dsimp only [s₁]
      split <;> exact ⟨_, rfl⟩
    obtain ⟨ks, hs₁⟩ := hs₁
    have hcoh₁ : s₁.cohort c.cohort = some k := by rw [hs₁]; exact hcoh
    have hupd : s₁.updAnyCohort c.cohort (Cohort.newRole c.args) = s₁.setCohort c.cohort (k.newRole c.args) := by
      rw [State.updAnyCohort, if_pos (by rw [hcoh₁]; rfl), State.updCohort_of_some hcoh₁]
    have hexec : exec (.segcfgComplete c.id) s = .next ((s₁.updAnyCohort c.cohort (Cohort.newRole c.args)).finishCopy c none) := by
      show execSegcfgComplete c.id s = _
      unfold execSegcfgComplete
      rw [hc]
      dsimp only
      rw [if_neg (by simp [hk]; exact hclock)]
      rfl
    have hd := State.finishCopy_done (s := s₁.updAnyCohort c.cohort (Cohort.newRole c.args)) (c := c) (fun u hu => ?_) none
    · obtain ⟨hscratch, hempty⟩ := Cohort.newRole_clear c.args k
      obtain ⟨hseg, hfifos⟩ := Cohort.newRole_fifos c.args k
      refine ⟨_, hexec, State.sameMem_of_mem (hd.mem.trans ?_), hd.gone, k.newRole c.args, ?_, fun b h1 h2 => ?_, fun l h1 h2 hl => ?_, hseg, hfifos⟩
      · rw [hupd, hs₁]
        rfl
      · rw [State.cohort, hd.cohorts, hupd]
        exact (State.cohort_setCohort ..).trans (if_pos rfl)
      · rw [hscratch]
        exact mapGet_filter_out 0 k.scratch (fun b => !decide (nth 0 c.args 0 ≤ b ∧ b < nth 0 c.args 0 + 131072)) (by simp [h1, h2])
      · rw [hempty] at hl
        have := (List.mem_filter.1 hl).2
        simp [h1, h2] at this
    · rw [hupd, hs₁]
      exact hw u hu
  · obtain rfl := State.copyCmd_id hc
    have hexec : exec (.tlreadPerform c.id) s = .next ((s.setWave u (w.setKeys (nth 0 c.args 0) 2 (s.read pa 8))).finishCopy c none) := by
      show execTlreadPerform c.id s = _
      unfold execTlreadPerform
      rw [hc]
      dsimp only
      rw [if_neg (by simp [hk]), hx]
      dsimp only
      rw [hp, if_neg Bool.false_ne_true, State.readHeld_of_unlocked hl hsnap, if_neg Bool.false_ne_true, hcw]
      dsimp only
      rw [State.updAnyWave_of_wave hu]
    have hw₁ : (s.setWave u (w.setKeys (nth 0 c.args 0) 2 (s.read pa 8))).wave u = some (w.setKeys (nth 0 c.args 0) 2 (s.read pa 8)) :=
      (State.wave_setWave ..).trans (if_pos rfl)
    have hd := State.finishCopy_done (s := s.setWave u (w.setKeys (nth 0 c.args 0) 2 (s.read pa 8))) (c := c)
      (fun v hv => by obtain rfl := Option.some.inj (hcw.symm.trans hv); rw [hw₁]; rfl) none
    exact ⟨_, hexec, State.sameMem_of_mem hd.mem, hd.gone, hd.wave u _ hcw hw₁⟩

end

section
/-! SUPPORT. The matrix instructions at issue (R285, R287, R292, R294 to R300). -/

set_option Elab.async false

namespace Sys2Proof.Machine

/-! ### Values that a command keeps -/

section
variable {α : Type} {A B : List Nat} {W : Nat} {f : Nat → Nat → Word}

theorem mapGet_eq_find (d : α) (m : List (Nat × α)) (a : Nat) : mapGet d m a = (mapFind m a).getD d := by
  induction m with
  | nil => rfl
  | cons e m ih =>
    obtain ⟨k, v⟩ := e
    rw [mapGet, mapFind]
    split
    · rfl
    · split
      · rfl
      · exact ih

/-- The nonzero words of a grid of rows and places, as a command keeps them. -/
def gridWords (A B : List Nat) (key : Nat → Nat → Nat) (f : Nat → Nat → Word) : List (Nat × Word) :=
  A.flatMap fun a => B.filterMap fun b => if f a b = 0 then none else some (key a b, f a b)

theorem mem_gridWords {key : Nat → Nat → Nat} {k : Nat} {x : Word} :
    (k, x) ∈ gridWords A B key f ↔ ∃ a ∈ A, ∃ b ∈ B, f a b ≠ 0 ∧ k = key a b ∧ x = f a b := by
  simp only [gridWords, List.mem_flatMap, List.mem_filterMap]
  refine exists_congr fun a => and_congr_right fun _ => exists_congr fun b => and_congr_right fun _ => ?_
  split
  next h => exact iff_of_false (fun h' => nomatch h') fun h' => h'.1 h
  next h => rw [Option.some.injEq, Prod.mk.injEq, and_iff_right h, eq_comm, @eq_comm _ x]

theorem keysRise_gridWords {key : Nat → Nat → Nat} (hkey : ∀ a a', a < a' → ∀ b ∈ B, ∀ b' ∈ B, key a b < key a' b')
    (hin : ∀ a b b', b < b' → key a b < key a b') (hA : A.Pairwise (· < ·)) (hB : B.Pairwise (· < ·)) : KeysRise (gridWords A B key f) := by
  have hmem : ∀ a x, x ∈ (B.filterMap fun b => if f a b = 0 then none else some (key a b, f a b)) → ∃ b ∈ B, x.1 = key a b := by
    intro a x hx
    obtain ⟨b, hb, hx⟩ := List.mem_filterMap.1 hx
    split at hx
    · exact nomatch hx
    · obtain rfl := Option.some.inj hx
      exact ⟨b, hb, rfl⟩
  refine List.pairwise_flatMap.2 ⟨fun a _ => List.pairwise_filterMap.2 (hB.imp fun {b b'} hlt x hx y hy => ?_), hA.imp fun {a a'} hlt x hx y hy => ?_⟩
  · split at hx
    · exact nomatch hx
    · split at hy
      · exact nomatch hy
      · obtain rfl := Option.some.inj hx
        obtain rfl := Option.some.inj hy
        exact hin a b b' hlt
  · obtain ⟨b, hb, h1⟩ := hmem a x hx
    obtain ⟨b', hb', h2⟩ := hmem a' y hy
    rw [h1, h2]
    exact hkey a a' hlt b hb b' hb'

/-- A word of the grid by its key. -/
theorem mapGet_gridWords {key : Nat → Nat → Nat} (hrise : KeysRise (gridWords A B key f)) {a b : Nat}
    (hinj : ∀ a' ∈ A, ∀ b' ∈ B, key a b = key a' b' → a' = a ∧ b' = b) :
    mapGet 0 (gridWords A B key f) (key a b) = if a ∈ A ∧ b ∈ B then f a b else 0 := by
  rw [mapGet_eq_find]
  cases hm : mapFind (gridWords A B key f) (key a b) with
  | some x =>
    obtain ⟨a', ha, b', hb, -, hk, rfl⟩ := mem_gridWords.1 ((hrise.mapFind_iff _ _).1 hm)
    obtain ⟨rfl, rfl⟩ := hinj a' ha b' hb hk
    rw [if_pos ⟨ha, hb⟩]
    rfl
  | none =>
    show 0 = _
    split
    next h =>
      by_contra hne
      have hx := (hrise.mapFind_iff (key a b) (f a b)).2 (mem_gridWords.2 ⟨a, h.1, b, h.2, fun h0 => hne h0.symm, rfl, rfl⟩)
      rw [hm] at hx
      exact nomatch hx
    · rfl

end

/-! ### Commands of the matrix engine at issue -/

section
variable {s t : State} {u : Nat} {w v : Wave} {c : Cohort} {i : Instr}

/-- A matrix instruction outside a commit group works for its cohort and half. -/
theorem matrixInstr_eq (hg : w.group = none) (hj : w.joinHolds = false) (hc : s.cohort w.cohort = some c) (body : Cohort → Nat → Body) :
    matrixInstr body (s.setWave u w.readied) u w.readied = body c (w.half c) (s.setWave u w.unjoined) u w.unjoined := by
  rw [matrixInstr, forbiddenInGroup_of_none (w := w.readied) hg, afterJoin_eq hj]
  show (match (s.setWave u w.unjoined).cohort w.cohort with | none => _ | some c => _) = _
  rw [show (s.setWave u w.unjoined).cohort w.cohort = some c from hc]
  rfl

/-- The matrix stores of a cohort change, and nothing else of the package. -/
def State.withMatrix (s : State) (cid : Nat) (c : Cohort) (half : Nat) (g : Matrix → Matrix) : State :=
  s.setCohort cid { c with mx := c.mx.modify half g }

theorem State.updMatrix_eq {cid : Nat} (hc : s.cohort cid = some c) (half : Nat) (g : Matrix → Matrix) :
    s.updMatrix cid half g = s.withMatrix cid c half g := State.updCohort_of_some hc _

/-- A command as it stands in the queue. -/
def MCmd.queued (x : MCmd) (id u : Nat) (w : Wave) (half : Nat) : MCmd :=
  { x with id := id, wave := u, cohort := w.cohort, half := half, batch := (w.tl 1).batches + 1, k := w.k, lanes := w.liveLanes }

/-- A wave whose command has joined the open batch of the matrix timeline. -/
def Wave.matrixPends (w : Wave) (id : Nat) (regs : List Nat) : Wave :=
  { w.joinBatch 1 id with
    epend := w.epend ++ regs.map fun r => { vec := true, reg := r, timeline := 1, batch := (w.tl 1).batches + 1 } }

theorem State.issueMatrix_eq (hw : s.wave u = some w) (half : Nat) (x : MCmd) (regs : List Nat) :
    s.issueMatrix u w half x regs = (State.setWave { s with ids := s.ids + 1 } u (w.matrixPends (s.ids + 1) regs)).updCore w.core fun k =>
      { k with queue := k.queue ++ [x.queued (s.ids + 1) u w half] } := by
  unfold State.issueMatrix State.fresh State.updWave
  dsimp only
  rw [show State.wave { s with ids := s.ids + 1 } u = some w from hw]
  rfl

/-- What a matrix instruction that is queued leaves. -/
def State.Queued (s : State) (u : Nat) (w : Wave) (h : Nat) (x : MCmd) (regs : List Nat) (t : State) (w' : Wave) : Prop :=
  w.sameArch w' ∧ s.sameMem t ∧ ∃ id, (t.core w.core).queue = (s.core w.core).queue ++
      [{ x with id := id, wave := u, cohort := w.cohort, half := h, batch := (w.tl 1).batches + 1, k := w.k, lanes := w.liveLanes }] ∧
    w'.tls = (w.joinBatch 1 id).tls ∧
    w'.epend = w.epend ++ regs.map fun r => { vec := true, reg := r, timeline := 1, batch := (w.tl 1).batches + 1 }

/-- A matrix instruction joins the open batch and the queue; the stores of its cohort follow as the issue checks see them. -/
theorem Issues.ends_issued {body : Body} {x : MCmd} {regs : List Nat} {g : Matrix → Matrix} (h : Issues s u w i)
    (hx : exec i s = runInstr i body s)
    (hb : body (s.setWave u w.readied) u w.readied =
      .done (((s.setWave u w.unjoined).withMatrix w.cohort c (w.half c) g).issueMatrix u w.unjoined (w.half c) x regs)) :
    Ends s u w i fun t w' => s.Queued u w (w.half c) x regs t w' ∧ ∃ c', t.cohort w.cohort = some c' ∧ c' = { c with mx := c.mx.modify (w.half c) g } := by
  have hw : ((s.setWave u w.unjoined).withMatrix w.cohort c (w.half c) g).wave u = some w.unjoined := (State.wave_setWave ..).trans (if_pos rfl)
  rw [State.issueMatrix_eq hw] at hb
  refine h.ends hx hb (x := w.unjoined.matrixPends (s.ids + 1) regs) ((State.wave_setWave ..).trans (if_pos rfl)) rfl
    ⟨⟨Wave.sameArch_completed rfl rfl rfl .., State.sameMem_of_mem (State.retire_mem ..), s.ids + 1, ?_, ?_, ?_⟩, _, ?_, rfl⟩
  · rw [State.retire_queue, State.core_updCore, if_pos (c := w.core = w.unjoined.core) rfl]
    rfl
  · rw [Wave.completed_tls]
    rfl
  · rw [Wave.completed_epend]
    rfl
  · rw [State.retire_cohort]
    exact (State.cohort_setCohort ..).trans (if_pos rfl)

theorem mapInsert_of_find {α : Type} {m : List (Nat × α)} {k : Nat} {x : α} (h : mapFind m k = some x) : mapInsert m k x = m := by
  induction m with
  | nil => exact nomatch h
  | cons e m ih =>
    simp only [mapFind, mapInsert] at h ⊢
    split
    next hk => rw [if_pos hk, Option.some.injEq] at h; rw [hk, ← h]
    next hk =>
      rw [if_neg hk] at h
      split
      next hlt => rw [if_pos hlt] at h; exact nomatch h
      next hlt => rw [if_neg hlt] at h; rw [ih h]

theorem State.setCohort_self {k : Nat} (hc : s.cohort k = some c) : s.setCohort k c = s := by
  rw [State.setCohort, mapInsert_of_find hc]

/-- The same where the stores stay as they are. -/
theorem Issues.ends_issued_only {body : Body} {x : MCmd} {regs : List Nat} (hc : s.cohort w.cohort = some c) (h : Issues s u w i)
    (hx : exec i s = runInstr i body s)
    (hb : body (s.setWave u w.readied) u w.readied = .done ((s.setWave u w.unjoined).issueMatrix u w.unjoined (w.half c) x regs)) :
    Ends s u w i fun t w' => s.Queued u w (w.half c) x regs t w' ∧ ∃ c', t.cohort w.cohort = some c' ∧ c' = { c with mx := c.mx.modify (w.half c) id } := by
  refine h.ends_issued hx (hb.trans ?_)
  rw [State.withMatrix, List.modify_id, State.setCohort_self]
  exact hc

end

/-! ### What the checks look at -/

section
variable (w : Wave)

@[simp] theorem Wave.unjoined_src (b : BitVec 8) (x : BitVec 24) : w.unjoined.src b x = w.src b x := rfl
@[simp] theorem Wave.unjoined_src64 (b : BitVec 8) (x : BitVec 24) : w.unjoined.src64 b x = w.src64 b x := rfl
@[simp] theorem Wave.unjoined_v (r i : Nat) : w.unjoined.v r i = w.v r i := rfl
@[simp] theorem Wave.unjoined_width : w.unjoined.width = w.width := rfl
@[simp] theorem Wave.unjoined_k : w.unjoined.k = w.k := rfl
@[simp] theorem Wave.unjoined_slot : w.unjoined.slot = w.slot := rfl
@[simp] theorem Wave.unjoined_core : w.unjoined.core = w.core := rfl
@[simp] theorem Wave.unjoined_cohort : w.unjoined.cohort = w.cohort := rfl
@[simp] theorem Wave.unjoined_liveLanes : w.unjoined.liveLanes = w.liveLanes := rfl
@[simp] theorem Wave.unjoined_mode (n : Nat) : w.unjoined.mode n = w.mode n := rfl
@[simp] theorem shiftBlock_unjoined (f : EF) : shiftBlock w.unjoined f = shiftBlock w f := rfl

theorem ctlBits_fields (f : EF) : ctlBits f 3 0 = f.ctl.toNat % 16 ∧ ctlBits f 1 0 = f.ctl.toNat % 4 ∧ ctlBits f 5 4 = f.ctl.toNat / 16 % 4 ∧
    ctlBits f 11 4 = f.ctl.toNat / 16 % 256 ∧ ctlBits f 5 2 = f.ctl.toNat / 4 % 16 ∧ ctlBits f 9 8 = f.ctl.toNat / 256 % 4 ∧
    ctlBits f 6 4 = f.ctl.toNat / 16 % 8 ∧ ctlBits f 18 11 = f.ctl.toNat / 2 ^ 11 % 256 :=
  ⟨ctlBits_low4 f, ctlBits_low2 f, rfl, rfl, rfl, rfl, rfl, rfl⟩

end

end Sys2Proof.Machine

open Sys2Proof Sys2Proof.Machine

/-- Settles O35: with its checks passed, the body of each instruction gives its command to `State.issueMatrix` (`Issues.ends_issued`); the
words that OBWR and MSHIN read at issue are a grid (`mapGet_gridWords`). -/
theorem matrixIssue : Obligations.MatrixIssue := by
  unfold Obligations.MatrixIssue
  intro s u w f c hg hj hc h m queued stores ends n x blocks
  have hbody := fun body => matrixInstr_eq (s := s) (u := u) hg hj hc body
  have hc' : (s.setWave u w.unjoined).cohort w.unjoined.cohort = some c := hc
  have hends : ∀ {i : Instr} {x : MCmd} {regs : List Nat} {g : Matrix → Matrix} {body : Cohort → Nat → Body}, Issues s u w i →
      exec i s = runInstr i (matrixInstr body) s → body c (w.half c) (s.setWave u w.unjoined) u w.unjoined =
        .done (((s.setWave u w.unjoined).withMatrix w.cohort c (w.half c) g).issueMatrix u w.unjoined (w.half c) x regs) → ends i x regs g :=
    fun hi hx hb => hi.ends_issued hx ((hbody _).trans hb)
  have hraw : ∀ {i : Instr} {x : MCmd} {regs : List Nat} {body : Body}, Issues s u w i → exec i s = runInstr i body s →
      body (s.setWave u w.readied) u w.readied = .done ((s.setWave u w.unjoined).issueMatrix u w.unjoined (w.half c) x regs) → ends i x regs id :=
    fun hi hx hb => hi.ends_issued_only hc hx hb
  have honly : ∀ {i : Instr} {x : MCmd} {regs : List Nat} {body : Cohort → Nat → Body}, Issues s u w i →
      exec i s = runInstr i (matrixInstr body) s → body c (w.half c) (s.setWave u w.unjoined) u w.unjoined =
        .done ((s.setWave u w.unjoined).issueMatrix u w.unjoined (w.half c) x regs) → ends i x regs id :=
    fun hi hx hb => hraw hi hx ((hbody _).trans hb)
  obtain ⟨h30, h10, h54, h114, h52, h98, h64, h1811⟩ := ctlBits_fields f
  dsimp only [h, m, n, x, blocks]
  refine ⟨fun hi hleg hlen hfree hover => ?_, fun r hr => ⟨fun hi hown => ?_, fun hi hal hlen hown => ?_, fun hi hal hlen => ?_,
    fun hi hslot hfmt hend => ?_, fun hi h11 h27 h1 h2 hslot htag hpair hend hrow hacc => ?_⟩, fun hslot => ⟨fun hi => ?_, fun hi => ?_⟩,
    fun row k hrow => ⟨fun hi hacc => ?_, fun heven hacc y hy => ?_⟩⟩
  · have hother : ((c.mxOf (w.half c)).records.any fun y => recOwner y.2.bits != w.slot &&
        overlaps (recBase (w.src64 f.a).toNat) (recLen (w.src64 f.a).toNat) (recBase y.2.bits) (recLen y.2.bits)) = false :=
      List.any_eq_false.2 fun y hy => by
        rcases Bool.or_eq_true_iff.1 (List.all_eq_true.1 hover y hy) with h | h
        · rw [bne, h]; exact Bool.false_ne_true
        · rw [(Bool.not_eq_true' _).mp h, Bool.and_false]; exact Bool.false_ne_true
    refine hi.ends (t := (s.setWave u w.unjoined).withMatrix w.cohort c (w.half c) fun m => { m with
        records := mapInsert m.records (f.ctl.toNat % 16) { bits := (w.src64 f.a).toNat + 1 + 2 ^ 56 * w.slot + 2 ^ 64 * c.world, releasing := false } })
      (x := w.unjoined) (rfl : _ = execObres f s) ((hbody _).trans ?_) ((State.wave_setWave ..).trans (if_pos rfl)) rfl
      ⟨Wave.sameArch_completed rfl rfl rfl .., State.sameMem_of_mem (State.retire_mem ..), _, ?_, rfl⟩
    · have hchk : (decide (c.obBytes < recBase (w.src64 f.a).toNat + recLen (w.src64 f.a).toNat) ||
          (mapFind (c.mxOf (w.half c)).records (f.ctl.toNat % 16)).isSome || (c.mxOf (w.half c)).records.any fun y => recOwner y.2.bits != w.slot &&
            overlaps (recBase (w.src64 f.a).toNat) (recLen (w.src64 f.a).toNat) (recBase y.2.bits) (recLen y.2.bits)) = false := by
        rw [hother, hfree, decide_eq_false (Nat.not_lt.2 hlen)]
        rfl
      simp only [Wave.unjoined_src64, Wave.unjoined_slot, h30]
      rw [hleg, if_neg Bool.false_ne_true, if_neg (by rw [Bool.not_eq_true]; exact hchk), State.updMatrix_eq hc']
      rfl
    · rw [State.retire_cohort]
      exact (State.cohort_setCohort ..).trans (if_pos rfl)
  · refine hends hi (rfl : _ = execObrel f s) ?_
    simp only [h30]
    rw [hr]
    dsimp only
    rw [if_neg (by simp [hown]), State.updMatrix_eq hc']
    rfl
  · refine ⟨gridWords (List.range (f.ctl.toNat / 16 % 256 + 1)) w.liveLanes (fun j i => w.width * j + i) fun j i => w.v (f.d.toNat + j) i, ?_,
      fun j i hj hi => ?_⟩
    · refine honly hi (rfl : _ = execObwr f s) ?_
      simp only [Wave.unjoined_src, Wave.unjoined_width, Wave.unjoined_slot, h30, h114]
      rw [if_neg (not_not.2 hal), hr]
      dsimp only
      rw [if_neg (by rw [decide_eq_false (Nat.not_lt.2 hlen), hown, bne_self_eq_false]; decide)]
      rfl
    · have hlt : ∀ b ∈ w.liveLanes, b < w.width := fun b hb => List.mem_range.1 (List.mem_filter.1 hb).1
      have hstep : ∀ {a a' b b'}, a < a' → b < w.width → w.width * a + b < w.width * a' + b' := fun {a a' b b'} h hb => by
        have := Nat.mul_le_mul_left w.width (Nat.succ_le_of_lt h)
        rw [Nat.mul_succ] at this
        omega
      refine (mapGet_gridWords (keysRise_gridWords (fun a a' h b hb b' _ => hstep h (hlt b hb)) (fun a b b' h => Nat.add_lt_add_left h _)
        List.pairwise_lt_range (List.pairwise_lt_range.filter _)) fun a' ha b' hb h => ?_).trans (if_congr (and_iff_right (List.mem_range.2 hj)) rfl rfl)
      rcases Nat.lt_trichotomy j a' with h' | h' | h'
      · have := hstep (b' := b') h' hi
        omega
      · subst h'
        exact ⟨rfl, by omega⟩
      · have := hstep (b' := i) h' (hlt b' hb)
        omega
  · refine honly hi (rfl : _ = execObrd f s) ?_
    simp only [Wave.unjoined_src, Wave.unjoined_width, Wave.unjoined_slot, h30, h114]
    rw [if_neg (not_not.2 hal), hr]
    dsimp only
    rw [if_neg (by rw [decide_eq_false (Nat.not_lt.2 hlen)]; simp)]
  · refine hends hi (rfl : _ = execMlds f s) ?_
    simp only [Wave.unjoined_src, h30, h54]
    rw [hr]
    dsimp only
    rw [if_neg (Nat.not_le.2 hslot), if_neg (Nat.not_lt.2 hfmt), if_neg (Nat.not_lt.2 hend), State.updMatrix_eq hc']
    rfl
  · have hchk : (fld (w.src f.a).toNat 15 11 != 0 || fld (w.src f.a).toNat 31 27 != 0 || fld (w.src f.a).toNat 26 16 == 0 ||
        decide (1024 < fld (w.src f.a).toNat 26 16)) = false := by
      have h15 : fld (w.src f.a).toNat 15 11 = 0 := h11
      have h31 : fld (w.src f.a).toNat 31 27 = 0 := by
        rw [fld, h27]
        rfl
      have h26 : fld (w.src f.a).toNat 26 16 = (w.src f.a).toNat / 65536 % 2048 := rfl
      rw [h15, h31, h26, decide_eq_false (Nat.not_lt.2 h2), beq_eq_false_iff_ne.2 (Nat.ne_of_gt h1)]
      rfl
    have hswap : bit f.ctl.toNat 6 = decide (f.ctl.toNat / 64 % 2 = 1) := rfl
    refine hends hi (rfl : _ = execMma f s) ?_
    have h26 : fld (w.src f.a).toNat 26 16 = (w.src f.a).toNat / 65536 % 2048 := rfl
    have h10 : fld (w.src f.a).toNat 10 0 = (w.src f.a).toNat % 2048 := by rw [fld, Nat.pow_zero, Nat.div_one]; rfl
    have h9 : fld (w.src f.b).toNat 9 0 = (w.src f.b).toNat % 1024 := by rw [fld, Nat.pow_zero, Nat.div_one]; rfl
    simp only [Wave.unjoined_src, h30, h54, hswap]
    rw [if_neg (by rw [Bool.not_eq_true]; exact hchk), hr]
    dsimp only
    simp only [decide_eq_true_eq, h26, h10, h9]
    generalize (if f.ctl.toNat / 64 % 2 = 1 then ((c.mxOf (w.half c)).slot (f.ctl.toNat / 16 % 4)).shadowAhead
      else ((c.mxOf (w.half c)).slot (f.ctl.toNat / 16 % 4)).activeAhead) = tag at *
    rw [if_neg (Nat.not_le.2 hslot), if_neg htag, if_neg (by rw [hpair]; decide), if_neg (Nat.not_lt.2 hend)]
    simp only [Bool.and_eq_true, beq_iff_eq]
    rw [if_neg fun h => by have := hrow h.1; omega, if_neg (Nat.not_lt.2 hacc)]
    by_cases hs : f.ctl.toNat / 64 % 2 = 1
    · simp only [if_pos hs]
      rw [State.updMatrix_eq hc']
      rfl
    · simp only [if_neg hs]
      rw [State.withMatrix, show (fun m : Matrix => m) = id from rfl, List.modify_id, show (s.setWave u w.unjoined).setCohort w.cohort c = _ from State.setCohort_self hc']
  · refine hends hi (rfl : _ = execMplane f s) ?_
    simp only [h10, h52]
    rw [if_neg (Nat.not_le.2 hslot), State.updMatrix_eq hc']
    rfl
  · refine hends hi (rfl : _ = execMswap f s) ?_
    simp only [h10]
    rw [if_neg (Nat.not_le.2 hslot), State.updMatrix_eq hc']
    rfl
  · refine honly hi (rfl : _ = execMacz f s) ?_
    simp only [Wave.unjoined_src]
    rw [hrow]
    dsimp only
    rw [if_neg (Nat.not_lt.2 hacc)]
  · have hshift : ∀ i op body, shiftIssue i f op body (s.setWave u w.readied) u w.readied =
        body { y with op := op } (w.half c) (s.setWave u w.unjoined) u w.unjoined := fun i op body => by
      refine (hbody _).trans ?_
      simp only [Wave.unjoined_src, Wave.unjoined_mode, shiftBlock_unjoined, h30, h98, h64]
      rw [hrow]
      dsimp only
      have heven' : ¬(bit f.ctl.toNat 10 && row % 2 == 1) = true := fun h => by
        obtain ⟨h1, h2⟩ := Bool.and_eq_true_iff.1 h
        have := heven h1
        simp [this] at h2
      rw [if_neg heven', if_neg (Nat.not_lt.2 hacc)]
      rcases hy with ⟨hd, rfl⟩ | ⟨hd, hal, ⟨r, hr, hlen, rfl⟩⟩ | ⟨hd, hal, hpit, hmin, hrows, rfl⟩
      · rw [hd]
        rfl
      · rw [hd]
        dsimp only
        rw [if_neg (not_not.2 hal), hr]
        dsimp only
        rw [if_neg (Nat.not_lt.2 hlen)]
        rfl
      · have hfind : ((List.range k).findSome? fun j => c.badRow ((w.src f.b).toNat + j * (w.src f.c).toNat) 32 (shiftBytes (f.ctl.toNat % 16))) = none :=
          List.findSome?_eq_none_iff.2 fun j hj => hrows j (List.mem_range.1 hj)
        rw [hd]
        dsimp only
        rw [if_neg (not_not.2 hal), if_neg (not_not.2 hal), if_neg (not_not.2 hpit), if_neg (Nat.not_lt.2 hmin), hfind]
        rfl
    have hdest : y.dest = f.ctl.toNat / 256 % 4 ∧ (f.ctl.toNat / 256 % 4 = 0 → y.pitch = shiftBlock w f ∧ y.reg = f.d.toNat) := by
      rcases hy with ⟨hd, rfl⟩ | ⟨hd, -, ⟨r, -, -, rfl⟩⟩ | ⟨hd, -, -, -, -, rfl⟩
      · exact ⟨rfl, fun h => ⟨if_pos h, if_pos h⟩⟩
      · exact ⟨rfl, fun h => absurd (hd.symm.trans h) (by decide)⟩
      · exact ⟨rfl, fun h => absurd (hd.symm.trans h) (by decide)⟩
    refine ⟨fun hi => ?_, fun hi => ?_⟩
    · refine hraw hi (rfl : _ = execMshout f s) ((hshift ..).trans ?_)
      have hregs : (if y.dest = 0 then (List.range y.pitch).map (y.reg + ·) else []) =
          if f.ctl.toNat / 256 % 4 = 0 then (List.range (shiftBlock w f)).map (f.d.toNat + ·) else [] := by
        rw [hdest.1]
        refine ite_congr rfl (fun h => ?_) fun _ => rfl
        rw [(hdest.2 h).1, (hdest.2 h).2]
      simp only [hregs, h1811]
    · refine ⟨if y.dest = 0 then gridWords w.liveLanes (List.range y.pitch) (fun i j => vkey j i) fun i j => w.v (y.reg + j) i else [],
        hraw hi (rfl : _ = execMshin f s) ((hshift ..).trans rfl), fun h0 hle j i hj => ?_⟩
      obtain ⟨hpitch, hreg⟩ := hdest.2 h0
      rw [if_pos (hdest.1.trans h0), hpitch, hreg]
      refine (mapGet_gridWords (key := fun i j => vkey j i) (keysRise_gridWords (fun a a' h b hb b' _ => ?_) (fun a b b' h => Nat.add_lt_add_left h _)
        (List.pairwise_lt_range.filter _) List.pairwise_lt_range) fun a' ha b' hb h => ?_).trans
        (if_congr (and_iff_left (List.mem_range.2 hj)) rfl rfl)
      · have := List.mem_range.1 hb
        simp only [vkey]
        omega
      · have := List.mem_range.1 hb
        simp only [vkey] at h
        omega

end

section
/-! SUPPORT. What the matrix engine does with a command (R69, R295 to R300). -/

set_option Elab.async false

namespace Sys2Proof.Machine

/-! ### Lists of equal pieces -/

section
variable {α : Type} {f : Nat → List α} {m n : Nat}

theorem length_flatMap_range (h : ∀ a, a < m → (f a).length = n) : ((List.range m).flatMap f).length = m * n := by
  induction m with
  | zero => simp
  | succ m ih =>
    rw [List.range_succ, List.flatMap_append, List.length_append, ih fun a ha => h a (by omega), List.flatMap_singleton, h m (by omega),
      Nat.succ_mul]

theorem getElem?_flatMap_range (h : ∀ a, a < m → (f a).length = n) (i : Nat) :
    ((List.range m).flatMap f)[i]? = if i < m * n then (f (i / n))[i % n]? else none := by
  induction m with
  | zero => simp
  | succ m ih =>
    have hlen := length_flatMap_range fun a ha => h a (Nat.lt_succ_of_lt ha)
    rw [List.range_succ, List.flatMap_append, List.getElem?_append, hlen, ih fun a ha => h a (by omega), List.flatMap_singleton, Nat.succ_mul]
    by_cases h1 : i < m * n
    · rw [if_pos h1, if_pos h1, if_pos (by omega)]
    · rw [if_neg h1]
      by_cases h2 : i < m * n + n
      · have hn : 0 < n := by omega
        have hdiv : i / n = m := by
          rw [Nat.div_eq_iff hn]
          have : m * n = n * m := Nat.mul_comm ..
          omega
        have hmod : i % n = i - m * n := by
          have := Nat.div_add_mod i n
          rw [hdiv, Nat.mul_comm] at this
          omega
        rw [if_pos h2, hdiv, hmod]
      · rw [if_neg h2]
        exact List.getElem?_eq_none (by rw [h m (by omega)]; omega)

end

/-! ### Commands of the queue -/

section
variable {s t : State} {core cmd op : Nat} {c x : MCmd} {k : Cohort} {w : Wave}

theorem State.mcmd_id (h : s.mcmd core cmd = some c) : c.id = cmd := by
  simpa using List.find?_some h

theorem State.readyCmd_mcmd (h : s.readyCmd core cmd op = some c) : s.mcmd core cmd = some c := by
  unfold State.readyCmd at h
  split at h
  · exact nomatch h
  next y hy =>
    dsimp only at h
    split at h
    · exact nomatch h
    · rw [hy, h]

/-- What the completion of a matrix command leaves. -/
structure State.MatrixDone (s t : State) (core : Nat) (c : MCmd) (w : Wave) : Prop where
  mem : t.mem = s.mem
  cohorts : t.cohorts = s.cohorts
  gone : t.mcmd core c.id = none
  wave : ∃ w', t.wave c.wave = some w' ∧ w'.regs = w.regs ∧ w'.tr = w.tr

/-- The queue of a core without a command. -/
def State.withoutMcmd (s : State) (core id : Nat) : State := s.updCore core fun k => { k with queue := k.queue.filter fun x => x.id != id }

theorem State.finishMatrix_eq (core : Nat) (hw : s.wave c.wave = some w) : s.finishMatrix core c =
    (s.withoutMcmd core c.id).setWave c.wave (w.completeCmd 1 c.id (c.err.map fun e => trapErr c.id e.1 e.2)) := by
  have hw' : (s.withoutMcmd core c.id).wave c.wave = some w := hw
  have h := State.updAnyWave_of_wave hw' fun w => w.completeCmd 1 c.id (c.err.map fun e => trapErr c.id e.1 e.2)
  rw [← h]
  unfold State.finishMatrix State.completeCmd State.withoutMcmd
  rfl

theorem State.finishMatrix_done (core : Nat) (hw : s.wave c.wave = some w) : s.MatrixDone (s.finishMatrix core c) core c w := by
  rw [State.finishMatrix_eq core hw]
  refine ⟨rfl, rfl, ?_, _, (State.wave_setWave ..).trans (if_pos rfl), rfl, rfl⟩
  show ((s.withoutMcmd core c.id).core core).queue.find? _ = none
  rw [State.withoutMcmd, State.core_updCore, if_pos rfl]
  refine List.find?_eq_none.2 fun x hx => ?_
  have := (List.mem_filter.1 hx).2
  simpa using this

theorem find?_updFirst_const {α : Type} {p : α → Bool} {l : List α} {x y : α} (hx : l.find? p = some x) (hy : p y = true) :
    (updFirst p (fun _ => y) l).find? p = some y := by
  induction l with
  | nil => exact nomatch hx
  | cons a l ih =>
    rw [updFirst]
    cases ha : p a with
    | true => rw [if_pos rfl, List.find?_cons, hy]
    | false =>
      rw [if_neg Bool.false_ne_true, List.find?_cons, ha]
      rw [List.find?_cons, ha] at hx
      exact ih hx

/-- What a step of a command of rows leaves: with the last row the command completes. -/
structure State.RowDone (s t : State) (core : Nat) (c : MCmd) (w : Wave) : Prop where
  mem : t.mem = s.mem
  cohorts : t.cohorts = s.cohorts
  step : (t.mcmd core c.id).map (·.step) = if c.n ≤ c.step + 1 then none else some (c.step + 1)
  wave : ∃ w', t.wave c.wave = some w' ∧ w'.regs = w.regs ∧ w'.tr = w.tr

theorem State.stepCmd_done (hw : s.wave c.wave = some w) (hc : s.mcmd core c.id = some x) : s.RowDone (s.stepCmd core c) core c w := by
  unfold State.stepCmd
  dsimp only
  split
  next h =>
    obtain ⟨hm, hcoh, hg, hwave⟩ := State.finishMatrix_done (s := s) (c := { c with step := c.step + 1, mis := 0 }) core hw
    exact ⟨hm, hcoh, by rw [if_pos h]; exact congrArg _ hg, hwave⟩
  next h =>
    refine ⟨rfl, rfl, ?_, w, hw, rfl, rfl⟩
    rw [if_neg h]
    have hf : (updFirst (fun x => x.id == c.id) (fun _ => { c with step := c.step + 1, mis := 0 }) (s.core core).queue).find? (fun x => x.id == c.id) =
        some { c with step := c.step + 1, mis := 0 } := find?_updFirst_const hc (beq_self_eq_true c.id)
    show (((s.updMcmd core c.id _).core core).queue.find? _).map _ = _
    rw [State.updMcmd, State.core_updCore, if_pos rfl, hf]
    rfl

/-! ### The stores of a cohort -/

theorem modify_eq_const (l : List Matrix) (h : Nat) (g : Matrix → Matrix) : l.modify h g = l.modify h fun _ => g (nth Matrix.clear l h) := by
  refine List.ext_getElem? fun j => ?_
  simp only [List.getElem?_modify, nth]
  by_cases hj : h = j
  · subst hj
    cases l[h]? <;> rfl
  · simp only [if_neg hj]

/-- The stores of a half have become `m'`, and of its cohort only the scratchpad may have changed beside. -/
def Cohort.Stores (k k' : Cohort) (half : Nat) (m' : Matrix) : Prop :=
  k' = { k with scratch := k'.scratch, spoiled := k'.spoiled, unfenced := k'.unfenced, mx := k.mx.modify half fun _ => m' }

theorem State.updMatrix_stores {cid half : Nat} (hk : s.cohort cid = some k) (g : Matrix → Matrix) :
    s.updMatrix cid half g = s.setCohort cid { k with mx := k.mx.modify half fun _ => g (k.mxOf half) } := by
  rw [State.updMatrix_eq hk, State.withMatrix, modify_eq_const]
  rfl

/-- A command that changes the stores once and completes. -/
theorem happens_once {i : Instr} {P : Matrix → Prop} {g : Matrix → Matrix} (hready : s.readyCmd core cmd op = some c)
    (hk : s.cohort c.cohort = some k) (hw : s.wave c.wave = some w) (hid : x.id = c.id) (hwave : x.wave = c.wave)
    (hx : exec i s = .next ((s.updMatrix c.cohort c.half g).finishMatrix core x)) (hP : P (g (k.mxOf c.half))) :
    Happens s i fun t => s.sameMem t ∧ t.mcmd core cmd = none ∧ ∃ k' m', t.cohort c.cohort = some k' ∧ P m' ∧ k.Stores k' c.half m' := by
  rw [State.updMatrix_stores hk] at hx
  have hd := State.finishMatrix_done (s := s.setCohort c.cohort { k with mx := k.mx.modify c.half fun _ => g (k.mxOf c.half) }) (c := x) (w := w) core
    (hwave ▸ hw)
  refine ⟨_, hx, State.sameMem_of_mem hd.mem, ?_, { k with mx := k.mx.modify c.half fun _ => g (k.mxOf c.half) }, _, ?_, hP, rfl⟩
  · rw [← State.mcmd_id (State.readyCmd_mcmd hready), ← hid]
    exact hd.gone
  · rw [State.cohort, hd.cohorts]
    exact (State.cohort_setCohort ..).trans (if_pos rfl)

end

/-! ### The operand buffer and the planes -/

section
variable (m : Matrix)

theorem Matrix.obWrite_get (a : Nat) (bs : List Byte) (b : Nat) :
    mapGet 0 (m.obWrite a bs).ob b = if a ≤ b ∧ b < a + bs.length then nth 0 bs (b - a) else mapGet 0 m.ob b :=
  mapGet_putRun 0 a bs 0 m.ob b

theorem Matrix.slot_updSlot (i : Nat) (f : Slot → Slot) : (m.updSlot i f).slot i = f (m.slot i) :=
  (mapGet_mapPut ..).trans (if_pos rfl)

theorem Slot.plane_setPlane (x : Slot) (p : Nat) (new : Plane) : (x.setPlane p new).plane p = new := by
  unfold Slot.setPlane Slot.plane
  split
  · rfl
  · rfl

theorem Slot.plane_setPlane_ne (x : Slot) {p q : Nat} (new : Plane) (hp : p < 2) (hq : q < 2) (h : q ≠ p) :
    (x.setPlane p new).plane q = x.plane q := by
  have hpq : (q == 1) = !(p == 1) := by
    rcases (show p = 0 ∧ q = 1 ∨ p = 1 ∧ q = 0 by omega) with ⟨rfl, rfl⟩ | ⟨rfl, rfl⟩ <;> rfl
  unfold Slot.setPlane Slot.plane
  rw [hpq]
  cases (p == 1) <;> cases hx : x.turned <;> rfl

/-- Bytes put down one after another from the start of an empty store. -/
theorem mapGet_putAll (bs : List Byte) (a : Nat) : mapGet 0 ((bs.zipIdx).foldl (fun m b => mapPut 0 m b.2 b.1) []) a = nth 0 bs a := by
  have h := mapGet_putRun (0 : Byte) 0 bs 0 [] a
  simp only [Nat.zero_add, Nat.zero_le, true_and, Nat.sub_zero] at h
  rw [h]
  split
  · rfl
  next hn =>
    rw [nth, List.getElem?_eq_none (by omega)]
    rfl

/-- The bytes of a row of codes: each code is a little-endian element. -/
theorem nth_flatMap_natLe {n e : Nat} (v : Nat → Nat) (he : 0 < e) (i : Nat) :
    nth 0 ((List.range n).flatMap fun j => natLe e (v j)) i = if i < n * e then BitVec.ofNat 8 (v (i / e) / 256 ^ (i % e)) else 0 := by
  rw [nth, getElem?_flatMap_range fun a _ => length_natLe e (v a)]
  split
  · exact nth_natLe e (v (i / e)) (i % e) (Nat.mod_lt i he)
  · rfl

/-- Bytes of a record put down as a plane. -/
theorem mapGet_putSources (ob : List (Nat × Byte)) (base : Nat) (src : List Nat) (a : Nat) :
    mapGet 0 ((src.zipIdx).foldl (fun x o => mapPut 0 x o.2 (mapGet 0 ob (base + o.1))) []) a =
      match src[a]? with
      | some x => mapGet 0 ob (base + x)
      | none => 0 := by
  have h := mapGet_putAll (src.map fun x => mapGet 0 ob (base + x)) a
  rw [List.zipIdx_map, List.foldl_map] at h
  refine h.trans ?_
  rw [nth, List.getElem?_map]
  cases src[a]? <;> rfl

theorem elemBytes_dvd (fmt : Nat) : 0 < elemBytes fmt ∧ elemBytes fmt ∣ 256 := by
  unfold elemBytes
  split <;> decide

/-- The bytes of the identity: code 1 where row and column agree. -/
theorem nth_identity (e one a : Nat) (he : 0 < e) (hd : e ∣ 256) :
    nth 0 ((List.range 32).flatMap fun col => (List.range (256 / e)).flatMap fun kk => natLe e (if kk % 32 = col then one else 0)) a =
      if a < 8192 ∧ a / 256 = a % 256 / e % 32 then BitVec.ofNat 8 (one / 256 ^ (a % e)) else 0 := by
  have hlen : ∀ col, col < 32 → ((List.range (256 / e)).flatMap fun kk => natLe e (if kk % 32 = col then one else 0)).length = 256 := fun col _ => by
    rw [length_flatMap_range fun a _ => length_natLe e _, Nat.div_mul_cancel hd]
  rw [nth, getElem?_flatMap_range hlen]
  by_cases ha : a < 8192
  · rw [if_pos (by omega)]
    have h := nth_flatMap_natLe (n := 256 / e) (fun kk => if kk % 32 = a / 256 then one else 0) he (a % 256)
    rw [nth, Nat.div_mul_cancel hd, if_pos (Nat.mod_lt _ (by decide)), Nat.mod_mod_of_dvd _ hd] at h
    rw [h]
    by_cases h1 : a % 256 / e % 32 = a / 256
    · rw [if_pos h1, if_pos ⟨ha, h1.symm⟩]
    · rw [if_neg h1, if_neg fun h2 => h1 h2.2.symm, Nat.zero_div]
      rfl
  · rw [if_neg (by omega), if_neg fun h => ha h.1]
    rfl

end

/-! ### Registers that the engine writes -/

section
variable {w y z : Wave}

/-- Of a wave only vector registers have changed. -/
def Wave.OnlyV (w y : Wave) : Prop := y = { w with regs := { w.regs with v := y.regs.v, vpoison := y.regs.vpoison } }

theorem Wave.OnlyV.refl (w : Wave) : w.OnlyV w := rfl

theorem Wave.OnlyV.trans (h : w.OnlyV y) (h' : y.OnlyV z) : w.OnlyV z := by
  unfold Wave.OnlyV at h h' ⊢
  rw [h', h]

theorem Wave.OnlyV.putV (h : w.OnlyV y) (r i : Nat) (x : Word) (bad : Bool) : w.OnlyV (y.putV r i x bad) := by
  refine h.trans ?_
  cases bad <;> rfl

theorem Wave.OnlyV.s (h : w.OnlyV y) (r : Nat) : y.s r = w.s r := by rw [h]; rfl
theorem Wave.OnlyV.width (h : w.OnlyV y) : y.width = w.width := by rw [h]; rfl
theorem Wave.OnlyV.liveLanes (h : w.OnlyV y) : y.liveLanes = w.liveLanes := by rw [h]; rfl
theorem Wave.OnlyV.liveBit (h : w.OnlyV y) (i : Nat) : y.liveBit i = w.liveBit i := by rw [h]; rfl
theorem Wave.OnlyV.k (h : w.OnlyV y) : y.k = w.k := by rw [h]

theorem Wave.v_putV (y : Wave) (r i : Nat) (x : Word) (bad : Bool) (q j : Nat) :
    (y.putV r i x bad).v q j = if vkey q j = vkey r i then x else y.v q j := by
  rw [← Wave.v_setV]
  cases bad <;> rfl

/-- A run of lanes of one register is written, each with a word of its own. -/
theorem Wave.putRow {f : Wave → Nat → Wave} {R : Nat} (hR : R < 256) (x : Nat → Word) (L : List Nat) (hy : w.OnlyV y)
    (hf : ∀ z i, w.OnlyV z → ∃ bad, f z i = z.putV R i (x i) bad) :
    w.OnlyV (L.foldl f y) ∧ ∀ q j, q < 256 → (L.foldl f y).v q j = if q = R ∧ j ∈ L then x j else y.v q j := by
  induction L generalizing y with
  | nil => exact ⟨hy, fun q j _ => (if_neg fun h => List.not_mem_nil h.2).symm⟩
  | cons i L ih =>
    obtain ⟨bad, hi⟩ := hf y i hy
    obtain ⟨h1, h2⟩ := ih (hi ▸ hy.putV R i (x i) bad)
    refine ⟨h1, fun q j hq => (h2 q j hq).trans ?_⟩
    rw [hi, Wave.v_putV]
    by_cases hm : q = R ∧ j ∈ L
    · rw [if_pos hm, if_pos ⟨hm.1, List.mem_cons_of_mem _ hm.2⟩]
    · rw [if_neg hm]
      by_cases hv : q = R ∧ j = i
      · rw [if_pos ((vkey_inj hq hR).2 hv), if_pos ⟨hv.1, hv.2 ▸ List.mem_cons_self⟩, hv.2]
      · rw [if_neg fun h => hv ((vkey_inj hq hR).1 h), if_neg]
        rintro ⟨h1, h2⟩
        rcases List.mem_cons.1 h2 with h2 | h2
        · exact hv ⟨h1, h2⟩
        · exact hm ⟨h1, h2⟩

/-- A block of registers is written, lane by lane. -/
theorem Wave.putBlock {f : Wave → Nat → Wave} {R n : Nat} (hR : R + n ≤ 256) (x : Nat → Nat → Word) (L : List Nat)
    (hf : ∀ z j, j < n → w.OnlyV z → w.OnlyV (f z j) ∧ ∀ q i, q < 256 → (f z j).v q i = if q = R + j ∧ i ∈ L then x j i else z.v q i) :
    w.OnlyV ((List.range n).foldl f w) ∧ ∀ q i, q < 256 →
      ((List.range n).foldl f w).v q i = if R ≤ q ∧ q < R + n ∧ i ∈ L then x (q - R) i else w.v q i := by
  induction n with
  | zero => exact ⟨rfl, fun q i _ => (if_neg fun h => by omega).symm⟩
  | succ n ih =>
    obtain ⟨h1, h2⟩ := ih (by omega) fun z j hj => hf z j (by omega)
    rw [List.range_succ, List.foldl_append]
    obtain ⟨h3, h4⟩ := hf _ n (by omega) h1
    refine ⟨h3, fun q i hq => (h4 q i hq).trans ?_⟩
    rw [h2 q i hq]
    by_cases hm : q = R + n ∧ i ∈ L
    · rw [if_pos hm, if_pos ⟨by omega, by omega, hm.2⟩, hm.1, Nat.add_sub_cancel_left]
    · rw [if_neg hm]
      refine if_congr ⟨fun h => ⟨h.1, by omega, h.2.2⟩, fun h => ⟨h.1, ?_, h.2.2⟩⟩ rfl rfl
      by_contra hne
      exact hm ⟨by omega, h.2.2⟩

end

end Sys2Proof.Machine

end

section
/-! SUPPORT. The rows of the matrix engine: accumulators, and what MSHOUT and MSHIN move (R298 to R300). -/

set_option Elab.async false

namespace Sys2Proof.Machine

/-! ### Accumulator rows -/

section
variable (m : Matrix)

theorem Matrix.accWord_setAcc {row col row' col' : Nat} (x : Word) (bad : Bool) (h : col < 32) (h' : col' < 32) :
    (m.setAcc row col x bad).accWord row' col' = if row' = row ∧ col' = col then x else m.accWord row' col' := by
  refine (mapGet_mapPut ..).trans (if_congr ?_ rfl rfl)
  unfold accKey
  omega

/-- The accumulator words after the first columns of a row, or of a pair of rows, have been written. -/
theorem Matrix.accWord_row {f : Matrix → Nat → Matrix} {f64 : Bool} {r : Nat} {v : Nat → Nat} (hf : ∀ m col, ∃ bad, f m col = m.setAccOf f64 r col (v col) bad)
    {n : Nat} (hn : n ≤ 32) {r' col : Nat} (hcol : col < 32) :
    ((List.range n).foldl f m).accWord r' col =
      if col < n ∧ r' = r then BitVec.ofNat 32 (v col)
      else if col < n ∧ f64 = true ∧ r' = r + 1 then BitVec.ofNat 32 (v col / 2 ^ 32) else m.accWord r' col := by
  induction n with
  | zero => rw [if_neg fun h => absurd h.1 (Nat.not_lt_zero _), if_neg fun h => absurd h.1 (Nat.not_lt_zero _)]; rfl
  | succ n ih =>
    obtain ⟨bad, hb⟩ := hf ((List.range n).foldl f m) n
    rw [List.range_succ, List.foldl_append, List.foldl_cons, List.foldl_nil, hb]
    unfold Matrix.setAccOf
    dsimp only
    cases f64 with
    | false =>
      rw [if_neg Bool.false_ne_true, Matrix.accWord_setAcc _ _ _ (by omega) hcol, ih (by omega)]
      by_cases h1 : r' = r ∧ col = n
      · rw [if_pos h1, if_pos ⟨by omega, h1.1⟩, h1.2]
      · rw [if_neg h1, if_congr (show col < n ∧ r' = r ↔ col < n + 1 ∧ r' = r by omega) rfl rfl]
        simp
    | true =>
      rw [if_pos rfl, Matrix.accWord_setAcc _ _ _ (by omega) hcol, Matrix.accWord_setAcc _ _ _ (by omega) hcol, ih (by omega)]
      by_cases h1 : r' = r + 1 ∧ col = n
      · rw [if_pos h1, if_neg (by omega), if_pos ⟨by omega, rfl, h1.1⟩, h1.2]
      · rw [if_neg h1]
        by_cases h2 : r' = r ∧ col = n
        · rw [if_pos h2, if_pos ⟨by omega, h2.1⟩, h2.2]
        · rw [if_neg h2, if_congr (show col < n ∧ r' = r ↔ col < n + 1 ∧ r' = r by omega) rfl rfl,
            if_congr (show col < n ∧ true = true ∧ r' = r + 1 ↔ col < n + 1 ∧ true = true ∧ r' = r + 1 by simp only [true_and]; omega) rfl rfl]

/-- A row, or a pair of rows, whose columns have all been written. -/
theorem Matrix.accOf_row {f : Matrix → Nat → Matrix} {f64 : Bool} {r : Nat} {v : Nat → Nat} (hf : ∀ m col, ∃ bad, f m col = m.setAccOf f64 r col (v col) bad) :
    (∀ col, col < 32 → ((List.range 32).foldl f m).accOf f64 r col = v col % 2 ^ (if f64 then 64 else 32)) ∧
    ∀ r' col, col < 32 → r' ≠ r → ¬(f64 = true ∧ r' = r + 1) → ((List.range 32).foldl f m).accWord r' col = m.accWord r' col := by
  refine ⟨fun col hcol => ?_, fun r' col hcol hr hr' => ?_⟩
  · have hlo := m.accWord_row hf (Nat.le_refl 32) (r' := r) hcol
    have hhi := m.accWord_row hf (Nat.le_refl 32) (r' := r + 1) hcol
    rw [if_pos ⟨hcol, rfl⟩] at hlo
    rw [if_neg (by omega)] at hhi
    unfold Matrix.accOf
    rw [hlo]
    cases f64 with
    | false => rfl
    | true =>
      rw [if_pos ⟨hcol, rfl, rfl⟩] at hhi
      rw [hhi, if_pos rfl, if_pos rfl, BitVec.toNat_append, BitVec.toNat_ofNat, BitVec.toNat_ofNat,
        ← Nat.shiftLeft_add_eq_or_of_lt (Nat.mod_lt _ (by decide)), Nat.shiftLeft_eq]
      omega
  · rw [m.accWord_row hf (Nat.le_refl 32) hcol, if_neg fun h => hr h.2, if_neg fun h => hr' h.2]

end

/-! ### A row at a time -/

section
variable {s t r : State} {core cmd op u : Nat} {c x : MCmd} {k : Cohort} {w y : Wave}

/-- Nothing that a command has to do with has changed but its cohort's stores and its wave's registers. -/
structure State.Works (s t : State) (u : Nat) : Prop where
  mem : t.mem = s.mem
  cores : t.cores = s.cores
  wave : ∀ w, s.wave u = some w → ∃ y, t.wave u = some y

theorem State.Works.refl (s : State) (u : Nat) : s.Works s u := ⟨rfl, rfl, fun w h => ⟨w, h⟩⟩

theorem State.Works.trans (h : s.Works t u) (h' : t.Works r u) : s.Works r u :=
  ⟨h'.mem.trans h.mem, h'.cores.trans h.cores, fun w hw => (h.wave w hw).elim h'.wave⟩

theorem State.works_updAnyWave (hw : s.wave u = some w) (f : Wave → Wave) : s.Works (s.updAnyWave u f) u := by
  rw [State.updAnyWave_of_wave hw]
  exact ⟨rfl, rfl, fun _ _ => ⟨_, (State.wave_setWave ..).trans (if_pos rfl)⟩⟩

theorem State.works_updCohort (cid : Nat) (f : Cohort → Cohort) : s.Works (s.updCohort cid f) u := by
  unfold State.updCohort
  split <;> exact ⟨rfl, rfl, fun w h => ⟨w, h⟩⟩

theorem State.works_foldl {α : Type} {f : State → α → State} (hf : ∀ (t : State) a, (t.wave u).isSome = true → t.Works (f t a) u) (l : List α)
    (hw : (s.wave u).isSome = true) : s.Works (l.foldl f s) u := by
  induction l generalizing s with
  | nil => exact .refl s u
  | cons a l ih =>
    have h := hf s a hw
    obtain ⟨w, hw⟩ := Option.isSome_iff_exists.1 hw
    obtain ⟨y, hy⟩ := h.wave w hw
    exact h.trans (ih (by rw [hy]; rfl))

theorem MCmd.note_none (c : MCmd) : c.note none = c := by
  unfold MCmd.note
  cases c with
  | mk => simp

theorem State.matrixFlags_zero (s : State) (c : MCmd) : s.matrixFlags c 0 = s := if_pos rfl

/-- Flags of a batch change neither registers nor stores. -/
theorem State.matrixFlags_spec (hw : s.wave c.wave = some w) (fl : Nat) :
    s.Works (s.matrixFlags c fl) c.wave ∧ (s.matrixFlags c fl).cohorts = s.cohorts ∧
      ∃ y, (s.matrixFlags c fl).wave c.wave = some y ∧ y.regs = w.regs ∧ y.tr = w.tr := by
  unfold State.matrixFlags
  split
  · exact ⟨.refl s _, rfl, w, hw, rfl, rfl⟩
  · refine ⟨State.works_updAnyWave hw _, ?_, ?_⟩ <;> rw [State.updAnyWave_of_wave hw]
    · rfl
    · exact ⟨_, (State.wave_setWave ..).trans (if_pos rfl), rfl, rfl⟩

/-- A command that has done one more row. -/
theorem happens_row {i : Instr} {P : State → Prop} (hready : s.readyCmd core cmd op = some c) (hw : s.wave c.wave = some w) (ht : s.Works t c.wave)
    (fl : Nat) (bad : Option DWord) (hx : exec i s = .next ((t.matrixFlags c fl).stepCmd core (c.note bad)))
    (hP : ∀ (r : State) (y' y : Wave), r.cohorts = t.cohorts → t.wave c.wave = some y → r.wave c.wave = some y' → y'.regs = y.regs → P r) :
    Happens s i fun t => s.sameMem t ∧ (t.mcmd core cmd).map (·.step) = (if c.n ≤ c.step + 1 then none else some (c.step + 1)) ∧ P t := by
  obtain rfl := State.mcmd_id (State.readyCmd_mcmd hready)
  obtain ⟨y, hy⟩ := ht.wave w hw
  obtain ⟨hworks, hcoh, y₁, hy₁, hregs₁, -⟩ := State.matrixFlags_spec (c := c) hy fl
  have hq : (t.matrixFlags c fl).mcmd core c.id = some c := by
    rw [State.mcmd, State.core, (ht.trans hworks).cores]
    exact State.readyCmd_mcmd hready
  have hd := State.stepCmd_done (s := t.matrixFlags c fl) (core := core) (c := c.note bad) (x := c) hy₁ hq
  obtain ⟨y₂, hy₂, hregs₂, -⟩ := hd.wave
  exact ⟨_, hx, State.sameMem_of_mem (hd.mem.trans (ht.trans hworks).mem), hd.step, hP _ y₂ y (hd.cohorts.trans hcoh) hy hy₂ (hregs₂.trans hregs₁)⟩

/-- A row that changes the stores: the whole of what it does to them. -/
theorem happens_rowStores {i : Instr} {P : Matrix → Prop} {m' : Matrix} (hready : s.readyCmd core cmd op = some c) (hw : s.wave c.wave = some w)
    (ht : s.Works t c.wave) (fl : Nat) (bad : Option DWord) (hx : exec i s = .next ((t.matrixFlags c fl).stepCmd core (c.note bad)))
    {k' : Cohort} (hk' : t.cohort c.cohort = some k') (hs : k.Stores k' c.half m') (hP : P m') :
    Happens s i fun t => s.sameMem t ∧ (t.mcmd core cmd).map (·.step) = (if c.n ≤ c.step + 1 then none else some (c.step + 1)) ∧
      ∃ k' m', t.cohort c.cohort = some k' ∧ P m' ∧ k.Stores k' c.half m' :=
  happens_row hready hw ht fl bad hx fun r _ _ hr _ _ _ => ⟨k', m', by rw [State.cohort, hr]; exact hk', hP, hs⟩

theorem modify_modify_const (l : List Matrix) (h : Nat) (f : Matrix → Matrix) (m' : Matrix) :
    (l.modify h f).modify h (fun _ => m') = l.modify h fun _ => m' := List.modify_modify_eq ..

theorem Cohort.Stores.trans {k₁ k₂ : Cohort} {half : Nat} {m₁ m₂ : Matrix} (h : k.Stores k₁ half m₁) (h' : k₁.Stores k₂ half m₂) :
    k.Stores k₂ half m₂ := by
  unfold Cohort.Stores at h h' ⊢
  rw [h', h, modify_modify_const]

/-- The stores of a half, once they have become `m'`; a half that is not there has none. -/
theorem Cohort.Stores.mxOf {k' : Cohort} {half : Nat} {m' : Matrix} (h : k.Stores k' half m') :
    k'.mxOf half = m' ∨ k'.mxOf half = Matrix.clear ∧ k.mxOf half = Matrix.clear := by
  unfold Cohort.Stores at h
  rw [Cohort.mxOf, Cohort.mxOf, h, nth, nth, List.getElem?_modify_eq]
  cases k.mx[half]? with
  | none => exact Or.inr ⟨rfl, rfl⟩
  | some m => exact Or.inl rfl

theorem State.updMatrix_spec {cid half : Nat} (hk : s.cohort cid = some k) (g : Matrix → Matrix) :
    ∃ k', (s.updMatrix cid half g).cohort cid = some k' ∧ k.Stores k' half (g (k.mxOf half)) := by
  rw [State.updMatrix_stores hk]
  exact ⟨_, (State.cohort_setCohort ..).trans (if_pos rfl), rfl⟩

end

/-- What a fold does to a part of what it carries. -/
theorem foldl_part {α β γ : Type} {f : α → γ → α} {g : β → γ → β} {π : α → β} {inv : α → Prop} (hinv : ∀ x c, inv x → inv (f x c))
    (h : ∀ x c, inv x → π (f x c) = g (π x) c) (l : List γ) {x : α} (hx : inv x) : π (l.foldl f x) = l.foldl g (π x) := by
  induction l generalizing x with
  | nil => rfl
  | cons c l ih => rw [List.foldl_cons, List.foldl_cons, ih (hinv x c hx), h x c hx]

section
variable {s t : State} {u cid half : Nat} {c : MCmd} {k k₁ : Cohort} {w : Wave} {α : Type}

theorem Cohort.modify_mxOf (k : Cohort) (half : Nat) : k.mx.modify half (fun _ => k.mxOf half) = k.mx := by
  have := modify_eq_const k.mx half id
  rw [List.modify_id] at this
  exact this.symm

theorem Cohort.Stores.refl (k : Cohort) (half : Nat) : k.Stores k half (k.mxOf half) := by
  unfold Cohort.Stores
  rw [Cohort.modify_mxOf]

/-- A further change of the stores of a half. -/
theorem Cohort.Stores.updMatrix {m₁ : Matrix} (hk : s.cohort cid = some k₁) (h : k.Stores k₁ half m₁) (g : Matrix → Matrix) :
    ∃ k₂, (s.updMatrix cid half g).cohort cid = some k₂ ∧ k.Stores k₂ half (g m₁) := by
  rw [State.updMatrix_eq hk]
  refine ⟨{ k₁ with mx := k₁.mx.modify half g }, (State.cohort_setCohort ..).trans (if_pos rfl), ?_⟩
  unfold Cohort.Stores at h ⊢
  rw [h, List.modify_modify_eq]
  rfl

theorem Cohort.Stores.foldl {m₁ : Matrix} (hk : s.cohort cid = some k₁) (h : k.Stores k₁ half m₁) (g : α → Matrix → Matrix) (l : List α) :
    ∃ k₂, (l.foldl (fun s a => s.updMatrix cid half (g a)) s).cohort cid = some k₂ ∧ k.Stores k₂ half (l.foldl (fun m a => g a m) m₁) := by
  induction l generalizing s k₁ m₁ with
  | nil => exact ⟨k₁, hk, h⟩
  | cons a l ih =>
    obtain ⟨k₂, hk₂, h₂⟩ := h.updMatrix hk (g a)
    exact ih hk₂ h₂

theorem State.foldl_updAnyWave (hw : s.wave u = some w) (g : α → Wave → Wave) (l : List α) :
    l.foldl (fun s a => s.updAnyWave u (g a)) s = s.setWave u (l.foldl (fun w a => g a w) w) := by
  induction l generalizing s w with
  | nil => exact (State.setWave_self hw).symm
  | cons a l ih =>
    rw [List.foldl_cons, List.foldl_cons, State.updAnyWave_of_wave hw, ih ((State.wave_setWave ..).trans (if_pos rfl)), State.setWave_setWave]

theorem State.foldl_updCohort (hk : s.cohort cid = some k) (g : α → Cohort → Cohort) (l : List α) :
    (l.foldl (fun s a => s.updCohort cid (g a)) s).cohort cid = some (l.foldl (fun k a => g a k) k) := by
  induction l generalizing s k with
  | nil => exact hk
  | cons a l ih =>
    refine ih (s := s.updCohort cid (g a)) ?_
    rw [State.updCohort_of_some hk]
    exact (State.cohort_setCohort ..).trans (if_pos rfl)

/-! ### What MSHOUT lands -/

theorem State.drawFor_works (hw : (s.wave c.wave).isSome = true) (lane : Nat) :
    s.Works (s.drawFor c lane).2 c.wave ∧ (s.drawFor c lane).2.cohorts = s.cohorts := by
  obtain ⟨w, hw⟩ := Option.isSome_iff_exists.1 hw
  unfold State.drawFor
  rw [show s.anyWave c.wave = some w by rw [State.anyWave, hw]; rfl]
  dsimp only
  refine ⟨State.works_updAnyWave hw _, ?_⟩
  rw [State.updAnyWave_of_wave hw]
  rfl

/-- Nothing is drawn in the modes other than SR. -/
theorem State.drawFor_of_mode (hw : (s.wave c.wave).isSome = true) (hrm : c.rm ≠ 5) (lane : Nat) : s.drawFor c lane = (0, s) := by
  obtain ⟨w, hw⟩ := Option.isSome_iff_exists.1 hw
  have hdraw : w.drawLive c.rm lane = (0, w) := by
    rw [Wave.drawLive, if_neg (by simp [hrm]), Wave.draw, if_neg hrm]
  unfold State.drawFor
  rw [show s.anyWave c.wave = some w by rw [State.anyWave, hw]; rfl]
  dsimp only
  rw [hdraw, State.updAnyWave_of_wave hw, State.setWave_self hw]

theorem State.landOut_works (hw : (s.wave c.wave).isSome = true) (i col v : Nat) (bad : Bool) : s.Works (s.landOut c i col v bad) c.wave := by
  obtain ⟨w, hw⟩ := Option.isSome_iff_exists.1 hw
  unfold State.landOut
  dsimp only
  split
  · exact State.works_updAnyWave hw _
  · exact State.works_updCohort ..
  · exact State.works_updCohort ..

theorem State.freshRow_works (s : State) (c : MCmd) (i : Nat) : s.Works (s.freshRow c i) c.wave := by
  unfold State.freshRow
  dsimp only
  split
  · exact .refl ..
  · exact State.works_updCohort ..
  · exact State.works_updCohort ..

/-- Elements of a run, little-endian, one after another. -/
theorem run_of_elements {G : Nat → Nat → Byte} {A e : Nat} {v : Nat → Nat} (he : 0 < e)
    (hstep : ∀ n a, G (n + 1) a = if A + n * e ≤ a ∧ a < A + n * e + e then nth 0 (natLe e (v n)) (a - (A + n * e)) else G n a) (n a : Nat) :
    G n a = if A ≤ a ∧ a < A + n * e then BitVec.ofNat 8 (v ((a - A) / e) / 256 ^ ((a - A) % e)) else G 0 a := by
  induction n with
  | zero => rw [if_neg (by omega)]
  | succ n ih =>
    rw [hstep, ih, Nat.succ_mul]
    by_cases h1 : A + n * e ≤ a ∧ a < A + n * e + e
    · have hd : a - A = n * e + (a - (A + n * e)) := by omega
      have hlt : a - (A + n * e) < e := by omega
      rw [if_pos h1, if_pos (by omega), nth_natLe _ _ _ hlt, hd]
      generalize a - (A + n * e) = d at hlt
      rw [Nat.mul_comm n e, Nat.mul_add_div he, Nat.div_eq_of_lt hlt, Nat.mul_add_mod,
        Nat.mod_eq_of_lt hlt, Nat.add_zero]
    · rw [if_neg h1]
      exact if_congr (by omega) rfl rfl

/-- The state in which a row of MSHOUT has landed, under a mode that draws nothing. -/
def State.landRow (s : State) (c : MCmd) (v : Nat → Nat) (bad : Nat → Bool) : State :=
  (List.range 32).foldl (fun s col => s.landOut c c.step col (v col) (bad col)) (s.freshRow c c.step)

/-- A row of MSHOUT: the state before its accumulators are cleared, and the flags. -/
def mshoutFold (c : MCmd) (m : Matrix) (row : Nat) (s : State) : State × Nat :=
  (List.range 32).foldl (fun (r : State × Nat) col =>
    let lane := if c.dest = 0 then 32 * (c.step % c.k) + col else col
    let (u, s) := r.1.drawFor c lane
    let (v, fl) := shiftOut c u (m.accOf c.f2 row col)
    (s.landOut c c.step col v (m.accSpoiled c.f2 row col), r.2 ||| fl)) (s.freshRow c c.step, 0)

theorem mshoutFold_works (hw : (s.wave c.wave).isSome = true) (m : Matrix) (row : Nat) : s.Works (mshoutFold c m row s).1 c.wave := by
  obtain ⟨w, hw⟩ := Option.isSome_iff_exists.1 hw
  have hex : ∀ r : State, s.Works r c.wave → (r.wave c.wave).isSome = true := fun r h => by
    obtain ⟨y, hy⟩ := h.wave w hw
    rw [hy]
    rfl
  refine foldl_keeps (fun r : State × Nat => s.Works r.1 c.wave) _ (fun r col h => ?_) _ _ (s.freshRow_works c c.step)
  have hd := (State.drawFor_works (c := c) (hex r.1 h) (if c.dest = 0 then 32 * (c.step % c.k) + col else col)).1
  exact (h.trans hd).trans (State.landOut_works (hex _ (h.trans hd)) ..)

theorem mshoutFold_of_mode (hw : (s.wave c.wave).isSome = true) (hrm : c.rm ≠ 5) (m : Matrix) (row : Nat) :
    (mshoutFold c m row s).1 = s.landRow c (fun col => (shiftOut c 0 (m.accOf c.f2 row col)).1) fun col => m.accSpoiled c.f2 row col := by
  obtain ⟨w, hw⟩ := Option.isSome_iff_exists.1 hw
  have hex : ∀ r : State, s.Works r c.wave → (r.wave c.wave).isSome = true := fun r h => by
    obtain ⟨y, hy⟩ := h.wave w hw
    rw [hy]
    rfl
  refine foldl_part (π := (·.1)) (inv := fun r : State × Nat => s.Works r.1 c.wave) (fun r col h => ?_) (fun r col h => ?_) _
    (x := (s.freshRow c c.step, 0)) (s.freshRow_works c c.step)
  · have hd := (State.drawFor_works (c := c) (hex r.1 h) (if c.dest = 0 then 32 * (c.step % c.k) + col else col)).1
    exact (h.trans hd).trans (State.landOut_works (hex _ (h.trans hd)) ..)
  · dsimp only
    rw [State.drawFor_of_mode (hex r.1 h) hrm]

/-- A row of MSHOUT whose accumulators are then cleared, or not. -/
def State.clearedRow (s : State) (c : MCmd) (row : Nat) : State :=
  if c.f3 then s.updMatrix c.cohort c.half fun m => (List.range 32).foldl (fun m col => m.setAccOf c.f2 row col 0 false) m else s

theorem State.clearedRow_works (s : State) (c : MCmd) (row : Nat) : s.Works (s.clearedRow c row) c.wave := by
  unfold State.clearedRow
  split
  · exact State.works_updCohort ..
  · exact .refl ..

theorem State.clearedRow_wave (s : State) (c : MCmd) (row u : Nat) : (s.clearedRow c row).wave u = s.wave u := by
  unfold State.clearedRow
  split
  · unfold State.updMatrix State.updCohort
    split <;> rfl
  · rfl

theorem State.clearedRow_stores {m₁ : Matrix} (hk : s.cohort c.cohort = some k₁) (h : k.Stores k₁ c.half m₁) (row : Nat) :
    ∃ k₂ m₂, (s.clearedRow c row).cohort c.cohort = some k₂ ∧ k.Stores k₂ c.half m₂ ∧ m₂.ob = m₁.ob := by
  unfold State.clearedRow
  split
  · obtain ⟨k₂, hk₂, hs⟩ := h.updMatrix hk fun m => (List.range 32).foldl (fun m col => m.setAccOf c.f2 row col 0 false) m
    refine ⟨k₂, _, hk₂, hs, foldl_keeps (fun m : Matrix => m.ob = m₁.ob) _ (fun m col hm => ?_) _ _ rfl⟩
    unfold Matrix.setAccOf
    dsimp only
    split <;> exact hm
  · exact ⟨k₁, m₁, hk, h, rfl⟩

theorem State.clearedRow_scratch (hk : s.cohort c.cohort = some k) (row : Nat) :
    ∃ k₂, (s.clearedRow c row).cohort c.cohort = some k₂ ∧ k₂.scratch = k.scratch := by
  unfold State.clearedRow
  split
  · rw [State.updMatrix_eq hk]
    exact ⟨_, (State.cohort_setCohort ..).trans (if_pos rfl), rfl⟩
  · exact ⟨k, hk, rfl⟩

theorem exec_mshoutRow {core cmd : Nat} (hready : s.readyCmd core cmd 0xA9 = some c) (hk : s.cohort c.cohort = some k) (hl : c.lostRow k = none) :
    ∃ bad, exec (.mshoutRow core cmd) s = .next (((((mshoutFold c (k.mxOf c.half) (c.row + c.step * (if c.f2 then 2 else 1)) s).1.clearedRow c
      (c.row + c.step * (if c.f2 then 2 else 1))).matrixFlags c
        (mshoutFold c (k.mxOf c.half) (c.row + c.step * (if c.f2 then 2 else 1)) s).2).stepCmd core (c.note bad))) := by
  refine ⟨if (List.range 32).any fun col => (k.mxOf c.half).accSpoiled c.f2 (c.row + c.step * (if c.f2 then 2 else 1)) col then some allOnes else none, ?_⟩
  show execMshoutRow core cmd s = _
  unfold execMshoutRow
  rw [hready]
  dsimp only
  rw [hk]
  dsimp only
  rw [hl]
  exact rfl

/-- A row lands in the operand buffer. -/
theorem State.landRow_ob (hk : s.cohort c.cohort = some k) (hd : c.dest = 1) (v : Nat → Nat) (bad : Nat → Bool) :
    ∃ k₂ m₂, (s.landRow c v bad).cohort c.cohort = some k₂ ∧ k.Stores k₂ c.half m₂ ∧ ∀ a, mapGet 0 m₂.ob a =
      if recBase c.recBits + c.x + 32 * c.step * shiftBytes c.fmt ≤ a ∧ a < recBase c.recBits + c.x + 32 * c.step * shiftBytes c.fmt + 32 * shiftBytes c.fmt
      then BitVec.ofNat 8 (v ((a - (recBase c.recBits + c.x + 32 * c.step * shiftBytes c.fmt)) / shiftBytes c.fmt) /
        256 ^ ((a - (recBase c.recBits + c.x + 32 * c.step * shiftBytes c.fmt)) % shiftBytes c.fmt)) else mapGet 0 (k.mxOf c.half).ob a := by
  let g := fun (col : Nat) (m : Matrix) =>
    let a := recBase c.recBits + c.x + (32 * c.step + col) * shiftBytes c.fmt
    let m := m.obWrite a (natLe (shiftBytes c.fmt) (v col))
    if bad col then { m with obPoison := ((List.range ((a + shiftBytes c.fmt - 1) / 4 + 1 - a / 4)).map (a / 4 + ·)).foldl (fun l k => insNat k l) m.obPoison } else m
  have hland : ∀ s : State, (List.range 32).foldl (fun s col => s.landOut c c.step col (v col) (bad col)) s =
      (List.range 32).foldl (fun s col => s.updMatrix c.cohort c.half (g col)) s := fun s => by
    refine congrArg (fun f => (List.range 32).foldl f s) (funext fun s => funext fun col => ?_)
    unfold State.landOut
    rw [hd]
    rfl
  have hg : ∀ col (m : Matrix) a, mapGet 0 (g col m).ob a =
      if recBase c.recBits + c.x + 32 * c.step * shiftBytes c.fmt + col * shiftBytes c.fmt ≤ a ∧
        a < recBase c.recBits + c.x + 32 * c.step * shiftBytes c.fmt + col * shiftBytes c.fmt + shiftBytes c.fmt
      then nth 0 (natLe (shiftBytes c.fmt) (v col)) (a - (recBase c.recBits + c.x + 32 * c.step * shiftBytes c.fmt + col * shiftBytes c.fmt))
      else mapGet 0 m.ob a := fun col m a => by
    have hob : (g col m).ob = (m.obWrite (recBase c.recBits + c.x + (32 * c.step + col) * shiftBytes c.fmt) (natLe (shiftBytes c.fmt) (v col))).ob := by
      dsimp only [g]
      split <;> rfl
    rw [hob, Matrix.obWrite_get, length_natLe, Nat.add_mul, ← Nat.add_assoc]
  have hfresh : ∃ k₁ m₁, (s.freshRow c c.step).cohort c.cohort = some k₁ ∧ k.Stores k₁ c.half m₁ ∧ m₁.ob = (k.mxOf c.half).ob := by
    unfold State.freshRow
    rw [hd]
    obtain ⟨k₁, hk₁, hs⟩ := (Cohort.Stores.refl k c.half).updMatrix hk fun m => { m with
      obPoison := m.obPoison.filter fun k => !(decide (recBase c.recBits + c.x + c.step * (32 * shiftBytes c.fmt) ≤ 4 * k) &&
        decide (4 * k + 4 ≤ recBase c.recBits + c.x + c.step * (32 * shiftBytes c.fmt) + 32 * shiftBytes c.fmt)) }
    exact ⟨k₁, _, hk₁, hs, rfl⟩
  obtain ⟨k₁, m₁, hk₁, hs₁, hob⟩ := hfresh
  obtain ⟨k₂, hk₂, hs₂⟩ := hs₁.foldl hk₁ g (List.range 32)
  refine ⟨k₂, _, by rw [State.landRow, hland]; exact hk₂, hs₂, fun a => ?_⟩
  have hrun := run_of_elements (G := fun n a => mapGet 0 ((List.range n).foldl (fun m col => g col m) m₁).ob a) (v := v)
    (A := recBase c.recBits + c.x + 32 * c.step * shiftBytes c.fmt) (elemBytes_dvd c.fmt).1 (fun n a => by
      rw [List.range_succ, List.foldl_append, List.foldl_cons, List.foldl_nil]
      exact hg n _ a) 32 a
  rw [← hob]
  exact hrun

/-- A row lands in the scratchpad. -/
theorem State.landRow_scratch (hk : s.cohort c.cohort = some k) (hd : c.dest = 2) (v : Nat → Nat) (bad : Nat → Bool) :
    ∃ k₂, (s.landRow c v bad).cohort c.cohort = some k₂ ∧ ∀ a, mapGet 0 k₂.scratch a =
      if c.x + c.step * c.pitch ≤ a ∧ a < c.x + c.step * c.pitch + 32 * shiftBytes c.fmt
      then BitVec.ofNat 8 (v ((a - (c.x + c.step * c.pitch)) / shiftBytes c.fmt) / 256 ^ ((a - (c.x + c.step * c.pitch)) % shiftBytes c.fmt))
      else mapGet 0 k.scratch a := by
  let g := fun (col : Nat) (k : Cohort) =>
    let a := c.x + c.step * c.pitch + col * shiftBytes c.fmt
    let k := k.scratchWrite a (natLe (shiftBytes c.fmt) (v col))
    if bad col then { k with spoiled := ((List.range ((a + shiftBytes c.fmt - 1) / 4 + 1 - a / 4)).map (a / 4 + ·)).foldl (fun l x => insNat x l) k.spoiled } else k
  have hland : ∀ s : State, (List.range 32).foldl (fun s col => s.landOut c c.step col (v col) (bad col)) s =
      (List.range 32).foldl (fun s col => s.updCohort c.cohort (g col)) s := fun s => by
    refine congrArg (fun f => (List.range 32).foldl f s) (funext fun s => funext fun col => ?_)
    unfold State.landOut
    rw [hd]
    rfl
  have hfresh : ∃ k₁, (s.freshRow c c.step).cohort c.cohort = some k₁ ∧ k₁.scratch = k.scratch := by
    unfold State.freshRow
    rw [hd]
    dsimp only
    rw [State.updCohort_of_some hk]
    exact ⟨_, (State.cohort_setCohort ..).trans (if_pos rfl), rfl⟩
  obtain ⟨k₁, hk₁, hscratch⟩ := hfresh
  refine ⟨_, by rw [State.landRow, hland]; exact State.foldl_updCohort hk₁ g _, fun a => ?_⟩
  have hrun := run_of_elements (G := fun n a => mapGet 0 ((List.range n).foldl (fun k col => g col k) k₁).scratch a) (v := v)
    (A := c.x + c.step * c.pitch) (elemBytes_dvd c.fmt).1 (fun n a => by
      have hg : ∀ (k : Cohort), (g n k).scratch = (k.scratchWrite (c.x + c.step * c.pitch + n * shiftBytes c.fmt) (natLe (shiftBytes c.fmt) (v n))).scratch := by
        intro k
        dsimp only [g]
        split <;> rfl
      rw [List.range_succ, List.foldl_append, List.foldl_cons, List.foldl_nil, hg, Cohort.scratchWrite_get, length_natLe]
      rfl) 32 a
  rw [← hscratch]
  exact hrun

/-- What MSHOUT puts into registers for a column. -/
def landLane (c : MCmd) (v : Nat → Nat) (bad : Nat → Bool) (col : Nat) (w : Wave) : Wave :=
  let (r, lane) := shiftLane w (c.fmt == 0) c.step col
  if !w.liveBit lane then w
  else
    let w := w.putV (c.reg + r) lane (BitVec.ofNat 32 (v col)) (bad col)
    if c.fmt = 0 then w.putV (c.reg + r + 1) lane (BitVec.ofNat 32 (v col / 2 ^ 32)) (bad col) else w

/-- A row lands in the registers of its wave. -/
theorem State.landRow_regs (hw : s.wave c.wave = some w) (hd : c.dest = 0) (v : Nat → Nat) (bad : Nat → Bool) :
    s.landRow c v bad = s.setWave c.wave ((List.range 32).foldl (fun w col => landLane c v bad col w) w) := by
  have hfresh : s.freshRow c c.step = s := by
    unfold State.freshRow
    rw [hd]
    rfl
  have hland : (List.range 32).foldl (fun s col => s.landOut c c.step col (v col) (bad col)) s =
      (List.range 32).foldl (fun s col => s.updAnyWave c.wave (landLane c v bad col)) s := by
    refine congrArg (fun f => (List.range 32).foldl f s) (funext fun s => funext fun col => ?_)
    unfold State.landOut
    rw [hd]
    rfl
  rw [State.landRow, hfresh, hland, State.foldl_updAnyWave hw]

theorem landLane_row {n : Nat} (hn : n = if c.fmt = 0 then 2 else 1) (hreg : c.reg + n * (c.step / w.k) + n ≤ 256) (v : Nat → Nat) (bad : Nat → Bool) (N : Nat) :
    w.OnlyV ((List.range N).foldl (fun w col => landLane c v bad col w) w) ∧
    ∀ col h, col < N → h < n → w.liveBit (32 * (c.step % w.k) + col) = true →
      ((List.range N).foldl (fun w col => landLane c v bad col w) w).v (c.reg + n * (c.step / w.k) + h) (32 * (c.step % w.k) + col) =
        BitVec.ofNat 32 (v col / 2 ^ (32 * h)) := by
  induction N with
  | zero => exact ⟨rfl, fun col h hc => absurd hc (Nat.not_lt_zero _)⟩
  | succ N ih =>
    obtain ⟨ho, hv⟩ := ih
    rw [List.range_succ, List.foldl_append, List.foldl_cons, List.foldl_nil]
    have hlane : ∀ z : Wave, w.OnlyV z → landLane c v bad N z =
        if !w.liveBit (32 * (c.step % w.k) + N) then z
        else if c.fmt = 0 then (z.putV (c.reg + n * (c.step / w.k)) (32 * (c.step % w.k) + N) (BitVec.ofNat 32 (v N)) (bad N)).putV
          (c.reg + n * (c.step / w.k) + 1) (32 * (c.step % w.k) + N) (BitVec.ofNat 32 (v N / 2 ^ 32)) (bad N)
        else z.putV (c.reg + n * (c.step / w.k)) (32 * (c.step % w.k) + N) (BitVec.ofNat 32 (v N)) (bad N) := fun z hz => by
      unfold landLane shiftLane
      dsimp only
      rw [hz.k, hz.liveBit, hn]
      simp only [beq_iff_eq]
    rw [hlane _ ho]
    cases hlive : w.liveBit (32 * (c.step % w.k) + N) with
    | false =>
      refine ⟨ho, fun col h hc hh hb => hv col h ?_ hh hb⟩
      by_contra hne
      rw [show col = N by omega, hlive] at hb
      exact nomatch hb
    | true =>
      rw [if_neg (by decide)]
      by_cases hf : c.fmt = 0
      · rw [if_pos hf] at hn ⊢
        refine ⟨(ho.putV ..).putV .., fun col h hc hh hb => ?_⟩
        rw [Wave.v_putV, Wave.v_putV]
        simp only [vkey_inj (show c.reg + n * (c.step / w.k) + h < 256 by omega) (show c.reg + n * (c.step / w.k) + 1 < 256 by omega),
          vkey_inj (show c.reg + n * (c.step / w.k) + h < 256 by omega) (show c.reg + n * (c.step / w.k) < 256 by omega)]
        by_cases hcol : col = N
        · subst hcol
          rcases (show h = 0 ∨ h = 1 by omega) with rfl | rfl
          · rw [if_neg (by omega), if_pos (by omega), Nat.mul_zero, Nat.pow_zero, Nat.div_one]
          · rw [if_pos ⟨rfl, rfl⟩]
        · rw [if_neg (by omega), if_neg (by omega)]
          exact hv col h (by omega) hh hb
      · rw [if_neg hf] at hn ⊢
        refine ⟨ho.putV .., fun col h hc hh hb => ?_⟩
        rw [Wave.v_putV]
        simp only [vkey_inj (show c.reg + n * (c.step / w.k) + h < 256 by omega) (show c.reg + n * (c.step / w.k) < 256 by omega)]
        by_cases hcol : col = N
        · rw [if_pos (by omega), show h = 0 by omega, Nat.mul_zero, Nat.pow_zero, Nat.div_one, hcol]
        · rw [if_neg (by omega)]
          exact hv col h (by omega) hh hb

/-! ### What MSHIN reads -/

/-- A row of MSHIN: the state with what has been drawn, the stores, the flags, and the first poisoned word. -/
def mshinFold (c : MCmd) (k : Cohort) (bytes : List (Byte × Bool)) (row : Nat) (s : State) : State × Matrix × Nat × Option DWord :=
  (List.range 32).foldl (fun (r : State × Matrix × Nat × Option DWord) col =>
    let (u, s) := r.1.drawFor c col
    let (code, hit) := shiftIn k bytes c c.step col
    let (v, fl) := shiftAcc c u ((k.mxOf c.half).accOf c.f2 row col) code
    let hit := hit.orElse fun _ => if c.f1 && (k.mxOf c.half).accSpoiled c.f2 row col then some allOnes else none
    (s, r.2.1.setAccOf c.f2 row col v hit.isSome, r.2.2.1 ||| fl, r.2.2.2.orElse fun _ => hit)) (s, k.mxOf c.half, 0, none)

/-- What drawing leaves. -/
def State.Draws (s t : State) (c : MCmd) : Prop := s.Works t c.wave ∧ t.cohorts = s.cohorts ∧ (t.wave c.wave).isSome = true

theorem State.Draws.step (h : s.Draws t c) (col : Nat) : s.Draws (t.drawFor c col).2 c := by
  obtain ⟨hw, hc, hs⟩ := h
  obtain ⟨h1, h2⟩ := State.drawFor_works (c := c) hs col
  obtain ⟨w, hw'⟩ := Option.isSome_iff_exists.1 hs
  obtain ⟨y, hy⟩ := h1.wave w hw'
  exact ⟨hw.trans h1, h2.trans hc, by rw [hy]; rfl⟩

theorem mshinFold_draws (hw : (s.wave c.wave).isSome = true) (k : Cohort) (bytes : List (Byte × Bool)) (row : Nat) :
    s.Draws (mshinFold c k bytes row s).1 c :=
  foldl_keeps (fun r : State × Matrix × Nat × Option DWord => s.Draws r.1 c) _ (fun _ col h => h.step col) _ _ ⟨.refl s _, rfl, hw⟩

theorem mshinFold_stores (hw : (s.wave c.wave).isSome = true) (hrm : c.rm ≠ 5) (k : Cohort) (bytes : List (Byte × Bool)) (row : Nat) :
    ∃ bad : Nat → Bool, (mshinFold c k bytes row s).2.1 = (List.range 32).foldl (fun m col => m.setAccOf c.f2 row col
      (shiftAcc c 0 ((k.mxOf c.half).accOf c.f2 row col) (shiftIn k bytes c c.step col).1).1 (bad col)) (k.mxOf c.half) := by
  refine ⟨fun col => ((shiftIn k bytes c c.step col).2.orElse fun _ =>
    if c.f1 && (k.mxOf c.half).accSpoiled c.f2 row col then some allOnes else none).isSome, ?_⟩
  refine foldl_part (π := (·.2.1)) (inv := fun r : State × Matrix × Nat × Option DWord => s.Draws r.1 c) (fun r col h => ?_) (fun r col h => ?_) _
    (x := (s, k.mxOf c.half, 0, none)) ⟨.refl s _, rfl, hw⟩
  · exact h.step col
  · dsimp only
    rw [State.drawFor_of_mode h.2.2 hrm]

/-- An engine's read of scratch bytes leaves a cohort with what is still unseen. -/
theorem Cohort.engineRead_only (k : Cohort) (u : Option Nat) (cmd a n : Nat) : ∃ x, (k.engineRead u cmd a n).2 = { k with unfenced := x } := by
  induction n with
  | zero => exact ⟨k.unfenced, rfl⟩
  | succ n ih =>
    obtain ⟨x, hx⟩ := ih
    unfold Cohort.engineRead at hx ⊢
    rw [List.range_succ, List.foldl_append, List.foldl_cons, List.foldl_nil]
    dsimp only
    rw [hx]
    unfold Cohort.engineByte
    split <;> exact ⟨_, rfl⟩

theorem MCmd.scratchRow_only (c : MCmd) (k : Cohort) : ∃ x, (c.scratchRow k).2 = { k with unfenced := x } := by
  unfold MCmd.scratchRow
  split
  · exact Cohort.engineRead_only ..
  · exact ⟨k.unfenced, rfl⟩

theorem exec_mshinRow {core cmd : Nat} (hready : s.readyCmd core cmd 0xAA = some c) (hk : s.cohort c.cohort = some k) (hl : c.lostRow k = none)
    (hlines : c.dest = 2 → ∀ l ∈ linesOf (c.x + c.step * c.pitch) (32 * shiftBytes c.fmt), l ∉ k.empty ∧ mapFind k.failed l = none)
    {r : State × Matrix × Nat × Option DWord} (hr : r = mshinFold c (c.scratchRow k).2 (c.scratchRow k).1
      (c.row + c.step * (if c.f2 then 2 else 1)) (s.setCohort c.cohort (c.scratchRow k).2)) :
    exec (.mshinRow core cmd) s = .next (((r.1.updMatrix c.cohort c.half fun _ => r.2.1).matrixFlags c r.2.2.1).stepCmd core (c.note r.2.2.2)) := by
  have hmem : ∀ l ∈ (if c.dest = 2 then linesOf (c.x + c.step * c.pitch) (32 * shiftBytes c.fmt) else []), l ∉ k.empty ∧ mapFind k.failed l = none := by
    intro l hl
    split at hl
    next h => exact hlines h l hl
    next => exact absurd hl List.not_mem_nil
  have hfail : ((if c.dest = 2 then linesOf (c.x + c.step * c.pitch) (32 * shiftBytes c.fmt) else []).findSome? fun l => mapFind k.failed l) = none :=
    List.findSome?_eq_none_iff.2 fun l hl => (hmem l hl).2
  have hfull : ((if c.dest = 2 then linesOf (c.x + c.step * c.pitch) (32 * shiftBytes c.fmt) else []).any fun l => k.empty.contains l) = false :=
    List.any_eq_false.2 fun l hl => by simpa using (hmem l hl).1
  show execMshinRow core cmd s = _
  unfold execMshinRow
  rw [hready]
  dsimp only
  rw [hk]
  dsimp only
  rw [hl, hfail]
  show (if ((if c.dest = 2 then linesOf (c.x + c.step * c.pitch) (32 * shiftBytes c.fmt) else []).any fun l => k.empty.contains l) = true
    then Host.Outcome.next s else _) = _
  rw [hfull, if_neg Bool.false_ne_true, hr]
  generalize c.scratchRow k = b
  obtain ⟨bytes, k'⟩ := b
  unfold mshinFold
  with_reducible rfl

end

theorem foldl_fst {α β γ : Type} {f : α × β → γ → α × β} {g : α → γ → α} (h : ∀ x c, (f x c).1 = g x.1 c) (l : List γ) (x : α × β) :
    (l.foldl f x).1 = l.foldl g x.1 := by
  induction l generalizing x with
  | nil => rfl
  | cons c l ih => rw [List.foldl_cons, List.foldl_cons, ih, h]

/-- The accumulator row that a step of an MMA writes, column by column. -/
theorem mmaRow_fst (m : Matrix) (c : MCmd) : ∃ bad : Nat → Bool, (mmaRow m c).1 = (List.range 32).foldl (fun m' col =>
    let p := (m.slot c.slot).plane c.plane
    let f := if c.f3 then fpF64 else fpF32
    let row := c.row + c.step * (if c.f3 then 2 else 1)
    m'.setAccOf c.f3 row col (exactSum f 0 0 (fpDecode f (if c.f2 then 0 else m.accOf c.f3 row col))
      ((List.range (planeK p.tag.fmt p.tag.planes)).map fun kk =>
        (aElem m c.recBits (c.x + c.step * aRowBytes p.tag.fmt p.tag.planes) kk, bElem p kk col)) false).1 (bad col)) m :=
  ⟨_, foldl_fst (fun _ _ => rfl) _ _⟩

end Sys2Proof.Machine

open Sys2Proof Sys2Proof.Machine

/-- Settles O36: a command that acts once is `happens_once`, a step of a command of rows `happens_row`; what either does to the stores of its
half is a fold over columns (`Matrix.accOf_row`, `State.landRow_ob`, `landLane_row`). -/
theorem matrixEngine : Obligations.MatrixEngine := by
  unfold Obligations.MatrixEngine
  intro s core cmd c k w hk hw m base stores once row rows r2 e out
  refine ⟨fun h => ?_, fun h => ?_, fun h hreg => ?_, fun h hpl => ?_, fun h hpl => ?_, fun h => ?_, fun h => ?_, fun h => ?_, fun h hl => ?_, fun h hl hrm => ?_,
    fun h hl hlines => ?_⟩
  · refine happens_once (x := c) h hk hw rfl rfl (g := fun m => { m with records := mapErase m.records c.rec_ }) ?_ ?_
    · show execObrelRelease core cmd s = _
      unfold execObrelRelease
      rw [h]
    · exact (mapFind_mapErase ..).trans (if_pos rfl)
  · refine happens_once (x := c) h hk hw rfl rfl
      (g := fun m => m.obWrite base ((List.range (c.n / 4)).flatMap fun i => natLe 4 (mapGet 0 c.vals i).toNat)) ?_ fun a => ?_
    · show execObwrWrite core cmd s = _
      unfold execObwrWrite
      rw [h]
    · rw [Matrix.obWrite_get, length_flatMap_range fun a _ => length_natLe 4 _, nth_flatMap_natLe _ (by decide), Nat.mul_comm]
      by_cases ha : base ≤ a ∧ a < base + 4 * (c.n / 4)
      · rw [if_pos ha, if_pos ha, if_pos (by omega)]
      · rw [if_neg ha, if_neg ha]
  · let f := fun (w : Wave) (j : Nat) => w.liveLanes.foldl (fun w i =>
      w.putV (c.reg + j) i (BitVec.ofNat 32 (m.obRead (base + 4 * w.width * j + 4 * i) 4)) (m.obSpoiled (base + 4 * w.width * j + 4 * i) 4).isSome) w
    obtain ⟨honly, hv⟩ := Wave.putBlock (w := w) (f := f) hreg (fun j i => BitVec.ofNat 32 (m.obRead (base + 4 * w.width * j + 4 * i) 4)) w.liveLanes
      fun z j hj hz => by
        have := Wave.putRow (w := w) (f := fun w i => w.putV (c.reg + j) i (BitVec.ofNat 32 (m.obRead (base + 4 * w.width * j + 4 * i) 4))
          (m.obSpoiled (base + 4 * w.width * j + 4 * i) 4).isSome) (R := c.reg + j) (by omega)
          (fun i => BitVec.ofNat 32 (m.obRead (base + 4 * w.width * j + 4 * i) 4)) w.liveLanes hz fun y i hy => ⟨_, by rw [hy.width]⟩
        rw [← hz.liveLanes] at this ⊢
        exact this
    obtain ⟨x, hexec, hid, hwave⟩ : ∃ x : MCmd, exec (.obrdRead core cmd) s =
        .next ((s.setWave c.wave ((List.range c.pitch).foldl f w)).finishMatrix core x) ∧ x.id = c.id ∧ x.wave = c.wave := by
      refine ⟨?obrd, ?_, ?_⟩
      rotate_left
      · show execObrdRead core cmd s = _
        unfold execObrdRead
        rw [h]
        dsimp only
        rw [hk]
        dsimp only
        rw [State.updAnyWave_of_wave hw]
      · exact ⟨rfl, rfl⟩
    have hd := State.finishMatrix_done (s := s.setWave c.wave ((List.range c.pitch).foldl f w)) (c := x) core
      (w := (List.range c.pitch).foldl f w)
      (by rw [hwave]; exact (State.wave_setWave ..).trans (if_pos rfl))
    obtain ⟨w', hw', hregs, htr⟩ := hd.wave
    have hgone := hd.gone
    rw [hid, State.mcmd_id (State.readyCmd_mcmd h)] at hgone
    refine ⟨_, hexec, State.sameMem_of_mem hd.mem, hgone, w', hwave ▸ hw', fun r => ?_, fun r i hr => ?_⟩
    · rw [← honly.s, Wave.s, Wave.s, Wave.skey, Wave.skey, hregs, htr]
    · rw [← hv r i hr, Wave.v, Wave.v, hregs]
  · obtain ⟨p, hexec, hfmt, hbytes, hscales⟩ : ∃ p : Plane,
        exec (.mplaneWrite core cmd) s = .next ((s.updMatrix c.cohort c.half fun m => m.updSlot c.slot fun x => x.setPlane c.plane p).finishMatrix core c) ∧
        p.tag.fmt = c.fmt ∧ (p.bytes = ((if c.f1 then (List.range 32).flatMap fun col => (List.range (256 / elemBytes c.fmt)).flatMap fun kk =>
          natLe (elemBytes c.fmt) (if kk % 32 = col then oneCode c.fmt else 0) else []).zipIdx).foldl (fun m b => mapPut 0 m b.2 b.1) []) ∧
        p.tag.scales = if c.fmt = 4 ∨ c.fmt = 5 then List.replicate 512 0x7F#8 else [] := by
      refine ⟨?plane, ?_, ?_⟩
      rotate_left
      · show execMplaneWrite core cmd s = _
        unfold execMplaneWrite
        rw [h]
      · exact ⟨rfl, rfl, rfl⟩
    refine happens_once (x := c) h hk hw rfl rfl hexec ?_
    dsimp only
    rw [Matrix.slot_updSlot, Slot.plane_setPlane]
    refine ⟨hfmt, fun q hq hne => Slot.plane_setPlane_ne _ _ hpl hq hne, fun a => ?_, fun y hy hmem => ?_⟩
    · obtain ⟨he, hd⟩ := elemBytes_dvd c.fmt
      rw [hbytes, mapGet_putAll]
      cases hf : c.f1 with
      | true =>
        rw [if_pos rfl, nth_identity _ _ _ he hd]
        simp
      | false =>
        rw [if_neg Bool.false_ne_true]
        simp [nth]
    · rw [hscales, if_pos hy] at hmem
      exact (List.mem_replicate.1 hmem).2
  · obtain ⟨p, x, hexec, hid, hwave, hfmt, hbytes⟩ : ∃ (p : Plane) (x : MCmd),
        exec (.mldsLoad core cmd) s = .next ((s.updMatrix c.cohort c.half fun m => m.updSlot c.slot fun x => x.setPlane c.plane p).finishMatrix core x) ∧
        x.id = c.id ∧ x.wave = c.wave ∧ p.tag.fmt = recFmt c.recBits ∧
        p.bytes = ((planeSources (recFmt c.recBits) (recBlk c.recBits) (recPlanes c.recBits)).zipIdx).foldl
          (fun x o => mapPut 0 x o.2 (mapGet 0 m.ob (base + o.1))) [] := by
      refine ⟨?block, ?after, ?_, ?_⟩
      rotate_left 2
      · show execMldsLoad core cmd s = _
        unfold execMldsLoad
        rw [h]
        dsimp only
        rw [hk]
      · exact ⟨rfl, rfl, rfl, rfl⟩
    refine happens_once (x := x) h hk hw hid hwave hexec ?_
    dsimp only
    rw [Matrix.slot_updSlot, Slot.plane_setPlane]
    refine ⟨hfmt, fun q hq hne => Slot.plane_setPlane_ne _ _ hpl hq hne, fun hne => ?_, fun a => ?_⟩
    · rw [planeSources, planeRuns, if_pos hne]
      simp
    · exact (congrArg (fun b => mapGet 0 b a) hbytes).trans (mapGet_putSources ..)
  · refine happens_once (x := c) h hk hw rfl rfl (g := fun m => m.updSlot c.slot Slot.swap) ?_ ?_
    · show execMswapExchange core cmd s = _
      unfold execMswapExchange
      rw [h]
    · rw [Matrix.slot_updSlot]
      exact ⟨rfl, rfl⟩
  · let s₁ := if c.f1 ∧ c.step = 0 then s.updMatrix c.cohort c.half fun m => m.updSlot c.slot Slot.swap else s
    have hs₁ : s.Works s₁ c.wave ∧ ∃ k₁, s₁.cohort c.cohort = some k₁ ∧ (∀ k₂ m', k₁.Stores k₂ c.half m' → k.Stores k₂ c.half m') ∧
        k₁.mxOf c.half = { m with slots := (k₁.mxOf c.half).slots } ∧
        ((k₁.mxOf c.half).slot c.slot).plane c.plane =
          ((if c.f1 = true ∧ c.step = 0 then m.updSlot c.slot Slot.swap else m).slot c.slot).plane c.plane := by
      by_cases hswap : c.f1 = true ∧ c.step = 0
      · obtain ⟨k₁, hk₁, hst⟩ := State.updMatrix_spec hk (half := c.half) fun m => m.updSlot c.slot Slot.swap
        dsimp only [s₁]
        rw [if_pos hswap, if_pos hswap]
        refine ⟨State.works_updCohort .., k₁, hk₁, fun _ _ => hst.trans, ?_⟩
        rcases hst.mxOf with h1 | ⟨h1, h2⟩
        · exact ⟨by rw [h1]; rfl, by rw [h1]⟩
        · rw [h1, show m = Matrix.clear from h2]
          refine ⟨rfl, ?_⟩
          rw [Matrix.slot_updSlot]
          unfold Slot.plane
          split <;> split <;> rfl
      · dsimp only [s₁]
        rw [if_neg hswap, if_neg hswap]
        exact ⟨.refl s _, k, hk, fun _ _ => id, rfl, rfl⟩
    obtain ⟨hworks, k₁, hk₁, hstores, hm₁, hp⟩ := hs₁
    obtain ⟨k₂, hk₂, hst⟩ := State.updMatrix_spec hk₁ (half := c.half) fun _ => (mmaRow (k₁.mxOf c.half) c).1
    refine happens_rowStores h hw (hworks.trans (State.works_updCohort ..)) (mmaRow (k₁.mxOf c.half) c).2 (mmaSpoiled (k₁.mxOf c.half) c) ?_ hk₂
      (hstores _ _ hst) ?_
    · show execMmaRowStep core cmd s = _
      unfold execMmaRowStep
      rw [h]
      dsimp only
      rw [show (if c.f1 = true ∧ c.step = 0 then s.updMatrix c.cohort c.half fun m => m.updSlot c.slot Slot.swap else s).cohort c.cohort = some k₁ from hk₁]
      rfl
    · obtain ⟨bad, hrow⟩ := mmaRow_fst (k₁.mxOf c.half) c
      have helem : ∀ r x kk, aElem (k₁.mxOf c.half) r x kk = aElem m r x kk := fun r x kk => by rw [hm₁]; rfl
      have hacc : ∀ f64 r col, (k₁.mxOf c.half).accOf f64 r col = m.accOf f64 r col := fun f64 r col => by rw [hm₁]; rfl
      have hword : ∀ r col, (k₁.mxOf c.half).accWord r col = m.accWord r col := fun r col => by rw [hm₁]; rfl
      obtain ⟨h1, h2⟩ := Matrix.accOf_row (k₁.mxOf c.half) (f64 := c.f3) (r := c.row + c.step * (if c.f3 then 2 else 1))
        (v := fun col => (exactSum (if c.f3 then fpF64 else fpF32) 0 0 (fpDecode (if c.f3 then fpF64 else fpF32)
          (if c.f2 then 0 else (k₁.mxOf c.half).accOf c.f3 (c.row + c.step * (if c.f3 then 2 else 1)) col))
          ((List.range (planeK (((k₁.mxOf c.half).slot c.slot).plane c.plane).tag.fmt (((k₁.mxOf c.half).slot c.slot).plane c.plane).tag.planes)).map
            fun kk => (aElem (k₁.mxOf c.half) c.recBits (c.x + c.step * aRowBytes (((k₁.mxOf c.half).slot c.slot).plane c.plane).tag.fmt
              (((k₁.mxOf c.half).slot c.slot).plane c.plane).tag.planes) kk, bElem (((k₁.mxOf c.half).slot c.slot).plane c.plane) kk col)) false).1)
        (f := _) (fun m' col => ⟨bad col, rfl⟩)
      simp only [helem, hacc, hp, hword] at h1 h2
      rw [hrow]
      dsimp only
      simp only [helem, hacc, hp]
      exact ⟨h1, h2⟩
  · obtain ⟨k', hk', hs⟩ := State.updMatrix_spec hk (half := c.half) fun m => (List.range 32).foldl (fun m col => m.setAcc (c.row + c.step) col 0 false) m
    refine happens_rowStores h hw (State.works_updCohort ..) 0 none ?_ hk' hs ?_
    · show execMaczClear core cmd s = _
      unfold execMaczClear
      rw [h, MCmd.note_none, State.matrixFlags_zero]
      rfl
    · exact Matrix.accOf_row m (v := fun _ => 0) fun m col => ⟨false, rfl⟩
  · obtain ⟨bad, hexec⟩ := exec_mshoutRow h hk hl
    exact happens_row h hw ((mshoutFold_works (by rw [hw]; rfl) ..).trans (State.clearedRow_works ..)) _ _ hexec fun _ _ _ _ _ _ _ => trivial
  · obtain ⟨bad, hexec⟩ := exec_mshoutRow h hk hl
    have hsome : (s.wave c.wave).isSome = true := by rw [hw]; rfl
    have hworks := (mshoutFold_works (c := c) hsome m r2).trans (State.clearedRow_works _ c r2)
    have hfold := mshoutFold_of_mode (c := c) hsome hrm m r2
    refine ⟨fun hd hreg => ?_, fun hd => ?_, fun hd => ?_⟩
    · refine happens_row h hw hworks _ _ hexec fun r y' y hr hy hy' hregs => ⟨y', hy', fun col hh hcol hlt hb => ?_⟩
      rw [hfold, State.clearedRow_wave, State.landRow_regs hw hd, State.wave_setWave, if_pos rfl, Option.some.injEq] at hy
      rw [Wave.v, hregs, ← hy]
      exact (landLane_row rfl hreg _ _ 32).2 col hh hcol hlt hb
    · obtain ⟨k₂, m₂, hk₂, hs₂, hob₂⟩ := State.landRow_ob hk hd (fun col => (shiftOut c 0 (m.accOf c.f2 r2 col)).1) fun col => m.accSpoiled c.f2 r2 col
      obtain ⟨k₃, m₃, hk₃, hs₃, hob₃⟩ := State.clearedRow_stores hk₂ hs₂ r2
      rw [← hfold] at hk₃
      refine happens_rowStores h hw hworks _ _ hexec hk₃ hs₃ fun a => ?_
      rw [hob₃, hob₂]
      have he : 0 < e := (elemBytes_dvd c.fmt).1
      have hend : 32 * (c.step + 1) * e = 32 * c.step * e + 32 * e := by rw [← Nat.add_mul, Nat.mul_succ]
      show (if base + 32 * c.step * e ≤ a ∧ a < base + 32 * c.step * e + 32 * e then _ else _) = _
      by_cases ha : base + 32 * c.step * e ≤ a ∧ a < base + 32 * c.step * e + 32 * e
      · rw [if_pos ha, if_pos ⟨ha.1, by omega⟩]
        have hlt : (a - (base + 32 * c.step * e)) / e < 32 := (Nat.div_lt_iff_lt_mul he).2 (by omega)
        have hsplit : a - base = e * (32 * c.step) + (a - (base + 32 * c.step * e)) := by
          rw [Nat.mul_comm e]
          omega
        rw [hsplit, Nat.mul_add_div he, Nat.mul_add_mod, Nat.mul_add_mod, Nat.mod_eq_of_lt hlt]
      · rw [if_neg ha, if_neg fun h => ha ⟨h.1, by omega⟩]
    · obtain ⟨k₂, hk₂, hscratch⟩ := State.landRow_scratch hk hd (fun col => (shiftOut c 0 (m.accOf c.f2 r2 col)).1) fun col => m.accSpoiled c.f2 r2 col
      obtain ⟨k₃, hk₃, hs₃⟩ := State.clearedRow_scratch hk₂ r2
      rw [← hfold] at hk₃
      refine happens_row h hw hworks _ _ hexec fun r _ _ hr _ _ _ => ⟨k₃, by rw [State.cohort, hr]; exact hk₃, fun a => ?_⟩
      rw [hs₃]
      exact hscratch a
  · obtain ⟨x, hx⟩ := c.scratchRow_only k
    have hmx : (c.scratchRow k).2.mxOf c.half = m := by rw [hx]; rfl
    have hw₁ : ((s.setCohort c.cohort (c.scratchRow k).2).wave c.wave).isSome = true := by
      rw [show (s.setCohort c.cohort (c.scratchRow k).2).wave c.wave = some w from hw]
      rfl
    obtain ⟨r, hr⟩ : ∃ r, r = mshinFold c (c.scratchRow k).2 (c.scratchRow k).1 r2 (s.setCohort c.cohort (c.scratchRow k).2) := ⟨_, rfl⟩
    have hexec := exec_mshinRow h hk hl hlines hr
    obtain ⟨hworks, hcoh, -⟩ := hr ▸ mshinFold_draws (c := c) hw₁ (c.scratchRow k).2 (c.scratchRow k).1 r2
    have hk₁ : r.1.cohort c.cohort = some (c.scratchRow k).2 := by
      rw [State.cohort, hcoh]
      exact (State.cohort_setCohort ..).trans (if_pos rfl)
    have hst : k.Stores (c.scratchRow k).2 c.half m := by
      unfold Cohort.Stores
      rw [hx, show m = k.mxOf c.half from rfl, Cohort.modify_mxOf]
    obtain ⟨k₂, hk₂, hs₂⟩ := hst.updMatrix hk₁ fun _ => r.2.1
    have hw₂ : s.Works (s.setCohort c.cohort (c.scratchRow k).2) c.wave := ⟨rfl, rfl, fun w h => ⟨w, h⟩⟩
    have hrows : c.rm ≠ 5 → rows c.f2 r2 r.2.1 fun col => (shiftAcc c 0 (m.accOf c.f2 r2 col) (shiftIn k (c.scratchRow k).1 c c.step col).1).1 := by
      intro hrm
      obtain ⟨bad, hfold⟩ := mshinFold_stores (c := c) hw₁ hrm (c.scratchRow k).2 (c.scratchRow k).1 r2
      have hin : ∀ bs col, shiftIn (c.scratchRow k).2 bs c c.step col = shiftIn k bs c c.step col := fun bs col => by rw [hx]; rfl
      rw [hr, hfold, hmx]
      simp only [hin]
      exact Matrix.accOf_row m (v := fun col => (shiftAcc c 0 (m.accOf c.f2 r2 col) (shiftIn k (c.scratchRow k).1 c c.step col).1).1)
        fun m' col => ⟨bad col, rfl⟩
    exact happens_row h hw ((hw₂.trans hworks).trans (State.works_updCohort ..)) _ _ hexec fun r' _ _ hr' _ _ _ hrm =>
      ⟨k₂, r.2.1, by rw [State.cohort, hr']; exact hk₂, hrows hrm, hs₂⟩

end

section
/-! SUPPORT. Atomics of many lanes, at their home slices and at the banks of the scratchpad (R132, R268, R269). -/

set_option Elab.async false

namespace Sys2Proof.Machine

/-! ### Lanes in ascending order -/

/-- The lanes ahead of one of ascending lanes are those below it. -/
theorem filter_lt_of_pairwise {pre post : List Nat} {i : Nat} (h : (pre ++ i :: post).Pairwise (· < ·)) :
    (pre ++ i :: post).filter (fun j => decide (j < i)) = pre := by
  obtain ⟨-, hpost, hpre⟩ := List.pairwise_append.1 h
  rw [List.filter_append, List.filter_eq_self.2 fun a ha => decide_eq_true (hpre a ha i List.mem_cons_self), List.filter_cons]
  rw [if_neg (by simp), List.filter_eq_nil_iff.2 fun a ha => by simpa using ((List.pairwise_cons.1 hpost).1 a ha).le, List.append_nil]

theorem Wave.activeLanes_pairwise (w : Wave) : w.activeLanes.Pairwise (· < ·) := List.pairwise_lt_range.filter _

/-- What lanes found that act one after another: a step that keeps `R` between what the model does and what the statement says. -/
theorem foldl_lanes {σ τ : Type} (R : σ → τ → Prop) (step : σ → Nat → σ × Nat × Nat) (spec : τ → Nat → τ) (found : τ → Nat → Nat)
    (hstep : ∀ a b i, R a b → R (step a i).1 (spec b i) ∧ (step a i).2.1 = found b i) {lanes : List Nat} (hl : lanes.Pairwise (· < ·))
    {a : σ} {b : τ} (h : R a b) :
    let r := lanes.foldl (fun (r : σ × List (Nat × Nat) × Nat) i =>
      ((step r.1 i).1, r.2.1 ++ [(i, (step r.1 i).2.1)], r.2.2 ||| (step r.1 i).2.2)) (a, [], 0)
    R r.1 (lanes.foldl spec b) ∧ r.2.1 = lanes.map fun i => (i, found ((lanes.filter fun j => decide (j < i)).foldl spec b) i) := by
  suffices hs : ∀ (rest pre : List Nat) (r : σ × List (Nat × Nat) × Nat), lanes = pre ++ rest → R r.1 (pre.foldl spec b) →
      r.2.1 = pre.map (fun i => (i, found ((lanes.filter fun j => decide (j < i)).foldl spec b) i)) →
      let r' := rest.foldl (fun (r : σ × List (Nat × Nat) × Nat) i =>
        ((step r.1 i).1, r.2.1 ++ [(i, (step r.1 i).2.1)], r.2.2 ||| (step r.1 i).2.2)) r
      R r'.1 (lanes.foldl spec b) ∧ r'.2.1 = lanes.map fun i => (i, found ((lanes.filter fun j => decide (j < i)).foldl spec b) i) from
    hs lanes [] (a, [], 0) rfl h rfl
  intro rest
  induction rest with
  | nil =>
    intro pre r hp hr hv
    rw [List.append_nil] at hp
    subst hp
    exact ⟨hr, hv⟩
  | cons i rest ih =>
    intro pre r hp hr hv
    obtain ⟨h1, h2⟩ := hstep _ _ i hr
    refine ih (pre ++ [i]) _ (by rw [hp, List.append_assoc]; rfl) (by rw [List.foldl_append]; exact h1) ?_
    dsimp only
    rw [List.map_append, ← hv, h2]
    have hpre : lanes.filter (fun j => decide (j < i)) = pre := hp ▸ filter_lt_of_pairwise (hp ▸ hl)
    rw [List.map_singleton, hpre]

section
variable {s t : State} {u : Nat} {w x : Wave}

/-- The accesses of lanes that all pass their checks. -/
theorem checkGlobal_all {access e : Nat} {io : Bool} {lanes : List Nat} {va pa : Nat → Nat}
    (hne : lanes ≠ []) (h : ∀ i ∈ lanes, Reaches s w (va i) access io e (pa i)) :
    ∃ tr : Nat → Tr, checkGlobal s u w access io e (lanes.map fun i => (i, va i)) =
      .ok (lanes.map fun i => { lane := i, va := va i, pa := pa i, tr := tr i }) := by
  classical
  obtain ⟨i₀, hi₀⟩ := List.exists_mem_of_ne_nil _ hne
  obtain ⟨-, -, t₀, -⟩ := h i₀ hi₀
  have hex : ∀ i, ∃ t, i ∈ lanes → waveXlate s w (va i) access io = .ok (pa i) t := fun i => by
    by_cases hi : i ∈ lanes
    · obtain ⟨-, -, t, ht⟩ := h i hi
      exact ⟨t, fun _ => ht⟩
    · exact ⟨t₀, fun h => absurd h hi⟩
  choose tr htr using hex
  refine ⟨tr, ?_⟩
  have hal : (lanes.map fun i => (i, va i)).find? (fun l => l.2 % e != 0) = none := by
    simpa using fun i hi => (h i hi).1
  have hcan : (lanes.map fun i => (i, va i)).find? (fun l => !canonical l.2) = none := by
    simpa using fun i hi => (h i hi).2.1
  have hx : xlateLanes s w access io (lanes.map fun i => (i, va i)) = lanes.map fun i => (i, va i, .ok (pa i) (tr i)) := by
    rw [xlateLanes, List.map_map]
    exact List.map_congr_left fun i hi => by simp [htr i hi]
  unfold checkGlobal
  rw [hal, hcan]
  dsimp only
  rw [hx]
  have hmiss : (lanes.map fun i => (i, va i, WaveXlate.ok (pa i) (tr i))).filterMap
      (fun x => if x.2.2 = .miss then some x.2.1 else none) = [] := by simp
  rw [hmiss, if_neg (by decide)]
  split
  next hf =>
    obtain ⟨x, hx, hm⟩ := List.exists_of_findSome?_eq_some hf
    obtain ⟨i, -, rfl⟩ := List.mem_map.1 hx
    simp at hm
  next =>
    split
    next x hf =>
      obtain ⟨i, -, rfl⟩ := List.mem_map.1 (List.mem_of_find?_eq_some hf)
      exact absurd (List.find?_some hf) (by simp)
    next => simp

/-! ### At the home slices -/

/-- A wave in no commit group stands as it is where bytes are touched. -/
theorem State.wave_touched (hu : s.wave u = some w) (hg : w.group = none) (pa n : Nat) (writer : Option Nat) :
    (s.touched pa n writer).wave u = some w := by
  rw [State.wave, State.touched_waves, State.breakWatches_waves]
  have hmap : (fun x : Nat × Wave => if writer == some x.1 then x else (x.1, brokenWatch pa n x.2)) =
      fun x => (x.1, if writer == some x.1 then x.2 else brokenWatch pa n x.2) := by
    funext x; split <;> rfl
  simp only [hmap]
  rw [mapFind_map_key _ fun v x => if writer == some v then x else brokenWatch pa n x]
  change Option.map _ (s.wave u) = _
  rw [hu, Option.map_some, brokenWatch_of_none hg, ite_self]

/-- A still package whose memory is that of another, in which a wave stands as it is. -/
structure State.SameBytes (u : Nat) (w : Wave) (s t : State) : Prop where
  still : s.Still
  still' : t.Still
  mem : s.mem = t.mem
  wave : s.wave u = some w

theorem State.SameBytes.poke (h : s.SameBytes u w t) (hg : w.group = none) (pa : Nat) (bs : List Byte) (a b : Option Nat) :
    (s.poke pa bs a).SameBytes u w (t.poke pa bs b) := by
  refine ⟨h.still.poke .., h.still'.poke .., ?_, State.wave_poke h.wave hg ..⟩
  rw [State.poke_mem, State.poke_mem]
  have : ∀ (bs : List Byte) (pa : Nat) (s t : State), s.mem = t.mem → (s.setBytes pa bs).mem = (t.setBytes pa bs).mem := by
    intro bs
    induction bs with
    | nil => exact fun _ _ _ h => h
    | cons b bs ih =>
      intro pa s t h
      refine ih _ _ _ ?_
      rw [State.setByte, State.setByte, h]
  exact this bs pa s t h.mem

theorem State.Still.zeroPage_eq (h : s.Still) (p : Nat) : s.zeroPage p =
    if inOwnerTable (p * 65536) then s
    else State.touched { s with mem := s.mem.filter (fun c => c.1 / 65536 != p), poison := s.poison.filter fun k => k / 4096 != p }
      (p * 65536) 65536 none := by
  unfold State.zeroPage
  dsimp only
  rw [State.lineLocked_of_unlocked h.unlocked, State.copyFirst_of_unmarked h.unmarked]
  rfl

theorem State.SameBytes.zeroPage (h : s.SameBytes u w t) (hg : w.group = none) (p : Nat) :
    (s.zeroPage p).SameBytes u w (t.zeroPage p) := by
  refine ⟨h.still.zeroPage p, h.still'.zeroPage p, ?_, ?_⟩
  · rw [h.still.zeroPage_eq, h.still'.zeroPage_eq]
    split
    · exact h.mem
    · rw [State.touched_mem, State.touched_mem, h.mem]
  · rw [h.still.zeroPage_eq]
    split
    · exact h.wave
    · have hu : State.wave { s with
          mem := s.mem.filter (fun c => c.1 / 65536 != p), poison := s.poison.filter fun k => k / 4096 != p } u = some w := h.wave
      exact (State.wave_touched hu hg ..)

theorem State.SameBytes.owner (h : s.SameBytes u w t) (a : Nat) : s.owner a = t.owner a := by
  have hb : ∀ a, s.byte a = t.byte a := State.byte_of_mem h.mem
  rw [State.owner, State.owner, State.read_of_mem h.mem]
  simp only [hb]

theorem State.SameBytes.reowned {s' t' : State} (h : s.SameBytes u w t) (h' : s'.SameBytes u w t') (hg : w.group = none) (pa n : Nat) :
    (s.reowned s' pa n).SameBytes u w (t.reowned t' pa n) := by
  unfold State.reowned
  dsimp only
  simp only [h.owner, h'.owner]
  generalize (ownedBy pa n).filter _ = l
  induction l generalizing s' t' with
  | nil => exact h'
  | cons p l ih => exact ih (h'.zeroPage hg p)

theorem State.SameBytes.atomicAt (h : s.SameBytes u w t) (hg : w.group = none) (pa fn e v : Nat) (a b : Option Nat) :
    (s.atomicAt pa fn e v a).1.SameBytes u w (t.atomicAt pa fn e v b).1 ∧ (s.atomicAt pa fn e v a).2.1 = t.read pa e := by
  have hr : s.read pa e = t.read pa e := State.read_of_mem h.mem ..
  refine ⟨?_, hr⟩
  unfold State.atomicAt
  dsimp only
  rw [hr]
  split
  · rw [h.still.writeQuiet, h.still'.writeQuiet]
    exact h.reowned (h.poke hg ..) hg ..
  · exact h


/-- An access drops what the L1 of its core holds of its lines. -/
theorem State.dropL1_lanes (s : State) (core e : Nat) (accs : List Acc) :
    accs.foldl (fun s a => s.dropL1 core a.pa e) s = { s with cores := (accs.foldl (fun s a => s.dropL1 core a.pa e) s).cores } := by
  refine foldl_keeps (fun t : State => t = { s with cores := t.cores }) _ (fun t a ht => ?_) accs s rfl
  rw [State.dropL1_only]
  exact ht ▸ rfl

/-- Lanes of an atomic at their home slices. -/
theorem atomicGlobal_done {i : Instr} {lanes : List Nat} {va pa : Nat → Nat} {vec : Bool} {reg size fn : Nat} {args : Nat → Nat}
    (hne : lanes ≠ []) (hl : lanes.Pairwise (· < ·)) (hg : w.group = none) (hs : s.still = true) (hsb : (s.core w.core).sb = [])
    (hr : ∀ i ∈ lanes, Reaches s w (va i) 2 false (sizeBytes size) (pa i) ∧ s.poisoned (pa i) (sizeBytes size) = false) :
    ∃ (t : State) (fl : Nat), atomicGlobal i (lanes.map fun i => (i, va i)) vec reg size fn args (s.setWave u w.unjoined) u w.unjoined =
        .done (t.setWave u ((w.unjoined.raise fl).addAnswer vec reg (oldRegs size)
          (lanes.map fun i => (i, (s.afterAtomics fn (sizeBytes size) args pa (lanes.filter fun j => decide (j < i))).read (pa i)
            (sizeBytes size))))) ∧
      ∀ a, t.byte a = (s.afterAtomics fn (sizeBytes size) args pa lanes).byte a := by
  obtain ⟨tr, htr⟩ := checkGlobal_all (s := s.setWave u w.unjoined) (u := u) (w := w.unjoined) hne fun i hi => (hr i hi).1
  have hstill : (s.setWave u w.unjoined).Still := ((State.still_iff s).1 hs).setWave hg rfl
  have hown : ∀ a : Acc, (s.setWave u w.unjoined).ownBytes w.unjoined.core u a.pa (sizeBytes size) = [] := fun a =>
    State.ownBytes_of_empty hsb ..
  unfold atomicGlobal
  dsimp only
  rw [htr]
  dsimp only
  have hgood : (lanes.map fun i => ({ lane := i, va := va i, pa := pa i, tr := tr i } : Acc)).find?
      (fun a => (s.setWave u w.unjoined).poisoned a.pa (sizeBytes size)) = none := by
    refine List.find?_eq_none.2 fun a ha => ?_
    obtain ⟨j, hj, rfl⟩ := List.mem_map.1 ha
    exact fun h => Bool.false_ne_true ((hr j hj).2.symm.trans h)
  rw [hgood]
  dsimp only
  have hdrain : ∀ accs : List Acc, accs.foldl (fun (t : State) a => if (t.ownBytes w.unjoined.core u a.pa (sizeBytes size)).isEmpty = true then t
      else t.drainRange w.unjoined.core a.pa (sizeBytes size)) (s.setWave u w.unjoined) = s.setWave u w.unjoined := fun accs =>
    foldl_stays (fun a => by rw [hown, if_pos List.isEmpty_nil]) accs
  rw [hdrain, if_neg (by
    rw [List.any_eq_true]
    rintro ⟨a, -, h⟩
    rw [hown, hstill.writeHeld, hstill.timelineHeld] at h
    exact Bool.false_ne_true h)]
  have hdrop := State.dropL1_lanes (s.setWave u w.unjoined) w.unjoined.core (sizeBytes size)
    (lanes.map fun i => ({ lane := i, va := va i, pa := pa i, tr := tr i } : Acc))
  generalize (lanes.map fun i => ({ lane := i, va := va i, pa := pa i, tr := tr i } : Acc)).foldl
    (fun s a => s.dropL1 w.unjoined.core a.pa (sizeBytes size)) (s.setWave u w.unjoined) = s' at hdrop ⊢
  have hsame : s'.SameBytes u w.unjoined s := by
    refine ⟨hstill.congr ?_ ?_ ?_, (State.still_iff s).1 hs, ?_, ?_⟩ <;> rw [hdrop] <;> try rfl
    exact (State.wave_setWave ..).trans (if_pos rfl)
  obtain ⟨hbytes, hvals⟩ := foldl_lanes (State.SameBytes u w.unjoined) (fun s i => s.atomicAt (pa i) fn (sizeBytes size) (args i) (some u))
    (fun s i => (s.atomicAt (pa i) fn (sizeBytes size) (args i) none).1) (fun s i => s.read (pa i) (sizeBytes size))
    (fun a b i h => h.atomicAt hg ..) hl hsame
  simp only [List.foldl_map]
  generalize lanes.foldl (fun (r : State × List (Nat × Nat) × Nat) i =>
      ((r.1.atomicAt (pa i) fn (sizeBytes size) (args i) (some u)).1,
        r.2.1 ++ [(i, (r.1.atomicAt (pa i) fn (sizeBytes size) (args i) (some u)).2.1)],
        r.2.2 ||| (r.1.atomicAt (pa i) fn (sizeBytes size) (args i) (some u)).2.2)) (s', [], 0) = r at hbytes hvals ⊢
  refine ⟨r.1, r.2.2, ?_, fun a => State.byte_of_mem hbytes.mem a⟩
  rw [foldl_stays (fun a => hbytes.still.recheck ..), State.updWave, hbytes.wave, hvals]
  rfl

/-! ### At the banks of the scratchpad -/

/-- A scratch access whose lanes pass their checks. -/
theorem checkScratch_readable {c : Cohort} {e : Nat} {addr : Nat → Nat} {lanes : List Nat} (h : c.readable u e addr lanes) (reads : Bool) :
    checkScratch s u c (lanes.map fun i => (i, addr i)) e reads = none ∧
      (lanes.map fun i => (i, addr i)).find? (fun l => c.scratchSpoiled l.2 e) = none ∧
      c.failedLane (lanes.map fun i => (i, addr i)) = none := by
  obtain ⟨hmark, hl⟩ := h
  have hspoil : (lanes.map fun i => (i, addr i)).find? (fun l => c.scratchSpoiled l.2 e) = none := by
    simpa using fun i hi => (hl i hi).2.2.2.2
  have hfail : c.failedLane (lanes.map fun i => (i, addr i)) = none := by
    simpa [Cohort.failedLane] using fun i hi => (hl i hi).2.2.2.1
  have hplace : checkPlace s u c (lanes.map fun i => (i, addr i)) e = none := by
    have hal : (lanes.map fun i => (i, addr i)).find? (fun l => l.2 % e != 0) = none := by simpa using fun i hi => (hl i hi).1
    have hok : (lanes.map fun i => (i, addr i)).find? (fun l => !c.scratchOk l.2 e) = none := by simpa using fun i hi => (hl i hi).2.1
    rw [checkPlace, hal, hok]
    exact if_neg (by simpa using hmark)
  have hlines : ((lanes.map fun i => (i, addr i)).map fun l => l.2 / 128).filter c.empty.contains = [] := by
    simpa [List.filter_eq_nil_iff] using fun i hi => (hl i hi).2.2.1
  refine ⟨?_, hspoil, hfail⟩
  rw [checkScratch, hplace]
  dsimp only
  rw [hfail, hlines]
  cases reads <;> rfl

/-- One lane of a scratch atomic. -/
def scratchAtom (u fn e : Nat) (args addr : Nat → Nat) (c : Cohort) (i : Nat) : Cohort × Nat × Nat :=
  let r := atomicNew fn (8 * e) (c.scratchRead (addr i) e) (args i % 2 ^ (8 * e)) (args i / 2 ^ (8 * e) % 2 ^ (8 * e))
  ((match r.1 with
    | some z => c.scratchWrite (addr i) (natLe e z)
    | none => c.seen (some u) (addr i) e), c.scratchRead (addr i) e, r.2)

theorem scratchAtom_scratch {fn e : Nat} {args addr : Nat → Nat} {c d : Cohort} (i : Nat) (h : c.scratch = d.scratch) :
    (scratchAtom u fn e args addr c i).1.scratch = (d.afterAtomics fn e args addr [i]).scratch ∧
      (scratchAtom u fn e args addr c i).2.1 = d.scratchRead (addr i) e := by
  have hr : c.scratchRead (addr i) e = d.scratchRead (addr i) e := by simp only [Cohort.scratchRead, Cohort.scratchBytes, h]
  refine ⟨?_, hr⟩
  rw [scratchAtom, Cohort.afterAtomics, List.foldl_cons, List.foldl_nil, hr]
  dsimp only
  generalize (atomicNew fn (8 * e) (d.scratchRead (addr i) e) (args i % 2 ^ (8 * e)) (args i / 2 ^ (8 * e) % 2 ^ (8 * e))).1 = r
  cases r with
  | some z => simp only [Cohort.scratchWrite, h]
  | none => exact h

/-- Lanes of a scratch atomic, one after another: the cohort then, what they found, and the flags. -/
def scratchAtoms (u fn e : Nat) (args addr : Nat → Nat) (lanes : List Nat) (c : Cohort) : Cohort × List (Nat × Nat) × Nat :=
  lanes.foldl (fun r i => ((scratchAtom u fn e args addr r.1 i).1, r.2.1 ++ [(i, (scratchAtom u fn e args addr r.1 i).2.1)],
    r.2.2 ||| (scratchAtom u fn e args addr r.1 i).2.2)) (c, [], 0)

theorem scratchAtoms_spec {lanes : List Nat} (hl : lanes.Pairwise (· < ·)) (fn e : Nat) (args addr : Nat → Nat) (c : Cohort) :
    (scratchAtoms u fn e args addr lanes c).1.scratch = (c.afterAtomics fn e args addr lanes).scratch ∧
      (scratchAtoms u fn e args addr lanes c).2.1 =
        lanes.map fun i => (i, (c.afterAtomics fn e args addr (lanes.filter fun j => decide (j < i))).scratchRead (addr i) e) :=
  foldl_lanes (fun c d : Cohort => c.scratch = d.scratch) (scratchAtom u fn e args addr)
    (fun c i => c.afterAtomics fn e args addr [i]) (fun c i => c.scratchRead (addr i) e)
    (fun _ _ i h => scratchAtom_scratch i h) hl rfl

theorem atomicScratch_done {i : Instr} {lanes : List Nat} {addr : Nat → Nat} {vec : Bool} {reg size fn : Nat} {args : Nat → Nat} {c : Cohort}
    (hl : lanes.Pairwise (· < ·)) (hc : s.cohort w.cohort = some c) (hr : c.readable u (sizeBytes size) addr lanes) :
    ∃ (c' : Cohort) (fl : Nat), atomicScratch i (lanes.map fun i => (i, addr i)) vec reg size fn args (s.setWave u w.unjoined) u w.unjoined =
        .done ((s.setCohort w.cohort c').setWave u ((w.unjoined.raise fl).addAnswer vec reg (oldRegs size)
          (lanes.map fun i => (i, (c.afterAtomics fn (sizeBytes size) args addr (lanes.filter fun j => decide (j < i))).scratchRead (addr i)
            (sizeBytes size))))) ∧
      c'.scratch = (c.afterAtomics fn (sizeBytes size) args addr lanes).scratch := by
  have hc' : (s.setWave u w.unjoined).cohort w.unjoined.cohort = some c := hc
  obtain ⟨hcheck, hspoil, -⟩ := checkScratch_readable (s := s.setWave u w.unjoined) hr true
  unfold atomicScratch
  dsimp only
  rw [hc']
  dsimp only
  rw [hcheck]
  dsimp only
  rw [hspoil]
  dsimp only
  obtain ⟨hscratch, hvals⟩ := scratchAtoms_spec (u := u) hl fn (sizeBytes size) args addr c
  rw [List.foldl_map]
  refine ⟨(scratchAtoms u fn (sizeBytes size) args addr lanes c).1, (scratchAtoms u fn (sizeBytes size) args addr lanes c).2.2, ?_, hscratch⟩
  rw [← hvals]
  exact congrArg Act.done (State.setWave_setWave (s := s.setCohort _ _) ..)

/-! ### The instructions -/

theorem afterReads_of_none (h : w.late.any (·.reads) = false) (body : Body) : afterReads body s u w = body s u w := by
  rw [afterReads, h]
  rfl

/-- An instruction that leaves its wave an answer ends. -/
theorem Issues.ends_answer {i : Instr} {body : Body} {vec : Bool} {reg n fl : Nat} {vals : List (Nat × Nat)} (h : Issues s u w i)
    (hx : exec i s = runInstr i body s)
    (hb : body (s.setWave u w.readied) u w.readied = .done (t.setWave u ((w.unjoined.raise fl).addAnswer vec reg n vals))) :
    Ends s u w i fun t' w' => w.answerPends w' vec reg n vals ∧ (∀ a, t'.byte a = t.byte a) ∧ ∀ c, t'.cohort c = t.cohort c := by
  refine h.ends hx hb (x := (w.unjoined.raise fl).addAnswer vec reg n vals) ((State.wave_setWave ..).trans (if_pos rfl)) rfl
    ⟨⟨Wave.completed_regs .., ?_⟩, fun _ => State.retire_byte .., fun _ => State.retire_cohort ..⟩
  rw [Wave.completed_late]
  exact ⟨_, List.mem_map.2 ⟨_, List.mem_append_right _ List.mem_cons_self, rfl⟩, rfl, rfl, rfl, rfl, rfl, rfl, rfl⟩

/-- One whose body is done at once changes no register and no byte of memory. -/
theorem Issues.ends_unchanged {i : Instr} {body : Body} (h : Issues s u w i) (hx : exec i s = runInstr i body s)
    (hb : body (s.setWave u w.readied) u w.readied = .done (s.setWave u w.unjoined)) :
    Ends s u w i fun t' w' => w'.regs = w.regs ∧ (∀ a, t'.byte a = s.byte a) ∧ ∀ c, t'.cohort c = s.cohort c :=
  h.ends hx hb (x := w.unjoined) ((State.wave_setWave ..).trans (if_pos rfl)) rfl
    ⟨Wave.completed_regs .., fun _ => State.retire_byte .., fun _ => State.retire_cohort ..⟩

/-- VATOM and SATOM of a wave in no group with no earlier read. -/
theorem vatom_body (f : MF) (hg : w.group = none) (hj : w.joinHolds = false) (hl : w.late.any (·.reads) = false) :
    (forbiddenInGroup (afterJoin fun s u w =>
      if (vectorLanes w f).isEmpty then .done s
      else if f.space = 0 then afterReads (atomicGlobal (.vatom f) (vectorLanes w f) true f.data.toNat f.size.toNat f.fn.toNat
        fun i => w.vs f.data.toNat (atomRegs f.size.toNat f.fn.toNat) i) s u w
      else afterReads (atomicScratch (.vatom f) (vectorLanes w f) true f.data.toNat f.size.toNat f.fn.toNat
        fun i => w.vs f.data.toNat (atomRegs f.size.toNat f.fn.toNat) i) s u w)) (s.setWave u w.readied) u w.readied =
    if (vectorLanes w f).isEmpty then .done (s.setWave u w.unjoined)
    else if f.space = 0 then atomicGlobal (.vatom f) (vectorLanes w f) true f.data.toNat f.size.toNat f.fn.toNat
      (fun i => w.vs f.data.toNat (atomRegs f.size.toNat f.fn.toNat) i) (s.setWave u w.unjoined) u w.unjoined
    else atomicScratch (.vatom f) (vectorLanes w f) true f.data.toNat f.size.toNat f.fn.toNat
      (fun i => w.vs f.data.toNat (atomRegs f.size.toNat f.fn.toNat) i) (s.setWave u w.unjoined) u w.unjoined := by
  rw [forbiddenInGroup_of_none (w := w.readied) hg, afterJoin_eq hj]
  simp only [afterReads_of_none (w := w.unjoined) hl]
  rfl

theorem satom_body (f : MF) (hg : w.group = none) (hj : w.joinHolds = false) (hl : w.late.any (·.reads) = false) :
    (forbiddenInGroup (afterJoin fun s u w =>
      if (scalarLane w f).isEmpty then .done s
      else if f.space = 0 then afterReads (atomicGlobal (.satom f) (scalarLane w f) false f.data.toNat f.size.toNat f.fn.toNat
        fun _ => w.sgroup f.data.toNat (atomRegs f.size.toNat f.fn.toNat)) s u w
      else afterReads (atomicScratch (.satom f) (scalarLane w f) false f.data.toNat f.size.toNat f.fn.toNat
        fun _ => w.sgroup f.data.toNat (atomRegs f.size.toNat f.fn.toNat)) s u w)) (s.setWave u w.readied) u w.readied =
    if (scalarLane w f).isEmpty then .done (s.setWave u w.unjoined)
    else if f.space = 0 then atomicGlobal (.satom f) (scalarLane w f) false f.data.toNat f.size.toNat f.fn.toNat
      (fun _ => w.sgroup f.data.toNat (atomRegs f.size.toNat f.fn.toNat)) (s.setWave u w.unjoined) u w.unjoined
    else atomicScratch (.satom f) (scalarLane w f) false f.data.toNat f.size.toNat f.fn.toNat
      (fun _ => w.sgroup f.data.toNat (atomRegs f.size.toNat f.fn.toNat)) (s.setWave u w.unjoined) u w.unjoined := by
  rw [forbiddenInGroup_of_none (w := w.readied) hg, afterJoin_eq hj]
  simp only [afterReads_of_none (w := w.unjoined) hl]
  rfl

theorem scalarLane_of_exec {f : MF} (h : w.anyExec = true) : scalarLane w f = [0].map fun i => (i, scalarAddr w f) := by
  rw [scalarLane, if_pos h]
  rfl

/-! ### Values -/

theorem signedOf_64 (m : DWord) : signedOf 64 m.toNat = m.toInt := by
  rw [signedOf, BitVec.toInt, Nat.mod_eq_of_lt m.isLt]

theorem atomicNew_add (m x : DWord) (y : Nat) : atomicNew 0 64 m.toNat x.toNat y = (some (m + x).toNat, 0) := by
  rw [BitVec.toNat_add]
  rfl

theorem atomicNew_min (m x : DWord) (y : Nat) : atomicNew 1 64 m.toNat x.toNat y = (some (if x.slt m then x else m).toNat, 0) := by
  simp only [atomicNew, signedOf_64, BitVec.slt]
  grind

theorem atomicNew_max (m x : DWord) (y : Nat) : atomicNew 2 64 m.toNat x.toNat y = (some (if m.slt x then x else m).toNat, 0) := by
  have heq : m.toInt = x.toInt → m = x := BitVec.eq_of_toInt_eq
  simp only [atomicNew, signedOf_64, BitVec.slt]
  grind

theorem atomicNew_minu (m x : DWord) (y : Nat) : atomicNew 3 64 m.toNat x.toNat y = (some (if x.ult m then x else m).toNat, 0) := by
  simp only [atomicNew, BitVec.ult, decide_eq_true_eq]
  grind

theorem atomicNew_maxu (m x : DWord) (y : Nat) : atomicNew 4 64 m.toNat x.toNat y = (some (if m.ult x then x else m).toNat, 0) := by
  simp only [atomicNew, BitVec.ult, decide_eq_true_eq]
  grind

theorem vectorLanes_isEmpty (w : Wave) (f : MF) : (vectorLanes w f).isEmpty = w.activeLanes.isEmpty := List.isEmpty_map

end

end Sys2Proof.Machine

open Sys2Proof Sys2Proof.Machine

/-- Settles O17: lanes act in ascending order, the state of each being what the lanes below it left. -/
theorem atomics : Obligations.Atomics := by
  refine ⟨fun s u w f pa c hj hg hl => ?_, fun m x y => ?_⟩
  · intro e fn vargs sargs before
    refine ⟨fun h hsp hs hsb hr => ?_, fun h hsp hx hs hsb hr hp => ?_, fun h hsp hc hr => ?_, fun h hsp hx hc hr => ?_⟩
    · by_cases hne : w.activeLanes = []
      · have hbody := (vatom_body f hg hj hl (s := s) (u := u)).trans (if_pos (by rw [vectorLanes_isEmpty, hne]; rfl))
        obtain ⟨t, w', ht, hw, hpc, -, -, hb, -⟩ := h.ends_unchanged (rfl : _ = execVatom f s) hbody
        exact ⟨t, w', ht, hw, hpc, by rw [hne]; exact hb, fun h => absurd hne h⟩
      · obtain ⟨t₀, fl, hdone, hbytes⟩ := atomicGlobal_done (i := .vatom f) (vec := true) (reg := f.data.toNat) (fn := fn) (args := vargs) (u := u)
          hne w.activeLanes_pairwise hg hs hsb hr
        have hbody := ((vatom_body f hg hj hl (s := s) (u := u)).trans (if_neg (by rw [vectorLanes_isEmpty]; simpa using hne))).trans
          ((if_pos hsp).trans hdone)
        obtain ⟨t, w', ht, hw, hpc, -, hans, hb, -⟩ := h.ends_answer (rfl : _ = execVatom f s) hbody
        exact ⟨t, w', ht, hw, hpc, fun a => (hb a).trans (hbytes a), fun _ => hans⟩
    · obtain ⟨t₀, fl, hdone, hbytes⟩ := atomicGlobal_done (i := .satom f) (vec := false) (reg := f.data.toNat) (fn := fn) (args := sargs) (u := u)
        (lanes := [0]) (va := fun _ => scalarAddr w f) (pa := pa) (List.cons_ne_nil _ _) (List.pairwise_singleton ..) hg hs hsb
        (fun i hi => by rw [List.mem_singleton.1 hi]; exact ⟨hr, hp⟩)
      have hbody := ((satom_body f hg hj hl (s := s) (u := u)).trans (if_neg (by rw [scalarLane_of_exec hx]; exact Bool.false_ne_true))).trans
        ((if_pos hsp).trans ((congrArg (fun ls => atomicGlobal _ ls _ _ _ _ _ _ _ _) (scalarLane_of_exec hx)).trans hdone))
      obtain ⟨t, w', ht, hw, hpc, -, hans, hb, -⟩ := h.ends_answer (rfl : _ = execSatom f s) hbody
      exact ⟨t, w', ht, hw, hpc, fun a => (hb a).trans (hbytes a), hans⟩
    · have hsp' : f.space ≠ 0 := by rw [hsp]; decide
      by_cases hne : w.activeLanes = []
      · have hbody := (vatom_body f hg hj hl (s := s) (u := u)).trans (if_pos (by rw [vectorLanes_isEmpty, hne]; rfl))
        obtain ⟨t, w', ht, hw, hpc, -, -, hb, hcoh⟩ := h.ends_unchanged (rfl : _ = execVatom f s) hbody
        exact ⟨t, w', c, ht, hw, hpc, hb, (hcoh _).trans hc, by rw [hne]; rfl, fun h => absurd hne h⟩
      · obtain ⟨c', fl, hdone, hscratch⟩ := atomicScratch_done (i := .vatom f) (vec := true) (reg := f.data.toNat) (fn := fn) (args := vargs)
          w.activeLanes_pairwise hc hr
        have hbody := ((vatom_body f hg hj hl (s := s) (u := u)).trans (if_neg (by rw [vectorLanes_isEmpty]; simpa using hne))).trans
          ((if_neg hsp').trans hdone)
        obtain ⟨t, w', ht, hw, hpc, -, hans, hb, hcoh⟩ := h.ends_answer (rfl : _ = execVatom f s) hbody
        exact ⟨t, w', c', ht, hw, hpc, hb, (hcoh _).trans ((mapFind_mapInsert ..).trans (if_pos rfl)), hscratch, fun _ => hans⟩
    · have hsp' : f.space ≠ 0 := by rw [hsp]; decide
      obtain ⟨c', fl, hdone, hscratch⟩ := atomicScratch_done (i := .satom f) (vec := false) (reg := f.data.toNat) (fn := fn) (args := sargs)
        (lanes := [0]) (List.pairwise_singleton ..) hc hr
      have hbody := ((satom_body f hg hj hl (s := s) (u := u)).trans (if_neg (by rw [scalarLane_of_exec hx]; exact Bool.false_ne_true))).trans
        ((if_neg hsp').trans ((congrArg (fun ls => atomicScratch _ ls _ _ _ _ _ _ _ _) (scalarLane_of_exec hx)).trans hdone))
      obtain ⟨t, w', ht, hw, hpc, -, hans, hb, hcoh⟩ := h.ends_answer (rfl : _ = execSatom f s) hbody
      exact ⟨t, w', c', ht, hw, hpc, hb, (hcoh _).trans ((mapFind_mapInsert ..).trans (if_pos rfl)), hscratch, hans⟩
  · refine ⟨atomicNew_add m x _, atomicNew_min m x _, atomicNew_max m x _, atomicNew_minu m x _, atomicNew_maxu m x _, rfl, rfl, rfl, rfl,
      ?_⟩
    simp only [atomicNew, BitVec.toNat_inj]
end

section
/-! SUPPORT. Late results that land (R169), scratch loads and stores (R59, R60, R132), and FIFOs (R61, R62). -/

set_option Elab.async false

namespace Sys2Proof.Machine

section
variable {s t : State} {u : Nat} {w x : Wave}

/-! ### A late result lands -/

theorem Wave.setVs_frame (w : Wave) (r n lane v : Nat) : w.setVs r n lane v = { w with regs := (w.setVs r n lane v).regs } :=
  foldl_keeps (fun x : Wave => x = { w with regs := x.regs }) _
    (fun x i hx => by rw [hx]; rfl) _ w rfl

theorem Wave.setKeys_frame (w : Wave) (r n v : Nat) : w.setKeys r n v = { w with regs := (w.setKeys r n v).regs } :=
  foldl_keeps (fun x : Wave => x = { w with regs := x.regs }) _
    (fun x i hx => by rw [hx]; rfl) _ w rfl

/-- A result that lands leaves the late results and writes registers. -/
theorem Wave.landLate_frame (w : Wave) (l : Late) :
    w.landLate l = { w with late := w.late.filter (fun x => x.seq != l.seq), regs := (w.landLate l).regs } := by
  refine foldl_keeps (fun x : Wave => x = { w with late := w.late.filter (fun x => x.seq != l.seq), regs := x.regs }) _
    (fun x v hx => ?_) _ { w with late := w.late.filter fun x => x.seq != l.seq } rfl
  split
  · rw [Wave.setVs_frame, hx]
  · rw [Wave.setKeys_frame, hx]

/-- What follows a landing changes whether its wave waits, and the L1 of its core. -/
theorem State.afterLanding_spec (hw : s.wave u = some w) (hp : w.wait = .late ∨ w.pend = none) :
    (s.afterLanding u).mem = s.mem ∧ ∃ a wt, (s.afterLanding u).wave u = some { w with acquires := a, wait := wt } := by
  have hacq : ∃ a, (s.lateAcquire u w).mem = s.mem ∧ (s.lateAcquire u w).wave u = some { w with acquires := a } := by
    unfold State.lateAcquire State.acquire
    split
    · refine ⟨false, ?_⟩
      split
      · exact ⟨rfl, (State.wave_setWave ..).trans (if_pos rfl)⟩
      · exact ⟨rfl, (State.wave_setWave ..).trans (if_pos rfl)⟩
    · exact ⟨w.acquires, rfl, hw⟩
  obtain ⟨a, hmem, hwave⟩ := hacq
  unfold State.afterLanding
  rw [hw, Option.map_some, Option.getD_some, hwave]
  dsimp only
  split
  · split
    · exact ⟨hmem, a, .yielded, (State.wave_setWave ..).trans (if_pos rfl)⟩
    · exact ⟨hmem, a, w.wait, hwave⟩
  next hwait hpend =>
    rcases hp with hp | hp
    · exact nomatch hp.symm.trans hwait
    · exact nomatch hp.symm.trans hpend
  · exact ⟨hmem, a, w.wait, hwave⟩

/-- A result that has all its values lands. -/
theorem State.landLate_spec {l : Late} {seq : Nat} {lanes : List Nat} (hw : s.wave u = some w) (hl : w.late.find? (fun l => l.seq == seq) = some l)
    (hk : l.kind ≠ .global ∧ l.kind ≠ .future)
    (ht : (if l.kind = .scratch then s.readScratch u seq else s) = t) (hx : t.wave u = some x) {l' : Late}
    (hl' : x.late.find? (fun l => l.seq == seq) = some l') (hans : t.answered l' = true) (hk' : l'.kind ≠ .future) (hkeep : x.keeper = none)
    (hp : x.wait = .late ∨ x.pend = none) :
    ∃ y, s.landLate u seq lanes = y ∧ y.mem = t.mem ∧ ∃ a wt, y.wave u = some { x.landLate l' with acquires := a, wait := wt } := by
  have hstep : s.landLate u seq lanes = (((t.setWave u (x.landLate l'))).freeKeeper u).afterLanding u := by
    unfold State.landLate
    rw [hw, Option.bind_some, hl]
    have hkind : l'.kind = .future ↔ False := iff_false_intro hk'
    cases hkd : l.kind
    case global => exact absurd hkd hk.1
    case future => exact absurd hkd hk.2
    all_goals
      simp only [hkd, reduceCtorEq, ↓reduceIte] at ht
      dsimp only
      rw [hkd]
      simp only [ht, hx, Option.bind_some, hl', Option.map_some, hans, hkind, ↓reduceIte, Bool.not_true, Bool.false_eq_true]
  have hland : (t.setWave u (x.landLate l')).wave u = some (x.landLate l') := (State.wave_setWave ..).trans (if_pos rfl)
  have hfree : (t.setWave u (x.landLate l')).freeKeeper u = t.setWave u (x.landLate l') := by
    unfold State.freeKeeper
    rw [hland]
    dsimp only
    rw [show (x.landLate l').keeper = none by rw [Wave.landLate_frame]; exact hkeep]
  rw [hfree] at hstep
  obtain ⟨hmem, a, wt, hwave⟩ := State.afterLanding_spec hland (by rw [Wave.landLate_frame]; exact hp)
  exact ⟨_, hstep, hmem, a, wt, hwave⟩

theorem Wave.noteFload_one {l : Late} (hl : w.late = [l]) (f : Late → Late) : w.noteFload l.seq f = { w with late := [f l] } := by
  simp [Wave.noteFload, hl, updFirst]

/-- A scratch load whose lines are FULL is read together (R60). -/
theorem State.readScratch_spec {l : Late} {c : Cohort} (hw : s.wave u = some w) (hl : w.late = [l]) (hc : s.cohort w.cohort = some c)
    (hv : l.vals = []) (hr : c.readable u (sizeBytes l.size) (fun i => i) (l.lanes.map (·.addr))) :
    ∃ c', s.readScratch u l.seq = (s.setCohort w.cohort c').setWave u { w with late := [{ l with
      vals := l.lanes.map fun a => (a.lane, extendLoad l.size (c.scratchRead a.addr (sizeBytes l.size))) }] } := by
  obtain ⟨-, hlane⟩ := hr
  have hlane' : ∀ a ∈ l.lanes, c.scratchOk a.addr (sizeBytes l.size) = true ∧ c.empty.contains (a.addr / 128) = false ∧
      mapFind c.failed (a.addr / 128) = none ∧ c.scratchSpoiled a.addr (sizeBytes l.size) = false := fun a ha =>
    (hlane a.addr (List.mem_map_of_mem ha)).2
  have hfind : w.late.find? (fun x => x.seq == l.seq) = some l := by simp [hl]
  have hok : l.lanes.find? (fun a => !c.scratchOk a.addr (sizeBytes l.size)) = none := by simpa using fun a ha => (hlane' a ha).1
  have hfail : (l.lanes.findSome? fun a => (mapFind c.failed (a.addr / 128)).map fun t => (a.lane, t)) = none := by
    simpa using fun a ha => (hlane' a ha).2.2.1
  have hspoil : l.lanes.find? (fun a => c.scratchSpoiled a.addr (sizeBytes l.size)) = none := by simpa using fun a ha => (hlane' a ha).2.2.2
  have hfull : (l.lanes.any fun a => c.empty.contains (a.addr / 128)) = false := by
    rw [List.any_eq_false]
    exact fun a ha => by rw [(hlane' a ha).2.1]; exact Bool.false_ne_true
  refine ⟨l.lanes.foldl (fun c a => c.seen (some u) a.addr (sizeBytes l.size)) c, ?_⟩
  unfold State.readScratch
  rw [hw]
  dsimp only
  rw [hfind, hc]
  dsimp only
  rw [if_neg (by simp [hv, hl]), hok]
  dsimp only
  rw [hfail]
  dsimp only
  rw [hfull, if_neg Bool.false_ne_true, hspoil]
  dsimp only
  rw [Wave.noteFload_one hl]

/-! ### Scratch loads and stores -/

theorem op_of_encM {i : Instr} {op : BitVec 8} {f : MF} (h : encode i = some (encM op f)) : Instr.op i = op.toNat := by
  simp [Instr.op, h, opcodeOf_encM]

/-- A scratch load whose lines are FULL leaves one late result. -/
theorem Issues.completes_scratchLoad {i : Instr} {body : Body} {c : Cohort} {lanesOf : Wave → List (Nat × Nat)} {lanes : List Nat} {addr : Nat → Nat}
    {vec : Bool} {reg nregs size la : Nat} (h : Issues s u w i) (hx : exec i s = runInstr i (afterJoin body) s)
    (hb : body (s.setWave u w.unjoined) u w.unjoined = loadScratch i lanesOf vec reg nregs size la (s.setWave u w.unjoined) u w.unjoined)
    (hclose : closesRegion w (Instr.op i) = false) (hj : w.joinHolds = false) (hc : s.cohort w.cohort = some c)
    (hl : lanesOf w.unjoined = lanes.map fun i => (i, addr i)) (hne : lanes ≠ []) (hr : c.readable u (sizeBytes size) addr lanes) :
    ∃ l, Completes s u w i (w.afterLate l) ∧ l.seq = w.lateSeq + 1 ∧ l.kind = .scratch ∧ l.vec = vec ∧
      l.reg = (if vec then reg else w.skey reg) ∧ l.nregs = nregs ∧ l.size = size ∧ l.window = la ∧ l.vals = [] ∧
      l.lanes.map (fun a => (a.lane, a.addr)) = lanes.map fun i => (i, addr i) := by
  obtain ⟨hcheck, hspoil, hfail⟩ := checkScratch_readable (s := s.setWave u w.unjoined) hr true
  have hspoiled : ((lanes.map fun i => (i, addr i)).any fun l => c.scratchSpoiled l.2 (sizeBytes size)) = false := by
    rw [List.any_eq_false]
    exact List.find?_eq_none.1 hspoil
  have hbody : loadScratch i lanesOf vec reg nregs size la (s.setWave u w.unjoined) u w.unjoined =
      .done (s.setWave u (w.unjoined.addLate .scratch vec reg nregs size la
        ((lanes.map fun i => (i, addr i)).map fun l => { lane := l.1, addr := l.2, own := [], nocache := true }) [] 0 [] [] 0
        ((encode i).getD 0) w.group.isSome)) := by
    unfold loadScratch
    have hc' : (s.setWave u w.unjoined).cohort w.unjoined.cohort = some c := hc
    dsimp only
    rw [hc']
    dsimp only
    rw [hl, if_neg (by simpa using hne), hfail, hspoiled, if_neg (by simp), hcheck]
    dsimp only
    rw [hspoil]
    exact congrArg Act.done (State.setWave_setWave ..)
  have hd := h.completes_done hx ((afterJoin_eq hj body).trans (hb.trans hbody)) rfl
  rw [hclose, Wave.completed_eq] at hd
  simp only [Wave.addLate, List.map_append, List.map_cons, List.map_nil, Nat.add_sub_cancel] at hd
  refine ⟨_, hd, rfl, rfl, rfl, rfl, rfl, rfl, rfl, rfl, ?_⟩
  rw [List.map_map, List.map_map]
  rfl

/-- What lanes of a scratch store leave: the last of them wins a byte. -/
theorem Cohort.scratchWrites_get (e : Nat) (addr v : Nat → Nat) (lanes : List Nat) (c : Cohort) (a : Nat) :
    ((∀ i ∈ lanes, ¬(addr i ≤ a ∧ a < addr i + e)) →
      mapGet 0 (lanes.foldl (fun c i => c.scratchWrite (addr i) (natLe e (v i))) c).scratch a = mapGet 0 c.scratch a) ∧
    ∀ pre post i, lanes = pre ++ i :: post → (addr i ≤ a ∧ a < addr i + e) → (∀ k ∈ post, ¬(addr k ≤ a ∧ a < addr k + e)) →
      mapGet 0 (lanes.foldl (fun c i => c.scratchWrite (addr i) (natLe e (v i))) c).scratch a = nth 0 (natLe e (v i)) (a - addr i) := by
  have hout : ∀ (lanes : List Nat) (c : Cohort), (∀ i ∈ lanes, ¬(addr i ≤ a ∧ a < addr i + e)) →
      mapGet 0 (lanes.foldl (fun c i => c.scratchWrite (addr i) (natLe e (v i))) c).scratch a = mapGet 0 c.scratch a := by
    intro lanes
    induction lanes with
    | nil => exact fun _ _ => rfl
    | cons i lanes ih =>
      intro c h
      rw [List.foldl_cons, ih _ fun k hk => h k (List.mem_cons_of_mem _ hk), Cohort.scratchWrite_get, length_natLe,
        if_neg (h i List.mem_cons_self)]
  refine ⟨hout lanes c, ?_⟩
  rintro pre post i rfl hin hpost
  rw [List.foldl_append, List.foldl_cons, hout post _ hpost, Cohort.scratchWrite_get, length_natLe, if_pos hin]

/-- The checks of a scratch store (R54). -/
theorem checkScratch_store {c : Cohort} {e : Nat} {addr : Nat → Nat} {lanes : List Nat} (hm : ∀ m ∈ c.marking, m.wave ≠ u)
    (hok : ∀ i ∈ lanes, addr i % e = 0 ∧ c.scratchOk (addr i) e = true) :
    checkScratch s u c (lanes.map fun i => (i, addr i)) e false = none := by
  have hal : (lanes.map fun i => (i, addr i)).find? (fun l => l.2 % e != 0) = none := by simpa using fun i hi => (hok i hi).1
  have hrange : (lanes.map fun i => (i, addr i)).find? (fun l => !c.scratchOk l.2 e) = none := by simpa using fun i hi => (hok i hi).2
  have hplace : checkPlace s u c (lanes.map fun i => (i, addr i)) e = none := by
    rw [checkPlace, hal, hrange]
    exact if_neg (by simpa using hm)
  rw [checkScratch, hplace]
  rfl

/-- Bytes that lanes of a scratch store leave, the highest lane winning. -/
def Cohort.Stored (c c' : Cohort) (e : Nat) (addr v : Nat → Nat) (lanes : List Nat) : Prop :=
  (∀ i ∈ lanes, ∀ b, b < e → (∀ k ∈ lanes, i < k → ¬(addr k ≤ addr i + b ∧ addr i + b < addr k + e)) →
    mapGet 0 c'.scratch (addr i + b) = BitVec.ofNat 8 (v i / 256 ^ b)) ∧
  ∀ a, (∀ i ∈ lanes, ¬(addr i ≤ a ∧ a < addr i + e)) → mapGet 0 c'.scratch a = mapGet 0 c.scratch a

theorem Cohort.stored_scratchStore (c : Cohort) (u e : Nat) (addr v : Nat → Nat) {lanes : List Nat} (hl : lanes.Pairwise (· < ·)) :
    c.Stored (c.scratchStore u (lanes.map fun i => (addr i, natLe e (v i)))) e addr v lanes := by
  have hs : (c.scratchStore u (lanes.map fun i => (addr i, natLe e (v i)))).scratch =
      (lanes.foldl (fun c i => c.scratchWrite (addr i) (natLe e (v i))) c).scratch :=
    (rfl : _ = ((lanes.map fun i => (addr i, natLe e (v i))).foldl (fun c x => c.scratchWrite x.1 x.2) c).scratch).trans
      (congrArg Cohort.scratch List.foldl_map)
  refine ⟨fun i hi b hb hlast => ?_, fun a ha => ?_⟩ <;> rw [hs]
  · obtain ⟨pre, post, rfl⟩ := List.append_of_mem hi
    obtain ⟨-, hpost, -⟩ := List.pairwise_append.1 hl
    rw [(Cohort.scratchWrites_get e addr v _ c (addr i + b)).2 pre post i rfl ⟨by omega, by omega⟩ fun k hk =>
      hlast k (List.mem_append_right _ (List.mem_cons_of_mem _ hk)) ((List.pairwise_cons.1 hpost).1 k hk), Nat.add_sub_cancel_left]
    exact nth_natLe _ _ _ hb
  · exact (Cohort.scratchWrites_get e addr v lanes c a).1 ha

/-- An instruction that completes having changed nothing but a cohort. -/
theorem Issues.ends_cohort {i : Instr} {body : Body} {c : Cohort} (h : Issues s u w i) (hx : exec i s = runInstr i (afterJoin body) s)
    (hj : w.joinHolds = false) (hclose : closesRegion w (Instr.op i) = false)
    (hb : body (s.setWave u w.unjoined) u w.unjoined = .done ((s.setWave u w.unjoined).setCohort w.cohort c)) :
    ∃ t, exec i s = .next t ∧ t.wave u = some w.afterAccess ∧ t.cohort w.cohort = some c ∧ ∀ a, t.byte a = s.byte a := by
  have hwave : ((s.setWave u w.unjoined).setCohort w.cohort c).wave u = some w.unjoined := (State.wave_setWave ..).trans (if_pos rfl)
  have hd := h.exec_done hx ((afterJoin_eq hj body).trans hb)
  rw [hclose] at hd
  refine ⟨_, hd, (State.retire_wave hwave ..).trans ?_, ?_, fun a => State.retire_byte ..⟩
  · rw [Wave.completed_eq]
    rfl
  · rw [State.retire_cohort]
    exact (mapFind_mapInsert ..).trans (if_pos rfl)

/-- A scratch store whose lanes pass their checks. -/
theorem Issues.ends_scratchStore {i : Instr} {body : Body} {c : Cohort} {lanesOf : Wave → List (Nat × Nat)} {lanes : List Nat} {addr : Nat → Nat}
    {size : Nat} {value : Wave → Nat → Nat} (h : Issues s u w i) (hx : exec i s = runInstr i (afterJoin body) s)
    (hb : body (s.setWave u w.unjoined) u w.unjoined = storeScratch lanesOf size value (s.setWave u w.unjoined) u w.unjoined)
    (hclose : closesRegion w (Instr.op i) = false) (hj : w.joinHolds = false) (hc : s.cohort w.cohort = some c) (hg : w.group = none)
    (hl : lanesOf w.unjoined = lanes.map fun i => (i, addr i)) (hlate : w.late.any (·.reads) = false) (hm : ∀ m ∈ c.marking, m.wave ≠ u)
    (hok : ∀ i ∈ lanes, addr i % sizeBytes size = 0 ∧ c.scratchOk (addr i) (sizeBytes size) = true) (hasc : lanes.Pairwise (· < ·)) :
    ∃ t c', exec i s = .next t ∧ t.wave u = some w.afterAccess ∧ t.cohort w.cohort = some c' ∧ (∀ a, t.byte a = s.byte a) ∧
      c.Stored c' (sizeBytes size) addr (value w.unjoined) lanes := by
  have hbody : storeScratch lanesOf size value (s.setWave u w.unjoined) u w.unjoined = .done ((s.setWave u w.unjoined).setCohort w.cohort
      (c.scratchStore u (lanes.map fun i => (addr i, natLe (sizeBytes size) (value w.unjoined i))))) := by
    have hc' : (s.setWave u w.unjoined).cohort w.unjoined.cohort = some c := hc
    rw [storeScratch, forbiddenInGroup_of_none (w := w.unjoined) hg, afterReads_of_none (w := w.unjoined) hlate]
    dsimp only
    rw [hc']
    dsimp only
    rw [hl, checkScratch_store hm hok, List.map_map]
    rfl
  obtain ⟨t, ht, hw, hcoh, hbyte⟩ := h.ends_cohort hx hj hclose (hb.trans hbody)
  exact ⟨t, _, ht, hw, hcoh, hbyte, c.stored_scratchStore u _ addr _ hasc⟩

/-! ### FIFOs -/

@[simp] theorem Wave.raise_zero (w : Wave) : w.raise 0 = w := by simp [Wave.raise]

theorem Cohort.fifo_setFifo {c : Cohort} {n : Nat} {x y : Fifo} (hx : c.fifo n = some x) (hy : y.num = x.num) :
    (c.setFifo y).fifo n = some y := by
  have hn : x.num = n := by simpa using List.find?_some hx
  have hp : (fun z : Fifo => z.num == y.num) = fun z => z.num == n := by rw [hy, hn]
  rw [Cohort.fifo, Cohort.setFifo, hp]
  exact find?_updFirst_const hx (beq_iff_eq.2 (hy.trans hn))

end

end Sys2Proof.Machine

open Sys2Proof Sys2Proof.Machine

/-- Settles O15: scratch accesses by the bytes that their lanes leave, FIFOs by their entries. -/
theorem scratchpad : Obligations.Scratchpad := by
  refine ⟨fun s u w f c hsp hc hj => ?_, fun s u w f c x hj hg hc hx => ⟨fun h hlate hroom => ?_, fun e rest h he => ?_⟩⟩
  · have hsp' : f.space ≠ 0 := by rw [hsp]; decide
    intro e pending stored
    refine ⟨fun h hr hne => ?_, fun h hr hany => ?_, fun l hw hwait hl hk hv hlanes hkeep hr => ?_, fun h hg hlate hm hok => ?_,
      fun h hg hlate hany hm hal hok => ?_⟩
    · exact h.completes_scratchLoad (rfl : _ = execVld f s) (if_neg hsp') (by rw [op_of_encM rfl]; rfl) hj hc rfl hne hr
    · exact h.completes_scratchLoad (rfl : _ = execSld f s) (if_neg hsp') (by rw [op_of_encM rfl]; rfl) hj hc
        (scalarLane_of_exec hany) (List.cons_ne_nil _ _) hr
    · have hfind : w.late.find? (fun x => x.seq == l.seq) = some l := by simp [hl]
      obtain ⟨c', hread⟩ := State.readScratch_spec hw hl hc hv hr
      let l' : Late := { l with vals := l.lanes.map fun a => (a.lane, extendLoad l.size (c.scratchRead a.addr (sizeBytes l.size))) }
      have hans : ∀ t : State, t.answered l' = true := fun t => by
        have h1 : l.lanes.isEmpty = false := by simpa using hlanes
        have h2 : (l.kind == LateKind.future) = false := by rw [hk]; rfl
        simp only [State.answered, l', h1, h2, Bool.false_and, Bool.not_false, Bool.and_true]
        simpa using fun a ha => ⟨a, ha, rfl⟩
      obtain ⟨t, ht, -, a, wt, hwt⟩ := State.landLate_spec (seq := l.seq) (lanes := []) (x := { w with late := [l'] }) (l' := l') hw hfind
        (by rw [hk]; exact ⟨nofun, nofun⟩) ((if_pos hk).trans hread) ((State.wave_setWave ..).trans (if_pos rfl)) (by simp [l']) (hans _)
        (by rw [show l'.kind = l.kind from rfl, hk]; exact nofun) hkeep (.inl hwait)
      refine ⟨t, congrArg _ ht, _, hwt, ?_, ?_, ?_⟩
      · rw [Wave.landLate_frame]; simp [l']
      · rw [Wave.landLate_frame]
      · have hfil : ([l'].filter fun x => x.seq != l'.seq) = w.late.filter fun x => x.seq != l'.seq := by simp [hl, l']
        show (Wave.landLate { w with late := [l'] } l').regs = (w.landLate l').regs
        unfold Wave.landLate
        rw [hfil]
    · by_cases hne : w.activeLanes = []
      · have hbody : (if w.activeLanes.isEmpty = true ∧ w.unjoined.group.isNone = true then Act.done (s.setWave u w.unjoined) else
            storeScratch (fun w => vectorLanes w f) f.size.toNat (fun w i => w.vs f.data.toNat (sizeRegs f.size) i) (s.setWave u w.unjoined) u
              w.unjoined) = .done ((s.setWave u w.unjoined).setCohort w.cohort c) := by
          rw [if_pos ⟨by rw [hne]; rfl, Option.isNone_iff_eq_none.2 hg⟩]
          exact congrArg Act.done (State.setCohort_self (s := s.setWave u w.unjoined) hc).symm
        obtain ⟨t, ht, hw, hcoh, hbyte⟩ := h.ends_cohort (rfl : _ = execVst f s) hj (by rw [op_of_encM rfl]; rfl) ((if_neg hsp').trans hbody)
        exact ⟨t, c, ht, hw, hcoh, hbyte, by rw [hne]; exact fun i hi => absurd hi List.not_mem_nil, fun _ _ => rfl⟩
      · have hsome : ¬(w.activeLanes.isEmpty = true ∧ w.unjoined.group.isNone = true) := by simpa using fun h => absurd h hne
        exact h.ends_scratchStore (rfl : _ = execVst f s) ((if_neg hsp').trans (if_neg hsome)) (by rw [op_of_encM rfl]; rfl) hj hc hg rfl hlate hm hok
          w.activeLanes_pairwise
    · refine h.ends_scratchStore (rfl : _ = execSst f s) ((if_neg hsp').trans (if_neg ?_)) (by rw [op_of_encM rfl]; rfl) hj hc hg
        (scalarLane_of_exec hany) hlate hm (fun _ _ => ⟨hal, hok⟩) (List.pairwise_singleton ..)
      rintro ⟨hemp, -⟩
      exact Bool.false_ne_true ((congrArg List.isEmpty (scalarLane_of_exec hany)).symm.trans hemp)
  · have hc' : (s.setWave u w.unjoined).cohort w.unjoined.cohort = some c := hc
    obtain ⟨t, w', ht, hw, hpc, -, hregs, hbyte, hcoh⟩ := h.ends (rfl : _ = execFqpush f s) (x := w.unjoined)
      (t := (s.setWave u w.unjoined).setCohort w.cohort (c.setFifo { x with entries := x.entries ++ [w.fifoEntry f.data.toNat] }))
      (P := fun t w' => w'.regs = w.regs ∧ (∀ a, t.byte a = s.byte a) ∧
        t.cohort w.cohort = some (c.setFifo { x with entries := x.entries ++ [w.fifoEntry f.data.toNat] }))
      (by
        rw [forbiddenInGroup_of_none (w := w.readied) hg, afterJoin_eq hj, afterReads_of_none (w := w.unjoined) hlate, hc']
        dsimp only
        rw [hx]
        exact if_neg (by omega))
      ((State.wave_setWave ..).trans (if_pos rfl)) rfl
      ⟨Wave.completed_regs .., fun _ => State.retire_byte .., (State.retire_cohort ..).trans ((mapFind_mapInsert ..).trans (if_pos rfl))⟩
    exact ⟨t, w', _, ht, hw, hpc, hregs, hcoh, hbyte, Cohort.fifo_setFifo hx rfl⟩
  · have hc' : (s.setWave u w.unjoined).cohort w.unjoined.cohort = some c := hc
    obtain ⟨t, w', ht, hw, hpc, -, hans, hbyte, hcoh⟩ := h.ends_answer (fl := 0) (vec := true) (reg := f.data.toNat) (n := 1)
      (vals := w.liveLanes.map fun i => (i, (nth 0 e i).toNat)) (t := s.setCohort w.cohort (c.setFifo { x with entries := rest }))
      (rfl : _ = execFqpop f s) (by
        rw [forbiddenInGroup_of_none (w := w.readied) hg, afterJoin_eq hj, hc']
        dsimp only
        rw [hx]
        dsimp only
        rw [he]
        rw [Wave.raise_zero]
        exact congrArg Act.done (State.setWave_setWave (s := s.setCohort _ _) ..))
    exact ⟨t, w', _, ht, hw, hpc, (hcoh _).trans ((mapFind_mapInsert ..).trans (if_pos rfl)), hbyte, Cohort.fifo_setFifo hx rfl, hans⟩
end

section
/-! SUPPORT. Waits that end and late results that land (R50, R84, R131, R167, R169, R242). -/

set_option Elab.async false

namespace Sys2Proof.Machine

section
variable {s t : State} {u : Nat} {w x : Wave}

/-! ### Waits that end -/

/-- A wave that waits on no word of memory is ready when its condition has cleared, and not before. -/
theorem waveReady_iff {p : Prop} (hw : s.wave u = some w) (hm : s.recheckWave u = s) (hp : s.waitOver u w = true ↔ p) :
    (p → Happens s (.waveReady u) fun t => t = s.setWave u { w with wait := .ready }) ∧ (¬p → exec (.waveReady u) s = .next s) := by
  have hexec : exec (.waveReady u) s = .next (if s.waitOver u w then s.setWave u { w with wait := .ready } else s) := by
    show execWaveReady u s = _
    unfold execWaveReady
    rw [hm]
    dsimp only
    rw [hw]
  refine ⟨fun h => ⟨_, hexec, if_pos (hp.2 h)⟩, fun h => hexec.trans ?_⟩
  rw [if_neg fun h' => h (hp.1 h')]

theorem recheckWave_of_wait (hw : s.wave u = some w) (h1 : ∀ pa v, w.wait ≠ .memTimeline pa v) (h2 : ∀ pa m a, w.wait ≠ .scoreboard pa m a) :
    s.recheckWave u = s := by
  unfold State.recheckWave
  rw [hw]
  dsimp only
  split
  · exact absurd ‹_› (h1 _ _)
  · exact absurd ‹_› (h2 _ _ _)
  · rfl

/-- A wave whose word satisfies it, or whose instruction must look again, becomes ready. -/
theorem waveReady_rechecked (hr : s.recheckWave u = t) (hw : t.wave u = some x) (hx : x.wait = .yielded) :
    exec (.waveReady u) s = .next (t.setWave u { x with wait := .ready }) := by
  show execWaveReady u s = _
  unfold execWaveReady
  rw [hr]
  dsimp only
  rw [hw]
  dsimp only
  rw [State.waitOver, hx, if_pos rfl]

/-- A wait on a word that does not hold goes on. -/
theorem waveReady_waits (hr : s.recheckWave u = s) (hw : s.wave u = some w) (ho : s.waitOver u w = false) :
    exec (.waveReady u) s = .next s := ((waveReady_iff hw hr (by rw [ho])).2 (fun h => Bool.false_ne_true h))

/-! ### What a landing writes -/

/-- Keys of scalar registers that are written leave all else of the wave. -/
def Wave.onlyKeys (w x : Wave) : Prop := x = { w with regs := { w.regs with s := x.regs.s, spoison := x.regs.spoison } }

theorem Wave.onlyKeys.setKey (h : w.onlyKeys x) (key : Nat) (y : Word) : w.onlyKeys (x.setKey key y) := by
  rw [Wave.onlyKeys, h]
  rfl

theorem Wave.onlyKeys_setKeys (w : Wave) (key n v : Nat) : w.onlyKeys (w.setKeys key n v) :=
  foldl_keeps (fun x : Wave => w.onlyKeys x) _ (fun _ _ hx => hx.setKey ..) _ w rfl

theorem Wave.setKeys_s (w : Wave) (key n v r : Nat) : mapGet 0 (w.setKeys key n v).regs.s r =
    if key ≤ r ∧ r < key + n then
      (let y := BitVec.ofNat 32 (v / 2 ^ (32 * (r - key)))
       if 96 ≤ r ∧ r < 96 + w.k then y &&& w.liveWord (r - 96) else y) else mapGet 0 w.regs.s r := by
  induction n with
  | zero => exact (if_neg (by omega)).symm
  | succ n ih =>
    have hframe := w.onlyKeys_setKeys key n v
    have hstep : w.setKeys key (n + 1) v = (w.setKeys key n v).setKey (key + n) (BitVec.ofNat 32 (v / 2 ^ (32 * n))) := by
      rw [Wave.setKeys, List.range_succ, List.foldl_append]
      rfl
    have hlive : (w.setKeys key n v).liveWord = w.liveWord := by rw [hframe]; rfl
    have hk : (w.setKeys key n v).k = w.k := by rw [hframe]
    rw [hstep, Wave.setKey, mapGet_mapPut, ih, hlive, hk]
    by_cases hr : r = key + n
    · subst hr
      rw [if_pos rfl, if_pos (c := key ≤ key + n ∧ key + n < key + (n + 1)) (by omega), Nat.add_sub_cancel_left]
    · rw [if_neg hr]
      simp only [show (key ≤ r ∧ r < key + n) ↔ (key ≤ r ∧ r < key + (n + 1)) by omega]

/-- A wave without a late result that lands. -/
def Wave.landed (w : Wave) (l : Late) : Wave := { w with late := w.late.filter fun x => x.seq != l.seq }

theorem Wave.landLate_scalar (w : Wave) {l : Late} {x : Nat} (hv : l.vec = false) (hl : l.vals = [(0, x)]) :
    w.landLate l = (w.landed l).setKeys l.reg l.nregs x := by
  simp [Wave.landLate, hv, hl, Wave.landed]

theorem Wave.landLate_vector (w : Wave) {l : Late} (hv : l.vec = true) : w.landLate l = (w.landed l).putLanes l.reg l.nregs l.vals := by
  simp [Wave.landLate, hv, Wave.putLanes, Wave.landed]

theorem Wave.landLate_live (w : Wave) (l : Late) : (w.landLate l).regs.live = w.regs.live := by
  refine foldl_keeps (fun x : Wave => x.regs.live = w.regs.live) _ (fun x v hx => ?_) _ (w.landed l) rfl
  split
  · rw [x.onlyVector_setVs]
    exact hx
  · rw [x.onlyKeys_setKeys]
    exact hx

/-- The values that lanes of a vector result give a register. -/
theorem Wave.v_putLanes_find (w : Wave) {d n r : Nat} (hd : d + n ≤ 256) (hr : r < 256) {vals : List (Nat × Nat)}
    (hv : (vals.map (·.1)).Nodup) (i : Nat) : (w.putLanes d n vals).v r i = match vals.find? fun x => x.1 == i with
      | some x => if d ≤ r ∧ r < d + n then BitVec.ofNat 32 (x.2 / 2 ^ (32 * (r - d))) else w.v r i
      | none => w.v r i := by
  induction vals generalizing w with
  | nil => rfl
  | cons a vals ih =>
    obtain ⟨ha, hv⟩ := List.nodup_cons.1 hv
    show ((w.setVs d n a.1 a.2).putLanes d n vals).v r i = _
    rw [ih _ hv, w.v_setVs hd hr, List.find?_cons]
    by_cases hi : a.1 = i
    · have hnone : vals.find? (fun x => x.1 == i) = none :=
        List.find?_eq_none.2 fun x hx h => ha (List.mem_map.2 ⟨x, hx, (beq_iff_eq.1 h).trans hi.symm⟩)
      rw [hnone, beq_iff_eq.2 hi]
      simp [hi]
    · rw [beq_eq_false_iff_ne.2 hi]
      simp [Ne.symm hi]

/-! ### One lane of a global load -/

section
variable {l : Late} {a : LaneAcc} (hw : s.wave u = some w) (hl : w.late = [l]) (hlanes : l.lanes = [a]) (hv : l.vals = [])
include hw hl

/-- What a read of one lane at its home slice does, when nothing stands before it. -/
theorem State.readLane_one (hn : a.nocache = true) (hown : a.own = []) (hsb : (s.core w.core).sb = []) (hsnap : s.snap.state ≠ 1)
    (hlock : s.unlocked = true) : s.readLane u l.seq a =
      if s.admits (s.waveWho w) a.addr = false then s.setWave u (w.failLate l (trapFirewall, BitVec.ofNat 64 a.va, laneInfo a.lane))
      else if s.poisoned a.addr (sizeBytes l.size) = true then s.setWave u (w.failLate l (l.poisonInfo a.lane))
      else s.setWave u { w with late := [{ l with
        vals := l.vals ++ [(a.lane, extendLoad l.size (s.read a.addr (sizeBytes l.size)))] }] } := by
  have hfind : w.late.find? (fun x => x.seq == l.seq) = some l := by simp [hl]
  have hearly : w.earlierRead l.seq (a.addr / 16) = false := by simp [Wave.earlierRead, hl]
  have hbehind : s.behindEntries w.core a = false := by rw [State.behindEntries, hsb]; rfl
  unfold State.readLane
  rw [hw]
  dsimp only
  rw [hfind]
  dsimp only
  rw [hearly, hbehind, if_neg (by decide), hn]
  simp only [↓reduceIte]
  rw [State.readHeld_of_unlocked hlock hsnap, hown, Wave.noteFload_one hl]
  cases hadm : s.admits (s.waveWho w) a.addr with
  | false => rfl
  | true =>
    cases hp : s.poisoned a.addr (sizeBytes l.size) <;> rfl

/-- A load whose one lane's read has failed is gone. -/
theorem State.landLate_failed (hlanes : l.lanes = [a]) (hv : l.vals = []) (hk : l.kind = .global) (ht : s.readLane u l.seq a = t)
    (hx : t.wave u = some x) (hgone : x.late = []) : s.landLate u l.seq [] = t.afterLanding u := by
  have hfind : w.late.find? (fun x => x.seq == l.seq) = some l := by simp [hl]
  have hwith : l.lanesWith [] = [a] := by simp [Late.lanesWith, hlanes, hv]
  unfold State.landLate
  rw [hw, Option.bind_some, hfind]
  dsimp only
  rw [hk]
  dsimp only
  rw [hwith, List.foldl_cons, List.foldl_nil, ht, hx, Option.bind_some, hgone]
  rfl

/-- A load whose one lane has been read lands. -/
theorem State.landLate_read {l' : Late} (hlanes : l.lanes = [a]) (hv : l.vals = []) (hk : l.kind = .global) (ht : s.readLane u l.seq a = t)
    (hx : t.wave u = some x) (hl' : x.late = [l']) (hseq : l'.seq = l.seq) (hans : t.answered l' = true) (hk' : l'.kind = .global)
    (hkeep : x.keeper = none) (hp : x.pend = none) :
    (s.landLate u l.seq []).mem = t.mem ∧ ∃ a wt, (s.landLate u l.seq []).wave u = some { x.landLate l' with acquires := a, wait := wt } := by
  have hfind : w.late.find? (fun x => x.seq == l.seq) = some l := by simp [hl]
  have hwith : l.lanesWith [] = [a] := by simp [Late.lanesWith, hlanes, hv]
  have hland : (t.setWave u (x.landLate l')).wave u = some (x.landLate l') := (State.wave_setWave ..).trans (if_pos rfl)
  have hfree : (t.setWave u (x.landLate l')).freeKeeper u = t.setWave u (x.landLate l') := by
    unfold State.freeKeeper
    rw [hland]
    dsimp only
    rw [show (x.landLate l').keeper = none by rw [Wave.landLate_frame]; exact hkeep]
  have hstep : s.landLate u l.seq [] = (t.setWave u (x.landLate l')).afterLanding u := by
    rw [← hfree]
    unfold State.landLate
    rw [hw, Option.bind_some, hfind]
    dsimp only
    rw [hk]
    dsimp only
    rw [hwith, List.foldl_cons, List.foldl_nil, ht, hx, Option.bind_some, hl', List.find?_cons, beq_iff_eq.2 hseq, Option.map_some]
    dsimp only
    rw [hans, hk']
    rfl
  rw [hstep]
  exact State.afterLanding_spec hland (.inr (by rw [Wave.landLate_frame]; exact hp))

end

/-! ### An FLOAD that is sent again -/

/-- A change of one late result. -/
theorem State.updWave_note (hw : s.wave u = some w) (seq : Nat) (g : Wave → Late → Late) :
    (s.updWave u fun w => w.noteFload seq (g w)) = s.setWave u (w.noteFload seq (g w)) := by
  rw [State.updWave, hw]

theorem Wave.find?_noteFload {l : Late} {seq : Nat} (hl : w.late.find? (fun x => x.seq == seq) = some l) {f : Late → Late}
    (hf : ∀ x, (f x).seq = x.seq) : (w.noteFload seq f).late.find? (fun x => x.seq == seq) = some (f l) :=
  find?_updFirst_map Late.seq f hl hf

/-- A FULL word answers the one lane that is sent. -/
theorem State.floadSend_one {l : Late} {a : LaneAcc} {seq : Nat} (hw : s.wave u = some w) (hl : w.late.find? (fun x => x.seq == seq) = some l)
    (hr : l.refused = [a.lane]) (hv : l.vals = []) (he : s.wordEmpty a.addr = false) (hadm : s.admits (s.waveWho w) a.addr = true)
    (hp : s.poisoned a.addr (sizeBytes l.size) = false) :
    ∃ x, s.floadSend u seq [a] = s.setWave u x ∧ w.sameArch x ∧
      x.late.find? (fun x => x.seq == seq) = some { l with refused := [], vals := [(a.lane, s.read a.addr (sizeBytes l.size))] } := by
  let mark : Late → Late := fun l => { l with refused := l.refused ++ ([a].map (·.lane)).filter fun x => !l.refused.contains x }
  let answer : Late → Late := fun x => { x with
    refused := x.refused.filter (· != a.lane), vals := x.vals ++ [(a.lane, s.read a.addr (sizeBytes l.size))] }
  let back : Late → Late := fun l => if !([a].any fun a => l.refused.contains a.lane) then l else
    { l with refusals := l.refusals + 1, until_ := s.clock + backoff l.refusals }
  have hmark : mark l = l := by
    obtain ⟨⟩ := l
    simp only at hr
    subst hr
    simp [mark]
  have h1 : (w.noteFload seq mark).late.find? (fun x => x.seq == seq) = some l :=
    (Wave.find?_noteFload hl (f := mark) fun _ => rfl).trans (congrArg some hmark)
  have h2 : ((w.noteFload seq mark).noteFload seq answer).late.find? (fun x => x.seq == seq) = some (answer l) :=
    Wave.find?_noteFload h1 fun _ => rfl
  have hanswer : answer l = { l with refused := [], vals := [(a.lane, s.read a.addr (sizeBytes l.size))] } := by
    simp [answer, hr, hv]
  have hback : back (answer l) = answer l := by simp [back, hanswer]
  have h3 : (((w.noteFload seq mark).noteFload seq answer).noteFload seq back).late.find? (fun x => x.seq == seq) = some (answer l) :=
    (Wave.find?_noteFload h2 fun x => by simp only [back]; split <;> rfl).trans (congrArg some hback)
  have hs1 : (s.updWave u fun w => w.noteFload seq mark) = s.setWave u (w.noteFload seq mark) := s.updWave_note hw seq fun _ => mark
  have hs2 : (s.setWave u (w.noteFload seq mark)).floadLane u seq a = s.setWave u ((w.noteFload seq mark).noteFload seq answer) := by
    have hlate : ((s.setWave u (w.noteFload seq mark)).wave u).bind (fun w => (w.late.find? fun l => l.seq == seq).map fun l => (w, l)) =
        some (w.noteFload seq mark, l) := by
      rw [State.wave_setWave, if_pos rfl, Option.bind_some, h1]
      rfl
    have he' : (s.setWave u (w.noteFload seq mark)).wordEmpty a.addr = false := he
    have hadm' : (s.setWave u (w.noteFload seq mark)).admits ((s.setWave u (w.noteFload seq mark)).waveWho (w.noteFload seq mark)) a.addr =
        true := hadm
    have hp' : (s.setWave u (w.noteFload seq mark)).poisoned a.addr (sizeBytes l.size) = false := hp
    rw [State.floadLane, he', if_pos (by decide)]
    unfold State.answerLane
    rw [hlate]
    dsimp only
    rw [hadm', hp', if_neg (by decide), if_neg (by decide), State.setWave_setWave]
    rfl
  have hs3 : (s.setWave u ((w.noteFload seq mark).noteFload seq answer)).countNacks u seq [a] =
      s.setWave u ((w.noteFload seq mark).noteFload seq answer) := by
    unfold State.countNacks
    rw [State.wave_setWave, if_pos rfl, Option.bind_some, h2]
    simp [hanswer]
  have hs4 : ((s.setWave u ((w.noteFload seq mark).noteFload seq answer)).updWave u fun w => w.noteFload seq back) =
      s.setWave u (((w.noteFload seq mark).noteFload seq answer).noteFload seq back) :=
    (State.updWave_note ((State.wave_setWave ..).trans (if_pos rfl)) seq fun _ => back).trans (State.setWave_setWave ..)
  refine ⟨((w.noteFload seq mark).noteFload seq answer).noteFload seq back, ?_, ⟨rfl, rfl, rfl⟩, h3.trans (congrArg some hanswer)⟩
  unfold State.floadSend
  dsimp only
  rw [hs1, List.foldl_cons, List.foldl_nil, hs2, hs3]
  exact hs4

end

end Sys2Proof.Machine

open Sys2Proof Sys2Proof.Machine

/-- Settles O46, wait by wait, then landing by landing. -/
theorem waveEvents : Obligations.WaveEvents := by
  refine ⟨fun s u w hw => ?_, ?_, ?_, ?_, ?_⟩
  · intro cleared
    have hplain : (∀ pa v, w.wait ≠ .memTimeline pa v) → (∀ pa m a, w.wait ≠ .scoreboard pa m a) → ∀ p, (s.waitOver u w = true ↔ p) →
        cleared (.waveReady u) p := fun h1 h2 p hp => waveReady_iff hw (recheckWave_of_wait hw h1 h2) hp
    have hthere : ∀ wt, w.wait = wt → (∀ pa v, wt ≠ .memTimeline pa v) → (∀ pa m a, wt ≠ .scoreboard pa m a) → ∀ p,
        (State.waitOver s u { w with wait := wt } = true ↔ p) → cleared (.waveReady u) p := by
      rintro wt rfl h1 h2 p hp
      exact hplain h1 h2 p hp
    refine ⟨fun e n h => hthere _ h nofun nofun _ (decide_eq_true_iff ..), fun h => hthere _ h nofun nofun _ (by simp [State.waitOver]),
      fun h => hthere _ h nofun nofun _ (by simp [State.waitOver]),
      fun f c x h hc hx => hthere _ h nofun nofun _ (by simp [State.waitOver, hc, hx]),
      fun f c x h hc hx => hthere _ h nofun nofun _ (by simp [State.waitOver, hc, hx]),
      fun ls c h hc => hthere _ h nofun nofun _ (by simp [State.waitOver, hc, Option.isSome_iff_ne_none]), fun n h => ?_, ?_, ?_, ?_⟩
    · have hexec : exec (.napExpiry u) s = .next (if n ≤ s.clock then s.setWave u { w with wait := .ready } else s) := by
        show execNapExpiry u s = _
        unfold execNapExpiry
        rw [hw]
        dsimp only
        rw [h]
      exact ⟨fun hn => ⟨_, hexec, if_pos hn⟩, fun hn => by rw [hexec, if_neg hn]⟩
    · rintro pa hwait hadm
      have hr : s.recheckWave u = s.setWave u { w with wait := .yielded, prog := { w.prog with stage := 0 } } := by
        unfold State.recheckWave
        rw [hw]
        dsimp only
        rcases hwait with ⟨v, h⟩ | ⟨mask, any, h⟩ <;> rw [h] <;> dsimp only <;> rw [hadm] <;> rfl
      exact ⟨_, waveReady_rechecked hr ((State.wave_setWave ..).trans (if_pos rfl)) rfl, fun _ => rfl, _,
        (State.wave_setWave ..).trans (if_pos rfl), rfl, rfl, rfl, rfl, rfl, rfl⟩
    · rintro pa v h hadm hsnap hlock
      have hheld : s.timelineHeld pa 8 = false := by rw [State.timelineHeld, beq_eq_false_iff_ne.2 hsnap]; rfl
      have hr : s.recheckWave u = if s.read pa 8 < v then s else
          s.setWave u { w with wait := .yielded, prog := { w.prog with stage := if s.poisonedWord pa then 0 else 2 } } := by
        unfold State.recheckWave
        rw [hw]
        dsimp only
        rw [h]
        dsimp only
        rw [hadm, hheld, State.lineLocked_of_unlocked hlock]
        simp
      refine ⟨fun hlt => waveReady_waits (hr.trans (if_pos hlt)) hw (by rw [State.waitOver, h]), fun hle => ?_⟩
      exact ⟨_, waveReady_rechecked (hr.trans (if_neg (by omega))) ((State.wave_setWave ..).trans (if_pos rfl)) rfl, fun _ => rfl, _,
        (State.wave_setWave ..).trans (if_pos rfl), rfl, rfl, rfl, rfl⟩
    · rintro pa mask any h hadm hsnap hlock hmarks hpois m holds
      have hheld : s.timelineHeld pa 8 = false := by rw [State.timelineHeld, beq_eq_false_iff_ne.2 hsnap]; rfl
      have hholds : sbHolds m mask any = true ↔ holds := by cases any <;> simp [sbHolds, holds]
      have hr : s.recheckWave u = if sbHolds m mask any = true then if w.prog.stage = 1 then
            (s.poke pa (natLe 8 (m - 2 ^ lowestBit (m &&& mask))) (some u)).updWave u fun w => { w with
              wait := .yielded, prog := { w.prog with stage := 2, x := lowestBit (m &&& mask) } }
          else s.setWave u { w with wait := .yielded, prog := { w.prog with stage := 2 } } else s := by
        have hwr : s.writeHeld pa 8 (some u) = false := by rw [State.writeHeld, hmarks, State.lineLocked_of_unlocked hlock]; rfl
        unfold State.recheckWave
        rw [hw]
        dsimp only
        rw [h]
        dsimp only
        rw [hadm, hheld, State.lineLocked_of_unlocked hlock, hpois, hwr]
        by_cases hh : sbHolds m mask any = true
        · rw [if_pos hh, show sbHolds (s.read pa 8) mask any = true from hh]
          rfl
        · rw [if_neg hh, show sbHolds (s.read pa 8) mask any = false from Bool.eq_false_iff.2 hh]
          rfl
      refine ⟨fun hno => waveReady_waits (hr.trans (if_neg fun hh => hno (hholds.1 hh))) hw (by rw [State.waitOver, h]), fun hyes => ?_⟩
      rw [if_pos (hholds.2 hyes)] at hr
      by_cases hst : w.prog.stage = 1
      · rw [if_pos hst] at hr
        obtain ⟨g, hg⟩ := State.wave_poke_group hw pa (natLe 8 (m - 2 ^ lowestBit (m &&& mask))) (some u)
        rw [State.updWave, hg] at hr
        refine ⟨_, waveReady_rechecked hr ((State.wave_setWave ..).trans (if_pos rfl)) rfl, ⟨_,
          (State.wave_setWave ..).trans (if_pos rfl), rfl, rfl, rfl, rfl⟩, ?_⟩
        split
        · refine ⟨?_, fun a ha => ?_⟩
          · show (s.poke pa (natLe 8 (m - 2 ^ lowestBit (m &&& mask))) (some u)).read pa 8 = _
            have hm : m < 256 ^ 8 := (leNat_lt (s.bytes pa 8)).trans_eq (by simp [State.bytes])
            rw [State.read_poke_self, Nat.mod_eq_of_lt ((Nat.sub_le ..).trans_lt hm)]
          · exact (State.byte_poke ..).trans (if_neg (by rw [length_natLe]; exact ha))
        · exact fun hne => absurd hst hne
      · rw [if_neg hst] at hr
        refine ⟨_, waveReady_rechecked hr ((State.wave_setWave ..).trans (if_pos rfl)) rfl, ⟨_,
          (State.wave_setWave ..).trans (if_pos rfl), rfl, rfl, rfl, rfl⟩, ?_⟩
        rw [if_neg fun h => hst h.1]
        exact fun _ _ => rfl
  · intro s u w l lanes hw hl hk hvals hne hkeep hpend
    have hread : (if l.kind = .scratch then s.readScratch u l.seq else s) = s := by
      split
      · unfold State.readScratch
        rw [hw]
        dsimp only
        rw [hl]
        split
        next l' c hl' hc =>
          obtain rfl := Option.some.inj hl'
          exact if_pos (by simp [hne])
        · rfl
      · rfl
    have hans : s.answered l = true := by
      have hfut : (l.kind == LateKind.future) = false := by rcases hk with h | h | h <;> rw [h] <;> rfl
      rw [State.answered, hfut]
      by_cases hlan : l.lanes = []
      · simp [hlan, hne]
      · have : l.lanes.isEmpty = false := by simpa using hlan
        rw [this]
        simpa using hvals
    have hkind : l.kind ≠ .global ∧ l.kind ≠ .future := by rcases hk with h | h | h <;> rw [h] <;> exact ⟨nofun, nofun⟩
    obtain ⟨t, ht, hmem, a, wt, hwt⟩ := State.landLate_spec (lanes := lanes) hw hl hkind hread hw hl hans hkind.2 hkeep (.inr hpend)
    have hland := w.landLate_frame l
    refine ⟨t, congrArg _ ht, State.sameMem_of_mem hmem, _, hwt, by rw [hland], by rw [hland], by rw [hland], by rw [hland], w.landLate_live l,
      fun hv x hx => ?_, fun hv hreg hd => ?_⟩
    · have hs := w.landLate_scalar hv hx
      refine ⟨?_, fun r => ?_⟩
      · show (w.landLate l).regs.v = _
        rw [hs, Wave.onlyKeys_setKeys]
        rfl
      · show mapGet 0 (w.landLate l).regs.s r = _
        rw [hs, Wave.setKeys_s]
        rfl
    · have hs := w.landLate_vector hv
      refine ⟨?_, fun r i hr => ?_⟩
      · show (w.landLate l).regs.s = _
        rw [hs, Wave.onlyVector_putLanes]
        rfl
      · show (w.landLate l).v r i = _
        rw [hs]
        exact Wave.v_putLanes_find _ hreg hr hd i
  · intro s u w l a hw hl hk hlanes hv hn hvec hreg hnc hown hkeep hpend hsb hsnap hlock lands fails
    have hread := State.readLane_one hw hl hnc hown hsb hsnap hlock
    have hfail : ∀ (info : TrapInfo), l.grouped = false → w.lateTrap = none → s.readLane u l.seq a = s.setWave u (w.failLate l info) →
        fails info.1 := fun info hgr hlt hr => by
      have hfl : w.failLate l info = w.trapLate l info := if_neg (by rw [hgr]; exact Bool.false_ne_true)
      have hgone : (w.trapLate l info).late = [] := by simp [Wave.trapLate, hl]
      rw [hfl] at hr
      obtain ⟨hmem, b, wt, hwt⟩ := State.afterLanding_spec (s := s.setWave u (w.trapLate l info)) ((State.wave_setWave ..).trans (if_pos rfl))
        (.inr hpend)
      have hland := State.landLate_failed hw hl hlanes hv hk hr ((State.wave_setWave ..).trans (if_pos rfl)) hgone
      refine ⟨_, congrArg Host.Outcome.next hland, State.sameMem_of_mem hmem, _, hwt, hgone, rfl, rfl, ?_⟩
      simp [Wave.trapLate, hlt]
    refine ⟨fun hadm hp => ?_, fun hadm hgr hlt => ?_, fun hadm hp hgr hlt => ?_⟩
    · rw [hadm, hp, if_neg (by decide), if_neg (by decide), hv, List.nil_append] at hread
      let l' : Late := { l with vals := [(a.lane, extendLoad l.size (s.read a.addr (sizeBytes l.size)))] }
      have hans : ∀ t : State, t.answered l' = true := fun t => by
        have hfut : (l'.kind == LateKind.future) = false := by rw [show l'.kind = l.kind from rfl, hk]; rfl
        rw [State.answered, hfut]
        simp [l', hlanes]
      obtain ⟨hmem, b, wt, hwt⟩ := State.landLate_read (x := { w with late := [l'] }) (l' := l') hw hl hlanes hv hk hread
        ((State.wave_setWave ..).trans (if_pos rfl)) rfl rfl (hans _) hk hkeep hpend
      have hs := Wave.landLate_vector { w with late := [l'] } (l := l') hvec
      refine ⟨_, rfl, State.sameMem_of_mem hmem, _, hwt, ?_, ?_, fun r i hr => ?_⟩
      · rw [Wave.landLate_frame]; simp [l']
      · show (Wave.landLate { w with late := [l'] } l').regs.s = _
        rw [hs, Wave.onlyVector_putLanes]
        rfl
      · show (Wave.landLate { w with late := [l'] } l').v r i = _
        rw [hs, Wave.v_putLanes_find _ (show l.reg + l.nregs ≤ 256 by omega) hr (by simp [l']), List.find?_cons]
        have hrange : (l'.reg ≤ r ∧ r < l'.reg + l'.nregs) ↔ r = l.reg := by
          show l.reg ≤ r ∧ r < l.reg + l.nregs ↔ _
          omega
        by_cases hi : a.lane = i
        · rw [beq_iff_eq.2 hi]
          by_cases hreg' : r = l.reg
          · dsimp only
            rw [if_pos (hrange.2 hreg'), if_pos ⟨hreg', hi.symm⟩, hreg', show l'.reg = l.reg from rfl, Nat.sub_self, Nat.mul_zero, pow_zero,
              Nat.div_one]
          · dsimp only
            rw [if_neg fun h => hreg' (hrange.1 h), if_neg fun h => hreg' h.1]
            rfl
        · rw [beq_eq_false_iff_ne.2 hi, if_neg fun h => hi h.2.symm]
          rfl
    · rw [if_pos hadm] at hread
      exact hfail _ hgr hlt hread
    · rw [hadm, if_neg (by decide), if_pos hp] at hread
      exact hfail _ hgr hlt hread
  · exact fun s core sector => ⟨_, rfl, (State.core_updCore ..).trans (if_pos rfl), fun c hc => (State.core_updCore ..).trans (if_neg hc), rfl⟩
  · intro s u w l hw hfut hl hne hst
    have hof : s.floadOf u l.seq = some l := by rw [State.floadOf, hw]; exact hfut
    have hexec : exec (.floadResend u l.seq) s = if s.clock < l.until_ then .next s else .next (s.floadAgain u l.seq l) := by
      show execFloadResend u l.seq s = _
      unfold execFloadResend
      rw [hof]
      simp [hst, hne]
    refine ⟨fun hlt => hexec.trans (if_pos hlt), fun a hdue hlanes hr hv he hsnap hlock hadm hp => ?_⟩
    rw [if_neg (by omega)] at hexec
    obtain ⟨x, hsend, harch, hx⟩ := State.floadSend_one hw hl hr hv he hadm hp
    have hagain : s.floadAgain u l.seq l = s.setWave u x := by
      have hkeep : (x.late.find? fun y => y.seq == l.seq && y.kind == .future).isSome = true := by
        have hkind : l.kind = .future := by
          have := List.find?_some hfut
          simpa using this
        rw [List.find?_isSome]
        exact ⟨_, List.mem_of_find?_eq_some hx, by simp [hkind]⟩
      have hheld : s.readHeld a.addr (sizeBytes l.size) (some u) = false := State.readHeld_of_unlocked hlock hsnap ..
      have hdues : (l.lanes.filter fun a => l.refused.contains a.lane && !(l.refused.contains a.lane && decide (s.clock < l.until_)) &&
          !s.readHeld a.addr (sizeBytes l.size) (some u)) = [a] := by
        rw [hlanes, hr, List.filter_cons, hheld]
        simp [hdue]
      have hstale : (l.lanes.filter fun a => l.stale.contains a.lane) = [] := by rw [hst]; simp
      have hof' : ((s.setWave u x).floadOf u l.seq).isNone = false := by
        rw [State.floadOf, State.wave_setWave, if_pos rfl, Option.bind_some, ← Option.not_isSome, hkeep]
        rfl
      unfold State.floadAgain
      dsimp only
      rw [hstale, List.foldl_nil, hof]
      dsimp only
      rw [hdues, hsend, hof']
      rfl
    exact ⟨_, hexec.trans (congrArg _ hagain), fun _ => rfl, x, _, (State.wave_setWave ..).trans (if_pos rfl), harch, hx, rfl, rfl⟩
end

section
/-! SUPPORT. What the writes of engines keep, whatever waits on them; translations by engines do not depend on the scheduler's records
(R30, R336, R343). -/

set_option Elab.async false

namespace Sys2Proof.Machine

/-! ### What writes at home slices keep -/

/-- A predicate that every small change keeps that a write at a home slice can make. -/
structure State.Blind (P : State → Prop) : Prop where
  poke : ∀ s pa bs writer, P s → P (State.poke s pa bs writer)
  setWave : ∀ s u w, P s → P (State.setWave s u w)
  updDie : ∀ s d f, P s → P (State.updDie s d f)
  blocked : ∀ s, P s → P { s with blocked := true }
  snap : ∀ s x, P s → P { s with snap := x }
  moved : ∀ s x y, P s → P { s with poison := x, snap := y }

namespace State.Blind

variable {P : State → Prop} (h : State.Blind P) {s : State}
include h

theorem updWave (hs : P s) (u : Nat) (f : Wave → Wave) : P (s.updWave u f) := by
  unfold State.updWave
  split
  · exact h.setWave _ _ _ hs
  · exact hs

theorem recheckWave (hs : P s) (u : Nat) : P (s.recheckWave u) := by
  unfold State.recheckWave
  dsimp only
  repeat' split
  all_goals solve_by_elim [h.setWave, h.updWave, h.poke]

theorem recheckTrigger (hs : P s) (d : Nat) (t : Trigger) : P (s.recheckTrigger d t) := by
  unfold State.recheckTrigger
  dsimp only
  split
  · refine h.updDie _ _ _ ?_
    split
    · exact h.poke _ _ _ _ hs
    · exact hs
  · exact hs

theorem recheck (hs : P s) (pa n : Nat) : P (s.recheck pa n) :=
  foldl_keeps P _ (fun _ x hs => h.recheckTrigger hs x.1 x.2) _ _ (foldl_keeps P _ (fun _ u hs => h.recheckWave hs u) _ _ hs)

theorem unmark (hs : P s) (page : Nat) : P (s.unmark page) := by
  refine h.snap _ _ (foldl_keeps P _ (fun s a hs => ?_) _ _ hs)
  split
  · exact h.poke _ _ _ _ hs
  · exact hs

theorem copyInto (hs : P s) (page i : Nat) (bs : List Byte) : P (s.copyInto page i bs) :=
  h.unmark (h.moved (s.poke (s.snap.poolPa i) bs none) _ _ (h.poke _ _ _ _ hs)) page

theorem copyFirst {t : State} {pa n : Nat} (hs : P s) (ht : s.copyFirst pa n = some t) : P t := by
  unfold State.copyFirst at ht
  split at ht
  · cases ht
    exact hs
  · refine foldl_keeps (fun o : Option State => ∀ t, o = some t → P t) _ (fun o p ho t ht => ?_) _ (some s)
      (fun t ht => by cases ht; exact hs) t ht
    obtain ⟨r, hr, ht⟩ := Option.bind_eq_some_iff.mp ht
    split at ht
    · cases ht
    · unfold State.copyMarked at ht
      split at ht
      · cases ht
      · obtain ⟨i, -, rfl⟩ := Option.map_eq_some_iff.mp ht
        exact h.copyInto (ho r hr) ..

theorem writeHome (hs : P s) (pa : Nat) (bs : List Byte) (writer : Option Nat) : P (s.writeHome pa bs writer) := by
  unfold State.writeHome State.applyHome
  split
  · exact h.blocked _ hs
  · cases hc : s.copyFirst pa bs.length with
    | none => exact h.blocked _ hs
    | some t => exact h.recheck (h.poke _ _ _ _ (h.copyFirst hs hc)) ..

theorem ite_writeHome (hs : P s) (c : Prop) [Decidable c] (pa : Nat) (bs : List Byte) : P (if c then s else s.writeHome pa bs) := by
  split
  · exact hs
  · exact h.writeHome hs ..

theorem touchLeaf (hs : P s) (t : Tr) (write : Bool) : P (touchLeaf s t write).1 := by
  unfold Machine.touchLeaf
  split
  · exact hs
  · exact h.ite_writeHome hs ..

theorem engineXlate (hs : P s) (die asid world : Nat) (who : Who) (va access : Nat) : P (engineXlate s die asid world who va access).after := by
  have hfinish : ∀ (r : State) (t : Tr), P r → P (match permFault t access false with
      | some k => Xlate.fault k (if t.large then 2 else 3) r
      | none => if r.admits who (t.pa va) then .ok (t.pa va) t r else .firewall r).after := by
    intro r t hr
    split
    · exact hr
    · split <;> exact hr
  unfold Machine.engineXlate
  split
  · exact hs
  · dsimp only
    split
    · exact hfinish _ _ hs
    · split
      · refine hfinish _ _ (h.updDie _ _ _ (h.touchLeaf ?_ ..))
        unfold State.notePointers
        dsimp only
        split
        · exact hs
        · exact h.updDie _ _ _ hs
      · exact hs
      · exact hs

theorem putWord (hs : P s) (q asid world va : Nat) (f : Nat → Nat) : P (s.putWord q asid world va f).1 := by
  have hx := h.engineXlate hs (queueDie q) asid world (queueWho q world) (va % 2 ^ 64) 1
  unfold State.putWord
  split
  next hr =>
    rw [hr] at hx
    split
    · exact hx
    · exact h.writeHome hx ..
  · exact hx

theorem signalTrigger (hs : P s) (die : Nat) (t : Trigger) (status : Nat) : P (s.signalTrigger die t status) := by
  unfold State.signalTrigger
  dsimp only
  split
  · exact hs
  · have hx := h.engineXlate hs die t.asid t.world (.world t.world) ((t.cpl.toNat + 8) % 2 ^ 64) 1
    split
    next pa _ r hr =>
      rw [hr] at hx
      change P r at hx
      have hy := h.engineXlate (h.writeHome hx pa (natLe 8 (status + 2 ^ 32 * (t.time % 2 ^ 32))) none) die t.asid t.world (.world t.world)
        t.cpl.toNat 1
      split
      next hr2 =>
        rw [hr2] at hy
        exact h.writeHome hy ..
      · exact hy
    · exact hx

theorem cancelTriggers (hs : P s) (p : Trigger → Bool) : P (s.cancelTriggers p) :=
  foldl_keeps P _ (fun _ _ hs => h.updDie _ _ _ (h.signalTrigger hs ..)) _ _ hs


end State.Blind

/-! ### Cores that clear nothing -/

/-- No core is clearing what a cohort held. -/
structure State.Clear (s : State) : Prop where
  clearing : ∀ c ∈ s.cores, c.2.clearing = []

theorem State.Clear.touched {s : State} (h : s.Clear) (pa n : Nat) (writer : Option Nat) : (s.touched pa n writer).Clear := by
  have hdrop : (s.dropCode pa n).Clear := by
    unfold State.dropCode
    split
    · exact h
    · refine ⟨fun c hc => ?_⟩
      obtain ⟨x, hx, rfl⟩ := List.mem_map.1 (List.mem_filter.1 hc).1
      exact h.clearing x hx
  unfold State.touched State.invalidateRegions State.invalidateRegionsOn
  dsimp only
  split
  · exact ⟨hdrop.clearing⟩
  · refine ⟨fun c hc => ?_⟩
    obtain ⟨x, hx, rfl⟩ := List.mem_map.1 (List.mem_filter.1 hc).1
    exact hdrop.clearing x hx

theorem State.Clear.blind : State.Blind State.Clear where
  poke s pa bs writer h := by
    unfold State.poke
    dsimp only
    split
    · exact h
    · have hset : (s.setBytes pa bs).Clear := by
        rw [State.setBytes_only]
        exact ⟨h.clearing⟩
      have hpoison : State.Clear { s.setBytes pa bs with
          poison := (s.setBytes pa bs).poison.filter fun k => !(wholeSectors pa bs.length).contains k } := ⟨hset.clearing⟩
      exact hpoison.touched pa bs.length writer
  setWave _ _ _ h := ⟨h.clearing⟩
  updDie _ _ _ h := ⟨h.clearing⟩
  blocked _ h := ⟨h.clearing⟩
  snap _ _ h := ⟨h.clearing⟩
  moved _ _ _ h := ⟨h.clearing⟩

/-! ### The scheduler's records -/

/-- A package with other records of the scheduler. -/
def State.resched (s : State) (x : Sched) : State := { s with sched := x }

section
variable (s : State) (x : Sched)

theorem ite_resched {c : Prop} [Decidable c] {a b a' b' : State} (ha : a' = a.resched x) (hb : b' = b.resched x) :
    (if c then a' else b') = (if c then a else b).resched x := by
  split
  · exact ha
  · exact hb

theorem State.setBytes_resched (pa : Nat) (bs : List Byte) : (s.resched x).setBytes pa bs = (s.setBytes pa bs).resched x := by
  induction bs generalizing s pa with
  | nil => rfl
  | cons b bs ih => exact ih (s.setByte pa b) (pa + 1)

theorem State.dropCode_resched (pa n : Nat) : (s.resched x).dropCode pa n = (s.dropCode pa n).resched x := by
  unfold State.dropCode
  exact ite_resched x rfl rfl

theorem State.invalidateRegions_resched (p : Region → Bool) : (s.resched x).invalidateRegions p = (s.invalidateRegions p).resched x := by
  unfold State.invalidateRegions State.invalidateRegionsOn
  exact ite_resched x rfl rfl

theorem State.touched_resched (pa n : Nat) (writer : Option Nat) : (s.resched x).touched pa n writer = (s.touched pa n writer).resched x := by
  rw [State.touched, State.dropCode_resched]
  exact State.invalidateRegions_resched ((s.dropCode pa n).breakWatches pa n writer) x _

theorem State.poke_resched (pa : Nat) (bs : List Byte) (writer : Option Nat) : (s.resched x).poke pa bs writer = (s.poke pa bs writer).resched x := by
  unfold State.poke
  rw [State.setBytes_resched]
  by_cases h : bs.length = 0
  · rw [if_pos h, if_pos h]
  · rw [if_neg h, if_neg h]
    exact State.touched_resched { s.setBytes pa bs with
      poison := (s.setBytes pa bs).poison.filter fun k => !(wholeSectors pa bs.length).contains k } x _ _ _

theorem State.updWave_resched (u : Nat) (f : Wave → Wave) : (s.resched x).updWave u f = (s.updWave u f).resched x := by
  unfold State.updWave
  have hw : (s.resched x).wave u = s.wave u := rfl
  rw [hw]
  cases s.wave u <;> rfl

theorem State.recheckWave_resched (u : Nat) : (s.resched x).recheckWave u = (s.recheckWave u).resched x := by
  unfold State.recheckWave
  have hw : (s.resched x).wave u = s.wave u := rfl
  rw [hw]
  cases s.wave u with
  | none => rfl
  | some w =>
    dsimp only
    cases w.wait
    case memTimeline pa v =>
      exact ite_resched x rfl (ite_resched x rfl rfl)
    case scoreboard pa mask any =>
      refine ite_resched x rfl (ite_resched x rfl (ite_resched x rfl (ite_resched x (ite_resched x rfl ?_) rfl)))
      exact (congrArg (fun t : State => t.updWave u _) (State.poke_resched ..)).trans (State.updWave_resched ..)
    all_goals rfl

theorem State.recheckTrigger_resched (d : Nat) (t : Trigger) : (s.resched x).recheckTrigger d t = (s.recheckTrigger d t).resched x := by
  unfold State.recheckTrigger
  refine ite_resched x ?_ rfl
  cases t.consume
  · rfl
  · simp only [↓reduceIte]
    rw [State.poke_resched]
    rfl

theorem foldl_resched {α : Type} (f : State → α → State) (h : ∀ s a, f (s.resched x) a = (f s a).resched x) (l : List α) :
    l.foldl f (s.resched x) = (l.foldl f s).resched x := by
  induction l generalizing s with
  | nil => rfl
  | cons a l ih => rw [List.foldl_cons, List.foldl_cons, h, ih]

theorem State.recheck_resched (pa n : Nat) : (s.resched x).recheck pa n = (s.recheck pa n).resched x := by
  unfold State.recheck
  have hw : ∀ us : List Nat, us.foldl State.recheckWave (s.resched x) = (us.foldl State.recheckWave s).resched x :=
    foldl_resched s x _ fun t u => t.recheckWave_resched x u
  dsimp only
  rw [hw]
  exact foldl_resched _ x (fun (s : State) (y : Nat × Trigger) => s.recheckTrigger y.1 y.2) (fun t a => t.recheckTrigger_resched x a.1 a.2) _

theorem State.unmark_resched (page : Nat) : (s.resched x).unmark page = (s.unmark page).resched x := by
  unfold State.unmark
  dsimp only
  have hf := foldl_resched s x (fun (s : State) (a : Nat) => if bit (s.read a 8) 6 then s.poke a (natLe 8 (s.read a 8 - 2 ^ 6)) none else s)
    (fun t a => ite_resched x (t.poke_resched ..) rfl) ((mapFind s.snap.marks page).getD [])
  exact congrArg (fun r : State => { r with snap := { r.snap with marks := mapErase r.snap.marks page } }) hf

theorem State.copyInto_resched (page i : Nat) (bs : List Byte) : (s.resched x).copyInto page i bs = (s.copyInto page i bs).resched x := by
  unfold State.copyInto
  dsimp only
  rw [State.poke_resched]
  exact State.unmark_resched { s.poke (s.snap.poolPa i) bs none with poison := _, snap := _ } x page

theorem State.copyMarked_resched (page : Nat) : (s.resched x).copyMarked page = (s.copyMarked page).map (·.resched x) := by
  unfold State.copyMarked
  split
  next h => rw [if_pos (c := (mapFind s.snap.marks page).isNone = true ∨ s.snap.sending.contains page = true) h]; rfl
  next h =>
    rw [if_neg (c := (mapFind s.snap.marks page).isNone = true ∨ s.snap.sending.contains page = true) h, Option.map_map]
    exact congrArg (fun f => Option.map f s.snap.freePage) (funext fun i => s.copyInto_resched x page i _)

theorem foldl_map_resched {α : Type} (f : Option State → α → Option State)
    (h : ∀ o a, f (o.map (·.resched x)) a = (f o a).map (·.resched x)) (l : List α) (o : Option State) :
    l.foldl f (o.map (·.resched x)) = (l.foldl f o).map (·.resched x) := by
  induction l generalizing o with
  | nil => rfl
  | cons a l ih => rw [List.foldl_cons, List.foldl_cons, h, ih]

theorem State.copyFirst_resched (pa n : Nat) : (s.resched x).copyFirst pa n = (s.copyFirst pa n).map (·.resched x) := by
  unfold State.copyFirst
  split
  next h => rw [if_pos (c := s.snap.marks.isEmpty = true) h]; rfl
  next h =>
    rw [if_neg (c := s.snap.marks.isEmpty = true) h]
    refine foldl_map_resched x _ (fun o p => ?_) _ (some s)
    cases o with
    | none => rfl
    | some t =>
      show (if t.snap.state = 2 then none else (t.resched x).copyMarked p) = Option.map _ (if t.snap.state = 2 then none else t.copyMarked p)
      split
      · rfl
      · exact t.copyMarked_resched x p

theorem State.writeHome_resched (pa : Nat) (bs : List Byte) (writer : Option Nat) :
    (s.resched x).writeHome pa bs writer = (s.writeHome pa bs writer).resched x := by
  unfold State.writeHome State.applyHome
  rw [State.copyFirst_resched]
  refine ite_resched x rfl ?_
  cases s.copyFirst pa bs.length with
  | none => rfl
  | some t =>
    show ((t.resched x).poke pa bs writer).recheck pa bs.length = _
    rw [State.poke_resched, State.recheck_resched]

theorem touchLeaf_resched (t : Tr) (write : Bool) : touchLeaf (s.resched x) t write = ((touchLeaf s t write).1.resched x, (touchLeaf s t write).2) := by
  unfold touchLeaf
  cases t.adu with
  | false => rfl
  | true => exact Prod.ext (ite_resched x rfl (s.writeHome_resched x ..)) rfl

theorem walkFrom_resched (who : Who) (asid va : Nat) (adu : Bool) (fuel level table : Nat) :
    walkFrom (s.resched x) who asid va adu fuel level table = walkFrom s who asid va adu fuel level table := by
  induction fuel generalizing level table with
  | zero => rfl
  | succ fuel ih =>
    unfold walkFrom
    simp only [ih]
    rfl

theorem pointersFrom_resched (asid va fuel level table : Nat) :
    pointersFrom (s.resched x) asid va fuel level table = pointersFrom s asid va fuel level table := by
  induction fuel generalizing level table with
  | zero => rfl
  | succ fuel ih =>
    unfold pointersFrom
    simp only [ih]
    rfl

theorem State.notePointers_resched (die asid va : Nat) : (s.resched x).notePointers die asid va = (s.notePointers die asid va).resched x := by
  unfold State.notePointers
  simp only [pointersFrom_resched]
  exact ite_resched x rfl rfl

/-- What a translation comes to in a package with other records of the scheduler. -/
def Xlate.resched (x : Sched) : Xlate → Xlate
  | .ok pa t s => .ok pa t (s.resched x)
  | .fault k l s => .fault k l (s.resched x)
  | .firewall s => .firewall (s.resched x)

/-- No translation by an engine depends on the scheduler's records. -/
theorem engineXlate_resched (die asid world : Nat) (who : Who) (va access : Nat) :
    engineXlate (s.resched x) die asid world who va access = (engineXlate s die asid world who va access).resched x := by
  have hfinish : ∀ (r : State) (t : Tr), (match permFault t access false with
      | some k => Xlate.fault k (if t.large then 2 else 3) (r.resched x)
      | none => if r.admits who (t.pa va) then .ok (t.pa va) t (r.resched x) else .firewall (r.resched x)) = Xlate.resched x
      (match permFault t access false with
      | some k => Xlate.fault k (if t.large then 2 else 3) r
      | none => if r.admits who (t.pa va) then .ok (t.pa va) t r else .firewall r) := by
    intro r t
    split
    · rfl
    · split <;> rfl
  have hwalk : walk (s.resched x) die asid world va = walk s die asid world va := by
    unfold walk
    simp only [walkFrom_resched]
    rfl
  unfold engineXlate
  rw [hwalk]
  split
  · rfl
  · dsimp only
    have he : (s.resched x).die die = s.die die := rfl
    rw [he]
    cases (s.die die).ts.entries.find? fun t => t.covers asid va && !t.needsDirty access with
    | some t => exact hfinish s t
    | none =>
      dsimp only
      cases (walk s die asid world va).1 with
      | leaf t =>
        dsimp only
        rw [State.notePointers_resched, touchLeaf_resched]
        generalize touchLeaf (s.notePointers die asid va) t (isWrite access && (permFault t access false).isNone) = r
        exact hfinish (r.1.updTs die fun ts => { ts with entries := cacheAdd 32768 r.2 ts.entries }) r.2
      | fault k l => rfl
      | firewall => rfl

/-- Nor do the pages of a task's ranges. -/
theorem rangePages_resched (t : Task) (fuel va len : Nat) :
    State.rangePages t fuel va len (s.resched x) = ((State.rangePages t fuel va len s).1, (State.rangePages t fuel va len s).2.resched x) := by
  induction fuel generalizing s va len with
  | zero => rfl
  | succ fuel ih =>
    unfold State.rangePages
    split
    · rfl
    · dsimp only
      rw [engineXlate_resched]
      cases engineXlate s (queueDie t.queue) t.asid t.world t.who va 0 with
      | ok pa r s' => simp only [Xlate.resched, ih]
      | fault k l s' => exact ih s' ..
      | firewall s' => exact ih s' ..

theorem rangesPages_resched (t : Task) (rs : List (Nat × Nat)) :
    State.rangesPages t rs (s.resched x) = ((State.rangesPages t rs s).1, (State.rangesPages t rs s).2.resched x) := by
  induction rs generalizing s with
  | nil => rfl
  | cons r rs ih =>
    unfold State.rangesPages
    simp only [rangePages_resched, ih]

theorem State.l2Needs_resched (t : Task) : (s.resched x).l2Needs t = ((s.l2Needs t).1, (s.l2Needs t).2.resched x) := by
  unfold State.l2Needs
  simp only [rangesPages_resched]

end

end Sys2Proof.Machine
end

section
/-! SUPPORT. Tasks of a cancelled queue that hold nothing, tasks that are read from a ring, and their admission (R336, R340, R341, R343, R349). -/

set_option Elab.async false

namespace Sys2Proof.Machine

section
variable {s : State}

/-! ### A cancelled task that holds nothing is gone -/

theorem State.Clear.of_cores (h : s.Clear) {t : State} (hc : t.cores = s.cores) : t.Clear :=
  ⟨hc ▸ h.clearing⟩

theorem filter_updFirst {id : Nat} {f : Task → Task} (hf : ∀ x, (f x).id = x.id) (l : List Task) :
    (updFirst (fun x => x.id == id) f l).filter (fun x => x.id != id) = l.filter fun x => x.id != id := by
  induction l with
  | nil => rfl
  | cons a l ih =>
    rw [updFirst]
    split
    next h => simp [hf, beq_iff_eq.1 h]
    next h => rw [List.filter_cons, List.filter_cons, ih]

theorem State.endProtection_only (t : Task) : s.endProtection t = { s with
    dies := (s.endProtection t).dies,
    sched := { s.sched with tasks := updFirst (fun x => x.id == t.id) (fun t => { t with charge := [] }) s.sched.tasks } } := by
  have hfold : ∀ l : List (Nat × Nat), ∃ ds, l.foldl (fun (s : State) c => s.updDie c.1 fun d => { d with promised := d.promised - c.2 }) s =
      { s with dies := ds } := by
    intro l
    induction l generalizing s with
    | nil => exact ⟨_, rfl⟩
    | cons c l ih =>
      obtain ⟨ds, h⟩ := ih (s := s.updDie c.1 fun d => { d with promised := d.promised - c.2 })
      exact ⟨ds, h⟩
  obtain ⟨ds, h⟩ := hfold t.charge
  unfold State.endProtection
  dsimp only
  rw [h]
  rfl

theorem State.Clear.putWord (h : s.Clear) (q asid world va : Nat) (f : Nat → Nat) : (s.putWord q asid world va f).1.Clear :=
  State.Clear.blind.putWord h q asid world va f

theorem State.Clear.updQueue (h : s.Clear) (q : Nat) (f : Queue → Queue) : (s.updQueue q f).Clear := ⟨h.clearing⟩

theorem State.Clear.retireSlots (q fuel : Nat) (h : s.Clear) : (State.retireSlots q fuel s).Clear := by
  induction fuel generalizing s with
  | zero => exact h
  | succ fuel ih =>
    rw [State.retireSlots]
    split
    · exact h
    · dsimp only
      split
      · exact (h.putWord ..).updQueue ..
      · exact ih ((h.putWord ..).updQueue ..)

theorem State.tasks_retireSlots (q fuel : Nat) : (State.retireSlots q fuel s).sched.tasks = s.sched.tasks := by
  have hput : ∀ (s : State) (q asid world va : Nat) (f : Nat → Nat), (s.putWord q asid world va f).1.sched.tasks = s.sched.tasks :=
    fun s q asid world va f => congrArg (·.sched.tasks) (s.rest_putWord q asid world va f)
  induction fuel generalizing s with
  | zero => rfl
  | succ fuel ih =>
    rw [State.retireSlots]
    split
    · rfl
    · dsimp only
      split
      · exact hput ..
      · exact ih.trans (hput ..)

/-- A task that ends is gone. -/
theorem State.finishTask_gone {id : Nat} {t : Task} (ht : s.task id = some t) (status : Nat) :
    (s.finishTask id status).sched.tasks = s.sched.tasks.filter (fun x => x.id != id) ∧ (s.Clear → (s.finishTask id status).Clear) := by
  unfold State.finishTask
  split
  next hnone => exact nomatch ht.symm.trans hnone
  next t' ht' =>
  obtain rfl := Option.some.inj (ht.symm.trans ht')
  extract_lets s1 tl a b sig s2 last s3 src s4 s5
  have hid : t.id = id := State.task_id ht
  have h1 : (s.Clear → s1.Clear) ∧ s1.sched.tasks.filter (fun x => x.id != id) = s.sched.tasks.filter fun x => x.id != id := by
    have honly := s.endProtection_only t
    refine ⟨fun h => State.Clear.of_cores h (by unfold s1; rw [honly]), ?_⟩
    unfold s1
    rw [honly, ← hid]
    exact filter_updFirst (f := fun t => { t with charge := [] }) (fun _ => rfl) _
  clear_value s1
  have ha : (s.Clear → a.1.Clear) ∧ a.1.sched.tasks = s1.sched.tasks :=
    ⟨fun h => (h1.1 h).putWord .., congrArg (·.sched.tasks) (s1.rest_putWord ..)⟩
  clear_value a
  have hb : (s.Clear → b.1.Clear) ∧ b.1.sched.tasks = s1.sched.tasks :=
    ⟨fun h => (ha.1 h).putWord .., (congrArg (·.sched.tasks) (a.1.rest_putWord ..)).trans ha.2⟩
  clear_value b
  have h2 : (s.Clear → sig.1.Clear) ∧ sig.1.sched.tasks = s1.sched.tasks := by
    unfold sig
    split
    · exact ⟨h1.1, rfl⟩
    · exact hb
  clear_value sig
  have h4 : (s.Clear → s4.Clear) ∧ s4.sched.tasks = s.sched.tasks.filter fun x => x.id != id :=
    ⟨fun h => ⟨(h2.1 h).clearing⟩, (congrArg (List.filter fun x : Task => x.id != id) h2.2).trans h1.2⟩
  clear_value s4
  have h5 : (s.Clear → s5.Clear) ∧ s5.sched.tasks = s.sched.tasks.filter fun x => x.id != id := by
    unfold s5
    split
    · exact h4
    · exact ⟨fun h => State.Clear.blind.cancelTriggers (h4.1 h) _, (congrArg (·.sched.tasks) (s4.rest_cancelTriggers _)).trans h4.2⟩
  clear_value s5
  exact ⟨(State.tasks_retireSlots ..).trans h5.2, fun h => State.Clear.retireSlots _ _ (h5.1 h)⟩

/-- A cancel that takes effect records it in the task. -/
theorem State.cancelled_tasks (t : Task) (status : Nat) : (s.cancelled t status).sched.tasks =
    updFirst (fun x => x.id == t.id) (fun t => { t with stage := .cancelled, status := status, saved := [], saving := false })
      (updFirst (fun x => x.id == t.id) (fun t => { t with charge := [] }) s.sched.tasks) := by
  have hrest : ∀ (l : List Saved) (cs : List (Nat × Cohort)) (s : State),
      (l.foldl (fun s x => s.freeImage x) (cs.foldl (fun s c => s.abortCohort c.1) s)).rest = s.rest := fun l cs s =>
    (State.rest_foldl _ (fun s x => s.rest_freeImage x) _ _).trans (State.rest_foldl _ (fun s (c : Nat × Cohort) => s.rest_abortCohort c.1) _ _)
  unfold State.cancelled
  dsimp only
  rw [State.endProtection_only]
  exact congrArg (fun l : List Task => updFirst (fun x => x.id == t.id)
    (fun t => { t with stage := .cancelled, status := status, saved := [], saving := false })
    (updFirst (fun x => x.id == t.id) (fun t => { t with charge := [] }) l)) (congrArg (fun r : State => r.sched.tasks) (hrest ..))

/-- A task that a cancel has met in time is cancelled with its status, or gone. -/
theorem State.cancelTask_status {id : Nat} {t : Task} (ht : s.task id = some t) (hst : t.stage ≠ .cancelled) (hlate : s.tooLate t = false)
    (status : Nat) : ∀ y, (s.cancelTask id status).task id = some y → y.stage = .cancelled ∧ y.status = status := by
  obtain rfl := State.task_id ht
  have htask : (s.cancelled t status).task t.id = some { t with charge := [], stage := .cancelled, status := status, saved := [], saving := false } := by
    rw [State.task, State.cancelled_tasks]
    exact find?_updFirst_map Task.id (fun t => { t with stage := .cancelled, status := status, saved := [], saving := false })
      (find?_updFirst_map Task.id (fun t => { t with charge := [] }) ht fun _ => rfl) fun _ => rfl
  rw [State.cancelTask_eq ht hst hlate]
  intro y hy
  unfold State.settleCancel at hy
  rw [htask] at hy
  dsimp only at hy
  split at hy
  · obtain rfl := Option.some.inj (htask.symm.trans hy)
    exact ⟨rfl, rfl⟩
  · have hgone := (State.finishTask_gone htask status).1
    have hmem : y ∈ _ := List.mem_of_find?_eq_some hy
    rw [hgone] at hmem
    have hne := (List.mem_filter.1 hmem).2
    rw [State.task_id hy] at hne
    simp at hne

/-- A cancelled task that holds nothing is gone, and no other task is touched. -/
theorem State.cancelTask_gone {id : Nat} {t : Task} (ht : s.task id = some t) (hst : t.stage ≠ .cancelled) (hc : s.cohorts = []) (h : s.Clear)
    (status : Nat) : (s.cancelTask id status).sched.tasks = s.sched.tasks.filter (fun x => x.id != id) ∧ (s.cancelTask id status).Clear := by
  obtain rfl := State.task_id ht
  have hlate : s.tooLate t = false := by
    rw [State.tooLate, hc]
    simp
  rw [State.cancelTask_eq ht hst hlate]
  have hstep : ∃ ds sc, s.cancelled t status = { s with dies := ds, sched := sc } := by
    have himage : ∀ (l : List Saved) (s : State), ∃ ds, l.foldl (fun s x => s.freeImage x) s = { s with dies := ds } := by
      intro l
      induction l with
      | nil => exact fun s => ⟨_, rfl⟩
      | cons x l ih => exact fun s => ih (s.freeImage x)
    have hno : (s.cohorts.filter fun c => c.2.task == t.id) = [] := by rw [hc]; rfl
    obtain ⟨ds, hds⟩ := himage t.saved { s with sched := { s.sched with staging := s.sched.staging.filter fun x => x.task != t.id } }
    unfold State.cancelled
    dsimp only
    rw [hno, List.foldl_nil, hds, State.endProtection_only]
    exact ⟨_, _, rfl⟩
  obtain ⟨ds, sc, hcan⟩ := hstep
  have htask : (s.cancelled t status).task t.id = some { t with charge := [], stage := .cancelled, status := status, saved := [], saving := false } := by
    rw [State.task, State.cancelled_tasks]
    exact find?_updFirst_map Task.id (fun t => { t with stage := .cancelled, status := status, saved := [], saving := false })
      (find?_updFirst_map Task.id (fun t => { t with charge := [] }) ht fun _ => rfl) fun _ => rfl
  have hclear : (s.cancelled t status).Clear := State.Clear.of_cores h (by rw [hcan])
  have hgone := State.finishTask_gone htask status
  have hsettle : (s.cancelled t status).settleCancel t.id = (s.cancelled t status).finishTask t.id status := by
    have hcoh : ((s.cancelled t status).cohorts.any fun c => c.2.task == t.id) = false := by rw [hcan, hc]; rfl
    have hcore : ((s.cancelled t status).cores.any fun c => c.2.clearing.any fun x => x.task == t.id) = false := by
      rw [List.any_eq_false]
      exact fun c hc => by rw [hclear.clearing c hc]; exact Bool.false_ne_true
    unfold State.settleCancel
    rw [htask, hcoh, hcore]
    exact if_neg (by simp)
  rw [hsettle]
  refine ⟨hgone.1.trans ?_, hgone.2 hclear⟩
  rw [State.cancelled_tasks]
  exact (filter_updFirst (f := fun t => { t with stage := .cancelled, status := status, saved := [], saving := false }) (fun _ => rfl) _).trans
    (filter_updFirst (f := fun t => { t with charge := [] }) (fun _ => rfl) _)

/-- The tasks of a cancelled queue that hold nothing are gone. -/
theorem State.cancelTasks_gone {ids : List Nat} (hn : (s.sched.tasks.map (·.id)).Nodup) (hids : ids.Nodup)
    (hl : ∀ i ∈ ids, ∀ x ∈ s.sched.tasks, x.id = i → x.stage ≠ .cancelled) (hc : s.cohorts = []) (h : s.Clear) (status : Nat) :
    ∀ y ∈ (ids.foldl (fun s t => s.cancelTask t status) s).sched.tasks, y.id ∉ ids := by
  induction ids generalizing s with
  | nil => exact fun _ _ => List.not_mem_nil
  | cons i ids ih =>
    obtain ⟨hi, hids⟩ := List.nodup_cons.1 hids
    have hcan := State.Cancels.cancelTask s i status
    have hstep : (∀ y ∈ (s.cancelTask i status).sched.tasks, y.id ≠ i ∧ y ∈ s.sched.tasks) ∧ (s.cancelTask i status).Clear := by
      cases ht : s.task i with
      | none =>
        have hsame : s.cancelTask i status = s := by rw [State.cancelTask, ht]
        rw [hsame]
        exact ⟨fun y hy => ⟨fun hyi => by simpa [hyi, ht] using State.task_of_mem hn hy, hy⟩, h⟩
      | some t =>
        obtain ⟨htasks, hclear⟩ := State.cancelTask_gone ht (hl i List.mem_cons_self t (List.mem_of_find?_eq_some ht) (State.task_id ht)) hc h status
        refine ⟨fun y hy => ?_, hclear⟩
        rw [htasks] at hy
        obtain ⟨hy, hyi⟩ := List.mem_filter.1 hy
        exact ⟨by simpa using hyi, hy⟩
    intro y hy hmem
    have hrest := ih (hn.sublist hcan.ids) hids
      (fun j hj x hx => hl j (List.mem_cons_of_mem _ hj) x (hstep.1 x hx).2) (hcan.cohorts.trans hc) hstep.2 y hy
    rcases List.mem_cons.1 hmem with hyi | hyl
    · obtain ⟨x, hx, hxy⟩ := (State.Cancels.foldl _ (fun s t => State.Cancels.cancelTask s t status) ids (s.cancelTask i status)).tasks y hy
      exact (hstep.1 x hx).1 (hxy.id.symm.trans hyi)
    · exact hrest hyl

theorem foldl_stays_of_mem {α β : Type} {f : α → β → α} {s : α} {l : List β} (h : ∀ r ∈ l, f s r = s) : l.foldl f s = s := by
  induction l with
  | nil => rfl
  | cons r l ih => rw [List.foldl_cons, h r List.mem_cons_self, ih fun x hx => h x (List.mem_cons_of_mem _ hx)]

/-! ### A task that is read from a ring -/

theorem Queue.ringVa_mod (q : Queue) : q.ringVa % 128 = 0 := by
  unfold Queue.ringVa wrapTo signedOf
  generalize fld q.ring.toNat 56 7 = a
  split <;> push_cast <;> omega

/-- A descriptor without dependences and ranges passes its checks. -/
theorem State.checkTask_ok {t : Task} (hbad : descMalformed t.desc t.world (t.queue == 256) = false)
    (hneed : (needOf t.desc).within (coreHas (if t.queue = 256 then 160 else 0)) = true) (hserve : s.dieServes 0 t.asid t.world = true)
    (hdep : descNdep t.desc = 0) (hws : descNws t.desc = 0) : s.checkTask t = (.inr ([], []), s) := by
  have hserved : s.served t = true := by
    unfold State.served
    split <;> simp [hserve]
  have htable : ∀ va n, s.readTable t va 0 n = (some [], s) := fun va n => by
    unfold State.readTable
    rw [Nat.zero_mul]
    rfl
  have hneed' : (needOf t.desc).within (coreHas (if (t.queue == 256) = true then 160 else 0)) = true := by
    simpa only [beq_iff_eq] using hneed
  unfold State.checkTask
  dsimp only
  rw [hbad, hneed', hserved, hdep, hws, htable]
  dsimp only
  rw [htable]
  rfl

/-- A task with no dependence has nothing to wait for. -/
theorem State.pollDeps_none {id : Nat} {t : Task} (ht : s.task id = some t) (hd : t.deps = []) (hst : t.stage = .waiting) :
    s.pollDeps id = s.updTask id fun t => { t with depsOk := t.depsOk ++ [] } := by
  unfold State.pollDeps
  rw [ht]
  dsimp only
  rw [if_neg (by simp [hst]), hd]
  rfl

/-- The records of the scheduler once a descriptor has been read. -/
def State.withTask (s : State) (q head slot desc : Nat) : State :=
  let x := s.queue q
  let t := Task.arrived (s.ids + 1) q head (BitVec.ofNat 64 slot) desc x.asid (x.world q) s.sched.nextDisp s.sched.order s.clock x.lastTask
  State.updQueue { s with ids := s.ids + 1, sched := { s.sched with
    tasks := s.sched.tasks ++ [t], order := s.sched.order + 1, lastRead := some (s.clock, queueDie q)
    nextDisp := if s.sched.nextDisp = 2 ^ 32 - 1 then 1 else s.sched.nextDisp + 1 } } q fun x => { x with
      slots := x.slots ++ [{ n := head, ended := false, ring := x.ringVa, asid := x.asid, world := x.world q, task := s.ids + 1 }], lastTask := s.ids + 1 }

/-- The task that a descriptor becomes. -/
def State.arrival (s : State) (q head slot desc : Nat) : Task :=
  Task.arrived (s.ids + 1) q head (BitVec.ofNat 64 slot) desc (s.queue q).asid ((s.queue q).world q) s.sched.nextDisp s.sched.order s.clock
    (s.queue q).lastTask

theorem State.task_withTask {q head slot desc : Nat} (hnew : s.task (s.ids + 1) = none) :
    (s.withTask q head slot desc).task (s.ids + 1) = some (s.arrival q head slot desc) := by
  show List.find? _ (s.sched.tasks ++ [s.arrival q head slot desc]) = _
  rw [List.find?_append, show s.sched.tasks.find? (fun x => x.id == s.ids + 1) = none from hnew, Option.none_or]
  exact List.find?_cons_of_pos (beq_self_eq_true _)

theorem State.newTask_ok {q head slot desc : Nat} (hbad : descMalformed desc ((s.queue q).world q) (q == 256) = false)
    (hneed : (needOf desc).within (coreHas (if q = 256 then 160 else 0)) = true)
    (hserve : s.dieServes 0 (s.queue q).asid ((s.queue q).world q) = true) (hdep : descNdep desc = 0) (hws : descNws desc = 0)
    (hnew : s.task (s.ids + 1) = none) :
    s.newTask q head slot desc = ((s.withTask q head slot desc).updTask (s.ids + 1) fun t => { t with
      stage := .waiting, deps := [], wset := [] }).updTask (s.ids + 1) fun t => { t with depsOk := t.depsOk ++ [] } := by
  have hcheck : (s.withTask q head slot desc).checkTask (s.arrival q head slot desc) = (.inr ([], []), s.withTask q head slot desc) :=
    State.checkTask_ok (t := s.arrival q head slot desc) hbad hneed hserve hdep hws
  have htask := find?_updFirst_map Task.id (fun t => { t with stage := .waiting, deps := [], wset := [] })
    (State.task_withTask (q := q) (head := head) (slot := slot) (desc := desc) hnew) fun _ => rfl
  have hstep : s.newTask q head slot desc = match (s.withTask q head slot desc).checkTask (s.arrival q head slot desc) with
      | (.inl status, s') => s'.cancelTask (s.ids + 1) status
      | (.inr (deps, ws), s') => (s'.updTask (s.ids + 1) fun t => { t with stage := .waiting, deps := deps, wset := ws }).pollDeps (s.ids + 1) := rfl
  rw [hstep, hcheck]
  exact State.pollDeps_none htask rfl rfl

/-- What a task that has been read looks like, and the records of the scheduler then. -/
theorem State.newTask_spec {q head slot desc : Nat} (hbad : descMalformed desc ((s.queue q).world q) (q == 256) = false)
    (hneed : (needOf desc).within (coreHas (if q = 256 then 160 else 0)) = true)
    (hserve : s.dieServes 0 (s.queue q).asid ((s.queue q).world q) = true) (hdep : descNdep desc = 0) (hws : descNws desc = 0)
    (hnew : s.task (s.ids + 1) = none) :
    (s.newTask q head slot desc).mem = s.mem ∧
      ((s.newTask q head slot desc).task (s.ids + 1)).map (fun x => (x.stage, x.deps, x.wset)) = some (.waiting, [], []) ∧
      (s.newTask q head slot desc).sched.tasks.map (fun x => (x.desc, x.disp, x.queue, x.slotN)) =
        s.sched.tasks.map (fun x => (x.desc, x.disp, x.queue, x.slotN)) ++ [(desc, s.sched.nextDisp, q, head)] ∧
      (s.newTask q head slot desc).sched.nextDisp = if s.sched.nextDisp = 2 ^ 32 - 1 then 1 else s.sched.nextDisp + 1 := by
  rw [State.newTask_ok hbad hneed hserve hdep hws hnew]
  refine ⟨rfl, ?_, ?_, rfl⟩
  · have h1 := find?_updFirst_map Task.id (fun t => { t with stage := .waiting, deps := [], wset := [] })
      (State.task_withTask (q := q) (head := head) (slot := slot) (desc := desc) hnew) fun _ => rfl
    have h2 := find?_updFirst_map Task.id (fun t => { t with depsOk := t.depsOk ++ [] }) h1 fun _ => rfl
    exact congrArg (Option.map fun x : Task => (x.stage, x.deps, x.wset)) h2
  · show List.map _ (updFirst _ _ (updFirst _ _ (s.sched.tasks ++ [s.arrival q head slot desc]))) = _
    rw [map_updFirst, map_updFirst, List.map_append]
    · rfl
    · exact fun _ => rfl
    · exact fun _ => rfl

theorem taskRead_turn {n : Nat} (hturn : s.readOutOfTurn (queueDie n) = true) : exec (.taskRead n) s = .next s := by
  show execTaskRead n s = _
  unfold execTaskRead
  exact if_pos (by simp [hturn])

/-- What a front end finds at the head of a ring. -/
structure State.RingReads (s : State) (n tailPa headPa : Nat) : Prop where
  queue : n ≤ 256
  bell : (s.queue n).bell = true
  enabled : (s.queue n).enabled = true
  schedules : s.schedules = true
  goes : s.worldStopped ((s.queue n).world n) = false
  room : s.sched.tasks.length < 4096
  tail : s.engineReaches (queueDie n) (s.queue n).asid ((s.queue n).who n) ((s.queue n).ringVa % 2 ^ 64) 0 tailPa
  head : s.engineReaches (queueDie n) (s.queue n).asid ((s.queue n).who n) (((s.queue n).ringVa + 64) % 2 ^ 64) 0 headPa
  tailGood : s.poisoned tailPa 8 = false
  headGood : s.poisoned headPa 8 = false

section
variable {n tailPa headPa : Nat} (h : s.RingReads n tailPa headPa)
include h

/-- The reads of TAIL and HEAD, in turn. -/
theorem taskRead_reads (hturn : s.readOutOfTurn (queueDie n) = false) : exec (.taskRead n) s =
    if s.read tailPa 8 ≤ s.read headPa 8 then .next (s.updQueue n fun x => { x with bell := false })
    else
      let slot := ((s.queue n).ringVa + 128 + 128 * (s.read headPa 8 % (s.queue n).slotCount n)) % 2 ^ 64
      match engineRead (queueDie n) (s.queue n).asid ((s.queue n).world n) ((s.queue n).who n) 0 2 s (slot % 2 ^ 64) 128 with
      | .ok d s' =>
        match engineXlate s' (queueDie n) (s.queue n).asid ((s.queue n).world n) ((s.queue n).who n) (((s.queue n).ringVa + 64) % 2 ^ 64) 1 with
        | .ok pa _ s' => .next ((s'.writeHome pa (natLe 8 (s.read headPa 8 + 1))).newTask n (s.read headPa 8) slot (leNat d))
        | r => .next (r.after.ringFault n)
      | r => .next (r.after.ringFault n) := by
  have hva := (s.queue n).ringVa_mod
  obtain ⟨hn, hbell, hen, hsch, hgo, hroom, htail, hhead, htg, hhg⟩ := h
  have hr1 := engineRead_of_reaches htail ((s.queue n).world n) (n := 8) (by omega) htg 0
  have hr2 := engineRead_of_reaches hhead ((s.queue n).world n) (n := 8) (by omega) hhg 0
  show execTaskRead n s = _
  unfold execTaskRead
  dsimp only
  rw [if_neg (by simp [hbell, hen, hsch, hgo, hturn]; omega), hr1]
  dsimp only
  rw [hr2]
  rfl

/-- An empty ring: the bell is answered. -/
theorem taskRead_empty (hturn : s.readOutOfTurn (queueDie n) = false) (hle : s.read tailPa 8 ≤ s.read headPa 8) :
    exec (.taskRead n) s = .next (s.updQueue n fun x => { x with bell := false }) := by
  rw [taskRead_reads h hturn, if_pos hle]

/-- A slot that can be read becomes a task. -/
theorem taskRead_slot {slotPa : Nat} (hturn : s.readOutOfTurn (queueDie n) = false) (hlt : s.read headPa 8 < s.read tailPa 8)
    (hslot : s.engineReaches (queueDie n) (s.queue n).asid ((s.queue n).who n)
      (((s.queue n).ringVa + 128 + 128 * (s.read headPa 8 % (s.queue n).slotCount n)) % 2 ^ 64) 0 slotPa) (hsg : s.poisoned slotPa 128 = false)
    (hwr : s.engineReaches (queueDie n) (s.queue n).asid ((s.queue n).who n) (((s.queue n).ringVa + 64) % 2 ^ 64) 1 headPa) (hs : s.still = true) :
    exec (.taskRead n) s = .next ((s.poke headPa (natLe 8 (s.read headPa 8 + 1)) none).newTask n (s.read headPa 8)
      (((s.queue n).ringVa + 128 + 128 * (s.read headPa 8 % (s.queue n).slotCount n)) % 2 ^ 64) (s.read slotPa 128)) := by
  have hva := (s.queue n).ringVa_mod
  have hr := engineRead_of_reaches hslot ((s.queue n).world n) (n := 128) (by omega) hsg 0
  obtain ⟨r, hx⟩ := engineXlate_of_reaches hwr ((s.queue n).world n)
  rw [taskRead_reads h hturn, if_neg (by omega)]
  dsimp only
  rw [Nat.mod_mod, hr]
  dsimp only
  rw [hx]
  dsimp only
  rw [((State.still_iff s).1 hs).writeHome]
  rfl

end

/-! ### Dependences and admission -/

theorem State.task_updTask {id : Nat} {x : Task} (hx : s.task id = some x) {f : Task → Task} (hf : ∀ y, (f y).id = y.id) :
    (s.updTask id f).task id = some (f x) :=
  find?_updFirst_map Task.id f hx hf

/-- A word that a task depends on is read again. -/
theorem dependencePoll_reads {id e pa : Nat} {x : Task} (hx : s.task id = some x) (hst : x.stage = .waiting) (hd : x.deps = [e]) (hok : x.depsOk = [])
    (hne : e / 2 ^ 64 % 2 ^ 64 ≠ 0) (hr : s.engineReaches (queueDie x.queue) x.asid x.who (e % 2 ^ 64) 0 pa) (hp : s.poisoned pa 8 = false)
    (hsnap : s.snap.state ≠ 1) (hlock : s.unlocked = true) :
    exec (.dependencePoll id) s = .next (s.updTask id fun t => { t with
      depsOk := t.depsOk ++ if e / 2 ^ 64 % 2 ^ 64 ≤ s.read pa 8 then [0] else [] }) := by
  obtain ⟨r, hx'⟩ := engineXlate_of_reaches hr x.world
  have hf0 : fld e 63 0 = e % 2 ^ 64 := by simp [fld]
  have hf1 : fld e 127 64 = e / 2 ^ 64 % 2 ^ 64 := by simp [fld]
  have hread : readDeps x [0] s = (some (if e / 2 ^ 64 % 2 ^ 64 ≤ s.read pa 8 then [0] else []), s) := by
    have he : nth 0 x.deps 0 = e := by rw [hd]; rfl
    unfold readDeps
    dsimp only
    rw [he, hf1, if_neg hne, hf0, hx']
    dsimp only
    rw [hp, State.readHeld_of_unlocked hlock hsnap]
    generalize e / 2 ^ 64 % 2 ^ 64 = v
    by_cases hle : v ≤ s.read pa 8
    · rw [if_pos hle]
      simp [readDeps, hle]
    · rw [if_neg hle]
      simp [readDeps, hle]
  show Host.Outcome.next (s.pollDeps id) = _
  unfold State.pollDeps
  rw [hx]
  dsimp only
  rw [if_neg (by simp [hst]), hd, hok]
  have hleft : (List.range [e].length).filter (fun i => !([] : List Nat).contains i) = [0] := rfl
  rw [hleft, hread]

/-- What a staging copy is known by. -/
def Staging.key (c : Staging) : Nat × Nat × Option Nat × Nat := (c.task, c.range, c.cohort, c.die)

theorem State.addStagings (xs : List Staging) (s : State) : ∃ k l, xs.foldl State.addStaging s =
    { s with ids := k, sched := { s.sched with staging := s.sched.staging ++ l } } ∧ l.map Staging.key = xs.map Staging.key := by
  induction xs generalizing s with
  | nil => exact ⟨s.ids, [], by simp, rfl⟩
  | cons x xs ih =>
    obtain ⟨k, l, hs, hl⟩ := ih (s.addStaging x)
    refine ⟨k, { x with id := s.ids + 1 } :: l, ?_, congrArg (_ :: ·) hl⟩
    rw [List.foldl_cons, hs]
    simp [State.addStaging, State.fresh]

/-- The staging copies of a task's L2 ranges: one by each die. -/
def Task.l2Copies (t : Task) (id : Nat) : List Staging :=
  t.l2Ranges.flatMap fun i => [0, 1, 2, 3].map fun d => Staging.start 0 id i (wsAddr (nth 0 t.wset i)) (wsLen (nth 0 t.wset i)) 0 d none

/-- From ADMITTED. -/
theorem State.leaveAdmitted_spec {id : Nat} {t : Task} (ht : s.task id = some t) :
    (s.leaveAdmitted id).mem = s.mem ∧ (s.leaveAdmitted id).sched.order = s.sched.order ∧ (s.leaveAdmitted id).sched.dem = s.sched.dem ∧
      (s.leaveAdmitted id).task id = some { t with stage := if t.demand = true ∨ t.l2Ranges.isEmpty = true then .ready else .staging, entered := s.clock } ∧
      (¬(t.demand = true ∨ t.l2Ranges.isEmpty = true) → (s.leaveAdmitted id).sched.staging.map Staging.key =
        s.sched.staging.map Staging.key ++ t.l2Ranges.flatMap fun r => [0, 1, 2, 3].map fun d => (id, r, none, d)) := by
  unfold State.leaveAdmitted
  rw [ht]
  dsimp only
  by_cases h : t.demand = true ∨ t.l2Ranges.isEmpty = true
  · rw [if_pos h, if_pos h]
    exact ⟨rfl, rfl, rfl, State.task_updTask ht fun _ => rfl, fun hn => absurd h hn⟩
  · rw [if_neg h, if_neg h]
    obtain ⟨k, l, hs, hl⟩ := State.addStagings (t.l2Copies id) (s.updTask id fun t => { t with stage := .staging, entered := s.clock })
    rw [Task.l2Copies, List.foldl_flatMap] at hs
    simp only [List.foldl_map] at hs
    rw [hs]
    refine ⟨rfl, rfl, rfl, State.task_updTask (f := fun t => { t with stage := .staging, entered := s.clock }) ht fun _ => rfl, fun _ => ?_⟩
    dsimp only
    rw [List.map_append, hl, Task.l2Copies, List.map_flatMap]
    rfl

/-- A task whose turn it is, when it is admitted: what it needs of each die and whether there is room for that. -/
structure State.Admits (s : State) (id : Nat) (x : Task) (needs : List (Nat × Nat)) : Prop where
  task : s.task id = some x
  eligible : s.eligible x = true
  goes : s.worldStopped x.world = false
  served : s.served x = true
  fits : s.fitHolds x = true
  first : ∀ y ∈ s.sched.tasks, descPrio y.desc < descPrio x.desc ∨ descPrio y.desc = descPrio x.desc ∧ x.order ≤ y.order
  needs : s.l2Needs x = (needs, s)

/-- Is there room for the staged lines of a task on every die (R343)? -/
def State.hasRoom (s : State) (needs : List (Nat × Nat)) : Bool := needs.all fun x => decide ((s.die x.1).promised + x.2 ≤ s.reserve x.1)

/-- The package once a task's charge, or the demand mode, is recorded. -/
def State.charged (s : State) (id : Nat) (needs : List (Nat × Nat)) : State :=
  if s.hasRoom needs then
    needs.foldl (fun s x => if x.2 = 0 then s else s.updDie x.1 fun d => { d with promised := d.promised + x.2 })
      (s.updTask id fun t => { t with charge := needs.filter fun x => x.2 != 0 })
  else { s with sched := { s.sched with dem := (s.sched.dem + 1) % 2 ^ 32 } }

theorem State.charged_spec {id : Nat} {x : Task} (hx : s.task id = some x) (needs : List (Nat × Nat)) :
    (s.charged id needs).mem = s.mem ∧ (s.charged id needs).sched.order = s.sched.order ∧
      (s.charged id needs).sched.staging = s.sched.staging ∧ (∃ c, (s.charged id needs).task id = some { x with charge := c }) ∧
      (s.hasRoom needs = false → (s.charged id needs).sched.dem = (s.sched.dem + 1) % 2 ^ 32) := by
  have hfold : ∀ (l : List (Nat × Nat)) (s : State), ∃ ds, l.foldl (fun s x => if x.2 = 0 then s else
      s.updDie x.1 fun d => { d with promised := d.promised + x.2 }) s = { s with dies := ds } := by
    intro l
    induction l with
    | nil => exact fun s => ⟨_, rfl⟩
    | cons a l ih =>
      intro s
      rw [List.foldl_cons]
      split
      · exact ih s
      · exact ih (s.updDie a.1 fun d => { d with promised := d.promised + a.2 })
  unfold State.charged
  cases hroom : s.hasRoom needs with
  | true =>
    rw [if_pos rfl]
    obtain ⟨ds, hs⟩ := hfold needs (s.updTask id fun t => { t with charge := needs.filter fun x => x.2 != 0 })
    rw [hs]
    exact ⟨rfl, rfl, rfl, ⟨_, State.task_updTask (f := fun t => { t with charge := needs.filter fun x => x.2 != 0 }) hx fun _ => rfl⟩, nofun⟩
  | false =>
    rw [if_neg Bool.false_ne_true]
    exact ⟨rfl, rfl, rfl, ⟨x.charge, hx⟩, fun _ => rfl⟩

theorem admissionTest_admits {id : Nat} {x : Task} {needs : List (Nat × Nat)} (h : s.Admits id x needs) :
    exec (.admissionTest id) s =
      let r := (s.updTask id fun t => { t with fitHeld := none }).charged id needs
      .next ((State.updTask { r with sched := { r.sched with order := r.sched.order + 1 } } id fun t => { t with
        stage := .admitted, demand := !s.hasRoom needs, admitted := r.sched.order }).leaveAdmitted id) := by
  obtain ⟨hx, hel, hgo, hserved, hfit, hfirst, hneeds⟩ := h
  have hany : ((s.updTask id fun t => { t with fitHeld := none }).sched.tasks.any fun y =>
      (decide (descPrio x.desc < descPrio y.desc) || (descPrio y.desc == descPrio x.desc && decide (y.order < x.order))) &&
        (s.updTask id fun t => { t with fitHeld := none }).eligible y && (s.updTask id fun t => { t with fitHeld := none }).fitHolds y) = false := by
    rw [List.any_eq_false]
    intro y hy
    obtain ⟨z, hz, hzd, hzo⟩ : ∃ z ∈ s.sched.tasks, z.desc = y.desc ∧ z.order = y.order := by
      rcases mem_updFirst hy with hy | ⟨z, hz, -, rfl⟩
      · exact ⟨y, hy, rfl, rfl⟩
      · exact ⟨z, hz, rfl, rfl⟩
    have := hfirst z hz
    rw [hzd, hzo] at this
    simp only [Bool.and_eq_true, Bool.or_eq_true, decide_eq_true_eq, beq_iff_eq, not_and]
    omega
  have hl2 : (s.updTask id fun t => { t with fitHeld := none }).l2Needs x = (needs, s.updTask id fun t => { t with fitHeld := none }) := by
    have hre := s.l2Needs_resched (s.updTask id fun t => { t with fitHeld := none }).sched x
    rw [hneeds] at hre
    exact hre
  show execAdmissionTest id s = _
  unfold execAdmissionTest
  rw [hx]
  dsimp only
  rw [if_neg (by simp [hel, hgo]), hserved, if_neg (by decide), hfit, if_neg (by decide), hany, if_neg Bool.false_ne_true, hl2]
  rfl

end

end Sys2Proof.Machine

open Sys2Proof Sys2Proof.Machine

/-- Settles O51: cancels by what remains of a queue, reads by the ring's words, admissions by the charge. -/
theorem taskAdmission : Obligations.TaskAdmission := by
  refine ⟨fun s n => ?_, fun s id x hx => ?_⟩
  · intro q die reach
    have hcancel : n < 256 → exec (.taskQueueCancel n) s = .next (s.cancelQueue n) := fun hn => congrArg Host.Outcome.next (if_pos hn)
    refine ⟨fun hn => ⟨congrArg Host.Outcome.next (if_neg (by omega)), congrArg Host.Outcome.next (if_neg (by omega))⟩, fun hn hnd hlate => ?_,
      fun hn hnd hlate => ⟨_, hcancel hn, State.cancelQueue_cancels hnd hlate, fun hnot hcoh hclear y hy hq => ?_⟩, fun hen => ⟨?_, ?_⟩,
      fun hn hen => ?_, fun tailPa headPa hn hbell hen hsch hgo hroom htail hhead htg hhg => ⟨fun hturn => taskRead_turn hturn,
        fun hturn => ?_⟩⟩
    · have hstay : ∀ i ∈ (s.sched.tasks.filter fun t => t.queue == n).map (·.id), s.cancelTask i 6 = s := fun i hi => by
        obtain ⟨y, hy, rfl⟩ := List.mem_map.1 hi
        obtain ⟨hy, hq⟩ := List.mem_filter.1 hy
        exact State.cancelTask_none (State.task_of_mem hnd hy) (.inr (hlate y hy (beq_iff_eq.1 hq))) 6
      rw [hcancel hn, State.cancelQueue, foldl_stays_of_mem hstay]
    · have hids : ((s.sched.tasks.filter fun t => t.queue == n).map (·.id)).Nodup := hnd.sublist (List.filter_sublist.map _)
      refine State.cancelTasks_gone hnd hids (fun i hi z hz hzi => ?_) hcoh ⟨hclear⟩ 6 y hy ?_
      · obtain ⟨y', hy', rfl⟩ := List.mem_map.1 hi
        obtain ⟨hy', hq'⟩ := List.mem_filter.1 hy'
        obtain rfl := Option.some.inj ((State.task_of_mem hnd hz).symm.trans (hzi ▸ State.task_of_mem hnd hy'))
        exact hnot z hz (beq_iff_eq.1 hq')
      · obtain ⟨z, hz, hzy⟩ := (State.Cancels.foldl _ (fun s t => State.Cancels.cancelTask s t 6) _ s).tasks y hy
        exact List.mem_map.2 ⟨z, List.mem_filter.2 ⟨hz, beq_iff_eq.2 (hzy.queue.symm.trans hq)⟩, hzy.id.symm⟩
    · have hring : s.ringBell n = s := if_neg (by rw [show (s.queue n).enabled = false from hen]; exact Bool.false_ne_true)
      show Host.Outcome.next (if n < 256 then s.ringBell n else s) = _
      rw [hring, ite_self]
    · show execTaskRead n s = _
      unfold execTaskRead
      exact if_pos (by simp [show (s.queue n).enabled = false from hen])
    · refine ⟨s.updQueue n fun x => { x with bell := true }, ?_, (State.queue_updQueue ..).trans (if_pos rfl)⟩
      exact congrArg Host.Outcome.next ((if_pos hn).trans (if_pos hen))
    · have hring : s.RingReads n tailPa headPa := ⟨hn, hbell, hen, hsch, hgo, hroom, htail, hhead, htg, hhg⟩
      intro head
      refine ⟨fun hle => ⟨_, taskRead_empty hring hturn hle, fun _ => rfl, (State.queue_updQueue ..).trans (if_pos rfl), rfl⟩, ?_⟩
      intro slotPa hlt hslot hsg hwr hs d home hbad hneed hover hserve hdep hws hnew
      have hexec := taskRead_slot hring hturn hlt hslot hsg hwr hs
      let s' := s.poke headPa (natLe 8 (head + 1)) none
      have hq : s'.queue n = q := congrArg (fun c : Sched => mapGet Queue.reset c.queues n) (State.poke_sched ..)
      have hids : s'.ids = s.ids := State.poke_ids ..
      have hsched : s'.sched = s.sched := State.poke_sched ..
      have hserve' : s'.dieServes 0 q.asid (q.world n) = true := by
        have hdies : s'.dies = s.dies := State.poke_dies_of_no_watch ((State.still_iff s).1 hs).noWatch ..
        have hasid : q.asid < 2 ^ 12 := Nat.mod_lt _ (by decide)
        have hout : ¬(headPa < (s.die 0).ts.asbase.toNat / 65536 % 2 ^ 36 * 65536 + 65536 ∧
            (s.die 0).ts.asbase.toNat / 65536 % 2 ^ 36 * 65536 < headPa + 8) := of_decide_eq_false hover
        have hread : asEntry s' 0 q.asid = asEntry s 0 q.asid := by
          rw [asEntry, asEntry, State.die, hdies]
          exact State.read_poke_out s none (by rw [length_natLe]; unfold State.die at hout; omega)
        rw [State.dieServes, hread, asEnabled, State.die, hdies]
        exact hserve
      have hnew' : s'.task (s'.ids + 1) = none := by
        rw [hids, State.task, hsched]
        exact hnew
      obtain ⟨hmem, htask, htasks, hdisp⟩ := State.newTask_spec (s := s') (q := n) (head := head)
        (slot := (q.ringVa + 128 + 128 * (head % q.slotCount n)) % 2 ^ 64) (desc := d) (by rw [hq]; exact hbad) hneed
        (by rw [hq]; exact hserve') hdep hws hnew'
      rw [hids] at htask
      rw [hsched] at htasks hdisp
      refine ⟨_, hexec, ?_, fun a ha => ?_, htask, htasks, hdisp⟩
      · exact ((State.read_of_mem hmem ..).trans (State.read_poke_self ..)).trans (by norm_num)
      · exact ((State.byte_of_mem hmem a).trans (State.byte_poke ..)).trans (if_neg (by rw [length_natLe]; exact ha))
  · refine ⟨fun hst => ⟨?_, ?_⟩, fun e pa hst hd hok hne hr hp hsnap hlock => ?_, fun hel hgo hserved => ?_, fun hel hgo hserved hfit => ?_,
      fun needs hel hgo hserved hfit hfirst hneeds => ?_, ?_⟩
    · show Host.Outcome.next (s.pollDeps id) = _
      unfold State.pollDeps
      rw [hx]
      exact congrArg Host.Outcome.next (if_pos hst)
    · have hel : s.eligible x = false := by simp [State.eligible, hst]
      show execAdmissionTest id s = _
      unfold execAdmissionTest
      rw [hx]
      exact if_pos (by simp [hel])
    · refine ⟨_, dependencePoll_reads hx hst hd hok hne hr hp hsnap hlock, fun _ => rfl, ?_⟩
      rw [State.task_updTask (f := fun t => { t with depsOk := t.depsOk ++ if e / 2 ^ 64 % 2 ^ 64 ≤ s.read pa 8 then [0] else [] }) hx fun _ => rfl, hok]
      rfl
    · have hexec : exec (.admissionTest id) s = .next (s.cancelTask id 2) := by
        show execAdmissionTest id s = _
        unfold execAdmissionTest
        rw [hx]
        dsimp only
        rw [if_neg (by simp [hel, hgo]), hserved]
        rfl
      have hst : x.stage = .waiting := by
        simp only [State.eligible, Bool.and_eq_true, beq_iff_eq] at hel
        exact hel.1.1
      have hlate : s.tooLate x = false := by simp [State.tooLate, hst]
      exact ⟨_, hexec, State.cancelTask_status hx (by simp [hst]) hlate 2⟩
    · have hexec : exec (.admissionTest id) s = .next (s.updTask id fun t => { t with fitHeld := some (t.fitHeld.getD s.clock) }) := by
        show execAdmissionTest id s = _
        unfold execAdmissionTest
        rw [hx]
        dsimp only
        rw [if_neg (by simp [hel, hgo]), hserved, if_neg (by decide), hfit]
        rfl
      exact ⟨_, hexec, fun _ => rfl, State.task_updTask (f := fun t => { t with fitHeld := some (t.fitHeld.getD s.clock) }) hx fun _ => rfl⟩
    · intro room
      have hroom : s.hasRoom needs = true ↔ room := by simp [State.hasRoom, room]
      have hx' : (s.updTask id fun t => { t with fitHeld := none }).task id = some { x with fitHeld := none } :=
        State.task_updTask (f := fun t => { t with fitHeld := none }) hx fun _ => rfl
      obtain ⟨hmem, horder, hstage, ⟨c, htask⟩, hdem⟩ := State.charged_spec hx' needs
      have hexec := admissionTest_admits ⟨hx, hel, hgo, hserved, hfit, hfirst, hneeds⟩
      dsimp only at hexec
      generalize (s.updTask id fun t => { t with fitHeld := none }).charged id needs = r at hmem horder hstage htask hdem hexec
      obtain ⟨hmem', horder', hdem', htask', hstage'⟩ := State.leaveAdmitted_spec (id := id) (State.task_updTask
        (s := { r with sched := { r.sched with order := r.sched.order + 1 } })
        (f := fun t => { t with stage := .admitted, demand := !s.hasRoom needs, admitted := r.sched.order }) htask fun _ => rfl)
      refine ⟨_, hexec, State.sameMem_of_mem (hmem'.trans hmem), _, htask', rfl, ?_, horder, horder'.trans (congrArg (· + 1) horder), ?_,
        fun hst => ?_, fun hnr => hdem'.trans (hdem ?_)⟩
      · show (!s.hasRoom needs) = true ↔ ¬room
        rw [← hroom]
        cases s.hasRoom needs <;> simp
      · simp [Task.l2Ranges, or_comm]
      · have hnot : ¬((!s.hasRoom needs) = true ∨ (Task.l2Ranges x).isEmpty = true) := fun h => by
          have hst' : (if (!s.hasRoom needs) = true ∨ (Task.l2Ranges x).isEmpty = true then Stage.ready else .staging) = .staging := hst
          rw [if_pos h] at hst'
          exact nomatch hst'
        exact (hstage' hnot).trans (congrArg (· ++ _) (congrArg (List.map Staging.key) hstage))
      · cases h : s.hasRoom needs with
        | true => exact absurd (hroom.1 h) hnr
        | false => exact h
    · intro due
      have hexec : exec (.stagingTimeout id) s = if due then .next (s.updTask id fun t => { t with stage := .ready, entered := s.clock })
          else .next s := by
        show execStagingTimeout id s = _
        unfold execStagingTimeout
        rw [hx]
        dsimp only
        by_cases h : due
        · rw [if_pos h]
          exact if_pos h
        · rw [if_neg h]
          exact if_neg h
      exact ⟨fun h => hexec.trans (if_neg h), fun h => ⟨_, hexec.trans (if_pos h), fun _ => rfl,
        State.task_updTask (f := fun t => { t with stage := .ready, entered := s.clock }) hx fun _ => rfl⟩⟩
end

section
/-! SUPPORT. A fired trigger whose operation has no target, in a package where an earlier operation has the next number (R312, R321). -/

set_option Elab.async false

namespace Sys2Proof.Machine

/-- A fired trigger of kind 2 whose pattern names the sender alone and leaves it out. -/
def loneSignal : Trigger :=
  { entry := 0, gen := 1, world := 0, asid := 0, disp := 0, task := 0, cohort := 0, core := 0, mask := 1, sb := 0, cpl := 0, sbPa := 0x20000,
    nbt := 0, tol := 0, kind := 2, timed := false, consume := false, late := false, grid := (1, 0), fireNo := 0, cmdVa := 0,
    cmd := natLe 32 (2 ^ 120), fired := true, unsync := false, time := 0, cause := 0, done := false, cmdId := 0 }

/-- A cohort of one wave with no storage. -/
def bareCohort : Cohort :=
  { task := 3, index := 0, world := 0, asid := 0, core := 0, paired := false, nwaves := 1, waves := [], ended := [], cx := 0, cy := 0, cz := 0,
    scratchSize := 0, scratch := [], empty := [], stagePend := [], failed := [], spoiled := [], fifoSegs := [], fifos := [], barriers := [],
    mx := [], obBytes := 0, obBase := [], accRows := 0, accBase := [], planes := 0, segs := [], started := 0 }

/-- It is saved with wave 5 to the page at 0x10000. -/
def savedBare : Saved :=
  { id := 1, cohort := bareCohort, waves := [(5, Wave.placed 0 0 0 0 1 32 0 0 0)], die := 0, pages := [0x10000], bytes := 256, count := 0 }

/-- The trigger is in die 0; the operation that has the number 1, the next to be given, belongs to the saved wave 5. -/
def signalState : State :=
  { State.reset with
    dies := [(0, { Die.reset with triggers := [loneSignal] })]
    fabric := { State.reset.fabric with ops := [{ RemoteOp.blank with id := 1, wave := some 5 }] }
    sched := { State.reset.sched with tasks := [{ Task.arrived 3 0 0 0 0 0 0 0 0 0 0 with saved := [savedBare] }] } }

/-- The byte at 0x10001 after a step. -/
def seenSavedByte (o : Host.Outcome State Fault Refusal) : Option Byte :=
  match o with
  | .next t => some (t.byte 0x10001)
  | _ => none

end Sys2Proof.Machine

open Sys2Proof Sys2Proof.Machine

/-- Refutes O41: the operation of the fired trigger has no target and is settled at once; the package's first operation of that number is an
older one of a saved wave, whose answer is written into the wave's image in memory. -/
theorem not_triggersAndTables : ¬ Obligations.TriggersAndTables := by
  intro h
  obtain ⟨hfired, -⟩ := h.2.1 signalState 0 0 loneSignal (by decide +kernel)
  obtain ⟨t, hx, -, hmem⟩ := hfired rfl rfl rfl (.inr rfl)
  have hseen : seenSavedByte (exec (.triggerFire 0 0 0) signalState) = some (signalState.byte 0x10001) := by
    have hx' : exec (.triggerFire 0 0 0) signalState = .next t := hx
    rw [hx']
    exact congrArg some (hmem _)
  exact absurd hseen (by decide +kernel)

end

section
/-! SUPPORT. System copy channels: a record's status, its bytes, and the chain after it (R417 to R419). -/

set_option Elab.async false

namespace Sys2Proof.Machine

section
variable {s t : State} {die ch d c pa status : Nat} {k : Chain} {l : Link}

/-! ### Channels -/

theorem State.channel_updChannel (s : State) (die ch : Nat) (f : Channel → Channel) (d c : Nat) :
    (s.updChannel die ch f).channel d c = if d = die ∧ c = ch then f (s.channel die ch) else s.channel d c := by
  rw [State.updChannel, State.channel, State.die_updDie]
  by_cases hd : d = die
  · subst hd
    rw [if_pos rfl]
    by_cases hc : c = ch
    · rw [if_pos ⟨rfl, hc⟩, hc]
      exact mapGet_mapPut_self ..
    · rw [if_neg fun h => hc h.2]
      exact mapGet_mapPut_ne _ _ _ hc
  · rw [if_neg hd, if_neg fun h => hd h.1]
    rfl

theorem State.channel_updChannel_self (s : State) (die ch : Nat) (f : Channel → Channel) :
    (s.updChannel die ch f).channel die ch = f (s.channel die ch) := by
  rw [State.channel_updChannel, if_pos ⟨rfl, rfl⟩]

theorem State.channel_of_dies (h : t.dies = s.dies) (d c : Nat) : t.channel d c = s.channel d c := by
  rw [State.channel, State.die, h]
  rfl

theorem State.Still.updChannel (h : s.Still) (die ch : Nat) (f : Channel → Channel) : (s.updChannel die ch f).Still :=
  h.updDie die rfl rfl

/-! ### The status of a record -/

/-- Bits 28 to 31 of a record with a status, and without OWN. -/
def closedWord (x status : Nat) : Nat := x % 2 ^ 26 / 2 * 2 + 2 ^ 26 * (status % 16) + x / 2 ^ 30 * 2 ^ 30

theorem closedWord_status {x : Nat} : closedWord x status / 2 ^ 26 % 16 = status % 16 := by
  rw [closedWord]
  omega

theorem closedWord_own {x : Nat} : closedWord x status % 2 = 0 := by
  rw [closedWord]
  omega

theorem closedWord_lt {x : Nat} (hx : x < 2 ^ 32) : closedWord x status < 2 ^ 32 := by
  rw [closedWord]
  omega

theorem State.Still.closeLink (h : s.Still) (pa status : Nat) :
    s.closeLink pa status = s.poke (pa + 28) (natLe 4 (closedWord (s.read (pa + 28) 4) status)) none := h.writeHome ..

/-- A record closed with a status: its word alone changes. -/
structure State.Closed (s t : State) (pa status : Nat) : Prop where
  byte : ∀ a, ¬(pa + 28 ≤ a ∧ a < pa + 32) → t.byte a = s.byte a
  status : t.read (pa + 28) 4 / 2 ^ 26 % 16 = status % 16
  own : t.read (pa + 28) 4 % 2 = 0

theorem State.Closed.of_mem {r : State} (h : s.Closed t pa status) (hr : r.mem = t.mem) : s.Closed r pa status := by
  refine ⟨fun a ha => (State.byte_of_mem hr a).trans (h.byte a ha), ?_, ?_⟩
  · rw [State.read_of_mem hr, h.status]
  · rw [State.read_of_mem hr, h.own]

theorem State.Still.closed (h : s.Still) (pa status : Nat) : s.Closed (s.closeLink pa status) pa status := by
  rw [h.closeLink]
  have hx : s.read (pa + 28) 4 < 2 ^ 32 := by
    have := leNat_lt (s.bytes (pa + 28) 4)
    rwa [show (s.bytes (pa + 28) 4).length = 4 by simp [State.bytes]] at this
  have hread := s.read_poke_self (pa + 28) 4 (closedWord (s.read (pa + 28) 4) status) none
  rw [show (256 ^ 4 : Nat) = 2 ^ 32 by norm_num, Nat.mod_eq_of_lt (closedWord_lt hx)] at hread
  refine ⟨fun a ha => State.byte_poke_out s none (by rw [length_natLe]; omega), ?_, ?_⟩
  · rw [hread, closedWord_status]
  · rw [hread, closedWord_own]

/-- The channel after a record that ends with a status. -/
def Channel.next (c : Channel) (l : Link) (status : Nat) : Channel :=
  if status ≠ 0 then { c with host := none, err := true }
  else if l.next = 0 then { c with host := none }
  else { c with host := some (Chain.at_ true l.next), cur := l.next }

theorem State.Still.endRecord (h : s.Still) (die ch : Nat) (k : Chain) (l : Link) (status : Nat) :
    s.Closed (s.endRecord die ch k l status) k.cur status ∧
    (s.endRecord die ch k l status).channel die ch = (s.channel die ch).next l status := by
  unfold State.endRecord
  dsimp only
  generalize hr : (if l.int = true then (s.closeLink k.cur status).raiseMsix die ch else s.closeLink k.cur status) = r
  have hmem : r.mem = (s.closeLink k.cur status).mem := by
    rw [← hr]
    split <;> rfl
  have hdies : r.dies = s.dies := by
    rw [← State.poke_dies_of_no_watch h.noWatch (k.cur + 28) (natLe 4 (closedWord (s.read (k.cur + 28) 4) status)) none, ← h.closeLink, ← hr]
    split <;> rfl
  refine ⟨(h.closed k.cur status).of_mem hmem, ?_⟩
  rw [State.channel_updChannel_self, State.channel_of_dies hdies]
  rfl

/-! ### Host chains -/

/-- The package in which the channel has begun a record of its host chain. -/
def State.begun (s : State) (die ch : Nat) : State := s.updChannel die ch fun c => { c with last := some false }

theorem State.channelRecord_eq (hk : (s.channel die ch).host = some k) (hp : k.parked = false) (hst : s.trust.stage = 3)
    (ht : (s.channel die ch).turn false = true) : exec (.channelRecord die ch false) s = .next (s.hostRecord die ch k) := by
  show execChannelRecord die ch false s = _
  unfold execChannelRecord
  rw [if_neg Bool.false_ne_true, hk]
  dsimp only
  rw [if_neg]
  simp [hp, State.released, hst, ht]

/-- A record that the channel reads now. -/
theorem State.hostRecord_eq (hr : k.rec_ = none) (hs : k.sent = false) (htr : k.trapped = false) (hl : s.linkAt (.host none) k.cur = some l) :
    s.hostRecord die ch k =
      if !l.own then (s.begun die ch).updChannel die ch fun c => { c with host := none }
      else if l.malformed then (s.begun die ch).endRecord die ch k l 1
      else match movePieces (hostMover die ch l.asid) l (2 * (l.len / 65536) + 4) (s.begun die ch) k.done with
        | .all t => if l.dkind = 2 then t.updChannel die ch fun c => { c with host := c.host.map fun k' => k'.after (s.read k.cur 64) l.len l }
          else t.endRecord die ch k l 0
        | .stop t status => t.endRecord die ch k l status
        | .part t off => t.updChannel die ch fun c => { c with host := c.host.map fun k' => k'.after (s.read k.cur 64) off l } := by
  unfold State.hostRecord State.chainLink
  rw [hr, hl]
  dsimp only [Option.map_none, Option.orElse]
  rw [if_neg (c := k.sent = true ∧ l.len ≤ k.done) fun h => Bool.false_ne_true (hs.symm.trans h.1), if_neg (c := k.trapped = true) (by simp [htr])]
  rfl

/-- One piece between two ranges of memory, each within a page. -/
theorem State.Still.movePiece (h : s.Still) {m : Mover} (hsk : l.skind = 0) (hdk : l.dkind = 0) (hsrc : l.src % 65536 + l.len ≤ 65536)
    (hdst : l.dst % 65536 + l.len ≤ 65536) (hbs : s.backedMem l.src l.len = true) (hbd : s.backedMem l.dst l.len = true)
    (has : s.admits m.who l.src = true) (had : s.admits m.who l.dst = true) (hp : s.poisoned l.src l.len = false) (hs : l.src < 2 ^ 64)
    (hd : l.dst < 2 ^ 64) : l.piece 0 = l.len ∧ movePiece s m l 0 = .moved (s.poke l.dst (s.bytes l.src l.len) none) := by
  have hn : l.piece 0 = l.len := by
    rw [Link.piece]
    simp only [Nat.sub_zero, Nat.add_zero]
    omega
  refine ⟨hn, ?_⟩
  have hlen : (s.bytes l.src l.len).length = l.len := by simp [State.bytes]
  unfold Machine.movePiece
  dsimp only
  rw [hn, Nat.add_zero, Nat.mod_eq_of_lt hs, hsk]
  unfold moverPa
  simp only [show ((0 : Nat) == 1) = false from rfl, Bool.false_eq_true, if_false, hbs, has, Bool.not_true, hp, h.readHeld]
  unfold moverPut
  rw [if_neg (by rw [hdk]; decide), Nat.add_zero, Nat.mod_eq_of_lt hd, hdk, hlen]
  unfold moverPa
  simp only [show ((0 : Nat) == 1) = false from rfl, Bool.false_eq_true, if_false, hbd, had, Bool.not_true, h.writeHeld, h.writeHome]

theorem Link.len_ne_zero (h : l.malformed = false) : l.len ≠ 0 := by
  intro h0
  simp [Link.malformed, h0] at h

/-- A record of one piece has been moved when its bytes have. -/
theorem movePieces_one {m : Mover} (hpiece : l.piece 0 = l.len) (hmove : movePiece s m l 0 = .moved t) (hlen : l.len ≠ 0) (n : Nat) :
    movePieces m l (2 * n + 4) s 0 = .all t := by
  rw [show 2 * n + 4 = (2 * n + 3) + 1 from rfl, movePieces, if_neg (by omega), hmove]
  dsimp only
  rw [hpiece, Nat.zero_add, show 2 * n + 3 = (2 * n + 2) + 1 from rfl, movePieces, if_pos (le_refl _)]

end

end Sys2Proof.Machine
end

section
/-! SUPPORT. The host chains of the system copy channels (R417 to R419). -/

set_option Elab.async false

namespace Sys2Proof.Machine

section
variable {s t : State} {die ch : Nat} {k : Chain} {l : Link}

theorem State.still_of (h : s.still = true) : s.Still := s.still_iff.1 h

/-- A record that is not the engine's ends its chain. -/
theorem State.channelRecord_unowned (hk : (s.channel die ch).host = some k) (hp : k.parked = false) (htr : k.trapped = false)
    (hr : k.rec_ = none) (hs : k.sent = false) (hst : s.trust.stage = 3) (ht : (s.channel die ch).turn false = true)
    (hl : s.linkAt (.host none) k.cur = some l) (hown : l.own = false) : Happens s (.channelRecord die ch false) fun t => s.sameMem t ∧
      (t.channel die ch).host = none ∧ (t.channel die ch).err = (s.channel die ch).err := by
  have hrec : s.hostRecord die ch k = (s.begun die ch).updChannel die ch fun c => { c with host := none } := by
    rw [State.hostRecord_eq hr hs htr hl, if_pos (by rw [hown]; rfl)]
  refine ⟨_, (State.channelRecord_eq hk hp hst ht).trans (congrArg _ hrec), State.sameMem_of_mem rfl, ?_⟩
  rw [State.channel_updChannel_self, State.begun, State.channel_updChannel_self]
  exact ⟨rfl, rfl⟩

/-- A malformed one is closed with status 1. -/
theorem State.channelRecord_malformed (hk : (s.channel die ch).host = some k) (hp : k.parked = false) (htr : k.trapped = false)
    (hr : k.rec_ = none) (hs : k.sent = false) (hst : s.trust.stage = 3) (ht : (s.channel die ch).turn false = true)
    (hl : s.linkAt (.host none) k.cur = some l) (hown : l.own = true) (hbad : l.malformed = true) (hstill : s.still = true) :
    Happens s (.channelRecord die ch false) fun t =>
      (t.channel die ch).host = none ∧ (t.channel die ch).err = true ∧
      (∀ a, ¬(k.cur + 28 ≤ a ∧ a < k.cur + 32) → t.byte a = s.byte a) ∧ t.read (k.cur + 28) 4 / 2 ^ 26 % 16 = 1 ∧ t.read (k.cur + 28) 4 % 2 = 0 := by
  have hrec : s.hostRecord die ch k = (s.begun die ch).endRecord die ch k l 1 := by
    rw [State.hostRecord_eq hr hs htr hl, if_neg (by rw [hown]; decide), if_pos hbad]
  refine ⟨_, (State.channelRecord_eq hk hp hst ht).trans (congrArg _ hrec), ?_⟩
  obtain ⟨hclosed, hch⟩ := ((State.still_of hstill).updChannel die ch fun c => { c with last := some false }).endRecord die ch k l 1
  exact ⟨congrArg Channel.host hch, congrArg Channel.err hch, hclosed.byte, hclosed.status, hclosed.own⟩

/-- A good one of one piece is copied, closed and followed. -/
theorem State.channelRecord_copied (hk : (s.channel die ch).host = some k) (hp : k.parked = false) (htr : k.trapped = false)
    (hr : k.rec_ = none) (hs : k.sent = false) (hst : s.trust.stage = 3) (ht : (s.channel die ch).turn false = true)
    (hl : s.linkAt (.host none) k.cur = some l) (hown : l.own = true) (hgood : l.malformed = false) (hstill : s.still = true) (hdone : k.done = 0)
    (hdk : l.dkind = 0)
    (hmove : l.piece 0 = l.len ∧ movePiece (s.begun die ch) (hostMover die ch l.asid) l 0 =
      .moved ((s.begun die ch).poke l.dst ((s.begun die ch).bytes l.src l.len) none)) :
    Happens s (.channelRecord die ch false) fun t =>
      (∀ a, ¬(k.cur + 28 ≤ a ∧ a < k.cur + 32) → t.byte a = if l.dst ≤ a ∧ a < l.dst + l.len then s.byte (l.src + (a - l.dst)) else s.byte a) ∧
      t.read (k.cur + 28) 4 / 2 ^ 26 % 16 = 0 ∧ t.read (k.cur + 28) 4 % 2 = 0 ∧
      (t.channel die ch).host = if l.next = 0 then none else some { cur := l.next, done := 0, parked := false, trapped := false, host := true } := by
  have hbegun : (s.begun die ch).Still := (State.still_of hstill).updChannel die ch fun c => { c with last := some false }
  have hrec : s.hostRecord die ch k = ((s.begun die ch).poke l.dst ((s.begun die ch).bytes l.src l.len) none).endRecord die ch k l 0 := by
    rw [State.hostRecord_eq hr hs htr hl, if_neg (c := (!l.own) = true) (by rw [hown]; decide),
      if_neg (c := l.malformed = true) (by rw [hgood]; decide), hdone, movePieces_one hmove.1 hmove.2 (Link.len_ne_zero hgood)]
    exact if_neg (by rw [hdk]; decide)
  refine ⟨_, (State.channelRecord_eq hk hp hst ht).trans (congrArg _ hrec), ?_⟩
  obtain ⟨hclosed, hch⟩ := (hbegun.poke l.dst ((s.begun die ch).bytes l.src l.len) none).endRecord die ch k l 0
  refine ⟨fun a ha => ?_, hclosed.status, hclosed.own, ?_⟩
  · rw [hclosed.byte a ha, State.byte_poke, show ((s.begun die ch).bytes l.src l.len).length = l.len by simp [State.bytes]]
    split
    · rw [State.bytes, nth_map_range _ _ _ (by omega)]
      rfl
    · rfl
  · rw [hch, Channel.next, if_neg (not_not.2 rfl)]
    split <;> rfl

/-- The peer's answer closes the record that was sent to it. -/
theorem State.roceAck_closed {n : Nat} (cause : Nat) (hk : (s.channel die ch).host = some k) (hr : k.rec_ = some n) (hs : k.sent = true)
    (hlen : (linkOf n).len ≤ k.done) (hstill : s.still = true) :
    Happens s (.roceAck (.channel die ch false) cause) fun t => (∀ a, ¬(k.cur + 28 ≤ a ∧ a < k.cur + 32) → t.byte a = s.byte a) ∧
      t.read (k.cur + 28) 4 / 2 ^ 26 % 16 = (if cause = 0 then 0 else 5) ∧ t.read (k.cur + 28) 4 % 2 = 0 ∧
      if cause = 0 then (t.channel die ch).err = (s.channel die ch).err else (t.channel die ch).host = none ∧ (t.channel die ch).err = true := by
  have hx : exec (.roceAck (.channel die ch false) cause) s = .next (s.endRecord die ch k (linkOf n) (if cause = 0 then 0 else 5)) := by
    show execRoceAck (.channel die ch false) cause s = _
    unfold execRoceAck State.hostAnswered State.chainLink
    dsimp only
    rw [if_neg Bool.false_ne_true, hk]
    dsimp only
    rw [hr]
    exact congrArg _ (if_pos ⟨hs, hlen⟩)
  obtain ⟨hclosed, hch⟩ := (State.still_of hstill).endRecord die ch k (linkOf n) (if cause = 0 then 0 else 5)
  refine ⟨_, hx, hclosed.byte, ?_, hclosed.own, ?_⟩
  · rw [hclosed.status]
    split <;> rfl
  · rw [hch, Channel.next]
    by_cases hc : cause = 0
    · rw [if_pos hc, if_pos hc, if_neg (not_not.2 rfl)]
      split <;> rfl
    · rw [if_neg hc, if_neg hc, if_pos (by decide)]
      exact ⟨rfl, rfl⟩

theorem execChannelHeadWrite_spec {v : DWord} (hd : die < 4) (hc : ch < 4) (hst : s.trust.stage = 3) :
    Happens s (.channelHeadWrite die ch v) fun t => s.sameMem t ∧
      if (s.channel die ch).host.isSome then t.channel die ch = { s.channel die ch with drop := true }
      else (t.channel die ch).cur = v.toNat / 64 % 2 ^ 46 * 64 ∧
        (t.channel die ch).host = some { cur := v.toNat / 64 % 2 ^ 46 * 64, done := 0, parked := false, trapped := false, host := true } := by
  have hx : exec (.channelHeadWrite die ch v) s = .next (s.writeHead die ch v) := congrArg _ (if_pos ⟨hd, hc⟩)
  refine ⟨_, hx, ?_⟩
  unfold State.writeHead
  dsimp only
  rw [if_neg (by simp [State.released, hst]), State.channel_updChannel_self]
  refine ⟨State.sameMem_of_mem rfl, ?_⟩
  by_cases h : (s.channel die ch).host.isSome = true
  · rw [if_pos h, if_pos h]
  · rw [if_neg h, if_neg h]
    exact ⟨rfl, rfl⟩

theorem execChannelRecord_waits (hk : (s.channel die ch).host = some k) (hr : k.rec_ = none) (ht : (s.channel die ch).turn false = false) :
    exec (.channelRecord die ch false) s = .next s := by
  show execChannelRecord die ch false s = _
  unfold execChannelRecord
  rw [if_neg Bool.false_ne_true, hk]
  dsimp only
  rw [if_pos]
  simp [hr, ht]

end

end Sys2Proof.Machine
end

section
/-! SUPPORT. The snapshot engine: arming, freezing, marking, the drain's channels and the copy of a page (R92 to R98). -/

set_option Elab.async false

namespace Sys2Proof.Machine

section
variable {s t : State} {die ch : Nat} {k : Chain} {l : Link}

/-! ### The drain chains of all channels -/

theorem foldl_drains (o : Option Chain) (cs : List (Nat × Nat)) (s : State) (d c : Nat) :
    (cs.foldl (fun s x => s.updChannel x.1 x.2 fun c => { c with drain := o }) s).channel d c =
      if (d, c) ∈ cs then { s.channel d c with drain := o } else s.channel d c := by
  induction cs generalizing s with
  | nil => rfl
  | cons x cs ih =>
    rw [List.foldl_cons, ih, State.channel_updChannel]
    by_cases hx : d = x.1 ∧ c = x.2
    · have hm : (d, c) ∈ x :: cs := by rw [hx.1, hx.2]; exact List.mem_cons_self
      rw [if_pos hx, if_pos hm, hx.1, hx.2]
      split <;> rfl
    · have hm : (d, c) ∈ x :: cs ↔ (d, c) ∈ cs := by
        rw [List.mem_cons]
        exact or_iff_right fun h => hx ⟨congrArg Prod.fst h, congrArg Prod.snd h⟩
      rw [if_neg hx]
      by_cases h : (d, c) ∈ cs
      · rw [if_pos h, if_pos (hm.2 h)]
      · rw [if_neg h, if_neg (mt hm.1 h)]

theorem mem_allChannels {d c : Nat} (hd : d < 4) (hc : c < 4) : (d, c) ∈ allChannels := by
  have : ∀ d < 4, ∀ c < 4, (d, c) ∈ allChannels := by decide
  exact this d hd c hc

theorem State.channel_setDrains (s : State) (o : Option Chain) {d c : Nat} (hd : d < 4) (hc : c < 4) :
    (s.setDrains o).channel d c = { s.channel d c with drain := o } :=
  (foldl_drains o allChannels s d c).trans (if_pos (mem_allChannels hd hc))

/-- Nothing but the channels changes. -/
theorem foldl_drains_only (o : Option Chain) (cs : List (Nat × Nat)) (s : State) :
    ∃ ds, cs.foldl (fun s x => s.updChannel x.1 x.2 fun c => { c with drain := o }) s = { s with dies := ds } := by
  induction cs generalizing s with
  | nil => exact ⟨_, rfl⟩
  | cons x cs ih =>
    obtain ⟨ds, h⟩ := ih (s.updChannel x.1 x.2 fun c => { c with drain := o })
    exact ⟨ds, h⟩

theorem State.setDrains_only (s : State) (o : Option Chain) : ∃ ds, s.setDrains o = { s with dies := ds } := foldl_drains_only o allChannels s

theorem State.setDrains_mem (s : State) (o : Option Chain) : (s.setDrains o).mem = s.mem := by
  obtain ⟨ds, h⟩ := s.setDrains_only o
  rw [h]

theorem State.setDrains_snap (s : State) (o : Option Chain) : (s.setDrains o).snap = s.snap := by
  obtain ⟨ds, h⟩ := s.setDrains_only o
  rw [h]

/-! ### What the slices check again leaves the snapshot alone -/

theorem State.snap_updWave (s : State) (u : Nat) (f : Wave → Wave) : (s.updWave u f).snap = s.snap := by
  unfold State.updWave
  split <;> rfl

theorem State.snap_recheckWave (s : State) (u : Nat) : (s.recheckWave u).snap = s.snap := by
  unfold State.recheckWave
  dsimp only
  repeat' split
  all_goals simp only [State.snap_updWave, State.poke_snap, State.setWave_snap]

theorem State.snap_recheckTrigger (s : State) (d : Nat) (t : Trigger) : (s.recheckTrigger d t).snap = s.snap := by
  unfold State.recheckTrigger
  dsimp only
  split
  · split
    · exact State.poke_snap ..
    · rfl
  · rfl

theorem State.snap_recheck (s : State) (pa n : Nat) : (s.recheck pa n).snap = s.snap :=
  foldl_keeps (fun t : State => t.snap = s.snap) _ (fun t _ h => (t.snap_recheckTrigger ..).trans h) _ _
    (foldl_keeps (fun t : State => t.snap = s.snap) _ (fun t _ h => (t.snap_recheckWave ..).trans h) _ _ rfl)

theorem State.snap_unmark (s : State) (page : Nat) : (s.unmark page).snap = { s.snap with marks := mapErase s.snap.marks page } := by
  have h := foldl_keeps (fun t : State => t.snap = s.snap) (fun t a => if bit (t.read a 8) 6 then t.poke a (natLe 8 (t.read a 8 - 2 ^ 6)) none else t)
    (fun t a h => by
      split
      · rw [State.poke_snap, h]
      · exact h) ((mapFind s.snap.marks page).getD []) s rfl
  exact congrArg (fun x : Snap => { x with marks := mapErase x.marks page }) h

/-! ### Arming, freezing, ending -/

theorem execSnapshotArm_spec (hst : s.trust.stage = 3) (hidle : s.snap.state = 0 ∨ s.snap.state = 4) :
    Happens s .snapshotArm fun t =>
      ((∀ i, i < s.snap.count → s.armWalk (snapRegion (s.physRead (s.snap.tablePa + 16 * i) 16)) = s) → s.sameMem t) ∧
        if s.armError = 0 then t.snap.state = 1 ∧ t.snap.err = 0 ∧ t.snap.skip = 0 ∧
          t.snap.regions = (List.range s.snap.count).map fun i => snapRegion (s.physRead (s.snap.tablePa + 16 * i) 16)
        else t.snap.state = 5 ∧ t.snap.err = s.armError := by
  have hgo : ¬((!s.released) = true ∨ s.snap.state ≠ 0 ∧ s.snap.state ≠ 4) := by
    rcases hidle with h | h <;> simp [State.released, hst, h]
  refine ⟨_, (if_neg hgo : execSnapshotArm s = _), ?_⟩
  · refine ⟨fun hwalk => ?_, ?_⟩
    · have hfold : ((List.range s.snap.count).map fun i => snapRegion (s.physRead (s.snap.tablePa + 16 * i) 16)).foldl (fun s r => s.armWalk r) s = s := by
        refine foldl_stays_of_mem fun r hr => ?_
        obtain ⟨i, hi, rfl⟩ := List.mem_map.1 hr
        exact hwalk i (List.mem_range.1 hi)
      rw [hfold]
      refine State.sameMem_of_mem ?_
      unfold State.physDone
      dsimp only
      split <;> rfl
    · dsimp only
      by_cases h : s.armError = 0
      · rw [if_pos h, if_neg (not_not.2 h)]
        exact ⟨rfl, rfl, rfl, rfl⟩
      · rw [if_neg h, if_pos h]
        exact ⟨rfl, rfl⟩

theorem execSnapshotArm_waits (h0 : s.snap.state ≠ 0) (h4 : s.snap.state ≠ 4) : exec .snapshotArm s = .next s := by
  show execSnapshotArm s = _
  unfold execSnapshotArm
  dsimp only
  exact if_pos (.inr ⟨h0, h4⟩)

theorem execSnapshotCancel_spec (h0 : s.snap.state ≠ 0) (h4 : s.snap.state ≠ 4) : Happens s .snapshotCancel fun t =>
    t.snap.state = 0 ∧ t.snap.err = 0 ∧ t.snap.marks = [] ∧ t.snap.copies = [] ∧ t.snap.regions = [] := by
  refine ⟨_, (if_neg (fun h => h.elim h0 h4) : execSnapshotCancel s = _), ?_⟩
  dsimp only
  rw [State.snap_recheck]
  exact ⟨rfl, rfl, rfl, rfl, rfl⟩

/-! ### The cut -/

theorem State.unwatched_poke (h : s.unwatched = true) (pa : Nat) (bs : List Byte) (writer : Option Nat) : (s.poke pa bs writer).unwatched = true := by
  obtain ⟨hd, hw⟩ := Bool.and_eq_true_iff.1 h
  refine Bool.and_eq_true_iff.2 ⟨?_, (s.poke_waves_all pa bs writer _ fun x n => rfl).trans hw⟩
  have hinv : ∀ (r : State) (p : Region → Bool), (r.dies.all fun d => d.2.triggers.isEmpty) = true →
      ((r.invalidateRegions p).dies.all fun d => d.2.triggers.isEmpty) = true := by
    intro r p hr
    unfold State.invalidateRegions State.invalidateRegionsOn
    dsimp only
    split
    · exact hr
    · simp only [if_true, List.all_map]
      exact hr
  unfold State.poke
  dsimp only
  split
  · exact hd
  · unfold State.touched
    refine hinv _ _ ?_
    unfold State.breakWatches
    rw [State.dropCode_only]
    rw [← State.setBytes_dies s pa bs] at hd
    exact hd

/-- A leaf entry with COW, and with ACC where the space asks for it. -/
def markedLeaf (e : Nat) (adu : Bool) : Nat := e ||| 2 ^ 6 ||| (if adu then 2 ^ 9 else 0)

/-- The package with the leaf entry of a translation marked. -/
def State.leafMarked (s : State) (t : Tr) : State :=
  if markedLeaf (s.read t.leafPa 8) t.adu = s.read t.leafPa 8 then s
  else s.poke t.leafPa (natLe 8 (markedLeaf (s.read t.leafPa 8) t.adu)) none

theorem State.snap_leafMarked (s : State) (t : Tr) : (s.leafMarked t).snap = s.snap := by
  unfold State.leafMarked
  split
  · rfl
  · exact State.poke_snap ..

theorem State.markPage_none {asid page : Nat} (h : s.snapLeaf asid page = none) :
    s.markPage asid page = { s with snap := { s.snap with skip := (s.snap.skip + 1) % 2 ^ 24 } } := by
  unfold State.markPage
  rw [h]

/-- Is a page one of a confidential world? -/
def State.sealedPage (s : State) (base : Nat) : Bool := s.isDevice base && decide (2 ≤ (s.owner base).world)

theorem State.markPage_sealed {asid page : Nat} {x : Tr} (h : s.snapLeaf asid page = some x) (hw : s.sealedPage x.base = true) :
    s.markPage asid page = { s with snap := { s.snap with skip := (s.snap.skip + 1) % 2 ^ 24 } } := by
  unfold State.markPage
  rw [h]
  exact if_pos hw

theorem State.markPage_some {asid page : Nat} {x : Tr} (h : s.snapLeaf asid page = some x) (hw : s.sealedPage x.base = false) :
    s.markPage asid page = { s.leafMarked x with snap := { s.snap with
      marks := mapInsert s.snap.marks (x.base / 65536) (insNat x.leafPa ((mapFind s.snap.marks (x.base / 65536)).getD [])) } } := by
  rw [← s.snap_leafMarked x]
  unfold State.markPage
  rw [h]
  exact if_neg (c := s.sealedPage x.base = true) (by rw [hw]; decide)

theorem State.unwatched_markPage (h : s.unwatched = true) (asid page : Nat) : (s.markPage asid page).unwatched = true := by
  cases hl : s.snapLeaf asid page with
  | none => rw [State.markPage_none hl]; exact h
  | some x =>
    cases hw : s.sealedPage x.base with
    | true => rw [State.markPage_sealed hl hw]; exact h
    | false =>
      rw [State.markPage_some hl hw]
      show (s.leafMarked x).unwatched = true
      unfold State.leafMarked
      split
      · exact h
      · exact State.unwatched_poke h ..

theorem State.unwatched_forgetMarked (h : s.unwatched = true) : s.forgetMarked.unwatched = true := by
  obtain ⟨hd, hw⟩ := Bool.and_eq_true_iff.1 h
  refine Bool.and_eq_true_iff.2 ⟨List.all_eq_true.2 fun d hd' => ?_, hw⟩
  obtain ⟨e, he, rfl⟩ := List.mem_map.1 (List.mem_of_mem_filter hd')
  exact List.all_eq_true.1 hd e he

theorem State.physDone_only (s : State) (pa n : Nat) : s.physDone pa n = { s with free := (s.physDone pa n).free } := by
  unfold State.physDone
  split <;> rfl

theorem execSnapshotFreeze_waits (h1 : s.snap.state = 1) (hlt : s.physRead s.snap.timelinePa 8 < s.snap.val.toNat) :
    exec .snapshotFreeze s = .next (s.physDone s.snap.timelinePa 8) := by
  show execSnapshotFreeze s = _
  unfold execSnapshotFreeze
  dsimp only
  rw [if_neg (not_not.2 h1), if_pos hlt]

/-- The package when every page of the armed regions has been marked. -/
def State.cut (s : State) : State :=
  (s.snap.regions.flatMap fun r => (List.range r.2.2).map fun i => (r.1, r.2.1 + i)).foldl (fun t p => State.markPage t p.1 p.2)
    { (s.physDone s.snap.timelinePa 8) with snap := { s.snap with copies := [] } }

theorem State.cut_eq (s : State) :
    s.snap.regions.foldl (fun s r => (List.range r.2.2).foldl (fun s i => s.markPage r.1 (r.2.1 + i)) s)
      { (s.physDone s.snap.timelinePa 8) with snap := { (s.physDone s.snap.timelinePa 8).snap with copies := [] } } = s.cut := by
  rw [State.cut, List.foldl_flatMap, show (s.physDone s.snap.timelinePa 8).snap = s.snap by rw [State.physDone_only]]
  simp only [List.foldl_map]

theorem State.unwatched_cut (h : s.unwatched = true) : s.cut.unwatched = true := by
  refine foldl_keeps (fun t : State => t.unwatched = true) _ (fun t p h => State.unwatched_markPage h p.1 p.2) _ _ ?_
  rw [State.physDone_only]
  exact h

theorem execSnapshotFreeze_spec (h1 : s.snap.state = 1) (hle : s.snap.val.toNat ≤ s.physRead s.snap.timelinePa 8) :
    Happens s .snapshotFreeze fun t => t.snap = { s.cut.snap with state := 2 } ∧ (s.unwatched = true → s.cut.sameMem t) := by
  have hx : exec .snapshotFreeze s = .next (State.recheck { s.cut.forgetMarked with snap := { s.cut.forgetMarked.snap with state := 2 } }
      s.snap.timelinePa 8) := by
    show execSnapshotFreeze s = _
    unfold execSnapshotFreeze
    dsimp only
    rw [if_neg (not_not.2 h1), if_neg (Nat.not_lt.2 hle), s.cut_eq]
    rfl
  refine ⟨_, hx, State.snap_recheck .., fun hun => ?_⟩
  rw [State.recheck_of_unwatched]
  · exact State.sameMem_of_mem rfl
  · exact State.unwatched_forgetMarked (State.unwatched_cut hun)

theorem markedLeaf_lt {e : Nat} (he : e < 2 ^ 64) (adu : Bool) : markedLeaf e adu < 2 ^ 64 := by
  rw [markedLeaf]
  refine Nat.or_lt_two_pow (Nat.or_lt_two_pow he (by norm_num)) ?_
  split <;> norm_num

theorem markedLeaf_cow (e : Nat) (adu : Bool) : bit (markedLeaf e adu) 6 = true := by
  rw [markedLeaf, bit_eq_testBit, Nat.testBit_or, Nat.testBit_or, Nat.testBit_two_pow_self, Bool.or_true, Bool.true_or]

theorem State.leafMarked_byte (s : State) (x : Tr) {a : Nat} (ha : ¬(x.leafPa ≤ a ∧ a < x.leafPa + 8)) : (s.leafMarked x).byte a = s.byte a := by
  unfold State.leafMarked
  split
  · rfl
  · exact State.byte_poke_out s none (by rw [length_natLe]; omega)

theorem State.leafMarked_cow (s : State) (x : Tr) : bit ((s.leafMarked x).read x.leafPa 8) 6 = true := by
  have hlt : s.read x.leafPa 8 < 2 ^ 64 := by
    have := leNat_lt (s.bytes x.leafPa 8)
    rwa [show (s.bytes x.leafPa 8).length = 8 by simp [State.bytes], show (256 ^ 8 : Nat) = 2 ^ 64 by norm_num] at this
  unfold State.leafMarked
  split
  next h =>
    have hb := markedLeaf_cow (s.read x.leafPa 8) x.adu
    rwa [h] at hb
  · rw [State.read_poke_self, show (256 ^ 8 : Nat) = 2 ^ 64 by norm_num, Nat.mod_eq_of_lt (markedLeaf_lt hlt _)]
    exact markedLeaf_cow ..

/-- A page whose leaf is at hand is marked, and nothing but its leaf entry changes in memory. -/
theorem State.markPage_marks {asid page : Nat} {x : Tr} (h : s.snapLeaf asid page = some x) (hw : s.sealedPage x.base = false) :
    (s.markPage asid page).snap.skip = s.snap.skip ∧
    (∃ l, mapFind (s.markPage asid page).snap.marks (x.base / 65536) = some l ∧ x.leafPa ∈ l) ∧
    bit ((s.markPage asid page).read x.leafPa 8) 6 = true ∧
    (∀ p, p ≠ x.base / 65536 → mapFind (s.markPage asid page).snap.marks p = mapFind s.snap.marks p) ∧
    ∀ a, ¬(x.leafPa ≤ a ∧ a < x.leafPa + 8) → (s.markPage asid page).byte a = s.byte a := by
  rw [State.markPage_some h hw]
  exact ⟨rfl, ⟨_, (mapFind_mapInsert ..).trans (if_pos rfl), (mem_insNat ..).2 (.inl rfl)⟩, s.leafMarked_cow x,
    fun p hp => (mapFind_mapInsert ..).trans (if_neg hp), fun a ha => s.leafMarked_byte x ha⟩

theorem execSnapshotMarkComplete_spec (h2 : s.snap.state = 2) : Happens s .snapshotMarkComplete fun t => s.sameMem t ∧ t.snap.marks = s.snap.marks ∧
    if s.snap.drain.toNat / 64 % 2 ^ 46 = 0 then t.snap.state = 4 else t.snap.state = 3 ∧ ∀ d c, d < 4 → c < 4 →
      (t.channel d c).drain =
        some { cur := s.snap.drain.toNat / 64 % 2 ^ 46 * 64, done := 0, parked := false, trapped := false, host := false } := by
  have hx : exec .snapshotMarkComplete s = if s.snap.drain.toNat / 64 % 2 ^ 46 * 64 = 0 then .next { s with snap := { s.snap with state := 4 } }
      else .next (State.setDrains { s with snap := { s.snap with state := 3 } } (some (Chain.at_ false (s.snap.drain.toNat / 64 % 2 ^ 46 * 64)))) :=
    (if_neg (not_not.2 h2) : execSnapshotMarkComplete s = _)
  by_cases h0 : s.snap.drain.toNat / 64 % 2 ^ 46 = 0
  · refine ⟨_, hx.trans (if_pos (by rw [h0])), State.sameMem_of_mem rfl, rfl, ?_⟩
    rw [if_pos h0]
  · refine ⟨_, hx.trans (if_neg fun h => h0 (by omega)), State.sameMem_of_mem (State.setDrains_mem ..), ?_, ?_⟩
    · rw [State.setDrains_snap]
    · rw [if_neg h0, State.setDrains_snap]
      exact ⟨rfl, fun d c hd hc => congrArg Channel.drain (State.channel_setDrains _ _ hd hc)⟩

/-- A page that a write waits for is copied to the pool. -/
theorem execCowPageCopy_spec {page i : Nat} (h3 : 3 ≤ s.snap.state) (hm : (mapFind s.snap.marks page).isSome = true)
    (hs : s.snap.sending.contains page = false) (hi : s.snap.freePage = some i) : Happens s (.cowPageCopy page) fun t =>
      mapFind t.snap.marks page = none ∧ mapFind t.snap.copies page = some i := by
  have hnone : (mapFind s.snap.marks page).isNone = false := by
    rw [← Option.not_isSome, hm]
    rfl
  have hcopy : s.copyMarked page = some (s.copyInto page i (s.bytes (page * 65536) 65536)) := by
    unfold State.copyMarked
    rw [if_neg (by rw [hnone, hs]; decide), hi]
    rfl
  have hx : exec (.cowPageCopy page) s = .next ((s.copyInto page i (s.bytes (page * 65536) 65536)).recheck (page * 65536) 65536) := by
    show execCowPageCopy page s = _
    unfold execCowPageCopy
    rw [if_neg, hcopy]
    rintro (h | h | h)
    · omega
    · rw [hnone] at h
      exact absurd h (by decide)
    · rw [hs] at h
      exact absurd h (by decide)
  refine ⟨_, hx, ?_⟩
  dsimp only
  rw [State.snap_recheck]
  unfold State.copyInto
  dsimp only
  rw [State.snap_unmark, State.poke_snap]
  exact ⟨(mapFind_mapErase ..).trans (if_pos rfl), (mapFind_mapInsert ..).trans (if_pos rfl)⟩

end

end Sys2Proof.Machine
end

section
/-! SUPPORT. The snapshot drain (R94, R98, R344), and what the obligation on channels and snapshots comes to. -/

set_option Elab.async false

namespace Sys2Proof.Machine

section
variable {s t : State} {die ch : Nat} {k : Chain} {l : Link}

/-! ### Whose turn it is -/

theorem State.drainRecord_waits (h : s.snap.state ≠ 3 ∨ s.trust.stage ≠ 3 ∨ s.groupTurn die true = false) (ch : Nat) :
    s.drainRecord die ch = s := by
  unfold State.drainRecord
  dsimp only
  cases (s.channel die ch).drain with
  | none => rfl
  | some k =>
    dsimp only
    refine if_pos ?_
    rcases h with h | h | h
    · exact .inr (.inl h)
    · exact .inr (.inr (.inl (by simp [State.released, h])))
    · exact .inr (.inr (.inr (.inr (by rw [h]; rfl))))

theorem exec_channelRecord_drain (s : State) (die ch : Nat) : exec (.channelRecord die ch true) s = .next (s.drainRecord die ch) := rfl

theorem exec_snapshotDrainRecord_waits (h : s.snap.state ≠ 3 ∨ s.trust.stage ≠ 3 ∨ s.groupTurn die true = false) :
    exec (.snapshotDrainRecord die) s = .next s := by
  show execSnapshotDrainRecord die s = _
  exact congrArg _ (foldl_stays (fun ch => State.drainRecord_waits h ch) _)

/-- The package after the first channels of a die have drained. -/
def State.drainedTo (s : State) (die : Nat) : Nat → State
  | 0 => s
  | i + 1 => (s.drainedTo die i).drainRecord die i

theorem exec_snapshotDrainRecord (s : State) (die : Nat) :
    exec (.snapshotDrainRecord die) s = .next (s.drainedTo die 4) := rfl

/-! ### A record of the drain -/

/-- The package in which the channel has begun a record of its drain chain. -/
def State.drainBegun (s : State) (die ch : Nat) : State := (s.noteTurn die true).updChannel die ch fun c => { c with last := some true }

/-- The channel has sent the bytes of its record up to an offset. -/
def State.drainPart (s : State) (die ch : Nat) (n off : Nat) (r : State) : State :=
  r.updChannel die ch fun c => { c with drain := c.drain.map fun k => { k with
    done := off, rec_ := some (k.rec_.getD n),
    sent := (r.channel die ch).drain.any (·.sent) || decide (s.power.foreign.length < r.power.foreign.length) } }

theorem State.drainRecord_eq (h3 : s.snap.state = 3) (hst : s.trust.stage = 3) (hg : s.groupTurn die true = true)
    (hk : (s.channel die ch).drain = some k) (hp : k.parked = false) (htr : k.trapped = false) (hr : k.rec_ = none)
    (ht : (s.channel die ch).turn true = true) (hl : s.linkAt (.world 0) k.cur = some l) (hown : l.own = true) :
    s.drainRecord die ch =
      if !s.snap.drainable l then (s.drainBegun die ch).failDrain k.cur 1
      else if l.len ≤ k.done then s.drainBegun die ch
      else match sendPieces (drainMover die ch l.asid) l k.cur (2 * (l.len / 65536) + 4) (s.drainBegun die ch) k.done with
        | .stop r status => r.failDrain k.cur status
        | .part r off => s.drainPart die ch (s.read k.cur 64) off r
        | .all r => (s.drainPart die ch (s.read k.cur 64) l.len r).drainJoin k.cur l := by
  unfold State.drainRecord State.chainLink
  dsimp only
  rw [hk]
  dsimp only
  rw [hr, hl, if_neg (by simp [hp, h3, State.released, hst, ht, hg])]
  dsimp only [Option.map_none, Option.orElse]
  rw [if_neg (c := (!l.own) = true) (by rw [hown]; decide), if_neg (c := k.trapped = true) (by rw [htr]; decide)]
  rfl

theorem State.copyFirst_of_no_overlap {pa n : Nat} (h : (s.snap.marks.any fun m => overlaps pa n (m.1 * 65536) 65536) = false) :
    s.copyFirst pa n = some s := by
  have hnil : (s.snap.marks.filter fun m => overlaps pa n (m.1 * 65536) 65536) = [] :=
    List.filter_eq_nil_iff.2 (List.any_eq_false.1 h)
  unfold State.copyFirst
  rw [hnil, List.map_nil, List.foldl_nil, ite_self]

theorem State.snap_writeHome {pa : Nat} {bs : List Byte} (h : (s.snap.marks.any fun m => overlaps pa bs.length (m.1 * 65536) 65536) = false)
    (writer : Option Nat) : (s.writeHome pa bs writer).snap = s.snap := by
  unfold State.writeHome State.applyHome
  rw [State.copyFirst_of_no_overlap h]
  split
  · rfl
  · exact (State.snap_recheck ..).trans (State.poke_snap ..)

theorem State.failDrain_snap (s : State) (cur status : Nat) : (s.failDrain cur status).snap.state = 5 ∧ (s.failDrain cur status).snap.err = 4 ∧
    ((s.snap.marks.any fun m => overlaps (cur + 28) 4 (m.1 * 65536) 65536) = false → (s.failDrain cur status).snap.marks = s.snap.marks) := by
  refine ⟨rfl, rfl, fun h => ?_⟩
  have hclose : (s.closeLink cur status).snap = s.snap := State.snap_writeHome (by rw [length_natLe]; exact h) none
  show ((s.closeLink cur status).stopDrain).snap.marks = _
  rw [State.stopDrain, State.setDrains_snap, ← hclose]

/-- A record that is not acceptable fails on each channel that reads it. -/
theorem State.drainRecord_fails (h3 : s.snap.state = 3) (hst : s.trust.stage = 3) (hg : s.groupTurn die true = true)
    (hk : (s.channel die ch).drain = some k) (hp : k.parked = false) (htr : k.trapped = false) (hr : k.rec_ = none)
    (ht : (s.channel die ch).turn true = true) (hl : s.linkAt (.world 0) k.cur = some l) (hown : l.own = true) (hbad : s.snap.drainable l = false) :
    (s.drainRecord die ch).snap.state = 5 ∧ (s.drainRecord die ch).snap.err = 4 ∧
      ((s.snap.marks.any fun m => overlaps (k.cur + 28) 4 (m.1 * 65536) 65536) = false → (s.drainRecord die ch).snap.marks = s.snap.marks) := by
  rw [State.drainRecord_eq h3 hst hg hk hp htr hr ht hl hown, if_pos (by rw [hbad]; rfl)]
  exact (s.drainBegun die ch).failDrain_snap k.cur 1

/-- When the first channel has failed, the others of its die find no drain. -/
theorem exec_snapshotDrainRecord_failed (h : (s.drainRecord die 0).snap.state = 5) :
    exec (.snapshotDrainRecord die) s = .next (s.drainRecord die 0) := by
  have hne : (s.drainRecord die 0).snap.state ≠ 3 := by
    rw [h]
    decide
  have hstop : ∀ i, s.drainedTo die (i + 1) = s.drainRecord die 0 := by
    intro i
    induction i with
    | zero => rfl
    | succ i ih =>
      rw [State.drainedTo, ih]
      exact State.drainRecord_waits (.inl hne) (i + 1)
  rw [exec_snapshotDrainRecord, hstop 3]

/-- While another channel has bytes of the record to send, the record stays open. -/
theorem State.drainJoin_open {d c cur : Nat} {k2 : Chain} (hd : d < 4) (hc : c < 4) (hk : (s.channel d c).drain = some k2) (hlen : k2.done < l.len) :
    s.drainJoin cur l = s := by
  have hends : (allChannels.all fun x => ((s.channel x.1 x.2).drain.map fun k => decide (l.len ≤ k.done) && !k.sent).getD false) = false := by
    rw [List.all_eq_false]
    refine ⟨(d, c), mem_allChannels hd hc, ?_⟩
    dsimp only
    rw [hk, Option.map_some, Option.getD_some, decide_eq_false (by omega), Bool.false_and]
    decide
  unfold State.drainJoin
  dsimp only
  rw [hends]
  rfl

theorem State.drainRecord_sent {d c : Nat} {k2 : Chain} (h3 : s.snap.state = 3) (hst : s.trust.stage = 3) (hg : s.groupTurn die true = true)
    (hk : (s.channel die ch).drain = some k) (hp : k.parked = false) (htr : k.trapped = false) (hr : k.rec_ = none)
    (ht : (s.channel die ch).turn true = true) (hl : s.linkAt (.world 0) k.cur = some l) (hown : l.own = true) (hgood : s.snap.drainable l = true)
    (hdone : k.done < l.len)
    (hsend : sendPieces (drainMover die ch l.asid) l k.cur (2 * (l.len / 65536) + 4) (s.drainBegun die ch) k.done = .all t)
    (hkt : (t.channel die ch).drain = some k) (hd : d < 4) (hc : c < 4) (hne : (d, c) ≠ (die, ch)) (hk2 : (t.channel d c).drain = some k2)
    (hlen : k2.done < l.len) : Happens s (.channelRecord die ch true) fun t' =>
      t.sameMem t' ∧ t'.snap = t.snap ∧ (t'.channel die ch).drain = some { k with
        done := l.len, rec_ := some (s.read k.cur 64), sent := k.sent || decide (s.power.foreign.length < t.power.foreign.length) } := by
  have hrec : s.drainRecord die ch = s.drainPart die ch (s.read k.cur 64) l.len t := by
    rw [State.drainRecord_eq h3 hst hg hk hp htr hr ht hl hown, if_neg (by rw [hgood]; decide), if_neg (Nat.not_le.2 hdone), hsend]
    refine State.drainJoin_open (k2 := k2) hd hc ?_ hlen
    rw [State.drainPart, State.channel_updChannel, if_neg fun h => hne (Prod.ext h.1 h.2), hk2]
  refine ⟨_, exec_channelRecord_drain s die ch, ?_⟩
  rw [hrec, State.drainPart]
  refine ⟨State.sameMem_of_mem rfl, rfl, ?_⟩
  rw [State.channel_updChannel_self, hkt]
  dsimp only [Option.map_some, Option.any_some]
  rw [hr]
  rfl

end

end Sys2Proof.Machine

open Sys2Proof Sys2Proof.Machine

/-- Settles O42: a host chain walks a record as `State.hostRecord_eq` says, and closes it in a package that nothing waits on
(`State.Still.endRecord`); the snapshot engine's steps keep the snapshot's own fields, and a drain record is sent or fails as
`State.drainRecord_eq` says. -/
theorem channelsAndSnapshots : Obligations.ChannelsAndSnapshots := by
  unfold Obligations.ChannelsAndSnapshots
  intro s
  refine ⟨fun die ch v => execChannelHeadWrite_spec, fun die ch k => execChannelRecord_waits, ?_, ?_, ?_, ?_, ?_⟩
  · intro die ch k l hk hp htr hr hs hst ht hl
    refine ⟨State.channelRecord_unowned hk hp htr hr hs hst ht hl, State.channelRecord_malformed hk hp htr hr hs hst ht hl, ?_⟩
    intro hown hgood hstill hdone hsk hdk hsrc hdst hbs hbd has had hpo hs64 hd64 hov
    exact State.channelRecord_copied hk hp htr hr hs hst ht hl hown hgood hstill hdone hdk
      (((State.still_of hstill).updChannel die ch fun c => { c with last := some false }).movePiece hsk hdk hsrc hdst hbs hbd has had hpo hs64 hd64)
  · intro die ch k n cause hk hr hs hlen hstill
    exact State.roceAck_closed cause hk hr hs hlen hstill
  · intro x region
    refine ⟨fun hidle hst => execSnapshotArm_spec hst hidle, fun h0 h4 => ⟨execSnapshotArm_waits h0 h4, execSnapshotCancel_spec h0 h4⟩,
      execSnapshotFreeze_waits, execSnapshotFreeze_spec, fun asid page => ?_, execSnapshotMarkComplete_spec, fun page i => execCowPageCopy_spec⟩
    intro t skips
    refine ⟨State.markPage_none, fun leaf hleaf => ⟨fun hd hw => ?_, fun hn => ?_⟩⟩
    · exact State.markPage_sealed hleaf (by rw [State.sealedPage, hd, decide_eq_true hw]; rfl)
    · refine State.markPage_marks hleaf ?_
      rw [State.sealedPage, Bool.and_eq_false_iff]
      by_cases hd : s.isDevice leaf.base = true
      · exact .inr (decide_eq_false fun hw => hn ⟨hd, hw⟩)
      · exact .inl (Bool.eq_false_iff.2 hd)
  · intro die
    exact ⟨exec_snapshotDrainRecord_waits, s.drainedTo die, rfl, fun i _ => exec_channelRecord_drain .., exec_snapshotDrainRecord s die⟩
  · intro die ch k l h3 hst hg hk hp htr hr ht hl hown
    constructor
    · intro hbad fails
      refine ⟨⟨_, exec_channelRecord_drain s die ch, State.drainRecord_fails h3 hst hg hk hp htr hr ht hl hown hbad⟩, ?_⟩
      rintro rfl
      have hfail := State.drainRecord_fails h3 hst hg hk hp htr hr ht hl hown hbad
      exact ⟨_, exec_snapshotDrainRecord_failed hfail.1, hfail⟩
    · intro t d c k2 hgood hdone hsend hkt hd hc hne hk2 hlen
      exact State.drainRecord_sent h3 hst hg hk hp htr hr ht hl hown hgood hdone hsend hkt hd hc hne hk2 hlen

end

section
/-! SUPPORT. A response buffer that begins and ends in memory, with a hole between: what the mailbox reads there (R45, R442). -/

set_option Elab.async false

namespace Sys2Proof.Machine

/-- An address just above the LPDDR of the package, in a buffer that reaches into the bonded DRAM. -/
def holePa : Nat := 0x1FFFFFFF001

/-- The hole holds another byte than a read of it returns. -/
def holeState : State :=
  { State.reset with
    lpddr := holePa, mem := [(holePa, Config.unbacked State.reset.free holePa + 1)],
    doe := { State.reset.doe with busy := true, sb := BitVec.ofNat 64 (holePa - 1) } }

theorem holeState_rs : holeState.doe.rs = holePa - 1 := by decide +kernel

theorem holeState_backed : holeState.backedMem holeState.doe.rs 4098 = true := by decide +kernel

/-- The second byte that the mailbox reads is the hole's. -/
theorem holeState_read : (holeState.physBytes holeState.doe.rs 4098)[1]? = some (Config.unbacked State.reset.free holePa) := by
  have hmem : (holeState.isDevice holePa || isHost holePa) = false := by decide +kernel
  rw [holeState_rs, State.physBytes, List.getElem?_map, List.getElem?_range (by norm_num)]
  exact congrArg some (if_neg (by rw [show holePa - 1 + 1 = holePa from rfl, hmem]; decide))

/-- The byte of memory there is another. -/
theorem holeState_byte : (holeState.bytes holeState.doe.rs 4098)[1]? = some (Config.unbacked State.reset.free holePa + 1) := by
  rw [holeState_rs, State.bytes, List.getElem?_map, List.getElem?_range (by norm_num)]
  rfl

end Sys2Proof.Machine

open Sys2Proof Sys2Proof.Machine

/-- Refutes O56: the ends of the response buffer lie in memory and a byte between them does not; the host is handed what a read of the hole
returns, not the byte that memory holds there. -/
theorem not_attestation : ¬ Obligations.Attestation := by
  intro h
  obtain ⟨-, -, -, -, -, h⟩ := h.1 holeState
  obtain ⟨t, hx, -, hans, -⟩ := h 4098 rfl rfl rfl (by norm_num) holeState_backed
  have hresp := State.respond_alone (t := holeState) (len := 4098) rfl rfl rfl (by norm_num : min (4098 % 65536) 16384 = 4098)
    (State.physDone_of_backed holeState_backed)
  have ht : t = _ := Host.Outcome.next.inj (hx.symm.trans hresp)
  rw [ht, State.runExtensions_measured] at hans
  have hlist : [holeState.physBytes holeState.doe.rs 4098] = [holeState.bytes holeState.doe.rs 4098] := hans
  have hbyte := (holeState_read.symm.trans (congrArg (fun l => l[1]?) (List.cons.inj hlist).1)).trans holeState_byte
  have hne : ∀ b : Byte, b ≠ b + 1 := by decide
  exact hne _ (Option.some.inj hbyte)

end

section
/-! SUPPORT. What it means that a value which carries packages keeps memory in canonical form, and the rules for choices, folds and results. -/

set_option Elab.async false

namespace Sys2Proof.Machine

/-! ### Values that carry a package -/

/-- The package in a step's outcome has its memory in canonical form. -/
def Outcome.memOk : Host.Outcome State Fault Refusal → Prop
  | .next s => s.memOk
  | _ => True

/-- So has the package that an instruction's body leaves. -/
def Act.memOk : Act → Prop
  | .done s => s.memOk
  | .jump s _ => s.memOk
  | .resumed s => s.memOk
  | .wait s _ => s.memOk
  | .trap s _ _ _ => s.memOk
  | .trapAfter s _ _ _ => s.memOk
  | .gone s => s.memOk

def Xlate.memOk : Xlate → Prop
  | .ok _ _ s => s.memOk
  | .fault _ _ s => s.memOk
  | .firewall s => s.memOk

def EngineRead.memOk : EngineRead → Prop
  | .ok _ s => s.memOk
  | .fault _ _ _ s => s.memOk
  | .firewall _ s => s.memOk
  | .poison _ s => s.memOk

def Fetch.memOk : Fetch → Prop
  | .word _ s => s.memOk
  | .act a => a.memOk

def Checked.memOk : Checked → Prop
  | .ok _ => True
  | .act a => a.memOk
  | .bad a => a.memOk

def Move.memOk : Move → Prop
  | .moved s => s.memOk
  | .later => True
  | .parked s => s.memOk
  | .stop _ _ s => s.memOk

def Got.memOk : Got → Prop
  | .bytes _ s => s.memOk
  | .other m => m.memOk

def Reach.memOk : Reach → Prop
  | .ok _ s => s.memOk
  | .bad _ s => s.memOk

def MoverPa.memOk : MoverPa → Prop
  | .ok _ s => s.memOk
  | .other m => m.memOk

def Moved.memOk : Moved → Prop
  | .all s => s.memOk
  | .part s _ => s.memOk
  | .stop s _ => s.memOk

/-- What may be there has its memory in canonical form. -/
def optionOk {α : Type} (P : α → Prop) : Option α → Prop
  | none => True
  | some x => P x

/-- A body keeps memory in canonical form. -/
def Body.memOk (b : Body) : Prop := ∀ s u w, State.memOk s → Act.memOk (b s u w)

/-! ### Choices and results -/

theorem ite_ok {α : Type} {P : α → Prop} {c : Prop} [Decidable c] {a b : α} (ha : P a) (hb : P b) : P (if c then a else b) := by
  split
  · exact ha
  · exact hb

/-- What holds of a value holds of what it was found to be. -/
theorem kept {α : Type} {P : α → Prop} {x y : α} (h : P x) (e : x = y) : P y := e ▸ h

theorem kept_fst {α : Type} {x : State × α} {s : State} {a : α} (h : x.1.memOk) (e : x = (s, a)) : s.memOk := by
  subst e
  exact h

theorem kept_snd {α : Type} {x : α × State} {a : α} {s : State} (h : x.2.memOk) (e : x = (a, s)) : s.memOk := by
  subst e
  exact h

theorem Fetch.act_memOk {a : Act} (h : a.memOk) : (Fetch.act a).memOk := h
theorem Checked.act_memOk {a : Act} (h : a.memOk) : (Checked.act a).memOk := h
theorem Checked.bad_memOk {a : Act} (h : a.memOk) : (Checked.bad a).memOk := h
theorem Got.other_memOk {m : Move} (h : m.memOk) : (Got.other m).memOk := h
theorem MoverPa.other_memOk {m : Move} (h : m.memOk) : (MoverPa.other m).memOk := h

/-- A package that differs elsewhere has the same memory. -/
theorem State.with_memOk {s : State} {a b c d e f g h i j k l m n o p q r t u v} (w : s.memOk) :
    State.memOk ⟨s.mem, a, b, c, d, e, f, g, h, i, j, k, l, m, n, o, p, q, r, t, u, v⟩ := w

theorem Xlate.after_memOk {x : Xlate} (h : x.memOk) : x.after.memOk := by
  cases x <;> exact h

theorem EngineRead.after_memOk {x : EngineRead} (h : x.memOk) : x.after.memOk := by
  cases x <;> exact h

theorem optionOk_bind {α β : Type} {P : α → Prop} {Q : β → Prop} {o : Option α} {f : α → Option β} (h : optionOk P o)
    (hf : ∀ x, P x → optionOk Q (f x)) : optionOk Q (o.bind f) := by
  cases o with
  | none => trivial
  | some x => exact hf x h

theorem optionOk_map {α β : Type} {P : α → Prop} {Q : β → Prop} {o : Option α} {f : α → β} (h : optionOk P o) (hf : ∀ x, P x → Q (f x)) :
    optionOk Q (o.map f) := by
  cases o with
  | none => trivial
  | some x => exact hf x h

theorem optionOk_any {α : Type} (o : Option α) : optionOk (fun _ => True) o := by
  cases o <;> trivial

theorem optionOk_getD {α : Type} {P : α → Prop} {o : Option α} {d : α} (h : optionOk P o) (hd : P d) : P (o.getD d) := by
  cases o with
  | none => exact hd
  | some x => exact h

end Sys2Proof.Machine
end

section
/-! SUPPORT. Canonical memory: the parts of a package, writes at their home slices, and address translation. -/

set_option Elab.async false

namespace Sys2Proof.Machine

theorem State.setDie_memOk {s : State} {d : Nat} {x : Die} (h : s.memOk) : (s.setDie d x).memOk := h

theorem State.updDie_memOk {s : State} {d : Nat} {f : Die → Die} (h : s.memOk) : (s.updDie d f).memOk := State.setDie_memOk h

theorem State.updTs_memOk {s : State} {d : Nat} {f : Service → Service} (h : s.memOk) : (s.updTs d f).memOk := State.updDie_memOk h

theorem State.updL2_memOk {s : State} {d : Nat} {f : L2 → L2} (h : s.memOk) : (s.updL2 d f).memOk := State.updDie_memOk h

theorem State.updFit_memOk {s : State} {d : Nat} {f : Fitting → Fitting} (h : s.memOk) : (s.updFit d f).memOk := State.updDie_memOk h

theorem State.setCore_memOk {s : State} {c : Nat} {x : Core} (h : s.memOk) : (s.setCore c x).memOk := h

theorem State.updCore_memOk {s : State} {c : Nat} {f : Core → Core} (h : s.memOk) : (s.updCore c f).memOk := State.setCore_memOk h

theorem State.mapCores_memOk {s : State} {f : Core → Core} (h : s.memOk) : (s.mapCores f).memOk := h

theorem State.setWave_memOk {s : State} {u : Nat} {w : Wave} (h : s.memOk) : (s.setWave u w).memOk := h

theorem State.updWave_memOk {s : State} {u : Nat} {f : Wave → Wave} (h : s.memOk) : (s.updWave u f).memOk := by
  unfold State.updWave
  split
  · exact State.setWave_memOk h
  · exact h

theorem State.setCohort_memOk {s : State} {c : Nat} {x : Cohort} (h : s.memOk) : (s.setCohort c x).memOk := h

theorem State.updCohort_memOk {s : State} {c : Nat} {f : Cohort → Cohort} (h : s.memOk) : (s.updCohort c f).memOk := by
  unfold State.updCohort
  split
  · exact State.setCohort_memOk h
  · exact h

theorem State.fresh_memOk {s : State} (h : s.memOk) : s.fresh.2.memOk := h

theorem State.updTask_memOk {s : State} {t : Nat} {f : Task → Task} (h : s.memOk) : (s.updTask t f).memOk := h

theorem State.updFabric_memOk {s : State} {f : Fabric → Fabric} (h : s.memOk) : (s.updFabric f).memOk := h

theorem State.updQueue_memOk {s : State} {q : Nat} {f : Queue → Queue} (h : s.memOk) : (s.updQueue q f).memOk := h

theorem State.setWorld_memOk {s : State} {n : Nat} {x : World} (h : s.memOk) : (s.setWorld n x).memOk := h

theorem State.setIface_memOk {s : State} {n : Nat} {x : IfaceState} (h : s.memOk) : (s.setIface n x).memOk := h

theorem State.physDone_memOk {s : State} {pa n : Nat} (h : s.memOk) : (s.physDone pa n).memOk := by
  unfold State.physDone
  split <;> exact h

theorem State.invalidateRegionsOn_memOk {s : State} {on : Nat → Bool} {p : Region → Bool} (h : s.memOk) :
    (s.invalidateRegionsOn on p).memOk := by
  unfold State.invalidateRegionsOn
  dsimp only
  split <;> exact h

theorem State.invalidateRegions_memOk {s : State} {p : Region → Bool} (h : s.memOk) : (s.invalidateRegions p).memOk :=
  State.invalidateRegionsOn_memOk h

theorem State.breakWatches_memOk {s : State} {pa n : Nat} {writer : Option Nat} (h : s.memOk) : (s.breakWatches pa n writer).memOk := h

theorem State.copyMarked_ok {s : State} {page : Nat} (h : s.memOk) : optionOk State.memOk (s.copyMarked page) := by
  unfold State.copyMarked
  split
  · exact trivial
  · exact optionOk_map (optionOk_any _) (fun _ _ => State.copyInto_memOk h ..)

theorem State.reowned_ok {s t : State} {pa n : Nat} (h : s.memOk) (ht : t.memOk) : (s.reowned t pa n).memOk :=
  foldl_keeps State.memOk _ (fun _ _ h1 => State.zeroPage_memOk h1 ..) _ _ ht

theorem State.dropL1_memOk {s : State} {core pa n : Nat} (h : s.memOk) : (s.dropL1 core pa n).memOk := by
  unfold State.dropL1
  split
  · exact h
  · exact State.updCore_memOk h

theorem State.notePointers_memOk {s : State} {die asid va : Nat} (h : s.memOk) : (s.notePointers die asid va).memOk := by
  unfold State.notePointers
  dsimp only
  split
  · exact h
  · exact State.updTs_memOk h

theorem touchLeaf_memOk {s : State} {t : Tr} {write : Bool} (h : s.memOk) : (touchLeaf s t write).1.memOk := by
  unfold touchLeaf
  dsimp only
  split
  · exact h
  · exact ite_ok h (State.writeHome_memOk h ..)

theorem engineXlate_memOk {s : State} {die asid world : Nat} {who : Who} {va access : Nat} (h : s.memOk) :
    (engineXlate s die asid world who va access).memOk := by
  unfold engineXlate
  dsimp only
  split
  · exact h
  · split
    · repeat' split
      all_goals exact h
    · split
      · repeat' split
        all_goals exact State.updTs_memOk (touchLeaf_memOk (State.notePointers_memOk h))
      · exact h
      · exact h

theorem engineRead_memOk {die asid world : Nat} {who : Who} {access n : Nat} {s : State} {m k : Nat} (h : s.memOk) :
    (engineRead die asid world who access n s m k).memOk := by
  induction n generalizing s m k with
  | zero =>
    unfold engineRead
    exact h
  | succ n ih =>
    unfold engineRead
    dsimp only
    split
    · exact h
    · split
      next e1 => exact (kept (engineXlate_memOk h) e1 :)
      next e1 => exact (kept (engineXlate_memOk h) e1 :)
      next e1 =>
        split
        · exact (kept (engineXlate_memOk h) e1 :)
        · split
          next e2 => exact (kept (ih (kept (engineXlate_memOk h) e1 :)) e2 :)
          · exact ih (kept (engineXlate_memOk h) e1 :)

theorem requestWalk_memOk {s : State} {u : Nat} {w : Wave} {access va : Nat} (h : s.memOk) : (requestWalk s u w access va).memOk := by
  unfold requestWalk
  dsimp only
  split
  · exact State.updTs_memOk h
  · split
    · exact State.updTs_memOk h
    · repeat' split
      all_goals exact State.updTs_memOk (State.fresh_memOk h)

theorem parkAgent_memOk {s : State} {die : Nat} {token : Option Nat} {a : Agent} (h : s.memOk) : (parkAgent s die token a).memOk := by
  unfold parkAgent
  dsimp only
  split
  · exact State.updWave_memOk h
  · exact h
  · exact State.updDie_memOk h
  · exact h

theorem writeFaultRecord_memOk {s : State} {die : Nat} {f : TrFault} {asid : Nat} {a : Agent} (h : s.memOk) :
    (writeFaultRecord s die f asid a).memOk :=
  parkAgent_memOk (State.updTs_memOk (State.writeHome_memOk h ..))

theorem queueFault_memOk {s : State} {die : Nat} {f : TrFault} {asid : Nat} {a : Agent} (h : s.memOk) :
    (queueFault s die f asid a).memOk := by
  unfold queueFault
  dsimp only
  split
  · exact parkAgent_memOk (State.updTs_memOk h)
  · split
    · exact writeFaultRecord_memOk h
    · exact parkAgent_memOk (State.updTs_memOk h)

end Sys2Proof.Machine
end

section
/-! SUPPORT. Canonical memory: stores that drain, waves and tasks that end, traps, issue, and the orders a wave waits for. -/

set_option Elab.async false

namespace Sys2Proof.Machine

theorem State.performEntry_memOk {s : State} {core : Nat} {e : SbEntry} (h : s.memOk) : (s.performEntry core e).memOk :=
  ite_ok (State.updCore_memOk h) (foldl_keeps State.memOk _ (fun _ _ h1 => State.writeHome_memOk h1 ..) _ _ (State.updCore_memOk h))

theorem State.drainWave_memOk {s : State} {core u : Nat} (h : s.memOk) : (s.drainWave core u).memOk := by
  unfold State.drainWave
  refine foldl_keeps State.memOk _ (fun _ _ h1 => ?_) _ _ h
  split
  · exact State.performEntry_memOk h1
  · exact h1

theorem State.barrierCheck_memOk {s : State} {cid : Nat} (h : s.memOk) : (s.barrierCheck cid).memOk := by
  unfold State.barrierCheck
  dsimp only
  split
  · exact h
  · split
    · exact h
    · exact State.with_memOk (State.setCohort_memOk h)

theorem State.addClearing_memOk {s : State} {core : Nat} {x : Clearing} (h : s.memOk) : (s.addClearing core x).memOk :=
  State.updCore_memOk (State.fresh_memOk h)

theorem State.removeWave_memOk {s : State} {u : Nat} (h : s.memOk) : (s.removeWave u).memOk := by
  unfold State.removeWave
  dsimp only
  split
  · exact h
  · exact State.with_memOk (State.updCore_memOk (State.addClearing_memOk h))

theorem State.waveGone_memOk {s : State} {u : Nat} (h : s.memOk) : (s.waveGone u).memOk := by
  unfold State.waveGone
  dsimp only
  split
  · exact h
  · exact State.barrierCheck_memOk (State.removeWave_memOk (State.updCohort_memOk h))

theorem State.endWave_memOk {s : State} {u : Nat} (h : s.memOk) : (s.endWave u).memOk := by
  unfold State.endWave
  dsimp only
  split
  · exact h
  · split
    · exact State.waveGone_memOk (State.updCore_memOk (State.setWave_memOk h))
    · exact State.updCore_memOk (State.setWave_memOk h)

theorem State.drainEntry_memOk {s : State} {core : Nat} {e : SbEntry} (h : s.memOk) : (s.drainEntry core e).memOk := by
  unfold State.drainEntry
  dsimp only
  split
  · exact h
  · split
    · split
      · exact State.waveGone_memOk (State.performEntry_memOk h)
      · exact State.performEntry_memOk h
    · exact State.performEntry_memOk h

theorem State.releaseOn_memOk {s : State} {cid : Nat} {c : Cohort} {core : Nat} (h : s.memOk) : (s.releaseOn cid c core).memOk :=
  State.with_memOk (State.setCore_memOk h)

theorem State.releaseCohort_memOk {s : State} {cid : Nat} (h : s.memOk) : (s.releaseCohort cid).memOk := by
  unfold State.releaseCohort
  dsimp only
  split
  · exact h
  · exact State.with_memOk (foldl_keeps State.memOk _ (fun _ _ h2 => State.releaseOn_memOk h2) _ _ (foldl_keeps State.memOk _ (fun _ _ h2
      => State.removeWave_memOk h2) _ _ h))

theorem State.putWord_memOk {s : State} {q asid world va : Nat} {f : Nat → Nat} (h : s.memOk) : (s.putWord q asid world va f).1.memOk := by
  unfold State.putWord
  split
  next e1 =>
    split
    · exact (kept (engineXlate_memOk h) e1 :)
    · exact State.writeHome_memOk (kept (engineXlate_memOk h) e1 :) ..
  · exact Xlate.after_memOk (engineXlate_memOk h)

theorem State.retireSlots_memOk {q n : Nat} {s : State} (h : s.memOk) : (State.retireSlots q n s).memOk := by
  induction n generalizing s with
  | zero =>
    unfold State.retireSlots
    exact h
  | succ n ih =>
    unfold State.retireSlots
    dsimp only
    split
    · exact h
    · split
      · exact State.updQueue_memOk (State.putWord_memOk h)
      · exact ih (State.updQueue_memOk (State.putWord_memOk h))

theorem State.signalTrigger_memOk {s : State} {die : Nat} {t : Trigger} {status : Nat} (h : s.memOk) :
    (s.signalTrigger die t status).memOk := by
  unfold State.signalTrigger
  dsimp only
  split
  · exact h
  · split
    next e1 =>
      split
      next e2 => exact State.writeHome_memOk (kept (engineXlate_memOk (State.writeHome_memOk (kept (engineXlate_memOk h) e1 :) ..)) e2 :) ..
      · exact Xlate.after_memOk (engineXlate_memOk (State.writeHome_memOk (kept (engineXlate_memOk h) e1 :) ..))
    · exact Xlate.after_memOk (engineXlate_memOk h)

theorem State.cancelTriggers_memOk {s : State} {p : Trigger → Bool} (h : s.memOk) : (s.cancelTriggers p).memOk :=
  foldl_keeps State.memOk _ (fun _ _ h1 => State.updDie_memOk (State.signalTrigger_memOk h1)) _ _ h

theorem State.endProtection_memOk {s : State} {t : Task} (h : s.memOk) : (s.endProtection t).memOk :=
  State.updTask_memOk (State.with_memOk (foldl_keeps State.memOk _ (fun _ _ h1 => State.updDie_memOk h1) _ _ h))

theorem State.finishTask_memOk {s : State} {id status : Nat} (h : s.memOk) : (s.finishTask id status).memOk := by
  unfold State.finishTask
  split
  · exact h
  · refine State.retireSlots_memOk (ite_ok ?_ (State.cancelTriggers_memOk ?_))
    all_goals
      refine State.with_memOk ?_
      refine State.updQueue_memOk ?_
      refine ite_ok (P := fun x : State × Bool => x.1.memOk) (State.endProtection_memOk h) ?_
      dsimp only
      refine State.putWord_memOk ?_
      refine State.putWord_memOk ?_
      exact State.endProtection_memOk h

theorem State.releaseHolder_memOk {s : State} {u core : Nat} (h : s.memOk) : (s.releaseHolder u core).memOk := by
  unfold State.releaseHolder
  split
  · exact State.updCore_memOk h
  · exact h

theorem State.abortCohort_memOk {s : State} {cid : Nat} (h : s.memOk) : (s.abortCohort cid).memOk := by
  unfold State.abortCohort
  split
  · exact h
  · refine foldl_keeps State.memOk _ (fun _ _ h2 => ?_) _ _ h
    split
    · exact State.releaseHolder_memOk (State.setWave_memOk h2)
    · exact h2

theorem State.freeImage_memOk {s : State} {x : Saved} (h : s.memOk) : (s.freeImage x).memOk := State.updDie_memOk h

theorem State.settleCancel_memOk {s : State} {id : Nat} (h : s.memOk) : (s.settleCancel id).memOk := by
  unfold State.settleCancel
  split
  · exact h
  · split
    · exact h
    · exact State.finishTask_memOk h

theorem State.cancelTask_memOk {s : State} {id status : Nat} (h : s.memOk) : (s.cancelTask id status).memOk := by
  unfold State.cancelTask
  dsimp only
  split
  · exact h
  · split
    · exact h
    · exact State.settleCancel_memOk (State.updTask_memOk (State.endProtection_memOk (foldl_keeps State.memOk _ (fun _ _ h2 =>
        State.freeImage_memOk h2) _ _ (foldl_keeps State.memOk _ (fun _ _ h2 => State.abortCohort_memOk h2) _ _ h))))

theorem State.killDispatch_memOk {s : State} {disp : Nat} (h : s.memOk) : (s.killDispatch disp).memOk :=
  foldl_keeps State.memOk _ (fun _ _ h1 => State.cancelTask_memOk h1) _ _ h

theorem State.yieldCore_memOk {s : State} {u core : Nat} {wt : Wait} (h : s.memOk) : (s.yieldCore u core wt).memOk := by
  unfold State.yieldCore
  split
  · exact State.updCore_memOk h
  · exact State.releaseHolder_memOk h

theorem State.enterTrap_memOk {s : State} {u : Nat} {w : Wave} {p : PendTrap} (h : s.memOk) : (s.enterTrap u w p).memOk := by
  unfold State.enterTrap
  dsimp only
  split
  · split
    · exact State.cancelTask_memOk (State.setWave_memOk h)
    · exact State.removeWave_memOk (State.setWave_memOk h)
  · exact State.releaseHolder_memOk (State.setWave_memOk h)

theorem State.takeTrap_memOk {s : State} {u : Nat} {p : PendTrap} (h : s.memOk) : (s.takeTrap u p).memOk := by
  unfold State.takeTrap
  split
  · exact h
  · split
    · exact State.enterTrap_memOk h
    · exact State.releaseHolder_memOk (State.setWave_memOk h)

theorem State.takeLateTrap_memOk {s : State} {u : Nat} {w : Wave} {t : LateTrap} (h : s.memOk) : (s.takeLateTrap u w t).memOk :=
  State.takeTrap_memOk (State.setWave_memOk h)

theorem State.noteIssue_memOk {s : State} {core tenant : Nat} (h : s.memOk) : (s.noteIssue core tenant).memOk := State.updCore_memOk h

theorem State.retire_memOk {s : State} {u : Nat} {pc next : DWord} {leaves closes stepped : Bool} (h : s.memOk) :
    (s.retire u pc next leaves closes stepped).memOk := by
  unfold State.retire
  dsimp only
  split
  · exact h
  · split
    · exact State.setWave_memOk (State.updCore_memOk (State.noteIssue_memOk (State.setWave_memOk h)))
    · split
      · exact State.takeTrap_memOk (State.updCore_memOk (State.noteIssue_memOk (State.setWave_memOk h)))
      · exact State.updCore_memOk (State.noteIssue_memOk (State.setWave_memOk h))

theorem finishAct_memOk {u : Nat} {pc : DWord} {closes stepped : Bool} {a : Act} (h : a.memOk) :
    Outcome.memOk (finishAct u pc closes stepped a) := by
  cases a with
  | done s => exact State.retire_memOk h
  | jump s t => exact State.retire_memOk h
  | resumed s =>
    unfold finishAct
    dsimp only
    split
    · exact State.releaseHolder_memOk (State.noteIssue_memOk h)
    · exact h
  | wait s wt =>
    unfold finishAct
    dsimp only
    split
    · exact State.yieldCore_memOk (State.setWave_memOk h)
    · exact h
  | trap s c i0 i1 => exact State.takeTrap_memOk h
  | trapAfter s c i0 i1 => exact State.takeTrap_memOk (State.retire_memOk h)
  | gone s => exact h

theorem waveFault_memOk {s : State} {u : Nat} {w : Wave} {va kind access level lane : Nat} {fetch : Bool} (h : s.memOk) :
    (waveFault s u w va kind access level lane fetch).memOk := by
  unfold waveFault
  dsimp only
  split
  · exact h
  · split <;> exact queueFault_memOk (State.setWave_memOk h)

theorem waveMiss_memOk {s : State} {u : Nat} {w : Wave} {access : Nat} {vas : List Nat} (h : s.memOk) : (waveMiss s u w access vas).memOk :=
  foldl_keeps State.memOk _ (fun _ _ h1 => requestWalk_memOk h1) _ _ (State.setWave_memOk h)

theorem State.writeMachineCheck_memOk {s : State} {die u unit : Nat} {restart : DWord} (h : s.memOk) :
    (s.writeMachineCheck die u unit restart).memOk :=
  State.updWave_memOk (State.updDie_memOk (State.writeHome_memOk h ..))

theorem State.escalate_memOk {s : State} {u unit : Nat} (h : s.memOk) : (s.escalate u unit).memOk := by
  unfold State.escalate
  dsimp only
  split
  · exact h
  · split
    · exact State.writeMachineCheck_memOk (State.releaseHolder_memOk (State.setWave_memOk h))
    · exact State.updWave_memOk (State.updDie_memOk (State.releaseHolder_memOk (State.setWave_memOk h)))

theorem State.restartWave_memOk {s : State} {u unit : Nat} (h : s.memOk) : (s.restartWave u unit).memOk := by
  unfold State.restartWave
  dsimp only
  split
  · exact h
  · split
    · exact State.escalate_memOk (State.setWave_memOk h)
    · exact State.releaseHolder_memOk (State.setWave_memOk h)

theorem State.resend_memOk {s : State} {u unit : Nat} (h : s.memOk) : (s.resend u unit).memOk := by
  unfold State.resend
  split
  · exact h
  · split
    · exact State.escalate_memOk (State.setWave_memOk h)
    · exact State.setWave_memOk h

theorem trapHere_memOk {s : State} {u : Nat} {w : Wave} {code : Nat} {i0 i1 : DWord} {after : Bool} (h : s.memOk) :
    (trapHere s u w code i0 i1 after).memOk :=
  State.takeTrap_memOk h

theorem stopWave_memOk {s : State} {u : Nat} {w : Wave} {wt : Wait} (h : s.memOk) : (stopWave s u w wt).memOk :=
  State.releaseHolder_memOk (State.setWave_memOk h)

theorem issueGate_memOk {s : State} {u : Nat} {w : Wave} {header : Bool} (h : s.memOk) : optionOk State.memOk (issueGate s u w header) := by
  unfold issueGate
  split
  · split
    · exact State.takeLateTrap_memOk h
    · exact stopWave_memOk h
  · split
    · exact trapHere_memOk h
    · split
      · exact trapHere_memOk h
      · split
        · exact stopWave_memOk h
        · exact trivial

theorem State.newEntry_memOk {s : State} {core : Nat} {e : SbEntry} (h : s.memOk) : (s.newEntry core e).memOk :=
  State.updCore_memOk (State.fresh_memOk h)

theorem State.freeEntry_memOk {core n : Nat} {s : State} (h : s.memOk) : optionOk State.memOk (State.freeEntry core n s) := by
  induction n generalizing s with
  | zero =>
    unfold State.freeEntry
    split
    · exact h
    · exact trivial
  | succ n ih =>
    unfold State.freeEntry
    split
    · exact h
    · exact optionOk_bind (optionOk_any _) (fun _ _ => ih (State.performEntry_memOk h))

theorem State.enterSector_memOk {s : State} {core : Nat} {w : Wave} {e : SbEntry} (h : s.memOk) :
    optionOk State.memOk (s.enterSector core w e) := by
  unfold State.enterSector
  dsimp only
  split
  · split
    · exact State.newEntry_memOk h
    · exact State.updCore_memOk h
  · exact optionOk_map (State.freeEntry_memOk h) (fun _ h2 => State.newEntry_memOk h2)

theorem State.enterSectors_memOk {core : Nat} {w : Wave} {l : List SbEntry} {s : State} (h : s.memOk) :
    (State.enterSectors core w l s).1.memOk := by
  induction l generalizing s with
  | nil =>
    unfold State.enterSectors
    dsimp only
    exact h
  | cons x l ih =>
    unfold State.enterSectors
    split
    · exact h
    next e1 => exact ih (kept (State.enterSector_memOk h) e1 :)

theorem enterAll_memOk {es : List SbEntry} {s : State} {n : Nat} {w : Wave} (h : s.memOk) : (enterAll es s n w).memOk := by
  unfold enterAll
  dsimp only
  split <;> exact State.updWave_memOk (State.enterSectors_memOk h)

theorem runInstr_memOk {i : Instr} {body : Body} {s : State} (hbody : Body.memOk body) (h : s.memOk) :
    Outcome.memOk (runInstr i body s) := by
  unfold runInstr
  dsimp only
  split
  · exact h
  · split
    · exact h
    · split
      · exact finishAct_memOk (enterAll_memOk (State.setWave_memOk h))
      · split
        next e3 => exact (kept (issueGate_memOk h) e3 :)
        · split
          · exact trapHere_memOk h
          · split
            · exact stopWave_memOk h
            · split
              · split
                · exact State.resend_memOk h
                · exact State.restartWave_memOk h
              · exact finishAct_memOk (hbody _ _ _ (State.setWave_memOk h))

theorem State.illegalWord_memOk {s : State} {word : DWord} (h : s.memOk) : Outcome.memOk (s.illegalWord word) := by
  unfold State.illegalWord
  split
  · exact h
  · split
    · exact h
    · split
      next e3 => exact (kept (issueGate_memOk h) e3 :)
      · exact trapHere_memOk h

theorem State.illegalHeader_memOk {s : State} {word : DWord} (h : s.memOk) : Outcome.memOk (s.illegalHeader word) := by
  unfold State.illegalHeader
  split
  · exact h
  · split
    · exact h
    · split
      next e3 => exact (kept (issueGate_memOk h) e3 :)
      · exact trapHere_memOk h

theorem State.readCode_memOk {s : State} {core world pa : Nat} (h : s.memOk) :
    optionOk (fun x => x.2.memOk) (s.readCode core world pa) := by
  unfold State.readCode
  dsimp only
  split
  · exact h
  · split
    · exact trivial
    · split
      · exact h
      · exact State.updCore_memOk h

theorem State.fetchAhead_memOk {u : Nat} {w : Wave} {n : Nat} {va : DWord} {s : State} (h : s.memOk) :
    (State.fetchAhead u w n va s).2.memOk := by
  induction n generalizing va s with
  | zero =>
    unfold State.fetchAhead
    dsimp only
    exact h
  | succ n ih =>
    unfold State.fetchAhead
    dsimp only
    split
    · split
      next e2 => exact ih (kept (State.readCode_memOk h) e2 :)
      · exact h
    · exact h

theorem State.fetchAt_memOk {s : State} {u : Nat} {w : Wave} {va : DWord} (h : s.memOk) : (s.fetchAt u w va).memOk := by
  unfold State.fetchAt
  split
  · exact Fetch.act_memOk (waveMiss_memOk h)
  · exact Fetch.act_memOk (waveFault_memOk h)
  · exact h
  · split
    · exact h
    next e2 => exact (kept (State.readCode_memOk h) e2 :)

theorem State.nextWord_memOk {s : State} {u : Nat} {w : Wave} (h : s.memOk) : (s.nextWord u w).memOk := by
  unfold State.nextWord
  split
  · exact h
  · exact State.fetchAt_memOk h

theorem State.selectWave_memOk {s : State} {c : Nat} (h : s.memOk) : optionOk (fun x => x.2.memOk) (s.selectWave c) := by
  unfold State.selectWave
  dsimp only
  split
  · exact trivial
  · split
    · exact h
    · split
      · exact trivial
      · exact State.with_memOk (State.updCore_memOk h)

theorem State.startClause_memOk {s : State} {u : Nat} {w : Wave} (h : s.memOk) : (s.startClause u w).memOk := State.updCore_memOk h

theorem State.markLines_memOk {s : State} {n : Nat} (h : s.memOk) : (s.markLines n).memOk := by
  unfold State.markLines
  split <;> exact h

theorem onWave_memOk {f : Wave → Wave} : (onWave f).memOk := fun _ _ _ h => State.setWave_memOk h

theorem State.acquire_memOk {s : State} {core : Nat} (h : s.memOk) : (s.acquire core).memOk := by
  unfold State.acquire
  split
  · exact h
  · exact State.updCore_memOk h

theorem State.lateAcquire_memOk {s : State} {u : Nat} {w : Wave} (h : s.memOk) : (s.lateAcquire u w).memOk := by
  unfold State.lateAcquire
  split
  · exact State.acquire_memOk (State.setWave_memOk h)
  · exact h

theorem State.afterLanding_memOk {s : State} {u : Nat} (h : s.memOk) : (s.afterLanding u).memOk := by
  unfold State.afterLanding
  split
  · exact optionOk_getD (optionOk_map (optionOk_any _) (fun _ _ => State.lateAcquire_memOk h)) h
  · split
    · split
      · exact State.setWave_memOk (optionOk_getD (optionOk_map (optionOk_any _) (fun _ _ => State.lateAcquire_memOk h)) h)
      · exact optionOk_getD (optionOk_map (optionOk_any _) (fun _ _ => State.lateAcquire_memOk h)) h
    · split
      · exact optionOk_getD (optionOk_map (optionOk_any _) (fun _ _ => State.lateAcquire_memOk h)) h
      · split <;> exact State.enterTrap_memOk (optionOk_getD (optionOk_map (optionOk_any _) (fun _ _ => State.lateAcquire_memOk h)) h)
    · exact optionOk_getD (optionOk_map (optionOk_any _) (fun _ _ => State.lateAcquire_memOk h)) h

theorem afterJoin_memOk {body : Body} (hbody : body.memOk) : (afterJoin body).memOk := by
  intro s u w h
  unfold afterJoin
  dsimp only
  split
  · exact h
  · exact hbody _ _ _ (State.setWave_memOk h)

theorem State.storesPerformed_memOk {s : State} {u cid : Nat} (h : s.memOk) : (s.storesPerformed u cid).memOk := State.updCohort_memOk h

theorem State.predecessors_memOk {s : State} {u : Nat} {w : Wave} {r wr x : Bool} (h : s.memOk) : (s.predecessors u w r wr x).1.memOk := by
  unfold State.predecessors
  dsimp only
  split
  · exact h
  · split
    · exact State.storesPerformed_memOk (State.drainWave_memOk h)
    · exact h

theorem forbiddenInGroup_memOk {body : Body} (hbody : body.memOk) : (forbiddenInGroup body).memOk := by
  intro s u w h
  unfold forbiddenInGroup
  split
  · exact State.setWave_memOk h
  · exact hbody _ _ _ h

end Sys2Proof.Machine
end

section
/-! SUPPORT. Canonical memory: the scalar, mask, control and vector instructions. -/

set_option Elab.async false

namespace Sys2Proof.Machine

theorem scalar2_memOk {f : SF} {g : Int → Int → Nat} : (scalar2 f g).memOk := fun _ _ _ h => onWave_memOk _ _ _ h

theorem scalarBits_memOk {f : SF} {g : Word → Word → Word} : (scalarBits f g).memOk := fun _ _ _ h => onWave_memOk _ _ _ h

theorem scalar1_memOk {f : SF} {g : Nat → Nat} : (scalar1 f g).memOk := fun _ _ _ h => onWave_memOk _ _ _ h

theorem scalarPair_memOk {f : SF} {g : DWord → DWord → DWord} : (scalarPair f g).memOk := fun _ _ _ h => onWave_memOk _ _ _ h

theorem execGets_memOk {f : SF} {s : State} (h : s.memOk) : Outcome.memOk (execGets f s) := by
  unfold execGets
  dsimp only
  refine runInstr_memOk (fun _ _ _ h1 => ?_) h
  repeat' split
  all_goals exact State.setWave_memOk h1

theorem mask2_memOk {f : SF} {g : Word → Word → Word} : (mask2 f g).memOk := fun _ _ _ h => onWave_memOk _ _ _ h

theorem mask1_memOk {f : SF} {g : Word → Word} : (mask1 f g).memOk := fun _ _ _ h => onWave_memOk _ _ _ h

theorem transfer_memOk {target : Wave → DWord} {taken : Wave → Bool} {effect : Wave → Wave} : (transfer target taken effect).memOk := by
  intro s u w h
  unfold transfer
  dsimp only
  split
  · exact h
  · split
    · exact waveFault_memOk h
    · split
      · exact waveMiss_memOk h
      · split
        · exact State.setWave_memOk h
        · exact h
      · split
        · exact State.setWave_memOk h
        · exact h
      · split
        · split
          · exact State.setWave_memOk h
          · exact h
        · exact h

theorem execExit_memOk {f : CF} {s : State} (h : s.memOk) : Outcome.memOk (execExit f s) := by
  unfold execExit
  dsimp only
  refine runInstr_memOk (fun _ _ _ h1 => ?_) h
  split
  · exact h1
  · split
    · exact State.endWave_memOk (State.noteIssue_memOk (State.setWave_memOk h1))
    · exact State.setWave_memOk h1

theorem State.arrive_memOk {s : State} {u cid b : Nat} (h : s.memOk) : (s.arrive u cid b).memOk :=
  State.barrierCheck_memOk (State.updCohort_memOk h)

theorem barrier_memOk {b : Nat} {waits : Bool} : (barrier b waits).memOk := by
  intro s u w h
  unfold barrier
  dsimp only
  split
  · split
    · exact State.acquire_memOk h
    · exact h
  · split
    · exact h
    · split
      · exact State.predecessors_memOk h
      · split
        · exact State.arrive_memOk (State.setWave_memOk (State.predecessors_memOk h))
        · split
          · exact State.acquire_memOk (State.arrive_memOk (State.setWave_memOk (State.predecessors_memOk h)))
          · exact State.arrive_memOk (State.setWave_memOk (State.predecessors_memOk h))

theorem execBarw_memOk {f : CF} {s : State} (h : s.memOk) : Outcome.memOk (execBarw f s) := by
  unfold execBarw
  dsimp only
  refine runInstr_memOk (fun _ _ _ h1 => ?_) h
  split
  · exact h1
  · exact State.acquire_memOk h1

theorem execNap_memOk {f : CF} {s : State} (h : s.memOk) : Outcome.memOk (execNap f s) :=
  runInstr_memOk (fun _ _ _ h1 => State.setWave_memOk h1) h

theorem execTrap_memOk {f : CF} {s : State} (h : s.memOk) : Outcome.memOk (execTrap f s) := runInstr_memOk (fun _ _ _ h1 => h1) h

theorem execClauseHeader_memOk {x : HF} {s : State} (h : s.memOk) : Outcome.memOk (execClauseHeader x s) := by
  unfold execClauseHeader
  dsimp only
  split
  · exact h
  · split
    · exact h
    · split
      next e3 => exact (kept (issueGate_memOk h) e3 :)
      · split
        · exact trapHere_memOk h
        · split
          · exact trapHere_memOk h
          · exact State.startClause_memOk (State.setWave_memOk (State.fetchAhead_memOk h))

theorem vector2_memOk {f : V2F} {g : Nat → Nat → Nat → Nat} : (vector2 f g).memOk := fun _ _ _ h => onWave_memOk _ _ _ h

theorem vectorInt_memOk {f : V2F} {g : Int → Int → Int} : (vectorInt f g).memOk := fun _ _ _ h => vector2_memOk _ _ _ h

theorem vector1_memOk {f : V2F} {g : Nat → Nat → Nat} : (vector1 f g).memOk := fun _ _ _ h => onWave_memOk _ _ _ h

theorem vector3_memOk {f : V3F} {g : Nat → Nat → Nat → Nat} : (vector3 f g).memOk := fun _ _ _ h => onWave_memOk _ _ _ h

theorem execVlogic_memOk {f : V3F} {s : State} (h : s.memOk) : Outcome.memOk (execVlogic f s) :=
  runInstr_memOk (fun _ _ _ h1 => vector3_memOk _ _ _ h1) h

theorem planes_memOk {f : V2F} {g : Nat → List Nat → List Nat} : (planes f g).memOk := fun _ _ _ h => onWave_memOk _ _ _ h

theorem vectorFpNow_memOk {f : V2F} {g : FpFmt → Nat → Nat → Nat → Nat → FpRes} : (vectorFpNow f g).memOk :=
  fun _ _ _ h => onWave_memOk _ _ _ h

theorem vectorFpLate_memOk {f : V2F} {g : FpFmt → Nat → Nat → Nat → Nat → FpRes} : (vectorFpLate f g).memOk :=
  fun _ _ _ h => onWave_memOk _ _ _ h

theorem specialFn_memOk {fn : Nat} {f : V2F} : (specialFn fn f).memOk := fun _ _ _ h => vectorFpLate_memOk _ _ _ h

end Sys2Proof.Machine
end

section
/-! SUPPORT. Canonical memory: loads, stores, atomics, futures, saved cohorts, fences, scoreboards and commit groups. -/

set_option Elab.async false

namespace Sys2Proof.Machine

theorem checkGlobal_memOk {s : State} {u : Nat} {w : Wave} {access : Nat} {io : Bool} {align : Nat} {lanes : List (Nat × Nat)} (h :
    s.memOk) :
    (checkGlobal s u w access io align lanes).memOk := by
  unfold checkGlobal
  dsimp only
  split
  · exact h
  · split
    · exact Checked.bad_memOk (waveFault_memOk h)
    · split
      · exact Checked.act_memOk (waveMiss_memOk h)
      · split
        · exact Checked.bad_memOk (waveFault_memOk h)
        · split
          · exact h
          · exact trivial

theorem poisonTrap_memOk {s : State} {w : Wave} {i : Instr} {vec : Bool} {reg lane : Nat} (h : s.memOk) :
    (poisonTrap s w i vec reg lane).memOk :=
  h

theorem checkPlace_memOk {s : State} {u : Nat} {c : Cohort} {lanes : List (Nat × Nat)} {e : Nat} (h : s.memOk) :
    optionOk Act.memOk (checkPlace s u c lanes e) := by
  unfold checkPlace
  split
  · exact h
  · split
    · exact h
    · split
      · exact h
      · exact trivial

theorem checkScratch_memOk {s : State} {u : Nat} {c : Cohort} {lanes : List (Nat × Nat)} {e : Nat} {reads : Bool} (h : s.memOk) :
    optionOk Act.memOk (checkScratch s u c lanes e reads) := by
  unfold checkScratch
  dsimp only
  split
  next e1 => exact (kept (checkPlace_memOk h) e1 :)
  · split
    · exact trivial
    · split
      · exact h
      · split
        · exact trivial
        · exact h

theorem State.drainRange_memOk {s : State} {core pa n : Nat} (h : s.memOk) : (s.drainRange core pa n).memOk := by
  unfold State.drainRange
  refine foldl_keeps State.memOk _ (fun _ _ h1 => ?_) _ _ h
  split
  · exact State.performEntry_memOk h1
  · exact h1

theorem State.fillL1_memOk {s : State} {core world sector : Nat} (h : s.memOk) : (s.fillL1 core world sector).memOk := by
  unfold State.fillL1
  dsimp only
  split
  · exact h
  · split
    · exact h
    · exact State.updCore_memOk (State.fresh_memOk h)

theorem State.readNow_memOk {s : State} {u : Nat} {w : Wave} {xs : List (Acc × Nat)} (h : s.memOk) : (s.readNow u w xs).1.memOk := by
  unfold State.readNow
  dsimp only
  split
  · refine foldl_keeps State.memOk _ (fun _ _ h2 => ?_) _ _ h
    split
    · exact State.drainRange_memOk h2
    · exact h2
  · refine foldl_keeps State.memOk _ (fun _ _ h2 => State.dropL1_memOk h2) _ _ ?_
    refine foldl_keeps State.memOk _ (fun _ _ h2 => ?_) _ _ h
    split
    · exact State.drainRange_memOk h2
    · exact h2

theorem loadInGroup_memOk {s : State} {u : Nat} {w : Wave} {g : Group} {accs : List Acc} {i : Instr} {vec : Bool} {reg nregs size la : Nat}
    (h : s.memOk) :
    (loadInGroup s u w g accs i vec reg nregs size la).memOk := by
  unfold loadInGroup
  dsimp only
  split
  · exact State.setWave_memOk h
  · split
    next e1 => exact kept_fst (State.readNow_memOk h) e1
    next e1 => exact State.setWave_memOk (kept_fst (State.readNow_memOk h) e1)

theorem loadGlobal_memOk {i : Instr} {lanes : Wave → List (Nat × Nat)} {vec : Bool} {reg nregs size la : Nat} :
    (loadGlobal i lanes vec reg nregs size la).memOk := by
  intro s u w h
  unfold loadGlobal
  dsimp only
  split
  · exact h
  · split
    next e1 => exact (kept (checkGlobal_memOk h) e1 :)
    next e1 =>
      split
      · split <;> exact State.setWave_memOk h
      · exact (kept (checkGlobal_memOk h) e1 :)
    · split
      · exact h
      · split
        · split
          · exact State.setWave_memOk h
          · exact poisonTrap_memOk h
        · split
          · split
            · exact loadInGroup_memOk h
            · exact State.setWave_memOk h
          · exact State.setWave_memOk h

theorem loadScratch_memOk {i : Instr} {lanes : Wave → List (Nat × Nat)} {vec : Bool} {reg nregs size la : Nat} :
    (loadScratch i lanes vec reg nregs size la).memOk := by
  intro s u w h
  unfold loadScratch
  dsimp only
  split
  · exact h
  · split
    · exact h
    · split
      · exact State.setWave_memOk h
      · split
        next e2 => exact (kept (checkScratch_memOk h) e2 :)
        · split
          · exact poisonTrap_memOk h
          · exact State.setWave_memOk h

theorem afterReads_memOk {body : Body} (hbody : body.memOk) : (afterReads body).memOk := by
  intro s u w h
  unfold afterReads
  split
  · exact h
  · exact hbody _ _ _ h

theorem State.storeAtLink_memOk {s : State} {u : Nat} {stores : List (Acc × List Byte)} (h : s.memOk) : (s.storeAtLink u stores).memOk :=
  foldl_keeps State.memOk _ (fun _ _ h1 => State.recheck_memOk h1 ..) _ _ (foldl_keeps State.memOk _ (fun _ _ h1 => State.writeQuiet_memOk
      h1 ..) _ _ h)

theorem storeAccs_memOk {stores : List (Acc × List Byte)} : (storeAccs stores).memOk := by
  intro s u w h
  unfold storeAccs
  dsimp only
  split
  · exact State.setWave_memOk h
  · split
    · exact h
    · split
      · exact h
      · exact enterAll_memOk (foldl_keeps State.memOk _ (fun _ _ h2 => State.dropL1_memOk h2) _ _ (State.storeAtLink_memOk h))

theorem storePieces_memOk {align : Nat} {ls : List (Nat × Nat)} {data : List (List Byte)} : (storePieces align ls data).memOk := by
  intro s u w h
  unfold storePieces
  dsimp only
  split
  next e1 => exact (kept (checkGlobal_memOk h) e1 :)
  next e1 =>
    split
    · exact State.setWave_memOk h
    · exact (kept (checkGlobal_memOk h) e1 :)
  · split
    · exact State.setWave_memOk h
    · exact storeAccs_memOk _ _ _ h

theorem storeGlobal_memOk {lanes : Wave → List (Nat × Nat)} {size : Nat} {value : Wave → Nat → Nat} :
    (storeGlobal lanes size value).memOk := by
  intro s u w h
  unfold storeGlobal
  dsimp only
  split
  · exact h
  · exact storePieces_memOk _ _ _ h

theorem storeScratch_memOk {lanes : Wave → List (Nat × Nat)} {size : Nat} {value : Wave → Nat → Nat} :
    (storeScratch lanes size value).memOk := by
  intro s u w h
  unfold storeScratch
  dsimp only
  refine forbiddenInGroup_memOk ?_ _ _ _ h
  refine afterReads_memOk (fun _ _ _ h1 => ?_)
  split
  · exact h1
  · split
    next e4 => exact (kept (checkScratch_memOk h1) e4 :)
    · exact State.setCohort_memOk h1

theorem execVld_memOk {f : MF} {s : State} (h : s.memOk) : Outcome.memOk (execVld f s) := by
  unfold execVld
  dsimp only
  refine runInstr_memOk ?_ h
  refine afterJoin_memOk (fun _ _ _ h1 => ?_)
  split
  · exact loadGlobal_memOk _ _ _ h1
  · exact loadScratch_memOk _ _ _ h1

theorem execVst_memOk {f : MF} {s : State} (h : s.memOk) : Outcome.memOk (execVst f s) := by
  unfold execVst
  dsimp only
  refine runInstr_memOk ?_ h
  refine afterJoin_memOk (fun _ _ _ h1 => ?_)
  split
  · exact storeGlobal_memOk _ _ _ h1
  · split
    · exact h1
    · exact storeScratch_memOk _ _ _ h1

theorem State.atomicAt_memOk {s : State} {pa fn e v : Nat} {u : Option Nat} (h : s.memOk) : (s.atomicAt pa fn e v u).1.memOk := by
  unfold State.atomicAt
  dsimp only
  split
  · exact State.reowned_ok h (State.writeQuiet_memOk h ..)
  · exact h

theorem atomicGlobal_memOk {i : Instr} {lanes : List (Nat × Nat)} {vec : Bool} {reg size fn : Nat} {args : Nat → Nat} :
    (atomicGlobal i lanes vec reg size fn args).memOk := by
  intro s u w h
  unfold atomicGlobal
  dsimp only
  split
  next e1 => exact (kept (checkGlobal_memOk h) e1 :)
  next e1 => exact (kept (checkGlobal_memOk h) e1 :)
  · split
    · exact poisonTrap_memOk h
    · split
      · refine foldl_keeps State.memOk _ (fun _ _ h3 => ?_) _ _ h
        split
        · exact h3
        · exact State.drainRange_memOk h3
      · refine State.updWave_memOk ?_
        refine foldl_keeps State.memOk _ (fun _ _ h3 => State.recheck_memOk h3 ..) _ _ ?_
        refine foldl_keeps (fun x : State × List (Nat × Nat) × Nat => x.1.memOk) _ (fun _ _ h3 => State.atomicAt_memOk h3) _ _ ?_
        refine foldl_keeps State.memOk _ (fun _ _ h3 => State.dropL1_memOk h3) _ _ ?_
        refine foldl_keeps State.memOk _ (fun _ _ h3 => ?_) _ _ h
        split
        · exact h3
        · exact State.drainRange_memOk h3

theorem atomicScratch_memOk {i : Instr} {lanes : List (Nat × Nat)} {vec : Bool} {reg size fn : Nat} {args : Nat → Nat} :
    (atomicScratch i lanes vec reg size fn args).memOk := by
  intro s u w h
  unfold atomicScratch
  dsimp only
  split
  · exact h
  · split
    next e2 => exact (kept (checkScratch_memOk h) e2 :)
    · split
      · exact poisonTrap_memOk h
      · exact State.setWave_memOk (State.setCohort_memOk h)

theorem execVatom_memOk {f : MF} {s : State} (h : s.memOk) : Outcome.memOk (execVatom f s) := by
  unfold execVatom
  dsimp only
  refine runInstr_memOk ?_ h
  refine forbiddenInGroup_memOk ?_
  refine afterJoin_memOk (fun _ _ _ h1 => ?_)
  split
  · exact h1
  · split
    · exact afterReads_memOk atomicGlobal_memOk _ _ _ h1
    · exact afterReads_memOk atomicScratch_memOk _ _ _ h1

theorem execSatom_memOk {f : MF} {s : State} (h : s.memOk) : Outcome.memOk (execSatom f s) := by
  unfold execSatom
  dsimp only
  refine runInstr_memOk ?_ h
  refine forbiddenInGroup_memOk ?_
  refine afterJoin_memOk (fun _ _ _ h1 => ?_)
  split
  · exact h1
  · split
    · exact afterReads_memOk atomicGlobal_memOk _ _ _ h1
    · exact afterReads_memOk atomicScratch_memOk _ _ _ h1

theorem execCpref_memOk {f : MF} {s : State} (h : s.memOk) : Outcome.memOk (execCpref f s) := by
  unfold execCpref
  dsimp only
  refine runInstr_memOk ?_ h
  refine afterJoin_memOk (fun _ _ _ h1 => ?_)
  split
  · exact waveMiss_memOk h1
  · refine foldl_keeps State.memOk _ (fun _ _ h3 => ?_) _ _ h1
    split
    · exact h3
    · exact State.fillL1_memOk h3

theorem State.dropLine_memOk {s : State} {line : Nat} (h : s.memOk) : (s.dropLine line).memOk :=
  foldl_keeps State.memOk _ (fun _ _ h1 => State.updCore_memOk h1) _ _ h

theorem execCflush_memOk {f : MF} {s : State} (h : s.memOk) : Outcome.memOk (execCflush f s) := by
  unfold execCflush
  dsimp only
  refine runInstr_memOk ?_ h
  refine afterJoin_memOk (fun _ _ _ h1 => ?_)
  split
  · exact h1
  · split
    next e3 => exact (kept (checkGlobal_memOk h1) e3 :)
    next e3 =>
      split
      · exact State.setWave_memOk h1
      · exact (kept (checkGlobal_memOk h1) e3 :)
    · split
      · refine foldl_keeps State.memOk _ (fun _ _ h4 => ?_) _ _ h1
        split
        · exact h4
        · exact State.drainRange_memOk h4
      · split
        · refine foldl_keeps State.memOk _ (fun _ _ h4 => State.dropLine_memOk h4) _ _ ?_
          refine foldl_keeps State.memOk _ (fun _ _ h4 => ?_) _ _ h1
          split
          · exact h4
          · exact State.drainRange_memOk h4
        · refine foldl_keeps State.memOk _ (fun _ _ h4 => ?_) _ _ h1
          split
          · exact h4
          · exact State.drainRange_memOk h4

theorem execFqpush_memOk {f : MF} {s : State} (h : s.memOk) : Outcome.memOk (execFqpush f s) := by
  unfold execFqpush
  dsimp only
  refine runInstr_memOk ?_ h
  refine forbiddenInGroup_memOk ?_
  refine afterJoin_memOk ?_
  refine afterReads_memOk (fun _ _ _ h1 => ?_)
  split
  · exact h1
  · split
    · exact h1
    · split
      · exact h1
      · exact State.setCohort_memOk h1

theorem execFqpop_memOk {f : MF} {s : State} (h : s.memOk) : Outcome.memOk (execFqpop f s) := by
  unfold execFqpop
  dsimp only
  refine runInstr_memOk ?_ h
  refine forbiddenInGroup_memOk ?_
  refine afterJoin_memOk (fun _ _ _ h1 => ?_)
  split
  · exact h1
  · split
    · exact h1
    · split
      · exact h1
      · exact State.setWave_memOk (State.setCohort_memOk h1)

theorem State.answerLane_memOk {s : State} {u seq : Nat} {a : LaneAcc} (h : s.memOk) : (s.answerLane u seq a).memOk := by
  unfold State.answerLane
  dsimp only
  split
  · exact h
  · exact State.setWave_memOk h

theorem State.floadLane_memOk {s : State} {u seq : Nat} {a : LaneAcc} (h : s.memOk) : (s.floadLane u seq a).memOk := by
  unfold State.floadLane
  dsimp only
  split
  · exact State.answerLane_memOk h
  · split <;> exact State.updWave_memOk h

theorem State.countNacks_memOk {s : State} {u seq : Nat} {sent : List LaneAcc} (h : s.memOk) : (s.countNacks u seq sent).memOk := by
  unfold State.countNacks
  dsimp only
  split
  · exact h
  · exact foldl_keeps State.memOk _ (fun _ _ h2 => State.updL2_memOk h2) _ _ h

theorem State.floadSend_memOk {s : State} {u seq : Nat} {lanes : List LaneAcc} (h : s.memOk) : (s.floadSend u seq lanes).memOk :=
  State.updWave_memOk (State.countNacks_memOk (foldl_keeps State.memOk _ (fun _ _ h1 => State.floadLane_memOk h1) _ _ (State.updWave_memOk
      h)))

theorem future_memOk {f : MF} {access : Nat} {body : List Acc → Body} (hbody : ∀ (a : List Acc), (body a).memOk) :
    (future f access body).memOk := by
  intro s u w h
  unfold future
  dsimp only
  refine forbiddenInGroup_memOk ?_ _ _ _ h
  refine afterJoin_memOk (fun _ _ _ h1 => ?_)
  split
  · exact h1
  · split
    next e3 => exact (kept (checkGlobal_memOk h1) e3 :)
    next e3 => exact (kept (checkGlobal_memOk h1) e3 :)
    · split
      · refine foldl_keeps State.memOk _ (fun _ _ h4 => ?_) _ _ h1
        split
        · exact h4
        · exact State.drainRange_memOk h4
      · refine hbody _ _ _ _ ?_
        refine foldl_keeps State.memOk _ (fun _ _ h4 => ?_) _ _ h1
        split
        · exact h4
        · exact State.drainRange_memOk h4

theorem execFload_memOk {f : MF} {s : State} (h : s.memOk) : Outcome.memOk (execFload f s) := by
  unfold execFload
  dsimp only
  refine runInstr_memOk ?_ h
  refine future_memOk (fun _ _ _ _ h1 => ?_)
  split
  · exact poisonTrap_memOk h1
  · split
    next e4 => exact kept_fst (State.readNow_memOk h1) e4
    next e4 => exact State.floadSend_memOk (State.setWave_memOk (kept_fst (State.readNow_memOk h1) e4))

theorem State.answerDeferred_memOk {s : State} {word : Nat} (h : s.memOk) : (s.answerDeferred word).memOk :=
  foldl_keeps State.memOk _ (fun _ _ h1 => State.answerLane_memOk h1) _ _ h

theorem State.fstoreLane_memOk {s : State} {u e v pa : Nat} (h : s.memOk) : (s.fstoreLane u e v pa).memOk := by
  unfold State.fstoreLane
  refine ite_ok ?_ (State.updL2_memOk h)
  refine State.recheck_memOk (State.answerDeferred_memOk ?_) _ _
  exact State.writeQuiet_memOk (State.with_memOk h) _ _ _

theorem execFstore_memOk {f : MF} {s : State} (h : s.memOk) : Outcome.memOk (execFstore f s) := by
  unfold execFstore
  dsimp only
  refine runInstr_memOk ?_ h
  refine future_memOk (fun _ _ _ _ h1 => ?_)
  split
  · exact State.predecessors_memOk h1
  · split
    · exact State.predecessors_memOk h1
    · exact foldl_keeps State.memOk _ (fun _ _ h3 => State.fstoreLane_memOk h3) _ _ (foldl_keeps State.memOk _ (fun _ _ h3 =>
        State.dropL1_memOk h3) _ _ (State.predecessors_memOk h1))

theorem execFreset_memOk {f : MF} {s : State} (h : s.memOk) : Outcome.memOk (execFreset f s) := by
  unfold execFreset
  dsimp only
  refine runInstr_memOk ?_ h
  refine future_memOk (fun _ _ _ _ h1 => ?_)
  split
  · exact h1
  · split
    · exact h1
    · exact foldl_keeps State.memOk _ (fun _ _ h3 => State.with_memOk (State.breakWatches_memOk h3)) _ _ h1

theorem State.retranslate_memOk {s : State} {u seq : Nat} {a : LaneAcc} (h : s.memOk) : (s.retranslate u seq a).memOk := by
  unfold State.retranslate
  dsimp only
  split
  · exact h
  · split
    all_goals next e2 => exact State.updWave_memOk (kept (engineXlate_memOk h) e2 :)

theorem State.floadAgain_memOk {s : State} {u seq : Nat} {l : Late} (h : s.memOk) : (s.floadAgain u seq l).memOk := by
  unfold State.floadAgain
  dsimp only
  split
  · exact State.afterLanding_memOk (foldl_keeps State.memOk _ (fun _ _ h2 => State.retranslate_memOk h2) _ _ h)
  · split
    · exact foldl_keeps State.memOk _ (fun _ _ h2 => State.retranslate_memOk h2) _ _ h
    · split
      · exact State.afterLanding_memOk (State.floadSend_memOk (foldl_keeps State.memOk _ (fun _ _ h2 => State.retranslate_memOk h2) _ _ h))
      · exact State.floadSend_memOk (foldl_keeps State.memOk _ (fun _ _ h2 => State.retranslate_memOk h2) _ _ h)

theorem execFloadResend_memOk {wave seq : Nat} {s : State} (h : s.memOk) : Outcome.memOk (execFloadResend wave seq s) := by
  unfold execFloadResend
  split
  · exact h
  · split
    · exact h
    · exact State.floadAgain_memOk h

theorem State.writePages_memOk {s : State} {l : List Nat} {l' : List Byte} (h : s.memOk) : (s.writePages l l').memOk := by
  induction l generalizing s l' with
  | nil =>
    unfold State.writePages
    exact h
  | cons x l ih =>
    unfold State.writePages
    split
    · exact h
    · exact ih (State.writeHome_memOk h ..)

theorem State.writeImage_memOk {s : State} {x : Saved} {disp : Nat} (h : s.memOk) : (s.writeImage x disp).memOk := State.writePages_memOk h

theorem State.updSaved_memOk {s : State} {p : Saved → Bool} {f : Saved → Saved} (h : s.memOk) : (s.updSaved p f).memOk := by
  unfold State.updSaved
  dsimp only
  refine foldl_keeps State.memOk _ (fun _ _ h1 => ?_) _ _ h
  refine foldl_keeps State.memOk _ (fun _ _ h3 => ?_) _ _ h1
  split
  · exact h3
  · exact State.writeImage_memOk (State.updTask_memOk h3)

theorem State.updAnyWave_memOk {s : State} {u : Nat} {f : Wave → Wave} (h : s.memOk) : (s.updAnyWave u f).memOk := by
  unfold State.updAnyWave
  split
  · exact State.updWave_memOk h
  · exact State.updSaved_memOk h

theorem State.completeCmd_memOk {s : State} {u e cmd : Nat} {err : Option (Nat → TlErr)} (h : s.memOk) :
    (s.completeCmd u e cmd err).memOk :=
  State.updAnyWave_memOk h

theorem State.escalateAfter_memOk {s : State} {u : Nat} {w : Wave} {batch : Nat} (h : s.memOk) : (s.escalateAfter u w batch).memOk :=
  State.updWave_memOk (State.escalate_memOk h)

theorem finishWaitt_memOk {e n : Nat} : (finishWaitt e n).memOk := by
  intro s u w h
  unfold finishWaitt
  dsimp only
  split
  · exact State.setWave_memOk (State.acquire_memOk h)
  · split
    · split <;> exact State.setWave_memOk (State.acquire_memOk h)
    · split
      · exact State.escalateAfter_memOk (State.setWave_memOk (State.acquire_memOk h))
      · exact State.setWave_memOk (State.acquire_memOk h)

theorem execWaitt_memOk {f : EF} {s : State} (h : s.memOk) : Outcome.memOk (execWaitt f s) := by
  unfold execWaitt
  dsimp only
  refine runInstr_memOk ?_ h
  refine forbiddenInGroup_memOk (fun _ _ _ h1 => ?_)
  split
  · exact h1
  · split
    · exact h1
    · exact finishWaitt_memOk _ _ _ h1

theorem wordAccess_memOk {i : Instr} {base : BitVec 8} {reg access : Nat} {body : Nat → Body} (hbody : ∀ (a : Nat), (body a).memOk) :
    (wordAccess i base reg access body).memOk := by
  intro s u w h
  unfold wordAccess
  dsimp only
  refine afterJoin_memOk (fun _ _ _ h1 => ?_) _ _ _ h
  split
  next e3 => exact (kept (checkGlobal_memOk h1) e3 :)
  next e3 => exact (kept (checkGlobal_memOk h1) e3 :)
  · split
    · exact h1
    · split
      · exact poisonTrap_memOk h1
      · split
        · split
          · exact h1
          · exact State.drainRange_memOk h1
        · refine ite_ok ?_ ?_
          · split
            · exact h1
            · exact State.drainRange_memOk h1
          · refine hbody _ _ _ _ ?_
            split
            · exact h1
            · exact State.drainRange_memOk h1

theorem acquired_memOk {s : State} {u : Nat} {w : Wave} (h : s.memOk) : (acquired s u w).memOk :=
  State.acquire_memOk (State.setWave_memOk h)

theorem execWaittMemory_memOk {f : EF} {s : State} (h : s.memOk) : Outcome.memOk (execWaittMemory f s) := by
  unfold execWaittMemory
  dsimp only
  refine runInstr_memOk ?_ h
  refine forbiddenInGroup_memOk (fun _ _ _ h1 => ?_)
  split
  · exact acquired_memOk h1
  · refine wordAccess_memOk (fun _ _ _ _ h3 => ?_) _ _ _ h1
    split
    · exact acquired_memOk h3
    · exact h3

theorem execFence_memOk {f : EF} {s : State} (h : s.memOk) : Outcome.memOk (execFence f s) := by
  unfold execFence
  dsimp only
  refine runInstr_memOk ?_ h
  refine forbiddenInGroup_memOk (fun _ _ _ h1 => ?_)
  split
  · split
    · exact State.acquire_memOk h1
    · exact h1
  · split
    · exact State.predecessors_memOk h1
    · split
      · exact State.acquire_memOk (State.predecessors_memOk h1)
      · exact State.predecessors_memOk h1

theorem scoreboard_memOk {i : Instr} {f : EF} {change : Nat → Nat → Nat} : (scoreboard i f change).memOk := by
  intro s u w h
  unfold scoreboard
  dsimp only
  refine forbiddenInGroup_memOk ?_ _ _ _ h
  refine wordAccess_memOk (fun _ _ _ _ h1 => ?_)
  split
  · exact State.predecessors_memOk h1
  · split
    · exact State.predecessors_memOk h1
    · exact State.writeHome_memOk (State.dropL1_memOk (State.predecessors_memOk h1)) ..

theorem execSbwait_memOk {f : EF} {s : State} (h : s.memOk) : Outcome.memOk (execSbwait f s) := by
  unfold execSbwait
  dsimp only
  refine runInstr_memOk ?_ h
  refine forbiddenInGroup_memOk (fun _ _ _ h1 => ?_)
  split
  · exact acquired_memOk h1
  · split
    · exact h1
    · refine wordAccess_memOk (fun _ _ _ _ h3 => ?_) _ _ _ h1
      split
      · exact acquired_memOk h3
      · exact h3

theorem execSbtake_memOk {f : EF} {s : State} (h : s.memOk) : Outcome.memOk (execSbtake f s) := by
  unfold execSbtake
  refine runInstr_memOk (forbiddenInGroup_memOk fun s u w h => ?_) h
  refine ite_ok (acquired_memOk h) (ite_ok h (wordAccess_memOk (fun pa => afterReads_memOk fun s u w h => ?_) _ _ _ h))
  exact ite_ok (acquired_memOk (State.writeHome_memOk (State.dropL1_memOk h) ..)) (State.setWave_memOk h)

theorem State.performGroup_memOk {s : State} {u : Nat} {w : Wave} {g : Group} (h : s.memOk) : (s.performGroup u w g).memOk :=
  foldl_keeps State.memOk _ (fun _ _ h1 => State.recheck_memOk h1 ..) _ _ (foldl_keeps State.memOk _ (fun _ _ h1 => State.poke_memOk
      (State.dropL1_memOk h1) ..) _ _ h)

/-- A commit first drains the stores of its own wave to the bytes of the group. -/
theorem drainGroup_memOk {core u : Nat} {rs : List (Nat × List Byte)} {s : State} (h : s.memOk) :
    State.memOk (rs.foldl (fun s r => if (s.ownBytes core u r.1 r.2.length).isEmpty then s else s.drainRange core r.1 r.2.length) s) :=
  foldl_keeps State.memOk _ (fun _ _ hs => ite_ok hs (State.drainRange_memOk hs)) _ _ h

theorem execCgcommit_memOk {f : EF} {s : State} (h : s.memOk) : Outcome.memOk (execCgcommit f s) := by
  unfold execCgcommit
  dsimp only
  refine runInstr_memOk (fun s u w h => ?_) h
  split
  · exact State.updWave_memOk h
  · refine ite_ok (State.updWave_memOk h) (ite_ok (State.updWave_memOk h) (ite_ok h ?_))
    have hs := fun rs => drainGroup_memOk (core := w.core) (u := u) (rs := rs) h
    refine ite_ok ?_ (ite_ok ?_ (ite_ok ?_ (ite_ok ?_ ?_)))
    · exact State.updWave_memOk (hs _)
    · exact hs _
    · exact State.updWave_memOk (hs _)
    · exact State.updWave_memOk (hs _)
    · exact State.updWave_memOk (State.performGroup_memOk (hs _))

end Sys2Proof.Machine
end

section
/-! SUPPORT. Canonical memory: the copy engines and the matrix engine. -/

set_option Elab.async false

namespace Sys2Proof.Machine

theorem State.updAnyCohort_memOk {s : State} {cid : Nat} {f : Cohort → Cohort} (h : s.memOk) : (s.updAnyCohort cid f).memOk := by
  unfold State.updAnyCohort
  split
  · exact State.updCohort_memOk h
  · exact State.updSaved_memOk h

theorem State.issueCopy_memOk {s : State} {u : Nat} {w : Wave} {e kind : Nat} {recVa : DWord} {rec_ : List Byte} {args : List Nat} (h :
    s.memOk) :
    (s.issueCopy u w e kind recVa rec_ args).1.memOk :=
  State.with_memOk (State.updWave_memOk (State.fresh_memOk h))

theorem State.updCopy_memOk {s : State} {id : Nat} {f : CopyCmd → CopyCmd} (h : s.memOk) : (s.updCopy id f).memOk := h

theorem State.finishCopy_memOk {s : State} {c : CopyCmd} {err : Option (Nat × DWord)} (h : s.memOk) : (s.finishCopy c err).memOk := by
  unfold State.finishCopy
  dsimp only
  split
  · refine State.updDie_memOk ?_
    split
    · exact State.completeCmd_memOk h
    · exact h
  · split
    · exact State.completeCmd_memOk h
    · exact h

theorem readPieces_memOk {i : Instr} {reg align : Nat} {ps : List (Nat × Nat)} {body : List Byte → Body} (hbody : ∀ (a : List Byte), (body
    a).memOk) :
    (readPieces i reg align ps body).memOk := by
  intro s u w h
  unfold readPieces
  dsimp only
  split
  next e1 => exact (kept (checkGlobal_memOk h) e1 :)
  next e1 =>
    split
    · exact hbody _ _ _ _ (State.setWave_memOk h)
    · exact (kept (checkGlobal_memOk h) e1 :)
  · split
    · split
      · exact hbody _ _ _ _ (State.setWave_memOk h)
      · exact poisonTrap_memOk h
    · split
      next e2 => exact kept_fst (State.readNow_memOk (State.setWave_memOk h)) e2
      next e2 => exact hbody _ _ _ _ (State.setWave_memOk (kept_fst (State.readNow_memOk (State.setWave_memOk h)) e2))

theorem readRecordAt_memOk {i : Instr} {reg va n : Nat} {body : List Byte → Body} (hbody : ∀ (a : List Byte), (body a).memOk) :
    (readRecordAt i reg va n body).memOk :=
  fun _ _ _ h => readPieces_memOk hbody _ _ _ h

theorem readRecord_memOk {i : Instr} {base : BitVec 8} {n : Nat} {body : List Byte → Body} (hbody : ∀ (a : List Byte), (body a).memOk) :
    (readRecord i base n body).memOk :=
  fun _ _ _ h => afterJoin_memOk (fun _ _ _ h1 => readRecordAt_memOk hbody _ _ _ h1) _ _ _ h

theorem execTcopy_memOk {f : EF} {s : State} (h : s.memOk) : Outcome.memOk (execTcopy f s) := by
  unfold execTcopy
  refine runInstr_memOk ?_ h
  refine forbiddenInGroup_memOk ?_
  refine readRecord_memOk (fun _ _ _ _ h1 => ?_)
  split
  · exact h1
  · split
    · exact h1
    · exact State.issueCopy_memOk h1

theorem engineFault_memOk {s : State} {c : CopyCmd} {va kind access level : Nat} (h : s.memOk) :
    (engineFault s c va kind access level).memOk := by
  unfold engineFault
  split
  · exact h
  · exact queueFault_memOk (State.updCopy_memOk h)

theorem engineGet_memOk {s : State} {c : CopyCmd} {scratch : Bool} {a n : Nat} (h : s.memOk) : (engineGet s c scratch a n).memOk := by
  unfold engineGet
  dsimp only
  split
  · split
    · refine Got.other_memOk ?_
      split
      · exact trivial
      · exact h
    · split
      · exact h
      · split
        · exact h
        · split
          · exact trivial
          · split
            · exact h
            · exact State.setCohort_memOk h
  · split
    next e1 =>
      split
      · split
        · exact trivial
        · exact (kept (engineRead_memOk h) e1 :)
      · exact (kept (engineRead_memOk h) e1 :)
    next e1 => exact Got.other_memOk (engineFault_memOk (kept (engineRead_memOk h) e1 :))
    next e1 => exact Got.other_memOk (kept (engineRead_memOk h) e1 :)
    next e1 => exact Got.other_memOk (kept (engineRead_memOk h) e1 :)

theorem enginePut.go_memOk {c : CopyCmd} {s : State} {ps w : List (Nat × List Byte)} (h : s.memOk) : (enginePut.go c s ps w).memOk := by
  induction ps generalizing s w with
  | nil =>
    unfold enginePut.go
    split
    · exact trivial
    · exact foldl_keeps State.memOk _ (fun _ _ h1 => State.writeHome_memOk h1 ..) _ _ h
  | cons x ps ih =>
    unfold enginePut.go
    split
    next e1 => exact ih (kept (engineXlate_memOk h) e1 :)
    next e1 => exact engineFault_memOk (kept (engineXlate_memOk h) e1 :)
    next e1 => exact (kept (engineXlate_memOk h) e1 :)

theorem enginePut_memOk {s : State} {c : CopyCmd} {scratch : Bool} {a : Nat} {bs : List Byte} (h : s.memOk) :
    (enginePut s c scratch a bs).memOk := by
  unfold enginePut
  split
  · split
    · split
      · exact trivial
      · exact h
    · split
      · exact h
      · exact State.setCohort_memOk h
  · exact enginePut.go_memOk h

theorem moveElement_memOk {s : State} {c : CopyCmd} {t : Tile} {i : Nat} (h : s.memOk) : (moveElement s c t i).memOk := by
  unfold moveElement
  split
  next e1 => exact (kept (engineGet_memOk h) e1 :)
  next e1 => exact enginePut_memOk (kept (engineGet_memOk h) e1 :)

theorem State.fillTile_memOk {s : State} {t : Tile} {cmd : Nat} {moved : List Nat} (h : s.memOk) : (s.fillTile t cmd moved).memOk := by
  unfold State.fillTile
  split
  · split
    · exact State.updCohort_memOk h
    · exact h
  · exact h

theorem moveElements_memOk {t : Tile} {id : Nat} {moved l : List Nat} {s : State} (h : s.memOk) : (moveElements t id moved l s).memOk := by
  induction l generalizing s with
  | nil =>
    unfold moveElements
    exact h
  | cons x l ih =>
    unfold moveElements
    split
    · exact h
    · split
      next e2 => exact ih (State.updCopy_memOk (kept (moveElement_memOk h) e2 :))
      · exact ih h
      next e2 => exact (kept (moveElement_memOk h) e2 :)
      next e2 => exact State.finishCopy_memOk (State.fillTile_memOk (kept (moveElement_memOk h) e2 :))

theorem execTileCopyPerform_memOk {cmd : Nat} {elems : List Nat} {s : State} (h : s.memOk) :
    Outcome.memOk (execTileCopyPerform cmd elems s) := by
  unfold execTileCopyPerform
  dsimp only
  split
  · exact h
  · split
    · exact h
    · split
      · exact moveElements_memOk h
      · split
        · exact State.finishCopy_memOk (State.fillTile_memOk (moveElements_memOk h))
        · exact State.fillTile_memOk (moveElements_memOk h)

theorem State.updSegment_memOk {s : State} {core seg : Nat} {f : Segment → Segment} (h : s.memOk) : (s.updSegment core seg f).memOk :=
  State.updCore_memOk h

theorem execSegcfg_memOk {f : EF} {s : State} (h : s.memOk) : Outcome.memOk (execSegcfg f s) := by
  unfold execSegcfg
  dsimp only
  refine runInstr_memOk ?_ h
  refine forbiddenInGroup_memOk ?_
  refine afterJoin_memOk (fun _ _ _ h1 => ?_)
  split
  · exact h1
  · split
    · exact h1
    · refine ite_ok h1 ?_
      split
      · exact h1
      · split
        · exact h1
        · refine State.issueCopy_memOk ?_
          refine State.updSegment_memOk ?_
          split
          · exact State.setCohort_memOk h1
          · exact h1

theorem execSegcfgComplete_memOk {cmd : Nat} {s : State} (h : s.memOk) : Outcome.memOk (execSegcfgComplete cmd s) := by
  unfold execSegcfgComplete
  dsimp only
  split
  · exact h
  · split
    · exact h
    · refine State.finishCopy_memOk ?_
      refine State.updAnyCohort_memOk ?_
      split
      · exact State.updSegment_memOk h
      · exact h

theorem execTlreadDeferred_memOk {f : EF} {s : State} (h : s.memOk) : Outcome.memOk (execTlreadDeferred f s) := by
  unfold execTlreadDeferred
  dsimp only
  refine runInstr_memOk ?_ h
  refine forbiddenInGroup_memOk ?_
  refine afterJoin_memOk (fun _ _ _ h1 => ?_)
  split
  · exact h1
  · exact State.updWave_memOk (State.issueCopy_memOk h1)

theorem execTlreadPerform_memOk {cmd : Nat} {s : State} (h : s.memOk) : Outcome.memOk (execTlreadPerform cmd s) := by
  unfold execTlreadPerform
  dsimp only
  split
  · exact h
  · split
    · exact h
    · split
      next e2 => exact State.finishCopy_memOk (kept (engineXlate_memOk h) e2 :)
      next e2 => exact State.finishCopy_memOk (kept (engineXlate_memOk h) e2 :)
      next e2 =>
        split
        · exact State.finishCopy_memOk (kept (engineXlate_memOk h) e2 :)
        · split
          · exact (kept (engineXlate_memOk h) e2 :)
          · refine State.finishCopy_memOk ?_
            split
            · exact State.updAnyWave_memOk (kept (engineXlate_memOk h) e2 :)
            · exact (kept (engineXlate_memOk h) e2 :)

theorem execSpmark_memOk {f : EF} {s : State} (h : s.memOk) : Outcome.memOk (execSpmark f s) := by
  unfold execSpmark
  dsimp only
  refine runInstr_memOk ?_ h
  refine forbiddenInGroup_memOk ?_
  refine afterJoin_memOk ?_
  refine afterReads_memOk (fun _ _ _ h1 => ?_)
  split
  · exact h1
  · split
    · exact h1
    · split
      · exact h1
      · split
        · exact h1
        · split
          · exact h1
          · split
            · exact h1
            · exact State.setCohort_memOk h1

theorem State.updMatrix_memOk {s : State} {cid half : Nat} {f : Matrix → Matrix} (h : s.memOk) : (s.updMatrix cid half f).memOk :=
  State.updCohort_memOk h

theorem reservation_memOk {s : State} {i : Instr} {x : Nat} (h : s.memOk) : (reservation s i x).memOk := h

theorem illegalAt_memOk {s : State} {i : Instr} {lo : Nat} (h : s.memOk) : (illegalAt s i lo).memOk := h

theorem matrixInstr_memOk {body : Cohort → Nat → Body} (hbody : ∀ (a : Cohort) (a_1 : Nat), (body a a_1).memOk) :
    (matrixInstr body).memOk := by
  intro s u w h
  unfold matrixInstr
  refine forbiddenInGroup_memOk ?_ _ _ _ h
  refine afterJoin_memOk (fun _ _ _ h1 => ?_)
  split
  · exact h1
  · exact hbody _ _ _ _ _ h1

theorem execObres_memOk {f : EF} {s : State} (h : s.memOk) : Outcome.memOk (execObres f s) := by
  unfold execObres
  dsimp only
  refine runInstr_memOk ?_ h
  refine matrixInstr_memOk (fun _ _ _ _ _ h1 => ?_)
  split
  · exact illegalAt_memOk h1
  · split
    · exact reservation_memOk h1
    · exact State.updMatrix_memOk h1

theorem State.issueMatrix_memOk {s : State} {u : Nat} {w : Wave} {half : Nat} {c : MCmd} {regs : List Nat} (h : s.memOk) :
    (s.issueMatrix u w half c regs).memOk :=
  State.updCore_memOk (State.updWave_memOk (State.fresh_memOk h))

theorem State.updMcmd_memOk {s : State} {core id : Nat} {f : MCmd → MCmd} (h : s.memOk) : (s.updMcmd core id f).memOk :=
  State.updCore_memOk h

theorem State.finishMatrix_memOk {s : State} {core : Nat} {c : MCmd} (h : s.memOk) : (s.finishMatrix core c).memOk :=
  State.completeCmd_memOk (State.updCore_memOk h)

theorem State.upsetMatrix_memOk {s : State} {core cmd : Nat} (h : s.memOk) : (s.upsetMatrix core cmd).memOk := by
  unfold State.upsetMatrix
  dsimp only
  split
  · exact h
  · split
    · exact State.updMcmd_memOk h
    · refine State.finishMatrix_memOk ?_
      split
      · exact State.updMatrix_memOk h
      · exact h

theorem execObrel_memOk {f : EF} {s : State} (h : s.memOk) : Outcome.memOk (execObrel f s) := by
  unfold execObrel
  dsimp only
  refine runInstr_memOk ?_ h
  refine matrixInstr_memOk (fun _ _ _ _ _ h1 => ?_)
  split
  · exact reservation_memOk h1
  · split
    · exact reservation_memOk h1
    · exact State.issueMatrix_memOk (State.updMatrix_memOk h1)

theorem obMove_memOk {i : Instr} {f : EF} {owner : Bool} {body : Nat → Nat → Nat → Body} (hbody : ∀ (a a_1 a_2 : Nat), (body a a_1
    a_2).memOk) :
    (obMove i f owner body).memOk := by
  intro s u w h
  unfold obMove
  dsimp only
  refine matrixInstr_memOk (fun _ _ _ _ _ h1 => ?_) _ _ _ h
  split
  · exact h1
  · split
    · exact reservation_memOk h1
    · split
      · exact reservation_memOk h1
      · exact hbody _ _ _ _ _ _ h1

theorem execObwr_memOk {f : EF} {s : State} (h : s.memOk) : Outcome.memOk (execObwr f s) :=
  runInstr_memOk (obMove_memOk (fun _ _ _ _ _ _ h1 => State.issueMatrix_memOk h1)) h

theorem execObrd_memOk {f : EF} {s : State} (h : s.memOk) : Outcome.memOk (execObrd f s) :=
  runInstr_memOk (obMove_memOk (fun _ _ _ _ _ _ h1 => State.issueMatrix_memOk h1)) h

theorem execMplane_memOk {f : EF} {s : State} (h : s.memOk) : Outcome.memOk (execMplane f s) := by
  unfold execMplane
  dsimp only
  refine runInstr_memOk ?_ h
  refine matrixInstr_memOk (fun _ _ _ _ _ h1 => ?_)
  split
  · exact reservation_memOk h1
  · exact State.issueMatrix_memOk (State.updMatrix_memOk h1)

theorem execMlds_memOk {f : EF} {s : State} (h : s.memOk) : Outcome.memOk (execMlds f s) := by
  unfold execMlds
  dsimp only
  refine runInstr_memOk ?_ h
  refine matrixInstr_memOk (fun _ _ _ _ _ h1 => ?_)
  split
  · exact reservation_memOk h1
  · split
    · exact reservation_memOk h1
    · split
      · exact illegalAt_memOk h1
      · split
        · exact reservation_memOk h1
        · exact State.issueMatrix_memOk (State.updMatrix_memOk h1)

theorem execMswap_memOk {f : EF} {s : State} (h : s.memOk) : Outcome.memOk (execMswap f s) := by
  unfold execMswap
  dsimp only
  refine runInstr_memOk ?_ h
  refine matrixInstr_memOk (fun _ _ _ _ _ h1 => ?_)
  split
  · exact reservation_memOk h1
  · exact State.issueMatrix_memOk (State.updMatrix_memOk h1)

theorem execMma_memOk {f : EF} {s : State} (h : s.memOk) : Outcome.memOk (execMma f s) := by
  unfold execMma
  dsimp only
  refine runInstr_memOk ?_ h
  refine matrixInstr_memOk (fun _ _ _ _ _ h1 => ?_)
  split
  · exact illegalAt_memOk h1
  · split
    · exact reservation_memOk h1
    · split
      · exact reservation_memOk h1
      · refine ite_ok (illegalAt_memOk h1) ?_
        refine ite_ok (illegalAt_memOk h1) ?_
        refine ite_ok (reservation_memOk h1) ?_
        refine ite_ok (illegalAt_memOk h1) ?_
        refine ite_ok (reservation_memOk h1) ?_
        refine State.issueMatrix_memOk ?_
        split
        · exact State.updMatrix_memOk h1
        · exact h1

theorem execMacz_memOk {f : EF} {s : State} (h : s.memOk) : Outcome.memOk (execMacz f s) := by
  unfold execMacz
  dsimp only
  refine runInstr_memOk ?_ h
  refine matrixInstr_memOk (fun _ _ _ _ _ h1 => ?_)
  split
  · exact illegalAt_memOk h1
  · split
    · exact reservation_memOk h1
    · exact State.issueMatrix_memOk h1

theorem shiftIssue_memOk {i : Instr} {f : EF} {op : Nat} {body : MCmd → Nat → Body} (hbody : ∀ (a : MCmd) (a_1 : Nat), (body a a_1).memOk) :
    (shiftIssue i f op body).memOk := by
  intro s u w h
  unfold shiftIssue
  dsimp only
  refine matrixInstr_memOk (fun _ _ _ _ _ h1 => ?_) _ _ _ h
  split
  · exact illegalAt_memOk h1
  · split
    · exact illegalAt_memOk h1
    · refine ite_ok (reservation_memOk h1) ?_
      split
      · exact hbody _ _ _ _ _ h1
      · split
        · exact h1
        · split
          · exact reservation_memOk h1
          · split
            · exact reservation_memOk h1
            · exact hbody _ _ _ _ _ h1
      · split
        · exact h1
        · split
          · exact h1
          · split
            · exact illegalAt_memOk h1
            · split
              · exact h1
              · exact hbody _ _ _ _ _ h1

theorem execMshout_memOk {f : EF} {s : State} (h : s.memOk) : Outcome.memOk (execMshout f s) :=
  runInstr_memOk (shiftIssue_memOk (fun _ _ _ _ _ h1 => State.issueMatrix_memOk h1)) h

theorem execMshin_memOk {f : EF} {s : State} (h : s.memOk) : Outcome.memOk (execMshin f s) :=
  runInstr_memOk (shiftIssue_memOk (fun _ _ _ _ _ h1 => State.issueMatrix_memOk h1)) h

theorem execObrelRelease_memOk {core cmd : Nat} {s : State} (h : s.memOk) : Outcome.memOk (execObrelRelease core cmd s) := by
  unfold execObrelRelease
  split
  · exact h
  · exact State.finishMatrix_memOk (State.updMatrix_memOk h)

theorem execObwrWrite_memOk {core cmd : Nat} {s : State} (h : s.memOk) : Outcome.memOk (execObwrWrite core cmd s) := by
  unfold execObwrWrite
  dsimp only
  split
  · exact h
  · exact State.finishMatrix_memOk (State.updMatrix_memOk h)

theorem execObrdRead_memOk {core cmd : Nat} {s : State} (h : s.memOk) : Outcome.memOk (execObrdRead core cmd s) := by
  unfold execObrdRead
  dsimp only
  split
  · exact h
  · split
    · exact State.finishMatrix_memOk h
    · exact State.finishMatrix_memOk (State.updAnyWave_memOk h)

theorem execMplaneWrite_memOk {core cmd : Nat} {s : State} (h : s.memOk) : Outcome.memOk (execMplaneWrite core cmd s) := by
  unfold execMplaneWrite
  dsimp only
  split
  · exact h
  · exact State.finishMatrix_memOk (State.updMatrix_memOk h)

theorem execMldsLoad_memOk {core cmd : Nat} {s : State} (h : s.memOk) : Outcome.memOk (execMldsLoad core cmd s) := by
  unfold execMldsLoad
  dsimp only
  split
  · exact h
  · split
    · exact State.finishMatrix_memOk h
    · exact State.finishMatrix_memOk (State.updMatrix_memOk h)

theorem execMswapExchange_memOk {core cmd : Nat} {s : State} (h : s.memOk) : Outcome.memOk (execMswapExchange core cmd s) := by
  unfold execMswapExchange
  split
  · exact h
  · exact State.finishMatrix_memOk (State.updMatrix_memOk h)

theorem State.matrixFlags_memOk {s : State} {c : MCmd} {fl : Nat} (h : s.memOk) : (s.matrixFlags c fl).memOk := by
  unfold State.matrixFlags
  split
  · exact h
  · exact State.updAnyWave_memOk h

theorem State.stepCmd_memOk {s : State} {core : Nat} {c : MCmd} (h : s.memOk) : (s.stepCmd core c).memOk := by
  unfold State.stepCmd
  dsimp only
  split
  · exact State.finishMatrix_memOk h
  · exact State.updMcmd_memOk h

theorem execMmaRowStep_memOk {core cmd : Nat} {s : State} (h : s.memOk) : Outcome.memOk (execMmaRowStep core cmd s) := by
  unfold execMmaRowStep
  dsimp only
  split
  · exact h
  · split
    · refine State.finishMatrix_memOk ?_
      split
      · exact State.updMatrix_memOk h
      · exact h
    · refine State.stepCmd_memOk ?_
      refine State.matrixFlags_memOk ?_
      refine State.updMatrix_memOk ?_
      split
      · exact State.updMatrix_memOk h
      · exact h

theorem execMaczClear_memOk {core cmd : Nat} {s : State} (h : s.memOk) : Outcome.memOk (execMaczClear core cmd s) := by
  unfold execMaczClear
  dsimp only
  split
  · exact h
  · exact State.stepCmd_memOk (State.updMatrix_memOk h)

theorem State.drawFor_memOk {s : State} {c : MCmd} {lane : Nat} (h : s.memOk) : (s.drawFor c lane).2.memOk := by
  unfold State.drawFor
  dsimp only
  split
  · exact State.updAnyWave_memOk h
  · split <;> exact h

theorem State.landOut_memOk {s : State} {c : MCmd} {i col v : Nat} {bad : Bool} (h : s.memOk) : (s.landOut c i col v bad).memOk := by
  unfold State.landOut
  dsimp only
  split
  · exact State.updAnyWave_memOk h
  · exact State.updMatrix_memOk h
  · exact State.updCohort_memOk h

theorem State.freshRow_memOk {s : State} {c : MCmd} {i : Nat} (h : s.memOk) : (s.freshRow c i).memOk := by
  unfold State.freshRow
  dsimp only
  split
  · exact h
  · exact State.updMatrix_memOk h
  · exact State.updCohort_memOk h

theorem execMshoutRow_memOk {core cmd : Nat} {s : State} (h : s.memOk) : Outcome.memOk (execMshoutRow core cmd s) := by
  unfold execMshoutRow
  dsimp only
  split
  · exact h
  · split
    · exact State.finishMatrix_memOk h
    · split
      · exact State.finishMatrix_memOk h
      · refine State.stepCmd_memOk ?_
        refine State.matrixFlags_memOk ?_
        split
        · exact State.updMatrix_memOk (foldl_keeps (fun x : State × Nat => x.1.memOk) _ (fun _ _ h4 => State.landOut_memOk
            (State.drawFor_memOk h4)) _ _ (State.freshRow_memOk h))
        · exact foldl_keeps (fun x : State × Nat => x.1.memOk) _ (fun _ _ h4 => State.landOut_memOk (State.drawFor_memOk h4)) _ _
            (State.freshRow_memOk h)

theorem execMshinRow_memOk {core cmd : Nat} {s : State} (h : s.memOk) : Outcome.memOk (execMshinRow core cmd s) := by
  unfold execMshinRow
  dsimp only
  split
  · exact h
  · split
    · exact State.finishMatrix_memOk h
    · split
      · exact State.finishMatrix_memOk h
      · exact ite_ok h (State.stepCmd_memOk (State.matrixFlags_memOk (State.updMatrix_memOk (foldl_keeps (fun x : State × Matrix × Nat ×
          Option DWord => x.1.memOk) _ (fun _ _ h4 => State.drawFor_memOk h4) _ _ (State.setCohort_memOk h)))))

end Sys2Proof.Machine
end

section
/-! SUPPORT. Canonical memory: remote operations, the fabric block and triggers. -/

set_option Elab.async false

namespace Sys2Proof.Machine

theorem State.updOp_memOk {s : State} {id : Nat} {f : RemoteOp → RemoteOp} (h : s.memOk) : (s.updOp id f).memOk := State.updFabric_memOk h

theorem State.inject_memOk {s : State} {op k : Nat} {t : Tx} (h : s.memOk) : (s.inject op k t).memOk := State.updFabric_memOk h

theorem State.addOp_memOk {s : State} {o : RemoteOp} (h : s.memOk) : (s.addOp o).2.memOk := by
  unfold State.addOp
  dsimp only
  refine State.updFabric_memOk ?_
  split
  · exact State.updWave_memOk (State.fresh_memOk h)
  · exact State.fresh_memOk h

theorem State.finishOp_memOk {s : State} {o : RemoteOp} (h : s.memOk) : (s.finishOp o).memOk := by
  unfold State.finishOp
  dsimp only
  split
  · refine State.updDie_memOk ?_
    split
    · refine State.completeCmd_memOk ?_
      refine State.updAnyWave_memOk ?_
      split
      · exact State.updFabric_memOk (State.updFabric_memOk h)
      · exact State.updFabric_memOk h
    · exact State.updFabric_memOk h
  · split
    · refine State.completeCmd_memOk ?_
      refine State.updAnyWave_memOk ?_
      split
      · exact State.updFabric_memOk (State.updFabric_memOk h)
      · exact State.updFabric_memOk h
    · exact State.updFabric_memOk h

theorem State.payloadGathered_memOk {s : State} {id n : Nat} (h : s.memOk) : (s.payloadGathered id n).memOk := by
  unfold State.payloadGathered
  dsimp only
  split
  · exact h
  · split
    · exact h
    · split
      · exact State.updOp_memOk h
      · split
        · exact State.inject_memOk (State.updOp_memOk h)
        · exact State.updOp_memOk (State.updOp_memOk h)

theorem State.settleOp_memOk {s : State} {id : Nat} (h : s.memOk) : (s.settleOp id).memOk := by
  unfold State.settleOp
  split
  · exact h
  · split
    · exact State.finishOp_memOk h
    · exact h

theorem State.countAck_memOk {s : State} {id : Nat} {a : Ack} (h : s.memOk) : (s.countAck id a).memOk :=
  State.settleOp_memOk (State.payloadGathered_memOk (State.updOp_memOk h))

theorem remoteInstr_memOk {i : Instr} {f : EF} {spec : Wave → OpSpec} {body : Nat → Nat → OpSpec → Nat → Body} (hbody : ∀ (a a_1 : Nat)
    (a_2 : OpSpec) (a_3 : Nat), (body a a_1 a_2 a_3).memOk) :
    (remoteInstr i f spec body).memOk := by
  intro s u w h
  unfold remoteInstr
  dsimp only
  refine forbiddenInGroup_memOk ?_ _ _ _ h
  refine afterJoin_memOk (fun _ _ _ h1 => ?_)
  split
  · exact h1
  · exact hbody _ _ _ _ _ _ _ h1
  · exact hbody _ _ _ _ _ _ _ h1

theorem State.startOp_memOk {s : State} {o : RemoteOp} {head : Tx} {parts : List (Nat × List Byte)} {card : Nat} (h : s.memOk) :
    (s.startOp o head parts card).1.memOk := by
  unfold State.startOp
  dsimp only
  split
  · refine State.settleOp_memOk ?_
    split
    · exact State.addOp_memOk h
    · exact foldl_keeps State.memOk _ (fun _ _ h1 => State.inject_memOk h1) _ _ (State.addOp_memOk h)
  · split
    · exact State.addOp_memOk h
    · exact foldl_keeps State.memOk _ (fun _ _ h1 => State.inject_memOk h1) _ _ (State.addOp_memOk h)

theorem execRstore_memOk {f : EF} {s : State} (h : s.memOk) : Outcome.memOk (execRstore f s) :=
  runInstr_memOk (remoteInstr_memOk (fun _ _ _ _ _ _ _ h1 => State.startOp_memOk h1)) h

theorem execRload_memOk {f : EF} {s : State} (h : s.memOk) : Outcome.memOk (execRload f s) := by
  unfold execRload
  dsimp only
  refine runInstr_memOk ?_ h
  refine remoteInstr_memOk (fun _ _ _ _ _ _ _ h1 => ?_)
  split
  · exact State.startOp_memOk h1
  · exact State.inject_memOk (State.updWave_memOk (State.addOp_memOk h1))

theorem execRatom_memOk {f : EF} {s : State} (h : s.memOk) : Outcome.memOk (execRatom f s) := by
  unfold execRatom
  refine runInstr_memOk (remoteInstr_memOk fun _ _ _ _ _ _ _ hs => ?_) h
  refine ite_ok (State.startOp_memOk hs) (ite_ok ?_ ?_)
  · split
    next e => exact State.inject_memOk (State.updWave_memOk (kept_snd (State.addOp_memOk hs) e))
  · split
    next e => exact State.updWave_memOk (kept_fst (State.startOp_memOk hs) e)

theorem execRsig_memOk {f : EF} {s : State} (h : s.memOk) : Outcome.memOk (execRsig f s) :=
  runInstr_memOk (remoteInstr_memOk (fun _ _ _ _ _ _ _ h1 => State.startOp_memOk h1)) h

theorem execRred_memOk {f : EF} {s : State} (h : s.memOk) : Outcome.memOk (execRred f s) := by
  unfold execRred
  refine runInstr_memOk (remoteInstr_memOk fun _ _ _ _ _ _ _ hs => ?_) h
  extract_lets
  split
  next e => exact State.inject_memOk (kept_snd (State.addOp_memOk hs) e)

theorem State.startRxfer_memOk {s : State} {o : RemoteOp} {c : CopyCmd} {n : Nat} (h : s.memOk) : (s.startRxfer o c n).memOk :=
  ite_ok (State.settleOp_memOk (State.fresh_memOk (State.addOp_memOk h))) (State.with_memOk (State.fresh_memOk (State.addOp_memOk h)))

theorem execRxfer_memOk {f : EF} {s : State} (h : s.memOk) : Outcome.memOk (execRxfer f s) := by
  unfold execRxfer
  dsimp only
  refine runInstr_memOk ?_ h
  refine forbiddenInGroup_memOk ?_
  refine readRecord_memOk (fun _ _ _ _ h1 => ?_)
  split
  · exact h1
  · exact State.startRxfer_memOk h1

theorem getRows_memOk {s : State} {c : CopyCmd} {scratch : Bool} {n : Nat} {l : List Nat} (h : s.memOk) :
    (getRows s c scratch n l).memOk := by
  induction l generalizing s with
  | nil =>
    unfold getRows
    exact h
  | cons x l ih =>
    unfold getRows
    split
    next e1 => exact Got.other_memOk (kept (engineGet_memOk h) e1 :)
    next e1 =>
      split
      next e2 => exact (kept (ih (kept (engineGet_memOk h) e1 :)) e2 :)
      next e2 => exact Got.other_memOk (kept (ih (kept (engineGet_memOk h) e1 :)) e2 :)

theorem State.rxferFails_memOk {s : State} {c : CopyCmd} {cause : Nat} (h : s.memOk) : (s.rxferFails c cause).memOk :=
  State.settleOp_memOk (State.payloadGathered_memOk (State.updOp_memOk h))

theorem State.sendRoce_memOk {s : State} {x : Roce} (h : s.memOk) : (s.sendRoce x).memOk := h

theorem sendPlan_memOk {n id : Nat} {l : List (PlanTx × Nat)} {s : State} (h : s.memOk) : (sendPlan n id l s).memOk := by
  induction l generalizing s with
  | nil =>
    unfold sendPlan
    exact h
  | cons x l ih =>
    unfold sendPlan
    dsimp only
    split
    · exact h
    · split
      · exact ih h
      · split
        next e2 =>
          refine ih ?_
          split
          · exact State.sendRoce_memOk (State.updCopy_memOk (kept (getRows_memOk h) e2 :))
          · exact State.inject_memOk (State.updCopy_memOk (kept (getRows_memOk h) e2 :))
        · exact ih h
        next e2 => exact (kept (getRows_memOk h) e2 :)
        next e2 => exact State.rxferFails_memOk (kept (getRows_memOk h) e2 :)
        next e2 => exact (kept (getRows_memOk h) e2 :)

theorem execRxferTransfer_memOk {cmd : Nat} {s : State} (h : s.memOk) : Outcome.memOk (execRxferTransfer cmd s) := by
  unfold execRxferTransfer
  dsimp only
  split
  · exact h
  · split
    · exact h
    · split
      · exact State.rxferFails_memOk h
      · split
        · exact sendPlan_memOk h
        · split
          · exact State.with_memOk (sendPlan_memOk h)
          · exact sendPlan_memOk h

theorem execRemoteAck_memOk {op : Nat} {ack : Ack} {s : State} (h : s.memOk) : Outcome.memOk (execRemoteAck op ack s) := by
  unfold execRemoteAck
  dsimp only
  split
  · exact h
  · split
    · split
      · exact State.updFabric_memOk h
      · exact State.updFabric_memOk (State.fresh_memOk (State.updFabric_memOk h))
    · exact State.countAck_memOk (State.updFabric_memOk h)

theorem execRemoteTxTimeout_memOk {op : Nat} {s : State} (h : s.memOk) : Outcome.memOk (execRemoteTxTimeout op s) := by
  unfold execRemoteTxTimeout
  dsimp only
  split
  · exact h
  · split
    · exact h
    · exact State.finishOp_memOk (State.updFabric_memOk h)

theorem State.roceAnswer_memOk {s : State} {op cause : Nat} (h : s.memOk) : (s.roceAnswer op cause).memOk := by
  unfold State.roceAnswer
  dsimp only
  split
  · exact h
  · split
    · exact h
    · split
      · split
        · exact State.countAck_memOk (State.updOp_memOk h)
        · exact State.sendRoce_memOk (State.updOp_memOk h)
      · exact State.countAck_memOk (State.updOp_memOk h)

theorem execReductionNackResend_memOk {refusal : Nat} {s : State} (h : s.memOk) : Outcome.memOk (execReductionNackResend refusal s) := by
  unfold execReductionNackResend
  split
  · exact h
  · split
    · split
      · exact h
      · exact State.updFabric_memOk h
    · exact h

theorem State.loadWindows_memOk {s : State} (h : s.memOk) : Outcome.memOk s.loadWindows := State.physDone_memOk (State.updFabric_memOk h)

theorem State.loadRules_memOk {s : State} (h : s.memOk) : Outcome.memOk s.loadRules := by
  unfold State.loadRules
  dsimp only
  split <;> exact State.updFabric_memOk (State.physDone_memOk h)

theorem execWindowTableLoad_memOk {s : State} (h : s.memOk) : Outcome.memOk (execWindowTableLoad s) := State.loadWindows_memOk h

theorem execRuleTableLoad_memOk {s : State} (h : s.memOk) : Outcome.memOk (execRuleTableLoad s) := State.loadRules_memOk h

theorem State.sendUp_memOk {s : State} {up : Upstream} {a : Ack} (h : s.memOk) : (s.sendUp up a).memOk := by
  unfold State.sendUp
  split
  · exact h
  · exact State.updFabric_memOk h

theorem State.combineAnswer_memOk {s : State} {entry branch : Nat} {a : Ack} (h : s.memOk) : (s.combineAnswer entry branch a).memOk := by
  unfold State.combineAnswer
  dsimp only
  split
  · exact h
  · split
    · exact h
    · split
      · split
        · exact State.sendUp_memOk (State.updFabric_memOk h)
        · exact State.updFabric_memOk (State.updFabric_memOk (State.fresh_memOk h))
      · split
        · exact State.sendUp_memOk (State.updFabric_memOk h)
        · exact State.updFabric_memOk h

theorem State.answer_memOk {s : State} {up : Upstream} {a : Ack} (h : s.memOk) : (s.answer up a).memOk := by
  unfold State.answer
  split
  · exact State.combineAnswer_memOk h
  · exact State.sendUp_memOk h

theorem execCombineAck_memOk {entry branch : Nat} {ack : Ack} {s : State} (h : s.memOk) :
    Outcome.memOk (execCombineAck entry branch ack s) := by
  unfold execCombineAck
  dsimp only
  split
  · exact State.combineAnswer_memOk h
  · exact h

theorem execCombineTimeout_memOk {entry : Nat} {s : State} (h : s.memOk) : Outcome.memOk (execCombineTimeout entry s) := by
  unfold execCombineTimeout
  dsimp only
  split
  · exact h
  · split
    · exact h
    · exact State.sendUp_memOk (State.updFabric_memOk h)

theorem State.sendAgain_memOk {s : State} {x : Refused} {entry branch : Nat} (h : s.memOk) : (s.sendAgain x entry branch).memOk := by
  unfold State.sendAgain
  split
  · split
    · exact h
    · exact State.combineAnswer_memOk h
  · exact State.updFabric_memOk h

theorem execCombineNackResend_memOk {refusal : Nat} {s : State} (h : s.memOk) : Outcome.memOk (execCombineNackResend refusal s) := by
  unfold execCombineNackResend
  dsimp only
  split
  · exact h
  · split
    · exact h
    · split
      · exact State.sendAgain_memOk (State.updFabric_memOk h)
      · exact State.updFabric_memOk (State.updFabric_memOk h)

theorem State.routeCopy_memOk {s : State} {x : Waiting} (h : s.memOk) : (s.routeCopy x).memOk := by
  unfold State.routeCopy
  dsimp only
  split
  · exact State.sendUp_memOk h
  · split
    · split
      · exact State.updFabric_memOk (State.fresh_memOk h)
      · exact State.sendUp_memOk h
    · refine foldl_keeps State.memOk _ (fun _ _ h2 => ?_) _ _ (State.updFabric_memOk h)
      split
      · exact State.updFabric_memOk (State.fresh_memOk h2)
      · exact State.updFabric_memOk h2

theorem execRouterExpand_memOk {arrival : Arrival} {s : State} (h : s.memOk) : Outcome.memOk (execRouterExpand arrival s) := by
  unfold execRouterExpand
  dsimp only
  split
  · split
    · exact h
    · exact State.routeCopy_memOk (State.updFabric_memOk h)
  · split
    · exact h
    · split
      · exact State.updFabric_memOk h
      · split
        · exact State.updFabric_memOk (State.updFabric_memOk h)
        · exact State.routeCopy_memOk (State.updFabric_memOk h)

theorem reach.go_memOk {e access : Nat} {s : State} {ps : List (Nat × List Byte)} {acc : List (Nat × Nat)} (h : s.memOk) :
    (reach.go e access s ps acc).memOk := by
  induction ps generalizing s acc with
  | nil =>
    unfold reach.go
    exact h
  | cons x ps ih =>
    unfold reach.go
    split
    next e1 =>
      split
      · exact (kept (engineXlate_memOk h) e1 :)
      · exact ih (kept (engineXlate_memOk h) e1 :)
    next e1 => exact (kept (engineXlate_memOk h) e1 :)
    next e1 => exact (kept (engineXlate_memOk h) e1 :)

theorem reach_memOk {s : State} {e off n access : Nat} (h : s.memOk) : (reach s e off n access).memOk := by
  unfold reach
  split
  · exact h
  · exact reach.go_memOk h

theorem reachAll_memOk {s : State} {e access : Nat} {l : List (Nat × Nat)} (h : s.memOk) : (reachAll s e access l).memOk := by
  induction l generalizing s with
  | nil =>
    unfold reachAll
    exact h
  | cons x l ih =>
    unfold reachAll
    split
    next e1 => exact (kept (reach_memOk h) e1 :)
    next e1 =>
      split
      all_goals next e2 => exact (kept (ih (kept (reach_memOk h) e1 :)) e2 :)

theorem State.writePieces_memOk {s : State} {bs : List Byte} {l : List (Nat × Nat)} (h : s.memOk) : (s.writePieces bs l).memOk := by
  induction l generalizing s bs with
  | nil => exact h
  | cons x l ih => exact ih (State.writeHome_memOk h ..)

theorem State.land_memOk {s : State} {land lbit pa : Nat} (h : s.memOk) : (s.land land lbit pa).memOk := by
  unfold State.land
  dsimp only
  split
  · exact State.writeHome_memOk h ..
  · exact State.writeHome_memOk h ..
  · exact h

theorem State.atomElems_memOk {s : State} {fn e : Nat} {l : List (Nat × Nat)} (h : s.memOk) : (s.atomElems fn e l).1.memOk := by
  induction l generalizing s with
  | nil =>
    unfold State.atomElems
    dsimp only
    exact h
  | cons x l ih =>
    unfold State.atomElems
    dsimp only
    exact ih (State.atomicAt_memOk h)

theorem State.roceArrival_memOk {s : State} {peer : Nat} {tx : Tx} (h : s.memOk) : (s.roceArrival peer tx).memOk := by
  unfold State.roceArrival
  dsimp only
  split
  · exact h
  · exact State.updFabric_memOk (State.fresh_memOk h)

theorem execTargetPerform_memOk {delivery : Nat} {s : State} (h : s.memOk) : Outcome.memOk (execTargetPerform delivery s) := by
  unfold execTargetPerform
  dsimp only
  split
  · exact h
  · split
    · exact h
    · split
      · exact State.answer_memOk (State.updFabric_memOk h)
      · split
        · refine State.answer_memOk ?_
          refine State.updFabric_memOk ?_
          split
          · exact State.updTs_memOk h
          · exact h
        · split
          next e3 =>
            refine State.answer_memOk ?_
            refine State.updFabric_memOk ?_
            split
            · exact State.updTs_memOk (kept (reachAll_memOk h) e3 :)
            · exact (kept (reachAll_memOk h) e3 :)
          next e3 =>
            split
            next e4 =>
              refine State.answer_memOk ?_
              refine State.updFabric_memOk ?_
              split
              · exact State.updTs_memOk (kept (reachAll_memOk (kept (reachAll_memOk h) e3 :)) e4 :)
              · exact (kept (reachAll_memOk (kept (reachAll_memOk h) e3 :)) e4 :)
            next e4 =>
              refine ite_ok h ?_
              refine State.answer_memOk ?_
              refine State.updFabric_memOk ?_
              refine foldl_keeps State.memOk _ (fun _ _ h5 => State.land_memOk h5) _ _ ?_
              split
              · exact State.writePieces_memOk (kept (reachAll_memOk (kept (reachAll_memOk h) e3 :)) e4 :)
              · exact State.writePieces_memOk (kept (reachAll_memOk (kept (reachAll_memOk h) e3 :)) e4 :)
              · exact (kept (reachAll_memOk (kept (reachAll_memOk h) e3 :)) e4 :)
              · exact foldl_keeps State.memOk _ (fun _ _ h6 => State.recheck_memOk h6 ..) _ _ (State.atomElems_memOk (kept (reachAll_memOk
                  (kept (reachAll_memOk h) e3 :)) e4 :))
              · exact (kept (reachAll_memOk (kept (reachAll_memOk h) e3 :)) e4 :)

theorem State.placeResults_memOk {s : State} {e : Nat} {l : List (Nat × Nat × Nat)} (h : s.memOk) : (s.placeResults e l).2.memOk := by
  induction l generalizing s with
  | nil =>
    unfold State.placeResults
    dsimp only
    exact h
  | cons x l ih =>
    unfold State.placeResults
    dsimp only
    split
    next e1 => exact ih (kept (engineXlate_memOk h) e1 :)
    · exact ih (Xlate.after_memOk (engineXlate_memOk h))

theorem State.flushSlot_memOk {s : State} {x : RedSlot} {short : Bool} (h : s.memOk) : optionOk State.memOk (s.flushSlot x short) := by
  unfold State.flushSlot
  dsimp only
  refine ite_ok trivial ?_
  refine State.updFabric_memOk ?_
  refine State.fresh_memOk ?_
  split
  · refine State.land_memOk ?_
    refine State.writeHome_memOk ?_ ..
    refine foldl_keeps State.memOk _ (fun _ _ h2 => State.writeHome_memOk h2 ..) _ _ ?_
    split
    · exact State.placeResults_memOk h
    · split
      all_goals next e3 => exact (kept (reachAll_memOk (State.placeResults_memOk h)) e3 :)
  · refine foldl_keeps State.memOk _ (fun _ _ h2 => State.writeHome_memOk h2 ..) _ _ ?_
    split
    · exact State.placeResults_memOk h
    · split
      all_goals next e3 => exact (kept (reachAll_memOk (State.placeResults_memOk h)) e3 :)

theorem State.tryFlush_memOk {s : State} {id : Nat} (h : s.memOk) : (s.tryFlush id).memOk := by
  unfold State.tryFlush
  split
  · exact h
  · split
    · exact h
    · exact optionOk_getD (State.flushSlot_memOk h) h

theorem State.redWalk_memOk {s : State} {e off : Nat} (h : s.memOk) : (s.redWalk e off).memOk := Xlate.after_memOk (engineXlate_memOk h)

theorem State.markLate_memOk {s : State} {e off : Nat} (h : s.memOk) : (s.markLate e off).memOk := by
  unfold State.markLate
  split
  next e1 => exact foldl_keeps State.memOk _ (fun _ _ h2 => State.writeHome_memOk h2 ..) _ _ (kept (reach_memOk h) e1 :)
  next e1 => exact (kept (reach_memOk h) e1 :)

/-- The addresses that a contribution names are looked up before it is counted. -/
theorem checkedRows_memOk {s t : State} {e : Nat} {rows : List (Nat × Nat)} {refused o : Option Nat} {c : Prop} [Decidable c] (h : s.memOk)
    (hx : (if c then (s, none) else match refused with
      | some k => (s, some k)
      | none => match reachAll s e 1 rows with
        | .bad k s => (s, some k)
        | .ok _ s => (s, none)) = (t, o)) : t.memOk := by
  refine kept_fst (ite_ok (P := fun x : State × Option Nat => x.1.memOk) h ?_) hx
  split
  · exact h
  · split
    all_goals next e => exact (kept (reachAll_memOk h) e :)

theorem execReductionContribution_memOk {delivery : Nat} {s : State} (h : s.memOk) :
    Outcome.memOk (execReductionContribution delivery s) := by
  unfold execReductionContribution
  dsimp only
  split
  · exact h
  · refine ite_ok h (ite_ok (State.answer_memOk (State.updFabric_memOk h)) ?_)
    split
    next e =>
      have hs := checkedRows_memOk h e
      exact State.answer_memOk (State.updFabric_memOk (ite_ok (State.updTs_memOk hs) hs))
    next e =>
      have hs := checkedRows_memOk h e
      split
      · exact State.tryFlush_memOk (State.answer_memOk (State.updFabric_memOk (State.updFabric_memOk hs)))
      · split
        · refine State.answer_memOk (State.updFabric_memOk (State.updFabric_memOk ?_))
          split
          · exact State.markLate_memOk hs
          · exact hs
        · refine ite_ok (State.answer_memOk ?_) (State.tryFlush_memOk (State.answer_memOk ?_))
          all_goals exact State.updFabric_memOk (State.updFabric_memOk (State.redWalk_memOk hs))

theorem execReductionSlotTimeout_memOk {slot : Nat} {s : State} (h : s.memOk) : Outcome.memOk (execReductionSlotTimeout slot s) := by
  unfold execReductionSlotTimeout
  dsimp only
  split
  · exact h
  · split
    · exact h
    · exact optionOk_getD (State.flushSlot_memOk h) h

theorem triggerWord_memOk {access va : Nat} {body : Nat → Body} (hbody : ∀ (a : Nat), (body a).memOk) :
    (triggerWord access va body).memOk := by
  intro s u w h
  unfold triggerWord
  split
  next e1 => exact (kept (checkGlobal_memOk h) e1 :)
  next e1 => exact (kept (checkGlobal_memOk h) e1 :)
  · split
    · exact h
    · exact hbody _ _ _ _ h

theorem triggerCpl_memOk {va : Nat} {body : Body} (hbody : body.memOk) : (triggerCpl va body).memOk := by
  intro s u w h
  unfold triggerCpl
  split
  · exact hbody _ _ _ h
  · exact triggerWord_memOk (fun _ => hbody) _ _ _ h

theorem State.armTrigger_memOk {s : State} {u : Nat} {w : Wave} {dest mask n sbPa : Nat} {cmd : List Byte} (h : s.memOk) :
    (s.armTrigger u w dest mask n sbPa cmd).memOk := by
  unfold State.armTrigger
  dsimp only
  split
  · exact State.setWave_memOk h
  · exact State.recheckTrigger_memOk (State.setWave_memOk (State.setDie_memOk h)) ..

theorem execTrgarm_memOk {f : EF} {s : State} (h : s.memOk) : Outcome.memOk (execTrgarm f s) := by
  unfold execTrgarm
  dsimp only
  refine runInstr_memOk ?_ h
  refine forbiddenInGroup_memOk (fun _ _ _ h1 => ?_)
  split
  · exact h1
  · refine readRecord_memOk (fun _ _ _ _ h3 => ?_) _ _ _ h1
    split
    · exact h3
    · refine triggerWord_memOk (fun _ => ?_) _ _ _ h3
      refine triggerCpl_memOk ?_
      refine readRecordAt_memOk (fun _ _ _ _ h6 => ?_)
      split
      · exact h6
      · exact State.armTrigger_memOk h6

theorem execTrgcan_memOk {f : EF} {s : State} (h : s.memOk) : Outcome.memOk (execTrgcan f s) := by
  unfold execTrgcan
  dsimp only
  refine runInstr_memOk ?_ h
  refine forbiddenInGroup_memOk (fun _ _ _ h1 => ?_)
  split
  · exact State.setWave_memOk h1
  · exact State.updDie_memOk (State.signalTrigger_memOk (State.setWave_memOk h1))

theorem State.startTrigger_memOk {s : State} {die : Nat} {t : Trigger} (h : s.memOk) : (s.startTrigger die t).memOk := by
  unfold State.startTrigger
  dsimp only
  split
  · exact State.with_memOk (State.updDie_memOk (State.fresh_memOk h))
  · split
    · exact State.startRxfer_memOk (State.updDie_memOk h)
    · exact State.startOp_memOk (State.updDie_memOk h)

theorem execTriggerFire_memOk {die entry uncertainty : Nat} {s : State} (h : s.memOk) :
    Outcome.memOk (execTriggerFire die entry uncertainty s) := by
  unfold execTriggerFire
  dsimp only
  split
  · exact h
  · split
    · exact State.recheckTrigger_memOk h ..
    · split
      · exact State.recheckTrigger_memOk h ..
      · exact State.startTrigger_memOk (State.updDie_memOk (State.recheckTrigger_memOk h ..))

theorem execTriggerComplete_memOk {die entry : Nat} {s : State} (h : s.memOk) : Outcome.memOk (execTriggerComplete die entry s) := by
  unfold execTriggerComplete
  dsimp only
  split
  · exact h
  · split
    · exact h
    · exact State.updDie_memOk (State.signalTrigger_memOk h)

end Sys2Proof.Machine
end

section
/-! SUPPORT. Canonical memory: translation services, system instructions, steps of the cores, copy channels and snapshots. -/

set_option Elab.async false

namespace Sys2Proof.Machine

theorem State.answerWalk_memOk {s : State} {die : Nat} {r : WalkResult} {q : Nat × Nat × DWord} (h : s.memOk) :
    (s.answerWalk die r q).memOk := by
  unfold State.answerWalk
  dsimp only
  split
  · exact h
  · refine State.setWave_memOk ?_
    split
    · exact State.updCore_memOk h
    · exact h
    · exact h

theorem State.walkResult_memOk {s : State} {die : Nat} {x : Walk} {va : Nat} (h : s.memOk) : (s.walkResult die x va).2.memOk := by
  unfold State.walkResult
  dsimp only
  split
  · exact h
  · split
    · exact State.updTs_memOk (touchLeaf_memOk (State.notePointers_memOk h))
    · exact h

theorem execTranslationWalkComplete_memOk {die walk : Nat} {s : State} (h : s.memOk) :
    Outcome.memOk (execTranslationWalkComplete die walk s) := by
  unfold execTranslationWalkComplete
  dsimp only
  split
  · exact h
  · exact foldl_keeps State.memOk _ (fun _ _ h2 => State.answerWalk_memOk h2) _ _ (State.updTs_memOk (State.walkResult_memOk h))

theorem execTlbRequestReissue_memOk {die request : Nat} {s : State} (h : s.memOk) :
    Outcome.memOk (execTlbRequestReissue die request s) := by
  unfold execTlbRequestReissue
  dsimp only
  split
  · exact h
  · split
    · exact h
    · refine foldl_keeps State.memOk _ (fun _ _ h2 => ?_) _ _ (State.updTs_memOk h)
      split
      · exact requestWalk_memOk h2
      · exact h2

theorem execFaultRecordDeferred_memOk {die : Nat} {s : State} (h : s.memOk) : Outcome.memOk (execFaultRecordDeferred die s) := by
  unfold execFaultRecordDeferred
  dsimp only
  split
  · exact h
  · split
    · exact State.updTs_memOk h
    · split
      · exact parkAgent_memOk (State.updTs_memOk (State.updTs_memOk h))
      · split
        · exact writeFaultRecord_memOk (State.updTs_memOk h)
        · exact h

theorem State.popToken_memOk {s : State} {die token : Nat} (h : s.memOk) : optionOk (fun x => x.2.memOk) (s.popToken die token) :=
  optionOk_map (optionOk_any _) (fun _ _ => State.updTs_memOk h)

theorem State.badResponse_memOk {s : State} {die : Nat} (h : s.memOk) : (s.badResponse die).memOk := State.updTs_memOk h

theorem State.updChain_memOk {s : State} {die ch : Nat} {drain : Bool} {f : Chain → Chain} (h : s.memOk) :
    (s.updChain die ch drain f).memOk :=
  State.updDie_memOk h

theorem State.retryAgent_memOk {s : State} {die token : Nat} {a : Agent} (h : s.memOk) : (s.retryAgent die token a).memOk := by
  unfold State.retryAgent
  dsimp only
  split
  · exact State.updWave_memOk h
  · exact State.updCopy_memOk h
  · exact State.updChain_memOk h
  · exact h

theorem State.failStaging_memOk {s : State} {c : Nat} {f : TrFault} (h : s.memOk) : (s.failStaging c f).memOk := by
  unfold State.failStaging
  dsimp only
  split
  · exact h
  · split
    · exact h
    · exact State.updCohort_memOk h

theorem State.trapAgent_memOk {s : State} {die token : Nat} {f : TrFault} {a : Agent} (h : s.memOk) :
    (s.trapAgent die token f a).memOk := by
  unfold State.trapAgent
  dsimp only
  split
  · split
    · split
      · split
        · exact State.takeTrap_memOk h
        · exact h
      · exact h
    · exact h
  · split
    · exact h
    · split
      · exact h
      · split
        · exact State.rxferFails_memOk h
        · exact State.finishCopy_memOk h
  · exact State.updChain_memOk h
  · exact State.failStaging_memOk h

theorem execFaultRetry_memOk {die token : Nat} {s : State} (h : s.memOk) : Outcome.memOk (execFaultRetry die token s) := by
  unfold execFaultRetry
  split
  · exact State.badResponse_memOk h
  next e1 => exact foldl_keeps State.memOk _ (fun _ _ h2 => State.retryAgent_memOk h2) _ _ (kept (State.popToken_memOk h) e1 :)

theorem execFaultTrap_memOk {die token : Nat} {s : State} (h : s.memOk) : Outcome.memOk (execFaultTrap die token s) := by
  unfold execFaultTrap
  split
  · exact State.badResponse_memOk h
  next e1 => exact foldl_keeps State.memOk _ (fun _ _ h2 => State.trapAgent_memOk h2) _ _ (kept (State.popToken_memOk h) e1 :)

theorem execFaultKill_memOk {die token : Nat} {s : State} (h : s.memOk) : Outcome.memOk (execFaultKill die token s) := by
  unfold execFaultKill
  dsimp only
  split
  · exact State.badResponse_memOk h
  next e1 => exact foldl_keeps State.memOk _ (fun _ _ h2 => State.killDispatch_memOk h2) _ _ (foldl_keeps State.memOk _ (fun _ _ h2 =>
      State.trapAgent_memOk h2) _ _ (kept (State.popToken_memOk h) e1 :))

theorem State.rearm_memOk {s : State} {die : Nat} {t : Trigger} (h : s.memOk) : (s.rearm die t).memOk := by
  unfold State.rearm
  dsimp only
  split
  next e1 => exact State.recheckTrigger_memOk (State.updDie_memOk (kept (engineXlate_memOk h) e1 :)) ..
  · exact State.updDie_memOk (State.signalTrigger_memOk (Xlate.after_memOk (engineXlate_memOk h)))

theorem State.beginInval_memOk {s : State} {die : Nat} {i : Inval} (h : s.memOk) : (s.beginInval die i).memOk :=
  foldl_keeps State.memOk _ (fun _ _ h1 => State.rearm_memOk h1) _ _ (State.with_memOk (State.invalidateRegionsOn_memOk (foldl_keeps
      State.memOk _ (fun _ _ h1 => State.updCore_memOk h1) _ _ (State.updTs_memOk h))))

theorem State.addInval_memOk {s : State} {dies : List Nat} {i : Inval} (h : s.memOk) : (s.addInval dies i).memOk := by
  unfold State.addInval
  dsimp only
  refine foldl_keeps State.memOk _ (fun _ _ h1 => ?_) _ _ h
  split
  · exact State.beginInval_memOk (State.updTs_memOk h1)
  · exact State.updTs_memOk h1

theorem State.writeInval_memOk {s : State} {die : Nat} {pkg : Bool} {i : Inval} (h : s.memOk) : Outcome.memOk (s.writeInval die pkg i) := by
  unfold State.writeInval
  dsimp only
  split
  · exact h
  · exact State.addInval_memOk (State.fresh_memOk h)

theorem State.nextInval_memOk {s : State} {die : Nat} (h : s.memOk) : (s.nextInval die).memOk := by
  unfold State.nextInval
  dsimp only
  split
  · exact State.updTs_memOk h
  · exact State.beginInval_memOk (State.updTs_memOk h)

theorem execInvalidationComplete_memOk {die : Nat} {s : State} (h : s.memOk) : Outcome.memOk (execInvalidationComplete die s) := by
  unfold execInvalidationComplete
  dsimp only
  split
  · exact h
  · exact ite_ok h (State.with_memOk (foldl_keeps State.memOk _ (fun _ _ h2 => State.nextInval_memOk h2) _ _ h))

theorem setGrid_memOk {ok : State → Bool} {illegal : State → Act} {put : State → State} (hillegal : ∀ (a : State), a.memOk → (illegal
    a).memOk) (hput : ∀ (a : State), a.memOk → (put a).memOk) :
    (setGrid ok illegal put).memOk := by
  intro s u w h
  unfold setGrid
  dsimp only
  split
  · exact hillegal _ h
  · exact ite_ok (State.setWave_memOk h) (State.cancelTriggers_memOk (hput _ (State.setWave_memOk h)))

theorem execSets_memOk {f : EF} {s : State} (h : s.memOk) : Outcome.memOk (execSets f s) := by
  unfold execSets
  refine runInstr_memOk (fun s u w h => ?_) h
  dsimp only
  split
  case h_1 | h_2 =>
    refine setGrid_memOk ?_ ?_ _ _ _ h
    · exact fun _ hs => hs
    · exact fun _ hs => State.updFabric_memOk hs
  case h_3 | h_5 | h_8 => exact ite_ok h (State.setWave_memOk h)
  all_goals exact State.setWave_memOk h

theorem execEret_memOk {f : EF} {s : State} (h : s.memOk) : Outcome.memOk (execEret f s) := by
  unfold execEret
  refine runInstr_memOk (fun _ _ _ h1 => ?_) h
  split
  · exact State.setWave_memOk h1
  · split
    next e3 => exact (kept (transfer_memOk _ _ _ h1) e3 :)
    · exact transfer_memOk _ _ _ h1

theorem State.writeService_memOk {s : State} {die u code arg : Nat} (h : s.memOk) : (s.writeService die u code arg).memOk := by
  unfold State.writeService
  dsimp only
  split
  · exact h
  · exact State.updWave_memOk (State.updDie_memOk (State.writeHome_memOk h ..))

theorem execSyscall_memOk {f : EF} {s : State} (h : s.memOk) : Outcome.memOk (execSyscall f s) := by
  unfold execSyscall
  dsimp only
  refine runInstr_memOk (fun _ _ _ h1 => ?_) h
  split
  · exact State.setWave_memOk h1
  · split
    · exact h1
    · split
      next e3 =>
        split
        · split <;> exact State.writeService_memOk (kept (transfer_memOk _ _ _ h1) e3 :)
        · exact State.setWave_memOk (State.updDie_memOk (kept (transfer_memOk _ _ _ h1) e3 :))
      · exact transfer_memOk _ _ _ h1

theorem execServiceRecordDeferred_memOk {die : Nat} {s : State} (h : s.memOk) : Outcome.memOk (execServiceRecordDeferred die s) := by
  unfold execServiceRecordDeferred
  dsimp only
  split
  · exact h
  · split
    · exact State.updDie_memOk h
    · split
      · exact State.updDie_memOk h
      · split
        · exact h
        · exact State.writeService_memOk (State.updDie_memOk h)

theorem execServiceResponse_memOk {die token : Nat} {s : State} (h : s.memOk) : Outcome.memOk (execServiceResponse die token s) := by
  unfold execServiceResponse
  dsimp only
  split
  · exact h
  · exact State.updAnyWave_memOk (State.updDie_memOk h)

theorem execTlbinv_memOk {f : EF} {s : State} (h : s.memOk) : Outcome.memOk (execTlbinv f s) := by
  unfold execTlbinv
  dsimp only
  refine runInstr_memOk (fun _ _ _ h1 => ?_) h
  split
  · split <;> exact h1
  · exact State.addInval_memOk (State.setWave_memOk (State.fresh_memOk h1))

theorem execWaveReady_memOk {wave : Nat} {s : State} (h : s.memOk) : Outcome.memOk (execWaveReady wave s) := by
  unfold execWaveReady
  dsimp only
  split
  · exact State.recheckWave_memOk h ..
  · split
    · exact State.setWave_memOk (State.recheckWave_memOk h ..)
    · exact State.recheckWave_memOk h ..

theorem execNapExpiry_memOk {wave : Nat} {s : State} (h : s.memOk) : Outcome.memOk (execNapExpiry wave s) := by
  unfold execNapExpiry
  split
  · exact h
  · split
    · split
      · exact State.setWave_memOk h
      · exact h
    · exact h

theorem State.readLane_memOk {s : State} {u seq : Nat} {a : LaneAcc} (h : s.memOk) : (s.readLane u seq a).memOk := by
  unfold State.readLane
  dsimp only
  split
  · exact h
  · split
    · exact h
    · split
      · exact h
      · split
        · exact State.setWave_memOk h
        · refine ite_ok h ?_
          split
          · exact State.setWave_memOk h
          · split
            · exact State.setWave_memOk h
            · refine State.setWave_memOk ?_
              split
              · exact State.fillL1_memOk h
              · exact h

theorem State.readScratch_memOk {s : State} {u seq : Nat} (h : s.memOk) : (s.readScratch u seq).memOk := by
  unfold State.readScratch
  dsimp only
  split
  · exact h
  · split
    · split
      · exact h
      · split
        · exact State.setWave_memOk h
        · split
          · exact State.setWave_memOk h
          · split
            · exact h
            · split
              · exact State.setWave_memOk h
              · exact State.setWave_memOk (State.setCohort_memOk h)
    · exact h

theorem State.freeKeeper_memOk {s : State} {u : Nat} (h : s.memOk) : (s.freeKeeper u).memOk := by
  unfold State.freeKeeper
  dsimp only
  split
  · exact h
  · split
    · exact h
    · split
      · exact h
      · exact State.setWave_memOk (State.updDie_memOk h)

theorem State.floadAcquire_memOk {s : State} {u seq : Nat} (h : s.memOk) : (s.floadAcquire u seq).memOk := by
  unfold State.floadAcquire
  split
  · exact h
  · split
    · exact State.acquire_memOk (State.setWave_memOk h)
    · exact State.acquire_memOk h

theorem State.landLate_memOk {s : State} {wave seq : Nat} {lanes : List Nat} (h : s.memOk) : (s.landLate wave seq lanes).memOk := by
  unfold State.landLate
  dsimp only
  split
  · exact h
  · split
    · refine State.afterLanding_memOk ?_
      split
      · exact foldl_keeps State.memOk _ (fun _ _ h4 => State.readLane_memOk h4) _ _ h
      · exact State.readScratch_memOk h
      · exact h
    · refine ite_ok ?_ ?_
      · split
        · exact foldl_keeps State.memOk _ (fun _ _ h4 => State.readLane_memOk h4) _ _ h
        · exact State.readScratch_memOk h
        · exact h
      · refine State.afterLanding_memOk ?_
        refine State.freeKeeper_memOk ?_
        split
        · refine State.floadAcquire_memOk ?_
          refine State.setWave_memOk ?_
          split
          · exact foldl_keeps State.memOk _ (fun _ _ h4 => State.readLane_memOk h4) _ _ h
          · exact State.readScratch_memOk h
          · exact h
        · refine State.setWave_memOk ?_
          split
          · exact foldl_keeps State.memOk _ (fun _ _ h4 => State.readLane_memOk h4) _ _ h
          · exact State.readScratch_memOk h
          · exact h

theorem execStoreBufferDrain_memOk {core entry : Nat} {s : State} (h : s.memOk) : Outcome.memOk (execStoreBufferDrain core entry s) := by
  unfold execStoreBufferDrain
  split
  · exact h
  · exact State.drainEntry_memOk h

theorem State.pressLoads_memOk {s : State} {u upTo : Nat} (h : s.memOk) : (s.pressLoads u upTo).memOk := by
  unfold State.pressLoads
  split
  · exact h
  · exact foldl_keeps State.memOk _ (fun _ _ h2 => State.landLate_memOk h2) _ _ h

theorem State.pressEntry_memOk {core n : Nat} {s : State} {e : SbEntry} (h : s.memOk) : (State.pressEntry core n s e).memOk := by
  induction n generalizing s e with
  | zero => exact State.drainEntry_memOk h
  | succ n ih =>
    unfold State.pressEntry
    dsimp only
    split
    · exact State.drainEntry_memOk h
    · refine ite_ok (State.drainEntry_memOk ?_) ?_
      all_goals exact State.pressLoads_memOk (foldl_keeps State.memOk _ (fun _ _ hs => ih hs) _ _ h)

theorem State.drainOverdue_memOk {s : State} (h : s.memOk) : s.drainOverdue.memOk := by
  unfold State.drainOverdue
  dsimp only
  split
  · exact h
  · refine foldl_keeps State.memOk _ (fun _ _ h1 => ?_) _ _ h
    refine foldl_keeps State.memOk _ (fun _ _ h3 => ?_) _ _ h1
    split
    · exact State.pressEntry_memOk h3
    · exact h3

theorem State.advance_memOk {s : State} {clocks ns : Nat} (h : s.memOk) : (s.advance clocks ns).memOk := by
  unfold State.advance
  dsimp only
  refine State.drainOverdue_memOk ?_
  refine State.with_memOk ?_
  refine State.markLines_memOk ?_
  split <;> exact h

theorem State.closeLink_memOk {s : State} {pa status : Nat} (h : s.memOk) : (s.closeLink pa status).memOk := State.writeHome_memOk h ..

theorem moverPa_memOk {s : State} {m : Mover} {virt : Bool} {a n access : Nat} (h : s.memOk) : (moverPa s m virt a n access).memOk := by
  unfold moverPa
  split
  · split
    next e1 => exact (kept (engineXlate_memOk h) e1 :)
    next e1 =>
      split
      · exact MoverPa.other_memOk (kept (engineXlate_memOk h) e1 :)
      · exact MoverPa.other_memOk (queueFault_memOk (kept (engineXlate_memOk h) e1 :))
    next e1 => exact MoverPa.other_memOk (kept (engineXlate_memOk h) e1 :)
  · repeat' split
    all_goals exact h

theorem moverPut_memOk {s : State} {m : Mover} {l : Link} {off : Nat} {bs : List Byte} (h : s.memOk) : (moverPut s m l off bs).memOk := by
  unfold moverPut
  split
  · split
    · exact h
    · exact State.sendRoce_memOk h
  · split
    next e1 => exact (kept (moverPa_memOk h) e1 :)
    next e1 =>
      split
      · exact trivial
      · exact State.writeHome_memOk (kept (moverPa_memOk h) e1 :) ..

theorem movePiece_memOk {s : State} {m : Mover} {l : Link} {off : Nat} (h : s.memOk) : (movePiece s m l off).memOk := by
  unfold movePiece
  dsimp only
  split
  next e1 => exact (kept (moverPa_memOk h) e1 :)
  next e1 =>
    split
    · exact (kept (moverPa_memOk h) e1 :)
    · split
      · exact trivial
      · exact moverPut_memOk (kept (moverPa_memOk h) e1 :)

theorem movePieces_memOk {m : Mover} {l : Link} {n : Nat} {s : State} {k : Nat} (h : s.memOk) : (movePieces m l n s k).memOk := by
  induction n generalizing s k with
  | zero =>
    unfold movePieces
    split <;> exact h
  | succ n ih =>
    unfold movePieces
    split
    · exact h
    · split
      next e1 => exact ih (kept (movePiece_memOk h) e1 :)
      · exact h
      next e1 => exact (kept (movePiece_memOk h) e1 :)
      next e1 => exact (kept (movePiece_memOk h) e1 :)

theorem State.updChannel_memOk {s : State} {die ch : Nat} {f : Channel → Channel} (h : s.memOk) : (s.updChannel die ch f).memOk :=
  State.updDie_memOk h

theorem State.raiseMsix_memOk {s : State} {die ch : Nat} (h : s.memOk) : (s.raiseMsix die ch).memOk := h

theorem State.endRecord_memOk {s : State} {die ch : Nat} {k : Chain} {l : Link} {status : Nat} (h : s.memOk) :
    (s.endRecord die ch k l status).memOk := by
  unfold State.endRecord
  dsimp only
  refine State.updChannel_memOk ?_
  split
  · exact State.raiseMsix_memOk (State.closeLink_memOk h)
  · exact State.closeLink_memOk h

theorem State.hostRecord_memOk {s : State} {die ch : Nat} {k : Chain} (h : s.memOk) : (s.hostRecord die ch k).memOk := by
  unfold State.hostRecord
  dsimp only
  split
  · exact State.updChannel_memOk h
  · split
    · exact State.updChannel_memOk h
    · split
      · exact State.updChannel_memOk (State.updChannel_memOk h)
      · split
        · exact State.endRecord_memOk (State.updChannel_memOk h)
        · split
          · exact State.endRecord_memOk (State.updChannel_memOk h)
          · split
            next e2 =>
              split
              · exact State.updChannel_memOk (kept (movePieces_memOk (State.updChannel_memOk h)) e2 :)
              · exact State.endRecord_memOk (kept (movePieces_memOk (State.updChannel_memOk h)) e2 :)
            next e2 => exact State.endRecord_memOk (kept (movePieces_memOk (State.updChannel_memOk h)) e2 :)
            next e2 => exact State.updChannel_memOk (kept (movePieces_memOk (State.updChannel_memOk h)) e2 :)

theorem State.hostAnswered_memOk {s : State} {die ch cause : Nat} (h : s.memOk) : (s.hostAnswered die ch cause).memOk := by
  unfold State.hostAnswered
  split
  · exact h
  · split
    · exact h
    · split
      · exact State.endRecord_memOk h
      · exact h

theorem State.writeHead_memOk {s : State} {die ch : Nat} {value : DWord} (h : s.memOk) : (s.writeHead die ch value).memOk := by
  unfold State.writeHead
  dsimp only
  split
  · exact h
  · exact State.updChannel_memOk h

theorem execChannelHeadWrite_memOk {die channel : Nat} {value : DWord} {s : State} (h : s.memOk) :
    Outcome.memOk (execChannelHeadWrite die channel value s) := by
  unfold execChannelHeadWrite
  split
  · exact State.writeHead_memOk h
  · exact h

theorem State.armWalk_memOk {s : State} {r : Nat × Nat × Nat} (h : s.memOk) : (s.armWalk r).memOk := by
  unfold State.armWalk
  refine foldl_keeps State.memOk _ (fun _ _ h1 => ?_) _ _ h
  split
  · exact touchLeaf_memOk h1
  · exact h1

theorem execSnapshotArm_memOk {s : State} (h : s.memOk) : Outcome.memOk (execSnapshotArm s) := by
  unfold execSnapshotArm
  dsimp only
  split
  · exact h
  · exact State.with_memOk (State.physDone_memOk (foldl_keeps State.memOk _ (fun _ _ h1 => State.armWalk_memOk h1) _ _ h))

theorem State.markPage_memOk {s : State} {asid page : Nat} (h : s.memOk) : (s.markPage asid page).memOk := by
  unfold State.markPage
  dsimp only
  split
  · exact h
  · split
    · exact h
    · exact State.with_memOk (ite_ok h (State.poke_memOk h ..))

theorem State.forgetMarked_memOk {s : State} (h : s.memOk) : s.forgetMarked.memOk := h

theorem execSnapshotFreeze_memOk {s : State} (h : s.memOk) : Outcome.memOk (execSnapshotFreeze s) := by
  unfold execSnapshotFreeze
  dsimp only
  split
  · exact h
  · split
    · exact State.physDone_memOk h
    · exact State.recheck_memOk (State.with_memOk (State.forgetMarked_memOk (foldl_keeps State.memOk _ (fun _ _ h1 => foldl_keeps
        State.memOk _ (fun _ _ h3 => State.markPage_memOk h3) _ _ h1) _ _ (State.with_memOk (State.physDone_memOk h))))) ..

theorem State.setDrains_memOk {s : State} {k : Option Chain} (h : s.memOk) : (s.setDrains k).memOk :=
  foldl_keeps State.memOk _ (fun _ _ h1 => State.updChannel_memOk h1) _ _ h

theorem execSnapshotMarkComplete_memOk {s : State} (h : s.memOk) : Outcome.memOk (execSnapshotMarkComplete s) := by
  unfold execSnapshotMarkComplete
  dsimp only
  split
  · exact h
  · split
    · exact h
    · exact State.setDrains_memOk h

theorem State.stopDrain_memOk {s : State} (h : s.memOk) : s.stopDrain.memOk := State.setDrains_memOk h

theorem execSnapshotCancel_memOk {s : State} (h : s.memOk) : Outcome.memOk (execSnapshotCancel s) := by
  unfold execSnapshotCancel
  dsimp only
  split
  · exact h
  · exact State.recheck_memOk (State.with_memOk (State.stopDrain_memOk (foldl_keeps State.memOk _ (fun _ _ h1 => State.unmark_memOk h1 ..)
      _ _ h))) ..

theorem State.pageSent_memOk {s : State} {page : Nat} (h : s.memOk) : (s.pageSent page).memOk :=
  State.recheck_memOk (State.with_memOk (State.unmark_memOk h ..)) ..

theorem State.partSent_memOk {s : State} {page : Nat} (h : s.memOk) : (s.partSent page).memOk := h

theorem sendPiece_memOk {s : State} {m : Mover} {l : Link} {cur off : Nat} (h : s.memOk) : (sendPiece s m l cur off).memOk := by
  unfold sendPiece
  dsimp only
  split
  next e1 => exact (kept (moverPa_memOk h) e1 :)
  next e1 =>
    split
    · exact (kept (moverPa_memOk h) e1 :)
    · split
      · exact (kept (moverPa_memOk h) e1 :)
      · split
        next e2 =>
          split
          · exact State.pageSent_memOk (kept (moverPut_memOk (kept (moverPa_memOk h) e1 :)) e2 :)
          · exact State.partSent_memOk (kept (moverPut_memOk (kept (moverPa_memOk h) e1 :)) e2 :)
        · exact moverPut_memOk (kept (moverPa_memOk h) e1 :)

theorem sendPieces_memOk {m : Mover} {l : Link} {cur n : Nat} {s : State} {k : Nat} (h : s.memOk) : (sendPieces m l cur n s k).memOk := by
  induction n generalizing s k with
  | zero =>
    unfold sendPieces
    split <;> exact h
  | succ n ih =>
    unfold sendPieces
    split
    · exact h
    · split
      next e1 => exact ih (kept (sendPiece_memOk h) e1 :)
      · exact h
      next e1 => exact (kept (sendPiece_memOk h) e1 :)
      next e1 => exact (kept (sendPiece_memOk h) e1 :)

theorem State.failDrain_memOk {s : State} {cur status : Nat} (h : s.memOk) : (s.failDrain cur status).memOk :=
  State.with_memOk (State.stopDrain_memOk (State.closeLink_memOk h))

theorem State.drainJoin_memOk {s : State} {cur : Nat} {l : Link} (h : s.memOk) : (s.drainJoin cur l).memOk := by
  unfold State.drainJoin
  dsimp only
  split
  · exact h
  · split
    · exact State.setDrains_memOk (State.closeLink_memOk h)
    · split
      · exact State.with_memOk (State.stopDrain_memOk (State.closeLink_memOk h))
      · exact State.stopDrain_memOk (State.closeLink_memOk h)

theorem State.noteTurn_memOk {s : State} {die : Nat} {drain : Bool} (h : s.memOk) : (s.noteTurn die drain).memOk := State.updDie_memOk h

theorem State.drainRecord_memOk {s : State} {die ch : Nat} (h : s.memOk) : (s.drainRecord die ch).memOk := by
  unfold State.drainRecord
  dsimp only
  split
  · exact h
  · split
    · exact h
    · split
      · exact State.with_memOk (State.stopDrain_memOk h)
      · split
        · exact State.stopDrain_memOk (State.updChannel_memOk (State.noteTurn_memOk h))
        · split
          · exact State.failDrain_memOk (State.updChannel_memOk (State.noteTurn_memOk h))
          · split
            · exact State.failDrain_memOk (State.updChannel_memOk (State.noteTurn_memOk h))
            · split
              · exact State.updChannel_memOk (State.noteTurn_memOk h)
              · split
                next e3 => exact State.failDrain_memOk (kept (sendPieces_memOk (State.updChannel_memOk (State.noteTurn_memOk h))) e3 :)
                next e3 => exact State.updChannel_memOk (kept (sendPieces_memOk (State.updChannel_memOk (State.noteTurn_memOk h))) e3 :)
                next e3 => exact State.drainJoin_memOk (State.updChannel_memOk (kept (sendPieces_memOk (State.updChannel_memOk
                    (State.noteTurn_memOk h))) e3 :))

theorem State.drainAnswered_memOk {s : State} {die ch cause : Nat} (h : s.memOk) : (s.drainAnswered die ch cause).memOk := by
  unfold State.drainAnswered
  split
  · exact h
  · split
    · exact h
    · split
      · exact h
      · split
        · exact State.failDrain_memOk h
        · exact State.drainJoin_memOk (State.updChannel_memOk h)

theorem execRoceAck_memOk {source : RoceSource} {cause : Nat} {s : State} (h : s.memOk) : Outcome.memOk (execRoceAck source cause s) := by
  unfold execRoceAck
  split
  · exact State.roceAnswer_memOk h
  · split
    · exact State.drainAnswered_memOk h
    · exact State.hostAnswered_memOk h

theorem execSnapshotDrainRecord_memOk {die : Nat} {s : State} (h : s.memOk) : Outcome.memOk (execSnapshotDrainRecord die s) :=
  foldl_keeps State.memOk _ (fun _ _ h1 => State.drainRecord_memOk h1) _ _ h

theorem execChannelRecord_memOk {die channel : Nat} {drain : Bool} {s : State} (h : s.memOk) :
    Outcome.memOk (execChannelRecord die channel drain s) := by
  unfold execChannelRecord
  split
  · exact State.drainRecord_memOk h
  · split
    · exact h
    · split
      · exact h
      · exact State.hostRecord_memOk h

theorem sendPage_memOk {m : Mover} {l : Link} {page n : Nat} {s : State} {k : Nat} (h : s.memOk) : (sendPage m l page n s k).memOk := by
  induction n generalizing s k with
  | zero =>
    unfold sendPage
    exact h
  | succ n ih =>
    unfold sendPage
    dsimp only
    split
    · exact h
    · split
      next e1 =>
        split
        · exact State.pageSent_memOk (kept (moverPut_memOk h) e1 :)
        · exact ih (kept (moverPut_memOk h) e1 :)
      · exact h
      next e1 => exact (kept (moverPut_memOk h) e1 :)
      next e1 => exact (kept (moverPut_memOk h) e1 :)

theorem execCowPageCopy_memOk {page : Nat} {s : State} (h : s.memOk) : Outcome.memOk (execCowPageCopy page s) := by
  unfold execCowPageCopy
  dsimp only
  split
  · exact h
  · split
    next e1 => exact State.recheck_memOk (kept (State.copyMarked_ok h) e1 :) ..
    · split
      · exact h
      · split
        · exact h
        next e3 => exact State.failDrain_memOk (kept (sendPage_memOk h) e3 :)
        next e3 =>
          refine State.with_memOk ?_
          split
          · exact State.updChannel_memOk (kept (sendPage_memOk h) e3 :)
          · exact (kept (sendPage_memOk h) e3 :)

end Sys2Proof.Machine
end

section
/-! SUPPORT. Canonical memory: scheduling, pre-emption, the trust core and boot. -/

set_option Elab.async false

namespace Sys2Proof.Machine

theorem State.ringBell_memOk {s : State} {q : Nat} (h : s.memOk) : (s.ringBell q).memOk := by
  unfold State.ringBell
  split
  · exact State.updQueue_memOk h
  · exact h

theorem execTaskDoorbell_memOk {queue : Nat} {s : State} (h : s.memOk) : Outcome.memOk (execTaskDoorbell queue s) := by
  unfold execTaskDoorbell
  split
  · exact State.ringBell_memOk h
  · exact h

theorem State.readTable_memOk {s : State} {t : Task} {va n size : Nat} (h : s.memOk) : (s.readTable t va n size).2.memOk := by
  unfold State.readTable
  split
  next e1 => exact (kept (engineRead_memOk h) e1 :)
  · exact EngineRead.after_memOk (engineRead_memOk h)

theorem State.checkTask_memOk {s : State} {t : Task} (h : s.memOk) : (s.checkTask t).2.memOk := by
  unfold State.checkTask
  dsimp only
  split
  · exact h
  · split
    all_goals
      split
      · exact h
      · split
        next e4 => exact kept_snd (State.readTable_memOk h) e4
        next e4 =>
          split
          next e5 => exact kept_snd (State.readTable_memOk (kept_snd (State.readTable_memOk h) e4)) e5
          next e5 => split <;> exact kept_snd (State.readTable_memOk (kept_snd (State.readTable_memOk h) e4)) e5

theorem readDeps_memOk {t : Task} {l : List Nat} {s : State} (h : s.memOk) : (readDeps t l s).2.memOk := by
  induction l generalizing s with
  | nil =>
    unfold readDeps
    dsimp only
    exact h
  | cons x l ih =>
    unfold readDeps
    dsimp only
    split
    · exact ih h
    · split
      next e2 =>
        split
        · exact (kept (engineXlate_memOk h) e2 :)
        · exact ih (kept (engineXlate_memOk h) e2 :)
      · exact Xlate.after_memOk (engineXlate_memOk h)

theorem State.pollDeps_memOk {s : State} {id : Nat} (h : s.memOk) : (s.pollDeps id).memOk := by
  unfold State.pollDeps
  dsimp only
  split
  · exact h
  · split
    · exact h
    · split
      next e2 => exact State.cancelTask_memOk (kept_snd (readDeps_memOk h) e2)
      next e2 => exact State.updTask_memOk (kept_snd (readDeps_memOk h) e2)

theorem State.ringFault_memOk {s : State} {q : Nat} (h : s.memOk) : (s.ringFault q).memOk := State.updQueue_memOk h

theorem State.newTask_memOk {s : State} {q head slot desc : Nat} (h : s.memOk) : (s.newTask q head slot desc).memOk := by
  unfold State.newTask
  dsimp only
  split
  next e1 => exact State.cancelTask_memOk (kept_snd (State.checkTask_memOk (State.updQueue_memOk (State.with_memOk (State.fresh_memOk h))))
      e1)
  next e1 => exact State.pollDeps_memOk (State.updTask_memOk (kept_snd (State.checkTask_memOk (State.updQueue_memOk (State.with_memOk
      (State.fresh_memOk h)))) e1))

theorem execTaskRead_memOk {queue : Nat} {s : State} (h : s.memOk) : Outcome.memOk (execTaskRead queue s) := by
  unfold execTaskRead
  dsimp only
  split
  · exact h
  · split
    next e1 =>
      split
      next e2 =>
        split
        · exact State.updQueue_memOk (kept (engineRead_memOk (kept (engineRead_memOk h) e1 :)) e2 :)
        · split
          next e3 =>
            split
            next e4 => exact State.newTask_memOk (State.writeHome_memOk (kept (engineXlate_memOk (kept (engineRead_memOk (kept
                (engineRead_memOk (kept (engineRead_memOk h) e1 :)) e2 :)) e3 :)) e4 :) ..)
            · exact State.ringFault_memOk (Xlate.after_memOk (engineXlate_memOk (kept (engineRead_memOk (kept (engineRead_memOk (kept
                (engineRead_memOk h) e1 :)) e2 :)) e3 :)))
          · exact State.ringFault_memOk (EngineRead.after_memOk (engineRead_memOk (kept (engineRead_memOk (kept (engineRead_memOk h) e1 :))
              e2 :)))
      · exact State.ringFault_memOk (EngineRead.after_memOk (engineRead_memOk (kept (engineRead_memOk h) e1 :)))
    · exact State.ringFault_memOk (EngineRead.after_memOk (engineRead_memOk h))

theorem State.rangePages_memOk {t : Task} {n m k : Nat} {s : State} (h : s.memOk) : (State.rangePages t n m k s).2.memOk := by
  induction n generalizing m k s with
  | zero =>
    unfold State.rangePages
    dsimp only
    exact h
  | succ n ih =>
    unfold State.rangePages
    dsimp only
    split
    · exact h
    · split
      next e2 => exact ih (kept (engineXlate_memOk h) e2 :)
      · exact ih (Xlate.after_memOk (engineXlate_memOk h))

theorem State.rangesPages_memOk {t : Task} {l : List (Nat × Nat)} {s : State} (h : s.memOk) : (State.rangesPages t l s).2.memOk := by
  induction l generalizing s with
  | nil =>
    unfold State.rangesPages
    dsimp only
    exact h
  | cons x l ih =>
    unfold State.rangesPages
    dsimp only
    exact ih (State.rangePages_memOk h)

theorem State.l2Needs_memOk {s : State} {t : Task} (h : s.memOk) : (s.l2Needs t).2.memOk := State.rangesPages_memOk h

theorem State.addStaging_memOk {s : State} {x : Staging} (h : s.memOk) : (s.addStaging x).memOk := State.with_memOk (State.fresh_memOk h)

theorem State.leaveAdmitted_memOk {s : State} {id : Nat} (h : s.memOk) : (s.leaveAdmitted id).memOk := by
  unfold State.leaveAdmitted
  dsimp only
  split
  · exact h
  · split
    · exact State.updTask_memOk h
    · exact foldl_keeps State.memOk _ (fun _ _ h2 => foldl_keeps State.memOk _ (fun _ _ h4 => State.addStaging_memOk h4) _ _ h2) _ _
        (State.updTask_memOk h)

theorem execAdmissionTest_memOk {task : Nat} {s : State} (h : s.memOk) : Outcome.memOk (execAdmissionTest task s) := by
  unfold execAdmissionTest
  dsimp only
  split
  · exact h
  · split
    · exact h
    · split
      · exact State.cancelTask_memOk h
      · split
        · exact State.updTask_memOk h
        · split
          · exact State.updTask_memOk h
          · refine State.leaveAdmitted_memOk ?_
            refine State.updTask_memOk ?_
            refine State.with_memOk ?_
            split
            · refine foldl_keeps State.memOk _ (fun _ _ h2 => ?_) _ _ (State.updTask_memOk (State.l2Needs_memOk (State.updTask_memOk h)))
              split
              · exact h2
              · exact State.updDie_memOk h2
            · exact State.with_memOk (State.l2Needs_memOk (State.updTask_memOk h))

theorem State.endStaging_memOk {s : State} {x : Staging} (h : s.memOk) : (s.endStaging x).memOk := by
  unfold State.endStaging
  dsimp only
  split
  · exact h
  · exact State.updTask_memOk h

theorem State.updStaging_memOk {s : State} {id : Nat} {f : Staging → Staging} (h : s.memOk) : (s.updStaging id f).memOk := h

theorem State.countDrop_memOk {s : State} {die : Nat} (h : s.memOk) : (s.countDrop die).memOk := State.updTs_memOk h

theorem execL2StagingFill_memOk {copy line : Nat} {s : State} (h : s.memOk) : Outcome.memOk (execL2StagingFill copy line s) := by
  unfold execL2StagingFill
  dsimp only
  split
  · exact h
  · split
    · exact h
    · refine ite_ok h ?_
      split
      next e3 =>
        split
        · refine State.updStaging_memOk ?_
          split
          · exact (kept (engineXlate_memOk (State.noteTurn_memOk h)) e3 :)
          · split
            · exact State.updL2_memOk (kept (engineXlate_memOk (State.noteTurn_memOk h)) e3 :)
            · split
              · exact State.updL2_memOk (kept (engineXlate_memOk (State.noteTurn_memOk h)) e3 :)
              · exact (kept (engineXlate_memOk (State.noteTurn_memOk h)) e3 :)
        · refine State.endStaging_memOk ?_
          split
          · exact (kept (engineXlate_memOk (State.noteTurn_memOk h)) e3 :)
          · split
            · exact State.updL2_memOk (kept (engineXlate_memOk (State.noteTurn_memOk h)) e3 :)
            · split
              · exact State.updL2_memOk (kept (engineXlate_memOk (State.noteTurn_memOk h)) e3 :)
              · exact (kept (engineXlate_memOk (State.noteTurn_memOk h)) e3 :)
      · exact foldl_keeps State.memOk _ (fun _ _ h4 => State.endStaging_memOk h4) _ _ (State.countDrop_memOk (Xlate.after_memOk
          (engineXlate_memOk (State.noteTurn_memOk h))))

theorem execStagingTimeout_memOk {task : Nat} {s : State} (h : s.memOk) : Outcome.memOk (execStagingTimeout task s) := by
  unfold execStagingTimeout
  split
  · exact h
  · split
    · exact State.updTask_memOk h
    · exact h

theorem State.stagingFault_memOk {s : State} {x : Staging} {t : Task} {f : TrFault} (h : s.memOk) : (s.stagingFault x t f).memOk := by
  unfold State.stagingFault
  split
  · exact State.updStaging_memOk (State.countDrop_memOk h)
  · split
    · exact State.failStaging_memOk h
    · exact queueFault_memOk h

theorem execStagingLanding_memOk {copy bytes : Nat} {s : State} (h : s.memOk) : Outcome.memOk (execStagingLanding copy bytes s) := by
  unfold execStagingLanding
  dsimp only
  split
  · exact h
  · split
    · split
      · exact h
      · split
        · exact h
        · split
          next e4 => exact State.stagingFault_memOk (kept (engineXlate_memOk h) e4 :)
          next e4 => exact State.stagingFault_memOk (kept (engineXlate_memOk h) e4 :)
          next e4 =>
            split
            · exact State.stagingFault_memOk (kept (engineXlate_memOk h) e4 :)
            · split
              · exact (kept (engineXlate_memOk h) e4 :)
              · split
                · exact State.updStaging_memOk (State.setCohort_memOk (kept (engineXlate_memOk h) e4 :))
                · exact State.endStaging_memOk (State.setCohort_memOk (kept (engineXlate_memOk h) e4 :))
    · exact h

theorem execStorageClearComplete_memOk {core item : Nat} {s : State} (h : s.memOk) :
    Outcome.memOk (execStorageClearComplete core item s) := by
  unfold execStorageClearComplete
  dsimp only
  split
  · exact h
  · split
    · exact h
    · exact State.settleCancel_memOk (State.updCore_memOk h)

theorem execSegmentConvert_memOk {core segment : Nat} {role : Role} {s : State} (h : s.memOk) :
    Outcome.memOk (execSegmentConvert core segment role s) := by
  unfold execSegmentConvert
  dsimp only
  split
  · exact h
  · exact State.updSegment_memOk h

theorem execSegmentConversionComplete_memOk {core segment : Nat} {s : State} (h : s.memOk) :
    Outcome.memOk (execSegmentConversionComplete core segment s) := by
  unfold execSegmentConversionComplete
  dsimp only
  split
  · exact h
  · split
    · exact State.updSegment_memOk (State.updCore_memOk h)
    · exact h

theorem State.giveSegments_memOk {s : State} {core cid bytes : Nat} (h : s.memOk) : (s.giveSegments core cid bytes).1.memOk := by
  unfold State.giveSegments
  dsimp only
  split
  · exact h
  · refine foldl_keeps (fun x : State × Nat => x.1.memOk) _ (fun _ _ h2 => ?_) _ _ (foldl_keeps State.memOk _ (fun _ _ h2 =>
      State.updSegment_memOk h2) _ _ h)
    split
    · exact h2
    · exact State.updSegment_memOk h2

theorem State.allocate_memOk {s : State} {cid : Nat} {t : Task} {k : Cohort} {cs : List Nat} (h : s.memOk) :
    (s.allocate cid t k cs).1.memOk := by
  unfold State.allocate
  dsimp only
  refine foldl_keeps (fun x : State × List Nat => x.1.memOk) _ (fun _ _ hx => ?_) _ (s, []) h
  exact State.giveSegments_memOk hx

theorem State.stageScratch_memOk {s : State} {t : Task} {cid index die : Nat} (h : s.memOk) : (s.stageScratch t cid index die).memOk :=
  foldl_keeps State.memOk _ (fun _ _ h1 => State.addStaging_memOk h1) _ _ h

theorem State.placeWaves_memOk {s : State} {cid : Nat} {t : Task} {cs : List Nat} (h : s.memOk) : (s.placeWaves cid t cs).1.memOk := by
  unfold State.placeWaves
  refine foldl_keeps (fun x : State × List Nat => x.1.memOk) _ (fun _ _ hx => ?_) _ (s, []) h
  refine foldl_keeps (fun x : State × List Nat => x.1.memOk) _ (fun _ _ hy => ?_) _ _ hx
  exact State.setWave_memOk (State.fresh_memOk hy)

theorem State.afterPlacement_memOk {s : State} {id : Nat} (h : s.memOk) : (s.afterPlacement id).memOk := by
  unfold State.afterPlacement
  split
  · exact h
  · split
    · exact State.updTask_memOk (State.endProtection_memOk h)
    · exact State.updTask_memOk h

theorem State.chosenDie_memOk {s : State} {t : Task} {index : Nat} (h : s.memOk) : (s.chosenDie t index).2.memOk :=
  State.rangesPages_memOk h

theorem State.score_memOk {s : State} {t : Task} {index : Nat} (h : s.memOk) : (s.score t index).2.memOk := State.rangesPages_memOk h

theorem State.highest_memOk {s : State} {t : Task} {l : List Nat} (h : s.memOk) : (s.highest t l).2.memOk := by
  induction l generalizing s with
  | nil =>
    unfold State.highest
    dsimp only
    exact h
  | cons x l ih =>
    unfold State.highest
    dsimp only
    split
    · exact h
    · split
      · exact ih (State.score_memOk h)
      · exact State.score_memOk (ih (State.score_memOk h))

theorem State.nextCohort_memOk {s : State} {t : Task} (h : s.memOk) : (s.nextCohort t).2.memOk := by
  unfold State.nextCohort
  split <;> exact State.highest_memOk h

theorem execCohortPlace_memOk {task index core : Nat} {s : State} (h : s.memOk) : Outcome.memOk (execCohortPlace task index core s) := by
  unfold execCohortPlace
  dsimp only
  split
  · exact h
  · split
    · exact State.cancelTask_memOk h
    · split
      · exact h
      · split
        · exact State.chosenDie_memOk (State.nextCohort_memOk h)
        · exact State.afterPlacement_memOk (State.updTask_memOk (State.stageScratch_memOk (foldl_keeps State.memOk _ (fun _ _ h3 =>
            State.acquire_memOk h3) _ _ (State.setCohort_memOk (State.placeWaves_memOk (State.allocate_memOk (State.fresh_memOk
            (State.with_memOk (State.chosenDie_memOk (State.nextCohort_memOk h))))))))))

theorem State.endSaving_memOk {s : State} {id : Nat} (h : s.memOk) : (s.endSaving id).memOk := by
  unfold State.endSaving
  split
  · exact h
  · exact State.leaveAdmitted_memOk (State.updTask_memOk h)

theorem execCohortRetire_memOk {cohort : Nat} {s : State} (h : s.memOk) : Outcome.memOk (execCohortRetire cohort s) := by
  unfold execCohortRetire
  dsimp only
  split
  · exact h
  · split
    · exact h
    · split
      · split
        · exact State.settleCancel_memOk (State.updTask_memOk (State.releaseCohort_memOk h))
        · split
          · exact State.finishTask_memOk (State.updTask_memOk (State.releaseCohort_memOk h))
          · split
            · exact State.endSaving_memOk (State.updTask_memOk (State.releaseCohort_memOk h))
            · exact State.updTask_memOk (State.releaseCohort_memOk h)
      · exact State.updTask_memOk (State.releaseCohort_memOk h)

theorem State.giveKeepers_memOk {s : State} {die : Nat} {l : List (Nat × Wave)} (h : s.memOk) : (s.giveKeepers die l).1.memOk := by
  induction l generalizing s with
  | nil =>
    unfold State.giveKeepers
    dsimp only
    exact h
  | cons x l ih =>
    unfold State.giveKeepers
    dsimp only
    split
    · exact ih (State.updDie_memOk h)
    · exact ih h

theorem State.saveCohort_memOk {s : State} {cid : Nat} (h : s.memOk) : optionOk State.memOk (s.saveCohort cid) := by
  unfold State.saveCohort
  dsimp only
  split
  · exact trivial
  · split
    · split
      · exact trivial
      · refine optionOk_map (optionOk_any _) (fun _ h3 => ?_)
        refine State.with_memOk ?_
        refine State.updTask_memOk ?_
        refine State.releaseCohort_memOk ?_
        refine State.writeImage_memOk ?_
        refine State.updDie_memOk ?_
        split
        · exact State.setWorld_memOk (State.giveKeepers_memOk (foldl_keeps State.memOk _ (fun _ _ h5 => State.drainWave_memOk h5) _ _ h))
        · exact State.giveKeepers_memOk (foldl_keeps State.memOk _ (fun _ _ h5 => State.drainWave_memOk h5) _ _ h)
    · exact trivial

theorem State.preemptTask_memOk {s : State} {id : Nat} (h : s.memOk) : (s.preemptTask id).memOk := by
  unfold State.preemptTask
  dsimp only
  split
  · exact h
  · split
    · exact h
    · refine State.endSaving_memOk ?_
      refine foldl_keeps State.memOk _ (fun _ _ h2 => optionOk_getD (State.saveCohort_memOk h2) h2) _ _ ?_
      split
      · exact h
      · exact State.updTask_memOk (State.endProtection_memOk h)

theorem execWaitTimeout100us_memOk {wave : Nat} {s : State} (h : s.memOk) : Outcome.memOk (execWaitTimeout100us wave s) := by
  unfold execWaitTimeout100us
  dsimp only
  split
  · exact h
  · split
    · exact h
    · split
      · exact State.setWave_memOk h
      · split
        · split
          · exact State.preemptTask_memOk h
          · exact h
        · exact h

theorem execPreemptLimitExpiry_memOk {task victim : Nat} {s : State} (h : s.memOk) :
    Outcome.memOk (execPreemptLimitExpiry task victim s) := by
  unfold execPreemptLimitExpiry
  dsimp only
  split
  · exact ite_ok (State.preemptTask_memOk h) h
  · exact h

theorem execDebugStop_memOk {dispatch : Nat} {s : State} (h : s.memOk) : Outcome.memOk (execDebugStop dispatch s) := by
  unfold execDebugStop
  split
  · exact h
  · split
    · exact h
    · exact State.preemptTask_memOk (State.updTask_memOk h)

theorem execDebugGo_memOk {dispatch : Nat} {s : State} (h : s.memOk) : Outcome.memOk (execDebugGo dispatch s) := by
  unfold execDebugGo
  split
  · exact h
  · exact State.updTask_memOk h

theorem State.writeBack_memOk {s : State} {t : Task} {x : Saved} {cs : List Nat} (h : s.memOk) : (s.writeBack t x cs).memOk := by
  unfold State.writeBack
  dsimp only
  refine foldl_keeps State.memOk _ (fun _ _ h1 => State.acquire_memOk h1) _ _ ?_
  refine foldl_keeps State.memOk _ (fun _ _ h1 => ?_) _ _ ?_
  · refine foldl_keeps State.memOk _ (fun _ _ h3 => ?_) _ _ h1
    split
    · exact State.setWave_memOk h3
    · exact h3
  · refine foldl_keeps State.memOk _ (fun _ _ h1 => ?_) _ _ (State.setCohort_memOk (State.allocate_memOk h))
    split
    · exact State.updSegment_memOk h1
    · exact h1

theorem State.resumeWave_memOk {s : State} {u : Nat} (h : s.memOk) : (s.resumeWave u).memOk := by
  unfold State.resumeWave
  dsimp only
  split
  · exact h
  · split
    · split
      · exact State.afterLanding_memOk (State.freeKeeper_memOk (foldl_keeps State.memOk _ (fun _ _ h4 => State.floadAgain_memOk h4) _ _ h))
      · exact State.freeKeeper_memOk (foldl_keeps State.memOk _ (fun _ _ h4 => State.floadAgain_memOk h4) _ _ h)
    · exact State.freeKeeper_memOk (foldl_keeps State.memOk _ (fun _ _ h3 => State.floadAgain_memOk h3) _ _ h)

theorem State.restage_memOk {s : State} {t : Task} {cid index die : Nat} {pend : List Nat} (h : s.memOk) :
    (s.restage t cid index die pend).memOk :=
  foldl_keeps State.memOk _ (fun _ _ h1 => State.addStaging_memOk h1) _ _ h

theorem execCohortRestore_memOk {saved core : Nat} {s : State} (h : s.memOk) : Outcome.memOk (execCohortRestore saved core s) := by
  unfold execCohortRestore
  dsimp only
  split
  · exact h
  · split
    · split
      · exact State.with_memOk (State.chosenDie_memOk (State.nextCohort_memOk h))
      · split
        · exact State.with_memOk (State.cancelTask_memOk (State.with_memOk (State.chosenDie_memOk (State.nextCohort_memOk h))))
        · exact State.afterPlacement_memOk (State.restage_memOk (foldl_keeps State.memOk _ (fun _ _ h3 => State.resumeWave_memOk h3) _ _
            (State.updTask_memOk (State.freeImage_memOk (State.writeBack_memOk (State.with_memOk (State.chosenDie_memOk
            (State.nextCohort_memOk h))))))))
    · exact h

theorem State.cancelQueue_memOk {s : State} {q : Nat} (h : s.memOk) : (s.cancelQueue q).memOk :=
  foldl_keeps State.memOk _ (fun _ _ h1 => State.cancelTask_memOk h1) _ _ h

theorem execTaskQueueCancel_memOk {queue : Nat} {s : State} (h : s.memOk) : Outcome.memOk (execTaskQueueCancel queue s) := by
  unfold execTaskQueueCancel
  split
  · exact State.cancelQueue_memOk h
  · exact h

theorem State.popCheck_memOk {s : State} {die token : Nat} (h : s.memOk) : optionOk (fun x => x.2.memOk) (s.popCheck die token) :=
  optionOk_map (optionOk_any _) (fun _ _ => State.updDie_memOk h)

theorem execMcRetry_memOk {die token : Nat} {s : State} (h : s.memOk) : Outcome.memOk (execMcRetry die token s) := by
  unfold execMcRetry
  split
  · exact h
  next e1 =>
    split
    · exact (kept (State.popCheck_memOk h) e1 :)
    · exact State.updAnyWave_memOk (kept (State.popCheck_memOk h) e1 :)

theorem execMcTrap_memOk {die token : Nat} {s : State} (h : s.memOk) : Outcome.memOk (execMcTrap die token s) := by
  unfold execMcTrap
  dsimp only
  split
  · exact h
  next e1 =>
    split
    · exact (kept (State.popCheck_memOk h) e1 :)
    · split
      · split
        · split
          · exact State.enterTrap_memOk (State.updAnyWave_memOk (kept (State.popCheck_memOk h) e1 :))
          · exact State.updAnyWave_memOk (kept (State.popCheck_memOk h) e1 :)
        · exact State.updAnyWave_memOk (kept (State.popCheck_memOk h) e1 :)
      · exact State.updAnyWave_memOk (kept (State.popCheck_memOk h) e1 :)

theorem execMcKill_memOk {die token : Nat} {s : State} (h : s.memOk) : Outcome.memOk (execMcKill die token s) := by
  unfold execMcKill
  split
  · exact h
  next e1 =>
    split
    · exact State.killDispatch_memOk (kept (State.popCheck_memOk h) e1 :)
    · exact (kept (State.popCheck_memOk h) e1 :)

theorem execMcRecordDeferred_memOk {die : Nat} {s : State} (h : s.memOk) : Outcome.memOk (execMcRecordDeferred die s) := by
  unfold execMcRecordDeferred
  dsimp only
  split
  · exact h
  · split
    · exact h
    · split
      · exact State.writeMachineCheck_memOk (State.updDie_memOk h)
      · split
        · exact State.updDie_memOk h
        · split
          · exact State.updDie_memOk h
          · split
            · exact State.writeMachineCheck_memOk (State.updDie_memOk h)
            · exact State.updAnyWave_memOk (State.writeMachineCheck_memOk (State.updDie_memOk h))

theorem readBlock_memOk {i : Instr} {reg va n : Nat} {body : List Byte → Body} (hbody : ∀ (a : List Byte), (body a).memOk) :
    (readBlock i reg va n body).memOk :=
  fun _ _ _ h => readPieces_memOk hbody _ _ _ h

theorem writeBlock_memOk {va : Nat} {bs : List Byte} : (writeBlock va bs).memOk := fun _ _ _ h => storePieces_memOk _ _ _ h

theorem workFor_memOk {until_ : Nat} {data : List (Nat × Nat)} : (workFor until_ data).memOk := fun _ _ _ h => State.setWave_memOk h

theorem execHashb_memOk {f : EF} {s : State} (h : s.memOk) : Outcome.memOk (execHashb f s) := by
  unfold execHashb
  dsimp only
  refine runInstr_memOk ?_ h
  refine afterJoin_memOk (fun _ _ _ h1 => ?_)
  split
  · exact State.setWave_memOk h1
  · split
    · exact h1
    · exact readBlock_memOk (fun _ _ _ _ h3 => workFor_memOk _ _ _ h3) _ _ _ h1

theorem State.provision_memOk {s : State} {slot : Nat} {key : List Byte} (h : s.memOk) : (s.provision slot key).memOk := by
  unfold State.provision
  dsimp only
  split <;> exact h

theorem execSignq_memOk {f : EF} {s : State} (h : s.memOk) : Outcome.memOk (execSignq f s) := by
  unfold execSignq
  dsimp only
  refine runInstr_memOk ?_ h
  refine afterJoin_memOk (fun _ _ _ h1 => ?_)
  split
  · exact writeBlock_memOk _ _ _ h1
  · split
    · exact h1
    · split
      · exact h1
      · exact readBlock_memOk (fun _ _ _ _ h4 => workFor_memOk _ _ _ h4) _ _ _ h1

theorem State.extendSlot_memOk {s : State} {n : Nat} {bs : List Byte} (h : s.memOk) : (s.extendSlot n bs).memOk := h

theorem execMeasxExtend_memOk {f : EF} {s : State} (h : s.memOk) : Outcome.memOk (execMeasxExtend f s) := by
  unfold execMeasxExtend
  refine runInstr_memOk ?_ h
  refine afterJoin_memOk (fun _ _ _ h1 => ?_)
  split
  · exact State.extendSlot_memOk h1
  · exact readBlock_memOk (fun _ _ _ _ h3 => workFor_memOk _ _ _ h3) _ _ _ h1

theorem execMeasxRead_memOk {f : EF} {s : State} (h : s.memOk) : Outcome.memOk (execMeasxRead f s) :=
  runInstr_memOk (afterJoin_memOk (fun _ _ _ h1 => writeBlock_memOk _ _ _ h1)) h

theorem State.bootImage_memOk {s : State} {slot : Nat} {i : Option BootImage} (h : s.memOk) : (s.bootImage slot i).1.memOk := by
  unfold State.bootImage
  dsimp only
  split
  · exact h
  · split
    · split
      · exact State.extendSlot_memOk (State.extendSlot_memOk h)
      · exact State.extendSlot_memOk h
    · exact h

theorem State.bootImages_memOk {s : State} {l : List (Nat × Option BootImage)} (h : s.memOk) : (s.bootImages l).1.memOk := by
  induction l generalizing s with
  | nil =>
    unfold State.bootImages
    dsimp only
    exact h
  | cons x l ih =>
    unfold State.bootImages
    split
    next e1 => exact ih (kept_fst (State.bootImage_memOk h) e1)
    · exact State.bootImage_memOk h

theorem State.boot_memOk {s : State} {images : List BootImage} (h : s.memOk) : (s.boot images).memOk := by
  unfold State.boot
  dsimp only
  refine ite_ok h ?_
  split
  next e => exact State.with_memOk (State.extendSlot_memOk (kept_fst (State.bootImages_memOk (State.with_memOk h)) e))
  next e => exact State.with_memOk (kept_fst (State.bootImages_memOk (State.with_memOk h)) e)

theorem execBootRetry_memOk {images : List BootImage} {s : State} (h : s.memOk) : Outcome.memOk (execBootRetry images s) := by
  unfold execBootRetry
  split
  · exact State.boot_memOk h
  · exact h

end Sys2Proof.Machine
end

section
/-! SUPPORT. Canonical memory: regions, the responder, worlds, power, registers, and the task instructions. -/

set_option Elab.async false

namespace Sys2Proof.Machine

theorem State.updRegion_memOk {s : State} {die : Nat} {k : RegionKey} {f : Region → Region} (h : s.memOk) : (s.updRegion die k f).memOk :=
  State.updFit_memOk h

theorem State.uncache_memOk {s : State} {die : Nat} {k : RegionKey} (h : s.memOk) : (s.uncache die k).memOk :=
  foldl_keeps State.memOk _ (fun _ _ h1 => State.updCore_memOk h1) _ _ h

theorem State.readSeed_memOk {s : State} {die : Nat} {r : Region} (h : s.memOk) : (s.readSeed die r).2.memOk := by
  unfold State.readSeed
  dsimp only
  split
  next e1 => exact (kept (engineRead_memOk h) e1 :)
  · exact EngineRead.after_memOk (engineRead_memOk h)

theorem State.initRegion_memOk {s : State} {die : Nat} {r : Region} {q : Nat} (h : s.memOk) : (s.initRegion die r q).1.memOk := by
  unfold State.initRegion
  dsimp only
  split
  · split
    all_goals next e2 => exact kept_snd (State.readSeed_memOk h) e2
  · exact h

theorem State.takeSample_memOk {s : State} {die : Nat} {r : Region} {x y : List Word} {q : Nat} (h : s.memOk) :
    (s.takeSample die r x y q).1.memOk := by
  unfold State.takeSample
  dsimp only
  split
  · split
    · exact h
    · exact State.initRegion_memOk h
  · repeat' split
    all_goals exact h

theorem State.consume_memOk {s : State} {die : Nat} {x : Sample} (h : s.memOk) : (s.consume die x).memOk := by
  unfold State.consume
  dsimp only
  split
  · exact h
  · split
    · exact h
    · refine State.updFit_memOk ?_
      split
      · exact State.uncache_memOk (State.updRegion_memOk (State.takeSample_memOk (State.fresh_memOk h)))
      · exact State.updRegion_memOk (State.takeSample_memOk (State.fresh_memOk h))

theorem execFittingSample_memOk {die : Nat} {s : State} (h : s.memOk) : Outcome.memOk (execFittingSample die s) := by
  unfold execFittingSample
  split
  · exact h
  · exact State.consume_memOk (State.updFit_memOk h)

theorem execReplayStep_memOk {die region : Nat} {s : State} (h : s.memOk) : Outcome.memOk (execReplayStep die region s) := by
  unfold execReplayStep
  dsimp only
  split
  · exact h
  · split
    · exact h
    · exact State.updFit_memOk (State.updRegion_memOk h)

theorem State.upsetTraining_memOk {s : State} {die region : Nat} (h : s.memOk) : (s.upsetTraining die region).memOk := by
  unfold State.upsetTraining
  dsimp only
  split
  · exact h
  · split
    · exact h
    · split
      · exact State.updFit_memOk h
      · split
        · exact State.writeMachineCheck_memOk (State.updFit_memOk (State.updRegion_memOk h))
        · exact State.updDie_memOk (State.updFit_memOk (State.updRegion_memOk h))

theorem watchPieces_memOk {die asid world : Nat} {l : List (Nat × Nat)} {s : State} (h : s.memOk) :
    (watchPieces die asid world l s).2.memOk := by
  induction l generalizing s with
  | nil =>
    unfold watchPieces
    dsimp only
    exact h
  | cons x l ih =>
    unfold watchPieces
    dsimp only
    split
    · exact ih (touchLeaf_memOk h)
    · exact ih h

theorem State.watches_memOk {s : State} {die asid world : Nat} {deps : List (Nat × Nat)} {code : List Nat} (h : s.memOk) :
    (s.watches die asid world deps code).2.memOk :=
  watchPieces_memOk h

theorem readEntry_memOk {i : Instr} {reg id : Nat} {body : Nat → List Word → Body} (hbody : ∀ (a : Nat) (a_1 : List Word), (body a
    a_1).memOk) :
    (readEntry i reg id body).memOk := by
  intro s u w h
  unfold readEntry
  dsimp only
  refine readRecordAt_memOk (fun _ _ _ _ h1 => ?_) _ _ _ h
  split
  · exact h1
  · split
    · exact hbody _ _ _ _ _ h1
    · exact readBlock_memOk (fun _ _ _ _ h4 => hbody _ _ _ _ _ h4) _ _ _ h1

theorem State.regionRoom_memOk {s : State} {die : Nat} (h : s.memOk) : optionOk State.memOk (s.regionRoom die) := by
  unfold State.regionRoom
  dsimp only
  split
  · exact h
  · exact optionOk_map (optionOk_any _) (fun _ _ => State.updFit_memOk (State.invalidateRegionsOn_memOk h))

theorem withRegion_memOk {i : Instr} {reg : Nat} {k : RegionKey} {target : Nat} {body : Option Region → Body} (hbody : ∀ (a : Option
    Region), (body a).memOk) :
    (withRegion i reg k target body).memOk := by
  intro s u w h
  unfold withRegion
  dsimp only
  split
  · split
    · exact hbody _ _ _ _ h
    · refine readEntry_memOk (fun _ _ _ _ _ h2 => ?_) _ _ _ h
      refine hbody _ _ _ _ ?_
      refine State.updRegion_memOk ?_
      split
      · exact State.watches_memOk h2
      · exact h2
  · refine readEntry_memOk (fun _ _ _ _ _ h2 => ?_) _ _ _ h
    split
    · exact hbody _ _ _ _ h2
    next e4 =>
      refine hbody _ _ _ _ ?_
      refine State.updFit_memOk ?_
      split
      · exact State.watches_memOk (State.fresh_memOk (kept (State.regionRoom_memOk h2) e4 :))
      · exact State.fresh_memOk (kept (State.regionRoom_memOk h2) e4 :)

theorem withRegionId_memOk {i : Instr} {c : BitVec 8} {body : Nat → Body} (hbody : ∀ (a : Nat), (body a).memOk) :
    (withRegionId i c body).memOk := by
  intro s u w h
  unfold withRegionId
  dsimp only
  split
  · exact hbody _ _ _ _ h
  · exact h

theorem enterRegion_memOk {f : EF} {k : RegionKey} {target : DWord} {r : Region} : (enterRegion f k target r).memOk := by
  intro s u w h
  unfold enterRegion
  dsimp only
  split
  · exact State.updRegion_memOk (State.fresh_memOk h)
  · split
    · split
      · exact State.setWave_memOk (State.updRegion_memOk (State.updRegion_memOk (State.fresh_memOk h)))
      · exact State.setWave_memOk (State.updCore_memOk (State.updRegion_memOk (State.updRegion_memOk (State.fresh_memOk h))))
    · split <;> exact State.setWave_memOk (State.updRegion_memOk (State.fresh_memOk h))

theorem execApxbegin_memOk {f : EF} {s : State} (h : s.memOk) : Outcome.memOk (execApxbegin f s) := by
  unfold execApxbegin
  dsimp only
  refine runInstr_memOk (fun _ _ _ h1 => ?_) h
  split
  · exact State.setWave_memOk h1
  · split
    next e3 =>
      refine withRegionId_memOk (fun _ _ _ _ h4 => ?_) _ _ _ (kept (transfer_memOk _ _ _ h1) e3 :)
      split
      · exact h4
      · split
        · exact State.setWave_memOk h4
        · refine afterJoin_memOk ?_ _ _ _ h4
          refine withRegion_memOk (fun _ _ _ _ h6 => ?_)
          split
          · exact enterRegion_memOk _ _ _ h6
          · exact State.setWave_memOk h6
    · exact transfer_memOk _ _ _ h1

theorem State.sendSamples_memOk {s : State} {die : Nat} {l : List Sample} (h : s.memOk) : (s.sendSamples die l).memOk :=
  foldl_keeps State.memOk _ (fun _ _ h1 => State.updFit_memOk h1) _ _ h

theorem execApxend_memOk {f : EF} {s : State} (h : s.memOk) : Outcome.memOk (execApxend f s) := by
  unfold execApxend
  dsimp only
  refine runInstr_memOk (fun _ _ _ h1 => ?_) h
  split
  · split <;> exact h1
  · split
    · exact h1
    · split
      · exact State.updFit_memOk (State.setWave_memOk h1)
      · split
        · exact State.updWave_memOk (State.sendSamples_memOk (State.setWave_memOk h1))
        · exact State.sendSamples_memOk (State.setWave_memOk h1)

theorem invalidateFor_memOk {p : State → Wave → Region → Bool} : (invalidateFor p).memOk := by
  intro s u w h
  refine ite_ok h (afterJoin_memOk (afterReads_memOk fun s u w h => ?_) _ _ _ h)
  exact State.updWave_memOk (State.invalidateRegions_memOk h)

theorem execApxinv_memOk {f : EF} {s : State} (h : s.memOk) : Outcome.memOk (execApxinv f s) := by
  unfold execApxinv
  refine runInstr_memOk (fun s u w h => ?_) h
  exact ite_ok (P := Body.memOk) invalidateFor_memOk (withRegionId_memOk fun _ => invalidateFor_memOk) _ _ _ h

theorem execApxqry_memOk {f : EF} {s : State} (h : s.memOk) : Outcome.memOk (execApxqry f s) :=
  runInstr_memOk (withRegionId_memOk (fun _ _ _ _ h1 => State.setWave_memOk h1)) h

theorem State.physWrite_memOk {s : State} {pa : Nat} {bs : List Byte} (h : s.memOk) : (s.physWrite pa bs).memOk := by
  unfold State.physWrite
  split
  · exact State.writeHome_memOk h ..
  · exact h

theorem State.passRequest_memOk {s : State} {r : List Byte} (h : s.memOk) : Outcome.memOk (s.passRequest r) :=
  State.with_memOk (State.physWrite_memOk h)

theorem State.doeRequest_memOk {s : State} {r : List Byte} (h : s.memOk) : Outcome.memOk (s.doeRequest r) := by
  unfold State.doeRequest
  dsimp only
  split
  · exact h
  · split
    · exact h
    · exact State.passRequest_memOk h

theorem State.runExtensions_memOk {s : State} (h : s.memOk) : s.runExtensions.memOk :=
  State.with_memOk (foldl_keeps State.memOk _ (fun _ _ h1 => State.extendSlot_memOk h1) _ _ h)

theorem State.respond_memOk {s : State} {len : Nat} (h : s.memOk) : Outcome.memOk (s.respond len) := by
  unfold State.respond
  dsimp only
  split
  · exact h
  · split
    · exact State.runExtensions_memOk (State.with_memOk (State.physDone_memOk h))
    · exact State.passRequest_memOk (State.with_memOk (State.runExtensions_memOk (State.with_memOk (State.physDone_memOk h))))

theorem State.reply_memOk {s : State} {r : List Byte} (h : s.memOk) : Outcome.memOk (s.reply r) :=
  State.respond_memOk (State.physWrite_memOk h)

theorem State.clearDoerq_memOk {s : State} (h : s.memOk) : s.clearDoerq.memOk := h

theorem State.spdm_memOk {s : State} {code : Nat} {needs : Nat → Bool} {body : State → Host.Outcome State Fault Refusal} (h : s.memOk)
    (hbody : ∀ (a : State), a.memOk → Outcome.memOk (body a)) :
    Outcome.memOk (s.spdm code needs body) := by
  unfold State.spdm
  dsimp only
  split
  · exact h
  · split
    · exact State.reply_memOk (State.clearDoerq_memOk h)
    · split
      · exact State.reply_memOk (State.clearDoerq_memOk h)
      · split
        · exact State.reply_memOk (State.clearDoerq_memOk h)
        · exact hbody _ (State.clearDoerq_memOk h)

theorem State.keepExchange_memOk {s : State} {d : Doe} {n : Nat} (h : s.memOk) : (s.keepExchange d n).memOk := State.physWrite_memOk h

theorem State.record_memOk {s : State} {response : List Byte} (h : s.memOk) : Outcome.memOk (s.record response) :=
  State.reply_memOk (State.keepExchange_memOk h)

theorem execSpdmGetVersion_memOk {s : State} (h : s.memOk) : Outcome.memOk (execSpdmGetVersion s) :=
  State.spdm_memOk h (fun _ h1 => State.record_memOk h1)

theorem execSpdmGetCapabilities_memOk {s : State} (h : s.memOk) : Outcome.memOk (execSpdmGetCapabilities s) :=
  State.spdm_memOk h (fun _ h1 => State.record_memOk h1)

theorem execSpdmNegotiateAlgorithms_memOk {s : State} (h : s.memOk) : Outcome.memOk (execSpdmNegotiateAlgorithms s) :=
  State.spdm_memOk h (fun _ h1 => State.reply_memOk (State.keepExchange_memOk h1))

theorem execSpdmGetDigests_memOk {s : State} (h : s.memOk) : Outcome.memOk (execSpdmGetDigests s) :=
  State.spdm_memOk h (fun _ h1 => State.record_memOk h1)

theorem execSpdmGetCertificate_memOk {s : State} (h : s.memOk) : Outcome.memOk (execSpdmGetCertificate s) := by
  unfold execSpdmGetCertificate
  dsimp only
  refine State.spdm_memOk h (fun _ h1 => ?_)
  split
  · exact State.reply_memOk h1
  · exact State.record_memOk h1

theorem State.nonce_memOk {s : State} (h : s.memOk) : s.nonce.2.memOk := h

theorem State.writeRecord_memOk {s : State} (h : s.memOk) : s.writeRecord.memOk := State.physWrite_memOk h

theorem State.placeResponder_memOk {s : State} {user : List DWord} {data tb : Nat} {chain : List Byte} (h : s.memOk) :
    (s.placeResponder user data tb chain).memOk := by
  unfold State.placeResponder
  dsimp only
  split
  · exact State.writeRecord_memOk (foldl_keeps State.memOk _ (fun _ _ h1 => State.physWrite_memOk h1) _ _ h)
  · exact h

theorem State.signed_memOk {s : State} {context response : List Byte} (h : s.memOk) : Outcome.memOk (s.signed context response) :=
  State.reply_memOk (State.with_memOk (State.keepExchange_memOk (State.writeRecord_memOk h)))

theorem execSpdmChallenge_memOk {s : State} (h : s.memOk) : Outcome.memOk (execSpdmChallenge s) := by
  unfold execSpdmChallenge
  dsimp only
  refine State.spdm_memOk h (fun _ h1 => ?_)
  split
  · exact State.reply_memOk (State.writeRecord_memOk h1)
  · exact State.signed_memOk (State.with_memOk (State.nonce_memOk h1))

theorem execSpdmGetMeasurements_memOk {s : State} (h : s.memOk) : Outcome.memOk (execSpdmGetMeasurements s) := by
  unfold execSpdmGetMeasurements
  dsimp only
  refine State.spdm_memOk h (fun _ h1 => ?_)
  split
  · exact State.reply_memOk (State.writeRecord_memOk h1)
  · exact State.signed_memOk (State.with_memOk (State.nonce_memOk h1))

theorem execSpdmUnsupportedRequest_memOk {s : State} (h : s.memOk) : Outcome.memOk (execSpdmUnsupportedRequest s) := by
  unfold execSpdmUnsupportedRequest
  split
  · exact h
  · exact State.reply_memOk (State.clearDoerq_memOk h)

theorem State.vendor_memOk {s : State} {act : List Byte → State → List Byte × State} (h : s.memOk) (hact : ∀ (a : List Byte) (a_1 : State),
    a_1.memOk → (act a a_1).2.memOk) :
    Outcome.memOk (s.vendor act) := by
  unfold State.vendor
  dsimp only
  split
  · exact h
  · split
    · exact State.reply_memOk (State.clearDoerq_memOk h)
    · split
      · exact State.reply_memOk (State.clearDoerq_memOk h)
      · split
        · exact State.reply_memOk (State.clearDoerq_memOk h)
        · exact State.reply_memOk (hact _ _ (State.clearDoerq_memOk h))

theorem State.updTrust_memOk {s : State} {f : Trust → Trust} (h : s.memOk) : (s.updTrust f).memOk := h

theorem execIdeKmQuery_memOk {s : State} (h : s.memOk) : Outcome.memOk (execIdeKmQuery s) := State.vendor_memOk h (fun _ _ h1 => h1)

theorem execIdeKmKeyProg_memOk {s : State} (h : s.memOk) : Outcome.memOk (execIdeKmKeyProg s) :=
  State.vendor_memOk h (fun _ _ h1 => State.updTrust_memOk h1)

theorem execIdeKmKSetGo_memOk {s : State} (h : s.memOk) : Outcome.memOk (execIdeKmKSetGo s) :=
  State.vendor_memOk h (fun _ _ h1 => State.updTrust_memOk h1)

theorem execIdeKmKSetStop_memOk {s : State} (h : s.memOk) : Outcome.memOk (execIdeKmKSetStop s) :=
  State.vendor_memOk h (fun _ _ h1 => State.updTrust_memOk h1)

theorem execTdispGetVersion_memOk {s : State} (h : s.memOk) : Outcome.memOk (execTdispGetVersion s) :=
  State.vendor_memOk h (fun _ _ h1 => h1)

theorem execTdispGetCapabilities_memOk {s : State} (h : s.memOk) : Outcome.memOk (execTdispGetCapabilities s) :=
  State.vendor_memOk h (fun _ _ h1 => h1)

theorem State.queueExtension_memOk {s : State} {slot : Nat} {digest : List Byte} (h : s.memOk) : (s.queueExtension slot digest).memOk := by
  unfold State.queueExtension
  dsimp only
  split
  · exact State.updTrust_memOk h
  · exact State.runExtensions_memOk (State.updTrust_memOk h)

theorem State.createWorld_memOk {s : State} {iface : Nat} (h : s.memOk) : (s.createWorld iface).memOk := by
  unfold State.createWorld
  dsimp only
  split
  · exact h
  · split
    · exact h
    · exact State.queueExtension_memOk (State.updTrust_memOk (State.setWorld_memOk h))

theorem execLockInterface_memOk {iface : Nat} {s : State} (h : s.memOk) : Outcome.memOk (execLockInterface iface s) := by
  unfold execLockInterface
  refine State.vendor_memOk h (fun _ _ h1 => ?_)
  split
  · exact State.createWorld_memOk (State.setIface_memOk h1)
  · exact h1

theorem execWorldRequest_memOk {iface : Nat} {s : State} (h : s.memOk) : Outcome.memOk (execWorldRequest iface s) := by
  unfold execWorldRequest
  split
  · exact State.createWorld_memOk h
  · exact h

theorem execStartInterface_memOk {iface : Nat} {s : State} (h : s.memOk) : Outcome.memOk (execStartInterface iface s) := by
  unfold execStartInterface
  refine State.vendor_memOk h (fun _ _ h1 => ?_)
  split
  · exact State.setIface_memOk h1
  · exact h1

theorem execGetDeviceInterfaceReport_memOk {iface : Nat} {s : State} (h : s.memOk) : Outcome.memOk (execGetDeviceInterfaceReport iface s) :=
  State.vendor_memOk h (fun _ _ h1 => h1)

theorem execGetDeviceInterfaceState_memOk {iface : Nat} {s : State} (h : s.memOk) : Outcome.memOk (execGetDeviceInterfaceState iface s) :=
  State.vendor_memOk h (fun _ _ h1 => h1)

theorem State.beginClearing_memOk {s : State} {iface : Nat} (h : s.memOk) : (s.beginClearing iface).memOk := by
  unfold State.beginClearing
  dsimp only
  split
  · exact h
  · exact State.updTrust_memOk (foldl_keeps State.memOk _ (fun _ _ h1 => State.setWorld_memOk h1) _ _ h)

theorem State.cancelKeepingPages_memOk {s : State} {ids : List Nat} {status : Nat} (h : s.memOk) :
    (s.cancelKeepingPages ids status).memOk := by
  unfold State.cancelKeepingPages
  dsimp only
  refine foldl_keeps State.memOk _ (fun _ _ h1 => ?_) _ _ (foldl_keeps State.memOk _ (fun _ _ h1 => State.cancelTask_memOk h1) _ _ h)
  split
  · exact h1
  · exact State.updDie_memOk h1

theorem State.dropMatrix_memOk {s : State} {ws : List Nat} (h : s.memOk) : (s.dropMatrix ws).memOk := State.mapCores_memOk h

theorem State.quiesceWorlds_memOk {s : State} {ws : List Nat} (h : s.memOk) : (s.quiesceWorlds ws).memOk :=
  State.updFabric_memOk (State.invalidateRegions_memOk (State.cancelTriggers_memOk (State.cancelKeepingPages_memOk (State.with_memOk
      (State.dropMatrix_memOk h)))))

theorem State.eraseKeys_memOk {s : State} {iface : Nat} {ws : List Nat} (h : s.memOk) : (s.eraseKeys iface ws).memOk :=
  State.updTrust_memOk (foldl_keeps State.memOk _ (fun _ _ h1 => State.setWorld_memOk h1) _ _ h)

theorem State.scrubPool_memOk {s : State} (h : s.memOk) : s.scrubPool.memOk := by
  unfold State.scrubPool
  dsimp only
  refine foldl_keeps State.memOk _ (fun _ _ h1 => ?_) _ _ h
  split
  · exact h1
  · exact State.updDie_memOk (foldl_keeps State.memOk _ (fun _ _ h3 => State.zeroPage_memOk h3 ..) _ _ h1)

theorem State.scrubWorlds_memOk {s : State} {ws : List Nat} (h : s.memOk) : (s.scrubWorlds ws).memOk :=
  State.with_memOk (State.scrubPool_memOk h)

theorem State.reportCleared_memOk {s : State} {iface : Nat} {ws : List Nat} (h : s.memOk) : (s.reportCleared iface ws).memOk :=
  State.updTrust_memOk (State.setIface_memOk (foldl_keeps State.memOk _ (fun _ _ h1 => State.setWorld_memOk h1) _ _ h))

theorem State.clearStep_memOk {s : State} {iface n : Nat} (h : s.memOk) : (s.clearStep iface n).memOk := by
  unfold State.clearStep
  dsimp only
  split
  · exact State.updTrust_memOk (State.quiesceWorlds_memOk h)
  · exact State.updTrust_memOk (State.revokePages_memOk h ..)
  · exact State.updTrust_memOk (State.eraseKeys_memOk h)
  · exact State.updTrust_memOk (State.scrubWorlds_memOk h)
  · split
    · exact h
    · exact State.reportCleared_memOk h

theorem execFunctionLevelReset_memOk {iface : Nat} {s : State} (h : s.memOk) : Outcome.memOk (execFunctionLevelReset iface s) := by
  unfold execFunctionLevelReset
  split
  · exact State.clearStep_memOk h
  · split
    · exact h
    · exact State.beginClearing_memOk h

theorem execStopInterface_memOk {iface : Nat} {s : State} (h : s.memOk) : Outcome.memOk (execStopInterface iface s) := by
  unfold execStopInterface
  refine State.vendor_memOk h (fun _ _ h1 => ?_)
  split
  · exact h1
  · exact State.beginClearing_memOk h1

theorem execTdispInterfaceError_memOk {iface : Nat} {s : State} (h : s.memOk) : Outcome.memOk (execTdispInterfaceError iface s) := by
  unfold execTdispInterfaceError
  split
  · exact h
  · exact State.beginClearing_memOk (State.setIface_memOk h)

theorem execEvictPage_memOk {page : Nat} {s : State} (h : s.memOk) : Outcome.memOk (execEvictPage page s) := by
  unfold execEvictPage
  dsimp only
  split
  · exact h
  · exact State.updTrust_memOk (State.writeOwner_memOk h ..)

theorem execPageReturn_memOk {page : Nat} {blob : Blob} {die token : Nat} {s : State} (h : s.memOk) :
    Outcome.memOk (execPageReturn page blob die token s) := by
  unfold execPageReturn
  dsimp only
  split
  · exact h
  · split
    · exact State.writeOwner_memOk (State.poke_memOk h ..) ..
    · split
      · exact State.updTrust_memOk h
      next e1 => exact foldl_keeps State.memOk _ (fun _ _ h2 => State.killDispatch_memOk h2) _ _ (kept (State.popToken_memOk
          (State.updTrust_memOk h)) e1 :)

theorem execPageScrub_memOk {page : Nat} {s : State} (h : s.memOk) : Outcome.memOk (execPageScrub page s) := by
  unfold execPageScrub
  split
  · exact State.zeroPage_memOk h ..
  · exact h

theorem State.changeOwner_memOk {s : State} {page world state : Nat} {shared : Bool} (h : s.memOk) :
    (s.changeOwner page world state shared).memOk := by
  unfold State.changeOwner
  dsimp only
  split
  · exact h
  · refine State.writeOwner_memOk ?_ ..
    split
    · exact h
    · exact State.zeroPage_memOk h ..

theorem execCxlSnoop_memOk {line : Nat} {s : State} (h : s.memOk) : Outcome.memOk (execCxlSnoop line s) := by
  unfold execCxlSnoop
  split
  · exact State.updL2_memOk h
  · exact h

theorem State.updPort_memOk {s : State} {p : Nat} {f : Port → Port} (h : s.memOk) : (s.updPort p f).memOk := by
  unfold State.updPort
  split
  · exact h
  · exact State.updFabric_memOk h

theorem execPortTrain_memOk {port : Nat} {peerProved : Bool} {s : State} (h : s.memOk) :
    Outcome.memOk (execPortTrain port peerProved s) := by
  unfold execPortTrain
  split
  · exact State.updPort_memOk h
  · exact h

theorem execFlitTagFail_memOk {port : Nat} {s : State} (h : s.memOk) : Outcome.memOk (execFlitTagFail port s) := by
  unfold execFlitTagFail
  dsimp only
  split
  · exact h
  · exact State.updPort_memOk (State.updTrust_memOk h)

theorem State.updPower_memOk {s : State} {f : Power → Power} (h : s.memOk) : (s.updPower f).memOk := h

theorem execThermalTrip_memOk {s : State} (h : s.memOk) : Outcome.memOk (execThermalTrip s) := by
  unfold execThermalTrip
  split
  · exact h
  · exact State.updTrust_memOk (State.updPower_memOk h)

theorem execAgeingReplan_memOk {plan : List CorePlan} {record : Nat} {s : State} (h : s.memOk) :
    Outcome.memOk (execAgeingReplan plan record s) := by
  unfold execAgeingReplan
  split
  · exact h
  · exact State.updPower_memOk h

theorem State.planApplied_memOk {s : State} (h : s.memOk) : s.planApplied.memOk := State.physWrite_memOk (State.updPower_memOk h)

theorem State.applyPlan_memOk {s : State} {c : Nat} (h : s.memOk) : (s.applyPlan c).memOk := by
  unfold State.applyPlan
  dsimp only
  split
  · exact h
  · split
    · exact h
    · split
      · exact State.updCore_memOk h
      · split
        · exact State.planApplied_memOk (State.updPower_memOk (State.updCore_memOk h))
        · exact State.updPower_memOk (State.updCore_memOk h)

theorem State.takeStgdrop_memOk {s : State} {d : Nat} (h : s.memOk) : (s.takeStgdrop d).2.memOk := State.updTs_memOk h

theorem State.takeRemflt_memOk {s : State} {d : Nat} (h : s.memOk) : (s.takeRemflt d).2.memOk := State.updTs_memOk h

theorem State.takeL2Stgdrop_memOk {s : State} {d : Nat} (h : s.memOk) : (s.takeL2Stgdrop d).2.memOk := State.updL2_memOk h

theorem State.takeNack_memOk {s : State} {d : Nat} (h : s.memOk) : (s.takeNack d).2.memOk := State.updL2_memOk h

theorem State.takeFutdbl_memOk {s : State} {d : Nat} (h : s.memOk) : (s.takeFutdbl d).2.memOk := State.updL2_memOk h

theorem State.takePoison_memOk {s : State} {d : Nat} (h : s.memOk) : (s.takePoison d).2.memOk := State.updL2_memOk h

theorem State.takeRednack_memOk {s : State} (h : s.memOk) : s.takeRednack.2.memOk := State.updFabric_memOk h

theorem State.takeDroplate_memOk {s : State} (h : s.memOk) : s.takeDroplate.2.memOk := State.updFabric_memOk h

theorem State.takeTimeout_memOk {s : State} (h : s.memOk) : s.takeTimeout.2.memOk := State.updFabric_memOk h

theorem State.takeOrphan_memOk {s : State} (h : s.memOk) : s.takeOrphan.2.memOk := State.updFabric_memOk h

theorem State.takeBadhdr_memOk {s : State} (h : s.memOk) : s.takeBadhdr.2.memOk := State.updFabric_memOk h

theorem State.takePre_memOk {s : State} (h : s.memOk) : s.takePre.2.memOk := h

theorem State.takeDem_memOk {s : State} (h : s.memOk) : s.takeDem.2.memOk := h

theorem State.takeFedrop_memOk {s : State} {d : Nat} (h : s.memOk) : (s.takeFedrop d).2.memOk := State.updFit_memOk h

theorem State.takeFeinv_memOk {s : State} {d : Nat} (h : s.memOk) : (s.takeFeinv d).2.memOk := State.updFit_memOk h

theorem State.takeMcce_memOk {s : State} {d : Nat} (h : s.memOk) : (s.takeMcce d).2.memOk := State.updDie_memOk h

theorem State.takeDeny_memOk {s : State} (h : s.memOk) : s.takeDeny.2.memOk := State.updTrust_memOk h

theorem State.takeTagfail_memOk {s : State} (h : s.memOk) : s.takeTagfail.2.memOk := State.updTrust_memOk h

theorem State.takeThrot_memOk {s : State} (h : s.memOk) : s.takeThrot.2.memOk := State.updPower_memOk h

theorem State.takeDoerq_memOk {s : State} (h : s.memOk) : s.takeDoerq.2.memOk := State.clearDoerq_memOk h

theorem State.takeRng_memOk {s : State} (h : s.memOk) : s.takeRng.2.memOk := h

theorem State.readService_memOk {s : State} {d r : Nat} (h : s.memOk) : (s.readService d r).2.memOk := by
  unfold State.readService
  dsimp only
  split
  · exact h
  · exact h
  · exact h
  · exact h
  · exact h
  · exact h
  · exact State.takeStgdrop_memOk h
  · exact State.takeRemflt_memOk h
  · exact h

theorem State.readL2_memOk {s : State} {d r : Nat} (h : s.memOk) : (s.readL2 d r).2.memOk := by
  unfold State.readL2
  split
  · exact h
  · exact h
  · exact State.takeL2Stgdrop_memOk h
  · exact State.takeNack_memOk h
  · exact State.takeFutdbl_memOk h
  · exact State.takePoison_memOk h
  · exact h

theorem State.readFabric_memOk {s : State} {r : Nat} (h : s.memOk) : (s.readFabric r).2.memOk := by
  unfold State.readFabric
  dsimp only
  split
  · exact h
  · exact h
  · exact h
  · exact h
  · exact h
  · exact h
  · exact State.takeRednack_memOk h
  · exact State.takeDroplate_memOk h
  · exact State.takeTimeout_memOk h
  · exact State.takeOrphan_memOk h
  · exact State.takeBadhdr_memOk h
  · exact h

theorem State.readSched_memOk {s : State} {r : Nat} (h : s.memOk) : (s.readSched r).2.memOk := by
  unfold State.readSched
  dsimp only
  split
  · exact h
  · exact h
  · exact State.takePre_memOk h
  · exact State.takeDem_memOk h
  · exact h

theorem State.readFitting_memOk {s : State} {d r : Nat} (h : s.memOk) : (s.readFitting d r).2.memOk := by
  unfold State.readFitting
  dsimp only
  split
  · exact h
  · exact h
  · exact State.takeFedrop_memOk h
  · exact State.takeFeinv_memOk h
  · exact h

theorem State.readChecks_memOk {s : State} {d r : Nat} (h : s.memOk) : (s.readChecks d r).2.memOk := by
  unfold State.readChecks
  split
  · exact State.takeMcce_memOk h
  · exact h
  · exact h

theorem State.readTrust_memOk {s : State} {r : Nat} (h : s.memOk) : (s.readTrust r).2.memOk := by
  unfold State.readTrust
  dsimp only
  split
  · exact h
  · exact h
  · exact State.takeDeny_memOk h
  · exact State.takeTagfail_memOk h
  · exact h
  · exact h
  · exact h

theorem State.readPower_memOk {s : State} {r : Nat} (h : s.memOk) : (s.readPower r).2.memOk := by
  unfold State.readPower
  dsimp only
  split
  · exact h
  · exact h
  · exact State.takeThrot_memOk h
  · exact h
  · exact h

theorem State.readDoe_memOk {s : State} {r : Nat} (h : s.memOk) : (s.readDoe r).2.memOk := by
  unfold State.readDoe
  split
  · exact State.takeDoerq_memOk h
  · exact h
  · exact h
  · exact State.takeRng_memOk h
  · exact h

theorem State.readDieReg_memOk {s : State} {d o : Nat} (h : s.memOk) : (s.readDieReg d o).2.memOk := by
  unfold State.readDieReg
  dsimp only
  split
  · exact State.readService_memOk h
  · exact State.readL2_memOk h
  · split <;> exact h
  · split <;> exact h
  · split <;> exact h
  · exact State.readFitting_memOk h
  · exact State.readChecks_memOk h
  · split <;> exact h
  · exact h

theorem State.readMainReg_memOk {s : State} {o : Nat} (h : s.memOk) : (s.readMainReg o).2.memOk := by
  unfold State.readMainReg
  dsimp only
  split
  · exact h
  · exact State.readFabric_memOk h
  · split <;> exact h
  · exact State.readSched_memOk h
  · exact State.readTrust_memOk h
  · exact h
  · exact State.readPower_memOk h
  · exact State.readDoe_memOk h
  · exact h

theorem State.readReg_memOk {s : State} {pa : Nat} (h : s.memOk) : (s.readReg pa).2.memOk := by
  unfold State.readReg
  dsimp only
  split
  · exact h
  · split
    · split
      · exact State.readMainReg_memOk h
      · exact h
    · exact State.readDieReg_memOk h

theorem State.writeServiceReg_memOk {s : State} {d r : Nat} {v : DWord} (h : s.memOk) : Outcome.memOk (s.writeServiceReg d r v) := by
  unfold State.writeServiceReg
  dsimp only
  split
  · exact State.updTs_memOk h
  · exact State.updTs_memOk h
  · exact State.updTs_memOk h
  · split
    · exact execFaultRetry_memOk h
    · exact execFaultTrap_memOk h
    · exact execFaultKill_memOk h
    · exact State.badResponse_memOk h
  · exact State.updTs_memOk h
  · exact State.writeInval_memOk h
  · split
    · exact State.updTs_memOk h
    · exact h
  · exact h

theorem State.writeSnapReg_memOk {s : State} {r : Nat} {v : DWord} (h : s.memOk) : Outcome.memOk (s.writeSnapReg r v) := by
  unfold State.writeSnapReg
  dsimp only
  split
  · exact h
  · exact h
  · exact h
  · exact h
  · exact h
  · split
    · split
      next e2 =>
        split
        · exact execSnapshotCancel_memOk (kept (execSnapshotArm_memOk h) e2 :)
        · exact (kept (execSnapshotArm_memOk h) e2 :)
      · exact execSnapshotArm_memOk h
    · split
      · exact execSnapshotCancel_memOk h
      · exact h
  · exact h

theorem State.writeFabricReg_memOk {s : State} {r : Nat} {v : DWord} (h : s.memOk) : Outcome.memOk (s.writeFabricReg r v) := by
  have hload (s : State) (h : s.memOk) : Outcome.memOk (if bit v.toNat 1 then execWindowTableLoad s else .next s) :=
    ite_ok (execWindowTableLoad_memOk h) h
  unfold State.writeFabricReg
  dsimp only
  split
  case h_3 =>
    split
    next e => exact ite_ok (execRuleTableLoad_memOk (kept (hload _ (State.updFabric_memOk h)) e :)) (kept (hload _ (State.updFabric_memOk
        h)) e :)
    next => exact hload _ (State.updFabric_memOk h)
  case h_7 => exact h
  all_goals exact State.updFabric_memOk h

theorem State.writeSvcReg_memOk {s : State} {d r : Nat} {v : DWord} (h : s.memOk) : Outcome.memOk (s.writeSvcReg d r v) := by
  unfold State.writeSvcReg
  dsimp only
  split
  · exact State.updDie_memOk h
  · exact State.updDie_memOk h
  · exact State.updDie_memOk h
  · exact execServiceResponse_memOk h
  · exact h

theorem State.writeQueueReg_memOk {s : State} {agent : RegAgent} {q r : Nat} {v : DWord} (h : s.memOk) :
    Outcome.memOk (s.writeQueueReg agent q r v) := by
  unfold State.writeQueueReg
  dsimp only
  split
  · exact State.updQueue_memOk h
  · exact State.updQueue_memOk h
  · exact execTaskDoorbell_memOk h
  · exact State.updQueue_memOk h
  · split
    · exact execTaskQueueCancel_memOk h
    · exact h
  · exact h

theorem State.writeSchedReg_memOk {s : State} {r : Nat} {v : DWord} (h : s.memOk) : (s.writeSchedReg r v).memOk := by
  unfold State.writeSchedReg
  dsimp only
  split <;> exact h

theorem State.writeCheckReg_memOk {s : State} {d r : Nat} {v : DWord} (h : s.memOk) : Outcome.memOk (s.writeCheckReg d r v) := by
  unfold State.writeCheckReg
  dsimp only
  split
  · exact State.updDie_memOk h
  · exact State.updDie_memOk h
  · split
    · exact execMcRetry_memOk h
    · exact execMcTrap_memOk h
    · exact execMcKill_memOk h
    · exact h
  · exact State.updDie_memOk h
  · split
    · exact execDebugStop_memOk h
    · exact h
  · split
    · exact execDebugGo_memOk h
    · exact h
  · exact h

theorem execTrustQueueDoorbell_memOk {s : State} (h : s.memOk) : Outcome.memOk (execTrustQueueDoorbell s) := State.ringBell_memOk h

theorem execTrustQueueCancel_memOk {s : State} (h : s.memOk) : Outcome.memOk (execTrustQueueCancel s) := State.cancelQueue_memOk h

theorem State.writeTrustReg_memOk {s : State} {agent : RegAgent} {r : Nat} {v : DWord} (h : s.memOk) :
    Outcome.memOk (s.writeTrustReg agent r v) := by
  unfold State.writeTrustReg
  dsimp only
  split
  · exact State.updTrust_memOk h
  · exact State.updTrust_memOk h
  · split
    · exact h
    · split
      · exact execTrustQueueCancel_memOk (State.updQueue_memOk h)
      · exact State.updQueue_memOk h
  · split
    · exact State.updQueue_memOk h
    · exact h
  · split
    · exact execTrustQueueDoorbell_memOk h
    · exact h
  · exact h

theorem State.writeChannelReg_memOk {s : State} {d ch r : Nat} {v : DWord} (h : s.memOk) : (s.writeChannelReg d ch r v).memOk := by
  unfold State.writeChannelReg
  split
  · exact State.writeHead_memOk h
  · split
    · exact State.updChannel_memOk h
    · exact h

theorem State.writeDoeReg_memOk {s : State} {r : Nat} {v : DWord} (h : s.memOk) : Outcome.memOk (s.writeDoeReg r v) := by
  unfold State.writeDoeReg
  dsimp only
  split
  · exact State.respond_memOk h
  · exact h
  · exact h
  · exact h

theorem State.writeDieReg_memOk {s : State} {d o : Nat} {v : DWord} (h : s.memOk) : Outcome.memOk (s.writeDieReg d o v) := by
  unfold State.writeDieReg
  dsimp only
  split
  · exact State.writeServiceReg_memOk h
  · split
    · exact State.updL2_memOk h
    · exact h
  · exact State.writeSvcReg_memOk h
  · split
    · exact State.updCore_memOk h
    · exact h
  · split
    · exact State.updFit_memOk h
    · exact h
  · exact State.writeCheckReg_memOk h
  · split
    · exact State.writeChannelReg_memOk h
    · exact h
  · exact h

theorem State.writeMainReg_memOk {s : State} {agent : RegAgent} {o : Nat} {v : DWord} (h : s.memOk) :
    Outcome.memOk (s.writeMainReg agent o v) := by
  unfold State.writeMainReg
  dsimp only
  split
  · exact State.writeSnapReg_memOk h
  · exact State.writeFabricReg_memOk h
  · split
    · exact State.writeQueueReg_memOk h
    · exact h
  · exact State.writeSchedReg_memOk h
  · exact State.writeTrustReg_memOk h
  · split
    · exact State.updPower_memOk h
    · exact h
  · split
    · exact State.updPower_memOk h
    · exact h
  · exact State.writeDoeReg_memOk h
  · exact h

theorem State.writeReg_memOk {s : State} {agent : RegAgent} {pa : Nat} {v : DWord} (h : s.memOk) :
    Outcome.memOk (s.writeReg agent pa v) := by
  unfold State.writeReg
  dsimp only
  split
  · exact h
  · split
    · exact h
    · split
      · split
        · exact State.writeMainReg_memOk h
        · exact h
      · exact State.writeDieReg_memOk h

theorem State.returned_memOk {x : Counted} (hx : x.2.memOk) : Outcome.memOk (State.returned x) := hx

theorem State.denied_memOk {s : State} (h : s.memOk) : s.denied.memOk := State.updTrust_memOk h

theorem execRegisterWrite_memOk {agent : RegAgent} {addr : Nat} {value : DWord} {s : State} (h : s.memOk) :
    Outcome.memOk (execRegisterWrite agent addr value s) := by
  unfold execRegisterWrite
  split
  · split
    · exact State.denied_memOk h
    · exact h
  · split
    · exact h
    · exact State.writeReg_memOk h

theorem State.unsupported_memOk {s : State} (h : s.memOk) : s.unsupported.memOk := h

theorem State.barRead_memOk {s : State} {offset n : Nat} (h : s.memOk) : (s.barRead offset n).memOk := by
  unfold State.barRead
  dsimp only
  split
  · exact State.unsupported_memOk h
  · split
    · exact State.unsupported_memOk (State.denied_memOk h)
    · exact State.with_memOk (State.readReg_memOk h)

theorem State.barWrite_memOk {s : State} {offset : Nat} {bs : List Byte} (h : s.memOk) : Outcome.memOk (s.barWrite offset bs) := by
  unfold State.barWrite
  dsimp only
  split
  · exact h
  · split
    · exact State.denied_memOk h
    · split
      · exact h
      · exact State.writeReg_memOk h

theorem State.hostRead_memOk {s : State} {pa n : Nat} {iface : Option Nat} (h : s.memOk) : (s.hostRead pa n iface).memOk := by
  unfold State.hostRead
  split
  · exact State.unsupported_memOk h
  · split
    · exact State.unsupported_memOk (State.denied_memOk h)
    · split <;> exact h

theorem State.hostWrite_memOk {s : State} {pa : Nat} {bs : List Byte} {iface : Option Nat} (h : s.memOk) :
    Outcome.memOk (s.hostWrite pa bs iface) := by
  unfold State.hostWrite
  dsimp only
  split
  · exact h
  · split
    · exact State.denied_memOk h
    · split
      · exact h
      · exact State.writeHome_memOk h ..

theorem State.hostMemory_memOk {s : State} {access : HostOp} (h : s.memOk) : (s.hostMemory access).memOk := by
  unfold State.hostMemory
  split
  · split <;> exact h
  · split
    · exact State.writeHome_memOk h ..
    · exact h
  · exact h
  · exact h

theorem execHostAccess_memOk {access : HostOp} {s : State} (h : s.memOk) : Outcome.memOk (execHostAccess access s) := by
  unfold execHostAccess
  split
  · exact State.hostRead_memOk h
  · exact State.hostWrite_memOk h
  · exact State.barRead_memOk h
  · exact State.barWrite_memOk h

theorem loadReg_memOk {reg nregs size la : Nat} {ls : List (Nat × Nat)} : (loadReg reg nregs size la ls).memOk := by
  intro s u w h
  unfold loadReg
  dsimp only
  split
  · exact State.setWave_memOk h
  · split
    next e1 => exact (kept (checkGlobal_memOk h) e1 :)
    next e1 => exact (kept (checkGlobal_memOk h) e1 :)
    · split
      · exact h
      · exact State.updWave_memOk (State.readReg_memOk h)

theorem execSld_memOk {f : MF} {s : State} (h : s.memOk) : Outcome.memOk (execSld f s) := by
  unfold execSld
  dsimp only
  refine runInstr_memOk ?_ h
  refine afterJoin_memOk (fun _ _ _ h1 => ?_)
  split
  · split
    · exact loadReg_memOk _ _ _ h1
    · exact loadGlobal_memOk _ _ _ h1
  · exact loadScratch_memOk _ _ _ h1

theorem storeReg_memOk {size v : Nat} {ls : List (Nat × Nat)} : (storeReg size v ls).memOk := by
  intro s u w h
  unfold storeReg
  split
  · exact State.setWave_memOk h
  · split
    next e1 => exact (kept (checkGlobal_memOk h) e1 :)
    next e1 => exact (kept (checkGlobal_memOk h) e1 :)
    · split
      · exact h
      · split
        · exact h
        · split
          · exact h
          · split
            next e3 => split <;> exact (kept (State.writeReg_memOk h) e3 :)
            · exact h

theorem execSst_memOk {f : MF} {s : State} (h : s.memOk) : Outcome.memOk (execSst f s) := by
  unfold execSst
  dsimp only
  refine runInstr_memOk ?_ h
  refine afterJoin_memOk (fun _ _ _ h1 => ?_)
  split
  · split
    · exact afterReads_memOk storeReg_memOk _ _ _ h1
    · exact storeGlobal_memOk _ _ _ h1
  · split
    · exact h1
    · exact storeScratch_memOk _ _ _ h1

theorem State.append_memOk {s : State} {die q : Nat} {desc : List Byte} (h : s.memOk) : (s.append die q desc).2.memOk := by
  unfold State.append
  dsimp only
  split
  next e1 =>
    split
    next e2 =>
      split
      · exact (kept (engineXlate_memOk (kept (engineXlate_memOk h) e1 :)) e2 :)
      · split
        · exact (kept (engineXlate_memOk (kept (engineXlate_memOk h) e1 :)) e2 :)
        · split
          next e5 => exact State.ringBell_memOk (State.writeHome_memOk (State.writeHome_memOk (kept (engineXlate_memOk (kept
              (engineXlate_memOk (kept (engineXlate_memOk h) e1 :)) e2 :)) e5 :) ..) ..)
          · exact Xlate.after_memOk (engineXlate_memOk (kept (engineXlate_memOk (kept (engineXlate_memOk h) e1 :)) e2 :))
    · exact Xlate.after_memOk (engineXlate_memOk (kept (engineXlate_memOk h) e1 :))
  · exact Xlate.after_memOk (engineXlate_memOk h)

theorem execTaskq_memOk {f : EF} {s : State} (h : s.memOk) : Outcome.memOk (execTaskq f s) := by
  unfold execTaskq
  dsimp only
  refine runInstr_memOk ?_ h
  refine forbiddenInGroup_memOk ?_
  refine afterJoin_memOk (fun _ _ _ h1 => ?_)
  split
  · exact h1
  · split
    · exact h1
    · split
      · exact State.drainWave_memOk (State.predecessors_memOk h1)
      · split
        · exact State.drainWave_memOk (State.predecessors_memOk h1)
        · refine ite_ok (State.drainWave_memOk (State.predecessors_memOk h1)) ?_
          split
          next e3 =>
            split
            · exact State.updWave_memOk (kept (engineRead_memOk (State.drainWave_memOk (State.predecessors_memOk h1))) e3 :)
            · exact State.updWave_memOk (State.append_memOk (kept (engineRead_memOk (State.drainWave_memOk (State.predecessors_memOk h1)))
                e3 :))
          · exact State.updWave_memOk (EngineRead.after_memOk (engineRead_memOk (State.drainWave_memOk (State.predecessors_memOk h1))))

theorem execTasksig_memOk {f : EF} {s : State} (h : s.memOk) : Outcome.memOk (execTasksig f s) := by
  unfold execTasksig
  dsimp only
  refine runInstr_memOk ?_ h
  refine forbiddenInGroup_memOk ?_
  refine wordAccess_memOk (fun _ _ _ _ h1 => ?_)
  split
  · exact State.predecessors_memOk h1
  · split
    · exact State.predecessors_memOk h1
    · exact foldl_keeps State.memOk _ (fun _ _ h3 => State.pollDeps_memOk h3) _ _ (State.writeHome_memOk (State.dropL1_memOk
        (State.predecessors_memOk h1)) ..)

end Sys2Proof.Machine
end

section
/-! SUPPORT. Canonical memory: every instruction and event, and a step of the package. Settles O23. -/

set_option Elab.async false

namespace Sys2Proof.Machine

theorem exec_memOk {i : Instr} {s : State} (h : s.memOk) : Outcome.memOk (exec i s) := by
  cases i with
  | nop _ | scmp _ | ssel _ | smov _ | smovi _ | sbfe _ | sbfi _ | smad64 _ | scvt _ | sfma _ | sfcmp _ | mpopc _ | mffs _
  | msave _ | melse _ | mjoin _ | mlive _ | yield _ | vmad _ | vcmp _ | vsel _ | vmov _ | vmovi _ | vlane _ | vred _ | vscan _
  | vrand _ | vfma _ | vfcmp _ | vfclass _ | vcvt _ | vpack _ | vunpk _ | vfred _ | vfdot2 _ | tlread _ | cgbegin _ | cgabort _ =>
    exact runInstr_memOk onWave_memOk h
  | sadd _ | ssub _ | smul _ | smulh _ | sdiv _ | srem _ | smin _ | smax _ => exact runInstr_memOk scalar2_memOk h
  | sand _ | sor _ | sxor _ | sandn _ | sshl _ | sshr _ | ssha _ => exact runInstr_memOk scalarBits_memOk h
  | slzc _ | spopc _ | sffs _ => exact runInstr_memOk scalar1_memOk h
  | sadd64 _ | ssub64 _ => exact runInstr_memOk scalarPair_memOk h
  | gets _ => exact execGets_memOk h
  | mand _ | mor _ | mxor _ | mandn _ => exact runInstr_memOk mask2_memOk h
  | mnot _ | mmov _ => exact runInstr_memOk mask1_memOk h
  | bra _ | brz _ | brnz _ | bmz _ | bmnz _ | bmall _ | call _ | ret _ | jmpi _ => exact runInstr_memOk transfer_memOk h
  | exit _ => exact execExit_memOk h
  | bar _ | bara _ => exact runInstr_memOk barrier_memOk h
  | barw _ => exact execBarw_memOk h
  | nap _ => exact execNap_memOk h
  | trap _ => exact execTrap_memOk h
  | vadd _ | vsub _ | vmul _ | vmin _ | vmax _ => exact runInstr_memOk vectorInt_memOk h
  | vmulh _ | vabsd _ | vand _ | vor _ | vxor _ | vshl _ | vshr _ | vsha _ => exact runInstr_memOk vector2_memOk h
  | vlogic _ => exact execVlogic_memOk h
  | vbfe _ | vbfi _ => exact runInstr_memOk vector3_memOk h
  | vpopc _ | vlzc _ => exact runInstr_memOk vector1_memOk h
  | vplane _ | vunplane _ => exact runInstr_memOk planes_memOk h
  | vfadd _ | vfsub _ | vfmul _ | vfmin _ | vfmax _ => exact runInstr_memOk vectorFpNow_memOk h
  | vfdiv _ | vfsqrt _ => exact runInstr_memOk vectorFpLate_memOk h
  | vfrcp _ | vfrsq _ | vfexp2 _ | vflog2 _ | vfsin _ | vfcos _ | vftanh _ => exact runInstr_memOk specialFn_memOk h
  | vld _ => exact execVld_memOk h
  | vst _ => exact execVst_memOk h
  | sld _ => exact execSld_memOk h
  | sst _ => exact execSst_memOk h
  | vatom _ => exact execVatom_memOk h
  | satom _ => exact execSatom_memOk h
  | fqpush _ => exact execFqpush_memOk h
  | fqpop _ => exact execFqpop_memOk h
  | cpref _ => exact execCpref_memOk h
  | cflush _ => exact execCflush_memOk h
  | segcfg _ => exact execSegcfg_memOk h
  | tcopy _ => exact execTcopy_memOk h
  | spmark _ => exact execSpmark_memOk h
  | fload _ => exact execFload_memOk h
  | fstore _ => exact execFstore_memOk h
  | freset _ => exact execFreset_memOk h
  | fence _ => exact execFence_memOk h
  | batch _ => exact runInstr_memOk (forbiddenInGroup_memOk onWave_memOk) h
  | waitt _ => exact execWaitt_memOk h
  | waittMemory _ => exact execWaittMemory_memOk h
  | tlreadDeferred _ => exact execTlreadDeferred_memOk h
  | cgcommit _ => exact execCgcommit_memOk h
  | sbset _ | sbclr _ => exact runInstr_memOk scoreboard_memOk h
  | sbwait _ => exact execSbwait_memOk h
  | sbtake _ => exact execSbtake_memOk h
  | obres _ => exact execObres_memOk h
  | obrel _ => exact execObrel_memOk h
  | obwr _ => exact execObwr_memOk h
  | obrd _ => exact execObrd_memOk h
  | mplane _ => exact execMplane_memOk h
  | mlds _ => exact execMlds_memOk h
  | mswap _ => exact execMswap_memOk h
  | mma _ => exact execMma_memOk h
  | macz _ => exact execMacz_memOk h
  | mshout _ => exact execMshout_memOk h
  | mshin _ => exact execMshin_memOk h
  | rstore _ => exact execRstore_memOk h
  | rload _ => exact execRload_memOk h
  | rred _ => exact execRred_memOk h
  | ratom _ => exact execRatom_memOk h
  | rsig _ => exact execRsig_memOk h
  | rxfer _ => exact execRxfer_memOk h
  | trgarm _ => exact execTrgarm_memOk h
  | trgcan _ => exact execTrgcan_memOk h
  | apxbegin _ => exact execApxbegin_memOk h
  | apxend _ => exact execApxend_memOk h
  | apxinv _ => exact execApxinv_memOk h
  | apxqry _ => exact execApxqry_memOk h
  | taskq _ => exact execTaskq_memOk h
  | tasksig _ => exact execTasksig_memOk h
  | sets _ => exact execSets_memOk h
  | eret _ => exact execEret_memOk h
  | syscall _ => exact execSyscall_memOk h
  | tlbinv _ => exact execTlbinv_memOk h
  | hashb _ => exact execHashb_memOk h
  | signq _ => exact execSignq_memOk h
  | measxExtend _ => exact execMeasxExtend_memOk h
  | measxRead _ => exact execMeasxRead_memOk h
  | clauseHeader _ => exact execClauseHeader_memOk h
  | waveReady _ => exact execWaveReady_memOk h
  | lateResultLand _ _ _ => exact State.landLate_memOk h
  | napExpiry _ => exact execNapExpiry_memOk h
  | storeBufferDrain _ _ => exact execStoreBufferDrain_memOk h
  | l1SectorExpiry _ _ => exact State.updCore_memOk h
  | cowPageCopy _ => exact execCowPageCopy_memOk h
  | floadResend _ _ => exact execFloadResend_memOk h
  | translationWalkComplete _ _ => exact execTranslationWalkComplete_memOk h
  | tlbRequestReissue _ _ => exact execTlbRequestReissue_memOk h
  | faultRecordDeferred _ => exact execFaultRecordDeferred_memOk h
  | faultRetry _ _ => exact execFaultRetry_memOk h
  | faultTrap _ _ => exact execFaultTrap_memOk h
  | faultKill _ _ => exact execFaultKill_memOk h
  | invalidateAsid _ _ _ | invalidateRange _ _ _ _ _ | invalidateAll _ _ => exact State.writeInval_memOk h
  | invalidationComplete _ => exact execInvalidationComplete_memOk h
  | tileCopyPerform _ _ => exact execTileCopyPerform_memOk h
  | segcfgComplete _ => exact execSegcfgComplete_memOk h
  | tlreadPerform _ => exact execTlreadPerform_memOk h
  | obrelRelease _ _ => exact execObrelRelease_memOk h
  | obwrWrite _ _ => exact execObwrWrite_memOk h
  | obrdRead _ _ => exact execObrdRead_memOk h
  | mplaneWrite _ _ => exact execMplaneWrite_memOk h
  | mldsLoad _ _ => exact execMldsLoad_memOk h
  | mswapExchange _ _ => exact execMswapExchange_memOk h
  | mmaRowStep _ _ => exact execMmaRowStep_memOk h
  | maczClear _ _ => exact execMaczClear_memOk h
  | mshoutRow _ _ => exact execMshoutRow_memOk h
  | mshinRow _ _ => exact execMshinRow_memOk h
  | routerExpand _ => exact execRouterExpand_memOk h
  | targetPerform _ => exact execTargetPerform_memOk h
  | reductionContribution _ => exact execReductionContribution_memOk h
  | reductionSlotTimeout _ => exact execReductionSlotTimeout_memOk h
  | tombstoneExpiry _ => exact State.updFabric_memOk h
  | reductionNackResend _ => exact execReductionNackResend_memOk h
  | combineAck _ _ _ => exact execCombineAck_memOk h
  | combineTimeout _ => exact execCombineTimeout_memOk h
  | combineNackResend _ => exact execCombineNackResend_memOk h
  | remoteAck _ _ => exact execRemoteAck_memOk h
  | remoteTxTimeout _ => exact execRemoteTxTimeout_memOk h
  | rxferTransfer _ => exact execRxferTransfer_memOk h
  | roceAck _ _ => exact execRoceAck_memOk h
  | triggerFire _ _ _ => exact execTriggerFire_memOk h
  | triggerComplete _ _ => exact execTriggerComplete_memOk h
  | snapshotArm => exact execSnapshotArm_memOk h
  | snapshotCancel => exact execSnapshotCancel_memOk h
  | snapshotFreeze => exact execSnapshotFreeze_memOk h
  | snapshotMarkComplete => exact execSnapshotMarkComplete_memOk h
  | snapshotDrainRecord _ => exact execSnapshotDrainRecord_memOk h
  | windowTableLoad => exact execWindowTableLoad_memOk h
  | ruleTableLoad => exact execRuleTableLoad_memOk h
  | taskDoorbell _ => exact execTaskDoorbell_memOk h
  | taskRead _ => exact execTaskRead_memOk h
  | dependencePoll _ => exact State.pollDeps_memOk h
  | admissionTest _ => exact execAdmissionTest_memOk h
  | stagingLanding _ _ => exact execStagingLanding_memOk h
  | stagingTimeout _ => exact execStagingTimeout_memOk h
  | cohortPlace _ _ _ => exact execCohortPlace_memOk h
  | cohortRetire _ => exact execCohortRetire_memOk h
  | storageClearComplete _ _ => exact execStorageClearComplete_memOk h
  | segmentConvert _ _ _ => exact execSegmentConvert_memOk h
  | segmentConversionComplete _ _ => exact execSegmentConversionComplete_memOk h
  | waitTimeout100us _ => exact execWaitTimeout100us_memOk h
  | preemptLimitExpiry _ _ => exact execPreemptLimitExpiry_memOk h
  | cohortRestore _ _ => exact execCohortRestore_memOk h
  | taskQueueCancel _ => exact execTaskQueueCancel_memOk h
  | fittingSample _ => exact execFittingSample_memOk h
  | replayStep _ _ => exact execReplayStep_memOk h
  | serviceResponse _ _ => exact execServiceResponse_memOk h
  | serviceRecordDeferred _ => exact execServiceRecordDeferred_memOk h
  | mcRetry _ _ => exact execMcRetry_memOk h
  | mcTrap _ _ => exact execMcTrap_memOk h
  | mcKill _ _ => exact execMcKill_memOk h
  | mcRecordDeferred _ => exact execMcRecordDeferred_memOk h
  | debugStop _ => exact execDebugStop_memOk h
  | debugGo _ => exact execDebugGo_memOk h
  | channelHeadWrite _ _ _ => exact execChannelHeadWrite_memOk h
  | channelRecord _ _ _ => exact execChannelRecord_memOk h
  | packageReset _ => exact State.boot_memOk (State.cleared_memOk h ..)
  | bootRetry _ => exact execBootRetry_memOk h
  | trustQueueDoorbell => exact execTrustQueueDoorbell_memOk h
  | trustQueueCancel => exact execTrustQueueCancel_memOk h
  | doeRequest _ => exact State.doeRequest_memOk h
  | doeResponse _ => exact State.respond_memOk h
  | doeAbort => exact h
  | spdmGetVersion => exact execSpdmGetVersion_memOk h
  | spdmGetCapabilities => exact execSpdmGetCapabilities_memOk h
  | spdmNegotiateAlgorithms => exact execSpdmNegotiateAlgorithms_memOk h
  | spdmGetDigests => exact execSpdmGetDigests_memOk h
  | spdmGetCertificate => exact execSpdmGetCertificate_memOk h
  | spdmChallenge => exact execSpdmChallenge_memOk h
  | spdmGetMeasurements => exact execSpdmGetMeasurements_memOk h
  | spdmUnsupportedRequest => exact execSpdmUnsupportedRequest_memOk h
  | ideKmQuery => exact execIdeKmQuery_memOk h
  | ideKmKeyProg => exact execIdeKmKeyProg_memOk h
  | ideKmKSetGo => exact execIdeKmKSetGo_memOk h
  | ideKmKSetStop => exact execIdeKmKSetStop_memOk h
  | tdispGetVersion => exact execTdispGetVersion_memOk h
  | tdispGetCapabilities => exact execTdispGetCapabilities_memOk h
  | lockInterface _ => exact execLockInterface_memOk h
  | getDeviceInterfaceReport _ => exact execGetDeviceInterfaceReport_memOk h
  | getDeviceInterfaceState _ => exact execGetDeviceInterfaceState_memOk h
  | startInterface _ => exact execStartInterface_memOk h
  | stopInterface _ => exact execStopInterface_memOk h
  | worldRequest _ => exact execWorldRequest_memOk h
  | functionLevelReset _ => exact execFunctionLevelReset_memOk h
  | evictPage _ => exact execEvictPage_memOk h
  | pageReturn _ _ _ _ => exact execPageReturn_memOk h
  | pageScrub _ => exact execPageScrub_memOk h
  | hostAccess _ => exact execHostAccess_memOk h
  | cxlSnoop _ => exact execCxlSnoop_memOk h
  | portTrain _ _ => exact execPortTrain_memOk h
  | flitTagFail _ => exact execFlitTagFail_memOk h
  | laneFailure _ => exact State.updPort_memOk h
  | powerThrottle _ _ => exact State.updPower_memOk h
  | thermalTrip => exact execThermalTrip_memOk h
  | ageingReplan _ _ => exact execAgeingReplan_memOk h
  | doerqRead => exact State.returned_memOk (State.takeDoerq_memOk h)
  | trrngRead => exact State.returned_memOk (State.takeRng_memOk h)
  | tsstgdropRead _ => exact State.returned_memOk (State.takeStgdrop_memOk h)
  | tsremfltRead _ => exact State.returned_memOk (State.takeRemflt_memOk h)
  | l2stgdropRead _ => exact State.returned_memOk (State.takeL2Stgdrop_memOk h)
  | l2nackRead _ => exact State.returned_memOk (State.takeNack_memOk h)
  | l2futdblRead _ => exact State.returned_memOk (State.takeFutdbl_memOk h)
  | l2poisonRead _ => exact State.returned_memOk (State.takePoison_memOk h)
  | fbrednackRead => exact State.returned_memOk (State.takeRednack_memOk h)
  | fbdroplateRead => exact State.returned_memOk (State.takeDroplate_memOk h)
  | fbtimeoutRead => exact State.returned_memOk (State.takeTimeout_memOk h)
  | fborphanRead => exact State.returned_memOk (State.takeOrphan_memOk h)
  | fbbadhdrRead => exact State.returned_memOk (State.takeBadhdr_memOk h)
  | schedpreRead => exact State.returned_memOk (State.takePre_memOk h)
  | scheddemRead => exact State.returned_memOk (State.takeDem_memOk h)
  | fedropRead _ => exact State.returned_memOk (State.takeFedrop_memOk h)
  | feinvRead _ => exact State.returned_memOk (State.takeFeinv_memOk h)
  | mcceRead _ => exact State.returned_memOk (State.takeMcce_memOk h)
  | trdenyRead => exact State.returned_memOk (State.takeDeny_memOk h)
  | trtagfailRead => exact State.returned_memOk (State.takeTagfail_memOk h)
  | pwrthrotRead => exact State.returned_memOk (State.takeThrot_memOk h)
  | registerWrite _ _ _ => exact execRegisterWrite_memOk h
  | l2StagingFill _ _ => exact execL2StagingFill_memOk h
  | tdispInterfaceError _ => exact execTdispInterfaceError_memOk h
  | supplyLoss => exact State.with_memOk (State.cleared_memOk h ..)

theorem State.runWave_memOk {s : State} (h : s.memOk) : Outcome.memOk s.runWave := by
  unfold State.runWave
  split
  · exact h
  · split
    · exact h
    · split
      next e3 => exact (kept (issueGate_memOk h) e3 :)
      · split
        next e4 => exact finishAct_memOk (kept (State.nextWord_memOk h) e4 :)
        next e4 =>
          split
          · split
            · exact State.illegalWord_memOk (kept (State.nextWord_memOk h) e4 :)
            · exact exec_memOk (kept (State.nextWord_memOk h) e4 :)
          · split
            · exact exec_memOk (kept (State.nextWord_memOk h) e4 :)
            · exact State.illegalHeader_memOk (kept (State.nextWord_memOk h) e4 :)
          · split
            · exact State.illegalWord_memOk (kept (State.nextWord_memOk h) e4 :)
            · exact State.illegalHeader_memOk (kept (State.nextWord_memOk h) e4 :)

theorem State.coreTurn_memOk {s : State} {c : Nat} (h : s.memOk) : Outcome.memOk (s.coreTurn c) := by
  have hturn : State.memOk (if (s.core c).lastIssue == some s.clock then s.advance 1 0 else s) := ite_ok (State.advance_memOk h) h
  unfold State.coreTurn
  dsimp only
  refine ite_ok h ?_
  split
  next => exact hturn
  next e => exact State.runWave_memOk (kept (State.selectWave_memOk hturn) e :)

theorem State.idleTurn_memOk {s : State} (h : s.memOk) : Outcome.memOk s.idleTurn := by
  unfold State.idleTurn
  split
  · exact State.advance_memOk h
  · split
    · exact State.advance_memOk h
    · exact State.coreTurn_memOk h

theorem State.worldTurn_memOk {s : State} {t : Turn} (h : s.memOk) : (s.worldTurn t).memOk := by
  unfold State.worldTurn
  dsimp only
  split
  · exact State.updWave_memOk h
  · exact State.upsetMatrix_memOk h
  · exact State.upsetTraining_memOk h
  · exact State.updCohort_memOk h
  · exact State.updDie_memOk h
  · exact State.updWave_memOk h
  · exact State.with_memOk (State.updL2_memOk h)
  · exact State.updPower_memOk h
  · split
    · exact h
    · exact State.changeOwner_memOk h
  · exact State.updPower_memOk h
  · exact State.updTrust_memOk h
  · split <;> exact h
  · split
    · exact State.hostMemory_memOk h
    · exact h
  · exact State.updFabric_memOk h
  · exact State.updFabric_memOk h
  · split
    · exact State.provision_memOk h
    · exact h
  · split
    · exact State.placeResponder_memOk h
    · exact h
  · split
    · exact State.applyPlan_memOk h
    · exact h
  · split
    · exact State.roceArrival_memOk h
    · exact h
  · exact h
  · exact h
  · exact h

theorem State.settle_memOk {wait : State} {r : Host.Outcome State Fault Refusal} (h : wait.memOk) (hr : Outcome.memOk r) :
    Outcome.memOk (wait.settle r) := by
  cases r with
  | next s => exact ite_ok (P := State.memOk) h hr
  | fault r => trivial
  | refused r => trivial

theorem step_memOk {s : State} (h : s.memOk) : Outcome.memOk (step s) := by
  unfold step
  dsimp only
  split
  · split
    · exact State.settle_memOk (State.advance_memOk h) (State.idleTurn_memOk h)
    · exact h
  · split
    · split
      · exact State.settle_memOk (State.advance_memOk h) (State.coreTurn_memOk h)
      · exact h
    · split
      · exact State.settle_memOk h (exec_memOk h)
      · exact h
    · split
      · exact State.advance_memOk h
      · exact h
    · exact State.settle_memOk h (State.worldTurn_memOk h)

/-- Settles O23: every function of the model leaves a package whose memory is in canonical form with one whose memory is, so a step does. -/
theorem memoryStaysCanonical : Obligations.MemoryStaysCanonical := by
  intro s t h hx
  have hstep : Outcome.memOk (.next t) := kept (step_memOk h) hx
  exact hstep

end Sys2Proof.Machine
end
